-- ==== Sys2Proof/Word.lean ====
section
/-!
DEFINITION. The words of the block: what the spec treats as bits is a bit vector of its width.
-/

namespace Sys2Proof

/-- A register word (R9: registers are 32 bits wide). -/
abbrev Word := BitVec 32

/-- A byte of memory, of a record or of a message. -/
abbrev Byte := BitVec 8

/-- The 64 data bytes of a line, byte 0 in the least significant bits (R9). -/
abbrev LineData := BitVec 512

/-- The 72 symbols of a coded line, symbol 0 in the least significant bits (R130). -/
abbrev CodeWord := BitVec 576

/-- A catalogue card (Table 7.11). -/
abbrev Card := BitVec 64

/-- A 256-bit key. -/
abbrev Key := BitVec 256

end Sys2Proof
end

