-- ==== Sys2Proof/Syntax.lean ====
section
/-!
DEFINITION. The commands the block takes from outside: one constructor per row of the table of operations and events. An
operand carries what the outside world decides (an address, a value, a measured reading, an error on a wire); everything the
device itself holds is in the state.
-/

namespace Sys2Proof

/-- The management paths of Table 20.1 that can write a register: Flaud (R484) with the link that carries its request, the I3C bus
(R479) and the device's mailbox (R486). -/
inductive MgmtPath where
  | flaud (link : Fin 256)
  | i3c
  | mailbox
  deriving DecidableEq, Repr

/-- The channels of Table 3.6 whose watchdog can fire (R66); `source` is the source ID of Table 18.1 of the receiving unit. -/
inductive StallChannel where
  | datapath (source : BitVec 12)
  | registryLine (source : BitVec 12)
  | registrarInternal
  | footInternal
  deriving DecidableEq, Repr

/-- Why a twin takes a shaft over (Table 2.6, CAUSE). -/
inductive TakeoverCause where
  | gated | spotCheck | contained
  deriving DecidableEq, Repr

/-- Bits that flip on CMD on the way down and on the way up in one command handshake (R76, R79). -/
structure Noise where
  down : BitVec 24
  up   : BitVec 24
  deriving DecidableEq, Repr

/-- What a tracking pass finds for one calibrated delay (R95): it may move the code by at most one step, or the code in use
fails. -/
inductive TrackResult where
  | down | hold | up | failed
  deriving DecidableEq, Repr

/-- Errors met in a reading-room line at an access (R151). -/
inductive RoomError where
  | none | single | double | tagLost
  deriving DecidableEq, Repr

/-- What the outside world adds to one access: errors on the line as it crosses the shaft, in the reading-room line, and in
the patron's vault slot (R134, R151, R199), and whether the access ends past its latency bound (R226). -/
structure AccessEnv where
  wire  : CodeWord
  room  : RoomError
  vault : Bool
  late  : Bool
  deriving DecidableEq, Repr

/-- A write that reaches a bay's merge buffer (R142): the line's DPA >> 6, the bytes and their mask, the POISON flag of the
source data, and the class and group it is charged to. -/
structure MergeReq where
  dpaLine : BitVec 32
  data    : LineData
  mask    : BitVec 64
  poison  : Bool
  cls     : Fin 8
  grp     : Fin 256
  deriving DecidableEq, Repr

/-- A message of a link (Tables 13.3 to 13.8, 14.2, 14.2a). `op` is the OPCODE; `arg` the ARG byte; `status` and `line` the
STATUS and LINE bytes of a reply; `value` the VALUE of ATOMIC_RSP, the OPERAND of ATOMIC or the body word of a control message;
`cmp` the COMPARE of ATOMIC; `mask` and `data` the data slots; `member`, `home`, `hops` the forwarding fields of peer messages
(Table 14.2). Fields that a message does not have are 0. `reserved` says
whether any reserved field of the message is not zero, `again` whether a forwarded request has already been forwarded once more on
its way (R366; the layout has no field for it, log entry 13). -/
structure Msg where
  op     : Nat
  arg    : Nat := 0
  status : Nat := 0
  line   : Nat := 0
  patron : Nat := 0
  tag    : Nat := 0
  addr   : BitVec 64 := 0
  value  : BitVec 64 := 0
  cmp    : BitVec 64 := 0
  mask   : BitVec 64 := 0
  data   : LineData := 0
  member : Nat := 0
  home   : Nat := 0
  hops   : Nat := 0
  reserved : Bool := false
  again  : Bool := false
  deriving DecidableEq, Repr

/-- How far this end's receiver on a lane has adapted (R324): whether CTLE, DFE and margins are settled, and what it asks of the far
transmitter's two taps (0 hold, 1 increment, 2 decrement). -/
structure Adapt where
  done : Bool
  pre  : Fin 3
  post : Fin 3
  deriving DecidableEq, Repr


/-- What a spot check's patterns and memory tests found (R452): whether the signature differed, the failing words, and the first
failure's array, word address and differing bits. -/
structure SliceOutcome where
  logicFail : Bool
  failures  : Nat
  array     : BitVec 8
  addr      : BitVec 32
  bits      : BitVec 64
  deriving DecidableEq, Repr

/-- What a phase of Table 18.10 found: the domains whose test failed, the failed working columns (shaft, via group, column), the rows
with a line in error (shaft, level, bank, row field), the failed sensors, and whether any other test of the phase failed. -/
structure PhaseOutcome where
  domains : List (Fin 248)
  columns : List (Fin 64 × Fin 10 × Fin 32)
  rows    : List (Fin 64 × Fin 17 × Fin 16 × Fin 6144)
  sensors : List (Fin 218)
  other   : Bool
  deriving DecidableEq, Repr

/-- One sample of a temperature sensor (R400, Table 16.2): the reading in units of 0.25 °C, the raw code, and whether the built-in
reference measurement deviates by more than the equivalent of 2 °C. -/
structure SensorReading where
  temp   : Int
  raw    : Nat
  refBad : Bool
  deriving DecidableEq, Repr

/-- What the outside world decides in a step of the cold start (Tables 21.2, 21.3): whether the ledger directory is valid, the
registrars whose boot self-test passed, the patch level loaded, the domains whose wake check failed, the bays whose checker failed,
and the outcome of a phase of start tests. -/
structure StartOutcome where
  directory : Bool
  registrars : BitVec 2
  patch     : BitVec 16
  wakeFails : List (Fin 248)
  checkerFails : List (Fin 64)
  test      : PhaseOutcome
  deriving DecidableEq, Repr

/-- The commands of the block: one constructor per row of the table of operations and events. -/
inductive Instr where
  /-- REGISTER_WRITE (R11). -/
  | registerWrite (path : MgmtPath) (addr value : Word)
  /-- TICK_COLUMN_FAULT (R22). -/
  | tickColumnFault (die : Fin 18) (column : Fin 3)
  /-- PACE_WINDOW (R59). -/
  | paceWindow (counts : List Nat)
  /-- HANDSHAKE_STALL (R66). -/
  | handshakeStall (channel : StallChannel) (lost : List Nat)
  /-- LOCAL_TIME_CHECK (R67). -/
  | localTimeCheck (counts : List Nat)
  /-- TB_TIME_LO_READ (R68). -/
  | tbTimeLoRead
  /-- LENDING_BOUNDARY (R69). -/
  | lendingBoundary
  /-- TWIN_TAKEOVER (R40). -/
  | twinTakeover (bay : Fin 64) (cause : TakeoverCause) (lost : List Nat)
  /-- TAKEOVER_DRAIN_COMPLETE (R40). -/
  | takeoverDrainComplete (bay : Fin 64)
  /-- TWIN_HANDBACK (R40). -/
  | twinHandback (bay : Fin 64)
  /-- RR_FLUSH_START (R52). -/
  | rrFlushStart (value : Word)
  /-- ACT (R78). -/
  | act (shaft : Fin 64) (level : Fin 17) (bank : Fin 16) (row : BitVec 13) (patron : Fin 4096) (countBad : Bool) (noise : Noise)
  /-- PING (R79). -/
  | ping (shaft : Fin 64) (level : Fin 17) (noise : Noise)
  /-- RD (R73). -/
  | rd (shaft : Fin 64) (level : Fin 17) (bank : Fin 16) (line : Fin 32) (ap : Bool) (cls : Fin 8) (grp : Fin 256) (patron : Fin 4096) (scrub : Bool) (noise : Noise)
  /-- WR (R73). -/
  | wr (shaft : Fin 64) (level : Fin 17) (bank : Fin 16) (line : Fin 32) (ap : Bool) (cls : Fin 8) (grp : Fin 256) (noise : Noise)
  /-- PRE (R81). -/
  | pre (shaft : Fin 64) (level : Fin 17) (bank : Fin 16) (all : Bool) (noise : Noise)
  /-- REF (R107). -/
  | ref (shaft : Fin 64) (level : Fin 17) (bank : Fin 16) (noise : Noise)
  /-- TREF (R114). -/
  | tref (shaft : Fin 64) (level : Fin 17) (claim : BitVec 9) (noise : Noise)
  /-- SREF_ENTER (R82). -/
  | srefEnter (shaft : Fin 64) (level : Fin 17) (noise : Noise)
  /-- SREF_EXIT (R82). -/
  | srefExit (shaft : Fin 64) (level : Fin 17) (noise : Noise)
  /-- SRR (R128). -/
  | srr (shaft : Fin 64) (level : Fin 17) (word : BitVec 9) (noise : Noise)
  /-- SRW (R294). -/
  | srw (shaft : Fin 64) (level : Fin 17) (word : BitVec 9) (data : Word) (noise : Noise)
  /-- CAL_ECHO (R94). -/
  | calEcho (shaft : Fin 64) (level : Fin 17) (dead : Option (Fin 32)) (noise : Noise)
  /-- CAL_WRITE_PATTERN (R94). -/
  | calWritePattern (shaft : Fin 64) (level : Fin 17) (noise : Noise)
  /-- CAL_READ_PATTERN (R94). -/
  | calReadPattern (shaft : Fin 64) (level : Fin 17) (noise : Noise)
  /-- SYNC (R86). -/
  | sync (shaft : Fin 64) (level : Fin 17) (noise : Noise)
  /-- LINE_TRANSFER (R72). -/
  | lineTransfer (shaft : Fin 64) (wire : CodeWord) (illegal : Bool)
  /-- ACTIVATION_COMPLETE (R81). -/
  | activationComplete (shaft : Fin 64) (level : Fin 17) (bank : Fin 16) (ns : Nat)
  /-- PRECHARGE_COMPLETE (R81). -/
  | prechargeComplete (shaft : Fin 64) (level : Fin 17) (bank : Fin 16) (ns : Nat)
  /-- REFRESH_COMPLETE (R81). -/
  | refreshComplete (shaft : Fin 64) (level : Fin 17) (bank : Fin 16) (ns : Nat)
  /-- COMPLETION_FORCED (R81). -/
  | completionForced (shaft : Fin 64) (level : Fin 17) (bank : Fin 16)
  /-- COMPLETION_LATE (R83). -/
  | completionLate (shaft : Fin 64) (level : Fin 17) (bank : Fin 16)
  /-- CMD_STALL (R86). -/
  | cmdStall (shaft : Fin 64) (level : Fin 17) (atFall : Bool)
  /-- BEAT_STALL (R86). -/
  | beatStall (shaft : Fin 64)
  /-- READ_START_TIMEOUT (R86). -/
  | readStartTimeout (shaft : Fin 64)
  /-- ATTN_POLL (R80). -/
  | attnPoll (shaft : Fin 64)
  /-- BUSY_BANK_POLL (R85). -/
  | busyBankPoll (shaft : Fin 64) (level : Fin 17)
  /-- CAL_FULL_PASS (R94). -/
  | calFullPass (shaft : Fin 64) (smallest : List Nat) (beatRate : Nat) (twinSmallest : List Nat)
  /-- CAL_START (R94). -/
  | calStart (bay : Fin 64)
  /-- CAL_TRACKING_PASS (R95). -/
  | calTrackingPass (shaft : Fin 64) (results : List (Nat × TrackResult))
  /-- REFRESH_PACER_STEP (R108). -/
  | refreshPacerStep (shaft : Fin 64) (level : Fin 17) (bank : Fin 16)
  /-- LEVEL_SENSOR_SAMPLE (R104). -/
  | levelSensorSample (level : Fin 17) (readings : List SensorReading)
  /-- TREF_DEADLINE (R116). -/
  | trefDeadline (shaft : Fin 64) (level : Fin 17) (slot : Fin 32)
  /-- TREF_LATE (R116). -/
  | trefLate (shaft : Fin 64) (level : Fin 17) (slot : Fin 32)
  /-- ROW_ACT_WINDOW (R118). -/
  | rowActWindow
  /-- ROW_ACT_CLAMP_CLEAR (R119). -/
  | rowActClampClear (clamp : Fin 16)
  /-- HYGRO_SAMPLE (R121). -/
  | hygroSample (level : Fin 17) (quadrant : Fin 4) (fails : Nat)
  /-- LEVEL_STEWARD_RESET (R123). -/
  | levelStewardReset (level : Fin 17)
  /-- LEVEL_RESET_REQ (R123). -/
  | levelResetReq (level : Fin 17)
  /-- STEWARD_RESET_DONE (R123). -/
  | stewardResetDone (level : Fin 17) (readings : List SensorReading)
  /-- RECOVERING_REF_TIMER (R124). -/
  | recoveringRefTimer (shaft : Fin 64) (level : Fin 17)
  /-- A3_RECOMPUTE (R127). -/
  | a3Recompute
  /-- MERGE_WRITE (R142). -/
  | mergeWrite (write : MergeReq)
  /-- MERGE_GATHER_EXPIRY (R143). -/
  | mergeGatherExpiry (bay : Fin 64)
  /-- SHELF_READ_DEADLINE (R156). -/
  | shelfReadDeadline (bay : Fin 64)
  /-- PORT_BIND (R165). -/
  | portBind (port : Fin 64) (value : Word)
  /-- PATRON_ENABLE (R167). -/
  | patronEnable (patron : Fin 4096)
  /-- PATRON_DISABLE (R168). -/
  | patronDisable (patron : Fin 4096)
  /-- PATRON_DISABLE_COMPLETE (R168). -/
  | patronDisableComplete (patron : Fin 4096)
  /-- CARD_LINE_READ (R184). -/
  | cardLineRead (wing : Fin 4) (walk : Fin 64) (env : AccessEnv)
  /-- MATERIALISE_ZERO_DONE (R177). -/
  | materialiseZeroDone
  /-- MATERIALISING_POLL (R178). -/
  | materialisingPoll
  /-- CAT_READ (R186). -/
  | catRead (patron : Fin 4096) (level : Fin 4)
  /-- CAT_WRITE (R186). -/
  | catWrite (patron : Fin 4096) (level : Fin 4)
  /-- CAT_CAS (R186). -/
  | catCas (patron : Fin 4096) (level : Fin 4)
  /-- CAT_FENCE (R187). -/
  | catFence (patron : Fin 4096) (all : Bool)
  /-- CAT_FENCE_COMPLETE (R187). -/
  | catFenceComplete
  /-- LOAD_KEK (R194). -/
  | loadKek (slot : Fin 16)
  /-- LOAD_KEY (R195). -/
  | loadKey (patron : Fin 4096) (kek : Fin 16)
  /-- LOAD_NEXT (R197). -/
  | loadNext (patron : Fin 4096) (kek : Fin 16)
  /-- DROP_NEXT (R197). -/
  | dropNext (patron : Fin 4096)
  /-- CLEAR_KEK (R194). -/
  | clearKek (slot : Fin 16)
  /-- SEAL_RESERVED_OP (R195). -/
  | sealReservedOp
  /-- KEK_LOCK (R194). -/
  | kekLock
  /-- ALLOW_COMMIT (R219). -/
  | allowCommit
  /-- FEASIBILITY_CHECK_DONE (R221). -/
  | feasibilityCheckDone
  /-- MISS_WINDOW (R227). -/
  | missWindow (group : Fin 256)
  /-- RING_ENABLE (R236). -/
  | ringEnable (patron : Fin 4096) (ring : Fin 6)
  /-- RING_DISABLE (R238). -/
  | ringDisable (patron : Fin 4096) (ring : Fin 6)
  /-- BELL (R240). -/
  | bell (link : Fin 256) (msg : Msg)
  /-- BELL_RECORD_RETURN (R241). -/
  | bellRecordReturn (patron : Fin 4096) (line : LineData)
  /-- BELL_REREAD_TIMER (R241). -/
  | bellRereadTimer (patron : Fin 4096)
  /-- DESCRIPTOR_RETURN (R243). -/
  | descriptorReturn (patron : Fin 4096) (ring : Fin 4) (first : BitVec 16) (lines : List LineData)
  /-- INTERRUPT_HOLDOFF_END (R246). -/
  | interruptHoldoffEnd (k : Fin 4097)
  /-- HOST_READ_TIMEOUT (R248). -/
  | hostReadTimeout (tag : Fin 4096)
  /-- HOST_READ_RETRY (R248). -/
  | hostReadRetry (tag : Fin 4096)
  /-- HOST_WRITE_TIMEOUT (R248). -/
  | hostWriteTimeout (tag : Fin 4096)
  /-- HOUSE_RING_ENABLE (R250). -/
  | houseRingEnable (ring : Fin 4)
  /-- HOUSE_HEADER_REREAD (R251). -/
  | houseHeaderReread (ring : Fin 4)
  /-- HOUSE_HEADER_RETURN (R251). -/
  | houseHeaderReturn (ring : Fin 4) (header : LineData)
  /-- DESCRIPTOR_START (R264). -/
  | descriptorStart (trolley : Fin 32)
  /-- GATHER_LIST_RETURN (R257). -/
  | gatherListReturn (trolley : Fin 32) (lines : List LineData)
  /-- STEPPED_LINE_COMPLETE (R259). -/
  | steppedLineComplete (trolley : Fin 32) (slot : Fin 64) (env : AccessEnv) (ue : Bool)
  /-- RECALL_DRAIN_COMPLETE (R266). -/
  | recallDrainComplete (trolley : Fin 32)
  /-- RECALL_LATE (R266). -/
  | recallLate (trolley : Fin 32)
  /-- REKEY_CARD_POLL (R274). -/
  | rekeyCardPoll (trolley : Fin 32) (env : AccessEnv)
  /-- RESHELVE_START (R279). -/
  | reshelveStart (patron : Fin 4096)
  /-- RESHELVE_CANCEL (R281). -/
  | reshelveCancel
  /-- RESHELVE_QUERY (R281). -/
  | reshelveQuery
  /-- RESHELVE_RELEASE (R280). -/
  | reshelveRelease
  /-- JOB_ACTIVATE (R281). -/
  | jobActivate
  /-- JOB_STARTING_DONE (R281). -/
  | jobStartingDone (job : Fin 4096)
  /-- RESHELVE_LINE_COPY (R283). -/
  | reshelveLineCopy (shaft : Fin 64) (job : Option (Fin 4096)) (wire : CodeWord)
  /-- LEVEL_SPARE (R285). -/
  | levelSpare (level : Fin 32)
  /-- LEVEL_RETIRE (R288). -/
  | levelRetire (level : Fin 32)
  /-- SPARE_ABANDON (R284). -/
  | spareAbandon
  /-- ROW_WITHDRAW_COPY (R292). -/
  | rowWithdrawCopy (shaft : Fin 64) (level : Fin 17)
  /-- BAY_RESTORE_ATTEMPT (R295). -/
  | bayRestoreAttempt (bay : Fin 64) (pass : Bool)
  /-- LEDGER_SLOT_WRITE (R302). -/
  | ledgerSlotWrite
  /-- LEDGER_WRITE_DONE (R302). -/
  | ledgerWriteDone (ok : Bool)
  /-- LEDGER_READ (R301). -/
  | ledgerRead
  /-- EVAC_START (R305). -/
  | evacStart
  /-- EVAC_STOP (R305). -/
  | evacStop
  /-- LIFE_RECORD (R306). -/
  | lifeRecord (crown levels : Int)
  /-- PORT_ENABLE (R329). -/
  | portEnable (port : Fin 64)
  /-- PORT_DISABLE (R320). -/
  | portDisable (port : Fin 64)
  /-- PORT_RETRAIN (R320). -/
  | portRetrain (port : Fin 64)
  /-- LOOPBACK (R328). -/
  | loopback (port : Fin 64) (on : Bool)
  /-- SIGNAL_DETECT (R320). -/
  | signalDetect (link : Fin 256) (lanes : BitVec 16)
  /-- TS_BLOCK (R312). -/
  | tsBlock (port : Fin 64) (lane : Fin 18) (payload : BitVec 64) (adapt : Adapt)
  /-- SEED_BLOCK (R317). -/
  | seedBlock (port : Fin 64) (lane : Fin 18) (payload : BitVec 64)
  /-- CC_BLOCK (R313). -/
  | ccBlock (port : Fin 64) (lane : Fin 18) (payload : BitVec 64)
  /-- DATA_BLOCK (R311). -/
  | dataBlock (port : Fin 64) (lane : Fin 18) (header : BitVec 2) (payload : BitVec 64)
  /-- TRAINING_PHASE_TIMEOUT (R321). -/
  | trainingPhaseTimeout (link : Fin 256)
  /-- STEP_CHANGE_IDLE (R320). -/
  | stepChangeIdle (link : Fin 256)
  /-- RECOVERY_TRIGGER (R325). -/
  | recoveryTrigger (link : Fin 256)
  /-- EXIT_PATTERN (R325). -/
  | exitPattern (link : Fin 256)
  /-- LANE_FAILURE (R326). -/
  | laneFailure (port : Fin 64) (lane : Fin 18) (unstable : Bool)
  /-- RECOVERY_TIMEOUT (R320). -/
  | recoveryTimeout (link : Fin 256)
  /-- FLIT_RECEIVE (R336). -/
  | flitReceive (link : Fin 256) (columns : List Nat) (full deleted : Bool) (envs : List AccessEnv)
  /-- FLIT_SEND (R337). -/
  | flitSend (link : Fin 256) (starved : Bool)
  /-- ANSWER_TIMEOUT (R338). -/
  | answerTimeout (link : Fin 256)
  /-- LOAD (R349). -/
  | load (link : Fin 256) (msg : Msg) (env : AccessEnv)
  /-- STORE (R349). -/
  | store (link : Fin 256) (msg : Msg) (env : AccessEnv)
  /-- STORE_MASKED (R349). -/
  | storeMasked (link : Fin 256) (msg : Msg) (env : AccessEnv)
  /-- ATOMIC (R349). -/
  | atomic (link : Fin 256) (msg : Msg) (env : AccessEnv)
  /-- FENCE (R350). -/
  | fence (link : Fin 256) (msg : Msg)
  /-- RSP (R353). -/
  | rsp (link : Fin 256) (msg : Msg)
  /-- HOST_DATA (R352). -/
  | hostData (link : Fin 256) (msg : Msg)
  /-- HALT (R355). -/
  | halt (link : Fin 256)
  /-- INJ_ENABLE (R357). -/
  | injEnable (port : Fin 64)
  /-- INJ_UNLOCK_READ (R357). -/
  | injUnlockRead (port : Fin 64)
  /-- INJ_UNLOCK_KEY (R357). -/
  | injUnlockKey (port : Fin 64) (key : BitVec 16)
  /-- COLL_JOIN (R374). -/
  | collJoin
  /-- COLL_FOUND (R374). -/
  | collFound
  /-- COLL_LEAVE (R376). -/
  | collLeave
  /-- FWD_LOAD (R366). -/
  | fwdLoad (link : Fin 256) (msg : Msg) (env : AccessEnv)
  /-- FWD_STORE (R366). -/
  | fwdStore (link : Fin 256) (msg : Msg) (env : AccessEnv)
  /-- FWD_ATOMIC (R366). -/
  | fwdAtomic (link : Fin 256) (msg : Msg) (env : AccessEnv)
  /-- FWD_RSP (R366). -/
  | fwdRsp (link : Fin 256) (msg : Msg) (late : Bool)
  /-- FWD_DATA (R366). -/
  | fwdData (link : Fin 256) (msg : Msg) (late : Bool)
  /-- XCOPY (R373). -/
  | xcopy (link : Fin 256) (msg : Msg)
  /-- CARD_SET (R372). -/
  | cardSet (link : Fin 256) (msg : Msg)
  /-- CARD_ACK (R372). -/
  | cardAck (link : Fin 256) (msg : Msg)
  /-- ROLL_CALL (R378). -/
  | rollCall (link : Fin 256) (msg : Msg)
  /-- ROLL_ANSWER (R378). -/
  | rollAnswer (link : Fin 256) (msg : Msg)
  /-- TIME_REQ (R377). -/
  | timeReq (link : Fin 256) (msg : Msg)
  /-- TIME_RSP (R377). -/
  | timeRsp (link : Fin 256) (msg : Msg)
  /-- JOIN_REQ (R375). -/
  | joinReq (link : Fin 256) (msg : Msg)
  /-- JOIN_RSP (R375). -/
  | joinRsp (link : Fin 256) (msg : Msg)
  /-- FWD_TIMEOUT (R368). -/
  | fwdTimeout (tag : Fin 4096)
  /-- ROLL_CALL_TIMER (R378). -/
  | rollCallTimer
  /-- TIME_EXCHANGE_TIMER (R377). -/
  | timeExchangeTimer
  /-- TSYNC_PULSE (R377). -/
  | tsyncPulse
  /-- HEAD_LOST (R379). -/
  | headLost (reach evac : BitVec 64)
  /-- JOIN_TIMEOUT (R374). -/
  | joinTimeout
  /-- EVAC_LIST_READ (R382). -/
  | evacListRead (line : LineData)
  /-- REF_QUALIFY (R386). -/
  | refQualify (input : Fin 2) (errors : List Int)
  /-- REF_LOST (R386). -/
  | refLost (input : Fin 2) (errors : List Int)
  /-- REF_WINDOW (R386). -/
  | refWindow (input : Fin 2) (ppm : Int) (errors : List Int)
  /-- REF_RETURN_HOLD (R387). -/
  | refReturnHold (errors : List Int)
  /-- PLL_LOCK_DETECT (R391). -/
  | pllLockDetect (pll : Fin 68) (clamps : Nat)
  /-- PLL_WINDOW_CHECK (R392). -/
  | pllWindowCheck (pll : Fin 68) (pass : Bool)
  /-- PLL_ACQUIRE_TIMEOUT (R391). -/
  | pllAcquireTimeout (pll : Fin 68)
  /-- PLL_LOCK_LOST (R391). -/
  | pllLockLost (pll : Fin 68)
  /-- PLL_SLEW_DONE (R397). -/
  | pllSlewDone (pll : Fin 68)
  /-- HOLDOVER_LONG (R396). -/
  | holdoverLong
  /-- CLK_HP3_FREQ (R392). -/
  | clkHp3Freq (freq : BitVec 4)
  /-- CROWN_SENSOR_SAMPLE (R400). -/
  | crownSensorSample (readings : List SensorReading)
  /-- FOOT_SENSOR_SAMPLE (R400). -/
  | footSensorSample (readings : List SensorReading)
  /-- STACK_MODEL_EVAL (R402). -/
  | stackModelEval (power : List Nat)
  /-- WITNESS_TIMEOUT (R407). -/
  | witnessTimeout (level : Fin 17)
  /-- THERM_CLEAR (R405). -/
  | thermClear (level : Fin 17)
  /-- RAIL_CROSSING (R414). -/
  | railCrossing (rail : Fin 7) (mv : BitVec 12)
  /-- PGOOD_LOST (R417). -/
  | pgoodLost
  /-- RESET_PIN (R417). -/
  | resetPin
  /-- FOOT_RESET (R418). -/
  | footReset
  /-- FOOT_RESET_END (R418). -/
  | footResetEnd (pins link : BitVec 4)
  /-- POWER_GATE (R421). -/
  | powerGate (domain : BitVec 8)
  /-- POWER_WAKE (R421). -/
  | powerWake (domain : BitVec 8)
  /-- POWER_CLOSE (R426). -/
  | powerClose
  /-- POWER_OP_INVALID (R436). -/
  | powerOpInvalid (domain : BitVec 8)
  /-- DOMAIN_DRAIN_COMPLETE (R420). -/
  | domainDrainComplete (domain : Fin 248)
  /-- DOMAIN_SUPPLY_GOOD (R420). -/
  | domainSupplyGood (domain : Fin 248)
  /-- DOMAIN_WAKE_CHECK_DONE (R420). -/
  | domainWakeCheckDone (domain : Fin 248) (pass : Bool)
  /-- CLOSE_COMMIT (R426). -/
  | closeCommit
  /-- CLOSED_REACHED (R426). -/
  | closedReached
  /-- WAKE_PIN (R428). -/
  | wakePin (pin : Fin 4) (level : Bool)
  /-- LINK_WAKE (R432). -/
  | linkWake (port : Fin 4) (signal : Bool)
  /-- COLD_START (R501). -/
  | coldStart (closedMs : Word)
  /-- START_PHASE_DONE (R501). -/
  | startPhaseDone (outcome : StartOutcome)
  /-- PORT_READY_TIMEOUT (R503). -/
  | portReadyTimeout (port : Fin 64)
  /-- START_CFG_SAVE (R498). -/
  | startCfgSave
  /-- SAFE_N (R434). -/
  | safeN (chatter : Bool)
  /-- SAFE_N_RELEASE (R434). -/
  | safeNRelease
  /-- SAFE_N_HIGH_TIMER (R434). -/
  | safeNHighTimer
  /-- FAULT_EVENT (R439). -/
  | faultEvent (type : BitVec 8) (source : BitVec 12) (detail : BitVec 64) (lost : List Nat)
  /-- FAULT_CLEAR (R446). -/
  | faultClear (seq : Word)
  /-- FAULT_OVERFLOW_CLEAR (R446). -/
  | faultOverflowClear
  /-- EVENT_LOG_BATCH (R445). -/
  | eventLogBatch
  /-- SAFE_ENTER (R449). -/
  | safeEnter
  /-- SAFE_RESUME (R450). -/
  | safeResume
  /-- SLICE_START (R454). -/
  | sliceStart (domain : BitVec 8)
  /-- SLICE_STOP (R455). -/
  | sliceStop (patterns : BitVec 16)
  /-- SLICE_SCHEDULE (R454). -/
  | sliceSchedule
  /-- SLICE_PREPARED (R455). -/
  | slicePrepared
  /-- SLICE_TEST_DONE (R455). -/
  | sliceTestDone (outcome : SliceOutcome)
  /-- SLICE_RESTORED (R455). -/
  | sliceRestored (pass : Bool)
  /-- SLICE_URGENT_STOP (R457). -/
  | sliceUrgentStop (patterns : BitVec 16)
  /-- SLICE_HP3_TIMEOUT (R455). -/
  | sliceHp3Timeout (patterns : BitVec 16)
  /-- INVENTORY_START (R458). -/
  | inventoryStart
  /-- INVENTORY_PHASE_DONE (R459). -/
  | inventoryPhaseDone (outcome : PhaseOutcome)
  /-- PERF_VALUE_LO_READ (R463). -/
  | perfValueLoRead (counter : Fin 512)
  /-- PERF_VALUE_HI_WRITE (R463). -/
  | perfValueHiWrite (counter : Fin 512) (value : Word)
  /-- PERF_FREEZE (R463). -/
  | perfFreeze (freeze : Bool)
  /-- PERF_CLEAR (R463). -/
  | perfClear
  /-- TRACE_ENABLE (R467). -/
  | traceEnable
  /-- LEAF_MS_MARK (R469). -/
  | leafMsMark
  /-- STATEMENT_BOUNDARY (R472). -/
  | statementBoundary
  /-- PATRON_CIRC_READ (R470). -/
  | patronCircRead (patron : Fin 4096)
  /-- I3C_PRIVATE_WRITE (R480). -/
  | i3cPrivateWrite (bytes : List (BitVec 8))
  /-- I3C_PRIVATE_READ (R480). -/
  | i3cPrivateRead (words : BitVec 7)
  /-- ENTDAA (R479). -/
  | entdaa (address : BitVec 7)
  /-- SETNEWDA (R479). -/
  | setnewda (address : BitVec 7)
  /-- RSTDAA (R479). -/
  | rstdaa
  /-- ENEC (R479). -/
  | enec (events : BitVec 8)
  /-- DISEC (R479). -/
  | disec (events : BitVec 8)
  /-- GETPID (R479). -/
  | getpid
  /-- GETBCR (R479). -/
  | getbcr
  /-- GETDCR (R479). -/
  | getdcr
  /-- GETSTATUS (R479). -/
  | getstatus
  /-- SETMRL (R479). -/
  | setmrl (length : BitVec 16)
  /-- GETMRL (R479). -/
  | getmrl
  /-- SETMWL (R479). -/
  | setmwl (length : BitVec 16)
  /-- GETMWL (R479). -/
  | getmwl
  /-- GETMXDS (R479). -/
  | getmxds
  /-- RSTACT (R479). -/
  | rstact (action : BitVec 8)
  /-- FLAUD_READ (R484). -/
  | flaudRead (link : Fin 256) (tag : BitVec 12) (body : LineData)
  /-- FLAUD_WRITE (R484). -/
  | flaudWrite (link : Fin 256) (tag : BitVec 12) (body : LineData)
  /-- FLAUD_MODIFY (R484). -/
  | flaudModify (link : Fin 256) (tag : BitVec 12) (body : LineData)
  /-- FLAUD_ECHO (R484). -/
  | flaudEcho (link : Fin 256) (tag : BitVec 12) (body : LineData)
  /-- DEV_MBOX_GO (R485). -/
  | devMboxGo
  /-- BYPASS (R486). -/
  | bypass
  /-- IDCODE (R486). -/
  | idcode
  /-- SAMPLE_PRELOAD (R486). -/
  | samplePreload (pins preload : Nat)
  /-- CHALLENGE (R486). -/
  | challenge (scope : BitVec 8)
  /-- RESPONSE (R487). -/
  | response (response : BitVec 128)
  /-- EXTEST (R486). -/
  | extest
  /-- WRAPPER (R486). -/
  | wrapper (domain : Fin 248)
  /-- SCAN (R486). -/
  | scan
  /-- MEMTEST (R486). -/
  | memtest
  /-- TAP_RESET (R488). -/
  | tapReset
  /-- DEV_REG_SWAP (R489). -/
  | devRegSwap
  /-- TAKEOVER_COMPLETE (R490). -/
  | takeoverComplete
  /-- STANDBY_SELF_TEST_DONE (R490). -/
  | standbySelfTestDone (pass : Bool)
  /-- DEV_OPEN (R494). -/
  | devOpen
  /-- TB_SLEW_COMPLETE (R70). -/
  | tbSlewComplete
  /-- ACQUIRE_LANE_MISSING (R322). -/
  | acquireLaneMissing (link : Fin 256) (lane : Fin 16)
  /-- TF_COUNT_READ (R11). -/
  | tfCountRead (patron : Fin 4096) (entry : Fin 8)
  deriving DecidableEq, Repr

end Sys2Proof
end

