-- ==== Sys2Proof/Machine/Code.lean ====
section
/-!
DEFINITION. The codes of the block: GF(2^8), the RS(72,64) line code with its poison signature (R130 to R134), and the cyclic
redundancy checks (R310 CRC-8, R261 CRC-64).
-/

namespace Sys2Proof.Machine

/-- Multiplication by α = 0x02 modulo x^8 + x^4 + x^3 + x^2 + 1 (R130). -/
def gfTwice (a : Nat) : Nat := if a < 128 then a * 2 else (a * 2) ^^^ 0x11D

/-- Multiplication in GF(2^8) over the low `n` bits of the second factor (R130). -/
def gfMulBits : Nat → Nat → Nat → Nat
  | 0, _, _ => 0
  | n + 1, a, b => (if b % 2 = 1 then a else 0) ^^^ gfMulBits n (gfTwice a) (b / 2)

/-- Multiplication in GF(2^8) (R130). -/
def gfMul (a b : Nat) : Nat := gfMulBits 8 a b

/-- α to a power (R130). -/
def gfAlpha : Nat → Nat
  | 0 => 1
  | n + 1 => gfTwice (gfAlpha n)

/-- A power in GF(2^8). -/
def gfPow (a : Nat) : Nat → Nat
  | 0 => 1
  | n + 1 => gfMul a (gfPow a n)

/-- The inverse in GF(2^8): a^254; 0 for 0. -/
def gfInv (a : Nat) : Nat :=
  let a2 := gfMul a a
  let a4 := gfMul a2 a2
  let a8 := gfMul a4 a4
  let a16 := gfMul a8 a8
  let a32 := gfMul a16 a16
  let a64 := gfMul a32 a32
  let a128 := gfMul a64 a64
  gfMul a2 (gfMul a4 (gfMul a8 (gfMul a16 (gfMul a32 (gfMul a64 a128)))))

/-- The value of a polynomial, lowest coefficient first. -/
def polyEval (p : List Nat) (x : Nat) : Nat := p.foldr (fun c acc => c ^^^ gfMul x acc) 0

/-- The sum of two polynomials, lowest coefficient first. -/
def polyAdd : List Nat → List Nat → List Nat
  | [], q => q
  | p, [] => p
  | a :: p, b :: q => (a ^^^ b) :: polyAdd p q

/-- A polynomial times a constant. -/
def polyScale (c : Nat) (p : List Nat) : List Nat := p.map (gfMul c)

/-- The product of two polynomials, lowest coefficient first. -/
def polyMul : List Nat → List Nat → List Nat
  | [], _ => []
  | a :: p, q => polyAdd (polyScale a q) (0 :: polyMul p q)

/-- The degree of a polynomial; 0 for a constant. -/
def polyDeg (p : List Nat) : Nat :=
  (p.zipIdx.foldl (fun d ci => if ci.1 ≠ 0 then ci.2 else d) 0)

/-- Symbol j of a coded line (R130). -/
def CodeWord.sym (w : CodeWord) (j : Nat) : Nat := (w.toNat >>> (8 * j)) % 256

/-- The 72 symbols of a coded line, symbol 0 first (R130). -/
def CodeWord.syms (w : CodeWord) : List Nat := (List.range 72).map (CodeWord.sym w)

/-- A number from bytes, the first byte lowest (R9). -/
def natOfBytes : List Nat → Nat
  | [] => 0
  | b :: bs => b % 256 + 256 * natOfBytes bs

/-- The bytes of a number, lowest first (R9). -/
def bytesOfNat : Nat → Nat → List Nat
  | 0, _ => []
  | n + 1, v => v % 256 :: bytesOfNat n (v / 256)

/-- A coded line from its symbols. -/
def codeWordOf (s : List Nat) : CodeWord := BitVec.ofNat 576 (natOfBytes s)

/-- The generator polynomial (x + α^0)(x + α^1) … (x + α^7), lowest coefficient first (R130). -/
def rsGen : List Nat := (List.range 8).foldl (fun g i => polyMul g [gfAlpha i, 1]) [1]

/-- One step of the remainder of m(x) · x^8 by g(x), the register highest coefficient first (R130). -/
def rsStep (reg : List Nat) (d : Nat) : List Nat :=
  match reg with
  | [] => []
  | r0 :: rs =>
    let fb := r0 ^^^ d
    List.zipWith (fun r g => r ^^^ gfMul fb g) (rs ++ [0]) ((rsGen.take 8).reverse)

/-- The eight check symbols of 64 data bytes (R130). -/
def rsCheck (data : List Nat) : List Nat := data.foldl rsStep [0, 0, 0, 0, 0, 0, 0, 0]

/-- The poison signature over the whole word (R133, Table 6.2). -/
def poisonWord : CodeWord :=
  codeWordOf (List.replicate 64 0 ++ [0xB4, 0x2D, 0x78, 0xE1, 0x0F, 0x96, 0xC3, 0x5A])

/-- A line with fresh check symbols, XORed with the signature when it is poisoned (R130, R133). -/
def encodeLine (data : LineData) (poison : Bool) : CodeWord :=
  let d := bytesOfNat 64 data.toNat
  let w := codeWordOf (d ++ rsCheck d)
  if poison then w ^^^ poisonWord else w

/-- The data symbols of a word as read (R130). -/
def CodeWord.data (w : CodeWord) : LineData := w.extractLsb' 0 512

/-- One syndrome: the value of the received polynomial at α^i (R130). -/
def rsSyndrome (s : List Nat) (i : Nat) : Nat :=
  let a := gfAlpha i
  s.foldl (fun acc c => gfMul a acc ^^^ c) 0

/-- The eight syndromes of a word (R134). -/
def rsSyndromes (w : CodeWord) : List Nat := (List.range 8).map (rsSyndrome (CodeWord.syms w))

/-- The locator of symbol j: α^(71 − j) (R130). -/
def rsLocator (j : Nat) : Nat := gfAlpha (71 - j)

/-- The state of the locator search. -/
structure BMState where
  lam  : List Nat
  prev : List Nat
  len  : Nat
  deriving DecidableEq, Repr

/-- One step of the errors-and-erasures locator search: `r` syndromes taken, `f` erasures. -/
def bmStep (s : List Nat) (f : Nat) (st : BMState) (r : Nat) : BMState :=
  let delta := (st.lam.zipIdx.foldl (fun acc ci => if ci.2 ≤ r then acc ^^^ gfMul ci.1 (s.getD (r - ci.2) 0) else acc) 0)
  if delta = 0 then { st with prev := 0 :: st.prev }
  else
    let lam' := polyAdd st.lam (polyScale delta (0 :: st.prev))
    if 2 * st.len ≤ r + f then
      { lam := lam', prev := polyScale (gfInv delta) st.lam, len := r + 1 + f - st.len }
    else { lam := lam', prev := 0 :: st.prev, len := st.len }

/-- The odd-degree part of a polynomial divided by x: its formal derivative in characteristic 2. -/
def polyDeriv (p : List Nat) : List Nat :=
  (p.drop 1).zipIdx.map (fun ci => if ci.2 % 2 = 0 then ci.1 else 0)

/-- A decoded word and how many unknown errors it had. -/
structure Decoded where
  word   : CodeWord
  errors : List Nat
  deriving DecidableEq, Repr

/-- The bounded-distance decoder: the codeword within e unknown errors and the erasures, with 2e + f at most `limit`, if
there is one (R132, R134). -/
def rsDecode (w : CodeWord) (erasures : List Nat) (limit : Nat) : Option Decoded :=
  let f := erasures.length
  if f > limit then none
  else
    let s := rsSyndromes w
    if s.all (· = 0) then some { word := w, errors := [] }
    else
      let gam := erasures.foldl (fun g j => polyMul g [1, rsLocator j]) [1]
      let st := ((List.range (8 - f)).map (· + f)).foldl (bmStep s f) { lam := gam, prev := gam, len := f }
      let lam := st.lam
      let n := polyDeg lam
      let pos := (List.range 72).filter (fun j => polyEval lam (gfInv (rsLocator j)) = 0)
      if pos.length ≠ n ∨ 2 * (n - f) + f > limit then none
      else
        let om := (polyMul s lam).take 8
        let lamD := polyDeriv lam
        let mag := fun j =>
          let x := rsLocator j
          let xi := gfInv x
          gfMul x (gfMul (polyEval om xi) (gfInv (polyEval lamD xi)))
        let w' := pos.foldl (fun acc j => acc ^^^ BitVec.ofNat 576 (mag j <<< (8 * j))) w
        if (rsSyndromes w').all (· = 0) then
          some { word := w', errors := pos.filter (fun j => ¬ erasures.contains j ∧ mag j ≠ 0) }
        else none

/-- The outcomes of Table 6.3 (R134). -/
inductive LineOutcome where
  | clean | corrected | erasureOnly | poisoned | poisonedCorrected | uncorrectable
  deriving DecidableEq, Repr

/-- What the decoder delivers: the outcome, the data, the POISON flag and the positions of the unknown errors. -/
structure LineRead where
  outcome : LineOutcome
  data    : LineData
  poison  : Bool
  errors  : List Nat
  deriving DecidableEq, Repr

/-- The decode order of R134 and the deliveries of Table 6.3. -/
def decodeLine (w : CodeWord) (erasures : List Nat) : LineRead :=
  let s := rsSyndromes w
  if s.all (· = 0) then { outcome := .clean, data := CodeWord.data w, poison := false, errors := [] }
  else if s = rsSyndromes poisonWord then
    { outcome := .poisoned, data := CodeWord.data w, poison := true, errors := [] }
  else
    match rsDecode w erasures 8 with
    | some d =>
      if d.errors = [] then { outcome := .erasureOnly, data := CodeWord.data d.word, poison := false, errors := [] }
      else { outcome := .corrected, data := CodeWord.data d.word, poison := false, errors := d.errors }
    | none =>
      match rsDecode (w ^^^ poisonWord) erasures 4 with
      | some d => { outcome := .poisonedCorrected, data := CodeWord.data d.word, poison := true, errors := d.errors }
      | none => { outcome := .uncorrectable, data := CodeWord.data w, poison := true, errors := [] }

/-- One bit through a CRC register of `n` bits, highest bit first. -/
def crcBit (n poly : Nat) (reg : Nat) (b : Bool) : Nat :=
  let top := (reg >>> (n - 1)) % 2 = 1
  let sh := (reg * 2) % 2 ^ n
  if top = b then sh else sh ^^^ poly

/-- One byte through a CRC register, highest bit first. -/
def crcByte (n poly : Nat) (reg byte : Nat) : Nat :=
  (List.range 8).foldl (fun r k => crcBit n poly r (Nat.testBit byte (7 - k))) reg

/-- A CRC over bytes from an initial register, highest bit of each byte first. -/
def crc (n poly init : Nat) (bytes : List Nat) : Nat := bytes.foldl (crcByte n poly) init

end Sys2Proof.Machine
end

