-- ==== Sys2Proof/Machine/Crypto.lean ====
section
/-!
DEFINITION. The ciphers the block applies: AES-256 and XTS over one line (R190, IEEE 1619), key unwrapping (R195, RFC 3394),
SHA-256 and HMAC (R371, R487). Bytes are numbers below 256, first byte first.
-/

namespace Sys2Proof.Machine

/-- The AES substitution box, entry i in bits [8i + 7:8i]. -/
def aesBox : Nat := 0x16bb54b00f2d99416842e6bf0d89a18cdf2855cee9871e9b948ed9691198f8e19e1dc186b95735610ef6034866b53e708a8bbd4b1f74dde8c6b4a61c2e2578ba08ae7a65eaf4566ca94ed58d6d37c8e779e4959162acd3c25c2406490a3a32e0db0b5ede14b8ee4688902a22dc4f816073195d643d7ea7c41744975fec130ccdd2f3ff1021dab6bcf5389d928f40a351a89f3c507f02f94585334d43fbaaefd0cf584c4a39becb6a5bb1fc20ed00d153842fe329b3d63b52a05a6e1b1a2c830975b227ebe28012079a059618c323c7041531d871f1e5a534ccf73f362693fdb7c072a49cafa2d4adf04759fa7dc982ca76abd7fe2b670130c56f6bf27b777c63

/-- The inverse AES substitution box, entry i in bits [8i + 7:8i]. -/
def aesBoxInv : Nat := 0x7d0c2155631469e126d677ba7e042b17619953833cbbebc8b0f52aae4d3be0a0ef9cc9939f7ae52d0d4ab519a97f51605fec8027591012b131c7078833a8dd1ff45acd78fec0db9a2079d2c64b3e56fc1bbe18aa0e62b76f89c5291d711af1476edf751ce837f9e28535ade72274ac9673e6b4f0cecff297eadc674f4111913a6b8a130103bdafc1020f3fca8f1e2cd00645b3b80558e4f70ad3bc8c00abd890849d8da75746155edab9edfd5048706c92b6655dcc5ca4d41698688664f6f87225d18b6d49a25b76b224d92866a12e084ec3fa420b954cee3d23c2a632947b54cbe9dec444438e3487ff2f9b8239e37cfbd7f3819ea340bf38a53630d56a0952

/-- A byte through the substitution box. -/
def aesSub (b : Nat) : Nat := (aesBox >>> (8 * b)) % 256

/-- A byte through the inverse substitution box. -/
def aesSubInv (b : Nat) : Nat := (aesBoxInv >>> (8 * b)) % 256

/-- Doubling in the AES field. -/
def aesTwice (a : Nat) : Nat := if a < 128 then a * 2 else (a * 2 - 256) ^^^ 0x1B

/-- Multiplication in the AES field by a constant of at most four bits. -/
def aesMul (c a : Nat) : Nat :=
  let a2 := aesTwice a
  let a4 := aesTwice a2
  (if c.testBit 0 then a else 0) ^^^ (if c.testBit 1 then a2 else 0) ^^^ (if c.testBit 2 then a4 else 0) ^^^
    (if c.testBit 3 then aesTwice a4 else 0)

/-- One more word of the AES-256 key schedule, the words so far newest first. -/
def aesNextWord (ws : List (List Nat)) (i : Nat) : List Nat :=
  let t := ws.headD []
  let t := if i % 8 = 0 then
      List.zipWith (fun a b => a ^^^ b) ((t.drop 1 ++ t.take 1).map aesSub)
        [(List.range (i / 8 - 1)).foldl (fun a _ => aesTwice a) 1, 0, 0, 0]
    else if i % 8 = 4 then t.map aesSub else t
  List.zipWith (fun a b => a ^^^ b) (ws.getD 7 []) t

/-- The sixty words of the AES-256 key schedule as fifteen round keys. -/
def aesKeys (key : List Nat) : List (List Nat) :=
  let ws := ((List.range 8).map (fun i => (key.drop (4 * i)).take 4)).reverse
  let all := ((List.range 52).foldl (fun ws j => aesNextWord ws (8 + j) :: ws) ws).reverse
  (List.range 15).map (fun r => ((all.drop (4 * r)).take 4).flatten)

/-- Two byte lists XORed. -/
def xorBytes (a b : List Nat) : List Nat := List.zipWith (fun x y => x ^^^ y) a b

/-- The row shift: output byte 4c + r comes from byte 4((c + r·k) mod 4) + r. -/
def aesShift (k : Nat) (s : List Nat) : List Nat :=
  (List.range 16).map (fun i => s.getD (4 * ((i / 4 + (i % 4) * k) % 4) + i % 4) 0)

/-- One column times the circulant of a first row. -/
def aesMix (m : List Nat) (s : List Nat) : List Nat :=
  (List.range 16).map (fun i =>
    (List.range 4).foldl (fun acc j => acc ^^^ aesMul (m.getD ((j + 4 - i % 4) % 4) 0) (s.getD (4 * (i / 4) + j) 0)) 0)

/-- AES-256 encryption of one block under a key schedule. -/
def aesEnc (ks : List (List Nat)) (blk : List Nat) : List Nat :=
  let s := xorBytes blk (ks.getD 0 [])
  let s := (List.range 13).foldl (fun s r =>
    xorBytes (aesMix [2, 3, 1, 1] (aesShift 1 (s.map aesSub))) (ks.getD (r + 1) [])) s
  xorBytes (aesShift 1 (s.map aesSub)) (ks.getD 14 [])

/-- AES-256 decryption of one block under a key schedule. -/
def aesDec (ks : List (List Nat)) (blk : List Nat) : List Nat :=
  let s := xorBytes blk (ks.getD 14 [])
  let s := (List.range 13).foldl (fun s r =>
    aesMix [14, 11, 13, 9] (xorBytes ((aesShift 3 s).map aesSubInv) (ks.getD (13 - r) []))) s
  xorBytes ((aesShift 3 s).map aesSubInv) (ks.getD 0 [])

/-- The tweak of the next block: multiplication by α in GF(2^128), little-endian (R190). -/
def xtsNext (t : Nat) : Nat := if t < 2 ^ 127 then t * 2 else (t * 2 - 2 ^ 128) ^^^ 0x87

/-- XTS over the four blocks of one line with a block function (R190): the tweak is the line's DPA encrypted under the tweak
key. -/
def xtsLine (blk : List Nat → List Nat) (tweakKey : List (List Nat)) (dpa : Nat) (data : List Nat) : List Nat :=
  let t0 := natOfBytes (aesEnc tweakKey (bytesOfNat 16 (dpa / 64 * 64)))
  ((List.range 4).foldl (fun (acc : List Nat × Nat) j =>
    let t := bytesOfNat 16 acc.2
    (acc.1 ++ xorBytes (blk (xorBytes ((data.drop (16 * j)).take 16) t)) t, xtsNext acc.2)) ([], t0)).1

/-- A line encrypted under a patron's 64-byte key for its DPA; an all-zero line passes (R190, R191). -/
def sealLine (key : List Nat) (dpa : Nat) (data : LineData) : LineData :=
  if data = 0 then 0
  else BitVec.ofNat 512 (natOfBytes
    (xtsLine (aesEnc (aesKeys (key.take 32))) (aesKeys (key.drop 32)) dpa (bytesOfNat 64 data.toNat)))

/-- A stored line decrypted; an all-zero line passes (R190, R191). -/
def unsealLine (key : List Nat) (dpa : Nat) (data : LineData) : LineData :=
  if data = 0 then 0
  else BitVec.ofNat 512 (natOfBytes
    (xtsLine (aesDec (aesKeys (key.take 32))) (aesKeys (key.drop 32)) dpa (bytesOfNat 64 data.toNat)))

/-- One step of the RFC 3394 unwrapping: A and the registers R1 … Rn, step t from 6n down to 1 (R195). -/
def unwrapStep (ks : List (List Nat)) (n : Nat) (st : List Nat × List (List Nat)) (t : Nat) : List Nat × List (List Nat) :=
  let i := (t - 1) % n
  let a := xorBytes st.1 ((bytesOfNat 8 t).reverse)
  let b := aesDec ks (a ++ st.2.getD i [])
  (b.take 8, st.2.set i (b.drop 8))

/-- The unwrapped key of a 72-byte wrapped string, none where the integrity check fails (R195, RFC 3394). -/
def unwrapKey (kek : List Nat) (wrapped : List Nat) : Option (List Nat) :=
  let n := wrapped.length / 8 - 1
  let ks := aesKeys kek
  let st := ((List.range (6 * n)).reverse.map (· + 1)).foldl (unwrapStep ks n)
    (wrapped.take 8, (List.range n).map (fun i => (wrapped.drop (8 * (i + 1))).take 8))
  if st.1 = List.replicate 8 0xA6 then some st.2.flatten else none

/-! ## SHA-256 and HMAC -/

/-- The round constants, word i in bits [32i + 31:32i]. -/
def shaK : Nat := 0xc67178f2bef9a3f7a4506ceb90befffa8cc7020884c8781478a5636f748f82ee682e6ff35b9cca4f4ed8aa4a391c0cb334b0bcb52748774c1e376c0819a4c116106aa070f40e3585d6990624d192e819c76c51a3c24b8b70a81a664ba2bfe8a192722c8581c2c92e766a0abb650a735453380d134d2c6dfc2e1b213827b70a851429296706ca6351d5a79147c6e00bf3bf597fc7b00327c8a831c66d983e515276f988da5cb0a9dc4a7484aa2de92c6f240ca1cc0fc19dc6efbe4786e49b69c1c19bf1749bdc06a780deb1fe72be5d74550c7dc3243185be12835b01d807aa98ab1c5ed5923f82a459f111f13956c25be9b5dba5b5c0fbcf71374491428a2f98

/-- The initial hash words, word i in bits [32i + 31:32i]. -/
def shaH : Nat := 0x5be0cd191f83d9ab9b05688c510e527fa54ff53a3c6ef372bb67ae856a09e667

/-- A 32-bit right rotation. -/
def rotr (n x : Nat) : Nat := ((x >>> n) ||| (x <<< (32 - n))) % 2 ^ 32

/-- The next word of the message schedule, words so far newest first. -/
def shaNext (w : List Nat) : Nat :=
  let a := w.getD 14 0
  let b := w.getD 1 0
  (w.getD 15 0 + (rotr 7 a ^^^ rotr 18 a ^^^ (a >>> 3)) + w.getD 6 0 + (rotr 17 b ^^^ rotr 19 b ^^^ (b >>> 10))) % 2 ^ 32

/-- One round over the eight working words. -/
def shaRound (s : List Nat) (kw : Nat) : List Nat :=
  let a := s.getD 0 0
  let b := s.getD 1 0
  let c := s.getD 2 0
  let e := s.getD 4 0
  let t1 := s.getD 7 0 + (rotr 6 e ^^^ rotr 11 e ^^^ rotr 25 e) + ((e &&& s.getD 5 0) ^^^ ((e ^^^ 0xFFFFFFFF) &&& s.getD 6 0)) + kw
  let t2 := (rotr 2 a ^^^ rotr 13 a ^^^ rotr 22 a) + ((a &&& b) ^^^ (a &&& c) ^^^ (b &&& c))
  [(t1 + t2) % 2 ^ 32, a, b, c, (s.getD 3 0 + t1) % 2 ^ 32, e, s.getD 5 0, s.getD 6 0]

/-- A number from bytes, the first byte highest. -/
def natOfBytesBE (bs : List Nat) : Nat := bs.foldl (fun n b => n * 256 + b) 0

/-- One 64-byte block folded into the hash words. -/
def shaBlock (h : List Nat) (blk : List Nat) : List Nat :=
  let w0 := ((List.range 16).map (fun i => natOfBytesBE ((blk.drop (4 * i)).take 4))).reverse
  let w := ((List.range 48).foldl (fun w _ => shaNext w :: w) w0).reverse
  let s := (w.zipIdx).foldl (fun s wi => shaRound s (wi.1 + (shaK >>> (32 * wi.2)) % 2 ^ 32)) h
  List.zipWith (fun a b => (a + b) % 2 ^ 32) h s

/-- Blocks of 64 bytes folded in order. -/
def shaBlocks : Nat → List Nat → List Nat → List Nat
  | 0, h, _ => h
  | n + 1, h, bs => shaBlocks n (shaBlock h (bs.take 64)) (bs.drop 64)

/-- SHA-256 of bytes, 32 bytes. -/
def sha256 (msg : List Nat) : List Nat :=
  let n := msg.length
  let pad := msg ++ [0x80] ++ List.replicate ((119 - n % 64) % 64) 0 ++ (bytesOfNat 8 (8 * n)).reverse
  ((shaBlocks (pad.length / 64) ((List.range 8).map (fun i => (shaH >>> (32 * i)) % 2 ^ 32)) pad).map
    (fun x => (bytesOfNat 4 x).reverse)).flatten

/-- HMAC-SHA-256 under a key of at most 64 bytes. -/
def hmacSha256 (key msg : List Nat) : List Nat :=
  let k := key ++ List.replicate (64 - key.length) 0
  sha256 (k.map (· ^^^ 0x5C) ++ sha256 (k.map (· ^^^ 0x36) ++ msg))

end Sys2Proof.Machine
end

