-- ==== Sys2Proof/Config.lean ====
section
/-!
DEFINITION. What one implementation fixes and the values the spec leaves open: each is an opaque constant, so that no proof can
see what it is and a claim holds whatever it is.
-/

namespace Sys2Proof

/-- The physical neighbours of a physical row in its subarray, lower and upper, 8,191 where there is none (R114): the spec
does not give the size of a subarray (log entry 3). -/
opaque Config.lowerNeighbour : Nat → BitVec 13
opaque Config.upperNeighbour : Nat → BitVec 13

/-- Which of the eligible ways a pseudo-least-recently-used replacement takes (R48, R183): the order is not given beyond not
being the most recently used way (log entry 4). -/
opaque Config.victim : Nat → Nat

/-- A value nobody can foresee: nonces, seeds and challenges (R357, R487), drawn by the counter of the state. -/
opaque Config.freeBits : Nat → BitVec 256

/-- The retention-implied temperature of a witness array whose curve gives no ratio (a point of 0, R121), in units of 0.25 °C. -/
opaque Config.hygroOpen : Nat → BitVec 10

/-- The data of a read of a line on a lost pair's shaft, by DPA: the spec gives its POISON and no data (R41, log entry 11). -/
opaque Config.lostLine : Nat → BitVec 512

/-- The MIPI manufacturer ID and the JEP106 identity of Oxtos (R479, Table 20.4): the spec names them and gives no number. -/
opaque Config.oxtosMipi : BitVec 15
opaque Config.oxtosJep106 : BitVec 11

end Sys2Proof
end

