-- ==== Sys2Proof/Machine/FaultTypes.lean ====
section
/-!
DEFINITION. The fault types of the chapters (R438, R441, R442): each type's code, the ROM defaults of its count, window,
reaction and signalling class (Tables 18.2 and the chapters' tables of fault types), and which of them are FIXED (R442).
-/

namespace Sys2Proof.Machine

/-- The fault types, under the names of the chapters that raise them (R438). -/
inductive FaultType where
  | selfTestFail
  | sliceIncomplete
  | inventoryFail
  | safeOrdered
  | registrarTakeover
  | registrarLost
  | testAccessUnlocked
  | testUnlockFail
  | statementSuperseded
  | supplyLow
  | brownOut
  | pgoodLost
  | safeRequest
  | safeNChatter
  | domainWakeFail
  | footReset
  | ledgerInhibited
  | thermWarn
  | thermOverLimit
  | sensorBroken
  | levelSuspect
  | thermalShutdown
  | paceLow
  | paceCeiling
  | paceCollapse
  | handshakeStall
  | boundaryOverrun
  | dualRailIllegal
  | localTimeMismatch
  | cmdParity
  | cmdAlertRepeat
  | cmdStall
  | completionEarly
  | completionLate
  | beatStall
  | reportParity
  | shaftProtocol
  | shaftBelowFloor
  | actSlow
  | calSlip
  | calMargin
  | refreshLate
  | refreshMissed
  | trefLate
  | rowActOffender
  | rowCountParity
  | hygroRange
  | stewardReset
  | trefBacklog
  | lineCe
  | lineUe
  | poisonDelivered
  | writebackDropped
  | symbolRepeat
  | checkerFail
  | shelfReadLate
  | rrCe
  | rrUe
  | rrTagLost
  | mergeLost
  | stewardWordUe
  | patronNotBound
  | cardMalformed
  | catalogueUe
  | keyUnwrapFail
  | keyMissing
  | leafPoisoned
  | vaultUe
  | guaranteeMiss
  | shedding
  | reserveInfeasible
  | urgencyDwell
  | ringProtocol
  | ringHostFault
  | houseRingLost
  | trolleyStall
  | trolleyUe
  | recallLate
  | rekeyCardChanged
  | reshelveCardChanged
  | reshelveAbandoned
  | levelSpared
  | levelLostNoReserve
  | spareRowsLow
  | spareColumnsExhausted
  | bayWithdrawn
  | evacuationRequired
  | ledgerRecordLost
  | ledgerBacklog
  | lifeRatingReached
  | laneUnstable
  | laneSpared
  | sparesExhausted
  | linkDegraded
  | linkStepLimited
  | linkRetrain
  | trainFail
  | flitCrc
  | replayTimeout
  | replayLimit
  | linkProtocol
  | linkDown
  | injectStopped
  | memberLost
  | outOfStep
  | isolated
  | headChanged
  | remoteTimeout
  | routeLoop
  | digestDrift
  | refLost
  | refBad
  | pllUnlock
  | holdoverLong
  | timebasePllLost
  | pllVcoClamp
  deriving DecidableEq, Repr

/-- The 8-bit code of a fault type. -/
def FaultType.code : FaultType → Nat
  | .selfTestFail => 0x1
  | .sliceIncomplete => 0x2
  | .inventoryFail => 0x3
  | .safeOrdered => 0x4
  | .registrarTakeover => 0x5
  | .registrarLost => 0x6
  | .testAccessUnlocked => 0x7
  | .testUnlockFail => 0x8
  | .statementSuperseded => 0x9
  | .supplyLow => 0x11
  | .brownOut => 0x12
  | .pgoodLost => 0x13
  | .safeRequest => 0x14
  | .safeNChatter => 0x15
  | .domainWakeFail => 0x16
  | .footReset => 0x17
  | .ledgerInhibited => 0x18
  | .thermWarn => 0x21
  | .thermOverLimit => 0x22
  | .sensorBroken => 0x23
  | .levelSuspect => 0x24
  | .thermalShutdown => 0x25
  | .paceLow => 0x31
  | .paceCeiling => 0x32
  | .paceCollapse => 0x33
  | .handshakeStall => 0x34
  | .boundaryOverrun => 0x35
  | .dualRailIllegal => 0x36
  | .localTimeMismatch => 0x37
  | .cmdParity => 0x41
  | .cmdAlertRepeat => 0x42
  | .cmdStall => 0x43
  | .completionEarly => 0x44
  | .completionLate => 0x45
  | .beatStall => 0x46
  | .reportParity => 0x47
  | .shaftProtocol => 0x48
  | .shaftBelowFloor => 0x49
  | .actSlow => 0x4a
  | .calSlip => 0x4b
  | .calMargin => 0x4c
  | .refreshLate => 0x51
  | .refreshMissed => 0x52
  | .trefLate => 0x53
  | .rowActOffender => 0x54
  | .rowCountParity => 0x55
  | .hygroRange => 0x56
  | .stewardReset => 0x57
  | .trefBacklog => 0x58
  | .lineCe => 0x61
  | .lineUe => 0x62
  | .poisonDelivered => 0x63
  | .writebackDropped => 0x64
  | .symbolRepeat => 0x65
  | .checkerFail => 0x66
  | .shelfReadLate => 0x67
  | .rrCe => 0x68
  | .rrUe => 0x69
  | .rrTagLost => 0x6a
  | .mergeLost => 0x6b
  | .stewardWordUe => 0x6c
  | .patronNotBound => 0x71
  | .cardMalformed => 0x72
  | .catalogueUe => 0x73
  | .keyUnwrapFail => 0x74
  | .keyMissing => 0x75
  | .leafPoisoned => 0x76
  | .vaultUe => 0x77
  | .guaranteeMiss => 0x81
  | .shedding => 0x82
  | .reserveInfeasible => 0x83
  | .urgencyDwell => 0x84
  | .ringProtocol => 0x91
  | .ringHostFault => 0x92
  | .houseRingLost => 0x93
  | .trolleyStall => 0xa1
  | .trolleyUe => 0xa2
  | .recallLate => 0xa3
  | .rekeyCardChanged => 0xa4
  | .reshelveCardChanged => 0xb1
  | .reshelveAbandoned => 0xb2
  | .levelSpared => 0xb3
  | .levelLostNoReserve => 0xb4
  | .spareRowsLow => 0xb5
  | .spareColumnsExhausted => 0xb6
  | .bayWithdrawn => 0xb7
  | .evacuationRequired => 0xb8
  | .ledgerRecordLost => 0xb9
  | .ledgerBacklog => 0xba
  | .lifeRatingReached => 0xbb
  | .laneUnstable => 0xc1
  | .laneSpared => 0xc2
  | .sparesExhausted => 0xc3
  | .linkDegraded => 0xc4
  | .linkStepLimited => 0xc5
  | .linkRetrain => 0xc6
  | .trainFail => 0xc7
  | .flitCrc => 0xd1
  | .replayTimeout => 0xd2
  | .replayLimit => 0xd3
  | .linkProtocol => 0xd4
  | .linkDown => 0xd5
  | .injectStopped => 0xd6
  | .memberLost => 0xe1
  | .outOfStep => 0xe2
  | .isolated => 0xe3
  | .headChanged => 0xe4
  | .remoteTimeout => 0xe5
  | .routeLoop => 0xe6
  | .digestDrift => 0xe7
  | .refLost => 0xf1
  | .refBad => 0xf2
  | .pllUnlock => 0xf3
  | .holdoverLong => 0xf4
  | .timebasePllLost => 0xf5
  | .pllVcoClamp => 0xf6

/-- The ROM defaults of FAULT_TYPE_CFG[t] (R441, R442, R447): count N, WINDOW code, REACTION, SIGNAL, FIXED. A type that no
chapter defines has N 1, WINDOW 0 and the reaction log (DESIGN CHOICE, log entry 20: no chapter gives its reaction). -/
def faultDefault (t : Nat) : Nat × Nat × Nat × Nat × Nat :=
  match t with
  | 0x1 => (1, 0, 2, 1, 0)
  | 0x2 => (1, 0, 0, 0, 0)
  | 0x3 => (1, 0, 1, 0, 0)
  | 0x4 => (1, 0, 3, 1, 1)
  | 0x5 => (1, 0, 1, 0, 0)
  | 0x6 => (1, 0, 3, 1, 1)
  | 0x7 => (1, 0, 1, 0, 0)
  | 0x8 => (1, 0, 1, 0, 0)
  | 0x9 => (1, 0, 1, 0, 0)
  | 0x11 => (1, 0, 1, 0, 0)
  | 0x12 => (1, 0, 3, 1, 1)
  | 0x13 => (1, 0, 3, 1, 0)
  | 0x14 => (1, 0, 3, 1, 1)
  | 0x15 => (1, 0, 3, 1, 1)
  | 0x16 => (1, 0, 2, 1, 0)
  | 0x17 => (1, 0, 1, 0, 0)
  | 0x18 => (1, 0, 0, 0, 0)
  | 0x21 => (1, 0, 0, 0, 0)
  | 0x22 => (1, 0, 1, 0, 0)
  | 0x23 => (1, 0, 1, 0, 0)
  | 0x24 => (1, 0, 1, 0, 0)
  | 0x25 => (1, 0, 3, 1, 1)
  | 0x31 => (1, 0, 1, 0, 0)
  | 0x32 => (1, 0, 1, 0, 0)
  | 0x33 => (1, 0, 3, 1, 1)
  | 0x34 => (1, 0, 2, 1, 1)
  | 0x35 => (1, 0, 1, 0, 0)
  | 0x36 => (1, 0, 1, 0, 0)
  | 0x37 => (1, 0, 1, 0, 0)
  | 0x41 => (16, 20, 0, 0, 0)
  | 0x42 => (1, 0, 1, 0, 0)
  | 0x43 => (1, 0, 1, 0, 0)
  | 0x44 => (1, 0, 1, 0, 0)
  | 0x45 => (1, 0, 1, 0, 0)
  | 0x46 => (1, 0, 1, 0, 0)
  | 0x47 => (16, 20, 0, 0, 0)
  | 0x48 => (1, 0, 2, 1, 0)
  | 0x49 => (1, 0, 1, 0, 0)
  | 0x4a => (256, 20, 0, 0, 0)
  | 0x4b => (4, 32, 0, 0, 0)
  | 0x4c => (1, 0, 1, 0, 0)
  | 0x51 => (1, 0, 1, 0, 0)
  | 0x52 => (1, 0, 2, 1, 0)
  | 0x53 => (1, 0, 2, 1, 0)
  | 0x54 => (1, 0, 1, 0, 1)
  | 0x55 => (4, 32, 0, 0, 0)
  | 0x56 => (1, 0, 0, 0, 0)
  | 0x57 => (1, 0, 1, 0, 0)
  | 0x58 => (1, 0, 0, 0, 0)
  | 0x61 => (64, 32, 0, 0, 0)
  | 0x62 => (1, 0, 1, 0, 0)
  | 0x63 => (1, 0, 0, 0, 0)
  | 0x64 => (1, 0, 1, 0, 0)
  | 0x65 => (1, 0, 1, 0, 0)
  | 0x66 => (1, 0, 2, 1, 0)
  | 0x67 => (1, 0, 1, 0, 0)
  | 0x68 => (64, 32, 0, 0, 0)
  | 0x69 => (1, 0, 1, 0, 0)
  | 0x6a => (1, 0, 3, 1, 1)
  | 0x6b => (1, 0, 1, 0, 0)
  | 0x6c => (1, 0, 1, 0, 0)
  | 0x71 => (16, 20, 0, 0, 0)
  | 0x72 => (1, 0, 1, 0, 0)
  | 0x73 => (1, 0, 1, 0, 0)
  | 0x74 => (1, 0, 1, 0, 0)
  | 0x75 => (1, 0, 1, 0, 0)
  | 0x76 => (1, 0, 0, 0, 0)
  | 0x77 => (1, 0, 1, 0, 0)
  | 0x81 => (1, 0, 1, 0, 0)
  | 0x82 => (1, 0, 0, 0, 0)
  | 0x83 => (1, 0, 1, 0, 0)
  | 0x84 => (1, 0, 0, 0, 0)
  | 0x91 => (1, 0, 0, 0, 0)
  | 0x92 => (1, 0, 1, 0, 0)
  | 0x93 => (1, 0, 1, 0, 0)
  | 0xa1 => (1, 0, 2, 1, 0)
  | 0xa2 => (1, 0, 1, 0, 0)
  | 0xa3 => (1, 0, 0, 0, 0)
  | 0xa4 => (1, 0, 1, 0, 0)
  | 0xb1 => (1, 0, 1, 0, 0)
  | 0xb2 => (1, 0, 1, 0, 0)
  | 0xb3 => (1, 0, 1, 0, 0)
  | 0xb4 => (1, 0, 1, 0, 0)
  | 0xb5 => (1, 0, 0, 0, 0)
  | 0xb6 => (1, 0, 1, 0, 0)
  | 0xb7 => (1, 0, 1, 0, 0)
  | 0xb8 => (1, 0, 1, 0, 1)
  | 0xb9 => (1, 0, 1, 0, 0)
  | 0xba => (1, 0, 0, 0, 0)
  | 0xbb => (1, 0, 1, 0, 0)
  | 0xc1 => (1, 0, 0, 0, 0)
  | 0xc2 => (1, 0, 1, 0, 0)
  | 0xc3 => (1, 0, 1, 0, 0)
  | 0xc4 => (1, 0, 1, 0, 0)
  | 0xc5 => (1, 0, 1, 0, 0)
  | 0xc6 => (1, 0, 0, 0, 0)
  | 0xc7 => (1, 0, 1, 0, 0)
  | 0xd1 => (64, 10, 0, 0, 0)
  | 0xd2 => (16, 10, 0, 0, 0)
  | 0xd3 => (1, 0, 1, 0, 0)
  | 0xd4 => (1, 0, 1, 0, 0)
  | 0xd5 => (1, 0, 1, 0, 0)
  | 0xd6 => (1, 0, 0, 0, 0)
  | 0xe1 => (1, 0, 1, 0, 0)
  | 0xe2 => (1, 0, 1, 0, 0)
  | 0xe3 => (1, 0, 1, 0, 0)
  | 0xe4 => (1, 0, 1, 0, 0)
  | 0xe5 => (1, 0, 1, 0, 0)
  | 0xe6 => (1, 0, 1, 0, 0)
  | 0xe7 => (1, 0, 1, 0, 0)
  | 0xf1 => (1, 0, 1, 0, 0)
  | 0xf2 => (1, 0, 1, 0, 0)
  | 0xf3 => (1, 0, 1, 0, 0)
  | 0xf4 => (1, 0, 1, 0, 0)
  | 0xf5 => (1, 0, 3, 1, 1)
  | 0xf6 => (1, 0, 0, 0, 0)
  | _ => (1, 0, 0, 0, 0)

end Sys2Proof.Machine
end

