-- ==== Sys2Proof/Machine/RegMap.lean ====
section
/-!
DEFINITION. The register map of the block (R9, R10, R11, R495, Table 20.5): one descriptor per field of every register
table of the chapters, one name per register, and the address table that leads from a management address to a register.
Reserved bits have no descriptor, so they read 0 whatever is written (R10).
-/

namespace Sys2Proof.Machine

/-- The access codes of Table 0.7 (R11). -/
inductive Acc where
  | rw | ro | w1c | w1s | wo | rc | rwl
  deriving DecidableEq, Repr

/-- One register field: the address of its register, its lowest bit, its width, its access code and its reset value. -/
structure Field where
  addr  : Nat
  lo    : Nat
  width : Nat
  acc   : Acc
  reset : Nat
  deriving DecidableEq, Repr

/-- The place of a field in the field store: one key per field of the whole map. -/
def Field.key (f : Field) : Nat := f.addr * 32 + f.lo

namespace F

/-! DEV_ID: Table 20.9. -/
def DEV_ID_PART : Field := ⟨0x0, 0, 16, .ro, 5732⟩
def DEV_ID_VARIANT : Field := ⟨0x0, 16, 1, .ro, 0⟩
def DEV_ID_STEPPING : Field := ⟨0x0, 24, 8, .ro, 0⟩

/-! DEV_CTL: Table 20.9. -/
def DEV_CTL_OPEN : Field := ⟨0x4, 0, 1, .rw, 0⟩

/-! DEV_STATUS: Table 20.9. -/
def DEV_STATUS_STATE : Field := ⟨0x8, 0, 2, .ro, 0⟩
def DEV_STATUS_CHECKING : Field := ⟨0x8, 2, 1, .ro, 0⟩
def DEV_STATUS_SAFE : Field := ⟨0x8, 3, 1, .ro, 0⟩
def DEV_STATUS_TEST_UNLOCKED : Field := ⟨0x8, 4, 1, .ro, 0⟩

/-! DEV_REASON: Table 20.9. -/
def DEV_REASON_CODE : Field := ⟨0xc, 0, 8, .ro, 0⟩
def DEV_REASON_TRIGGER : Field := ⟨0xc, 8, 4, .ro, 0⟩
def DEV_REASON_DETAIL : Field := ⟨0xc, 16, 16, .ro, 0⟩

/-! DEV_STACK: Table 1.4. -/
def DEV_STACK_FACTORY_RESERVE : Field := ⟨0x10, 0, 5, .ro, 0⟩
def DEV_STACK_CURRENT_RESERVE : Field := ⟨0x10, 5, 5, .ro, 0⟩
def DEV_STACK_GROUPS_SPARED : Field := ⟨0x10, 16, 8, .ro, 0⟩
def DEV_STACK_TICK_DEGRADED : Field := ⟨0x10, 24, 1, .ro, 0⟩

/-! DEV_LAYOUT: Table 2.4. -/
def DEV_LAYOUT_SHAFT_HASH : Field := ⟨0x14, 0, 1, .rwl, 1⟩
def DEV_LAYOUT_LOCK : Field := ⟨0x14, 31, 1, .ro, 0⟩

/-! DEV_KEEPER: Table 20.9. -/
def DEV_KEEPER_PORT : Field := ⟨0x18, 0, 6, .rwl, 0⟩
def DEV_KEEPER_VALID : Field := ⟨0x18, 6, 1, .rwl, 0⟩
def DEV_KEEPER_LOCK : Field := ⟨0x18, 31, 1, .ro, 0⟩

/-! DEV_REG: Table 20.9. -/
def DEV_REG_ACTIVE : Field := ⟨0x1c, 0, 1, .ro, 0⟩
def DEV_REG_STANDBY_READY : Field := ⟨0x1c, 1, 1, .ro, 0⟩
def DEV_REG_SWAP : Field := ⟨0x1c, 2, 1, .w1s, 0⟩
def DEV_REG_TAKEOVERS : Field := ⟨0x1c, 8, 8, .ro, 0⟩
def DEV_REG_PATCH : Field := ⟨0x1c, 16, 16, .ro, 0⟩

/-! DEV_START_STATUS: Table 21.4. -/
def DEV_START_STATUS_QUICK : Field := ⟨0x20, 0, 1, .ro, 0⟩
def DEV_START_STATUS_PHASE : Field := ⟨0x20, 1, 4, .ro, 0⟩
def DEV_START_STATUS_FULL_CAUSE : Field := ⟨0x20, 5, 4, .ro, 0⟩
def DEV_START_STATUS_FAIL_CAUSE : Field := ⟨0x20, 9, 3, .ro, 0⟩
def DEV_START_STATUS_READY_MS : Field := ⟨0x20, 16, 16, .ro, 0⟩

/-! DEV_START_CFG: Table 21.5. -/
def DEV_START_CFG_FORCE_FULL : Field := ⟨0x24, 0, 1, .rw, 0⟩
def DEV_START_CFG_SAVE : Field := ⟨0x24, 1, 1, .w1s, 0⟩
def DEV_START_CFG_APPLIED : Field := ⟨0x24, 2, 1, .ro, 0⟩

/-! DEV_START_COUNT: Table 21.6. -/
def DEV_START_COUNT_COUNT : Field := ⟨0x28, 0, 32, .ro, 0⟩

/-! INTEG_CTL: Table 6.9. -/
def INTEG_CTL_GATHER : Field := ⟨0x30, 0, 8, .rw, 64⟩
def INTEG_CTL_CORR_RESERVE : Field := ⟨0x30, 8, 4, .rw, 4⟩
def INTEG_CTL_SYMBOL_LIMIT : Field := ⟨0x30, 12, 8, .rw, 16⟩
def INTEG_CTL_SHELF_READ_EN : Field := ⟨0x30, 20, 1, .rw, 1⟩
def INTEG_CTL_SHELF_READ_INTERVAL : Field := ⟨0x30, 21, 11, .rw, 1440⟩

/-! SPARE_CTL: Table 11.14. -/
def SPARE_CTL_LEVEL : Field := ⟨0x40, 0, 5, .rw, 0⟩
def SPARE_CTL_OP : Field := ⟨0x40, 5, 2, .rw, 0⟩
def SPARE_CTL_GO : Field := ⟨0x40, 31, 1, .w1s, 0⟩

/-! SPARE_STATUS: Table 11.14. -/
def SPARE_STATUS_STATE : Field := ⟨0x44, 0, 2, .ro, 0⟩
def SPARE_STATUS_SOURCE : Field := ⟨0x44, 2, 5, .ro, 0⟩
def SPARE_STATUS_RESULT : Field := ⟨0x44, 7, 2, .ro, 0⟩
def SPARE_STATUS_PROGRESS : Field := ⟨0x44, 9, 10, .ro, 0⟩
def SPARE_STATUS_REDUCED_LEVEL : Field := ⟨0x44, 19, 5, .ro, 31⟩
def SPARE_STATUS_RETIRED : Field := ⟨0x44, 24, 5, .ro, 0⟩

/-! REPAIR_CFG: Table 11.14. -/
def REPAIR_CFG_AUTO_SPARE : Field := ⟨0x48, 0, 1, .rw, 1⟩
def REPAIR_CFG_AUTO_WITHDRAW : Field := ⟨0x48, 1, 1, .rw, 1⟩
def REPAIR_CFG_ROW_LIMIT : Field := ⟨0x48, 8, 8, .rw, 4⟩
def REPAIR_CFG_ROWS_LOW : Field := ⟨0x48, 16, 6, .rw, 8⟩

/-! EVAC_CTL: Table 11.14. -/
def EVAC_CTL_START : Field := ⟨0x4c, 0, 1, .w1s, 0⟩
def EVAC_CTL_STOP : Field := ⟨0x4c, 1, 1, .w1s, 0⟩

/-! EVAC_STATUS: Table 11.14. -/
def EVAC_STATUS_EVACUATING : Field := ⟨0x50, 0, 1, .ro, 0⟩
def EVAC_STATUS_REQUIRED : Field := ⟨0x50, 1, 1, .ro, 0⟩
def EVAC_STATUS_CAUSE : Field := ⟨0x50, 2, 2, .ro, 0⟩
def EVAC_STATUS_EMPTY : Field := ⟨0x50, 4, 1, .ro, 0⟩
def EVAC_STATUS_LEAVES : Field := ⟨0x50, 8, 24, .ro, 0⟩

/-! DEV_MBOX_REQ: Table 20.9. -/
def DEV_MBOX_REQ_BODY (i : Nat) : Field := ⟨0x100 + i * 0x4, 0, 32, .rw, 0⟩

/-! DEV_MBOX_RSP: Table 20.9. -/
def DEV_MBOX_RSP_BODY (i : Nat) : Field := ⟨0x140 + i * 0x4, 0, 32, .ro, 0⟩

/-! DEV_MBOX_CTL: Table 20.9. -/
def DEV_MBOX_CTL_GO : Field := ⟨0x180, 0, 1, .w1s, 0⟩
def DEV_MBOX_CTL_DONE : Field := ⟨0x180, 1, 1, .w1c, 0⟩

/-! POWER_CTL: Table 17.8. -/
def POWER_CTL_DOMAIN : Field := ⟨0x10000, 0, 8, .rw, 0⟩
def POWER_CTL_OP : Field := ⟨0x10000, 8, 2, .rw, 0⟩
def POWER_CTL_GO : Field := ⟨0x10000, 31, 1, .w1s, 0⟩

/-! POWER_STATUS: Table 17.9. -/
def POWER_STATUS_BUSY : Field := ⟨0x10004, 0, 1, .ro, 0⟩
def POWER_STATUS_PENDING : Field := ⟨0x10004, 1, 1, .ro, 0⟩
def POWER_STATUS_CUR_DOMAIN : Field := ⟨0x10004, 2, 8, .ro, 0⟩
def POWER_STATUS_CUR_OP : Field := ⟨0x10004, 10, 2, .ro, 0⟩
def POWER_STATUS_RESULT : Field := ⟨0x10004, 12, 3, .ro, 0⟩
def POWER_STATUS_CLOSING : Field := ⟨0x10004, 15, 1, .ro, 0⟩
def POWER_STATUS_REASON : Field := ⟨0x10004, 16, 8, .ro, 0⟩

/-! POWER_WAKE_CFG: Table 17.10. -/
def POWER_WAKE_CFG_PIN_EN : Field := ⟨0x10008, 0, 4, .rw, 0⟩
def POWER_WAKE_CFG_PIN_HIGH : Field := ⟨0x10008, 4, 4, .rw, 0⟩
def POWER_WAKE_CFG_LINK_EN : Field := ⟨0x10008, 8, 4, .rw, 0⟩

/-! LAST_WAKE: Table 17.11. -/
def LAST_WAKE_CAUSE : Field := ⟨0x10010, 0, 4, .ro, 0⟩
def LAST_WAKE_FLAG : Field := ⟨0x10010, 4, 1, .ro, 0⟩
def LAST_WAKE_SOURCE : Field := ⟨0x10010, 5, 2, .ro, 0⟩
def LAST_WAKE_ZONE : Field := ⟨0x10010, 7, 8, .ro, 0⟩

/-! LAST_WAKE_MS: Table 17.11. -/
def LAST_WAKE_MS_CLOSED_MS : Field := ⟨0x10014, 0, 32, .ro, 0⟩

/-! POWER_PINS: Table 17.12. -/
def POWER_PINS_SAFE_N : Field := ⟨0x10018, 0, 1, .ro, 1⟩
def POWER_PINS_SAFE_LATCHED : Field := ⟨0x10018, 1, 1, .ro, 0⟩
def POWER_PINS_WAKE : Field := ⟨0x10018, 2, 4, .ro, 0⟩
def POWER_PINS_LINK : Field := ⟨0x10018, 6, 4, .ro, 0⟩
def POWER_PINS_PGOOD : Field := ⟨0x10018, 10, 1, .ro, 1⟩

/-! POWER_RAIL: Table 17.13. -/
def POWER_RAIL_VOLT (i : Nat) : Field := ⟨0x10040 + i * 0x4, 0, 12, .ro, 0⟩
def POWER_RAIL_LOW (i : Nat) : Field := ⟨0x10040 + i * 0x4, 12, 1, .ro, 0⟩
def POWER_RAIL_INHIBIT (i : Nat) : Field := ⟨0x10040 + i * 0x4, 13, 1, .ro, 0⟩
def POWER_RAIL_BROWN (i : Nat) : Field := ⟨0x10040 + i * 0x4, 14, 1, .ro, 0⟩
def POWER_RAIL_SAGS (i : Nat) : Field := ⟨0x10040 + i * 0x4, 16, 16, .ro, 0⟩

/-! POWER_DOMAIN: Table 17.14. -/
def POWER_DOMAIN_STATE (i : Nat) : Field := ⟨0x10100 + i * 0x4, 0, 3, .ro, 0⟩
def POWER_DOMAIN_WAKE_FLAG (i : Nat) : Field := ⟨0x10100 + i * 0x4, 3, 1, .w1c, 1⟩
def POWER_DOMAIN_ALIVE (i : Nat) : Field := ⟨0x10100 + i * 0x4, 4, 1, .ro, 1⟩
def POWER_DOMAIN_FUSED (i : Nat) : Field := ⟨0x10100 + i * 0x4, 5, 1, .ro, 0⟩
def POWER_DOMAIN_GATINGS (i : Nat) : Field := ⟨0x10100 + i * 0x4, 16, 16, .ro, 0⟩

/-! CLK_REF_CTL: Table 15.6. -/
def CLK_REF_CTL_SELECT : Field := ⟨0x20000, 0, 2, .rw, 0⟩

/-! CLK_REF_STATUS: Table 15.7. -/
def CLK_REF_STATUS_A_STATE : Field := ⟨0x20004, 0, 2, .ro, 0⟩
def CLK_REF_STATUS_B_STATE : Field := ⟨0x20004, 2, 2, .ro, 0⟩
def CLK_REF_STATUS_FOLLOWING_B : Field := ⟨0x20004, 4, 1, .ro, 0⟩
def CLK_REF_STATUS_A_PPM : Field := ⟨0x20004, 16, 16, .ro, 0⟩

/-! CLK_PLL_STATUS: Table 15.8. -/
def CLK_PLL_STATUS_STATE (i : Nat) : Field := ⟨0x20010 + i * 0x4, 0, 3, .ro, 0⟩
def CLK_PLL_STATUS_GATE_OPEN (i : Nat) : Field := ⟨0x20010 + i * 0x4, 3, 1, .ro, 0⟩
def CLK_PLL_STATUS_ACTIVE (i : Nat) : Field := ⟨0x20010 + i * 0x4, 4, 1, .ro, 0⟩
def CLK_PLL_STATUS_SLEWING (i : Nat) : Field := ⟨0x20010 + i * 0x4, 5, 1, .ro, 0⟩
def CLK_PLL_STATUS_CLAMPS (i : Nat) : Field := ⟨0x20010 + i * 0x4, 16, 8, .ro, 0⟩
def CLK_PLL_STATUS_UNLOCKS (i : Nat) : Field := ⟨0x20010 + i * 0x4, 24, 8, .ro, 0⟩

/-! CLK_HP3_CTL: Table 15.9. -/
def CLK_HP3_CTL_FREQ : Field := ⟨0x20020, 0, 4, .rw, 3⟩

/-! TB_TIME_LO: Table 3.7. -/
def TB_TIME_LO_TIME : Field := ⟨0x20100, 0, 32, .ro, 0⟩

/-! TB_TIME_HI: Table 3.7. -/
def TB_TIME_HI_TIME : Field := ⟨0x20104, 0, 32, .ro, 0⟩

/-! TB_STATUS: Table 3.8. -/
def TB_STATUS_SLEWING : Field := ⟨0x20108, 0, 1, .ro, 0⟩
def TB_STATUS_STEPPED : Field := ⟨0x20108, 1, 1, .w1c, 0⟩
def TB_STATUS_BACKWARD : Field := ⟨0x20108, 2, 1, .w1c, 0⟩
def TB_STATUS_STEPS : Field := ⟨0x20108, 8, 8, .ro, 0⟩

/-! PACE_ZONE: Table 3.4. -/
def PACE_ZONE_PACE (i : Nat) : Field := ⟨0x20200 + i * 0x4, 0, 12, .ro, 0⟩
def PACE_ZONE_VOLT (i : Nat) : Field := ⟨0x20200 + i * 0x4, 12, 6, .ro, 36⟩
def PACE_ZONE_GUARD (i : Nat) : Field := ⟨0x20200 + i * 0x4, 18, 1, .ro, 0⟩
def PACE_ZONE_BELOW_FLOOR (i : Nat) : Field := ⟨0x20200 + i * 0x4, 19, 1, .ro, 0⟩
def PACE_ZONE_AT_CEILING (i : Nat) : Field := ⟨0x20200 + i * 0x4, 20, 1, .ro, 0⟩

/-! CLK_PORT_PLL: Table 15.10. -/
def CLK_PORT_PLL_SEED (i : Nat) : Field := ⟨0x20400 + i * 0x4, 0, 16, .rw, 0x1000 + i⟩
def CLK_PORT_PLL_STATE (i : Nat) : Field := ⟨0x20400 + i * 0x4, 16, 3, .ro, 0⟩
def CLK_PORT_PLL_GATE_OPEN (i : Nat) : Field := ⟨0x20400 + i * 0x4, 19, 1, .ro, 0⟩
def CLK_PORT_PLL_UNLOCKS (i : Nat) : Field := ⟨0x20400 + i * 0x4, 24, 8, .ro, 0⟩

/-! THERM_CFG: Table 16.7. -/
def THERM_CFG_WARN : Field := ⟨0x30000, 0, 8, .rw, 95⟩

/-! THERM_STATUS: Table 16.8. -/
def THERM_STATUS_WARN : Field := ⟨0x30004, 0, 1, .ro, 0⟩
def THERM_STATUS_OVER_LIMIT : Field := ⟨0x30004, 1, 1, .ro, 0⟩
def THERM_STATUS_HOTTEST_ZONE : Field := ⟨0x30004, 2, 6, .ro, 0⟩
def THERM_STATUS_HOTTEST : Field := ⟨0x30004, 8, 10, .ro, 0⟩

/-! THERM_LEVEL: Table 16.9. -/
def THERM_LEVEL_SUSPECT (i : Nat) : Field := ⟨0x30100 + i * 0x4, 0, 1, .ro, 0⟩
def THERM_LEVEL_CAUSE (i : Nat) : Field := ⟨0x30100 + i * 0x4, 1, 2, .ro, 0⟩
def THERM_LEVEL_MODEL (i : Nat) : Field := ⟨0x30100 + i * 0x4, 3, 10, .ro, 0⟩
def THERM_LEVEL_TRUSTED (i : Nat) : Field := ⟨0x30100 + i * 0x4, 13, 10, .ro, 0⟩
def THERM_LEVEL_CLEAR (i : Nat) : Field := ⟨0x30100 + i * 0x4, 23, 1, .w1s, 0⟩

/-! THERM_ZONE: Table 16.10. -/
def THERM_ZONE_HOTTEST (i : Nat) : Field := ⟨0x30200 + i * 0x4, 0, 10, .ro, 0⟩
def THERM_ZONE_HEALTHY (i : Nat) : Field := ⟨0x30200 + i * 0x4, 10, 4, .ro, 0⟩
def THERM_ZONE_BLIND (i : Nat) : Field := ⟨0x30200 + i * 0x4, 14, 1, .ro, 0⟩

/-! THERM_SENSOR: Table 16.11. -/
def THERM_SENSOR_TEMP (i : Nat) : Field := ⟨0x31000 + i * 0x4, 0, 11, .ro, 0⟩
def THERM_SENSOR_STATE (i : Nat) : Field := ⟨0x31000 + i * 0x4, 11, 2, .ro, 0⟩
def THERM_SENSOR_CAUSE (i : Nat) : Field := ⟨0x31000 + i * 0x4, 13, 3, .ro, 0⟩
def THERM_SENSOR_ZONE (i : Nat) : Field := ⟨0x31000 + i * 0x4, 16, 6, .ro, 0⟩

/-! FAULT_STATUS: Table 18.12. -/
def FAULT_STATUS_OPEN : Field := ⟨0x40000, 0, 9, .ro, 0⟩
def FAULT_STATUS_OVERFLOW : Field := ⟨0x40000, 9, 1, .w1c, 0⟩
def FAULT_STATUS_FAULT_N : Field := ⟨0x40000, 10, 1, .ro, 0⟩
def FAULT_STATUS_LOST : Field := ⟨0x40000, 16, 16, .ro, 0⟩

/-! FAULT_CLEAR: Table 18.12. -/
def FAULT_CLEAR_SEQ : Field := ⟨0x40008, 0, 32, .wo, 0⟩

/-! FAULT_QUEUE_SEL: Table 18.12. -/
def FAULT_QUEUE_SEL_POSITION : Field := ⟨0x4000c, 0, 8, .rw, 0⟩

/-! FAULT_QUEUE: Table 18.12. -/
def FAULT_QUEUE_DATA (i : Nat) : Field := ⟨0x40010 + i * 0x4, 0, 32, .ro, 0⟩

/-! SAFE_CTL: Table 18.12. -/
def SAFE_CTL_RESUME : Field := ⟨0x40040, 0, 1, .w1s, 0⟩
def SAFE_CTL_ENTER : Field := ⟨0x40040, 1, 1, .w1s, 0⟩

/-! SAFE_STATUS: Table 18.12. -/
def SAFE_STATUS_ACTIVE : Field := ⟨0x40044, 0, 1, .ro, 0⟩
def SAFE_STATUS_RECORDS : Field := ⟨0x40044, 1, 1, .ro, 0⟩
def SAFE_STATUS_SAFE_N : Field := ⟨0x40044, 2, 1, .ro, 0⟩
def SAFE_STATUS_CHATTER : Field := ⟨0x40044, 3, 1, .ro, 0⟩
def SAFE_STATUS_BROWN : Field := ⟨0x40044, 4, 1, .ro, 0⟩
def SAFE_STATUS_PACE : Field := ⟨0x40044, 5, 1, .ro, 0⟩
def SAFE_STATUS_REASON : Field := ⟨0x40044, 8, 8, .ro, 0⟩
def SAFE_STATUS_ENTRIES : Field := ⟨0x40044, 16, 16, .ro, 0⟩

/-! FAULT_TYPE_CFG: Table 18.12. -/
def FAULT_TYPE_CFG_N (i : Nat) : Field := ⟨0x41000 + i * 0x4, 0, 16, .rw, (faultDefault i).1⟩
def FAULT_TYPE_CFG_WINDOW (i : Nat) : Field := ⟨0x41000 + i * 0x4, 16, 6, .rw, (faultDefault i).2.1⟩
def FAULT_TYPE_CFG_REACTION (i : Nat) : Field := ⟨0x41000 + i * 0x4, 22, 2, .rw, (faultDefault i).2.2.1⟩
def FAULT_TYPE_CFG_SIGNAL (i : Nat) : Field := ⟨0x41000 + i * 0x4, 24, 1, .rw, (faultDefault i).2.2.2.1⟩
def FAULT_TYPE_CFG_FIXED (i : Nat) : Field := ⟨0x41000 + i * 0x4, 25, 1, .ro, (faultDefault i).2.2.2.2⟩

/-! TEST_SLICE: Table 18.13. -/
def TEST_SLICE_DOMAIN : Field := ⟨0x50000, 0, 8, .rw, 0⟩
def TEST_SLICE_START : Field := ⟨0x50000, 8, 1, .w1s, 0⟩
def TEST_SLICE_STOP : Field := ⟨0x50000, 9, 1, .w1s, 0⟩

/-! TEST_SLICE_STATUS: Table 18.13. -/
def TEST_SLICE_STATUS_STATE : Field := ⟨0x50004, 0, 3, .ro, 0⟩
def TEST_SLICE_STATUS_RESULT : Field := ⟨0x50004, 3, 2, .ro, 0⟩
def TEST_SLICE_STATUS_DOMAIN : Field := ⟨0x50004, 5, 8, .ro, 0⟩
def TEST_SLICE_STATUS_PATTERNS_DONE : Field := ⟨0x50004, 13, 16, .ro, 0⟩

/-! TEST_REASON: Table 18.13. -/
def TEST_REASON_CODE : Field := ⟨0x50008, 0, 8, .ro, 0⟩

/-! TEST_RESULT: Table 18.13. -/
def TEST_RESULT_ARRAY : Field := ⟨0x50010, 0, 8, .ro, 0⟩
def TEST_RESULT_LOGIC_FAIL : Field := ⟨0x50010, 8, 1, .ro, 0⟩
def TEST_RESULT_MEM_FAIL : Field := ⟨0x50010, 9, 1, .ro, 0⟩
def TEST_RESULT_FAILURES : Field := ⟨0x50010, 10, 22, .ro, 0⟩

/-! TEST_FAIL_ADDR: Table 18.13. -/
def TEST_FAIL_ADDR_ADDR : Field := ⟨0x50014, 0, 32, .ro, 0⟩

/-! TEST_SCHED: Table 18.13. -/
def TEST_SCHED_EN : Field := ⟨0x50030, 0, 1, .rw, 0⟩
def TEST_SCHED_INTERVAL : Field := ⟨0x50030, 1, 16, .rw, 100⟩

/-! INVENTORY_CTL: Table 18.13. -/
def INVENTORY_CTL_START : Field := ⟨0x50040, 0, 1, .w1s, 0⟩

/-! INVENTORY_STATUS: Table 18.13. -/
def INVENTORY_STATUS_STATE : Field := ⟨0x50044, 0, 3, .ro, 0⟩
def INVENTORY_STATUS_PHASE : Field := ⟨0x50044, 3, 3, .ro, 0⟩
def INVENTORY_STATUS_CLOSE_ONLY : Field := ⟨0x50044, 6, 1, .ro, 0⟩
def INVENTORY_STATUS_REASON : Field := ⟨0x50044, 8, 8, .ro, 0⟩
def INVENTORY_STATUS_REPAIRS : Field := ⟨0x50044, 16, 16, .ro, 0⟩

/-! TEST_FAIL_BITS: Table 18.13. -/
def TEST_FAIL_BITS_BITS (i : Nat) : Field := ⟨0x50018 + i * 0x4, 0, 32, .ro, 0⟩

/-! PERF_SEL: Table 19.1. -/
def PERF_SEL_EVENT (i : Nat) : Field := ⟨0x60000 + i * 0x10, 0, 16, .rw, 0⟩
def PERF_SEL_EN (i : Nat) : Field := ⟨0x60000 + i * 0x10, 16, 1, .rw, 0⟩
def PERF_SEL_PATRON_EN (i : Nat) : Field := ⟨0x60000 + i * 0x10, 17, 1, .rw, 0⟩
def PERF_SEL_CHAIN (i : Nat) : Field := ⟨0x60000 + i * 0x10, 18, 1, .rw, 0⟩
def PERF_SEL_LEAF (i : Nat) : Field := ⟨0x60000 + i * 0x10, 19, 1, .rw, 0⟩
def PERF_SEL_OVF (i : Nat) : Field := ⟨0x60000 + i * 0x10, 20, 1, .w1c, 0⟩

/-! PERF_FILTER: Table 19.1. -/
def PERF_FILTER_UNIT (i : Nat) : Field := ⟨0x60004 + i * 0x10, 0, 8, .rw, 0⟩
def PERF_FILTER_UNIT_MASK (i : Nat) : Field := ⟨0x60004 + i * 0x10, 8, 8, .rw, 0⟩
def PERF_FILTER_PATRON (i : Nat) : Field := ⟨0x60004 + i * 0x10, 16, 12, .rw, 0⟩

/-! PERF_VALUE_LO: Table 19.1. -/
def PERF_VALUE_LO_VALUE (i : Nat) : Field := ⟨0x60008 + i * 0x10, 0, 32, .rw, 0⟩

/-! PERF_VALUE_HI: Table 19.1. -/
def PERF_VALUE_HI_VALUE (i : Nat) : Field := ⟨0x6000c + i * 0x10, 0, 16, .rw, 0⟩

/-! PERF_CTL: Table 19.2. -/
def PERF_CTL_FREEZE : Field := ⟨0x62000, 0, 1, .rw, 0⟩
def PERF_CTL_CLEAR : Field := ⟨0x62000, 1, 1, .w1s, 0⟩

/-! PERF_STATUS: Table 19.2. -/
def PERF_STATUS_SAMPLING : Field := ⟨0x62004, 0, 1, .ro, 0⟩
def PERF_STATUS_OVERFLOWS : Field := ⟨0x62004, 16, 16, .ro, 0⟩

/-! TRACE_CTL: Table 19.5. -/
def TRACE_CTL_EN : Field := ⟨0x63000, 0, 1, .rw, 0⟩
def TRACE_CTL_RATE : Field := ⟨0x63000, 1, 5, .rw, 16⟩

/-! TRACE_SEED: Table 19.5. -/
def TRACE_SEED_SEED : Field := ⟨0x63004, 0, 32, .rw, 1⟩

/-! TRACE_STATUS: Table 19.5. -/
def TRACE_STATUS_SELECTED : Field := ⟨0x63008, 0, 32, .ro, 0⟩

/-! STMT_CFG: Table 19.9. -/
def STMT_CFG_INTERVAL : Field := ⟨0x64000, 0, 12, .rw, 60⟩

/-! STMT_STATUS: Table 19.9. -/
def STMT_STATUS_WAITING : Field := ⟨0x64004, 0, 13, .ro, 0⟩
def STMT_STATUS_SUPERSEDED : Field := ⟨0x64004, 16, 16, .ro, 0⟩

/-! STMT_LAST: Table 19.9. -/
def STMT_LAST_SEQ : Field := ⟨0x64008, 0, 32, .ro, 0⟩

/-! ROW_ACT_CTL: Table 5.10. -/
def ROW_ACT_CTL_PATRON_N : Field := ⟨0x68000, 0, 16, .rw, 64⟩
def ROW_ACT_CTL_CLAMP_LIMIT : Field := ⟨0x68000, 16, 8, .rw, 8⟩
def ROW_ACT_CTL_PATRON_W : Field := ⟨0x68000, 24, 5, .rw, 20⟩

/-! ROW_ACT_QUERY: Table 5.11. -/
def ROW_ACT_QUERY_PATRON : Field := ⟨0x68004, 0, 12, .rw, 0⟩
def ROW_ACT_QUERY_COUNT : Field := ⟨0x68004, 16, 16, .ro, 0⟩

/-! ROW_ACT_STATUS: Table 5.12. -/
def ROW_ACT_STATUS_CLAMP_FULL : Field := ⟨0x68008, 0, 1, .w1c, 0⟩
def ROW_ACT_STATUS_UNATTRIBUTED : Field := ⟨0x68008, 8, 24, .ro, 0⟩

/-! ROW_ACT_CLAMP: Table 5.13. -/
def ROW_ACT_CLAMP_PATRON (i : Nat) : Field := ⟨0x68040 + i * 0x4, 0, 12, .ro, 0⟩
def ROW_ACT_CLAMP_ACTIVE (i : Nat) : Field := ⟨0x68040 + i * 0x4, 12, 1, .w1c, 0⟩

/-! LEDGER_STATUS: Table 11.15. -/
def LEDGER_STATUS_AVAILABLE : Field := ⟨0x70000, 0, 1, .ro, 0⟩
def LEDGER_STATUS_INHIBITED : Field := ⟨0x70000, 1, 1, .ro, 0⟩
def LEDGER_STATUS_QUEUED : Field := ⟨0x70000, 2, 7, .ro, 0⟩
def LEDGER_STATUS_SPARE_BLOCKS : Field := ⟨0x70000, 16, 16, .ro, 5760⟩

/-! LEDGER_ERRORS: Table 11.15. -/
def LEDGER_ERRORS_SLOTS_BAD : Field := ⟨0x70004, 0, 16, .ro, 0⟩
def LEDGER_ERRORS_LOST : Field := ⟨0x70004, 16, 8, .ro, 0⟩
def LEDGER_ERRORS_DROPPED : Field := ⟨0x70004, 24, 8, .ro, 0⟩

/-! LEDGER_RD_CTL: Table 11.15. -/
def LEDGER_RD_CTL_RECORD : Field := ⟨0x70010, 0, 24, .rw, 0⟩
def LEDGER_RD_CTL_GO : Field := ⟨0x70010, 31, 1, .w1s, 0⟩

/-! LEDGER_RD_STATUS: Table 11.15. -/
def LEDGER_RD_STATUS_BUSY : Field := ⟨0x70014, 0, 1, .ro, 0⟩
def LEDGER_RD_STATUS_RESULT : Field := ⟨0x70014, 1, 2, .ro, 0⟩

/-! LIFE_HOURS: Table 11.15. -/
def LIFE_HOURS_HOURS : Field := ⟨0x70040, 0, 32, .ro, 0⟩

/-! LIFE_CROWN: Table 11.15. -/
def LIFE_CROWN_WEIGHTED : Field := ⟨0x70044, 0, 32, .ro, 0⟩

/-! LIFE_LEVELS: Table 11.15. -/
def LIFE_LEVELS_WEIGHTED : Field := ⟨0x70048, 0, 32, .ro, 0⟩

/-! LIFE_USED: Table 11.15. -/
def LIFE_USED_CROWN : Field := ⟨0x7004c, 0, 11, .ro, 0⟩
def LIFE_USED_LEVELS : Field := ⟨0x7004c, 11, 11, .ro, 0⟩

/-! LEDGER_RD_DATA: Table 11.15. -/
def LEDGER_RD_DATA_DATA (i : Nat) : Field := ⟨0x70100 + i * 0x4, 0, 32, .ro, 0⟩

/-! PORT_CTL: Table 12.8. -/
def PORT_CTL_ENABLE (i : Nat) : Field := ⟨0x100000 + i * 0x1000, 0, 1, .rw, 0⟩
def PORT_CTL_MODE (i : Nat) : Field := ⟨0x100000 + i * 0x1000, 1, 2, .rw, 0⟩
def PORT_CTL_MAX_STEP (i : Nat) : Field := ⟨0x100000 + i * 0x1000, 3, 3, .rw, 5⟩
def PORT_CTL_SPARE_EN (i : Nat) : Field := ⟨0x100000 + i * 0x1000, 6, 1, .rw, 1⟩
def PORT_CTL_DEGRADE_EN (i : Nat) : Field := ⟨0x100000 + i * 0x1000, 7, 1, .rw, 1⟩
def PORT_CTL_RETRAIN (i : Nat) : Field := ⟨0x100000 + i * 0x1000, 8, 1, .w1s, 0⟩
def PORT_CTL_LOOPBACK (i : Nat) : Field := ⟨0x100000 + i * 0x1000, 9, 1, .rw, 0⟩

/-! PORT_REASON: Table 12.9. -/
def PORT_REASON_CODE (i : Nat) : Field := ⟨0x100004 + i * 0x1000, 0, 8, .ro, 0⟩

/-! PORT_LINK: Table 12.10. -/
def PORT_LINK_STATE (i j : Nat) : Field := ⟨0x100010 + i * 0x1000 + j * 0x4, 0, 4, .ro, 0⟩
def PORT_LINK_STEP (i j : Nat) : Field := ⟨0x100010 + i * 0x1000 + j * 0x4, 4, 3, .ro, 0⟩
def PORT_LINK_WIDTH (i j : Nat) : Field := ⟨0x100010 + i * 0x1000 + j * 0x4, 7, 2, .ro, 0⟩
def PORT_LINK_PART (i j : Nat) : Field := ⟨0x100010 + i * 0x1000 + j * 0x4, 9, 2, .ro, 0⟩
def PORT_LINK_FAILED_STEP (i j : Nat) : Field := ⟨0x100010 + i * 0x1000 + j * 0x4, 11, 3, .ro, 7⟩
def PORT_LINK_FAR_DEVICE (i j : Nat) : Field := ⟨0x100010 + i * 0x1000 + j * 0x4, 14, 1, .ro, 0⟩
def PORT_LINK_RECOVERIES (i j : Nat) : Field := ⟨0x100010 + i * 0x1000 + j * 0x4, 16, 16, .ro, 0⟩

/-! LANE_MAP_TX: Table 12.11. -/
def LANE_MAP_TX_S0_LANE (i : Nat) : Field := ⟨0x100020 + i * 0x1000, 0, 5, .ro, 0⟩
def LANE_MAP_TX_S0_USED (i : Nat) : Field := ⟨0x100020 + i * 0x1000, 5, 1, .ro, 0⟩
def LANE_MAP_TX_S0_FAILED (i : Nat) : Field := ⟨0x100020 + i * 0x1000, 6, 1, .ro, 0⟩
def LANE_MAP_TX_S1_LANE (i : Nat) : Field := ⟨0x100020 + i * 0x1000, 8, 5, .ro, 0⟩
def LANE_MAP_TX_S1_USED (i : Nat) : Field := ⟨0x100020 + i * 0x1000, 13, 1, .ro, 0⟩
def LANE_MAP_TX_S1_FAILED (i : Nat) : Field := ⟨0x100020 + i * 0x1000, 14, 1, .ro, 0⟩
def LANE_MAP_TX_FAILED (i : Nat) : Field := ⟨0x100020 + i * 0x1000, 16, 16, .ro, 0⟩

/-! LANE_MAP_RX: Table 12.11. -/
def LANE_MAP_RX_S0_LANE (i : Nat) : Field := ⟨0x100024 + i * 0x1000, 0, 5, .ro, 0⟩
def LANE_MAP_RX_S0_USED (i : Nat) : Field := ⟨0x100024 + i * 0x1000, 5, 1, .ro, 0⟩
def LANE_MAP_RX_S0_FAILED (i : Nat) : Field := ⟨0x100024 + i * 0x1000, 6, 1, .ro, 0⟩
def LANE_MAP_RX_S1_LANE (i : Nat) : Field := ⟨0x100024 + i * 0x1000, 8, 5, .ro, 0⟩
def LANE_MAP_RX_S1_USED (i : Nat) : Field := ⟨0x100024 + i * 0x1000, 13, 1, .ro, 0⟩
def LANE_MAP_RX_S1_FAILED (i : Nat) : Field := ⟨0x100024 + i * 0x1000, 14, 1, .ro, 0⟩
def LANE_MAP_RX_FAILED (i : Nat) : Field := ⟨0x100024 + i * 0x1000, 16, 16, .ro, 0⟩

/-! LANE_ERR: Table 12.12. -/
def LANE_ERR_ERRORS (i j : Nat) : Field := ⟨0x100040 + i * 0x1000 + j * 0x4, 0, 16, .ro, 0⟩
def LANE_ERR_UNSTABLE (i j : Nat) : Field := ⟨0x100040 + i * 0x1000 + j * 0x4, 16, 8, .ro, 0⟩
def LANE_ERR_INVERTED (i j : Nat) : Field := ⟨0x100040 + i * 0x1000 + j * 0x4, 24, 1, .ro, 0⟩
def LANE_ERR_LOGICAL (i j : Nat) : Field := ⟨0x100040 + i * 0x1000 + j * 0x4, 25, 5, .ro, 0⟩
def LANE_ERR_LOCKED (i j : Nat) : Field := ⟨0x100040 + i * 0x1000 + j * 0x4, 30, 1, .ro, 0⟩

/-! PORT_URGENCY: Table 8.20. -/
def PORT_URGENCY_LEVELS (i : Nat) : Field := ⟨0x100090 + i * 0x1000, 0, 8, .ro, 0⟩
def PORT_URGENCY_CLAMPED (i : Nat) : Field := ⟨0x100090 + i * 0x1000, 8, 4, .ro, 0⟩
def PORT_URGENCY_DWELLS (i : Nat) : Field := ⟨0x100090 + i * 0x1000, 12, 20, .ro, 0⟩

/-! PORT_BIND: Table 7.9a. -/
def PORT_BIND_PATRON (i : Nat) : Field := ⟨0x1000a0 + i * 0x1000, 0, 12, .rw, 0⟩
def PORT_BIND_LINKS (i : Nat) : Field := ⟨0x1000a0 + i * 0x1000, 12, 4, .rw, 0⟩
def PORT_BIND_APPLY (i : Nat) : Field := ⟨0x1000a0 + i * 0x1000, 31, 1, .w1s, 0⟩

/-! FLIT_CFG: Table 13.12. -/
def FLIT_CFG_ANSWER_TIMEOUT (i : Nat) : Field := ⟨0x100100 + i * 0x1000, 0, 8, .rw, 20⟩
def FLIT_CFG_REPLAY_LIMIT (i : Nat) : Field := ⟨0x100100 + i * 0x1000, 8, 4, .rw, 4⟩

/-! FLIT_STATUS: Table 13.13. -/
def FLIT_STATUS_TX_SEQ (i j : Nat) : Field := ⟨0x100110 + i * 0x1000 + j * 0x4, 0, 10, .ro, 0⟩
def FLIT_STATUS_EXPECTED (i j : Nat) : Field := ⟨0x100110 + i * 0x1000 + j * 0x4, 10, 10, .ro, 0⟩
def FLIT_STATUS_UNANSWERED (i j : Nat) : Field := ⟨0x100110 + i * 0x1000 + j * 0x4, 20, 7, .ro, 0⟩
def FLIT_STATUS_NAK_PENDING (i j : Nat) : Field := ⟨0x100110 + i * 0x1000 + j * 0x4, 27, 1, .ro, 0⟩
def FLIT_STATUS_REPLAYING (i j : Nat) : Field := ⟨0x100110 + i * 0x1000 + j * 0x4, 28, 1, .ro, 0⟩

/-! FLIT_ERRORS: Table 13.14. -/
def FLIT_ERRORS_CRC_FAILS (i j : Nat) : Field := ⟨0x100120 + i * 0x1000 + j * 0x4, 0, 16, .ro, 0⟩
def FLIT_ERRORS_REPLAYS (i j : Nat) : Field := ⟨0x100120 + i * 0x1000 + j * 0x4, 16, 8, .ro, 0⟩
def FLIT_ERRORS_TIMEOUTS (i j : Nat) : Field := ⟨0x100120 + i * 0x1000 + j * 0x4, 24, 8, .ro, 0⟩

/-! FLIT_CREDITS: Table 13.15. -/
def FLIT_CREDITS_REQ (i j : Nat) : Field := ⟨0x100130 + i * 0x1000 + j * 0x4, 0, 10, .ro, 0⟩
def FLIT_CREDITS_RSP (i j : Nat) : Field := ⟨0x100130 + i * 0x1000 + j * 0x4, 10, 10, .ro, 0⟩
def FLIT_CREDITS_DEV (i j : Nat) : Field := ⟨0x100130 + i * 0x1000 + j * 0x4, 20, 10, .ro, 0⟩

/-! INJ_CTL: Table 13.16. -/
def INJ_CTL_ENABLE (i : Nat) : Field := ⟨0x100200 + i * 0x1000, 0, 1, .rw, 0⟩
def INJ_CTL_LINK (i : Nat) : Field := ⟨0x100200 + i * 0x1000, 1, 2, .rw, 0⟩
def INJ_CTL_DIRECTION (i : Nat) : Field := ⟨0x100200 + i * 0x1000, 3, 1, .rw, 0⟩
def INJ_CTL_MODE (i : Nat) : Field := ⟨0x100200 + i * 0x1000, 4, 2, .rw, 0⟩
def INJ_CTL_RATE (i : Nat) : Field := ⟨0x100200 + i * 0x1000, 6, 5, .rw, 16⟩

/-! INJ_SEED: Table 13.17. -/
def INJ_SEED_SEED (i : Nat) : Field := ⟨0x100204 + i * 0x1000, 0, 32, .rw, 1⟩

/-! INJ_UNLOCK: Table 13.17. -/
def INJ_UNLOCK_NONCE (i : Nat) : Field := ⟨0x100208 + i * 0x1000, 0, 16, .ro, 0⟩
def INJ_UNLOCK_KEY (i : Nat) : Field := ⟨0x100208 + i * 0x1000, 16, 16, .wo, 0⟩

/-! INJ_STATUS: Table 13.17. -/
def INJ_STATUS_UNLOCKED (i : Nat) : Field := ⟨0x10020c + i * 0x1000, 0, 1, .ro, 0⟩
def INJ_STATUS_RUNNING (i : Nat) : Field := ⟨0x10020c + i * 0x1000, 1, 1, .ro, 0⟩
def INJ_STATUS_STOPPED (i : Nat) : Field := ⟨0x10020c + i * 0x1000, 2, 1, .w1c, 0⟩
def INJ_STATUS_INJECTED (i : Nat) : Field := ⟨0x10020c + i * 0x1000, 8, 24, .ro, 0⟩

/-! TWIN_STATUS: Table 2.6. -/
def TWIN_STATUS_MODE (i : Nat) : Field := ⟨0x300010 + i * 0x1000, 0, 2, .ro, 0⟩
def TWIN_STATUS_CAUSE (i : Nat) : Field := ⟨0x300010 + i * 0x1000, 2, 3, .ro, 0⟩
def TWIN_STATUS_SWITCHING (i : Nat) : Field := ⟨0x300010 + i * 0x1000, 5, 1, .ro, 0⟩
def TWIN_STATUS_TAKEOVERS (i : Nat) : Field := ⟨0x300010 + i * 0x1000, 16, 16, .ro, 0⟩

/-! SHAFT_STATUS: Table 4.16. -/
def SHAFT_STATUS_CALIBRATED (i : Nat) : Field := ⟨0x300020 + i * 0x1000, 0, 1, .ro, 0⟩
def SHAFT_STATUS_CAL_RUNNING (i : Nat) : Field := ⟨0x300020 + i * 0x1000, 1, 1, .ro, 0⟩
def SHAFT_STATUS_BEAT_RATE (i : Nat) : Field := ⟨0x300020 + i * 0x1000, 2, 12, .ro, 0⟩
def SHAFT_STATUS_BELOW_FLOOR (i : Nat) : Field := ⟨0x300020 + i * 0x1000, 14, 1, .ro, 0⟩
def SHAFT_STATUS_CAL_SLIPS (i : Nat) : Field := ⟨0x300020 + i * 0x1000, 15, 8, .ro, 0⟩

/-! SHAFT_ALERTS: Table 4.17. -/
def SHAFT_ALERTS_ALERTS (i : Nat) : Field := ⟨0x300024 + i * 0x1000, 0, 16, .ro, 0⟩
def SHAFT_ALERTS_REPORT_PARITY (i : Nat) : Field := ⟨0x300024 + i * 0x1000, 16, 8, .ro, 0⟩
def SHAFT_ALERTS_BEAT_STALLS (i : Nat) : Field := ⟨0x300024 + i * 0x1000, 24, 8, .ro, 0⟩

/-! SHAFT_CTL: Table 4.18. -/
def SHAFT_CTL_CAL_START (i : Nat) : Field := ⟨0x300028 + i * 0x1000, 0, 1, .w1s, 0⟩
def SHAFT_CTL_ROW_OPEN_MAX (i : Nat) : Field := ⟨0x300028 + i * 0x1000, 8, 8, .rw, 20⟩
def SHAFT_CTL_CLOSED_PAGE (i : Nat) : Field := ⟨0x300028 + i * 0x1000, 16, 1, .rw, 0⟩

/-! INTEG_CE: Table 6.10. -/
def INTEG_CE_CORRECTED (i : Nat) : Field := ⟨0x300030 + i * 0x1000, 0, 32, .ro, 0⟩

/-! INTEG_UE: Table 6.11. -/
def INTEG_UE_UE (i : Nat) : Field := ⟨0x300034 + i * 0x1000, 0, 16, .ro, 0⟩
def INTEG_UE_POISON_READS (i : Nat) : Field := ⟨0x300034 + i * 0x1000, 16, 16, .ro, 0⟩

/-! INTEG_WB: Table 6.12. -/
def INTEG_WB_ISSUED (i : Nat) : Field := ⟨0x300038 + i * 0x1000, 0, 16, .ro, 0⟩
def INTEG_WB_SUPERSEDED (i : Nat) : Field := ⟨0x300038 + i * 0x1000, 16, 12, .ro, 0⟩
def INTEG_WB_DROPPED (i : Nat) : Field := ⟨0x300038 + i * 0x1000, 28, 4, .ro, 0⟩

/-! INTEG_MISC: Table 6.13. -/
def INTEG_MISC_ERASURE_ONLY (i : Nat) : Field := ⟨0x30003c + i * 0x1000, 0, 16, .ro, 0⟩
def INTEG_MISC_UE_MASKED (i : Nat) : Field := ⟨0x30003c + i * 0x1000, 16, 8, .ro, 0⟩
def INTEG_MISC_POISON_CLEARED (i : Nat) : Field := ⟨0x30003c + i * 0x1000, 24, 8, .ro, 0⟩

/-! SHELF_READ_STATUS: Table 6.14. -/
def SHELF_READ_STATUS_LINES_DONE (i : Nat) : Field := ⟨0x300040 + i * 0x1000, 0, 26, .ro, 0⟩
def SHELF_READ_STATUS_BEHIND (i : Nat) : Field := ⟨0x300040 + i * 0x1000, 26, 1, .ro, 0⟩
def SHELF_READ_STATUS_LATE (i : Nat) : Field := ⟨0x300040 + i * 0x1000, 27, 1, .ro, 0⟩

/-! SHELF_READ_PASSES: Table 6.15. -/
def SHELF_READ_PASSES_PASSES (i : Nat) : Field := ⟨0x300044 + i * 0x1000, 0, 16, .ro, 0⟩
def SHELF_READ_PASSES_LATE_PASSES (i : Nat) : Field := ⟨0x300044 + i * 0x1000, 16, 16, .ro, 0⟩

/-! MERGE_STATUS: Table 6.16. -/
def MERGE_STATUS_OCCUPANCY (i : Nat) : Field := ⟨0x300048 + i * 0x1000, 0, 7, .ro, 0⟩
def MERGE_STATUS_WAITS (i : Nat) : Field := ⟨0x300048 + i * 0x1000, 8, 24, .ro, 0⟩

/-! ERASURE: Table 6.17. -/
def ERASURE_SYMBOL (i j : Nat) : Field := ⟨0x300050 + i * 0x1000 + j * 0x4, 0, 7, .ro, 0⟩
def ERASURE_VALID (i j : Nat) : Field := ⟨0x300050 + i * 0x1000 + j * 0x4, 7, 1, .ro, 0⟩
def ERASURE_LEVELS (i j : Nat) : Field := ⟨0x300050 + i * 0x1000 + j * 0x4, 8, 17, .ro, 0⟩

/-! LEVEL_ROLE: Table 1.5. -/
def LEVEL_ROLE_ROLE (i : Nat) : Field := ⟨0x400000 + i * 0x1000, 0, 2, .ro, 0⟩
def LEVEL_ROLE_SHELF (i : Nat) : Field := ⟨0x400000 + i * 0x1000, 2, 4, .ro, 0⟩
def LEVEL_ROLE_FACTORY_RESERVE (i : Nat) : Field := ⟨0x400000 + i * 0x1000, 6, 1, .ro, 0⟩

/-! ACT_GRANT: Table 4.19. -/
def ACT_GRANT_GRANT (i : Nat) : Field := ⟨0x400010 + i * 0x1000, 0, 12, .ro, 256⟩
def ACT_GRANT_THROTTLE (i : Nat) : Field := ⟨0x400010 + i * 0x1000, 12, 7, .ro, 100⟩
def ACT_GRANT_SUSPECT_CLAMP (i : Nat) : Field := ⟨0x400010 + i * 0x1000, 19, 1, .ro, 0⟩

/-! CMD_STATUS: Table 4.20. -/
def CMD_STATUS_PARITY_ALERTS (i : Nat) : Field := ⟨0x400014 + i * 0x1000, 0, 16, .ro, 0⟩
def CMD_STATUS_TOKEN_ALERTS (i : Nat) : Field := ⟨0x400014 + i * 0x1000, 16, 8, .ro, 0⟩
def CMD_STATUS_STATE (i : Nat) : Field := ⟨0x400014 + i * 0x1000, 24, 2, .ro, 0⟩

/-! REFRESH_STATUS: Table 5.5. -/
def REFRESH_STATUS_WINDOW (i : Nat) : Field := ⟨0x400020 + i * 0x1000, 0, 16, .ro, 32000⟩
def REFRESH_STATUS_TEMP (i : Nat) : Field := ⟨0x400020 + i * 0x1000, 16, 10, .ro, 0⟩
def REFRESH_STATUS_FORCED_110 (i : Nat) : Field := ⟨0x400020 + i * 0x1000, 26, 1, .ro, 0⟩

/-! REFRESH_FAULTS: Table 5.6. -/
def REFRESH_FAULTS_LATE (i : Nat) : Field := ⟨0x400024 + i * 0x1000, 0, 8, .ro, 0⟩
def REFRESH_FAULTS_MISSED (i : Nat) : Field := ⟨0x400024 + i * 0x1000, 8, 8, .ro, 0⟩
def REFRESH_FAULTS_TREF_LATE (i : Nat) : Field := ⟨0x400024 + i * 0x1000, 16, 8, .ro, 0⟩
def REFRESH_FAULTS_TREF_BACKLOG (i : Nat) : Field := ⟨0x400024 + i * 0x1000, 24, 8, .ro, 0⟩

/-! ROW_ACT: Table 5.7. -/
def ROW_ACT_TRIGGERS (i : Nat) : Field := ⟨0x400028 + i * 0x1000, 0, 24, .ro, 0⟩
def ROW_ACT_COUNT_PARITY (i : Nat) : Field := ⟨0x400028 + i * 0x1000, 24, 8, .ro, 0⟩

/-! HYGRO: Table 5.8. -/
def HYGRO_TEMP (i j : Nat) : Field := ⟨0x400030 + i * 0x1000 + j * 0x4, 0, 10, .ro, 0⟩
def HYGRO_VALID (i j : Nat) : Field := ⟨0x400030 + i * 0x1000 + j * 0x4, 10, 1, .ro, 0⟩
def HYGRO_BELOW_RANGE (i j : Nat) : Field := ⟨0x400030 + i * 0x1000 + j * 0x4, 11, 1, .ro, 0⟩
def HYGRO_ABOVE_RANGE (i j : Nat) : Field := ⟨0x400030 + i * 0x1000 + j * 0x4, 12, 1, .ro, 0⟩
def HYGRO_FAILS (i j : Nat) : Field := ⟨0x400030 + i * 0x1000 + j * 0x4, 13, 18, .ro, 0⟩

/-! LEVEL_RESET: Table 5.9. -/
def LEVEL_RESET_REQ (i : Nat) : Field := ⟨0x400040 + i * 0x1000, 0, 1, .w1s, 0⟩
def LEVEL_RESET_RECOVERING (i : Nat) : Field := ⟨0x400040 + i * 0x1000, 1, 1, .ro, 0⟩
def LEVEL_RESET_RESETS (i : Nat) : Field := ⟨0x400040 + i * 0x1000, 8, 8, .ro, 0⟩

/-! FOOT_I3C_STATUS: Table 20.2. -/
def FOOT_I3C_STATUS_DYN_ADDR : Field := ⟨0x480010, 0, 7, .ro, 0⟩
def FOOT_I3C_STATUS_ADDR_VALID : Field := ⟨0x480010, 7, 1, .ro, 0⟩
def FOOT_I3C_STATUS_IBI_EN : Field := ⟨0x480010, 8, 1, .ro, 0⟩
def FOOT_I3C_STATUS_FRAME_ERROR : Field := ⟨0x480010, 9, 1, .w1c, 0⟩
def FOOT_I3C_STATUS_DENIED : Field := ⟨0x480010, 16, 16, .ro, 0⟩

/-! FOOT_I3C_ALERT: Table 20.2. -/
def FOOT_I3C_ALERT_FAULT : Field := ⟨0x480014, 0, 1, .w1c, 0⟩
def FOOT_I3C_ALERT_SAFE : Field := ⟨0x480014, 1, 1, .w1c, 0⟩
def FOOT_I3C_ALERT_WAKE : Field := ⟨0x480014, 2, 1, .w1c, 0⟩
def FOOT_I3C_ALERT_TAKEOVER : Field := ⟨0x480014, 3, 1, .w1c, 0⟩

/-! FOOT_TAP_GATE: Table 20.5a. -/
def FOOT_TAP_GATE_ALLOW : Field := ⟨0x480020, 0, 1, .rw, 0⟩

/-! FOOT_TAP_STATUS: Table 20.5a. -/
def FOOT_TAP_STATUS_SCOPE : Field := ⟨0x480024, 0, 2, .ro, 0⟩
def FOOT_TAP_STATUS_FAILS : Field := ⟨0x480024, 2, 2, .ro, 0⟩
def FOOT_TAP_STATUS_LOCKED_OUT : Field := ⟨0x480024, 4, 1, .ro, 0⟩
def FOOT_TAP_STATUS_UNLOCKS : Field := ⟨0x480024, 16, 16, .ro, 0⟩

/-! ALLOW_CTL: Table 8.8. -/
def ALLOW_CTL_COMMIT : Field := ⟨0x500000, 0, 1, .w1s, 0⟩
def ALLOW_CTL_PERIOD : Field := ⟨0x500000, 1, 3, .rw, 1⟩
def ALLOW_CTL_DESIGN_TEMP : Field := ⟨0x500000, 4, 7, .rw, 95⟩
def ALLOW_CTL_HEADROOM : Field := ⟨0x500000, 11, 6, .rw, 10⟩
def ALLOW_CTL_URGENT : Field := ⟨0x500000, 17, 5, .rw, 5⟩

/-! ALLOW_BG: Table 8.9. -/
def ALLOW_BG_RESHELVE : Field := ⟨0x500004, 0, 8, .rw, 64⟩
def ALLOW_BG_RESHELVE_CRIT : Field := ⟨0x500004, 8, 8, .rw, 160⟩
def ALLOW_BG_RESHELVE_FLOOR : Field := ⟨0x500004, 16, 6, .rw, 32⟩
def ALLOW_BG_SPOT : Field := ⟨0x500004, 22, 6, .rw, 16⟩

/-! ALLOW_STATUS: Table 8.10. -/
def ALLOW_STATUS_SHEDDING_BAYS : Field := ⟨0x500008, 0, 7, .ro, 0⟩
def ALLOW_STATUS_INFEASIBLE : Field := ⟨0x500008, 7, 1, .ro, 0⟩
def ALLOW_STATUS_RECHECKS : Field := ⟨0x500008, 16, 16, .ro, 0⟩

/-! ALLOW_REASON: Table 8.11. -/
def ALLOW_REASON_CODE : Field := ⟨0x50000c, 0, 8, .ro, 0⟩
def ALLOW_REASON_BAY : Field := ⟨0x50000c, 8, 6, .ro, 0⟩
def ALLOW_REASON_CLASS : Field := ⟨0x50000c, 14, 3, .ro, 0⟩
def ALLOW_REASON_GROUP : Field := ⟨0x50000c, 24, 8, .ro, 0⟩

/-! ALLOW_URGENCY: Table 8.12. -/
def ALLOW_URGENCY_DWELL : Field := ⟨0x500010, 0, 16, .rw, 50⟩

/-! GUARANTEE: Table 8.13. -/
def GUARANTEE_SLOTS (i : Nat) : Field := ⟨0x501000 + i * 0x20, 0, 20, .rw, 0⟩

/-! CEILING: Table 8.13. -/
def CEILING_SLOTS (i : Nat) : Field := ⟨0x501004 + i * 0x20, 0, 20, .rw, 0⟩

/-! GROUP_CACHE: Table 8.14. -/
def GROUP_CACHE_WAY_MASK (i : Nat) : Field := ⟨0x501008 + i * 0x20, 0, 16, .rw, 65535⟩
def GROUP_CACHE_OCC_CAP (i : Nat) : Field := ⟨0x501008 + i * 0x20, 16, 16, .rw, 65535⟩

/-! GROUP_QUEUE: Table 8.15. -/
def GROUP_QUEUE_QUEUE_SHARE (i : Nat) : Field := ⟨0x50100c + i * 0x20, 0, 8, .rw, 0⟩
def GROUP_QUEUE_URGENT (i : Nat) : Field := ⟨0x50100c + i * 0x20, 8, 2, .rw, 0⟩

/-! MISS_CFG: Table 8.16. -/
def MISS_CFG_MISS_N (i : Nat) : Field := ⟨0x501010 + i * 0x20, 0, 16, .rw, 16⟩
def MISS_CFG_MISS_W (i : Nat) : Field := ⟨0x501010 + i * 0x20, 16, 5, .rw, 10⟩

/-! MISS_SLOTS: Table 8.17. -/
def MISS_SLOTS_COUNT (i : Nat) : Field := ⟨0x501014 + i * 0x20, 0, 32, .ro, 0⟩

/-! MISS_LATENCY: Table 8.17. -/
def MISS_LATENCY_COUNT (i : Nat) : Field := ⟨0x501018 + i * 0x20, 0, 32, .ro, 0⟩

/-! GROUP_IN_FORCE: Table 8.18. -/
def GROUP_IN_FORCE_A0_MIN (i : Nat) : Field := ⟨0x50101c + i * 0x20, 0, 15, .ro, 0⟩
def GROUP_IN_FORCE_SCALED (i : Nat) : Field := ⟨0x50101c + i * 0x20, 15, 1, .ro, 0⟩

/-! ALLOW_BAY: Table 8.19. -/
def ALLOW_BAY_CAP (i : Nat) : Field := ⟨0x504000 + i * 0x4, 0, 12, .ro, 1600⟩
def ALLOW_BAY_STEP (i : Nat) : Field := ⟨0x504000 + i * 0x4, 12, 3, .ro, 0⟩
def ALLOW_BAY_A3 (i : Nat) : Field := ⟨0x504000 + i * 0x4, 15, 8, .ro, 16⟩

/-! CAT_RESERVE: Table 7.12. -/
def CAT_RESERVE_SIZE : Field := ⟨0x600000, 0, 5, .rwl, 4⟩
def CAT_RESERVE_LOCK : Field := ⟨0x600000, 31, 1, .ro, 0⟩

/-! CAT_CMD: Table 7.17. -/
def CAT_CMD_PATRON : Field := ⟨0x600010, 0, 12, .rw, 0⟩
def CAT_CMD_LEVEL : Field := ⟨0x600010, 12, 2, .rw, 0⟩
def CAT_CMD_OP : Field := ⟨0x600010, 14, 2, .rw, 0⟩
def CAT_CMD_FENCE_ALL : Field := ⟨0x600010, 16, 1, .rw, 0⟩
def CAT_CMD_GO : Field := ⟨0x600010, 31, 1, .w1s, 0⟩

/-! CAT_ADDR: Table 7.18. -/
def CAT_ADDR_VALUE (i : Nat) : Field := ⟨0x600014 + i * 0x4, 0, if i = 0 then 32 else 16, .rw, 0⟩

/-! CAT_NEW: Table 7.18. -/
def CAT_NEW_VALUE (i : Nat) : Field := ⟨0x600020 + i * 0x4, 0, 32, .rw, 0⟩

/-! CAT_EXPECT: Table 7.18. -/
def CAT_EXPECT_VALUE (i : Nat) : Field := ⟨0x600028 + i * 0x4, 0, 32, .rw, 0⟩

/-! CAT_OLD: Table 7.18. -/
def CAT_OLD_VALUE (i : Nat) : Field := ⟨0x600030 + i * 0x4, 0, 32, .ro, 0⟩

/-! CAT_STATUS: Table 7.19. -/
def CAT_STATUS_BUSY : Field := ⟨0x600038, 0, 1, .ro, 0⟩
def CAT_STATUS_RESULT : Field := ⟨0x600038, 1, 3, .ro, 0⟩

/-! RESHELVE_CMD: Table 11.13. -/
def RESHELVE_CMD_PATRON : Field := ⟨0x600100, 0, 12, .rw, 0⟩
def RESHELVE_CMD_OP : Field := ⟨0x600100, 12, 2, .rw, 0⟩
def RESHELVE_CMD_GO : Field := ⟨0x600100, 31, 1, .w1s, 0⟩

/-! RESHELVE_ADDR_LO: Table 11.13. -/
def RESHELVE_ADDR_LO_ADDR : Field := ⟨0x600104, 0, 32, .rw, 0⟩

/-! RESHELVE_ADDR_HI: Table 11.13. -/
def RESHELVE_ADDR_HI_ADDR : Field := ⟨0x600108, 0, 16, .rw, 0⟩

/-! RESHELVE_DST: Table 11.13. -/
def RESHELVE_DST_DPA : Field := ⟨0x60010c, 0, 22, .rw, 0⟩

/-! RESHELVE_JOB: Table 11.13. -/
def RESHELVE_JOB_JOB : Field := ⟨0x600110, 0, 12, .rw, 0⟩

/-! RESHELVE_STATUS: Table 11.13. -/
def RESHELVE_STATUS_BUSY : Field := ⟨0x600114, 0, 1, .ro, 0⟩
def RESHELVE_STATUS_RESULT : Field := ⟨0x600114, 1, 3, .ro, 0⟩
def RESHELVE_STATUS_STATE : Field := ⟨0x600114, 4, 3, .ro, 0⟩
def RESHELVE_STATUS_END : Field := ⟨0x600114, 7, 3, .ro, 0⟩
def RESHELVE_STATUS_ACTIVE : Field := ⟨0x600114, 10, 9, .ro, 0⟩

/-! TROLLEY_CTL: Table 10.10. -/
def TROLLEY_CTL_RECALL_MIN : Field := ⟨0x700000, 0, 8, .rw, 20⟩
def TROLLEY_CTL_RECALL_EN : Field := ⟨0x700000, 8, 1, .rw, 1⟩

/-! TROLLEY_GROUP_STATUS: Table 10.11. -/
def TROLLEY_GROUP_STATUS_RUNNING (i : Nat) : Field := ⟨0x700100 + i * 0x10, 0, 3, .ro, 0⟩
def TROLLEY_GROUP_STATUS_RECALLED (i : Nat) : Field := ⟨0x700100 + i * 0x10, 3, 5, .ro, 0⟩
def TROLLEY_GROUP_STATUS_FETCHED (i : Nat) : Field := ⟨0x700100 + i * 0x10, 8, 6, .ro, 0⟩
def TROLLEY_GROUP_STATUS_SERVING_PARTNER (i : Nat) : Field := ⟨0x700100 + i * 0x10, 14, 1, .ro, 0⟩
def TROLLEY_GROUP_STATUS_GATED (i : Nat) : Field := ⟨0x700100 + i * 0x10, 15, 1, .ro, 0⟩
def TROLLEY_GROUP_STATUS_RECALLS (i : Nat) : Field := ⟨0x700100 + i * 0x10, 16, 16, .ro, 0⟩

/-! TROLLEY_STATUS: Table 10.12. -/
def TROLLEY_STATUS_STATE (i : Nat) : Field := ⟨0x700200 + i * 0x10, 0, 3, .ro, 0⟩
def TROLLEY_STATUS_PATRON (i : Nat) : Field := ⟨0x700200 + i * 0x10, 3, 12, .ro, 0⟩
def TROLLEY_STATUS_RING (i : Nat) : Field := ⟨0x700200 + i * 0x10, 15, 2, .ro, 0⟩
def TROLLEY_STATUS_OPCODE (i : Nat) : Field := ⟨0x700200 + i * 0x10, 17, 8, .ro, 0⟩
def TROLLEY_STATUS_IN_FLIGHT (i : Nat) : Field := ⟨0x700200 + i * 0x10, 25, 7, .ro, 0⟩

/-! TROLLEY_PROGRESS: Table 10.12. -/
def TROLLEY_PROGRESS_P (i : Nat) : Field := ⟨0x700204 + i * 0x10, 0, 32, .ro, 0⟩

/-! REKEY_REC: Table 10.13. -/
def REKEY_REC_PATRON (i : Nat) : Field := ⟨0x700400 + i * 0x4, 0, 12, .ro, 0⟩
def REKEY_REC_OPEN (i : Nat) : Field := ⟨0x700400 + i * 0x4, 12, 1, .ro, 0⟩
def REKEY_REC_SEGMENT (i : Nat) : Field := ⟨0x700400 + i * 0x4, 13, 8, .ro, 0⟩
def REKEY_REC_LINES_DONE (i : Nat) : Field := ⟨0x700400 + i * 0x4, 21, 11, .ro, 0⟩

/-! HOUSE_RING_BASE_LO: Table 9.2. -/
def HOUSE_RING_BASE_LO_BASE (i : Nat) : Field := ⟨0x800000 + i * 0x10, 12, 20, .rw, 0⟩

/-! HOUSE_RING_BASE_HI: Table 9.2. -/
def HOUSE_RING_BASE_HI_BASE (i : Nat) : Field := ⟨0x800004 + i * 0x10, 0, 32, .rw, 0⟩

/-! HOUSE_RING_CTL: Table 9.2. -/
def HOUSE_RING_CTL_ENABLE (i : Nat) : Field := ⟨0x800008 + i * 0x10, 0, 1, .rw, 0⟩
def HOUSE_RING_CTL_SIZE (i : Nat) : Field := ⟨0x800008 + i * 0x10, 1, 5, .rw, 4⟩
def HOUSE_RING_CTL_INT_ALL (i : Nat) : Field := ⟨0x800008 + i * 0x10, 6, 1, .rw, 0⟩
def HOUSE_RING_CTL_HOLDOFF (i : Nat) : Field := ⟨0x800008 + i * 0x10, 16, 8, .rw, 0⟩

/-! HOUSE_RING_STATUS: Table 9.2. -/
def HOUSE_RING_STATUS_STATE (i : Nat) : Field := ⟨0x80000c + i * 0x10, 0, 3, .ro, 0⟩
def HOUSE_RING_STATUS_REASON (i : Nat) : Field := ⟨0x80000c + i * 0x10, 8, 8, .ro, 0⟩
def HOUSE_RING_STATUS_INDEX (i : Nat) : Field := ⟨0x80000c + i * 0x10, 16, 16, .ro, 0⟩

/-! HOUSE_LINK: Table 9.13. -/
def HOUSE_LINK_PORT : Field := ⟨0x800040, 0, 6, .rw, 0⟩
def HOUSE_LINK_LINK : Field := ⟨0x800040, 6, 2, .rw, 0⟩

/-! HOUSE_INT_ADDR: Table 9.13. -/
def HOUSE_INT_ADDR_ADDR (i : Nat) : Field := ⟨0x800048 + i * 0x4, if i = 0 then 2 else 0, if i = 0 then 30 else 32, .rw, 0⟩

/-! HOUSE_INT_DATA: Table 9.13. -/
def HOUSE_INT_DATA_DATA : Field := ⟨0x800050, 0, 32, .rw, 0⟩

/-! HOUSE_CFG: Table 9.13. -/
def HOUSE_CFG_HOST_TIMEOUT : Field := ⟨0x800054, 0, 16, .rw, 100⟩

/-! SEAL_DATA: Table 7.21. -/
def SEAL_DATA_DATA (i : Nat) : Field := ⟨0x900000 + i * 0x4, 0, 32, .wo, 0⟩

/-! SEAL_CMD: Table 7.22. -/
def SEAL_CMD_PATRON : Field := ⟨0x900100, 0, 12, .wo, 0⟩
def SEAL_CMD_KEK : Field := ⟨0x900100, 12, 4, .wo, 0⟩
def SEAL_CMD_OP : Field := ⟨0x900100, 16, 3, .wo, 0⟩
def SEAL_CMD_GO : Field := ⟨0x900100, 31, 1, .w1s, 0⟩

/-! SEAL_STATUS: Table 7.23. -/
def SEAL_STATUS_BUSY : Field := ⟨0x900104, 0, 1, .ro, 0⟩
def SEAL_STATUS_RESULT : Field := ⟨0x900104, 1, 3, .ro, 0⟩
def SEAL_STATUS_NEXT_FREE : Field := ⟨0x900104, 4, 5, .ro, 16⟩

/-! SEAL_CTL: Table 7.24. -/
def SEAL_CTL_KEK_LOCK : Field := ⟨0x900108, 0, 1, .w1s, 0⟩

/-! COLL_CTL: Table 14.6. -/
def COLL_CTL_JOIN : Field := ⟨0xa00000, 0, 1, .rw, 0⟩
def COLL_CTL_FOUND : Field := ⟨0xa00000, 1, 1, .rw, 0⟩

/-! COLL_STATUS: Table 14.6. -/
def COLL_STATUS_POSITION : Field := ⟨0xa00004, 0, 6, .ro, 0⟩
def COLL_STATUS_STATE : Field := ⟨0xa00004, 6, 3, .ro, 0⟩
def COLL_STATUS_OUT_OF_STEP : Field := ⟨0xa00004, 9, 1, .ro, 0⟩
def COLL_STATUS_SAMPLING : Field := ⟨0xa00004, 10, 1, .ro, 0⟩
def COLL_STATUS_HEAD : Field := ⟨0xa00004, 11, 6, .ro, 0⟩
def COLL_STATUS_MEMBERS : Field := ⟨0xa00004, 17, 7, .ro, 0⟩
def COLL_STATUS_DRIFT : Field := ⟨0xa00004, 24, 1, .ro, 0⟩

/-! COLL_REASON: Table 14.6. -/
def COLL_REASON_CODE : Field := ⟨0xa00008, 0, 8, .ro, 0⟩

/-! COLL_VERSION: Table 14.6. -/
def COLL_VERSION_MAJOR : Field := ⟨0xa0000c, 0, 8, .ro, 0⟩
def COLL_VERSION_LEVEL : Field := ⟨0xa0000c, 8, 8, .ro, 0⟩
def COLL_VERSION_RUN_LEVEL : Field := ⟨0xa0000c, 16, 8, .ro, 0⟩

/-! COLL_CFG: Table 14.6. -/
def COLL_CFG_FWD_TIMEOUT : Field := ⟨0xa00010, 0, 8, .rw, 50⟩
def COLL_CFG_TSYNC : Field := ⟨0xa00010, 8, 1, .rw, 0⟩
def COLL_CFG_TSYNC_DELAY : Field := ⟨0xa00010, 16, 16, .rw, 0⟩

/-! COLL_OFFSET: Table 14.6. -/
def COLL_OFFSET_OFFSET : Field := ⟨0xa00014, 0, 32, .ro, 0⟩

/-! COLL_DIM: Table 14.6. -/
def COLL_DIM_PORT (i : Nat) : Field := ⟨0xa00020 + i * 0x4, 0, 6, .rw, 0⟩
def COLL_DIM_VALID (i : Nat) : Field := ⟨0xa00020 + i * 0x4, 6, 1, .rw, 0⟩

/-! COLL_MEMBERS: Table 14.6. -/
def COLL_MEMBERS_MAP (i : Nat) : Field := ⟨0xa00040 + i * 0x4, 0, 32, .ro, 0⟩

/-! COLL_LOST: Table 14.6. -/
def COLL_LOST_MAP (i : Nat) : Field := ⟨0xa00048 + i * 0x4, 0, 32, .ro, 0⟩

/-! COLL_CAT: Table 14.6. -/
def COLL_CAT_HOLDER : Field := ⟨0xa00050, 0, 6, .rw, 0⟩
def COLL_CAT_PROPAGATE : Field := ⟨0xa00050, 6, 1, .rw, 0⟩

/-! COLL_CAT_SEQ: Table 14.6. -/
def COLL_CAT_SEQ_SEQ : Field := ⟨0xa00054, 0, 32, .ro, 0⟩

/-! COLL_XDST: Table 14.6. -/
def COLL_XDST_MEMBER : Field := ⟨0xa00058, 0, 6, .rw, 0⟩
def COLL_XDST_VALID : Field := ⟨0xa00058, 6, 1, .rw, 0⟩

/-! COLL_EVAC_LIST: Table 14.6. -/
def COLL_EVAC_LIST_ADDR (i : Nat) : Field := ⟨0xa00060 + i * 0x4, 0, 32, .rw, 0⟩

/-! COLL_EVAC_COUNT: Table 14.6. -/
def COLL_EVAC_COUNT_COUNT : Field := ⟨0xa00068, 0, 16, .rw, 0⟩

/-! COLL_DIGEST: Table 14.6. -/
def COLL_DIGEST_DIGEST (i : Nat) : Field := ⟨0xa00080 + i * 0x4, 0, 32, .ro, 0⟩

/-! RR_FLUSH_CTL: Table 2.9. -/
def RR_FLUSH_CTL_START : Field := ⟨0xb00000, 0, 1, .w1s, 0⟩
def RR_FLUSH_CTL_INVALIDATE : Field := ⟨0xb00000, 1, 1, .rw, 0⟩
def RR_FLUSH_CTL_SCOPE : Field := ⟨0xb00000, 2, 2, .rw, 0⟩
def RR_FLUSH_CTL_SLICE : Field := ⟨0xb00000, 4, 4, .rw, 0⟩
def RR_FLUSH_CTL_GROUP : Field := ⟨0xb00000, 8, 8, .rw, 0⟩

/-! RR_FLUSH_BASE: Table 2.10. -/
def RR_FLUSH_BASE_LINE : Field := ⟨0xb00004, 0, 32, .rw, 0⟩

/-! RR_FLUSH_LIMIT: Table 2.10. -/
def RR_FLUSH_LIMIT_LINE : Field := ⟨0xb00008, 0, 32, .rw, 0⟩

/-! RR_FLUSH_STATUS: Table 2.11. -/
def RR_FLUSH_STATUS_BUSY : Field := ⟨0xb0000c, 0, 1, .ro, 0⟩
def RR_FLUSH_STATUS_DONE : Field := ⟨0xb0000c, 1, 1, .w1c, 0⟩
def RR_FLUSH_STATUS_ABORTED : Field := ⟨0xb0000c, 2, 1, .w1c, 0⟩
def RR_FLUSH_STATUS_LINES_WRITTEN : Field := ⟨0xb0000c, 8, 24, .ro, 0⟩

/-! RR_INTEG: Table 6.18. -/
def RR_INTEG_SINGLE (i : Nat) : Field := ⟨0xb00040 + i * 0x4, 0, 16, .ro, 0⟩
def RR_INTEG_REFETCHED (i : Nat) : Field := ⟨0xb00040 + i * 0x4, 16, 8, .ro, 0⟩
def RR_INTEG_POISONED (i : Nat) : Field := ⟨0xb00040 + i * 0x4, 24, 8, .ro, 0⟩

/-! PATRON_CTL: Table 7.2. -/
def PATRON_CTL_ENABLE (i : Nat) : Field := ⟨0x1000000 + i * 0x100, 0, 1, .rw, 0⟩
def PATRON_CTL_SEALED (i : Nat) : Field := ⟨0x1000000 + i * 0x100, 1, 1, .rw, 0⟩
def PATRON_CTL_COUNTER_READ (i : Nat) : Field := ⟨0x1000000 + i * 0x100, 2, 1, .rw, 0⟩
def PATRON_CTL_TEST (i : Nat) : Field := ⟨0x1000000 + i * 0x100, 3, 1, .rw, 0⟩
def PATRON_CTL_FIRM (i : Nat) : Field := ⟨0x1000000 + i * 0x100, 4, 1, .rw, 0⟩
def PATRON_CTL_TRACK_AD (i : Nat) : Field := ⟨0x1000000 + i * 0x100, 5, 1, .rw, 0⟩

/-! PATRON_STATUS: Table 7.3. -/
def PATRON_STATUS_ACTIVE (i : Nat) : Field := ⟨0x1000004 + i * 0x100, 0, 1, .ro, 0⟩
def PATRON_STATUS_DISABLING (i : Nat) : Field := ⟨0x1000004 + i * 0x100, 1, 1, .ro, 0⟩
def PATRON_STATUS_KEY_LOADED (i : Nat) : Field := ⟨0x1000004 + i * 0x100, 2, 1, .ro, 0⟩
def PATRON_STATUS_NEXT_KEY_LOADED (i : Nat) : Field := ⟨0x1000004 + i * 0x100, 3, 1, .ro, 0⟩
def PATRON_STATUS_KEY_EPOCH (i : Nat) : Field := ⟨0x1000004 + i * 0x100, 4, 1, .ro, 0⟩
def PATRON_STATUS_KEY_LOST (i : Nat) : Field := ⟨0x1000004 + i * 0x100, 5, 1, .ro, 0⟩
def PATRON_STATUS_LAST_TF (i : Nat) : Field := ⟨0x1000004 + i * 0x100, 8, 8, .ro, 0⟩

/-! PATRON_GROUP: Table 8.2. -/
def PATRON_GROUP_GROUP (i : Nat) : Field := ⟨0x1000008 + i * 0x100, 0, 8, .rw, 0⟩

/-! PATRON_REASON: Table 7.4. -/
def PATRON_REASON_CODE (i : Nat) : Field := ⟨0x100000c + i * 0x100, 0, 8, .ro, 0⟩

/-! PATRON_ROOT: Table 7.5. -/
def PATRON_ROOT_ROOT (i : Nat) : Field := ⟨0x1000010 + i * 0x100, 0, 27, .rw, 0⟩

/-! PATRON_HOST_LINK: Table 7.6. -/
def PATRON_HOST_LINK_PORT (i : Nat) : Field := ⟨0x1000014 + i * 0x100, 0, 6, .rw, 0⟩
def PATRON_HOST_LINK_LINK (i : Nat) : Field := ⟨0x1000014 + i * 0x100, 6, 2, .rw, 0⟩
def PATRON_HOST_LINK_VALID (i : Nat) : Field := ⟨0x1000014 + i * 0x100, 8, 1, .rw, 0⟩

/-! PATRON_LEAVES: Table 7.7. -/
def PATRON_LEAVES_COUNT (i : Nat) : Field := ⟨0x1000018 + i * 0x100, 0, 32, .ro, 0⟩

/-! RING_BASE_LO: Table 9.2. -/
def RING_BASE_LO_BASE (i j : Nat) : Field := ⟨0x1000020 + i * 0x100 + j * 0x10, 12, 20, .rw, 0⟩

/-! RING_BASE_HI: Table 9.2. -/
def RING_BASE_HI_BASE (i j : Nat) : Field := ⟨0x1000024 + i * 0x100 + j * 0x10, 0, 32, .rw, 0⟩

/-! RING_CTL: Table 9.2. -/
def RING_CTL_ENABLE (i j : Nat) : Field := ⟨0x1000028 + i * 0x100 + j * 0x10, 0, 1, .rw, 0⟩
def RING_CTL_SIZE (i j : Nat) : Field := ⟨0x1000028 + i * 0x100 + j * 0x10, 1, 5, .rw, 4⟩
def RING_CTL_INT_ALL (i j : Nat) : Field := ⟨0x1000028 + i * 0x100 + j * 0x10, 6, 1, .rw, 0⟩
def RING_CTL_HOLDOFF (i j : Nat) : Field := ⟨0x1000028 + i * 0x100 + j * 0x10, 16, 8, .rw, 0⟩

/-! RING_STATUS: Table 9.2. -/
def RING_STATUS_STATE (i j : Nat) : Field := ⟨0x100002c + i * 0x100 + j * 0x10, 0, 3, .ro, 0⟩
def RING_STATUS_REASON (i j : Nat) : Field := ⟨0x100002c + i * 0x100 + j * 0x10, 8, 8, .ro, 0⟩
def RING_STATUS_INDEX (i j : Nat) : Field := ⟨0x100002c + i * 0x100 + j * 0x10, 16, 16, .ro, 0⟩

/-! BELL_ADDR_LO: Table 9.3. -/
def BELL_ADDR_LO_ADDR (i : Nat) : Field := ⟨0x1000080 + i * 0x100, 5, 27, .rw, 0⟩

/-! BELL_ADDR_HI: Table 9.3. -/
def BELL_ADDR_HI_ADDR (i : Nat) : Field := ⟨0x1000084 + i * 0x100, 0, 32, .rw, 0⟩

/-! INT_ADDR_LO: Table 9.3. -/
def INT_ADDR_LO_ADDR (i : Nat) : Field := ⟨0x1000088 + i * 0x100, 2, 30, .rw, 0⟩

/-! INT_ADDR_HI: Table 9.3. -/
def INT_ADDR_HI_ADDR (i : Nat) : Field := ⟨0x100008c + i * 0x100, 0, 32, .rw, 0⟩

/-! INT_DATA: Table 9.3. -/
def INT_DATA_DATA (i : Nat) : Field := ⟨0x1000090 + i * 0x100, 0, 32, .rw, 0⟩

/-! PATRON_CIRC: Table 19.8. -/
def PATRON_CIRC_DATA (i j : Nat) : Field := ⟨0x10000a0 + i * 0x100 + j * 0x4, 0, 32, .ro, 0⟩

/-! TF_COUNT: Table 7.8. -/
def TF_COUNT_COUNT (i j : Nat) : Field := ⟨0x10000e0 + i * 0x100 + j * 0x4, 0, 32, .rc, 0⟩

end F

/-- The registers of the map, each under its name in the chapters (a family of like registers under one name). -/
inductive RegName where
  | DEV_ID
  | DEV_CTL
  | DEV_STATUS
  | DEV_REASON
  | DEV_STACK
  | DEV_LAYOUT
  | DEV_KEEPER
  | DEV_REG
  | DEV_START_STATUS
  | DEV_START_CFG
  | DEV_START_COUNT
  | INTEG_CTL
  | SPARE_CTL
  | SPARE_STATUS
  | REPAIR_CFG
  | EVAC_CTL
  | EVAC_STATUS
  | DEV_MBOX_REQ
  | DEV_MBOX_RSP
  | DEV_MBOX_CTL
  | POWER_CTL
  | POWER_STATUS
  | POWER_WAKE_CFG
  | LAST_WAKE
  | LAST_WAKE_MS
  | POWER_PINS
  | POWER_RAIL
  | POWER_DOMAIN
  | CLK_REF_CTL
  | CLK_REF_STATUS
  | CLK_PLL_STATUS
  | CLK_HP3_CTL
  | TB_TIME_LO
  | TB_TIME_HI
  | TB_STATUS
  | PACE_ZONE
  | CLK_PORT_PLL
  | THERM_CFG
  | THERM_STATUS
  | THERM_LEVEL
  | THERM_ZONE
  | THERM_SENSOR
  | FAULT_STATUS
  | FAULT_CLEAR
  | FAULT_QUEUE_SEL
  | FAULT_QUEUE
  | SAFE_CTL
  | SAFE_STATUS
  | FAULT_TYPE_CFG
  | TEST_SLICE
  | TEST_SLICE_STATUS
  | TEST_REASON
  | TEST_RESULT
  | TEST_FAIL_ADDR
  | TEST_SCHED
  | INVENTORY_CTL
  | INVENTORY_STATUS
  | TEST_FAIL_BITS
  | PERF_SEL
  | PERF_FILTER
  | PERF_VALUE_LO
  | PERF_VALUE_HI
  | PERF_CTL
  | PERF_STATUS
  | TRACE_CTL
  | TRACE_SEED
  | TRACE_STATUS
  | STMT_CFG
  | STMT_STATUS
  | STMT_LAST
  | ROW_ACT_CTL
  | ROW_ACT_QUERY
  | ROW_ACT_STATUS
  | ROW_ACT_CLAMP
  | LEDGER_STATUS
  | LEDGER_ERRORS
  | LEDGER_RD_CTL
  | LEDGER_RD_STATUS
  | LIFE_HOURS
  | LIFE_CROWN
  | LIFE_LEVELS
  | LIFE_USED
  | LEDGER_RD_DATA
  | PORT_CTL
  | PORT_REASON
  | PORT_LINK
  | LANE_MAP_TX
  | LANE_MAP_RX
  | LANE_ERR
  | PORT_URGENCY
  | PORT_BIND
  | FLIT_CFG
  | FLIT_STATUS
  | FLIT_ERRORS
  | FLIT_CREDITS
  | INJ_CTL
  | INJ_SEED
  | INJ_UNLOCK
  | INJ_STATUS
  | TWIN_STATUS
  | SHAFT_STATUS
  | SHAFT_ALERTS
  | SHAFT_CTL
  | INTEG_CE
  | INTEG_UE
  | INTEG_WB
  | INTEG_MISC
  | SHELF_READ_STATUS
  | SHELF_READ_PASSES
  | MERGE_STATUS
  | ERASURE
  | LEVEL_ROLE
  | ACT_GRANT
  | CMD_STATUS
  | REFRESH_STATUS
  | REFRESH_FAULTS
  | ROW_ACT
  | HYGRO
  | LEVEL_RESET
  | FOOT_I3C_STATUS
  | FOOT_I3C_ALERT
  | FOOT_TAP_GATE
  | FOOT_TAP_STATUS
  | ALLOW_CTL
  | ALLOW_BG
  | ALLOW_STATUS
  | ALLOW_REASON
  | ALLOW_URGENCY
  | GUARANTEE
  | CEILING
  | GROUP_CACHE
  | GROUP_QUEUE
  | MISS_CFG
  | MISS_SLOTS
  | MISS_LATENCY
  | GROUP_IN_FORCE
  | ALLOW_BAY
  | CAT_RESERVE
  | CAT_CMD
  | CAT_ADDR
  | CAT_NEW
  | CAT_EXPECT
  | CAT_OLD
  | CAT_STATUS
  | RESHELVE_CMD
  | RESHELVE_ADDR_LO
  | RESHELVE_ADDR_HI
  | RESHELVE_DST
  | RESHELVE_JOB
  | RESHELVE_STATUS
  | TROLLEY_CTL
  | TROLLEY_GROUP_STATUS
  | TROLLEY_STATUS
  | TROLLEY_PROGRESS
  | REKEY_REC
  | HOUSE_RING_BASE_LO
  | HOUSE_RING_BASE_HI
  | HOUSE_RING_CTL
  | HOUSE_RING_STATUS
  | HOUSE_LINK
  | HOUSE_INT_ADDR
  | HOUSE_INT_DATA
  | HOUSE_CFG
  | SEAL_DATA
  | SEAL_CMD
  | SEAL_STATUS
  | SEAL_CTL
  | COLL_CTL
  | COLL_STATUS
  | COLL_REASON
  | COLL_VERSION
  | COLL_CFG
  | COLL_OFFSET
  | COLL_DIM
  | COLL_MEMBERS
  | COLL_LOST
  | COLL_CAT
  | COLL_CAT_SEQ
  | COLL_XDST
  | COLL_EVAC_LIST
  | COLL_EVAC_COUNT
  | COLL_DIGEST
  | RR_FLUSH_CTL
  | RR_FLUSH_BASE
  | RR_FLUSH_LIMIT
  | RR_FLUSH_STATUS
  | RR_INTEG
  | PATRON_CTL
  | PATRON_STATUS
  | PATRON_GROUP
  | PATRON_REASON
  | PATRON_ROOT
  | PATRON_HOST_LINK
  | PATRON_LEAVES
  | RING_BASE_LO
  | RING_BASE_HI
  | RING_CTL
  | RING_STATUS
  | BELL_ADDR_LO
  | BELL_ADDR_HI
  | INT_ADDR_LO
  | INT_ADDR_HI
  | INT_DATA
  | PATRON_CIRC
  | TF_COUNT
  deriving DecidableEq, Repr

/-- The fields of a register, for the indices of its family (R11). -/
def RegName.fields : RegName → Nat → Nat → List Field
  | .DEV_ID, _, _ => [F.DEV_ID_PART, F.DEV_ID_VARIANT, F.DEV_ID_STEPPING]
  | .DEV_CTL, _, _ => [F.DEV_CTL_OPEN]
  | .DEV_STATUS, _, _ => [F.DEV_STATUS_STATE, F.DEV_STATUS_CHECKING, F.DEV_STATUS_SAFE, F.DEV_STATUS_TEST_UNLOCKED]
  | .DEV_REASON, _, _ => [F.DEV_REASON_CODE, F.DEV_REASON_TRIGGER, F.DEV_REASON_DETAIL]
  | .DEV_STACK, _, _ => [F.DEV_STACK_FACTORY_RESERVE, F.DEV_STACK_CURRENT_RESERVE, F.DEV_STACK_GROUPS_SPARED, F.DEV_STACK_TICK_DEGRADED]
  | .DEV_LAYOUT, _, _ => [F.DEV_LAYOUT_SHAFT_HASH, F.DEV_LAYOUT_LOCK]
  | .DEV_KEEPER, _, _ => [F.DEV_KEEPER_PORT, F.DEV_KEEPER_VALID, F.DEV_KEEPER_LOCK]
  | .DEV_REG, _, _ => [F.DEV_REG_ACTIVE, F.DEV_REG_STANDBY_READY, F.DEV_REG_SWAP, F.DEV_REG_TAKEOVERS, F.DEV_REG_PATCH]
  | .DEV_START_STATUS, _, _ => [F.DEV_START_STATUS_QUICK, F.DEV_START_STATUS_PHASE, F.DEV_START_STATUS_FULL_CAUSE, F.DEV_START_STATUS_FAIL_CAUSE, F.DEV_START_STATUS_READY_MS]
  | .DEV_START_CFG, _, _ => [F.DEV_START_CFG_FORCE_FULL, F.DEV_START_CFG_SAVE, F.DEV_START_CFG_APPLIED]
  | .DEV_START_COUNT, _, _ => [F.DEV_START_COUNT_COUNT]
  | .INTEG_CTL, _, _ => [F.INTEG_CTL_GATHER, F.INTEG_CTL_CORR_RESERVE, F.INTEG_CTL_SYMBOL_LIMIT, F.INTEG_CTL_SHELF_READ_EN, F.INTEG_CTL_SHELF_READ_INTERVAL]
  | .SPARE_CTL, _, _ => [F.SPARE_CTL_LEVEL, F.SPARE_CTL_OP, F.SPARE_CTL_GO]
  | .SPARE_STATUS, _, _ => [F.SPARE_STATUS_STATE, F.SPARE_STATUS_SOURCE, F.SPARE_STATUS_RESULT, F.SPARE_STATUS_PROGRESS, F.SPARE_STATUS_REDUCED_LEVEL, F.SPARE_STATUS_RETIRED]
  | .REPAIR_CFG, _, _ => [F.REPAIR_CFG_AUTO_SPARE, F.REPAIR_CFG_AUTO_WITHDRAW, F.REPAIR_CFG_ROW_LIMIT, F.REPAIR_CFG_ROWS_LOW]
  | .EVAC_CTL, _, _ => [F.EVAC_CTL_START, F.EVAC_CTL_STOP]
  | .EVAC_STATUS, _, _ => [F.EVAC_STATUS_EVACUATING, F.EVAC_STATUS_REQUIRED, F.EVAC_STATUS_CAUSE, F.EVAC_STATUS_EMPTY, F.EVAC_STATUS_LEAVES]
  | .DEV_MBOX_REQ, i, _ => [F.DEV_MBOX_REQ_BODY i]
  | .DEV_MBOX_RSP, i, _ => [F.DEV_MBOX_RSP_BODY i]
  | .DEV_MBOX_CTL, _, _ => [F.DEV_MBOX_CTL_GO, F.DEV_MBOX_CTL_DONE]
  | .POWER_CTL, _, _ => [F.POWER_CTL_DOMAIN, F.POWER_CTL_OP, F.POWER_CTL_GO]
  | .POWER_STATUS, _, _ => [F.POWER_STATUS_BUSY, F.POWER_STATUS_PENDING, F.POWER_STATUS_CUR_DOMAIN, F.POWER_STATUS_CUR_OP, F.POWER_STATUS_RESULT, F.POWER_STATUS_CLOSING, F.POWER_STATUS_REASON]
  | .POWER_WAKE_CFG, _, _ => [F.POWER_WAKE_CFG_PIN_EN, F.POWER_WAKE_CFG_PIN_HIGH, F.POWER_WAKE_CFG_LINK_EN]
  | .LAST_WAKE, _, _ => [F.LAST_WAKE_CAUSE, F.LAST_WAKE_FLAG, F.LAST_WAKE_SOURCE, F.LAST_WAKE_ZONE]
  | .LAST_WAKE_MS, _, _ => [F.LAST_WAKE_MS_CLOSED_MS]
  | .POWER_PINS, _, _ => [F.POWER_PINS_SAFE_N, F.POWER_PINS_SAFE_LATCHED, F.POWER_PINS_WAKE, F.POWER_PINS_LINK, F.POWER_PINS_PGOOD]
  | .POWER_RAIL, i, _ => [F.POWER_RAIL_VOLT i, F.POWER_RAIL_LOW i, F.POWER_RAIL_INHIBIT i, F.POWER_RAIL_BROWN i, F.POWER_RAIL_SAGS i]
  | .POWER_DOMAIN, i, _ => [F.POWER_DOMAIN_STATE i, F.POWER_DOMAIN_WAKE_FLAG i, F.POWER_DOMAIN_ALIVE i, F.POWER_DOMAIN_FUSED i, F.POWER_DOMAIN_GATINGS i]
  | .CLK_REF_CTL, _, _ => [F.CLK_REF_CTL_SELECT]
  | .CLK_REF_STATUS, _, _ => [F.CLK_REF_STATUS_A_STATE, F.CLK_REF_STATUS_B_STATE, F.CLK_REF_STATUS_FOLLOWING_B, F.CLK_REF_STATUS_A_PPM]
  | .CLK_PLL_STATUS, i, _ => [F.CLK_PLL_STATUS_STATE i, F.CLK_PLL_STATUS_GATE_OPEN i, F.CLK_PLL_STATUS_ACTIVE i, F.CLK_PLL_STATUS_SLEWING i, F.CLK_PLL_STATUS_CLAMPS i, F.CLK_PLL_STATUS_UNLOCKS i]
  | .CLK_HP3_CTL, _, _ => [F.CLK_HP3_CTL_FREQ]
  | .TB_TIME_LO, _, _ => [F.TB_TIME_LO_TIME]
  | .TB_TIME_HI, _, _ => [F.TB_TIME_HI_TIME]
  | .TB_STATUS, _, _ => [F.TB_STATUS_SLEWING, F.TB_STATUS_STEPPED, F.TB_STATUS_BACKWARD, F.TB_STATUS_STEPS]
  | .PACE_ZONE, i, _ => [F.PACE_ZONE_PACE i, F.PACE_ZONE_VOLT i, F.PACE_ZONE_GUARD i, F.PACE_ZONE_BELOW_FLOOR i, F.PACE_ZONE_AT_CEILING i]
  | .CLK_PORT_PLL, i, _ => [F.CLK_PORT_PLL_SEED i, F.CLK_PORT_PLL_STATE i, F.CLK_PORT_PLL_GATE_OPEN i, F.CLK_PORT_PLL_UNLOCKS i]
  | .THERM_CFG, _, _ => [F.THERM_CFG_WARN]
  | .THERM_STATUS, _, _ => [F.THERM_STATUS_WARN, F.THERM_STATUS_OVER_LIMIT, F.THERM_STATUS_HOTTEST_ZONE, F.THERM_STATUS_HOTTEST]
  | .THERM_LEVEL, i, _ => [F.THERM_LEVEL_SUSPECT i, F.THERM_LEVEL_CAUSE i, F.THERM_LEVEL_MODEL i, F.THERM_LEVEL_TRUSTED i, F.THERM_LEVEL_CLEAR i]
  | .THERM_ZONE, i, _ => [F.THERM_ZONE_HOTTEST i, F.THERM_ZONE_HEALTHY i, F.THERM_ZONE_BLIND i]
  | .THERM_SENSOR, i, _ => [F.THERM_SENSOR_TEMP i, F.THERM_SENSOR_STATE i, F.THERM_SENSOR_CAUSE i, F.THERM_SENSOR_ZONE i]
  | .FAULT_STATUS, _, _ => [F.FAULT_STATUS_OPEN, F.FAULT_STATUS_OVERFLOW, F.FAULT_STATUS_FAULT_N, F.FAULT_STATUS_LOST]
  | .FAULT_CLEAR, _, _ => [F.FAULT_CLEAR_SEQ]
  | .FAULT_QUEUE_SEL, _, _ => [F.FAULT_QUEUE_SEL_POSITION]
  | .FAULT_QUEUE, i, _ => [F.FAULT_QUEUE_DATA i]
  | .SAFE_CTL, _, _ => [F.SAFE_CTL_RESUME, F.SAFE_CTL_ENTER]
  | .SAFE_STATUS, _, _ => [F.SAFE_STATUS_ACTIVE, F.SAFE_STATUS_RECORDS, F.SAFE_STATUS_SAFE_N, F.SAFE_STATUS_CHATTER, F.SAFE_STATUS_BROWN, F.SAFE_STATUS_PACE, F.SAFE_STATUS_REASON, F.SAFE_STATUS_ENTRIES]
  | .FAULT_TYPE_CFG, i, _ => [F.FAULT_TYPE_CFG_N i, F.FAULT_TYPE_CFG_WINDOW i, F.FAULT_TYPE_CFG_REACTION i, F.FAULT_TYPE_CFG_SIGNAL i, F.FAULT_TYPE_CFG_FIXED i]
  | .TEST_SLICE, _, _ => [F.TEST_SLICE_DOMAIN, F.TEST_SLICE_START, F.TEST_SLICE_STOP]
  | .TEST_SLICE_STATUS, _, _ => [F.TEST_SLICE_STATUS_STATE, F.TEST_SLICE_STATUS_RESULT, F.TEST_SLICE_STATUS_DOMAIN, F.TEST_SLICE_STATUS_PATTERNS_DONE]
  | .TEST_REASON, _, _ => [F.TEST_REASON_CODE]
  | .TEST_RESULT, _, _ => [F.TEST_RESULT_ARRAY, F.TEST_RESULT_LOGIC_FAIL, F.TEST_RESULT_MEM_FAIL, F.TEST_RESULT_FAILURES]
  | .TEST_FAIL_ADDR, _, _ => [F.TEST_FAIL_ADDR_ADDR]
  | .TEST_SCHED, _, _ => [F.TEST_SCHED_EN, F.TEST_SCHED_INTERVAL]
  | .INVENTORY_CTL, _, _ => [F.INVENTORY_CTL_START]
  | .INVENTORY_STATUS, _, _ => [F.INVENTORY_STATUS_STATE, F.INVENTORY_STATUS_PHASE, F.INVENTORY_STATUS_CLOSE_ONLY, F.INVENTORY_STATUS_REASON, F.INVENTORY_STATUS_REPAIRS]
  | .TEST_FAIL_BITS, i, _ => [F.TEST_FAIL_BITS_BITS i]
  | .PERF_SEL, i, _ => [F.PERF_SEL_EVENT i, F.PERF_SEL_EN i, F.PERF_SEL_PATRON_EN i, F.PERF_SEL_CHAIN i, F.PERF_SEL_LEAF i, F.PERF_SEL_OVF i]
  | .PERF_FILTER, i, _ => [F.PERF_FILTER_UNIT i, F.PERF_FILTER_UNIT_MASK i, F.PERF_FILTER_PATRON i]
  | .PERF_VALUE_LO, i, _ => [F.PERF_VALUE_LO_VALUE i]
  | .PERF_VALUE_HI, i, _ => [F.PERF_VALUE_HI_VALUE i]
  | .PERF_CTL, _, _ => [F.PERF_CTL_FREEZE, F.PERF_CTL_CLEAR]
  | .PERF_STATUS, _, _ => [F.PERF_STATUS_SAMPLING, F.PERF_STATUS_OVERFLOWS]
  | .TRACE_CTL, _, _ => [F.TRACE_CTL_EN, F.TRACE_CTL_RATE]
  | .TRACE_SEED, _, _ => [F.TRACE_SEED_SEED]
  | .TRACE_STATUS, _, _ => [F.TRACE_STATUS_SELECTED]
  | .STMT_CFG, _, _ => [F.STMT_CFG_INTERVAL]
  | .STMT_STATUS, _, _ => [F.STMT_STATUS_WAITING, F.STMT_STATUS_SUPERSEDED]
  | .STMT_LAST, _, _ => [F.STMT_LAST_SEQ]
  | .ROW_ACT_CTL, _, _ => [F.ROW_ACT_CTL_PATRON_N, F.ROW_ACT_CTL_CLAMP_LIMIT, F.ROW_ACT_CTL_PATRON_W]
  | .ROW_ACT_QUERY, _, _ => [F.ROW_ACT_QUERY_PATRON, F.ROW_ACT_QUERY_COUNT]
  | .ROW_ACT_STATUS, _, _ => [F.ROW_ACT_STATUS_CLAMP_FULL, F.ROW_ACT_STATUS_UNATTRIBUTED]
  | .ROW_ACT_CLAMP, i, _ => [F.ROW_ACT_CLAMP_PATRON i, F.ROW_ACT_CLAMP_ACTIVE i]
  | .LEDGER_STATUS, _, _ => [F.LEDGER_STATUS_AVAILABLE, F.LEDGER_STATUS_INHIBITED, F.LEDGER_STATUS_QUEUED, F.LEDGER_STATUS_SPARE_BLOCKS]
  | .LEDGER_ERRORS, _, _ => [F.LEDGER_ERRORS_SLOTS_BAD, F.LEDGER_ERRORS_LOST, F.LEDGER_ERRORS_DROPPED]
  | .LEDGER_RD_CTL, _, _ => [F.LEDGER_RD_CTL_RECORD, F.LEDGER_RD_CTL_GO]
  | .LEDGER_RD_STATUS, _, _ => [F.LEDGER_RD_STATUS_BUSY, F.LEDGER_RD_STATUS_RESULT]
  | .LIFE_HOURS, _, _ => [F.LIFE_HOURS_HOURS]
  | .LIFE_CROWN, _, _ => [F.LIFE_CROWN_WEIGHTED]
  | .LIFE_LEVELS, _, _ => [F.LIFE_LEVELS_WEIGHTED]
  | .LIFE_USED, _, _ => [F.LIFE_USED_CROWN, F.LIFE_USED_LEVELS]
  | .LEDGER_RD_DATA, i, _ => [F.LEDGER_RD_DATA_DATA i]
  | .PORT_CTL, i, _ => [F.PORT_CTL_ENABLE i, F.PORT_CTL_MODE i, F.PORT_CTL_MAX_STEP i, F.PORT_CTL_SPARE_EN i, F.PORT_CTL_DEGRADE_EN i, F.PORT_CTL_RETRAIN i, F.PORT_CTL_LOOPBACK i]
  | .PORT_REASON, i, _ => [F.PORT_REASON_CODE i]
  | .PORT_LINK, i, j => [F.PORT_LINK_STATE i j, F.PORT_LINK_STEP i j, F.PORT_LINK_WIDTH i j, F.PORT_LINK_PART i j, F.PORT_LINK_FAILED_STEP i j, F.PORT_LINK_FAR_DEVICE i j, F.PORT_LINK_RECOVERIES i j]
  | .LANE_MAP_TX, i, _ => [F.LANE_MAP_TX_S0_LANE i, F.LANE_MAP_TX_S0_USED i, F.LANE_MAP_TX_S0_FAILED i, F.LANE_MAP_TX_S1_LANE i, F.LANE_MAP_TX_S1_USED i, F.LANE_MAP_TX_S1_FAILED i, F.LANE_MAP_TX_FAILED i]
  | .LANE_MAP_RX, i, _ => [F.LANE_MAP_RX_S0_LANE i, F.LANE_MAP_RX_S0_USED i, F.LANE_MAP_RX_S0_FAILED i, F.LANE_MAP_RX_S1_LANE i, F.LANE_MAP_RX_S1_USED i, F.LANE_MAP_RX_S1_FAILED i, F.LANE_MAP_RX_FAILED i]
  | .LANE_ERR, i, j => [F.LANE_ERR_ERRORS i j, F.LANE_ERR_UNSTABLE i j, F.LANE_ERR_INVERTED i j, F.LANE_ERR_LOGICAL i j, F.LANE_ERR_LOCKED i j]
  | .PORT_URGENCY, i, _ => [F.PORT_URGENCY_LEVELS i, F.PORT_URGENCY_CLAMPED i, F.PORT_URGENCY_DWELLS i]
  | .PORT_BIND, i, _ => [F.PORT_BIND_PATRON i, F.PORT_BIND_LINKS i, F.PORT_BIND_APPLY i]
  | .FLIT_CFG, i, _ => [F.FLIT_CFG_ANSWER_TIMEOUT i, F.FLIT_CFG_REPLAY_LIMIT i]
  | .FLIT_STATUS, i, j => [F.FLIT_STATUS_TX_SEQ i j, F.FLIT_STATUS_EXPECTED i j, F.FLIT_STATUS_UNANSWERED i j, F.FLIT_STATUS_NAK_PENDING i j, F.FLIT_STATUS_REPLAYING i j]
  | .FLIT_ERRORS, i, j => [F.FLIT_ERRORS_CRC_FAILS i j, F.FLIT_ERRORS_REPLAYS i j, F.FLIT_ERRORS_TIMEOUTS i j]
  | .FLIT_CREDITS, i, j => [F.FLIT_CREDITS_REQ i j, F.FLIT_CREDITS_RSP i j, F.FLIT_CREDITS_DEV i j]
  | .INJ_CTL, i, _ => [F.INJ_CTL_ENABLE i, F.INJ_CTL_LINK i, F.INJ_CTL_DIRECTION i, F.INJ_CTL_MODE i, F.INJ_CTL_RATE i]
  | .INJ_SEED, i, _ => [F.INJ_SEED_SEED i]
  | .INJ_UNLOCK, i, _ => [F.INJ_UNLOCK_NONCE i, F.INJ_UNLOCK_KEY i]
  | .INJ_STATUS, i, _ => [F.INJ_STATUS_UNLOCKED i, F.INJ_STATUS_RUNNING i, F.INJ_STATUS_STOPPED i, F.INJ_STATUS_INJECTED i]
  | .TWIN_STATUS, i, _ => [F.TWIN_STATUS_MODE i, F.TWIN_STATUS_CAUSE i, F.TWIN_STATUS_SWITCHING i, F.TWIN_STATUS_TAKEOVERS i]
  | .SHAFT_STATUS, i, _ => [F.SHAFT_STATUS_CALIBRATED i, F.SHAFT_STATUS_CAL_RUNNING i, F.SHAFT_STATUS_BEAT_RATE i, F.SHAFT_STATUS_BELOW_FLOOR i, F.SHAFT_STATUS_CAL_SLIPS i]
  | .SHAFT_ALERTS, i, _ => [F.SHAFT_ALERTS_ALERTS i, F.SHAFT_ALERTS_REPORT_PARITY i, F.SHAFT_ALERTS_BEAT_STALLS i]
  | .SHAFT_CTL, i, _ => [F.SHAFT_CTL_CAL_START i, F.SHAFT_CTL_ROW_OPEN_MAX i, F.SHAFT_CTL_CLOSED_PAGE i]
  | .INTEG_CE, i, _ => [F.INTEG_CE_CORRECTED i]
  | .INTEG_UE, i, _ => [F.INTEG_UE_UE i, F.INTEG_UE_POISON_READS i]
  | .INTEG_WB, i, _ => [F.INTEG_WB_ISSUED i, F.INTEG_WB_SUPERSEDED i, F.INTEG_WB_DROPPED i]
  | .INTEG_MISC, i, _ => [F.INTEG_MISC_ERASURE_ONLY i, F.INTEG_MISC_UE_MASKED i, F.INTEG_MISC_POISON_CLEARED i]
  | .SHELF_READ_STATUS, i, _ => [F.SHELF_READ_STATUS_LINES_DONE i, F.SHELF_READ_STATUS_BEHIND i, F.SHELF_READ_STATUS_LATE i]
  | .SHELF_READ_PASSES, i, _ => [F.SHELF_READ_PASSES_PASSES i, F.SHELF_READ_PASSES_LATE_PASSES i]
  | .MERGE_STATUS, i, _ => [F.MERGE_STATUS_OCCUPANCY i, F.MERGE_STATUS_WAITS i]
  | .ERASURE, i, j => [F.ERASURE_SYMBOL i j, F.ERASURE_VALID i j, F.ERASURE_LEVELS i j]
  | .LEVEL_ROLE, i, _ => [F.LEVEL_ROLE_ROLE i, F.LEVEL_ROLE_SHELF i, F.LEVEL_ROLE_FACTORY_RESERVE i]
  | .ACT_GRANT, i, _ => [F.ACT_GRANT_GRANT i, F.ACT_GRANT_THROTTLE i, F.ACT_GRANT_SUSPECT_CLAMP i]
  | .CMD_STATUS, i, _ => [F.CMD_STATUS_PARITY_ALERTS i, F.CMD_STATUS_TOKEN_ALERTS i, F.CMD_STATUS_STATE i]
  | .REFRESH_STATUS, i, _ => [F.REFRESH_STATUS_WINDOW i, F.REFRESH_STATUS_TEMP i, F.REFRESH_STATUS_FORCED_110 i]
  | .REFRESH_FAULTS, i, _ => [F.REFRESH_FAULTS_LATE i, F.REFRESH_FAULTS_MISSED i, F.REFRESH_FAULTS_TREF_LATE i, F.REFRESH_FAULTS_TREF_BACKLOG i]
  | .ROW_ACT, i, _ => [F.ROW_ACT_TRIGGERS i, F.ROW_ACT_COUNT_PARITY i]
  | .HYGRO, i, j => [F.HYGRO_TEMP i j, F.HYGRO_VALID i j, F.HYGRO_BELOW_RANGE i j, F.HYGRO_ABOVE_RANGE i j, F.HYGRO_FAILS i j]
  | .LEVEL_RESET, i, _ => [F.LEVEL_RESET_REQ i, F.LEVEL_RESET_RECOVERING i, F.LEVEL_RESET_RESETS i]
  | .FOOT_I3C_STATUS, _, _ => [F.FOOT_I3C_STATUS_DYN_ADDR, F.FOOT_I3C_STATUS_ADDR_VALID, F.FOOT_I3C_STATUS_IBI_EN, F.FOOT_I3C_STATUS_FRAME_ERROR, F.FOOT_I3C_STATUS_DENIED]
  | .FOOT_I3C_ALERT, _, _ => [F.FOOT_I3C_ALERT_FAULT, F.FOOT_I3C_ALERT_SAFE, F.FOOT_I3C_ALERT_WAKE, F.FOOT_I3C_ALERT_TAKEOVER]
  | .FOOT_TAP_GATE, _, _ => [F.FOOT_TAP_GATE_ALLOW]
  | .FOOT_TAP_STATUS, _, _ => [F.FOOT_TAP_STATUS_SCOPE, F.FOOT_TAP_STATUS_FAILS, F.FOOT_TAP_STATUS_LOCKED_OUT, F.FOOT_TAP_STATUS_UNLOCKS]
  | .ALLOW_CTL, _, _ => [F.ALLOW_CTL_COMMIT, F.ALLOW_CTL_PERIOD, F.ALLOW_CTL_DESIGN_TEMP, F.ALLOW_CTL_HEADROOM, F.ALLOW_CTL_URGENT]
  | .ALLOW_BG, _, _ => [F.ALLOW_BG_RESHELVE, F.ALLOW_BG_RESHELVE_CRIT, F.ALLOW_BG_RESHELVE_FLOOR, F.ALLOW_BG_SPOT]
  | .ALLOW_STATUS, _, _ => [F.ALLOW_STATUS_SHEDDING_BAYS, F.ALLOW_STATUS_INFEASIBLE, F.ALLOW_STATUS_RECHECKS]
  | .ALLOW_REASON, _, _ => [F.ALLOW_REASON_CODE, F.ALLOW_REASON_BAY, F.ALLOW_REASON_CLASS, F.ALLOW_REASON_GROUP]
  | .ALLOW_URGENCY, _, _ => [F.ALLOW_URGENCY_DWELL]
  | .GUARANTEE, i, _ => [F.GUARANTEE_SLOTS i]
  | .CEILING, i, _ => [F.CEILING_SLOTS i]
  | .GROUP_CACHE, i, _ => [F.GROUP_CACHE_WAY_MASK i, F.GROUP_CACHE_OCC_CAP i]
  | .GROUP_QUEUE, i, _ => [F.GROUP_QUEUE_QUEUE_SHARE i, F.GROUP_QUEUE_URGENT i]
  | .MISS_CFG, i, _ => [F.MISS_CFG_MISS_N i, F.MISS_CFG_MISS_W i]
  | .MISS_SLOTS, i, _ => [F.MISS_SLOTS_COUNT i]
  | .MISS_LATENCY, i, _ => [F.MISS_LATENCY_COUNT i]
  | .GROUP_IN_FORCE, i, _ => [F.GROUP_IN_FORCE_A0_MIN i, F.GROUP_IN_FORCE_SCALED i]
  | .ALLOW_BAY, i, _ => [F.ALLOW_BAY_CAP i, F.ALLOW_BAY_STEP i, F.ALLOW_BAY_A3 i]
  | .CAT_RESERVE, _, _ => [F.CAT_RESERVE_SIZE, F.CAT_RESERVE_LOCK]
  | .CAT_CMD, _, _ => [F.CAT_CMD_PATRON, F.CAT_CMD_LEVEL, F.CAT_CMD_OP, F.CAT_CMD_FENCE_ALL, F.CAT_CMD_GO]
  | .CAT_ADDR, i, _ => [F.CAT_ADDR_VALUE i]
  | .CAT_NEW, i, _ => [F.CAT_NEW_VALUE i]
  | .CAT_EXPECT, i, _ => [F.CAT_EXPECT_VALUE i]
  | .CAT_OLD, i, _ => [F.CAT_OLD_VALUE i]
  | .CAT_STATUS, _, _ => [F.CAT_STATUS_BUSY, F.CAT_STATUS_RESULT]
  | .RESHELVE_CMD, _, _ => [F.RESHELVE_CMD_PATRON, F.RESHELVE_CMD_OP, F.RESHELVE_CMD_GO]
  | .RESHELVE_ADDR_LO, _, _ => [F.RESHELVE_ADDR_LO_ADDR]
  | .RESHELVE_ADDR_HI, _, _ => [F.RESHELVE_ADDR_HI_ADDR]
  | .RESHELVE_DST, _, _ => [F.RESHELVE_DST_DPA]
  | .RESHELVE_JOB, _, _ => [F.RESHELVE_JOB_JOB]
  | .RESHELVE_STATUS, _, _ => [F.RESHELVE_STATUS_BUSY, F.RESHELVE_STATUS_RESULT, F.RESHELVE_STATUS_STATE, F.RESHELVE_STATUS_END, F.RESHELVE_STATUS_ACTIVE]
  | .TROLLEY_CTL, _, _ => [F.TROLLEY_CTL_RECALL_MIN, F.TROLLEY_CTL_RECALL_EN]
  | .TROLLEY_GROUP_STATUS, i, _ => [F.TROLLEY_GROUP_STATUS_RUNNING i, F.TROLLEY_GROUP_STATUS_RECALLED i, F.TROLLEY_GROUP_STATUS_FETCHED i, F.TROLLEY_GROUP_STATUS_SERVING_PARTNER i, F.TROLLEY_GROUP_STATUS_GATED i, F.TROLLEY_GROUP_STATUS_RECALLS i]
  | .TROLLEY_STATUS, i, _ => [F.TROLLEY_STATUS_STATE i, F.TROLLEY_STATUS_PATRON i, F.TROLLEY_STATUS_RING i, F.TROLLEY_STATUS_OPCODE i, F.TROLLEY_STATUS_IN_FLIGHT i]
  | .TROLLEY_PROGRESS, i, _ => [F.TROLLEY_PROGRESS_P i]
  | .REKEY_REC, i, _ => [F.REKEY_REC_PATRON i, F.REKEY_REC_OPEN i, F.REKEY_REC_SEGMENT i, F.REKEY_REC_LINES_DONE i]
  | .HOUSE_RING_BASE_LO, i, _ => [F.HOUSE_RING_BASE_LO_BASE i]
  | .HOUSE_RING_BASE_HI, i, _ => [F.HOUSE_RING_BASE_HI_BASE i]
  | .HOUSE_RING_CTL, i, _ => [F.HOUSE_RING_CTL_ENABLE i, F.HOUSE_RING_CTL_SIZE i, F.HOUSE_RING_CTL_INT_ALL i, F.HOUSE_RING_CTL_HOLDOFF i]
  | .HOUSE_RING_STATUS, i, _ => [F.HOUSE_RING_STATUS_STATE i, F.HOUSE_RING_STATUS_REASON i, F.HOUSE_RING_STATUS_INDEX i]
  | .HOUSE_LINK, _, _ => [F.HOUSE_LINK_PORT, F.HOUSE_LINK_LINK]
  | .HOUSE_INT_ADDR, i, _ => [F.HOUSE_INT_ADDR_ADDR i]
  | .HOUSE_INT_DATA, _, _ => [F.HOUSE_INT_DATA_DATA]
  | .HOUSE_CFG, _, _ => [F.HOUSE_CFG_HOST_TIMEOUT]
  | .SEAL_DATA, i, _ => [F.SEAL_DATA_DATA i]
  | .SEAL_CMD, _, _ => [F.SEAL_CMD_PATRON, F.SEAL_CMD_KEK, F.SEAL_CMD_OP, F.SEAL_CMD_GO]
  | .SEAL_STATUS, _, _ => [F.SEAL_STATUS_BUSY, F.SEAL_STATUS_RESULT, F.SEAL_STATUS_NEXT_FREE]
  | .SEAL_CTL, _, _ => [F.SEAL_CTL_KEK_LOCK]
  | .COLL_CTL, _, _ => [F.COLL_CTL_JOIN, F.COLL_CTL_FOUND]
  | .COLL_STATUS, _, _ => [F.COLL_STATUS_POSITION, F.COLL_STATUS_STATE, F.COLL_STATUS_OUT_OF_STEP, F.COLL_STATUS_SAMPLING, F.COLL_STATUS_HEAD, F.COLL_STATUS_MEMBERS, F.COLL_STATUS_DRIFT]
  | .COLL_REASON, _, _ => [F.COLL_REASON_CODE]
  | .COLL_VERSION, _, _ => [F.COLL_VERSION_MAJOR, F.COLL_VERSION_LEVEL, F.COLL_VERSION_RUN_LEVEL]
  | .COLL_CFG, _, _ => [F.COLL_CFG_FWD_TIMEOUT, F.COLL_CFG_TSYNC, F.COLL_CFG_TSYNC_DELAY]
  | .COLL_OFFSET, _, _ => [F.COLL_OFFSET_OFFSET]
  | .COLL_DIM, i, _ => [F.COLL_DIM_PORT i, F.COLL_DIM_VALID i]
  | .COLL_MEMBERS, i, _ => [F.COLL_MEMBERS_MAP i]
  | .COLL_LOST, i, _ => [F.COLL_LOST_MAP i]
  | .COLL_CAT, _, _ => [F.COLL_CAT_HOLDER, F.COLL_CAT_PROPAGATE]
  | .COLL_CAT_SEQ, _, _ => [F.COLL_CAT_SEQ_SEQ]
  | .COLL_XDST, _, _ => [F.COLL_XDST_MEMBER, F.COLL_XDST_VALID]
  | .COLL_EVAC_LIST, i, _ => [F.COLL_EVAC_LIST_ADDR i]
  | .COLL_EVAC_COUNT, _, _ => [F.COLL_EVAC_COUNT_COUNT]
  | .COLL_DIGEST, i, _ => [F.COLL_DIGEST_DIGEST i]
  | .RR_FLUSH_CTL, _, _ => [F.RR_FLUSH_CTL_START, F.RR_FLUSH_CTL_INVALIDATE, F.RR_FLUSH_CTL_SCOPE, F.RR_FLUSH_CTL_SLICE, F.RR_FLUSH_CTL_GROUP]
  | .RR_FLUSH_BASE, _, _ => [F.RR_FLUSH_BASE_LINE]
  | .RR_FLUSH_LIMIT, _, _ => [F.RR_FLUSH_LIMIT_LINE]
  | .RR_FLUSH_STATUS, _, _ => [F.RR_FLUSH_STATUS_BUSY, F.RR_FLUSH_STATUS_DONE, F.RR_FLUSH_STATUS_ABORTED, F.RR_FLUSH_STATUS_LINES_WRITTEN]
  | .RR_INTEG, i, _ => [F.RR_INTEG_SINGLE i, F.RR_INTEG_REFETCHED i, F.RR_INTEG_POISONED i]
  | .PATRON_CTL, i, _ => [F.PATRON_CTL_ENABLE i, F.PATRON_CTL_SEALED i, F.PATRON_CTL_COUNTER_READ i, F.PATRON_CTL_TEST i, F.PATRON_CTL_FIRM i, F.PATRON_CTL_TRACK_AD i]
  | .PATRON_STATUS, i, _ => [F.PATRON_STATUS_ACTIVE i, F.PATRON_STATUS_DISABLING i, F.PATRON_STATUS_KEY_LOADED i, F.PATRON_STATUS_NEXT_KEY_LOADED i, F.PATRON_STATUS_KEY_EPOCH i, F.PATRON_STATUS_KEY_LOST i, F.PATRON_STATUS_LAST_TF i]
  | .PATRON_GROUP, i, _ => [F.PATRON_GROUP_GROUP i]
  | .PATRON_REASON, i, _ => [F.PATRON_REASON_CODE i]
  | .PATRON_ROOT, i, _ => [F.PATRON_ROOT_ROOT i]
  | .PATRON_HOST_LINK, i, _ => [F.PATRON_HOST_LINK_PORT i, F.PATRON_HOST_LINK_LINK i, F.PATRON_HOST_LINK_VALID i]
  | .PATRON_LEAVES, i, _ => [F.PATRON_LEAVES_COUNT i]
  | .RING_BASE_LO, i, j => [F.RING_BASE_LO_BASE i j]
  | .RING_BASE_HI, i, j => [F.RING_BASE_HI_BASE i j]
  | .RING_CTL, i, j => [F.RING_CTL_ENABLE i j, F.RING_CTL_SIZE i j, F.RING_CTL_INT_ALL i j, F.RING_CTL_HOLDOFF i j]
  | .RING_STATUS, i, j => [F.RING_STATUS_STATE i j, F.RING_STATUS_REASON i j, F.RING_STATUS_INDEX i j]
  | .BELL_ADDR_LO, i, _ => [F.BELL_ADDR_LO_ADDR i]
  | .BELL_ADDR_HI, i, _ => [F.BELL_ADDR_HI_ADDR i]
  | .INT_ADDR_LO, i, _ => [F.INT_ADDR_LO_ADDR i]
  | .INT_ADDR_HI, i, _ => [F.INT_ADDR_HI_ADDR i]
  | .INT_DATA, i, _ => [F.INT_DATA_DATA i]
  | .PATRON_CIRC, i, j => [F.PATRON_CIRC_DATA i j]
  | .TF_COUNT, i, j => [F.TF_COUNT_COUNT i j]

/-- One row of the address table: a register family, its first address and its two index ranges with their strides. -/
structure RegRow where
  name    : RegName
  base    : Nat
  count1  : Nat
  stride1 : Nat
  count2  : Nat
  stride2 : Nat
  deriving DecidableEq, Repr

/-- Part 1 of the address table (Table 20.5 and the chapters' register captions). -/
def regRows1 : List RegRow :=
  [ ⟨.DEV_ID, 0x0, 1, 0x4, 1, 0x4⟩,
    ⟨.DEV_CTL, 0x4, 1, 0x4, 1, 0x4⟩,
    ⟨.DEV_STATUS, 0x8, 1, 0x4, 1, 0x4⟩,
    ⟨.DEV_REASON, 0xc, 1, 0x4, 1, 0x4⟩,
    ⟨.DEV_STACK, 0x10, 1, 0x4, 1, 0x4⟩,
    ⟨.DEV_LAYOUT, 0x14, 1, 0x4, 1, 0x4⟩,
    ⟨.DEV_KEEPER, 0x18, 1, 0x4, 1, 0x4⟩,
    ⟨.DEV_REG, 0x1c, 1, 0x4, 1, 0x4⟩,
    ⟨.DEV_START_STATUS, 0x20, 1, 0x4, 1, 0x4⟩,
    ⟨.DEV_START_CFG, 0x24, 1, 0x4, 1, 0x4⟩,
    ⟨.DEV_START_COUNT, 0x28, 1, 0x4, 1, 0x4⟩,
    ⟨.INTEG_CTL, 0x30, 1, 0x4, 1, 0x4⟩,
    ⟨.SPARE_CTL, 0x40, 1, 0x4, 1, 0x4⟩,
    ⟨.SPARE_STATUS, 0x44, 1, 0x4, 1, 0x4⟩,
    ⟨.REPAIR_CFG, 0x48, 1, 0x4, 1, 0x4⟩,
    ⟨.EVAC_CTL, 0x4c, 1, 0x4, 1, 0x4⟩,
    ⟨.EVAC_STATUS, 0x50, 1, 0x4, 1, 0x4⟩,
    ⟨.DEV_MBOX_REQ, 0x100, 16, 0x4, 1, 0x4⟩,
    ⟨.DEV_MBOX_RSP, 0x140, 16, 0x4, 1, 0x4⟩,
    ⟨.DEV_MBOX_CTL, 0x180, 1, 0x4, 1, 0x4⟩,
    ⟨.POWER_CTL, 0x10000, 1, 0x4, 1, 0x4⟩,
    ⟨.POWER_STATUS, 0x10004, 1, 0x4, 1, 0x4⟩,
    ⟨.POWER_WAKE_CFG, 0x10008, 1, 0x4, 1, 0x4⟩,
    ⟨.LAST_WAKE, 0x10010, 1, 0x4, 1, 0x4⟩,
    ⟨.LAST_WAKE_MS, 0x10014, 1, 0x4, 1, 0x4⟩,
    ⟨.POWER_PINS, 0x10018, 1, 0x4, 1, 0x4⟩,
    ⟨.POWER_RAIL, 0x10040, 7, 0x4, 1, 0x4⟩,
    ⟨.POWER_DOMAIN, 0x10100, 248, 0x4, 1, 0x4⟩,
    ⟨.CLK_REF_CTL, 0x20000, 1, 0x4, 1, 0x4⟩,
    ⟨.CLK_REF_STATUS, 0x20004, 1, 0x4, 1, 0x4⟩,
    ⟨.CLK_PLL_STATUS, 0x20010, 4, 0x4, 1, 0x4⟩,
    ⟨.CLK_HP3_CTL, 0x20020, 1, 0x4, 1, 0x4⟩,
    ⟨.TB_TIME_LO, 0x20100, 1, 0x4, 1, 0x4⟩,
    ⟨.TB_TIME_HI, 0x20104, 1, 0x4, 1, 0x4⟩,
    ⟨.TB_STATUS, 0x20108, 1, 0x4, 1, 0x4⟩ ]

/-- Part 2 of the address table (Table 20.5 and the chapters' register captions). -/
def regRows2 : List RegRow :=
  [ ⟨.PACE_ZONE, 0x20200, 16, 0x4, 1, 0x4⟩,
    ⟨.CLK_PORT_PLL, 0x20400, 64, 0x4, 1, 0x4⟩,
    ⟨.THERM_CFG, 0x30000, 1, 0x4, 1, 0x4⟩,
    ⟨.THERM_STATUS, 0x30004, 1, 0x4, 1, 0x4⟩,
    ⟨.THERM_LEVEL, 0x30100, 17, 0x4, 1, 0x4⟩,
    ⟨.THERM_ZONE, 0x30200, 34, 0x4, 1, 0x4⟩,
    ⟨.THERM_SENSOR, 0x31000, 218, 0x4, 1, 0x4⟩,
    ⟨.FAULT_STATUS, 0x40000, 1, 0x4, 1, 0x4⟩,
    ⟨.FAULT_CLEAR, 0x40008, 1, 0x4, 1, 0x4⟩,
    ⟨.FAULT_QUEUE_SEL, 0x4000c, 1, 0x4, 1, 0x4⟩,
    ⟨.FAULT_QUEUE, 0x40010, 8, 0x4, 1, 0x4⟩,
    ⟨.SAFE_CTL, 0x40040, 1, 0x4, 1, 0x4⟩,
    ⟨.SAFE_STATUS, 0x40044, 1, 0x4, 1, 0x4⟩,
    ⟨.FAULT_TYPE_CFG, 0x41000, 256, 0x4, 1, 0x4⟩,
    ⟨.TEST_SLICE, 0x50000, 1, 0x4, 1, 0x4⟩,
    ⟨.TEST_SLICE_STATUS, 0x50004, 1, 0x4, 1, 0x4⟩,
    ⟨.TEST_REASON, 0x50008, 1, 0x4, 1, 0x4⟩,
    ⟨.TEST_RESULT, 0x50010, 1, 0x4, 1, 0x4⟩,
    ⟨.TEST_FAIL_ADDR, 0x50014, 1, 0x4, 1, 0x4⟩,
    ⟨.TEST_SCHED, 0x50030, 1, 0x4, 1, 0x4⟩,
    ⟨.INVENTORY_CTL, 0x50040, 1, 0x4, 1, 0x4⟩,
    ⟨.INVENTORY_STATUS, 0x50044, 1, 0x4, 1, 0x4⟩,
    ⟨.TEST_FAIL_BITS, 0x50018, 2, 0x4, 1, 0x4⟩,
    ⟨.PERF_SEL, 0x60000, 512, 0x10, 1, 0x4⟩,
    ⟨.PERF_FILTER, 0x60004, 512, 0x10, 1, 0x4⟩,
    ⟨.PERF_VALUE_LO, 0x60008, 512, 0x10, 1, 0x4⟩,
    ⟨.PERF_VALUE_HI, 0x6000c, 512, 0x10, 1, 0x4⟩,
    ⟨.PERF_CTL, 0x62000, 1, 0x4, 1, 0x4⟩,
    ⟨.PERF_STATUS, 0x62004, 1, 0x4, 1, 0x4⟩,
    ⟨.TRACE_CTL, 0x63000, 1, 0x4, 1, 0x4⟩,
    ⟨.TRACE_SEED, 0x63004, 1, 0x4, 1, 0x4⟩,
    ⟨.TRACE_STATUS, 0x63008, 1, 0x4, 1, 0x4⟩,
    ⟨.STMT_CFG, 0x64000, 1, 0x4, 1, 0x4⟩,
    ⟨.STMT_STATUS, 0x64004, 1, 0x4, 1, 0x4⟩,
    ⟨.STMT_LAST, 0x64008, 1, 0x4, 1, 0x4⟩ ]

/-- Part 3 of the address table (Table 20.5 and the chapters' register captions). -/
def regRows3 : List RegRow :=
  [ ⟨.ROW_ACT_CTL, 0x68000, 1, 0x4, 1, 0x4⟩,
    ⟨.ROW_ACT_QUERY, 0x68004, 1, 0x4, 1, 0x4⟩,
    ⟨.ROW_ACT_STATUS, 0x68008, 1, 0x4, 1, 0x4⟩,
    ⟨.ROW_ACT_CLAMP, 0x68040, 16, 0x4, 1, 0x4⟩,
    ⟨.LEDGER_STATUS, 0x70000, 1, 0x4, 1, 0x4⟩,
    ⟨.LEDGER_ERRORS, 0x70004, 1, 0x4, 1, 0x4⟩,
    ⟨.LEDGER_RD_CTL, 0x70010, 1, 0x4, 1, 0x4⟩,
    ⟨.LEDGER_RD_STATUS, 0x70014, 1, 0x4, 1, 0x4⟩,
    ⟨.LIFE_HOURS, 0x70040, 1, 0x4, 1, 0x4⟩,
    ⟨.LIFE_CROWN, 0x70044, 1, 0x4, 1, 0x4⟩,
    ⟨.LIFE_LEVELS, 0x70048, 1, 0x4, 1, 0x4⟩,
    ⟨.LIFE_USED, 0x7004c, 1, 0x4, 1, 0x4⟩,
    ⟨.LEDGER_RD_DATA, 0x70100, 64, 0x4, 1, 0x4⟩,
    ⟨.PORT_CTL, 0x100000, 64, 0x1000, 1, 0x4⟩,
    ⟨.PORT_REASON, 0x100004, 64, 0x1000, 1, 0x4⟩,
    ⟨.PORT_LINK, 0x100010, 64, 0x1000, 4, 0x4⟩,
    ⟨.LANE_MAP_TX, 0x100020, 64, 0x1000, 1, 0x4⟩,
    ⟨.LANE_MAP_RX, 0x100024, 64, 0x1000, 1, 0x4⟩,
    ⟨.LANE_ERR, 0x100040, 64, 0x1000, 18, 0x4⟩,
    ⟨.PORT_URGENCY, 0x100090, 64, 0x1000, 1, 0x4⟩,
    ⟨.PORT_BIND, 0x1000a0, 64, 0x1000, 1, 0x4⟩,
    ⟨.FLIT_CFG, 0x100100, 64, 0x1000, 1, 0x4⟩,
    ⟨.FLIT_STATUS, 0x100110, 64, 0x1000, 4, 0x4⟩,
    ⟨.FLIT_ERRORS, 0x100120, 64, 0x1000, 4, 0x4⟩,
    ⟨.FLIT_CREDITS, 0x100130, 64, 0x1000, 4, 0x4⟩,
    ⟨.INJ_CTL, 0x100200, 64, 0x1000, 1, 0x4⟩,
    ⟨.INJ_SEED, 0x100204, 64, 0x1000, 1, 0x4⟩,
    ⟨.INJ_UNLOCK, 0x100208, 64, 0x1000, 1, 0x4⟩,
    ⟨.INJ_STATUS, 0x10020c, 64, 0x1000, 1, 0x4⟩,
    ⟨.TWIN_STATUS, 0x300010, 64, 0x1000, 1, 0x4⟩,
    ⟨.SHAFT_STATUS, 0x300020, 64, 0x1000, 1, 0x4⟩,
    ⟨.SHAFT_ALERTS, 0x300024, 64, 0x1000, 1, 0x4⟩,
    ⟨.SHAFT_CTL, 0x300028, 64, 0x1000, 1, 0x4⟩,
    ⟨.INTEG_CE, 0x300030, 64, 0x1000, 1, 0x4⟩,
    ⟨.INTEG_UE, 0x300034, 64, 0x1000, 1, 0x4⟩ ]

/-- Part 4 of the address table (Table 20.5 and the chapters' register captions). -/
def regRows4 : List RegRow :=
  [ ⟨.INTEG_WB, 0x300038, 64, 0x1000, 1, 0x4⟩,
    ⟨.INTEG_MISC, 0x30003c, 64, 0x1000, 1, 0x4⟩,
    ⟨.SHELF_READ_STATUS, 0x300040, 64, 0x1000, 1, 0x4⟩,
    ⟨.SHELF_READ_PASSES, 0x300044, 64, 0x1000, 1, 0x4⟩,
    ⟨.MERGE_STATUS, 0x300048, 64, 0x1000, 1, 0x4⟩,
    ⟨.ERASURE, 0x300050, 64, 0x1000, 8, 0x4⟩,
    ⟨.LEVEL_ROLE, 0x400000, 17, 0x1000, 1, 0x4⟩,
    ⟨.ACT_GRANT, 0x400010, 17, 0x1000, 1, 0x4⟩,
    ⟨.CMD_STATUS, 0x400014, 17, 0x1000, 1, 0x4⟩,
    ⟨.REFRESH_STATUS, 0x400020, 17, 0x1000, 1, 0x4⟩,
    ⟨.REFRESH_FAULTS, 0x400024, 17, 0x1000, 1, 0x4⟩,
    ⟨.ROW_ACT, 0x400028, 17, 0x1000, 1, 0x4⟩,
    ⟨.HYGRO, 0x400030, 17, 0x1000, 4, 0x4⟩,
    ⟨.LEVEL_RESET, 0x400040, 17, 0x1000, 1, 0x4⟩,
    ⟨.FOOT_I3C_STATUS, 0x480010, 1, 0x4, 1, 0x4⟩,
    ⟨.FOOT_I3C_ALERT, 0x480014, 1, 0x4, 1, 0x4⟩,
    ⟨.FOOT_TAP_GATE, 0x480020, 1, 0x4, 1, 0x4⟩,
    ⟨.FOOT_TAP_STATUS, 0x480024, 1, 0x4, 1, 0x4⟩,
    ⟨.ALLOW_CTL, 0x500000, 1, 0x4, 1, 0x4⟩,
    ⟨.ALLOW_BG, 0x500004, 1, 0x4, 1, 0x4⟩,
    ⟨.ALLOW_STATUS, 0x500008, 1, 0x4, 1, 0x4⟩,
    ⟨.ALLOW_REASON, 0x50000c, 1, 0x4, 1, 0x4⟩,
    ⟨.ALLOW_URGENCY, 0x500010, 1, 0x4, 1, 0x4⟩,
    ⟨.GUARANTEE, 0x501000, 256, 0x20, 1, 0x4⟩,
    ⟨.CEILING, 0x501004, 256, 0x20, 1, 0x4⟩,
    ⟨.GROUP_CACHE, 0x501008, 256, 0x20, 1, 0x4⟩,
    ⟨.GROUP_QUEUE, 0x50100c, 256, 0x20, 1, 0x4⟩,
    ⟨.MISS_CFG, 0x501010, 256, 0x20, 1, 0x4⟩,
    ⟨.MISS_SLOTS, 0x501014, 256, 0x20, 1, 0x4⟩,
    ⟨.MISS_LATENCY, 0x501018, 256, 0x20, 1, 0x4⟩,
    ⟨.GROUP_IN_FORCE, 0x50101c, 256, 0x20, 1, 0x4⟩,
    ⟨.ALLOW_BAY, 0x504000, 64, 0x4, 1, 0x4⟩,
    ⟨.CAT_RESERVE, 0x600000, 1, 0x4, 1, 0x4⟩,
    ⟨.CAT_CMD, 0x600010, 1, 0x4, 1, 0x4⟩,
    ⟨.CAT_ADDR, 0x600014, 2, 0x4, 1, 0x4⟩ ]

/-- Part 5 of the address table (Table 20.5 and the chapters' register captions). -/
def regRows5 : List RegRow :=
  [ ⟨.CAT_NEW, 0x600020, 2, 0x4, 1, 0x4⟩,
    ⟨.CAT_EXPECT, 0x600028, 2, 0x4, 1, 0x4⟩,
    ⟨.CAT_OLD, 0x600030, 2, 0x4, 1, 0x4⟩,
    ⟨.CAT_STATUS, 0x600038, 1, 0x4, 1, 0x4⟩,
    ⟨.RESHELVE_CMD, 0x600100, 1, 0x4, 1, 0x4⟩,
    ⟨.RESHELVE_ADDR_LO, 0x600104, 1, 0x4, 1, 0x4⟩,
    ⟨.RESHELVE_ADDR_HI, 0x600108, 1, 0x4, 1, 0x4⟩,
    ⟨.RESHELVE_DST, 0x60010c, 1, 0x4, 1, 0x4⟩,
    ⟨.RESHELVE_JOB, 0x600110, 1, 0x4, 1, 0x4⟩,
    ⟨.RESHELVE_STATUS, 0x600114, 1, 0x4, 1, 0x4⟩,
    ⟨.TROLLEY_CTL, 0x700000, 1, 0x4, 1, 0x4⟩,
    ⟨.TROLLEY_GROUP_STATUS, 0x700100, 8, 0x10, 1, 0x4⟩,
    ⟨.TROLLEY_STATUS, 0x700200, 32, 0x10, 1, 0x4⟩,
    ⟨.TROLLEY_PROGRESS, 0x700204, 32, 0x10, 1, 0x4⟩,
    ⟨.REKEY_REC, 0x700400, 16, 0x4, 1, 0x4⟩,
    ⟨.HOUSE_RING_BASE_LO, 0x800000, 4, 0x10, 1, 0x4⟩,
    ⟨.HOUSE_RING_BASE_HI, 0x800004, 4, 0x10, 1, 0x4⟩,
    ⟨.HOUSE_RING_CTL, 0x800008, 4, 0x10, 1, 0x4⟩,
    ⟨.HOUSE_RING_STATUS, 0x80000c, 4, 0x10, 1, 0x4⟩,
    ⟨.HOUSE_LINK, 0x800040, 1, 0x4, 1, 0x4⟩,
    ⟨.HOUSE_INT_ADDR, 0x800048, 2, 0x4, 1, 0x4⟩,
    ⟨.HOUSE_INT_DATA, 0x800050, 1, 0x4, 1, 0x4⟩,
    ⟨.HOUSE_CFG, 0x800054, 1, 0x4, 1, 0x4⟩,
    ⟨.SEAL_DATA, 0x900000, 18, 0x4, 1, 0x4⟩,
    ⟨.SEAL_CMD, 0x900100, 1, 0x4, 1, 0x4⟩,
    ⟨.SEAL_STATUS, 0x900104, 1, 0x4, 1, 0x4⟩,
    ⟨.SEAL_CTL, 0x900108, 1, 0x4, 1, 0x4⟩,
    ⟨.COLL_CTL, 0xa00000, 1, 0x4, 1, 0x4⟩,
    ⟨.COLL_STATUS, 0xa00004, 1, 0x4, 1, 0x4⟩,
    ⟨.COLL_REASON, 0xa00008, 1, 0x4, 1, 0x4⟩,
    ⟨.COLL_VERSION, 0xa0000c, 1, 0x4, 1, 0x4⟩,
    ⟨.COLL_CFG, 0xa00010, 1, 0x4, 1, 0x4⟩,
    ⟨.COLL_OFFSET, 0xa00014, 1, 0x4, 1, 0x4⟩,
    ⟨.COLL_DIM, 0xa00020, 6, 0x4, 1, 0x4⟩,
    ⟨.COLL_MEMBERS, 0xa00040, 2, 0x4, 1, 0x4⟩ ]

/-- Part 6 of the address table (Table 20.5 and the chapters' register captions). -/
def regRows6 : List RegRow :=
  [ ⟨.COLL_LOST, 0xa00048, 2, 0x4, 1, 0x4⟩,
    ⟨.COLL_CAT, 0xa00050, 1, 0x4, 1, 0x4⟩,
    ⟨.COLL_CAT_SEQ, 0xa00054, 1, 0x4, 1, 0x4⟩,
    ⟨.COLL_XDST, 0xa00058, 1, 0x4, 1, 0x4⟩,
    ⟨.COLL_EVAC_LIST, 0xa00060, 2, 0x4, 1, 0x4⟩,
    ⟨.COLL_EVAC_COUNT, 0xa00068, 1, 0x4, 1, 0x4⟩,
    ⟨.COLL_DIGEST, 0xa00080, 8, 0x4, 1, 0x4⟩,
    ⟨.RR_FLUSH_CTL, 0xb00000, 1, 0x4, 1, 0x4⟩,
    ⟨.RR_FLUSH_BASE, 0xb00004, 1, 0x4, 1, 0x4⟩,
    ⟨.RR_FLUSH_LIMIT, 0xb00008, 1, 0x4, 1, 0x4⟩,
    ⟨.RR_FLUSH_STATUS, 0xb0000c, 1, 0x4, 1, 0x4⟩,
    ⟨.RR_INTEG, 0xb00040, 16, 0x4, 1, 0x4⟩,
    ⟨.PATRON_CTL, 0x1000000, 4096, 0x100, 1, 0x4⟩,
    ⟨.PATRON_STATUS, 0x1000004, 4096, 0x100, 1, 0x4⟩,
    ⟨.PATRON_GROUP, 0x1000008, 4096, 0x100, 1, 0x4⟩,
    ⟨.PATRON_REASON, 0x100000c, 4096, 0x100, 1, 0x4⟩,
    ⟨.PATRON_ROOT, 0x1000010, 4096, 0x100, 1, 0x4⟩,
    ⟨.PATRON_HOST_LINK, 0x1000014, 4096, 0x100, 1, 0x4⟩,
    ⟨.PATRON_LEAVES, 0x1000018, 4096, 0x100, 1, 0x4⟩,
    ⟨.RING_BASE_LO, 0x1000020, 4096, 0x100, 6, 0x10⟩,
    ⟨.RING_BASE_HI, 0x1000024, 4096, 0x100, 6, 0x10⟩,
    ⟨.RING_CTL, 0x1000028, 4096, 0x100, 6, 0x10⟩,
    ⟨.RING_STATUS, 0x100002c, 4096, 0x100, 6, 0x10⟩,
    ⟨.BELL_ADDR_LO, 0x1000080, 4096, 0x100, 1, 0x4⟩,
    ⟨.BELL_ADDR_HI, 0x1000084, 4096, 0x100, 1, 0x4⟩,
    ⟨.INT_ADDR_LO, 0x1000088, 4096, 0x100, 1, 0x4⟩,
    ⟨.INT_ADDR_HI, 0x100008c, 4096, 0x100, 1, 0x4⟩,
    ⟨.INT_DATA, 0x1000090, 4096, 0x100, 1, 0x4⟩,
    ⟨.PATRON_CIRC, 0x10000a0, 4096, 0x100, 16, 0x4⟩,
    ⟨.TF_COUNT, 0x10000e0, 4096, 0x100, 8, 0x4⟩ ]

/-- The whole address table. -/
def regRows : List RegRow := regRows1 ++ regRows2 ++ regRows3 ++ regRows4 ++ regRows5 ++ regRows6

/-- The indices under which an address lies in a row, if it does. -/
def RegRow.find (r : RegRow) (a : Nat) : Option (RegName × Nat × Nat) :=
  if a < r.base then none
  else
    let off := a - r.base
    let i := off / r.stride1
    let rest := off % r.stride1
    let j := rest / r.stride2
    if i < r.count1 ∧ j < r.count2 ∧ rest % r.stride2 = 0 then some (r.name, i, j) else none

/-- The first row that holds an address. -/
def findReg (a : Nat) : List RegRow → Option (RegName × Nat × Nat)
  | [] => none
  | r :: rs =>
    match r.find a with
    | some x => some x
    | none => findReg a rs

/-- The register at a management address, with its indices; none where no register lies (such addresses read 0, R10). -/
def regAt (a : BitVec 32) : Option (RegName × Nat × Nat) := findReg a.toNat regRows

end Sys2Proof.Machine
end

