-- ==== Sys2Proof/Machine/Geometry.lean ====
section
/-!
DEFINITION. The geometry of the block: shafts, shelves, banks, rows and lines, device physical addresses (R34, R35, R37, R46),
source IDs (R438) and power-domain numbers (R419).
-/

namespace Sys2Proof.Machine

/-- The place of a shelf: one number per shaft and physical level (R71). -/
def shelfKey (shaft level : Nat) : Nat := shaft * 17 + level

/-- The place of a bank. -/
def bankKey (shaft level bank : Nat) : Nat := shelfKey shaft level * 16 + bank

/-- The place of a physical row: 6,208 rows to a bank (R107). -/
def rowKey (shaft level bank row : Nat) : Nat := bankKey shaft level bank * 6208 + row

/-- The place of a physical line: 32 lines to a row. -/
def lineKey (shaft level bank row line : Nat) : Nat := rowKey shaft level bank row * 32 + line

/-- The shaft of a physical line. -/
def locShaft (loc : Nat) : Nat := loc / 32 / 6208 / 16 / 17

/-- The physical level of a physical line. -/
def locLevel (loc : Nat) : Nat := loc / 32 / 6208 / 16 % 17

/-- The bank of a physical line. -/
def locBank (loc : Nat) : Nat := loc / 32 / 6208 % 16

/-- The physical row of a physical line. -/
def locRow (loc : Nat) : Nat := loc / 32 % 6208

/-- The line within its row of a physical line. -/
def locLine (loc : Nat) : Nat := loc % 32

/-- The end of the DPA range: 192 GiB (R34). -/
def dpaEnd : Nat := 0x3000000000

/-- The row field of a DPA (Table 2.3). -/
def dpaRow (dpa : Nat) : Nat := dpa / 2 ^ 25

/-- The logical shelf of a DPA (Table 2.3). -/
def dpaShelf (dpa : Nat) : Nat := dpa / 2 ^ 21 % 16

/-- The bank of a DPA (Table 2.3). -/
def dpaBank (dpa : Nat) : Nat := dpa / 2 ^ 17 % 16

/-- The line within the row: chunk × 4 + DPA[7:6] (R34). -/
def dpaLineInRow (dpa : Nat) : Nat := dpa / 2 ^ 14 % 8 * 4 + dpa / 2 ^ 6 % 4

/-- The fold of the row into the bay bits (R35). -/
def rowFold (row : Nat) : Nat := (row % 16) ^^^ (row / 16 % 16) ^^^ (row / 256 % 16) ^^^ (row / 4096)

/-- The physical shaft of a DPA (R35). -/
def dpaShaft (hash : Bool) (dpa : Nat) : Nat :=
  let within := dpa / 2 ^ 8 % 16
  let within' := if hash then within ^^^ rowFold (dpaRow dpa) else within
  (dpa / 2 ^ 12 % 4) * 16 + within' % 16

/-- The reading-room slice of a line on a shaft (R46). -/
def roomSlice (shaft : Nat) : Nat := 4 * (shaft / 16) + shaft % 16 / 4

/-- The reading-room set of a line (R46). -/
def roomSet (shaft dpa : Nat) : Nat :=
  ((dpa / 2 ^ 14 % 512) * 16 + shaft % 4 * 4 + dpa / 2 ^ 6 % 4) ^^^ (dpa / 2 ^ 25)

/-- The sealing slice of a shaft's lines (R190). -/
def sealSlice (shaft : Nat) : Nat := 2 * (shaft / 16) + shaft % 16 / 8

/-- The twin of a bay (R38). -/
def twinOf (b : Nat) : Nat := if b % 2 = 0 then b + 1 else b - 1

/-- The DPA of a physical place, where the level holds logical shelf `shelf`: the inverse of R35 (R137). -/
def dpaOf (hash : Bool) (shaft shelf bank row line : Nat) : Nat :=
  let within := shaft % 16
  let field := if hash then (within ^^^ rowFold row) % 16 else within
  row * 2 ^ 25 + shelf * 2 ^ 21 + bank * 2 ^ 17 + line / 4 * 2 ^ 14 + (shaft / 16) * 2 ^ 12 + field * 2 ^ 8
    + line % 4 * 2 ^ 6

namespace Src
/-! Source IDs: block in bits [11:8], index in bits [7:0] (R438, Table 18.1). -/
def registrar (i : Nat) : Nat := i
def device : Nat := 2
def foot (i : Nat) : Nat := 0x100 + i
def environment (i : Nat) : Nat := 0x200 + i
def sensor (i : Nat) : Nat := 0x300 + i
def zone (i : Nat) : Nat := 0x400 + i
def port (p : Nat) : Nat := 0x500 + p
def link (p k : Nat) : Nat := 0x600 + 4 * p + k
def concourse (i : Nat) : Nat := 0x700 + i
def wing (w : Nat) : Nat := 0x800 + w
def roomSlice (i : Nat) : Nat := 0x800 + 16 + i
def sealSlice (i : Nat) : Nat := 0x800 + 32 + i
def trolleyGroup (i : Nat) : Nat := 0x800 + 48 + i
def trolley (t : Nat) : Nat := 0x800 + 64 + t
def bay (b : Nat) : Nat := 0x900 + b
def level (d : Nat) : Nat := 0xA00 + d
def group (g : Nat) : Nat := 0xB00 + g
def member (m : Nat) : Nat := 0xC00 + m
def domain (i : Nat) : Nat := 0xD00 + i
def test (i : Nat) : Nat := 0xE00 + i
end Src

namespace Dom
/-! Power-domain numbers (R419, Table 17.2). -/
def port (p : Nat) : Nat := p
def bay (b : Nat) : Nat := 64 + b
def roomSlice (i : Nat) : Nat := 128 + i
def wing (w : Nat) : Nat := 144 + w
def concourse (i : Nat) : Nat := 148 + i
def trolleyGroup (i : Nat) : Nat := 156 + i
def sealSlice (i : Nat) : Nat := 164 + i
def registrar (i : Nat) : Nat := 172 + i
def pll (i : Nat) : Nat := 174 + i
def quadrant (d q : Nat) : Nat := 178 + 4 * d + q
def testAccess : Nat := 246
def i3c : Nat := 247
end Dom

/-- Items packed into a DETAIL word from bit 0 upward: value and width of each (R444). -/
def packDetail : List (Nat × Nat) → Nat
  | [] => 0
  | (v, w) :: rest => v % 2 ^ w + 2 ^ w * packDetail rest

end Sys2Proof.Machine
end

