-- ==== Sys2Proof/Machine/State.lean ====
section
/-!
DEFINITION. The state of the block: every register field, queue, buffer, counter, mode and pin the spec gives it, as plain
data, and the queue of commands that wait (first in, first out).
-/

namespace Sys2Proof.Machine

open Sys2Proof

/-- The faults of a step. -/
inductive Fault where
  /-- Raised by no meaning: the spec reports every fault of the block in its own state (fault records, error flags), so no
  command stops the machine. Safe: a step that faulted would only stop a run. -/
  | stopped
  deriving DecidableEq, Repr

/-- The refusals of a step. -/
inductive Refusal where
  /-- Raised by the dispatch for a command that has no meaning yet. Safe: the model stops. -/
  | notModelled (mnemonic : String)
  deriving DecidableEq, Repr

/-! ## Shafts, shelves and banks (R77 to R100) -/

/-- Bank states of Table 4.7; SELF_REFRESH is the shelf's (R82). -/
inductive BankSt where
  | idle | activating | opened | precharging | refreshing
  deriving DecidableEq, Repr

/-- The operation a bank is busy with (Table 4.11, word 2). -/
inductive BankOp where
  | none | act | pre | ref | tref
  deriving DecidableEq, Repr

/-- One bank as its shelf port keeps it (R81): its state, the row field of its last ACT, whether a column of the open row was
written, and the operation it is busy with. -/
structure Bank where
  st      : BankSt := .idle
  row     : Nat := 0
  written : Bool := false
  op      : BankOp := .none
  deriving DecidableEq, Repr

/-- Shelf states of R82. -/
inductive ShelfSt where
  | ready | recovering | selfRefresh
  deriving DecidableEq, Repr

/-- One shelf port (R79, R82, R92, R294) with the bay's own copies of what it was told (R90, R91). `acts` counts the ACTs the
port accepted in its period, `bayActs` the tokens the bay spent; `grantBay` is the grant the bay holds, `grantBayNext` the one
it has read for the next boundary. The open withdrawal is the content of word 288. -/
structure Shelf where
  st           : ShelfSt := .ready
  done         : BitVec 16 := 0
  fault        : Bool := false
  faultBank    : Nat := 0
  faultOp      : Nat := 0
  alertCause   : Nat := 0
  grantChanged : Bool := false
  claimNew     : Bool := false
  acts         : Nat := 0
  bayActs      : Nat := 0
  grantBay     : Nat := 256
  grantBayNext : Nat := 256
  baySt        : ShelfSt := .ready
  wdOpen       : Bool := false
  wdBank       : Nat := 0
  wdRow        : Nat := 0
  wdSpare      : Nat := 0
  wdCopied     : Bool := false
  wdLine       : Nat := 0
  wdRecorded   : Bool := false
  deriving DecidableEq, Repr

/-- One targeted-refresh claim (R114): bank, row field of the ACT, its neighbours, its DEADLINE bit, and whether the bay has
read it (R117). -/
structure Claim where
  bank     : Nat
  row      : Nat
  lower    : Nat
  upper    : Nat
  deadline : Bool := false
  read     : Bool := false
  deriving DecidableEq, Repr

/-- What a place in the transfer order is for (R73). -/
inductive XferKind where
  | read | write | srr | srw | calWrite | calRead
  deriving DecidableEq, Repr

/-- One entry of a shaft's transfer order (R73). `word` is the steward word of SRR and SRW, `data` the word SRW writes,
`cls`, `grp` and `patron` the request's class, group and patron, `scrub` marks a shelf-reading read, `retried` an entry
re-issued after a stall (R86, R87). -/
structure Xfer where
  level   : Nat
  bank    : Nat
  row     : Nat
  line    : Nat
  kind    : XferKind
  ap      : Bool := false
  word    : Nat := 0
  data    : BitVec 32 := 0
  cls     : Nat := 0
  grp     : Nat := 0
  patron  : Nat := 0
  scrub   : Bool := false
  retried : Bool := false
  deriving DecidableEq, Repr

/-- One entry of the ACT history (R117). -/
structure ActHist where
  level  : Nat
  bank   : Nat
  row    : Nat
  patron : Nat
  deriving DecidableEq, Repr

/-- The bay's end of a shaft: the transfer order, the last ALERTed word not yet re-issued (R88), the level of the last parity
ALERT, the ACT history (newest first, R117), the level of a first command stall (R86), and what the last transfer delivered. -/
structure Shaft where
  order     : List Xfer := []
  alerted   : Option (BitVec 24) := none
  parityRun : Option Nat := none
  stalled   : Option Nat := none
  hist      : List ActHist := []
  lastData  : LineData := 0
  lastPoison : Bool := false
  deriving DecidableEq, Repr

/-! ## Line integrity (R134 to R159) -/

/-- An entry of a bay's write-back queue (R136 to R138): the physical line, the corrected word, how many periods it waits, and
whether a later write overtook it. -/
structure Writeback where
  loc        : Nat
  word       : CodeWord
  wait       : Nat
  superseded : Bool := false
  deriving DecidableEq, Repr

/-- Merge-buffer entry states of Table 6.5 (FREE is absence). -/
inductive MergeSt where
  | filling | held | issued
  deriving DecidableEq, Repr

/-- One merge-buffer entry (R142): physical line, reading-room tag of the DPA, data as stored, mask, POISON, charge, state,
age (lending periods and time base when it left FREE), whether it is a reading-room write-back whose completion is reported
(R49), whether it was moved by a takeover (R147), and the replies that wait for its fill. -/
structure MergeEntry where
  loc    : Nat
  dpaLine : Nat
  data   : LineData
  mask   : BitVec 64
  poison : Bool := false
  cls    : Nat := 0
  grp    : Nat := 0
  st     : MergeSt := .held
  born   : Nat := 0
  room   : Bool := false
  moved  : Bool := false
  deriving DecidableEq, Repr

/-- A withdrawal proposal queued at a level steward (R291). -/
structure Proposal where
  shaft : Nat
  bank  : Nat
  row   : Nat
  deriving DecidableEq, Repr

/-! ## The reading room (R46 to R52) -/

/-- Reading-room line states (R46); INVALID is absence. -/
inductive RoomSt where
  | clean | dirty | writing
  deriving DecidableEq, Repr

/-- One reading-room line: its tag (DPA >> 6), group, state, plaintext, POISON, the patron and key epoch its write-back is
sealed under (patron 0 unsealed, R190), and whether it was modified while WRITING (R49). -/
structure RoomLine where
  tag    : Nat
  grp    : Nat
  st     : RoomSt
  data   : LineData
  poison : Bool := false
  sealed : Bool := false
  patron : Nat := 0
  epoch  : Bool := false
  redirty : Bool := false
  deriving DecidableEq, Repr

/-! ## Patrons, the catalogue and sealing (R161 to R201) -/

/-- A card-index entry (R183): the leaf or volume card, its own DPA and the patron. -/
structure IndexEntry where
  patron  : Nat
  level   : Nat
  base    : Nat
  card    : Card
  cardDpa : Nat
  deriving DecidableEq, Repr

/-- A re-keyed KEK, vault or next-key slot (R194 to R197). -/
structure NextKey where
  patron : Nat
  key    : BitVec 512
  deriving DecidableEq, Repr

/-- A materialisation between Steps 2 and 4 of Table 7.15: the card's DPA and the card as written at Step 2. -/
structure Materialise where
  cardDpa : Nat
  card    : Card
  patron  : Nat
  deriving DecidableEq, Repr

/-! ## Pace and the time base (R58 to R70) -/

/-- The environment warden's run lengths for a pace zone (Table 3.3, R60). -/
structure PaceZone where
  highRun : Nat := 0
  lowRun  : Nat := 0
  okRun   : Nat := 0
  deriving DecidableEq, Repr

/-! ## Counters (R461 to R466) -/

/-- One performance counter: the fields of SEL and FILTER, its 48-bit value, the captured upper half (R463) and the lower half
written but not yet loaded. -/
structure Perf where
  event    : Nat := 0
  en       : Bool := false
  patronEn : Bool := false
  chain    : Bool := false
  leaf     : Bool := false
  ovf      : Bool := false
  unit     : Nat := 0
  unitMask : Nat := 0
  patron   : Nat := 0
  value    : Nat := 0
  capHi    : Nat := 0
  loStage  : Nat := 0
  deriving DecidableEq, Repr

/-! ## House rings (R250, R251) -/

/-- What the device keeps of a house ring beside its registers: the last consumer index read, LOST, the records held while the
header is read again (32 or 64 bytes each as one number, with the link a Flaud reply came for), and whether such a read is outstanding. -/
structure HouseRing where
  ci      : Nat := 0
  lost    : Nat := 0
  held    : List (BitVec 512 × Nat) := []
  reading : Bool := false
  deriving DecidableEq, Repr

/-! ## The ledger (R300 to R303) -/

/-- One slot of the ledger: 256 bytes (Table 11.11). -/
abbrev Slot := BitVec 2048

/-- A ledger record: its two slots (R300). -/
structure LedgerRec where
  a : Slot := 0
  b : Slot := 0
  deriving DecidableEq, Repr

/-- A write request on its way to the foot: the record (kind and index as in RECORD of Table 11.11) and its payload. -/
structure LedgerReq where
  record  : Nat
  payload : List Nat
  deriving DecidableEq, Repr

/-- The foot's non-volatile memory: the directory's validity, the records, the writes counted to each physical block, and the
wear map from logical to physical blocks where they differ (R300, R303). -/
structure Ledger where
  directoryValid : Bool := true
  records  : SMap LedgerRec := []
  writes   : SMap Nat := []
  wearMap  : SMap Nat := []
  deriving DecidableEq, Repr

/-! ## Circulation counters (R469) -/

/-- The six circulation counters of a patron (Table 19.6). -/
structure Circ where
  bytesRead    : Nat := 0
  bytesWritten : Nat := 0
  dmaBytes     : Nat := 0
  leafMs       : Nat := 0
  urgentSlots  : Nat := 0
  misses       : Nat := 0
  deriving DecidableEq, Repr


/-! ## Allowances (R202 to R227) -/

/-- The settings of an allowance group (R206). -/
structure GroupSet where
  guarantee : Nat := 0
  ceiling   : Nat := 0
  wayMask   : Nat := 0xFFFF
  occCap    : Nat := 0xFFFF
  share     : Nat := 0
  urgent    : Nat := 0
  deriving DecidableEq, Repr

/-- A set of committed allowance settings (Tables 8.8, 8.13 to 8.15). -/
structure AllowSet where
  period     : Nat := 1
  designTemp : Nat := 95
  headroom   : Nat := 10
  urgent     : Nat := 5
  groups     : SMap GroupSet := []
  deriving DecidableEq, Repr

/-- Settings that are not staged but take effect at a boundary (R207): ALLOW_BG, DWELL, and MISS_N and MISS_W of the groups. -/
structure LooseSet where
  reshelve : Nat := 64
  crit     : Nat := 160
  floor    : Nat := 32
  spot     : Nat := 16
  dwell    : Nat := 50
  missN    : SMap Nat := []
  missW    : SMap Nat := []
  deriving DecidableEq, Repr

/-- What a bay loads at a boundary (R203, R222 to R224): capacity, shedding step, A3 and A2, the grants of A5 and A6, whether the
A4 catch-up is deferred, and the groups whose A0 tokens are scaled. -/
structure BayTokens where
  cap      : Nat := 1600
  step     : Nat := 0
  a3       : Nat := 16
  a2       : Nat := 80
  a5       : Nat := 64
  a6       : Nat := 16
  deferred : Bool := false
  scaled   : List (Nat × Nat) := []
  deriving DecidableEq, Repr


/-! ## Requests (R166, R184, R187, R349, R350) -/

/-- A memory request past the port check: a number of its own in order of arrival, its arrival link, its message, what the
outside world adds to its access, the applied urgency it carries, when it arrived, whether a tracer selected it, the member it was
forwarded by, whether it has already been forwarded once (R366), and whether it missed the card index. -/
structure Req where
  serial  : Nat
  link    : Nat
  msg     : Msg
  env     : AccessEnv
  level   : Nat := 0
  arrived : Nat := 0
  traced  : Bool := false
  source  : Option Nat := none
  missed  : Bool := false
  deriving DecidableEq, Repr

/-- Why a request waits: for a MATERIALISING card (R178), a shaft (R40, R82, R124, R143), tokens of the next period (R214), a
STARTING job (R281), a free walk of a wing (R184), an earlier request of its link to the same line (R354), or a place among the
atomics towards a holder (R368). -/
inductive Hold where
  | card (dpa : Nat)
  | shaft (n : Nat)
  | tokens (bay : Nat)
  | job (n : Nat)
  | wing (w : Nat)
  | behind (serial : Nat)
  | holder (m : Nat)
  | walk
  deriving DecidableEq, Repr

/-- A request that waits, with the card it has been translated through, the card's DPA and level, where it has been. -/
structure Held where
  req  : Req
  why  : Hold
  card : Option (Card × Nat × Nat) := none
  deriving DecidableEq, Repr

/-- A walk in flight (R184): the patron, the level of the card it reads next (1 to 4), the DPA of that card's line, the class and
group it is charged to, and the requests that share it. -/
structure Walk where
  patron : Nat
  level  : Nat
  line   : Nat
  cls    : Nat
  grp    : Nat
  reqs   : List Req
  deriving DecidableEq, Repr

/-- A walk-cache entry (R183): a TABLE card of a level, the address prefix it serves, and the DPA it was read from. -/
structure WalkEntry where
  patron  : Nat
  level   : Nat
  pfx     : Nat
  card    : Card
  cardDpa : Nat
  deriving DecidableEq, Repr

/-- A FENCE message that waits for the earlier requests of its patron on its link (R350). -/
structure FenceReq where
  link   : Nat
  msg    : Msg
  serial : Nat
  deriving DecidableEq, Repr

/-- A forwarded request without its reply (R366, R368, R369): the tag it travels under, its holder, and whether it was sent
again. -/
structure Forward where
  tag     : Nat
  holder  : Nat
  req     : Req
  /-- Level of the REMOTE card (Table 9.10). -/
  level   : Nat
  retried : Bool := false
  deriving DecidableEq, Repr

/-- The outcome of a forwarded atomic kept for a retry (R368). -/
structure AtomicDone where
  source : Nat
  tag    : Nat
  status : Nat
  value  : BitVec 64
  deriving DecidableEq, Repr

/-- States of a re-shelving job (R281); FREE is absence. -/
inductive JobSt where
  | queued | starting | copying | finishing | abandoning | ended
  deriving DecidableEq, Repr

/-- A re-shelving job (R279 to R283): its patron, the card's DPA and the card as it was, source and destination (on another member,
R373), its patron address, the lines copied on each shaft, whether a poisoned line was copied, how it ends or ended, its place in
the order of starts, and the requests its closing fence waits for. -/
structure Job where
  patron   : Nat
  cardDpa  : Nat
  former   : Card
  src      : Nat
  dst      : Nat
  volume   : Bool := false
  member   : Option Nat := none
  va       : Nat := 0
  st       : JobSt := .queued
  cursor   : SMap Nat := []
  poisoned : Bool := false
  ended    : Nat := 0
  order    : Nat := 0
  fence    : Option (List (Nat × Nat)) := none
  deriving DecidableEq, Repr



/-! ## Rings, host reads and writes (R230 to R251, R352, R353) -/

/-- What a host read or write is for. `serial` names a descriptor in progress, `line` its stepped line. -/
inductive HostFor where
  | bell
  | desc (ring first : Nat)
  | list (serial : Nat)
  | data (serial line : Nat)
  | header (ring : Nat)
  | evac
  | completion
  | faultRecord
  | progress
  | out (serial line : Nat)
  | crc (serial : Nat)
  | house (ring : Nat)
  deriving DecidableEq, Repr

/-- A host read or write without its answer (R248, R352, R353): its tag, link and patron, its address and lines (0 for a write),
the lines that have come with their POISON, whether it has been repeated, and whether it waits to be issued again. -/
structure HostOp where
  tag     : Nat
  link    : Nat
  patron  : Nat
  purpose : HostFor
  addr    : Nat
  lines   : Nat
  got     : List (Nat × LineData × Bool) := []
  repeated : Bool := false
  waiting : Bool := false
  deriving DecidableEq, Repr

/-- A completion record (Table 9.8) that waits for space in CRING, with whether its descriptor asked for an interrupt. -/
structure Completion where
  ring   : Nat
  index  : Nat
  status : Nat
  tf     : Nat := 0
  reason : Nat := 0
  result : Nat := 0
  int    : Bool := false
  deriving DecidableEq, Repr

/-- What the device keeps of a patron's rings beside the registers (R232, R240, R244, R245): the bell read's PENDING, the consumer
indices last read, the LOST counts, LOST_BEFORE, the PHASE of the next completion and fault record, completions that wait, and the producer indices of the submission rings last
read. -/
structure RingSide where
  pending    : Bool := false
  cringCi    : Nat := 0
  fringCi    : Nat := 0
  cringLost  : Nat := 0
  fringLost  : Nat := 0
  lostBefore : Bool := false
  cPhase     : Bool := true
  fPhase     : Bool := true
  waiting    : List Completion := []
  subPi      : SMap Nat := []
  deriving DecidableEq, Repr

/-- The interrupt messages of a patron, or of the house rings (R246): whether HOLDOFF of the last one runs, and the causes
gathered meanwhile. -/
structure IntSide where
  running : Bool := false
  causes  : Nat := 0
  deriving DecidableEq, Repr

/-! ## Trolleys (R253 to R276) -/

/-- A fetched descriptor (R242): a number of its own, its patron, ring and index, and its 64 bytes. -/
structure Desc where
  serial : Nat
  patron : Nat
  ring   : Nat
  index  : Nat
  words  : BitVec 512
  deriving DecidableEq, Repr

/-- Why a running descriptor stops (Table 10.7). A fault names its stepped line. -/
inductive Stop where
  | recall
  | abort
  | pause
  | translation (line tf level : Nat) (write : Bool) (addr cardDpa : Nat)
  | host (line reason : Nat)
  deriving DecidableEq, Repr

/-- A running or recalled descriptor with its progress record (R267): stepped lines done without a gap, further lines done, the
sticky flags, the CRC, the lowest offset COMPARE met with whether it is a poisoned line, the list of GATHER and SCATTER, host
lines that have arrived with their address and POISON, the tags of the host writes of its data without an answer, the answers of
other members to its lines (address, opcode, status, data), its completion while it waits for those writes, the stop in progress,
and when and in which order it started. -/
structure Work where
  desc     : Desc
  done     : Nat := 0
  map      : List Nat := []
  srcPoison : Bool := false
  tgtPoison : Bool := false
  crc      : Nat := 0
  cmp      : Option (Nat × Bool) := none
  list     : Option (List (Nat × Nat)) := none
  arrived  : List (Nat × LineData × Bool) := []
  unanswered : List Nat := []
  remote   : List (Nat × Nat × Nat × LineData) := []
  ending   : Option Completion := none
  stop     : Option Stop := none
  started  : Nat := 0
  order    : Nat := 0
  deriving DecidableEq, Repr

/-- A trolley group's record store and fetched descriptors, oldest first, and its recall in progress (R253, R265). -/
structure GroupSt where
  fetched  : List Desc := []
  recalled : List Work := []
  deriving DecidableEq, Repr

/-- A rekey record (R274): the patron, the card and its DPA, the segment, and the lines done as a mask. -/
structure Rekey where
  patron  : Nat
  cardDpa : Nat
  card    : Card
  segment : Nat := 0
  map     : Nat := 0
  deriving DecidableEq, Repr

/-! ## Collections (R374 to R382) -/

/-- What the head keeps of a member (R378, R379): roll calls without an answer, whether the last one was answered, and the contents of
the last answer (Table 14.2a). -/
structure MemberInfo where
  missed     : Nat := 0
  answered   : Bool := true
  state      : Nat := 0
  outOfStep  : Bool := false
  evacuating : Bool := false
  drift      : Bool := false
  leaves     : Nat := 0
  openRecs   : Nat := 0
  summary    : Nat := 0
  seq        : Nat := 0
  time       : Nat := 0
  digest     : List Nat := []
  deriving DecidableEq, Repr

/-- What a device keeps of its collection beside the registers: the head's record of each member, the positions and LEVELs that enter
and the positions that leave the map at the next roll call, the LEVELs known, whether a head is known and the digest it last sent,
whether an ISOLATED member rejoins, whether the head has accepted a join, whether this device leaves, exchanges within 100 ns in a row,
the counter mode of the next boundary (R381), the next entry of the evacuation list and the jobs the evacuation started (R382). -/
structure CollSt where
  members      : SMap MemberInfo := []
  joins        : List (Nat × Nat) := []
  leaves       : List Nat := []
  memberLevels : SMap Nat := []
  headKnown    : Bool := false
  headDigest   : List Nat := []
  rejoining    : Bool := false
  joinAccepted : Bool := false
  leaving      : Bool := false
  inStep       : Nat := 0
  samplingNext : Option Bool := none
  evacNext     : Nat := 0
  evacJobs     : List Nat := []
  deriving DecidableEq, Repr

/-! ## Clocks (R385 to R398) -/

/-- What the clocks keep beside the registers: the PLLs whose lock detector reads LOCKED_IN, a frequency change of HP3 that waits for
LOCKED, whether HOLDOVER_LONG has been raised for this holdover, and the dither LFSR of each port PLL as loaded (R389). -/
structure ClkSt where
  lockedIn    : List Nat := []
  freqPending : Bool := false
  longRaised  : Bool := false
  dither      : SMap Nat := []
  deriving DecidableEq, Repr

/-! ## Faults (R438 to R448) -/

/-- A fault record (Table 18.4). -/
structure FaultRecord where
  seq        : Nat
  source     : Nat
  reaction   : Nat
  signal     : Bool
  lostBefore : Bool
  type       : Nat
  first      : Nat
  last       : Nat := 0
  count      : Nat := 1
  detail     : Nat := 0
  deriving DecidableEq, Repr

/-- The counting state of a counted source (R439, R440): when its window opened and its count. -/
structure FaultCount where
  source : Nat
  type   : Nat
  opened : Nat
  n      : Nat
  deriving DecidableEq, Repr

/-- What the registrar keeps of the faults: the open records, oldest first, the counting state, the last SEQ, whether records were lost
since the last one that entered the queue, the records that wait for the event log and its next record, whether a registrar takeover
runs (R448, R490), whether the trigger of R491 has arisen, and which registrar is tested. -/
structure FaultSt where
  records    : List FaultRecord := []
  counts     : List FaultCount := []
  seq        : Nat := 0
  lostMark   : Bool := false
  logWait    : List FaultRecord := []
  logNext    : Nat := 0
  takeover   : Bool := false
  registrarLost : Bool := false
  testing    : Bool := false
  deriving DecidableEq, Repr

/-! ## Power (R419 to R436) -/

/-- A power request: its operation (0 GATE, 1 WAKE, 2 CLOSE) and domain. -/
structure PowerReq where
  op     : Nat
  domain : Nat
  deriving DecidableEq, Repr

/-- What the power sequencer and the foot keep beside the registers: the request in progress and the pending slot (R424); whether its commit point has passed, whether the device is CLOSED, and whether a
thermal shutdown runs; the levels of the wake pins; a wake latched for the next cold start (cause, source); the always-on wake record
in the layout of LAST_WAKE and the time spent CLOSED (R435); whether THERM_N is low (R411); whether an inventory has ended and no power
request has been carried out since (R499); whether SAFE_N has stayed high for 1 ms (R434); the zone, sensor and reading of the first
thermal trip and how many zones have tripped (R408, R409). -/
structure PowerSt where
  cur        : Option PowerReq := none
  pend       : Option PowerReq := none
  committed  : Bool := false
  closed     : Bool := false
  shutdown   : Bool := false
  wakeLevel  : Nat := 15
  latched    : Option (Nat × Nat) := none
  record     : Option Nat := none
  closedMs   : Nat := 0
  thermLow   : Bool := false
  cleanClose : Bool := false
  safeHigh   : Bool := true
  trip       : Option (Nat × Nat × Int) := none
  trips      : Nat := 0
  deriving DecidableEq, Repr

/-! ## Tests (R452 to R459) -/

/-- What the tests keep beside the registers: the result a slice in RESTORING ends with, the next domain of the schedule, and of the
inventory the first phase that failed (0 none) and whether a domain was skipped. -/
structure TestSt where
  result   : Nat := 0
  next     : Nat := 0
  failPhase : Nat := 0
  skipped  : Bool := false
  deriving DecidableEq, Repr

/-! ## Temperature (R400 to R412) -/

/-- What the health tests keep of a sensor (Table 16.2): its last reading and raw code, how many samples in a row had that code, the
least and greatest reading of its zone's other sensors meanwhile, and since when it has been an outlier. -/
structure SensorSt where
  last   : Option Int := none
  raw    : Nat := 0
  same   : Nat := 0
  others : Option (Int × Int) := none
  outSince : Option Nat := none
  deriving DecidableEq, Repr

/-- What the level warden keeps of a level's comparisons (R403, R405): witness samples and evaluations beyond 5 °C in a row, the inputs of
the last evaluation, the last estimate, and when a comparison last was beyond 5 °C. -/
structure LevelTherm where
  witRun   : Nat := 0
  modelRun : Nat := 0
  inputs   : Option (List Int) := none
  model    : Option Int := none
  beyond   : Nat := 0
  deriving DecidableEq, Repr

/-- What temperature sensing keeps beside the registers: the sensors, the levels, the zones in a THERM_WARN and in a THERM_OVER_LIMIT
excursion with the temperature crossed, the crossings of a trip that have been counted, and the hygrometer arrays whose curve has been reported
unusable (R121). -/
structure ThermSt where
  sensors : SMap SensorSt := []
  levels  : SMap LevelTherm := []
  warm    : SMap Int := []
  hot     : List Nat := []
  curveBad : List Nat := []
  deriving DecidableEq, Repr

/-! ## Start-up (R498 to R504) -/

/-- What a cold start keeps beside the registers: whether it has begun, whether it is a full start, the start tests done, the registrars
that failed, the ports of Step 12 that still hold READY, and whether Step 12 has been carried out. -/
structure StartSt where
  begun  : Bool := false
  full   : Bool := false
  tests  : Nat := 0
  failed : List Nat := []
  ports  : List Nat := []
  enabled : Bool := false
  deriving DecidableEq, Repr

/-! ## Management (R476 to R491) -/

/-- What the management paths keep beside the registers: the I3C read address, length limits and reset action (R479, R480), the bytes the
last I3C read or CCC returned and whether the last transfer was not acknowledged, the IBI payloads sent (R481), the word a register read
returned, Flaud requests held by a takeover (R490), the TAP's instruction, what its data register last shifted out, the boundary register and
whether EXTEST drives it, the nonce of the last challenge with its scope and time (R487), and the domain named in the wrappers' selection with
the domains scanned (R488). -/
structure MgmtSt where
  readAddr : Nat := 0
  mrl      : Nat := 256
  mwl      : Nat := 256
  resetAction : Nat := 0
  out      : List Nat := []
  nack     : Bool := false
  ibis     : List Nat := []
  word     : Nat := 0
  heldFlaud : List (Nat × Msg) := []
  ir       : Nat := 1
  tdo      : Nat := 0
  boundary : Nat := 0
  drives   : Bool := false
  nonce    : Option (Nat × Nat × Nat) := none
  selected : Nat := 0
  scanned  : List Nat := []
  deriving DecidableEq, Repr

/-- The scope of a flush as it starts (R52): INVALIDATE, SCOPE, SLICE, GROUP and the lines of RR_FLUSH_BASE and RR_FLUSH_LIMIT. -/
structure FlushScope where
  invalidate : Bool := false
  scope : Nat := 0
  slice : Nat := 0
  group : Nat := 0
  base  : Nat := 0
  limit : Nat := 0
  deriving DecidableEq, Repr

/-! ## The device -/

/-- What final test and the board fix for one device (R2, R3, R24, R360, R402, R487): never written by any command. `selfHeat` holds
h(d) in m°C per watt, `unlockKey` the key of test access. -/
structure Fuses where
  variantS       : Bool := false
  stepping       : Nat := 0
  factoryReserve : Nat := 16
  position       : Nat := 0
  selfHeat       : List Nat := []
  unlockKey      : BitVec 256 := 0
  deriving DecidableEq, Repr

/-- The layout settings that OPEN locks until the next cold start: DEV_LAYOUT.SHAFT_HASH (R36), CAT_RESERVE.SIZE (R173),
DEV_KEEPER (R482), and their LOCK bits, which are set together. -/
structure Layout where
  shaftHash   : Bool := true
  reserve     : Nat := 4
  keeperPort  : Nat := 0
  keeperValid : Bool := false
  locked      : Bool := false
  deriving DecidableEq, Repr

/-- A fault event on its way to the registrar (R438): type, source ID, DETAIL, and for HANDSHAKE_STALL the channel of Table
3.6 (0 none, 1 datapath, 2 registry line, 3 registrar internal, 4 foot internal). -/
structure RaisedFault where
  type    : Nat
  source  : Nat
  detail  : Nat := 0
  channel : Nat := 0
  deriving DecidableEq, Repr

/-- A column swap that has been ordered (R289, R290): shaft, via group, working column, spare, whether its COLUMNS record has been
written, and since when. -/
structure ViaOrder where
  shaft : Nat
  group : Nat
  col   : Nat
  spare : Nat
  since : Option Nat := none
  deriving DecidableEq, Repr

/-- A standing erasure that has been ordered (R159, R289): bay, symbol, levels as a mask, and since when its record has been
written. -/
structure ErasureOrder where
  bay    : Nat
  symbol : Nat
  levels : Nat
  since  : Option Nat := none
  deriving DecidableEq, Repr

/-- A catalogue command in progress (R186, R187, R372): its operation (0 READ, 1 WRITE, 2 CAS, 3 FENCE), patron, card level, patron
address and cards; the requests a fence waits for (serial number and address); whether it is propagated, to which holder, where it
stands (0 its own card, 1 the holder's answer, 2 the other members' answers), its card sequence and the members that have not
answered. -/
structure CatCmd where
  op     : Nat
  patron : Nat
  level  : Nat
  pa     : Nat
  new    : Card := 0
  expect : Card := 0
  fence  : List (Nat × Nat) := []
  spread : Bool := false
  holder : Option Nat := none
  phase  : Nat := 0
  seq    : Nat := 0
  waits  : List Nat := []
  result : Nat := 0
  deriving DecidableEq, Repr

/-- One card write of the journal (R372). -/
structure CardWrite where
  seq    : Nat
  patron : Nat
  level  : Nat
  pa     : Nat
  new    : Card
  holder : Option Nat
  deriving DecidableEq, Repr

/-! ## Lanes and links (R308 to R345) -/

/-- What a receiver keeps of one lane (R311 to R313, R316, R317): the last 58 scrambled payload bits, blocks without a header error
in a row, the header errors of the last 64 blocks, intact TS in a row with one MODE and QUARTERS, TS in a row that meet the state's
condition, the PRBS bits of the last block with what has been seen and found wrong, the SEED blocks of the entry in progress, the
additive scrambler and the last line bit. -/
structure LaneRx where
  hist     : Nat := 0
  good     : Nat := 0
  errs     : Nat := 0
  acqKey   : Nat := 0
  acqRun   : Nat := 0
  run      : Nat := 0
  prbs     : Option Nat := none
  prbsSeen : Nat := 0
  prbsErr  : Nat := 0
  seedPos  : Nat := 0
  seedGood : Nat := 0
  seed     : Nat := 0
  scr      : Nat := 0
  runLen   : Nat := 0
  prev     : Bool := false
  deriving DecidableEq, Repr

/-- What a transmitter keeps of one logical lane (R324): pre- and post-cursor with their status, the requests of this end's receiver
and whether it has finished adapting, and the additive scrambler with its run count and last line bit (R315, R316). -/
structure LaneTx where
  pre    : Nat := 0
  post   : Nat := 0
  stPre  : Nat := 0
  stPost : Nat := 0
  reqPre : Nat := 0
  reqPost : Nat := 0
  farPre : Nat := 0
  farPost : Nat := 0
  eqDone : Bool := false
  scr    : Nat := 0
  runLen : Nat := 0
  prev   : Bool := false
  deriving DecidableEq, Repr

/-- A link's training (R319 to R323, R325, R326): MAX_STEP taken at DETECT, the limit set by failures, failures at this step, the far
end's MAX_STEP and QUARTERS, whether MODE differed, the logical lane asked to move, the lane moved at the far end's request, the
logical lanes that no spare covers, and when recent recoveries began. -/
structure Training where
  maxStep : Nat := 5
  limit   : Nat := 5
  tries   : Nat := 0
  farMax  : Nat := 5
  farQuarters : Nat := 15
  modeBad : Bool := false
  move    : Option Nat := none
  moved   : Option Nat := none
  missing : List Nat := []
  recoveries : List Nat := []
  deriving DecidableEq, Repr

/-- A DATA flit held for replay (R338): its SEQ, its 256 bytes and how often it has been replayed. -/
structure HeldFlit where
  seq     : Nat
  flit    : BitVec 2048
  replays : Nat := 0
  deriving DecidableEq, Repr

/-- A link's protocol state (R336 to R341, R364): whether it is live, whether a DATA flit has been accepted, a NAK to send, the
replay buffer, where a replay stands, FREED and CONSUMED of both directions by class, CRC failures in a row, flits since a FILL, the
class whose credits go next, a flit kept back by the injector in either direction, the line columns of the flit sent last, and the
flits in transit before this link, each with the link it came by. -/
structure LinkSt where
  live     : Bool := false
  accepted : Bool := false
  sendNak  : Bool := false
  replay   : List HeldFlit := []
  replayAt : Option Nat := none
  freed    : List Nat := [0, 0, 0]
  arrived  : List Nat := [0, 0, 0]
  consumed : List Nat := [0, 0, 0]
  farFreed : List (Option Nat) := [none, none, none]
  crcRun   : Nat := 0
  sinceFill : Nat := 0
  turn     : Nat := 0
  kept     : Option (BitVec 2048) := none
  keptRx   : Option (BitVec 2048) := none
  sent     : List Nat := []
  transit  : List (Nat × BitVec 2048) := []
  deriving DecidableEq, Repr

/-- The statements (R469 to R474): when the interval began and its length in seconds, the flags of the interval (time base disturbed, out
of step), the patrons enabled in it and those enabled for a part of it, and the statements that wait for house ring 0. -/
structure StmtSt where
  start   : Nat := 0
  secs    : Nat := 60
  disc    : Bool := false
  oos     : Bool := false
  enabled : List Nat := []
  partly  : List Nat := []
  buffer  : SMap (BitVec 512) := []
  deriving DecidableEq, Repr

/-- The service-life account (R306): hours, and the weighted hours of the crown and the levels in units of 2^-16. -/
structure LifeSt where
  hours  : Nat := 0
  crown  : Nat := 0
  levels : Nat := 0
  deriving DecidableEq, Repr

set_option maxRecDepth 4096 in
/-- Everything volatile the device holds. `fields` holds the register fields that have no structure of their own. -/
structure Dev where
  fields      : SMap Nat := []
  time        : Nat := 0
  raised      : List RaisedFault := []
  freeCount   : Nat := 0
  pace        : SMap PaceZone := []
  localCount  : SMap Nat := []
  localReload : List Nat := []
  tickFailed  : SMap Nat := []
  unreachable : List Nat := []
  slewRest    : Int := 0
  stepOrdered : Int := 0
  banks       : SMap Bank := []
  bayBanks    : SMap BankSt := []
  shelves     : SMap Shelf := []
  shafts      : SMap Shaft := []
  claims      : SMap Claim := []
  owed        : SMap Int := []
  refreshCtr  : SMap Nat := []
  rowCounts   : SMap Nat := []
  rowMap      : SMap Nat := []
  spareUsed   : SMap Nat := []
  calCodes    : SMap Nat := []
  grantNext   : SMap Nat := []
  spent       : SMap Nat := []
  periodCode  : Nat := 1
  triggers    : SMap Nat := []
  offended    : List Nat := []
  clampActs   : SMap Nat := []
  hygroLast   : SMap (List Nat) := []
  writebacks  : SMap (List Writeback) := []
  reserveUsed : SMap (List Nat) := []
  symbolCount : SMap Nat := []
  symbolWires : SMap Nat := []
  viaWanted   : List (Nat × Nat × Nat) := []
  columns     : SMap Nat := []
  viaOrders   : List ViaOrder := []
  erasureOrders : List ErasureOrder := []
  rescue      : List Nat := []
  rowErrors   : SMap Nat := []
  proposals   : SMap (List Proposal) := []
  proposalsDropped : SMap Nat := []
  passStart   : SMap Nat := []
  passMinutes : SMap Nat := []
  merge       : SMap (List MergeEntry) := []
  room        : SMap RoomLine := []
  roomMru     : SMap Nat := []
  sparingWanted : List Nat := []
  rolesDue    : Option Nat := none
  retiring    : List (Nat × Option Nat) := []
  rowDue      : List (Nat × Nat) := []
  restored    : SMap Nat := []
  withdrawnBays : List Nat := []
  mergeStatus : SMap Bool := []
  mergeWaits  : SMap (List MergeReq) := []
  perf        : SMap Perf := []
  house       : SMap HouseRing := []
  out         : List (Nat × Msg) := []
  hostTag     : Nat := 0
  ledgerQueue : List LedgerReq := []
  ledgerWait  : List LedgerReq := []
  ledgerWriting : Option (LedgerReq × Bool) := none
  footInReset : Bool := false
  keks        : SMap (BitVec 256) := []
  vault       : SMap (BitVec 512) := []
  nextKeys    : SMap (BitVec 512) := []
  rekeying    : List Nat := []
  flushWait   : List Nat := []
  flushScope  : FlushScope := {}
  disableFlush : Option (Nat × Bool) := none
  circ        : SMap Circ := []
  inForce     : AllowSet := {}
  commit      : Option (AllowSet × Nat) := none
  loose       : LooseSet := {}
  looseNext   : List (Nat × LooseSet) := []
  tokens      : SMap BayTokens := []
  nextTokens  : Option (Nat × SMap BayTokens) := none
  recheck     : Bool := false
  spareCursor : SMap Nat := []
  binding     : SMap Nat := []
  index       : SMap (List IndexEntry) := []
  walkCache   : SMap (List WalkEntry) := []
  walks       : SMap Walk := []
  held        : List Held := []
  materialising : List Materialise := []
  fences      : List FenceReq := []
  forwards    : List Forward := []
  atomicsDone : List AtomicDone := []
  fwdTag      : Nat := 0
  cat         : Option CatCmd := none
  journal     : List CardWrite := []
  cardWaits   : List Msg := []
  jobCat      : Option (Nat × CatCmd) := none
  jobs        : SMap Job := []
  reshelvePending : Option Nat := none
  lfsr        : SMap Nat := []
  hostOps     : List HostOp := []
  rings       : SMap RingSide := []
  ints        : SMap IntSide := []
  trolleys    : SMap Work := []
  withdrawnTrolleys : List Nat := []
  groups      : SMap GroupSt := []
  serial      : Nat := 0
  rekeys      : List Rekey := []
  missCount   : SMap Nat := []
  lastMs      : Nat := 0
  lastBoundary : Nat := 0
  tbLost      : Bool := false
  laneRx      : SMap LaneRx := []
  laneTx      : SMap LaneTx := []
  training    : SMap Training := []
  links       : SMap LinkSt := []
  injLfsr     : SMap Nat := []
  urgency     : SMap Nat := []
  coll        : CollSt := {}
  clk         : ClkSt := {}
  flt         : FaultSt := {}
  pow         : PowerSt := {}
  test        : TestSt := {}
  therm       : ThermSt := {}
  start       : StartSt := {}
  mgmt        : MgmtSt := {}
  dwell       : SMap Nat := []
  stmt        : StmtSt := {}
  life        : LifeSt := {}
  deriving DecidableEq, Repr

/-- The state of the block. `mem` holds the DRAM of all seventeen levels, one cell per stored symbol: symbol s of physical line
`loc` at address 72 × loc + s. -/
structure State where
  fuses   : Fuses := {}
  layout  : Layout := {}
  mem     : List Host.Cell := []
  ledger  : Ledger := {}
  dev     : Dev := {}
  pending : List Instr := []
  deriving DecidableEq, Repr

/-- The value an unlisted DRAM symbol reads as: the power-on fill leaves every line the zero codeword (R149). -/
def memDefault : BitVec 8 := 0

/-- A register field given its value at reset where a fuse or the factory decides it. -/
def SMap.init (m : SMap Nat) (f : Field) (v : Nat) : SMap Nat := SMap.put f.reset m f.key v

/-- The fields whose reset value a fuse or the factory roles decide: DEV_ID, DEV_STACK and LEVEL[d].ROLE (R24: the shelves lie on the
other sixteen levels in ascending order), the port domains fused on the HJ-1664S-W (Table 17.14), the zones of the sensors. -/
def Fuses.fields (f : Fuses) : SMap Nat :=
  let m := [(F.DEV_ID_VARIANT, f.variantS.toNat), (F.DEV_ID_STEPPING, f.stepping), (F.DEV_STACK_FACTORY_RESERVE, f.factoryReserve),
    (F.DEV_STACK_CURRENT_RESERVE, f.factoryReserve)].foldl (fun m x => SMap.init m x.1 x.2) ([] : SMap Nat)
  let m := (List.range 17).foldl (fun m l =>
    [(F.LEVEL_ROLE_ROLE l, if l = f.factoryReserve then 1 else 0),
     (F.LEVEL_ROLE_SHELF l, if l = f.factoryReserve then F.LEVEL_ROLE_SHELF l |>.reset else if l < f.factoryReserve then l else l - 1),
     (F.LEVEL_ROLE_FACTORY_RESERVE l, if l = f.factoryReserve then 1 else 0)].foldl (fun m x => SMap.init m x.1 x.2) m) m
  let m := (List.range 218).foldl (fun m i => SMap.init m (F.THERM_SENSOR_ZONE i) (if i < 80 then i / 5 else if i < 216 then 16 + (i - 80) / 8 else 33)) m
  if f.variantS then
    (List.range 32).foldl (fun m i =>
      [(F.POWER_DOMAIN_STATE (32 + i), 3), (F.POWER_DOMAIN_WAKE_FLAG (32 + i), 0), (F.POWER_DOMAIN_ALIVE (32 + i), 0),
       (F.POWER_DOMAIN_FUSED (32 + i), 1)].foldl (fun m x => SMap.init m x.1 x.2) m) m
  else m

/-- The volatile state at reset. -/
def Fuses.dev (f : Fuses) : Dev := { fields := f.fields }

/-- The machine right after reset: nothing is listed in memory, the ledger holds no record, no command waits, and the cold start has
not begun. -/
def State.reset : State := { dev := ({} : Fuses).dev }


end Sys2Proof.Machine
end

