-- ==== Sys2Proof/Machine/Ops.lean ====
section
/-!
DEFINITION. The named operations over registers, memory and the fault line that every meaning uses.
-/

namespace Sys2Proof.Machine

open Sys2Proof

/-! ## Register fields (R11) -/

/-- The value of a register field. -/
def Dev.rd (d : Dev) (f : Field) : Nat := SMap.get f.reset d.fields f.key

/-- A register field set by the device; bits above its width are cut off. -/
def Dev.wr (d : Dev) (f : Field) (v : Nat) : Dev := { d with fields := SMap.put f.reset d.fields f.key (v % 2 ^ f.width) }

/-- Whether a one-bit field reads 1. -/
def Dev.flag (d : Dev) (f : Field) : Bool := d.rd f ≠ 0

/-- A one-bit field set to a truth value. -/
def Dev.put (d : Dev) (f : Field) (b : Bool) : Dev := d.wr f b.toNat

/-- A counter raised by `n`, saturating at its width. -/
def Dev.bumpBy (d : Dev) (f : Field) (n : Nat) : Dev := d.wr f (min (d.rd f + n) (2 ^ f.width - 1))

/-- A counter raised by 1, saturating at its width. -/
def Dev.bump (d : Dev) (f : Field) : Dev := d.bumpBy f 1

/-- Several fields set, in order. -/
def Dev.wrs (d : Dev) (l : List (Field × Nat)) : Dev := l.foldl (fun d fv => d.wr fv.1 fv.2) d

/-- A signed value as the bits of a field of width `w`. -/
def toField (w : Nat) (v : Int) : Nat := (v % (2 ^ w : Nat)).toNat

/-- The signed value of the bits of a field of width `w`. -/
def ofField (w : Nat) (n : Nat) : Int := if n < 2 ^ (w - 1) then (n : Int) else (n : Int) - (2 ^ w : Nat)

/-! ## The outcomes of a meaning -/

/-- A command that changes the device's volatile state alone. -/
def State.next (s : State) (f : Dev → Dev) : Host.Outcome State Fault Refusal := .next { s with dev := f s.dev }

/-- The device's volatile state replaced. -/
def State.withDev (s : State) (f : Dev → Dev) : State := { s with dev := f s.dev }

/-! ## Faults raised (R438) -/

/-- A fault event sent towards the registrar (R438); the registrar counts it when FAULT_EVENT takes it (log entry 5). -/
def Dev.raise (d : Dev) (t : FaultType) (source : Nat) (detail : List (Nat × Nat) := []) : Dev :=
  { d with raised := d.raised ++ [{ type := t.code, source := source, detail := packDetail detail }] }

/-- A fault raised where a condition holds. -/
def Dev.raiseIf (d : Dev) (c : Bool) (t : FaultType) (source : Nat) (detail : List (Nat × Nat) := []) : Dev :=
  if c then d.raise t source detail else d

/-! ## Free values -/

/-- A fresh value nobody can foresee, drawn by the counter. -/
def Dev.fresh (d : Dev) : BitVec 256 × Dev := (Config.freeBits d.freeCount, { d with freeCount := d.freeCount + 1 })

/-! ## Power domains (R419, R420) -/

/-- Whether a power domain is ON (Table 17.3) and not isolated for a spot check (R455). -/
def Dev.domainOn (d : Dev) (i : Nat) : Bool := d.rd (F.POWER_DOMAIN_STATE i) = 0 && d.flag (F.POWER_DOMAIN_ALIVE i)

/-- Whether a domain is isolated for a spot check while it stays powered (R455). -/
def Dev.underTest (d : Dev) (i : Nat) : Bool := d.rd (F.POWER_DOMAIN_STATE i) = 0 && !d.flag (F.POWER_DOMAIN_ALIVE i)

/-! ## Memory (R130, R149) -/

/-- The first symbol of a physical line. -/
def symAddr (loc : Nat) : Nat := loc * 72

/-- One symbol of the DRAM. -/
def State.readSym (s : State) (a : Nat) : BitVec 8 := SMap.get memDefault s.mem a

/-- A stored line (R130). -/
def readLine (m : List Host.Cell) (loc : Nat) : CodeWord :=
  codeWordOf ((List.range 72).map (fun j => (SMap.get memDefault m (symAddr loc + j)).toNat))

/-- A line stored (R130). -/
def writeLine (m : List Host.Cell) (loc : Nat) (w : CodeWord) : List Host.Cell :=
  (List.range 72).foldl (fun m j => SMap.put memDefault m (symAddr loc + j) (BitVec.ofNat 8 (CodeWord.sym w j))) m

/-! ## Level roles (R24, R37, R107) -/

/-- The physical level that holds a logical shelf; none where it has been retired with no reserve (R37, R288). -/
def Dev.levelOfShelf (d : Dev) (shelf : Nat) : Option Nat :=
  (List.range 17).find? (fun l => d.rd (F.LEVEL_ROLE_ROLE l) = 0 ∧ d.rd (F.LEVEL_ROLE_SHELF l) = shelf)

/-- The physical row behind a row field: logical rows pass through the spare-row remap, spare rows are named directly (R78). -/
def Dev.physRow (d : Dev) (shaft level bank row : Nat) : Nat :=
  if row < 6144 then
    match SMap.get 0 d.rowMap (rowKey shaft level bank row) with
    | 0 => row
    | j + 1 => 6144 + j
  else row

/-- The second home of a physical line whose row is being withdrawn and has been copied: the line in the spare row (Table 11.7,
Step 3). -/
def Dev.withdrawnCopy (d : Dev) (loc : Nat) : Option Nat :=
  let n := locShaft loc
  let l := locLevel loc
  let p : Shelf := SMap.get {} d.shelves (shelfKey n l)
  if p.wdOpen && p.wdCopied && p.wdBank = locBank loc && d.physRow n l p.wdBank p.wdRow = locRow loc then
    some (lineKey n l p.wdBank (6144 + p.wdSpare) (locLine loc))
  else none

/-- The memory with one line stored, in both rows while a withdrawal that has copied it is open. -/
def State.storeLine (s : State) (loc : Nat) (w : CodeWord) : State :=
  let m := writeLine s.mem loc w
  { s with mem := match s.dev.withdrawnCopy loc with
                  | some c => writeLine m c w
                  | none => m }

/-- The physical line of a DPA on the level that holds its shelf (R35, R37). -/
def State.locOf (s : State) (dpa : Nat) : Option Nat :=
  (s.dev.levelOfShelf (dpaShelf dpa)).map fun l =>
    let n := dpaShaft s.layout.shaftHash dpa
    lineKey n l (dpaBank dpa) (s.dev.physRow n l (dpaBank dpa) (dpaRow dpa)) (dpaLineInRow dpa)

/-- The DPA of a physical line: the inverse of R35 through the row remap and the level roles (R137). -/
def State.dpaOfLoc (s : State) (loc : Nat) : Nat :=
  let n := locShaft loc
  let l := locLevel loc
  let k := locBank loc
  let r := locRow loc
  let row := if r < 6144 then r
    else ((List.range 6144).find? (fun x => SMap.get 0 s.dev.rowMap (rowKey n l k x) = r - 6144 + 1)).getD 0
  dpaOf s.layout.shaftHash n (s.dev.rd (F.LEVEL_ROLE_SHELF l)) k row (locLine loc)

/-! ## Records of the shafts -/

/-- A shelf port. -/
def Dev.shelf (d : Dev) (sh : Nat) : Shelf := SMap.get {} d.shelves sh

/-- A shelf port changed. -/
def Dev.setShelf (d : Dev) (sh : Nat) (f : Shelf → Shelf) : Dev := { d with shelves := SMap.modify {} d.shelves sh f }

/-- A bank as its shelf port keeps it. -/
def Dev.bank (d : Dev) (k : Nat) : Bank := SMap.get {} d.banks k

/-- A bank changed. -/
def Dev.setBank (d : Dev) (k : Nat) (f : Bank → Bank) : Dev := { d with banks := SMap.modify {} d.banks k f }

/-- The bay's own copy of a bank's state (R81). -/
def Dev.bayBank (d : Dev) (k : Nat) : BankSt := SMap.get .idle d.bayBanks k

/-- The bay's own copy of a bank's state set (R81). -/
def Dev.setBayBank (d : Dev) (k : Nat) (st : BankSt) : Dev := { d with bayBanks := SMap.put .idle d.bayBanks k st }

/-- A shaft as its bay keeps it. -/
def Dev.shaft (d : Dev) (n : Nat) : Shaft := SMap.get {} d.shafts n

/-- A shaft changed. -/
def Dev.setShaft (d : Dev) (n : Nat) (f : Shaft → Shaft) : Dev := { d with shafts := SMap.modify {} d.shafts n f }

/-- OWED of a bank (R108). -/
def Dev.owedOf (d : Dev) (k : Nat) : Int := SMap.get 0 d.owed k

/-- OWED of a bank set (R108). -/
def Dev.setOwed (d : Dev) (k : Nat) (v : Int) : Dev := { d with owed := SMap.put 0 d.owed k v }

/-! ## Charges (R202 to R206) -/

/-- The place of a spent-slot count: bay, class and group. -/
def spentKey (bay cls grp : Nat) : Nat := (bay * 8 + cls) * 256 + grp

/-- Slots spent in the current lending period by a class and group at a bay. -/
def Dev.spentOf (d : Dev) (bay cls grp : Nat) : Nat := SMap.get 0 d.spent (spentKey bay cls grp)

end Sys2Proof.Machine
end

