-- ==== Sys2Proof/Machine/Host.lean ====
section
/-!
DEFINITION. What leaves the device: messages on links, writes to the house rings and house interrupts (R250, R251, R344 to
R346), and the event counters (R461 to R465), whose overflow in sampling mode writes a house record.
-/

namespace Sys2Proof.Machine

open Sys2Proof

/-- The number of a link: 4p + k (Table 18.1). -/
def linkNo (p k : Nat) : Nat := 4 * p + k

/-- A message handed to a link for sending. -/
def Dev.send (d : Dev) (link : Nat) (m : Msg) : Dev := { d with out := d.out ++ [(link, m)] }

/-- The slots a message takes (Table 13.3, Table 14.2). -/
def Msg.slots (m : Msg) : Nat :=
  match m.op with
  | 0x02 | 0x07 | 0x11 | 0x13 | 0x14 | 0x21 | 0x44 | 0x48 | 0x49 | 0x4C => 5
  | 0x03 | 0x22 | 0x41 | 0x45 => 6
  | 0x04 | 0x42 | 0x46 | 0x4B | 0x4D => 2
  | _ => 1

/-- The house link (Table 9.13). -/
def Dev.houseLink (d : Dev) : Nat := linkNo (d.rd F.HOUSE_LINK_PORT) (d.rd F.HOUSE_LINK_LINK)

/-- A host read or write sent on a link under the next tag, and kept until it is answered (R248, R352, R353). -/
def Dev.hostOp (d : Dev) (link patron : Nat) (purpose : HostFor) (lines : Nat) (m : Msg) : Dev :=
  let t := d.hostTag
  ({ d with hostTag := (t + 1) % 4096,
            hostOps := d.hostOps ++ [{ tag := t, link := link, patron := patron, purpose := purpose, addr := m.addr.toNat,
                                       lines := lines }] } : Dev).send link { m with tag := t, patron := patron }

/-- A HOST_RD of 1 to 8 lines (Table 13.4). -/
def Dev.hostRead (d : Dev) (link patron : Nat) (purpose : HostFor) (addr lines : Nat) : Dev :=
  d.hostOp link patron purpose lines { op := 0x20, arg := lines - 1, addr := BitVec.ofNat 64 addr }

/-- A host write of bytes within one line (R352): the whole line, or a masked write; `poison` is its POISON bit. -/
def hostWrite (addr bytes n : Nat) (poison : Bool := false) : Msg :=
  if n = 64 ∧ addr % 64 = 0 then
    { op := 0x21, arg := poison.toNat, addr := BitVec.ofNat 64 addr, data := BitVec.ofNat 512 bytes }
  else
    { op := 0x22, arg := poison.toNat, addr := BitVec.ofNat 64 (addr / 64 * 64),
      mask := BitVec.ofNat 64 ((2 ^ n - 1) * 2 ^ (addr % 64)), data := BitVec.ofNat 512 (bytes * 2 ^ (8 * (addr % 64))) }

/-! ## Interrupt messages (R246, R250) -/

/-- The place of the house interrupts among those of the patrons. -/
def houseInt : Nat := 4096

/-- An interrupt message with its cause mask (Table 13.6). -/
def Dev.interruptMsg (d : Dev) (k causes : Nat) : Dev :=
  if k = houseInt then
    d.send d.houseLink
      { op := 0x23, arg := causes, value := BitVec.ofNat 64 (d.rd F.HOUSE_INT_DATA_DATA),
        addr := BitVec.ofNat 64 (d.rd (F.HOUSE_INT_ADDR_ADDR 0) * 4 + 2 ^ 32 * d.rd (F.HOUSE_INT_ADDR_ADDR 1)) }
  else
    d.send (linkNo (d.rd (F.PATRON_HOST_LINK_PORT k)) (d.rd (F.PATRON_HOST_LINK_LINK k)))
      { op := 0x23, arg := causes, patron := k, value := BitVec.ofNat 64 (d.rd (F.INT_DATA_DATA k)),
        addr := BitVec.ofNat 64 (d.rd (F.INT_ADDR_LO_ADDR k) * 4 + 2 ^ 32 * d.rd (F.INT_ADDR_HI_ADDR k)) }

/-- HOLDOFF of a patron's interrupts (Table 9.2), or of the house interrupts (R250). -/
def Dev.holdoff (d : Dev) (k : Nat) : Nat :=
  if k = houseInt then d.rd (F.HOUSE_RING_CTL_HOLDOFF 2) else d.rd (F.RING_CTL_HOLDOFF k 4)

/-- Interrupt causes sent at once, or gathered while HOLDOFF of the previous message runs (R246). -/
def Dev.interrupt (d : Dev) (k causes : Nat) : Dev :=
  let i := SMap.get (α := IntSide) {} d.ints k
  if i.running then { d with ints := SMap.put (α := IntSide) {} d.ints k { i with causes := i.causes ||| causes } }
  else
    ({ d with ints := SMap.put (α := IntSide) {} d.ints k { running := decide (d.holdoff k ≠ 0) } } : Dev).interruptMsg k causes

/-- A house interrupt with one cause bit (R250). -/
def Dev.houseInterrupt (d : Dev) (cause : Nat) : Dev := d.interrupt houseInt (2 ^ cause)

/-- INTERRUPT_HOLDOFF_END (R246): HOLDOFF ends; gathered causes go out as one message, which starts the next HOLDOFF. -/
def Dev.holdoffEnd (d : Dev) (k : Nat) : Dev :=
  let i := SMap.get (α := IntSide) {} d.ints k
  let d := { d with ints := SMap.put (α := IntSide) {} d.ints k {} }
  if i.causes ≠ 0 then d.interrupt k i.causes else d

/-- A house ring's own record. -/
def Dev.houseRing (d : Dev) (r : Nat) : HouseRing := SMap.get {} d.house r

/-- A house ring's own record changed. -/
def Dev.setHouse (d : Dev) (r : Nat) (f : HouseRing → HouseRing) : Dev := { d with house := SMap.modify {} d.house r f }

/-- Bytes to an entry of a house ring (Table 9.12). -/
def houseEntryBytes (r : Nat) : Nat := if r = 2 then 32 else 64

/-- The host address of a house ring's header (R251). -/
def Dev.houseBase (d : Dev) (r : Nat) : Nat :=
  d.rd (F.HOUSE_RING_BASE_LO_BASE r) * 2 ^ 12 + d.rd (F.HOUSE_RING_BASE_HI_BASE r) * 2 ^ 32

/-- Entries of a house ring (Table 9.2). -/
def Dev.houseSize (d : Dev) (r : Nat) : Nat := 2 ^ d.rd (F.HOUSE_RING_CTL_SIZE r)

/-- Whether a house ring is full by the last consumer index known (R251); indices count modulo 65,536. -/
def Dev.houseFull (d : Dev) (r : Nat) : Bool :=
  decide (d.houseSize r - 1 ≤ (d.rd (F.HOUSE_RING_STATUS_INDEX r) + 65536 - (d.houseRing r).ci) % 65536)

/-- One record written to an ACTIVE house ring with room: the entry, then the header's producer index, LOST and time, and the
ring's interrupt under INT_ALL (R250, R251). -/
def Dev.houseStore (d : Dev) (r : Nat) (rec : BitVec 512) : Dev :=
  let pi := d.rd (F.HOUSE_RING_STATUS_INDEX r)
  let n := houseEntryBytes r
  let base := d.houseBase r
  let d := d.hostOp d.houseLink 0 (.house r) 0 (hostWrite (base + 64 + (pi % d.houseSize r) * n) rec.toNat n)
  let pi' := (pi + 1) % 65536
  let d := d.wr (F.HOUSE_RING_STATUS_INDEX r) pi'
  let h := d.houseRing r
  let d := d.hostOp d.houseLink 0 (.house r) 0
    { op := 0x22, addr := BitVec.ofNat 64 base, mask := 0xFFF3,
      data := BitVec.ofNat 512 (pi' + h.lost * 2 ^ 32 + d.time % 2 ^ 64 * 2 ^ 64) }
  if d.flag (F.HOUSE_RING_CTL_INT_ALL r) then d.houseInterrupt r else d

/-- A record that cannot be written: counted in LOST (R251); a Flaud reply goes back on its link instead (R351). -/
def Dev.houseDrop (d : Dev) (r : Nat) (rec : BitVec 512) (link : Nat) : Dev :=
  if r = 3 then
    (if d.rd (F.PORT_LINK_STATE (link / 4) (link % 4)) = 7 then
       d.send link { op := 0x13, tag := rec.toNat / 2 ^ 48 % 2 ^ 12, data := rec } else d)
  else d.setHouse r fun h => { h with lost := min (h.lost + 1) (2 ^ 32 - 1) }

/-- A record for a house ring: written, held while the header is read again or while the ring is PAUSED (log entry 16), or dropped
and counted in LOST (R251). Statements (ring 0) are never dropped here: their buffer holds them. -/
def Dev.houseRecord (d : Dev) (r : Nat) (rec : BitVec 512) (link : Nat := 0) : Dev :=
  let st := d.rd (F.HOUSE_RING_STATUS_STATE r)
  let hold := fun (d : Dev) =>
    if (d.houseRing r).held.length < 16 then d.setHouse r fun h => { h with held := h.held ++ [(rec, link)] }
    else d.houseDrop r rec link
  if st = 1 then
    if d.houseFull r ∨ (d.houseRing r).held ≠ [] then
      let d := if (d.houseRing r).reading ∨ 16 ≤ (d.houseRing r).held.length then d
        else (d.hostRead d.houseLink 0 (.header r) (d.houseBase r) 1).setHouse r fun h => { h with reading := true }
      hold d
    else d.houseStore r rec
  else if st = 2 then hold d
  else d.houseDrop r rec link

/-- Held records of an ACTIVE house ring written in order while it has room; fuel bounds them by the places that hold them. -/
def Dev.houseFlush (d : Dev) (r : Nat) : Nat → Dev
  | 0 => d
  | fuel + 1 =>
    match (d.houseRing r).held with
    | [] => d
    | rec :: rest =>
      if d.rd (F.HOUSE_RING_STATUS_STATE r) = 1 ∧ ¬ d.houseFull r then
        ((d.setHouse r fun h => { h with held := rest }).houseStore r rec.1).houseFlush r fuel
      else d

/-- The held records of a house ring that cannot be written dropped. -/
def Dev.houseDropHeld (d : Dev) (r : Nat) : Dev :=
  (d.houseRing r).held.foldl (fun d x => d.houseDrop r x.1 x.2) (d.setHouse r fun h => { h with held := [] })

/-! ## Event counters -/

/-- Whether a counter counts an event of a unit and a patron (R461, R462, R464, R465). -/
def Perf.counts (p : Perf) (c ev unit : Nat) (patron : Option Nat) : Bool :=
  p.en && (!p.chain || c = 0) && p.event == ev && ((unit ^^^ p.unit) &&& p.unitMask) == 0 &&
    (!p.patronEn || patron == some p.patron)

/-- The record of a counter overflow in sampling mode (R465, Table 19.4). -/
def overflowRecord (time c : Nat) (p : Perf) : BitVec 512 :=
  BitVec.ofNat 512 (2 + c * 2 ^ 16 + time % 2 ^ 64 * 2 ^ 64 +
    (p.event + p.en.toNat * 2 ^ 16 + p.patronEn.toNat * 2 ^ 17 + p.chain.toNat * 2 ^ 18 + p.leaf.toNat * 2 ^ 19
      + 2 ^ 20) * 2 ^ 128)

/-- One counter raised by 1; an overflow wraps it, sets OVF and chains onward or writes a sampling record (R464, R465). The
fuel bounds the chain by the number of counters. -/
def Dev.perfStep : Nat → Dev → Nat → Dev
  | 0, d, _ => d
  | fuel + 1, d, c =>
    let p := SMap.get (α := Perf) {} d.perf c
    if p.value + 1 < 2 ^ 48 then { d with perf := SMap.put (α := Perf) {} d.perf c { p with value := p.value + 1 } }
    else
      let d := { d with perf := SMap.put (α := Perf) {} d.perf c { p with value := 0, ovf := true } }
      let d := d.bump F.PERF_STATUS_OVERFLOWS
      if d.flag F.PERF_STATUS_SAMPLING then (d.houseRecord 1 (overflowRecord d.time c p)).houseInterrupt 1
      else
        let q := SMap.get (α := Perf) {} d.perf (c + 1)
        if c < 511 ∧ q.chain ∧ q.en then Dev.perfStep fuel d (c + 1) else d

/-- An event counted by every counter that selects it (R461); FREEZE stops them all (R463). -/
def Dev.count (d : Dev) (ev unit : Nat) (patron : Option Nat := none) : Dev :=
  if d.flag F.PERF_CTL_FREEZE then d
  else (d.perf.filter (fun cp => cp.2.counts cp.1 ev unit patron)).foldl (fun d cp => d.perfStep 512 cp.1) d

/-! ## Charges (R204, R205) -/

/-- `n` line slots charged at a bay to a class and group, counted by class (Table 8.22); A1 slots are spare slots. -/
def Dev.charge (d : Dev) (bay cls grp : Nat) (n : Nat := 1) : Dev :=
  let d := { d with spent := SMap.modify 0 d.spent (spentKey bay cls grp) (· + n) }
  let d := d.count (0x0500 + cls) bay
  if cls = 1 then d.count 0x0508 bay else d

end Sys2Proof.Machine
end

