-- ==== Sys2Proof/Machine/Flags.lean ====
section
/-!
DEFINITION. Parities, rounded quantities and the output pins the block computes from its state (R76, R79, R89, R104, R447).
-/

namespace Sys2Proof.Machine

open Sys2Proof

/-- The number of one bits of a word. -/
def popCount (n : Nat) : Nat → Nat
  | 0 => 0
  | w + 1 => (n.testBit w).toNat + popCount n w

/-- Whether a shaft word has an odd number of one bits (R76, R79). -/
def oddParity (w : BitVec 24) : Bool := popCount w.toNat 24 % 2 = 1

/-- A shaft word with its parity bit set for even parity (Tables 4.4, 4.6). -/
def withParity (w : Nat) : BitVec 24 :=
  if popCount w 23 % 2 = 1 then BitVec.ofNat 24 (w % 2 ^ 23 + 2 ^ 23) else BitVec.ofNat 24 (w % 2 ^ 23)

/-- The largest w of at most 16 bits with w^40 · 2^n at most 32000^40: 32,000 × 2^(−n/40) rounded down (R104). -/
def windowFloor (n : Nat) : Nat :=
  (List.range 16).foldl (fun acc i =>
    let c := acc + 2 ^ (15 - i)
    if c ^ 40 * 2 ^ n ≤ 32000 ^ 40 then c else acc) 0

/-- The refresh window in µs at a temperature in units of 0.25 °C (R104): 5,657 at 110 °C and above, where the spec gives the
rounded figure; elsewhere rounded down (log entry 6). -/
def refreshWindow (q : Int) : Nat :=
  if q ≤ 340 then 32000
  else if 440 ≤ q then 5657
  else windowFloor (q - 340).toNat

/-- The throttle factor in four-hundredths at a temperature in units of 0.25 °C (R89, R111). -/
def throttle400 (q : Int) : Nat :=
  if q ≤ 400 then 400 else if 440 ≤ q then 200 else (400 - 5 * (q - 400)).toNat

/-- The lending period in ns of a PERIOD code (R69, Table 8.8). -/
def periodNs (code : Nat) : Nat :=
  match code with
  | 0 => 500 | 1 => 1000 | 2 => 2000 | 3 => 4000 | _ => 8000

/-- The activation grant per bay and period at a throttle factor (R111). -/
def actGrant (period throttle : Nat) : Nat := 256 * period * throttle / 400000

/-- A value held between two limits. -/
def clampNat (lo hi v : Nat) : Nat := max lo (min hi v)

/-- A value where 0 is treated as 1. -/
def atLeastOne (v : Nat) : Nat := max v 1

end Sys2Proof.Machine
end

