-- ==== Sys2Proof/Machine/Operands.lean ====
section
/-!
DEFINITION. The operand forms of the shaft: command words (R77, R78, Tables 4.4, 4.5) and report words (R79, Table 4.6).
-/

namespace Sys2Proof.Machine

open Sys2Proof

/-- An ACT word (Table 4.4). -/
def actWord (level bank row : Nat) : BitVec 24 := withParity (2 ^ 22 + level * 2 ^ 17 + bank * 2 ^ 13 + row % 2 ^ 13)

/-- A word of the general form (Table 4.4). -/
def cmdWord (level bank op operand : Nat) : BitVec 24 :=
  withParity (level * 2 ^ 17 + bank * 2 ^ 13 + op * 2 ^ 9 + operand % 2 ^ 9)

/-- The fields of a received command word (Table 4.4). -/
structure CmdFields where
  isAct   : Bool
  level   : Nat
  bank    : Nat
  row     : Nat
  op      : Nat
  operand : Nat
  deriving DecidableEq, Repr

/-- A received command word taken apart (Table 4.4). -/
def cmdFields (w : BitVec 24) : CmdFields :=
  let n := w.toNat
  { isAct := n.testBit 22, level := n / 2 ^ 17 % 32, bank := n / 2 ^ 13 % 16, row := n % 2 ^ 13,
    op := n / 2 ^ 9 % 16, operand := n % 2 ^ 9 }

/-- The opcode, operand and reserved-bit rule of the general form (Table 4.5): whether the word breaks it. -/
def badOperand (op operand : Nat) : Bool :=
  match op with
  | 0x0 | 0x4 | 0xA => operand ≠ 0
  | 0x1 | 0x2 => decide (64 ≤ operand)
  | 0x3 | 0x6 => decide (2 ≤ operand)
  | 0x5 => decide (32 ≤ operand)
  | 0x7 => false
  | 0x8 => operand ≠ 288
  | 0x9 => decide (3 ≤ operand)
  | _ => true

/-- The code of a shelf state in reports and steward words (Tables 4.6, 4.11). -/
def ShelfSt.code : ShelfSt → Nat
  | .ready => 0 | .recovering => 1 | .selfRefresh => 2

/-- The shelf state of a reported code. -/
def ShelfSt.ofCode (n : Nat) : ShelfSt :=
  match n with
  | 1 => .recovering | 2 => .selfRefresh | _ => .ready

/-- The code of a bank state in steward block 0 (Table 4.11). -/
def BankSt.code : BankSt → Nat
  | .idle => 0 | .activating => 1 | .opened => 2 | .precharging => 3 | .refreshing => 4

/-- The code of an operation in steward block 0, word 2 (Table 4.11). -/
def BankOp.code : BankOp → Nat
  | .none => 0 | .act => 1 | .pre => 2 | .ref => 3 | .tref => 4

end Sys2Proof.Machine
end

