-- ==== Sys2Proof/Machine/Shaft.lean ====
section
/-!
DEFINITION. Shafts, shelves and the self-timed DRAM command set (chapter 4): command handshakes with parity, ALERTs and
reports, bank and shelf states, completion and handshake watchdogs, and calibration.
-/

namespace Sys2Proof.Machine

open Sys2Proof

/-! ## What a shelf port decides -/

/-- Whether the quadrant that powers a shelf port is ON (Table 17.2). -/
def Dev.portPowered (d : Dev) (shaft level : Nat) : Bool := d.domainOn (Dom.quadrant level (shaft / 16))

/-- Open claims of a shelf (R114). -/
def Dev.openClaims (d : Dev) (sh : Nat) : Nat := (d.claims.filter (fun kc => kc.1 / 32 = sh)).length

/-- The first empty claim slot of a shelf (R114). -/
def Dev.freeClaim (d : Dev) (sh : Nat) : Option Nat :=
  (List.range 32).find? (fun i => (d.claims.find? (fun kc => kc.1 = sh * 32 + i)).isNone)

/-- A claim by its slot number over all shelves. -/
def Dev.claimAt (d : Dev) (k : Nat) : Option Claim := (d.claims.find? (fun kc => kc.1 = k)).map (·.2)

/-- The grant the shelf port holds in the current period (R89, R92). -/
def Dev.portGrant (d : Dev) (level : Nat) : Nat := d.rd (F.ACT_GRANT_GRANT level)

/-- The cause with which the addressed port ALERTs a word of good parity, 0 where it accepts (R78, R81, R82, R92, R114, R115,
R128; Table 4.10). The order in which a port looks at several causes is the model's (log entry 7). -/
def Dev.portCause (d : Dev) (shaft level : Nat) (c : CmdFields) : Nat :=
  let sh := shelfKey shaft level
  let p := d.shelf sh
  let bk := d.bank (bankKey shaft level c.bank)
  if !c.isAct && badOperand c.op c.operand then 2
  else
    match p.st with
    | .recovering => if !c.isAct && (c.op = 0x4 || c.op = 0x0 || c.op = 0x7 || c.op = 0xA) then
        (if c.op = 0x4 && bk.st ≠ .idle then 3 else 0) else 5
    | .selfRefresh =>
        if !c.isAct && ((c.op = 0x6 && c.operand = 0) || c.op = 0x0 || c.op = 0x7 || c.op = 0xA) then 0 else 5
    | .ready =>
      if c.isAct then
        if 6208 ≤ c.row ∨ (6144 ≤ c.row ∧ ¬ (p.wdOpen ∧ p.wdBank = c.bank)) then 6
        else if bk.st ≠ .idle then 3
        else if 32 ≤ d.openClaims sh then 7
        else if d.portGrant level + 2 < p.acts + 1 then 4
        else 0
      else
        match c.op with
        | 0x1 | 0x2 => if bk.st = .opened then 0 else 3
        | 0x3 => if c.operand = 1 ∨ bk.st = .opened then 0 else 3
        | 0x4 => if bk.st = .idle then 0 else 3
        | 0x5 =>
          match d.claimAt (sh * 32 + c.operand) with
          | none => 2
          | some cl => if (d.bank (bankKey shaft level cl.bank)).st = .idle then 0 else 3
        | 0x6 =>
          if c.operand = 0 then 3
          else if (List.range 16).all (fun k => (d.bank (bankKey shaft level k)).st = .idle) then 0 else 3
        | _ => 0

/-! ## What a shelf port does when it executes -/

/-- The in-row count of an activated row: raised, and at 512 or on a bad count a claim is opened and the count starts again
(R112, R113, R114). -/
def Dev.countRow (d : Dev) (shaft level bank row : Nat) (bad : Bool) : Dev :=
  let sh := shelfKey shaft level
  let pr := d.physRow shaft level bank row
  let key := rowKey shaft level bank pr
  let n := SMap.get 0 d.rowCounts key
  let bad' := bad || decide (512 ≤ n)
  if !bad' && decide (n + 1 < 512) then { d with rowCounts := SMap.put 0 d.rowCounts key (n + 1) }
  else
    let d := { d with rowCounts := SMap.put 0 d.rowCounts key 0 }
    let d := if bad' then (d.bump (F.ROW_ACT_COUNT_PARITY level)).raise .rowCountParity (Src.level level) else d
    match d.freeClaim sh with
    | none => d
    | some i =>
      let cl : Claim := { bank := bank, row := row, lower := (Config.lowerNeighbour pr).toNat,
                          upper := (Config.upperNeighbour pr).toNat }
      let d := { d with claims := SMap.insert (sh * 32 + i) cl d.claims }
      (d.bump (F.ROW_ACT_TRIGGERS level)).setShelf sh fun p => { p with claimNew := true }

/-- A claim closed (R114). -/
def Dev.closeClaim (d : Dev) (k : Nat) : Dev := { d with claims := SMap.erase k d.claims }

/-- An entry put into a shaft's transfer order (R73). -/
def Dev.pushXfer (d : Dev) (shaft : Nat) (x : Xfer) : Dev := d.setShaft shaft fun s => { s with order := s.order ++ [x] }

/-- Four rows of the bank's refresh counter refreshed: their counts cleared, the counter moved on (R107, R112). -/
def Dev.walkRows (d : Dev) (shaft level bank : Nat) : Dev :=
  let k := bankKey shaft level bank
  let r := SMap.get 0 d.refreshCtr k
  let d := (List.range 4).foldl
    (fun d i => { d with rowCounts := SMap.put 0 d.rowCounts (rowKey shaft level bank ((r + i) % 6208)) 0 }) d
  { d with refreshCtr := SMap.put 0 d.refreshCtr k ((r + 4) % 6208) }

/-- What goes with a command beside its word: the request's class, group and patron, whether it is a shelf-reading read, the
word SRW writes, and whether the activated row's count reads with bad parity (R98, R112, R117). -/
structure CmdExtra where
  cls      : Nat := 0
  grp      : Nat := 0
  patron   : Nat := 0
  scrub    : Bool := false
  data     : BitVec 32 := 0
  countBad : Bool := false
  deriving DecidableEq, Repr

/-- A bank put into an operation (Table 4.7). -/
def Dev.startBank (d : Dev) (k : Nat) (st : BankSt) (op : BankOp) : Dev :=
  d.setBank k fun b => { b with st := st, op := op }

/-- The effect of an accepted command at the shelf port (Tables 4.5, 4.7). -/
def Dev.portExecute (d : Dev) (shaft level : Nat) (c : CmdFields) (x : CmdExtra) : Dev :=
  let sh := shelfKey shaft level
  let k := bankKey shaft level c.bank
  if c.isAct then
    let d := d.setBank k fun _ => { st := .activating, row := c.row, written := false, op := .act }
    let d := d.setShelf sh fun p => { p with acts := p.acts + 1 }
    d.countRow shaft level c.bank c.row x.countBad
  else
    match c.op with
    | 0x1 => d.pushXfer shaft { level := level, bank := c.bank, row := (d.bank k).row, line := c.operand % 32,
                                kind := .read, ap := c.operand.testBit 5, cls := x.cls, grp := x.grp, patron := x.patron,
                                scrub := x.scrub }
    | 0x2 => d.pushXfer shaft { level := level, bank := c.bank, row := (d.bank k).row, line := c.operand % 32,
                                kind := .write, ap := c.operand.testBit 5, cls := x.cls, grp := x.grp }
    | 0x3 =>
      if c.operand = 1 then
        (List.range 16).foldl (fun d i =>
          let ki := bankKey shaft level i
          if (d.bank ki).st = .opened then d.startBank ki .precharging .pre else d) d
      else d.startBank k .precharging .pre
    | 0x4 =>
      let d := d.setOwed k (max (-8) (d.owedOf k - 1))
      (d.walkRows shaft level c.bank).startBank k .refreshing .ref
    | 0x5 =>
      match d.claimAt (sh * 32 + c.operand) with
      | none => d
      | some cl => (d.closeClaim (sh * 32 + c.operand)).startBank (bankKey shaft level cl.bank) .refreshing .tref
    | 0x6 =>
      if c.operand = 1 then
        let d := { d with claims := d.claims.filter (fun kc => kc.1 / 32 ≠ sh) }
        d.setShelf sh fun p => { p with st := .selfRefresh }
      else
        let d := (List.range 16).foldl (fun d i => d.setOwed (bankKey shaft level i) 0) d
        d.setShelf sh fun p => { p with st := .ready, done := 0xFFFF }
    | 0x7 => d.pushXfer shaft { level := level, bank := 0, row := 0, line := 0, kind := .srr, word := c.operand }
    | 0x8 => d.pushXfer shaft { level := level, bank := 0, row := 0, line := 0, kind := .srw, word := c.operand, data := x.data }
    | 0x9 =>
      if c.operand = 1 then d.pushXfer shaft { level := level, bank := c.bank, row := 0, line := 0, kind := .calWrite, cls := 7 }
      else if c.operand = 2 then
        d.pushXfer shaft { level := level, bank := c.bank, row := 0, line := 0, kind := .calRead, cls := 7 }
      else d
    | 0xA => d.setShaft shaft fun s => { s with order := s.order.filter (fun e => e.level ≠ level) }
    | _ => d

/-! ## Reports -/

/-- Whether CLAIM is set: a bank owes a refresh or a targeted-refresh claim is open (R108). -/
def Dev.claimBit (d : Dev) (shaft level : Nat) : Bool :=
  (List.range 16).any (fun k => decide (1 ≤ d.owedOf (bankKey shaft level k))) ||
    decide (0 < d.openClaims (shelfKey shaft level))

/-- The report word of a shelf port (Table 4.6). -/
def Dev.reportWord (d : Dev) (shaft level : Nat) : BitVec 24 :=
  let p := d.shelf (shelfKey shaft level)
  withParity (p.done.toNat + p.fault.toNat * 2 ^ 16 + (d.claimBit shaft level).toNat * 2 ^ 17 + p.st.code * 2 ^ 18
    + p.grantChanged.toNat * 2 ^ 20)

/-- The bay's model of a bank after its DONE bit (Table 4.7). -/
def BankSt.afterDone : BankSt → BankSt
  | .activating => .opened
  | .opened => .opened
  | _ => .idle

/-- The bay's bank states rebuilt from steward block 0 (R79, R88). -/
def Dev.rebuildBay (d : Dev) (shaft level : Nat) : Dev :=
  (List.range 16).foldl (fun d i =>
    let k := bankKey shaft level i
    d.setBayBank k (d.bank k).st) d

/-- A report delivered to the bay, with the bits that flipped on the way (R79): the port has sent its DONE bits; a word with
odd parity is discarded, counted, and the bay rebuilds the shelf's bank states from steward block 0. -/
def Dev.deliverReport (d : Dev) (shaft level : Nat) (up : BitVec 24) : Dev :=
  let sh := shelfKey shaft level
  let w := d.reportWord shaft level ^^^ up
  let d := d.setShelf sh fun p => { p with done := 0, fault := false, grantChanged := false, claimNew := false }
  if oddParity w then
    let d := (d.bump (F.SHAFT_ALERTS_REPORT_PARITY shaft)).raise .reportParity (Src.bay shaft)
    d.rebuildBay shaft level
  else
    let n := w.toNat
    let d := (List.range 16).foldl (fun d i =>
      let k := bankKey shaft level i
      if n.testBit i then d.setBayBank k (d.bayBank k).afterDone else d) d
    d.setShelf sh fun p =>
      { p with baySt := ShelfSt.ofCode (n / 2 ^ 18 % 4),
               grantBayNext := if n.testBit 20 then SMap.get (d.portGrant level) d.grantNext level else p.grantBayNext }

/-! ## The handshake -/

/-- The bay's copies after an ACCEPT of the word it sent (R81, R91, R109, R117). -/
def Dev.bayAccepted (d : Dev) (shaft level : Nat) (c : CmdFields) (x : CmdExtra) : Dev :=
  let sh := shelfKey shaft level
  let k := bankKey shaft level c.bank
  let d := d.setShaft shaft fun s => { s with alerted := none, parityRun := none, stalled := none }
  if c.isAct then
    let d := (d.setBayBank k .activating).setShelf sh fun p => { p with bayActs := p.bayActs + 1 }
    let d := { d with clampActs := SMap.modify 0 d.clampActs (shaft * 4096 + x.patron) (· + 1) }
    d.setShaft shaft fun s =>
      { s with hist := ({ level := level, bank := c.bank, row := c.row, patron := x.patron } :: s.hist).take 512 }
  else
    match c.op with
    | 0x1 | 0x2 => d.charge shaft x.cls x.grp
    | 0x3 =>
      if c.operand = 1 then
        (List.range 16).foldl (fun d i =>
          let ki := bankKey shaft level i
          if d.bayBank ki = .opened then d.setBayBank ki .precharging else d) d
      else d.setBayBank k .precharging
    | 0x4 => (d.setBayBank k .refreshing).charge shaft 3 0
    | 0x5 => d.charge shaft 3 0
    | _ => d

/-- What the bay does about an ALERT (R88, Table 4.10): the first leaves the command to be re-issued; on the second the bay
reads ALERT_CAUSE and acts on it. -/
def Dev.bayAlerted (d : Dev) (shaft level : Nat) (w : BitVec 24) (cause : Nat) : Dev :=
  let d := d.bump (F.SHAFT_ALERTS_ALERTS shaft)
  let d :=
    if cause = 1 then
      if (d.shaft shaft).parityRun = some level then
        (d.raise .cmdAlertRepeat (Src.bay shaft)).setShaft shaft fun s => { s with parityRun := none }
      else d.setShaft shaft fun s => { s with parityRun := some level }
    else d
  if (d.shaft shaft).alerted = some w then
    let d := d.setShaft shaft fun s => { s with alerted := none }
    match cause with
    | 2 | 4 | 6 => d.raise .shaftProtocol (Src.bay shaft)
    | 3 => (d.raise .shaftProtocol (Src.bay shaft)).rebuildBay shaft level
    | 5 => d.setShelf (shelfKey shaft level) fun p => { p with baySt := p.st }
    | _ => d
  else d.setShaft shaft fun s => { s with alerted := some w }

/-- A shelf port that ALERTs (R76, R82, R92, R115): it keeps the cause for steward block 0 and its level counts it. -/
def Dev.portAlert (d : Dev) (shaft level cause : Nat) : Dev :=
  let d := d.setShelf (shelfKey shaft level) fun p => { p with alertCause := cause }
  match cause with
  | 1 => (d.bump (F.CMD_STATUS_PARITY_ALERTS level)).raise .cmdParity (Src.level level)
  | 4 => d.bump (F.CMD_STATUS_TOKEN_ALERTS level)
  | 7 => (d.bump (F.REFRESH_FAULTS_TREF_BACKLOG level)).raise .trefBacklog (Src.level level)
  | _ => d

/-- One command handshake (R75, R76, R79): the word goes down with the bits that flip on the way; bad parity or an illegal
command is ALERTed and nothing executes; an accepted command executes and its report comes up. A word that no powered port
answers leaves everything as it was (the command watchdog, CMD_STALL, ends it). -/
def Dev.handshake (d : Dev) (shaft level : Nat) (w : BitVec 24) (noise : Noise) (x : CmdExtra) : Dev :=
  let r := w ^^^ noise.down
  let c := cmdFields r
  if oddParity r then
    let ports := (List.range 17).filter (fun l => d.portPowered shaft l && (l = c.level || decide (17 ≤ c.level)))
    if ports = [] then d
    else (ports.foldl (fun d l => d.portAlert shaft l 1) d).bayAlerted shaft level w 1
  else if 17 ≤ c.level ∨ ¬ d.portPowered shaft c.level then d
  else
    let cause := d.portCause shaft c.level c
    if cause ≠ 0 then (d.portAlert shaft c.level cause).bayAlerted shaft level w cause
    else ((d.portExecute shaft c.level c x).bayAccepted shaft level (cmdFields w) x).deliverReport shaft c.level noise.up

/-- Whether a bay drives a shaft at all: not where the pair is LOST (R41). -/
def Dev.shaftDriven (d : Dev) (shaft : Nat) : Bool := d.rd (F.TWIN_STATUS_MODE shaft) ≠ 3

/-- Whether the shaft's transfer order has room: the bay issues no data-moving command while 32 are outstanding (R73). -/
def Dev.orderRoom (d : Dev) (shaft : Nat) : Bool := decide ((d.shaft shaft).order.length < 32)

/-- The clamp on a patron's activations, if one is ACTIVE (R119). -/
def Dev.clamped (d : Dev) (patron : Nat) : Bool :=
  (List.range 16).any (fun i => d.flag (F.ROW_ACT_CLAMP_ACTIVE i) && d.rd (F.ROW_ACT_CLAMP_PATRON i) = patron)

/-- Whether the bay may issue an ACT: it holds a token for the level (R91), and a clamped patron's ACTs of the period stay
below CLAMP_LIMIT (R119). -/
def Dev.actAllowed (d : Dev) (shaft level patron : Nat) : Bool :=
  let p := d.shelf (shelfKey shaft level)
  decide (p.bayActs < p.grantBay) &&
    (!d.clamped patron || decide (SMap.get 0 d.clampActs (shaft * 4096 + patron) < d.rd F.ROW_ACT_CTL_CLAMP_LIMIT))

/-- A command of the general form, sent where the bay drives the shaft. -/
def Dev.general (d : Dev) (shaft level bank op operand : Nat) (noise : Noise) (x : CmdExtra := {}) : Dev :=
  if d.shaftDriven shaft then d.handshake shaft level (cmdWord level bank op operand) noise x else d

/-- A data-moving command: it waits while the transfer order is full (R73). -/
def Dev.moving (d : Dev) (shaft level bank op operand : Nat) (noise : Noise) (x : CmdExtra := {}) : Dev :=
  if d.orderRoom shaft then d.general shaft level bank op operand noise x else d

/-! ## The commands -/

/-- ACT (R78): the bay holds it back without a token (R91). -/
def execAct (shaft : Fin 64) (level : Fin 17) (bank : Fin 16) (row : BitVec 13) (patron : Fin 4096) (countBad : Bool)
    (noise : Noise) (s : State) : Host.Outcome State Fault Refusal :=
  s.next fun d =>
    if d.shaftDriven shaft && d.actAllowed shaft level patron then
      d.handshake shaft level (actWord level bank row.toNat) noise { patron := patron, countBad := countBad }
    else d

/-- PING (R79): nothing but a report. -/
def execPing (shaft : Fin 64) (level : Fin 17) (noise : Noise) (s : State) : Host.Outcome State Fault Refusal :=
  s.next fun d => d.general shaft level 0 0x0 0 noise

/-- RD (R73): the line and AP of Table 4.5; CLOSED_PAGE makes every RD carry AP (R98). -/
def execRd (shaft : Fin 64) (level : Fin 17) (bank : Fin 16) (line : Fin 32) (ap : Bool) (cls : Fin 8) (grp : Fin 256)
    (patron : Fin 4096) (scrub : Bool) (noise : Noise) (s : State) : Host.Outcome State Fault Refusal :=
  s.next fun d =>
    let ap' := ap || d.flag (F.SHAFT_CTL_CLOSED_PAGE shaft)
    d.moving shaft level bank 0x1 (line + ap'.toNat * 32) noise { cls := cls, grp := grp, patron := patron, scrub := scrub }

/-- WR (R73): as RD, towards the level. -/
def execWr (shaft : Fin 64) (level : Fin 17) (bank : Fin 16) (line : Fin 32) (ap : Bool) (cls : Fin 8) (grp : Fin 256)
    (noise : Noise) (s : State) : Host.Outcome State Fault Refusal :=
  s.next fun d =>
    let ap' := ap || d.flag (F.SHAFT_CTL_CLOSED_PAGE shaft)
    d.moving shaft level bank 0x2 (line + ap'.toNat * 32) noise { cls := cls, grp := grp }

/-- PRE of one bank, or of all 16 with bank field 0 (R81). -/
def execPre (shaft : Fin 64) (level : Fin 17) (bank : Fin 16) (all : Bool) (noise : Noise) (s : State) :
    Host.Outcome State Fault Refusal :=
  s.next fun d => d.general shaft level (if all then 0 else bank) 0x3 all.toNat noise

/-- REF (R107). -/
def execRef (shaft : Fin 64) (level : Fin 17) (bank : Fin 16) (noise : Noise) (s : State) :
    Host.Outcome State Fault Refusal :=
  s.next fun d => d.general shaft level bank 0x4 0 noise

/-- TREF of a claim slot (R114); the bay knows the claim's bank from SRR. -/
def execTref (shaft : Fin 64) (level : Fin 17) (claim : BitVec 9) (noise : Noise) (s : State) :
    Host.Outcome State Fault Refusal :=
  s.next fun d =>
    let bank := match d.claimAt (shelfKey shaft level * 32 + claim.toNat) with
      | some cl => cl.bank
      | none => 0
    d.general shaft level bank 0x5 claim.toNat noise

/-- SREF enter (R82). -/
def execSrefEnter (shaft : Fin 64) (level : Fin 17) (noise : Noise) (s : State) : Host.Outcome State Fault Refusal :=
  s.next fun d => d.general shaft level 0 0x6 1 noise

/-- SREF exit (R82, R125): OWED of every bank becomes 0. -/
def execSrefExit (shaft : Fin 64) (level : Fin 17) (noise : Noise) (s : State) : Host.Outcome State Fault Refusal :=
  s.next fun d => d.general shaft level 0 0x6 0 noise

/-- SRR (R128). -/
def execSrr (shaft : Fin 64) (level : Fin 17) (word : BitVec 9) (noise : Noise) (s : State) :
    Host.Outcome State Fault Refusal :=
  s.next fun d => d.moving shaft level 0 0x7 word.toNat noise

/-- SRW (R294): only word 288 is writable; the port ALERTs any other with cause 2. -/
def execSrw (shaft : Fin 64) (level : Fin 17) (word : BitVec 9) (data : Word) (noise : Noise) (s : State) :
    Host.Outcome State Fault Refusal :=
  s.next fun d => d.moving shaft level 0 0x8 word.toNat noise { data := data }

/-- CAL mode 0 (R94): the echo takes no place in the transfer order; its result enters by CAL_FULL_PASS. A column of group 9 that
the echo finds failing is passed to the registrar as wire 288 + its number (R289). -/
def execCalEcho (shaft : Fin 64) (level : Fin 17) (dead : Option (Fin 32)) (noise : Noise) (s : State) :
    Host.Outcome State Fault Refusal :=
  s.next fun d =>
    let d := d.general shaft level 0 0x9 0 noise
    match dead with
    | some c => { d with viaWanted := d.viaWanted ++ [(shaft.val, 288 + c.val, level.val)] }
    | none => d

/-- CAL mode 1 (R94). -/
def execCalWritePattern (shaft : Fin 64) (level : Fin 17) (noise : Noise) (s : State) :
    Host.Outcome State Fault Refusal :=
  s.next fun d => d.moving shaft level 0 0x9 1 noise

/-- CAL mode 2 (R94). -/
def execCalReadPattern (shaft : Fin 64) (level : Fin 17) (noise : Noise) (s : State) : Host.Outcome State Fault Refusal :=
  s.next fun d => d.moving shaft level 0 0x9 2 noise

/-- SYNC (R86). -/
def execSync (shaft : Fin 64) (level : Fin 17) (noise : Noise) (s : State) : Host.Outcome State Fault Refusal :=
  s.next fun d => d.general shaft level 0 0xA 0 noise

/-! ## Completions (R81, R83, R84) -/

/-- A bank done: its state, and its DONE bit for the next report. -/
def Dev.bankDone (d : Dev) (shaft level bank : Nat) (st : BankSt) : Dev :=
  let d := d.setBank (bankKey shaft level bank) fun b =>
    { b with st := st, op := .none, row := if st = .idle then 0 else b.row, written := if st = .idle then false else b.written }
  d.setShelf (shelfKey shaft level) fun p => { p with done := p.done ||| (1#16 <<< bank) }

/-- A completion watchdog that fires (R83): FAULT set, with its bank and operation. -/
def Dev.bankFault (d : Dev) (shaft level bank op : Nat) : Dev :=
  d.setShelf (shelfKey shaft level) fun p => { p with fault := true, faultBank := bank, faultOp := op }

/-- A completion checked against its floor (R83). -/
def Dev.checkFloor (d : Dev) (shaft level bank : Nat) (op : BankOp) (floor ns : Nat) : Dev :=
  if ns < floor then (d.bankFault shaft level bank op.code).raise .completionEarly (Src.level level) else d

/-- ACTIVATION_COMPLETE (R81, R83, R84): ACTIVATING becomes OPEN; under 8 ns is early, over 40 ns is counted as slow. -/
def execActivationComplete (shaft : Fin 64) (level : Fin 17) (bank : Fin 16) (ns : Nat) (s : State) :
    Host.Outcome State Fault Refusal :=
  s.next fun d =>
    if (d.bank (bankKey shaft level bank)).st = .activating then
      let d := d.checkFloor shaft level bank .act 8 ns
      let d := d.raiseIf (decide (40 < ns)) .actSlow (Src.level level)
      d.bankDone shaft level bank .opened
    else d

/-- PRECHARGE_COMPLETE (R81, R83): PRECHARGING becomes IDLE; the floor is 6 ns for a written row and 4 ns for a clean one. -/
def execPrechargeComplete (shaft : Fin 64) (level : Fin 17) (bank : Fin 16) (ns : Nat) (s : State) :
    Host.Outcome State Fault Refusal :=
  s.next fun d =>
    let b := d.bank (bankKey shaft level bank)
    if b.st = .precharging then
      (d.checkFloor shaft level bank .pre (if b.written then 6 else 4) ns).bankDone shaft level bank .idle
    else d

/-- REFRESH_COMPLETE (R81, R83): REFRESHING becomes IDLE; the floor is 24 ns for REF and 12 ns for TREF. -/
def execRefreshComplete (shaft : Fin 64) (level : Fin 17) (bank : Fin 16) (ns : Nat) (s : State) :
    Host.Outcome State Fault Refusal :=
  s.next fun d =>
    let b := d.bank (bankKey shaft level bank)
    if b.st = .refreshing then
      (d.checkFloor shaft level bank b.op (if b.op = .tref then 12 else 24) ns).bankDone shaft level bank .idle
    else d

/-- COMPLETION_FORCED (R81): an operation not complete 1 µs after its ACCEPT ends IDLE by the port's own precharge. -/
def execCompletionForced (shaft : Fin 64) (level : Fin 17) (bank : Fin 16) (s : State) :
    Host.Outcome State Fault Refusal :=
  s.next fun d =>
    let b := d.bank (bankKey shaft level bank)
    if b.st = .activating ∨ b.st = .precharging ∨ b.st = .refreshing then
      (d.bankFault shaft level bank 5).bankDone shaft level bank .idle
    else d

/-- COMPLETION_LATE (R83): the ceiling is passed while the bay still waits for the bank's DONE bit; it keeps the bank busy. -/
def execCompletionLate (shaft : Fin 64) (level : Fin 17) (bank : Fin 16) (s : State) : Host.Outcome State Fault Refusal :=
  s.next fun d =>
    let st := d.bayBank (bankKey shaft level bank)
    d.raiseIf (st = .activating || st = .precharging || st = .refreshing) .completionLate (Src.bay shaft)

/-! ## Handshake watchdogs (R86, R87) -/

/-- CMD_STALL (R86): the bay ends the handshake and re-issues the command once; a second stall on the same level is a fault of
that level. A stall at the fall of CREQ is taken as an ALERT, and the bay reads steward block 0. -/
def execCmdStall (shaft : Fin 64) (level : Fin 17) (atFall : Bool) (s : State) : Host.Outcome State Fault Refusal :=
  s.next fun d =>
    let d := d.raise .cmdStall (Src.bay shaft)
    let d :=
      if (d.shaft shaft).stalled = some level.val then
        (d.raise .cmdStall (Src.level level)).setShaft shaft fun t => { t with stalled := none }
      else d.setShaft shaft fun t => { t with stalled := some level.val }
    if atFall then (d.bump (F.SHAFT_ALERTS_ALERTS shaft)).rebuildBay shaft level else d

/-- SYNC on a beat stall (R86): the shelf's entries are re-issued in their former order, marked. -/
def Dev.reissue (d : Dev) (shaft level : Nat) : Dev :=
  d.setShaft shaft fun s =>
    { s with order := s.order.filter (fun e => e.level ≠ level) ++
               (s.order.filter (fun e => e.level = level)).map (fun e => { e with retried := true }) }

/-! ## Polling (R80, R85) -/

/-- Whether a shelf holds something unreported (R80). -/
def Shelf.attention (p : Shelf) : Bool := p.claimNew || p.fault || p.grantChanged

/-- ATTN (R71, R80): high while any powered shelf port of the shaft holds an unreported claim, fault or grant change. -/
def Dev.attn (d : Dev) (shaft : Nat) : Bool :=
  (List.range 17).any (fun l => d.portPowered shaft l && (d.shelf (shelfKey shaft l)).attention)

/-- ATTN_POLL (R80): while ATTN is high, the bay addresses every level, with PING where it has nothing else to send. -/
def execAttnPoll (shaft : Fin 64) (s : State) : Host.Outcome State Fault Refusal :=
  s.next fun d =>
    if d.attn shaft then
      (List.range 17).foldl (fun d l => d.general shaft l 0 0x0 0 { down := 0, up := 0 }) d
    else d

/-- BUSY_BANK_POLL (R85): while the bay holds a bank of the shelf busy, it addresses the shelf. -/
def execBusyBankPoll (shaft : Fin 64) (level : Fin 17) (s : State) : Host.Outcome State Fault Refusal :=
  s.next fun d =>
    if (List.range 16).any (fun k =>
        let st := d.bayBank (bankKey shaft level k)
        st = .activating || st = .precharging || st = .refreshing) then
      d.general shaft level 0 0x0 0 { down := 0, up := 0 }
    else d

/-! ## Calibration (R93 to R96) -/

/-- The calibrated delays of a shaft: 0 command, 1 acknowledge settle, then per level write, read capture, report capture
(R93); the codes of the twin path follow those of the 64 shafts. -/
def calKey (shaft i : Nat) : Nat := shaft * 64 + i

/-- The final code of a smallest passing code (R93): 1.20 times it, rounded up, plus one; 63 at 52 and above. -/
def calCode (smallest : Nat) : Nat := if 52 ≤ smallest then 63 else (6 * smallest + 4) / 5 + 1

/-- The level and delay number of CAL_MARGIN for a delay (R93, Table 18.4a): the command and settle delays are set for the
farthest level, LV00. -/
def calItem (i : Nat) : Nat × Nat := if i < 2 then (0, i) else ((i - 2) / 3, 2 + (i - 2) % 3)

/-- CAL_FULL_PASS (R93, R94, R96, R61): every delay of the shaft and of the bay's twin path set from the smallest passing
codes found; CAL_MARGIN where one is 52 or more; the beat rate measured, SHAFT_BELOW_FLOOR below 3,200 MT/s. The lists give
the 53 smallest passing codes; a place they do not give keeps code 63. -/
def execCalFullPass (shaft : Fin 64) (smallest : List Nat) (beatRate : Nat) (twinSmallest : List Nat) (s : State) :
    Host.Outcome State Fault Refusal :=
  s.next fun d =>
    let d := (List.range 53).foldl (fun d i =>
      let c := smallest.getD i 63
      let d := { d with calCodes := SMap.put 63 d.calCodes (calKey shaft i) (calCode c) }
      let it := calItem i
      d.raiseIf (decide (52 ≤ c)) .calMargin (Src.level it.1) [(it.2, 3)]) d
    let d := (List.range 53).foldl (fun d i =>
      { d with calCodes := SMap.put 63 d.calCodes (calKey (64 + shaft) i) (calCode (twinSmallest.getD i 63)) }) d
    let d := d.wrs [(F.SHAFT_STATUS_CALIBRATED shaft, 1), (F.SHAFT_STATUS_CAL_RUNNING shaft, 0),
      (F.SHAFT_STATUS_BEAT_RATE shaft, min beatRate 4095), (F.SHAFT_CTL_CAL_START shaft, 0)]
    let d := d.put (F.SHAFT_STATUS_BELOW_FLOOR shaft) (decide (beatRate < 3200))
    let d := d.charge shaft 7 0 1600
    d.raiseIf (decide (beatRate < 3200)) .shaftBelowFloor (Src.bay shaft)

/-- CAL_START (R94): the write schedules a full pass at the next boundary; the bit reads 1 until the pass begins. -/
def execCalStart (bay : Fin 64) (s : State) : Host.Outcome State Fault Refusal :=
  s.next fun d => d.wr (F.SHAFT_CTL_CAL_START bay) 1

/-- CAL_TRACKING_PASS (R95): each tested code moves by at most one step; a code that fails is raised by four steps, counted as
CAL_SLIP, and the bay starts a full pass. -/
def execCalTrackingPass (shaft : Fin 64) (results : List (Nat × TrackResult)) (s : State) :
    Host.Outcome State Fault Refusal :=
  s.next fun d =>
    let d := d.charge shaft 7 0 136
    results.foldl (fun d r =>
      let k := calKey shaft r.1
      let c := SMap.get 63 d.calCodes k
      let set := fun (d : Dev) (v : Nat) => { d with calCodes := SMap.put 63 d.calCodes k v }
      if 53 ≤ r.1 then d
      else
        match r.2 with
        | .down => set d (c - 1)
        | .hold => d
        | .up => set d (min 63 (c + 1))
        | .failed =>
          let d := set d (min 63 (c + 4))
          let d := (d.bump (F.SHAFT_STATUS_CAL_SLIPS shaft)).raise .calSlip (Src.bay shaft)
          d.wr (F.SHAFT_STATUS_CAL_RUNNING shaft) 1) d

end Sys2Proof.Machine
end

