-- ==== Sys2Proof/Machine/Line.lean ====
section
/-!
DEFINITION. Line integrity (chapter 6): decoding of a line read from a shaft with everything that follows from its outcome,
correction write-backs and poison conversions, row-withdrawal proposals, and the merge buffer.
-/

namespace Sys2Proof.Machine

open Sys2Proof

/-! ## Where a shaft's commands come from -/

/-- The bay that drives a shaft: its own, or its twin while it is ADOPTED (R38). -/
def Dev.drivingBay (d : Dev) (shaft : Nat) : Nat := if d.rd (F.TWIN_STATUS_MODE shaft) = 1 then twinOf shaft else shaft

/-- Whether a shaft's bay can serve a line on a level now: it drives the shaft, no takeover is switching it, the shelf is
READY, and the safe state does not hold it (R40, R82, R100). -/
def Dev.shaftServes (d : Dev) (shaft level : Nat) : Bool :=
  d.shaftDriven shaft && !d.flag (F.TWIN_STATUS_SWITCHING shaft) && !d.flag F.SAFE_STATUS_ACTIVE &&
    (d.shelf (shelfKey shaft level)).st = .ready

/-! ## The correction reserve and write-backs (R136 to R138) -/

/-- The length of the lending period in force, in ns (R69). -/
def Dev.period (d : Dev) : Nat := periodNs d.periodCode

/-- The correction reserve of a period in slots: CORR_RESERVE × P, rounded up (R138). -/
def Dev.corrReserve (d : Dev) : Nat := (atLeastOne (d.rd F.INTEG_CTL_CORR_RESERVE) * d.period + 999) / 1000

/-- Slots of the reserve already drawn in the current period and the next four. -/
def Dev.reserveDrawn (d : Dev) (bay : Nat) : List Nat := SMap.get [0, 0, 0, 0, 0] d.reserveUsed bay

/-- One write-back written to DRAM: counted at the bay (R136). -/
def State.issueWriteback (s : State) (bay loc : Nat) (w : CodeWord) : State :=
  (s.storeLine loc w).withDev fun d => (d.bump (F.INTEG_WB_ISSUED bay)).count 0x0706 bay

/-- A write-back or poison conversion entered (R138): it draws a slot of the current period and is written at once, or of one
of the next four and waits for it, or is dropped. -/
def State.queueWriteback (s : State) (bay loc : Nat) (w : CodeWord) : State :=
  let used := s.dev.reserveDrawn bay
  let q := SMap.get [] s.dev.writebacks bay
  let drop := s.withDev fun d => (d.bump (F.INTEG_WB_DROPPED bay)).raise .writebackDropped (Src.bay bay)
  if 16 ≤ q.length then drop
  else
    match (List.range 5).find? (fun i => used.getD i 0 < s.dev.corrReserve) with
    | none => drop
    | some i =>
      let s := s.withDev fun d =>
        { d with reserveUsed := SMap.put [0, 0, 0, 0, 0] d.reserveUsed bay (used.set i (used.getD i 0 + 1)) }
      if i = 0 then s.issueWriteback bay loc w
      else s.withDev fun d =>
        { d with writebacks := SMap.put [] d.writebacks bay (q ++ [{ loc := loc, word := w, wait := i }]) }

/-- The write-backs of a line that a later write overtakes (R50, R136): discarded and counted. -/
def Dev.supersede (d : Dev) (bay loc : Nat) : Dev :=
  let q := SMap.get [] d.writebacks bay
  let hit := q.filter (fun e => e.loc = loc)
  let d := { d with writebacks := SMap.put [] d.writebacks bay (q.filter (fun e => e.loc ≠ loc)) }
  hit.foldl (fun d _ => (d.bump (F.INTEG_WB_SUPERSEDED bay)).count 0x0707 bay) d

/-- The boundary's share of the write-back queue (R138): the reserve of the new period, and the entries whose period begins. -/
def State.writebackBoundary (s : State) (bay : Nat) : State :=
  let used := s.dev.reserveDrawn bay
  let q := (SMap.get [] s.dev.writebacks bay).map (fun e => { e with wait := e.wait - 1 })
  let due := q.filter (fun e => e.wait = 0)
  let s := s.withDev fun d =>
    { d with reserveUsed := SMap.put [0, 0, 0, 0, 0] d.reserveUsed bay (used.drop 1 ++ [0]),
             writebacks := SMap.put [] d.writebacks bay (q.filter (fun e => e.wait ≠ 0)) }
  due.foldl (fun s e => s.issueWriteback bay e.loc e.word) s

/-! ## Row withdrawal proposals (R291, R293) -/

/-- The spare rows of a bank in use, as a mask (R293). -/
def Dev.sparesUsed (d : Dev) (k : Nat) : Nat := SMap.get 0 d.spareUsed k

/-- The lowest free spare row of a bank (Table 11.7). -/
def Dev.freeSpare (d : Dev) (k : Nat) : Option Nat := (List.range 64).find? (fun j => !(d.sparesUsed k).testBit j)

/-- A withdrawal opened in the shelf port's word 288 (Table 11.7, Step 1); a bank without a free spare row has its level spared
instead, and few free rows raise SPARE_ROWS_LOW (R293). -/
def Dev.openWithdrawal (d : Dev) (shaft level bank row : Nat) : Dev :=
  let k := bankKey shaft level bank
  match d.freeSpare k with
  | none => { d with sparingWanted := if d.sparingWanted.contains level then d.sparingWanted else d.sparingWanted ++ [level] }
  | some j =>
    let used := d.sparesUsed k + 2 ^ j
    let d := { d with spareUsed := SMap.put 0 d.spareUsed k used, recheck := true }
    let d := d.setShelf (shelfKey shaft level) fun p =>
      { p with wdOpen := true, wdBank := bank, wdRow := row, wdSpare := j, wdCopied := false, wdLine := 0, wdRecorded := false }
    d.raiseIf (decide (64 - popCount used 64 < d.rd F.REPAIR_CFG_ROWS_LOW)) .spareRowsLow (Src.level level)
      [(shaft, 6), (bank, 4)]

/-- A row proposed for withdrawal (R291): LW confirms it with AUTO_WITHDRAW at 1, unless the level is the source of a running
sparing; one withdrawal is open per shelf, 16 more wait per level, a further one is dropped and counted. -/
def Dev.proposeRow (d : Dev) (shaft level bank row : Nat) : Dev :=
  if ¬ d.flag F.REPAIR_CFG_AUTO_WITHDRAW ∨
     (d.rd F.SPARE_STATUS_STATE ≠ 0 ∧ d.rd F.SPARE_STATUS_SOURCE = level) then d
  else
    let q := SMap.get [] d.proposals level
    let p : Proposal := { shaft := shaft, bank := bank, row := row }
    let sh := d.shelf (shelfKey shaft level)
    if (sh.wdOpen && sh.wdBank = bank && sh.wdRow = row) || q.contains p then d
    else if ¬ sh.wdOpen then d.openWithdrawal shaft level bank row
    else if q.length < 16 then { d with proposals := SMap.put [] d.proposals level (q ++ [p]) }
    else { d with proposalsDropped := SMap.modify 0 d.proposalsDropped level (fun n => min 255 (n + 1)) }

/-- The logical row or spare-row value that names a physical row of a bank (R78). -/
def Dev.rowField (d : Dev) (shaft level bank prow : Nat) : Nat :=
  if prow < 6144 then prow
  else
    let base := rowKey shaft level bank 0
    match d.rowMap.find? (fun kv => base ≤ kv.1 && kv.1 < base + 6144 && kv.2 = prow - 6144 + 1) with
    | some kv => kv.1 - base
    | none => prow

/-- A correction or an uncorrectable read reported to the level steward with its bank and row (R158, R291). -/
def Dev.reportRow (d : Dev) (loc : Nat) (ue : Bool) : Dev :=
  let shaft := locShaft loc
  let level := locLevel loc
  let bank := locBank loc
  let key := rowKey shaft level bank (locRow loc)
  let n := SMap.get 0 d.rowErrors key + (if ue then 0 else 1)
  let d := { d with rowErrors := SMap.put 0 d.rowErrors key n }
  if ue ∨ n = atLeastOne (d.rd F.REPAIR_CFG_ROW_LIMIT) then
    d.proposeRow shaft level bank (d.rowField shaft level bank (locRow loc))
  else d

/-! ## Decoding a line read from a shaft (R134 to R137, R158, R160) -/

/-- The standing erasures of a bay for a level (R159). -/
def Dev.erasures (d : Dev) (bay level : Nat) : List Nat :=
  ((List.range 8).filter (fun i => d.flag (F.ERASURE_VALID bay i) && (d.rd (F.ERASURE_LEVELS bay i)).testBit level)).map
    (fun i => d.rd (F.ERASURE_SYMBOL bay i))

/-- The place of a symbol's correction count. -/
def symbolKey (bay level sym : Nat) : Nat := (bay * 17 + level) * 72 + sym

/-- One correction at a symbol, with the wires its differing bits point to (R289): bit k or k + 4 to wire k of the symbol. -/
def Dev.countSymbol (d : Dev) (bay level sym diff : Nat) : Dev :=
  let key := symbolKey bay level sym
  { d with symbolCount := SMap.put 0 d.symbolCount key (SMap.get 0 d.symbolCount key + 1),
           symbolWires := (List.range 4).foldl (fun m k =>
             if diff.testBit k || diff.testBit (k + 4) then SMap.put 0 m (key * 4 + k) (SMap.get 0 m (key * 4 + k) + 1) else m)
             d.symbolWires }

/-- The wire of a symbol with the most differences (R289). -/
def Dev.worstWire (d : Dev) (bay level sym : Nat) : Nat :=
  let n := fun k => SMap.get 0 d.symbolWires (symbolKey bay level sym * 4 + k)
  let k := (List.range 4).foldl (fun best k => if n best < n k then k else best) 0
  4 * sym + k

/-- A symbol's count and wire counts cleared. -/
def Dev.clearSymbol (d : Dev) (bay level sym : Nat) : Dev :=
  let key := symbolKey bay level sym
  { d with symbolCount := SMap.put 0 d.symbolCount key 0,
           symbolWires := d.symbolWires.filter (fun kv => kv.1 / 4 ≠ key) }

/-- The corrections of one read counted by symbol; a position that reaches SYMBOL_LIMIT raises SYMBOL_REPEAT, starts again, and is
passed to the registrar with its worst wire (R158, R289). `diff` holds the bits that differed. -/
def Dev.countSymbols (d : Dev) (bay level : Nat) (diff : CodeWord) (errs : List Nat) : Dev :=
  errs.foldl (fun d j =>
    let d := d.countSymbol bay level j (CodeWord.sym diff j)
    if atLeastOne (d.rd F.INTEG_CTL_SYMBOL_LIMIT) ≤ SMap.get 0 d.symbolCount (symbolKey bay level j) then
      let wire := d.worstWire bay level j
      ({ d.clearSymbol bay level j with viaWanted := d.viaWanted ++ [(bay, wire, level)] } : Dev).raise .symbolRepeat
        (Src.level level) [(j, 7)]
    else d) d

/-- A merge-buffer entry of a line in HELD or ISSUED, the newest first (R142). -/
def Dev.mergeNewest (d : Dev) (bay loc : Nat) : Option MergeEntry :=
  ((SMap.get [] d.merge bay).filter (fun e => e.loc = loc && e.st ≠ .filling)).getLast?

/-- Whether a newer copy of a line exists: DIRTY or WRITING in the reading room, or HELD or ISSUED in the merge buffer
(R137). -/
def State.newerCopy (s : State) (bay loc : Nat) : Bool :=
  let tag := s.dpaOfLoc loc / 64
  s.dev.room.any (fun kl => kl.2.tag = tag && kl.2.st ≠ .clean) || (s.dev.mergeNewest bay loc).isSome

/-- The counts and faults of an outcome (Table 6.3, R160, Table 6.20). -/
def Dev.countOutcome (d : Dev) (bay dpa : Nat) (r : LineRead) (patron : Option Nat) : Dev :=
  let d := d.count 0x0700 bay patron
  match r.outcome with
  | .clean => d
  | .corrected => ((d.bump (F.INTEG_CE_CORRECTED bay)).raise .lineCe (Src.bay bay)).count 0x0701 bay patron
  | .erasureOnly => (d.bump (F.INTEG_MISC_ERASURE_ONLY bay)).count 0x0702 bay patron
  | .poisoned => (d.bump (F.INTEG_UE_POISON_READS bay)).count 0x0703 bay patron
  | .poisonedCorrected =>
    (((d.bump (F.INTEG_CE_CORRECTED bay)).bump (F.INTEG_UE_POISON_READS bay)).raise .lineCe (Src.bay bay)).count 0x0704 bay patron
  | .uncorrectable =>
    ((d.bump (F.INTEG_UE_UE bay)).raise .lineUe (Src.bay bay) [(dpa, 38)]).count 0x0705 bay patron

/-- What follows from a decoded read of a physical line (R136, R137, R157, R158): counters and faults, the correction
write-back or the poison conversion (neither where the read is a merge-buffer fill), the symbol and row reports. `raw` is the word as read. -/
def State.afterRead (s : State) (bay loc : Nat) (raw : CodeWord) (r : LineRead) (isFill : Bool) (patron : Option Nat) : State :=
  let s := s.withDev fun d => d.countOutcome bay (s.dpaOfLoc loc) r patron
  match r.outcome with
  | .clean | .erasureOnly | .poisoned => s
  | .corrected | .poisonedCorrected =>
    let s := s.withDev fun d => (d.countSymbols (locShaft loc) (locLevel loc) (raw ^^^ encodeLine r.data r.poison) r.errors).reportRow loc false
    if isFill then s else s.queueWriteback bay loc (encodeLine r.data r.poison)
  | .uncorrectable =>
    let s := s.withDev fun d => d.reportRow loc true
    if isFill then s
    else if s.newerCopy bay loc then s.withDev fun d => d.bump (F.INTEG_MISC_UE_MASKED bay)
    else s.queueWriteback bay loc (encodeLine r.data true)

/-- A physical line read from its shaft with errors on the wires, decoded, with everything that follows (R134). -/
def State.bayRead (s : State) (bay loc : Nat) (wire : CodeWord) (isFill : Bool) (patron : Option Nat) : LineRead × State :=
  let raw := readLine s.mem loc ^^^ wire
  let r := decodeLine raw (s.dev.erasures (locShaft loc) (locLevel loc))
  (r, s.afterRead bay loc raw r isFill patron)

/-! ## The merge buffer (R142 to R148) -/

/-- The entries of a bay's merge buffer. -/
def Dev.mergeOf (d : Dev) (bay : Nat) : List MergeEntry := SMap.get [] d.merge bay

/-- The entries of a bay's merge buffer set, and OCCUPANCY with them (Table 6.16). -/
def Dev.setMerge (d : Dev) (bay : Nat) (l : List MergeEntry) : Dev :=
  ({ d with merge := SMap.put [] d.merge bay l } : Dev).wr (F.MERGE_STATUS_OCCUPANCY bay) l.length

/-- A mask with every byte of the line. -/
def fullMask : BitVec 64 := BitVec.allOnes 64

/-- The bits of a byte mask. -/
def maskBits (m : BitVec 64) : LineData :=
  BitVec.ofNat 512 (natOfBytes ((List.range 64).map (fun i => if m.getLsbD i then 255 else 0)))

/-- Bytes merged over a line under a mask. -/
def mergeBytes (old new : LineData) (m : BitVec 64) : LineData := (old &&& ~~~ maskBits m) ||| (new &&& maskBits m)

/-- Whether an entry may become ISSUED: a HELD one, while no other entry of its line is ISSUED, so that a line never has more than two
entries (R142; DEDUCED, log 42). -/
def mayIssue (l : List MergeEntry) (e : MergeEntry) : Bool :=
  e.st = .held && !l.any (fun x => x.loc = e.loc && x.st = .issued)

/-- The oldest HELD entry that may becomes ISSUED (R143). -/
def issueOldest (l : List MergeEntry) : List MergeEntry :=
  match l.find? (mayIssue l) with
  | none => l
  | some e => l.map (fun x => if x.loc = e.loc && x.st = .held then { x with st := .issued } else x)

/-- The rules that issue an entry without waiting for its window: a window of 0, and occupancy of 48 or more; in the safe state
none issues (R142, R143, R145). -/
def Dev.mergeIssue (d : Dev) (bay : Nat) : Dev :=
  if d.flag F.SAFE_STATUS_ACTIVE then d
  else
    let l := d.mergeOf bay
    if d.rd F.INTEG_CTL_GATHER = 0 then
      d.setMerge bay (l.map (fun e => if mayIssue l e then { e with st := .issued } else e))
    else if 48 ≤ l.length then d.setMerge bay (issueOldest l)
    else d

/-- How a write to the merge buffer ends: done, done onto a poisoned target, waiting for a fill, or held at the wing because the
buffer is full (Table 6.5, R143). -/
inductive MergeEnd where
  | done | targetPoisoned | filling | full
  deriving DecidableEq, Repr

/-- Poison cleared by a full write is counted by the unit that holds the mark, for the line's shaft (R141, Table 6.13). -/
def Dev.poisonCleared (d : Dev) (shaft : Nat) : Dev := (d.bump (F.INTEG_MISC_POISON_CLEARED shaft)).count 0x070C shaft

/-- The last HELD or FILLING entry of a line replaced. -/
def replaceOpen (loc : Nat) (f : MergeEntry → MergeEntry) (l : List MergeEntry) : List MergeEntry :=
  l.map (fun e => if e.loc = loc && e.st ≠ .issued then f e else e)

/-- A write to a physical line enters the merge buffer (Table 6.5, R142 to R148). `wire` is what the fill read meets; a fill is
decoded at once where the shaft serves, else the entry stays FILLING. -/
def State.mergeWrite (s : State) (bay loc dpaLine : Nat) (data : LineData) (mask : BitVec 64) (poison room : Bool)
    (cls grp : Nat) (wire : CodeWord) : MergeEnd × State :=
  let s := s.withDev fun d => d.supersede bay loc
  let l := s.dev.mergeOf bay
  let new : MergeEntry :=
    { loc := loc, dpaLine := dpaLine, data := data, mask := mask, poison := poison, cls := cls, grp := grp, st := .held,
      born := s.dev.time, room := room }
  match l.find? (fun e => e.loc = loc && e.st ≠ .issued) with
  | some e =>
    let d' := mergeBytes e.data data mask
    let e' : MergeEntry :=
      if mask = fullMask then { e with data := data, mask := fullMask, poison := poison, room := e.room || room }
      else { e with data := d', mask := e.mask ||| mask, poison := e.poison || poison, room := e.room || room }
    let s := s.withDev fun d =>
      let d := (d.setMerge bay (replaceOpen loc (fun _ => e') l)).count 0x0709 bay
      let d := if mask = fullMask && e.poison && !poison then d.poisonCleared (locShaft loc) else d
      d.mergeIssue bay
    (if mask = fullMask then .done
     else if e.st = .filling then .filling
     else if e'.poison then .targetPoisoned else .done, s)
  | none =>
    if 64 ≤ l.length then (.full, s.withDev fun d => d.bump (F.MERGE_STATUS_WAITS bay))
    else if mask = fullMask then
      (.done, s.withDev fun d => (d.setMerge bay (l ++ [new])).mergeIssue bay)
    else
      match l.find? (fun e => e.loc = loc && e.st = .issued) with
      | some e =>
        let n : MergeEntry := { new with data := mergeBytes e.data data mask, mask := fullMask, poison := e.poison || poison }
        (if n.poison then .targetPoisoned else .done, s.withDev fun d => (d.setMerge bay (l ++ [n])).mergeIssue bay)
      | none =>
        let s := s.withDev fun d => (d.count 0x0708 bay).charge (locShaft loc) cls grp
        if s.dev.shaftServes (locShaft loc) (locLevel loc) then
          let (r, s) := s.bayRead bay loc wire true none
          let n : MergeEntry :=
            { new with data := mergeBytes r.data data mask, mask := fullMask, poison := r.poison || poison }
          (if n.poison then .targetPoisoned else .done, s.withDev fun d => (d.setMerge bay (l ++ [n])).mergeIssue bay)
        else (.filling, s.withDev fun d => d.setMerge bay (l ++ [{ new with st := .filling }]))

/-- A fill decoded for a FILLING entry: unmasked bytes come from the fill, POISON as Table 6.6 gives it unless a full write
arrived meanwhile (Table 6.5). -/
def Dev.mergeFilled (d : Dev) (bay loc : Nat) (r : LineRead) : Dev :=
  let l := d.mergeOf bay
  (d.setMerge bay (l.map (fun e =>
    if e.loc = loc && e.st = .filling then
      { e with data := mergeBytes r.data e.data e.mask, poison := if e.mask = fullMask then e.poison else e.poison || r.poison,
               mask := fullMask, st := .held }
    else e))).mergeIssue bay

/-- The entry of a line that a WR takes: the ISSUED one (Table 6.5). -/
def Dev.mergeIssued (d : Dev) (bay loc : Nat) : Option MergeEntry :=
  (d.mergeOf bay).find? (fun e => e.loc = loc && e.st = .issued)

/-- A reading-room line whose content reached its shaft leaves WRITING, or goes back to DIRTY where it was modified meanwhile
(R49). -/
def RoomLine.written (l : RoomLine) : RoomLine :=
  if l.st = .writing then (if l.redirty then { l with st := .dirty, redirty := false } else { l with st := .clean }) else l

/-- A line in the scope of the running flush has been written (R52): it is counted, invalidated where INVALIDATE is set and it
is not dirty again, and the last one ends the flush. -/
def Dev.flushWritten (d : Dev) (tag : Nat) : Dev :=
  if ¬ d.flushWait.contains tag then d
  else
    let d := { d with flushWait := d.flushWait.filter (· ≠ tag) }
    let d := d.bump F.RR_FLUSH_STATUS_LINES_WRITTEN
    let d := if d.flushScope.invalidate then
        { d with room := d.room.filter (fun kl => !(kl.2.tag = tag && kl.2.st = .clean)) } else d
    if d.flushWait = [] then
      d.wrs [(F.RR_FLUSH_STATUS_BUSY, 0), (F.RR_FLUSH_CTL_START, 0), (F.RR_FLUSH_STATUS_DONE, 1)]
    else d

/-- A shaft write reported complete to the reading room (R49). -/
def Dev.roomWritten (d : Dev) (tag : Nat) : Dev :=
  ({ d with room := d.room.map (fun kl => if kl.2.tag = tag then (kl.1, kl.2.written) else kl) } : Dev).flushWritten tag

/-- An ISSUED entry's line transfer completes: the line is in DRAM, the entry is FREE, and a reading-room write-back is reported
(R49, Table 6.5). -/
def State.mergeComplete (s : State) (bay : Nat) (e : MergeEntry) : State :=
  (s.storeLine e.loc (encodeLine e.data e.poison)).withDev fun d =>
    let l := d.mergeOf bay
    let d := (d.setMerge bay (l.filter (fun x => !(x.loc = e.loc && x.st = .issued)))).mergeIssue bay
    if e.room then d.roomWritten e.dpaLine else d

end Sys2Proof.Machine
end

