-- ==== Sys2Proof/Machine/Ledger.lean ====
section
/-!
DEFINITION. The ledger (R297 to R303): slots and their validity, records, the foot's queue of write requests and the hold on new
writes.
-/

namespace Sys2Proof.Machine

open Sys2Proof

/-! ## Slots (R301, Table 11.11) -/

/-- The bits of a byte in reverse order. -/
def reflect8 (b : Nat) : Nat := (List.range 8).foldl (fun a i => a + (b.testBit i).toNat * 2 ^ (7 - i)) 0

/-- The bits of a 32-bit number in reverse order. -/
def reflect32 (b : Nat) : Nat := (List.range 32).foldl (fun a i => a + (b.testBit i).toNat * 2 ^ (31 - i)) 0

/-- The IEEE 802.3 CRC-32 of a list of bytes: reflected, all ones at the start, complemented at the end (log entry 8). -/
def crc32 (bytes : List Nat) : Nat :=
  (reflect32 (crc 32 0x04C11DB7 0xFFFFFFFF (bytes.map reflect8))) ^^^ 0xFFFFFFFF

/-- The bytes of a slot. -/
def Slot.bytes (x : Slot) : List Nat := bytesOfNat 256 x.toNat

/-- Whether a slot is valid: its CRC-32 matches (R301). -/
def Slot.valid (x : Slot) : Bool := natOfBytes (x.bytes.drop 252) = crc32 (x.bytes.take 252)

/-- The SEQ of a slot. -/
def Slot.seq (x : Slot) : Nat := x.toNat % 2 ^ 32

/-- The payload of a slot. -/
def Slot.payload (x : Slot) : List Nat := (x.bytes.drop 12).take (min 236 (x.toNat / 2 ^ 64 % 2 ^ 16))

/-- A slot written with a SEQ, a record and a payload. -/
def slotOf (seq record : Nat) (payload : List Nat) : Slot :=
  let p := payload.take 236
  let body := bytesOfNat 4 seq ++ bytesOfNat 4 record ++ bytesOfNat 2 p.length ++ [0, 0] ++ p ++
    List.replicate (240 - p.length) 0
  BitVec.ofNat 2048 (natOfBytes (body ++ bytesOfNat 4 (crc32 body)))

/-- A slot cut short: not valid, whatever it was meant to hold (R301). -/
def slotBroken (x : Slot) : Slot := x ^^^ BitVec.ofNat 2048 (2 ^ 2016)

/-- Whether one SEQ is later than another, compared modulo 2^32 (R301). -/
def seqLater (x y : Nat) : Bool := x ≠ y ∧ (x + 2 ^ 32 - y) % 2 ^ 32 < 2 ^ 31

/-- Whether the newest valid copy of a record is its second slot; none where no slot is valid (R301). -/
def LedgerRec.newestSecond (r : LedgerRec) : Option Bool :=
  match r.a.valid, r.b.valid with
  | true, true => some (seqLater r.b.seq r.a.seq)
  | true, false => some false
  | false, true => some true
  | false, false => none

/-- The newest valid slot of a record (R301). -/
def LedgerRec.newest (r : LedgerRec) : Option Slot := r.newestSecond.map (fun second => if second then r.b else r.a)

/-! ## Records (Table 11.9, Table 21.1) -/

/-- A record's number: kind in bits [23:16], index in bits [15:0]. -/
def recordNo (kind index : Nat) : Nat := kind * 2 ^ 16 + index

/-- The payload of a record's newest valid slot; none where the record is absent or lost. -/
def Ledger.read (l : Ledger) (record : Nat) : Option (List Nat) :=
  ((l.records.find? (fun kv => kv.1 = record)).bind (fun kv => kv.2.newest)).map Slot.payload

/-- Whether a record exists with no valid slot (R301). -/
def Ledger.isLost (l : Ledger) (record : Nat) : Bool :=
  match l.records.find? (fun kv => kv.1 = record) with
  | some kv => kv.2.newest.isNone
  | none => false

/-- A number of `n` bytes of a payload at an offset. -/
def payloadNum (p : List Nat) (off n : Nat) : Nat := natOfBytes ((p.drop off).take n)

/-- The eleven points of a witness array's curve (R121, Table 11.9): four bytes each, array after array; none where the record is
absent or lost. -/
def Ledger.curve (l : Ledger) (level quadrant : Nat) : Option (List Nat) :=
  (l.read (recordNo 0x02 level)).map (fun p => (List.range 11).map (fun i => payloadNum p (44 * quadrant + 4 * i) 4))

/-- Whether a curve ascends strictly (R121). -/
def curveUsable (c : List Nat) : Bool := (List.range 10).all (fun i => decide (c.getD i 0 < c.getD (i + 1) 0))

/-! ## Logical blocks (Table 11.10; the place of a record within its region is the model's, log entry 9) -/

/-- The first logical block of a record. -/
def recordBlock (record : Nat) : Nat :=
  let kind := record / 2 ^ 16
  let index := record % 2 ^ 16
  match kind with
  | 0x01 => 64
  | 0x02 => 66 + 2 * index
  | 0x03 => 1088
  | 0x04 => 1090 + 2 * index
  | 0x05 => 1220 + 2 * index
  | 0x06 => 1348 + 2 * index
  | 0x07 => 36164
  | 0x08 => 36166 + 2 * index
  | 0x09 => 36294
  | 0x10 => 42048
  | 0x12 => 42050
  | 0x13 => 42052
  | 0x11 => 59520
  | 0x20 => 59456
  | 0x30 => 43072 + 2 * (index % 8192)
  | _ => 42054 + 2 * (index % 500)

/-- The physical block behind a logical one (R303). -/
def Ledger.physical (l : Ledger) (b : Nat) : Nat := SMap.get b (l.wearMap.filter (fun kv => kv.1 = b)) b

/-! ## The queue of write requests (R302) -/

/-- Whether a request is an event-log request (R302). -/
def LedgerReq.isLog (r : LedgerReq) : Bool := r.record / 2 ^ 16 = 0x30

/-- New ledger writes are held off: the supply thresholds, the safe state, a foot reset (R302, R415). -/
def Dev.ledgerHeld (d : Dev) : Bool :=
  d.flag F.LEDGER_STATUS_INHIBITED || d.flag F.SAFE_STATUS_ACTIVE || d.footInReset

/-- The queue's length shown (Table 11.15). -/
def Dev.showQueued (d : Dev) : Dev := d.wr F.LEDGER_STATUS_QUEUED d.ledgerQueue.length

/-- A write request passed to the foot (R302): it replaces one queued for the same record; with the queue full an event-log
request is dropped and counted, and any other waits in the registrar. -/
def Dev.ledgerRequest (d : Dev) (r : LedgerReq) : Dev :=
  if d.ledgerQueue.any (fun q => q.record = r.record) then
    { d with ledgerQueue := d.ledgerQueue.map (fun q => if q.record = r.record then r else q) }
  else if d.ledgerQueue.length < 64 then ({ d with ledgerQueue := d.ledgerQueue ++ [r] } : Dev).showQueued
  else if r.isLog then (d.bump F.LEDGER_ERRORS_DROPPED).raise .ledgerBacklog (Src.foot 10)
  else { d with ledgerWait := d.ledgerWait.filter (fun q => q.record ≠ r.record) ++ [r] }

/-- Requests that wait in the registrar move into the queue while it has room. -/
def Dev.ledgerRefill (d : Dev) : Dev :=
  match d.ledgerWait with
  | [] => d
  | r :: rest =>
    if d.ledgerQueue.length < 64 then
      ({ d with ledgerQueue := d.ledgerQueue ++ [r], ledgerWait := rest } : Dev).showQueued
    else d

/-! ## Writing a slot (R301, R302, R303) -/

/-- The slot a write goes to: the one that does not hold the newest valid copy (R301); true for the second. -/
def LedgerRec.target (r : LedgerRec) : Bool :=
  match r.newestSecond with
  | some second => !second
  | none => false

/-- The slot that a write of a payload stores. -/
def LedgerRec.next (r : LedgerRec) (record : Nat) (payload : List Nat) : Slot :=
  slotOf (((r.newest.map Slot.seq).getD 0 + 1) % 2 ^ 32) record payload

/-- One slot of a record replaced. -/
def LedgerRec.set (r : LedgerRec) (second : Bool) (x : Slot) : LedgerRec := if second then { r with b := x } else { r with a := x }

/-- A record of the ledger. -/
def Ledger.record (l : Ledger) (n : Nat) : LedgerRec := SMap.get {} l.records n

/-- A record replaced. -/
def Ledger.setRecord (l : Ledger) (n : Nat) (r : LedgerRec) : Ledger := { l with records := SMap.insert n r l.records }

/-- A write counted to a physical block; a block with 2^24 more writes than the least-written block of the spare pool is
exchanged with it (R303). -/
def Ledger.wear (l : Ledger) (logical : Nat) : Ledger :=
  let p := l.physical logical
  let n := SMap.get 0 l.writes p + 1
  let l := { l with writes := SMap.put 0 l.writes p n }
  let spare := (List.range 5760).foldl (fun best i =>
    let q := l.physical (59776 + i)
    if SMap.get 0 l.writes q < SMap.get 0 l.writes (l.physical best) then 59776 + i else best) 59776
  if SMap.get 0 l.writes (l.physical spare) + 2 ^ 24 ≤ n then
    let q := l.physical spare
    { l with wearMap := SMap.insert logical q (SMap.insert spare p l.wearMap) }
  else l

/-- A slot write begun (R301): the target slot is not valid until the write completes. -/
def Ledger.beginWrite (l : Ledger) (req : LedgerReq) : Ledger × Bool :=
  let r := l.record req.record
  let second := r.target
  (l.setRecord req.record (r.set second (slotBroken (r.next req.record req.payload))), second)

/-- A slot write completed (R301): the slot holds the payload under the next SEQ. -/
def Ledger.endWrite (l : Ledger) (req : LedgerReq) (second : Bool) : Ledger :=
  let r := l.record req.record
  (l.setRecord req.record (r.set second (r.next req.record req.payload))).wear (recordBlock req.record + second.toNat)

/-- The foot starts the first queued request while it writes none and new writes are not held off;
a write held by the supply thresholds is counted (R302, Table 17.17). -/
def State.ledgerStart (s : State) : State :=
  match s.dev.ledgerQueue, s.dev.ledgerWriting with
  | req :: rest, none =>
    if s.dev.ledgerHeld then
      s.withDev fun d => if d.flag F.LEDGER_STATUS_INHIBITED then d.count 0x0807 0 else d
    else
      let (l, second) := s.ledger.beginWrite req
      ({ s with ledger := l } : State).withDev fun d =>
        ({ d with ledgerQueue := rest, ledgerWriting := some (req, second) } : Dev).showQueued.ledgerRefill
  | _, _ => s

/-- LEDGER_SLOT_WRITE (R302). -/
def execLedgerSlotWrite (s : State) : Host.Outcome State Fault Refusal := .next s.ledgerStart

/-- The newest valid slot of the record named, copied into LEDGER_RD_DATA; slots read not valid
are counted, and a record with none is lost (R301, Table 11.15). -/
def State.ledgerRead (s : State) : State :=
  s.withDev fun d =>
    let n := d.rd F.LEDGER_RD_CTL_RECORD
    let show_ := fun (d : Dev) (x : Slot) =>
      (List.range 64).foldl (fun d i => d.wr (F.LEDGER_RD_DATA_DATA i) (x.toNat / 2 ^ (32 * i))) d
    let done := fun (d : Dev) (r : Nat) => d.wrs [(F.LEDGER_RD_STATUS_RESULT, r), (F.LEDGER_RD_STATUS_BUSY, 0)]
    match s.ledger.records.find? (fun kv => kv.1 = n) with
    | none => done d 1
    | some kv =>
      let bad := (if kv.2.a.valid then 0 else 1) + (if kv.2.b.valid ∨ kv.2.b = 0 then 0 else 1)
      let d := d.bumpBy F.LEDGER_ERRORS_SLOTS_BAD bad
      match kv.2.newest with
      | some x => done (show_ d x) 0
      | none => (done (d.bump F.LEDGER_ERRORS_LOST) 2).raise .ledgerRecordLost (Src.foot 10) [(n, 24)]

/-- LEDGER_READ (R301). -/
def execLedgerRead (s : State) : Host.Outcome State Fault Refusal := .next s.ledgerRead

end Sys2Proof.Machine
end

