-- ==== Sys2Proof/Machine/Tokens.lean ====
section
/-!
DEFINITION. Tokens and classes at a bay (R202 to R216): the settings in force, the tokens of a bay and group, and the class a
patron request takes.
-/

namespace Sys2Proof.Machine

open Sys2Proof

/-- The settings in force of a group. -/
def Dev.group (d : Dev) (g : Nat) : GroupSet := SMap.get {} d.inForce.groups g

/-- The tokens a bay loaded at the last boundary. -/
def Dev.bayTokens (d : Dev) (bay : Nat) : BayTokens := SMap.get {} d.tokens bay

/-- A quotient rounded up. -/
def ceilDiv (a b : Nat) : Nat := (a + b - 1) / b

/-- The A0 tokens of a group by its guarantee: t(g) = ⌈G ÷ 64⌉ (Table 8.1). -/
def GroupSet.t (g : GroupSet) : Nat := ceilDiv g.guarantee 64

/-- The A0 tokens in force for a group at a bay, scaled where the bay sheds (R224). -/
def Dev.a0Tokens (d : Dev) (bay g : Nat) : Nat :=
  match (d.bayTokens bay).scaled.find? (fun x => x.1 = g) with
  | some x => x.2
  | none => (d.group g).t

/-- Slots of the period spent at a bay, all classes and groups. -/
def Dev.spentAll (d : Dev) (bay : Nat) : Nat :=
  (d.spent.filter (fun kv => kv.1 / 256 / 8 = bay)).foldl (fun n kv => n + kv.2) 0

/-- A2 slots of the period spent at a bay. -/
def Dev.spentA2 (d : Dev) (bay : Nat) : Nat :=
  (d.spent.filter (fun kv => kv.1 / 256 = bay * 8 + 2)).foldl (fun n kv => n + kv.2) 0

/-- Whether a group is below its per-bay ceiling (R208). -/
def Dev.belowCeiling (d : Dev) (bay g : Nat) : Bool :=
  decide (d.spentOf bay 0 g + d.spentOf bay 1 g < ceilDiv (d.group g).ceiling 64)

/-- Whether a group is urgent at an applied level (R214). -/
def Dev.urgentAt (d : Dev) (g level : Nat) : Bool :=
  decide (1 ≤ (d.group g).urgent) && decide ((d.group g).urgent ≤ level)

/-- The class a patron request takes at its bay (R214, R205): A2, A0, or A1 on a spare slot; none where it waits for the next
period. -/
def Dev.requestClass (d : Dev) (bay g level : Nat) : Option Nat :=
  if d.urgentAt g level && decide (d.spentA2 bay < (d.bayTokens bay).a2) then some 2
  else if ¬ d.belowCeiling bay g then none
  else if d.spentOf bay 0 g < d.a0Tokens bay g then some 0
  else if (d.bayTokens bay).step < 2 ∧ d.spentAll bay * 1000 < (d.bayTokens bay).cap * d.period then some 1
  else none

/-- The class a request served without a shaft slot takes (R216): by its group and level, without regard to tokens; 1 stands for
no bound. -/
def Dev.freeClass (d : Dev) (bay g level : Nat) : Nat :=
  if d.urgentAt g level then 2 else if 0 < d.a0Tokens bay g then 0 else 1

/-! ## Circulation (R469) -/

/-- The circulation counters of a patron. -/
def Dev.circOf (d : Dev) (p : Nat) : Circ := SMap.get {} d.circ p

/-- The circulation counters of a patron changed. -/
def Dev.circulate (d : Dev) (p : Nat) (f : Circ → Circ) : Dev := { d with circ := SMap.modify {} d.circ p f }

/-- A slot charged for a patron's request: A2 slots also count as URGENT_SLOTS (Table 19.6) and as urgent claims served. -/
def Dev.chargePatron (d : Dev) (bay cls g p : Nat) : Dev :=
  let d := d.charge bay cls g
  if cls = 2 then
    (d.circulate p fun c => { c with urgentSlots := c.urgentSlots + 1 }).count 0x050B bay (some p)
  else d

end Sys2Proof.Machine
end

