-- ==== Sys2Proof/Machine/Refresh.lean ====
section
/-!
DEFINITION. Refresh, row activity and level-steward resets (chapter 5): the pacer, targeted-refresh deadlines, activation windows
and clamps, and the shelves of a level whose steward is reset.
-/

namespace Sys2Proof.Machine

open Sys2Proof

/-! ## Roles (R24, Table 1.5) -/

/-- The role of a physical level: 0 DATA, 1 RESERVE, 2 RETIRED. -/
def Dev.role (d : Dev) (level : Nat) : Nat := d.rd (F.LEVEL_ROLE_ROLE level)

/-! ## The pacer (R108, R110, R125) -/

/-- REFRESH_PACER_STEP (R108): in self-refresh the port refreshes the next four rows itself (R125); a RETIRED level is not
refreshed (R106); otherwise OWED rises by 1 to at most +16, with REFRESH_LATE at 12, REFRESH_MISSED at 16, and steps beyond
counted. -/
def execRefreshPacerStep (shaft : Fin 64) (level : Fin 17) (bank : Fin 16) (s : State) : Host.Outcome State Fault Refusal :=
  s.next fun d =>
    let k := bankKey shaft level bank
    if d.role level = 2 ∨ ¬ d.portPowered shaft level then d
    else if (d.shelf (shelfKey shaft level)).st = .selfRefresh then d.walkRows shaft level bank
    else
      let o := d.owedOf k
      if 16 ≤ o then d.bump (F.REFRESH_FAULTS_MISSED level)
      else
        let bay := d.drivingBay shaft
        let d := d.setOwed k (o + 1)
        if o + 1 = 12 then
          (d.bump (F.REFRESH_FAULTS_LATE level)).raise .refreshLate (Src.bay bay) [(bank, 4)]
        else d.raiseIf (o + 1 = 16) .refreshMissed (Src.bay bay) [(bank, 4)]

/-! ## Targeted-refresh deadlines (R116) -/

/-- TREF_DEADLINE (R116): a claim open for 2 µs outside RECOVERING is at its deadline. -/
def execTrefDeadline (shaft : Fin 64) (level : Fin 17) (slot : Fin 32) (s : State) : Host.Outcome State Fault Refusal :=
  s.next fun d =>
    let k := shelfKey shaft level * 32 + slot
    match d.claimAt k with
    | some c =>
      if (d.shelf (shelfKey shaft level)).st = .recovering then d
      else { d with claims := SMap.insert k { c with deadline := true } d.claims }
    | none => d

/-- TREF_LATE (R116): a claim still open after 8 µs outside RECOVERING is raised against the bay and counted. -/
def execTrefLate (shaft : Fin 64) (level : Fin 17) (slot : Fin 32) (s : State) : Host.Outcome State Fault Refusal :=
  s.next fun d =>
    let k := shelfKey shaft level * 32 + slot
    if (d.claimAt k).isSome ∧ (d.shelf (shelfKey shaft level)).st ≠ .recovering then
      (d.bump (F.REFRESH_FAULTS_TREF_LATE level)).raise .trefLate (Src.bay (d.drivingBay shaft))
    else d

/-! ## Attribution and clamps (R117 to R119) -/

/-- A trigger attributed to a patron (R117, R118): patron 0 is counted and never classified; a patron that reaches PATRON_N in
the window raises ROW_ACT_OFFENDER once in it. -/
def Dev.attribute (d : Dev) (patron : Nat) : Dev :=
  if patron = 0 then d
  else
    let n := SMap.get 0 d.triggers patron + 1
    let d := { d with triggers := SMap.put 0 d.triggers patron n }
    if atLeastOne (d.rd F.ROW_ACT_CTL_PATRON_N) ≤ n ∧ ¬ d.offended.contains patron then
      ({ d with offended := d.offended ++ [patron] } : Dev).raise .rowActOffender Src.device [(patron, 12)]
    else d

/-- One newly read claim (R117): attributed to the patron of the most recent ACT of the same row in the bay's history, or to
patron 0 and counted. -/
def Dev.attributeClaim (d : Dev) (shaft level : Nat) (c : Claim) : Dev :=
  match (d.shaft shaft).hist.find? (fun h => h.level = level ∧ h.bank = c.bank ∧ h.row = c.row) with
  | some h => d.attribute h.patron
  | none => d.bump F.ROW_ACT_STATUS_UNATTRIBUTED

/-- The claims of a shelf read through SRR: those not read before are attributed (R117). -/
def Dev.readClaims (d : Dev) (shaft level : Nat) (slots : List Nat) : Dev :=
  slots.foldl (fun d i =>
    let k := shelfKey shaft level * 32 + i
    match d.claimAt k with
    | some c =>
      if c.read then d
      else ({ d with claims := SMap.insert k { c with read := true } d.claims } : Dev).attributeClaim shaft level c
    | none => d) d

/-- The containment of ROW_ACT_OFFENDER (R118, R119): the patron is clamped, or CLAMP_FULL is set. -/
def Dev.clampPatron (d : Dev) (patron : Nat) : Dev :=
  if d.clamped patron then d
  else
    match (List.range 16).find? (fun i => ¬ d.flag (F.ROW_ACT_CLAMP_ACTIVE i)) with
    | some i => d.wrs [(F.ROW_ACT_CLAMP_PATRON i, patron), (F.ROW_ACT_CLAMP_ACTIVE i, 1)]
    | none => d.wr F.ROW_ACT_STATUS_CLAMP_FULL 1

/-- ROW_ACT_WINDOW (R118): the window ends; every patron's count starts again. -/
def execRowActWindow (s : State) : Host.Outcome State Fault Refusal :=
  s.next fun d => { d with triggers := [], offended := [] }

/-- ROW_ACT_CLAMP_CLEAR (R119): the clamp ends. -/
def execRowActClampClear (clamp : Fin 16) (s : State) : Host.Outcome State Fault Refusal :=
  s.next fun d => d.wr (F.ROW_ACT_CLAMP_ACTIVE clamp) 0

/-! ## Level-steward resets (R123, R124) -/

/-- One shelf at Step 2 of Table 5.2: busy banks finish, OPEN banks are precharged, the shelf is RECOVERING; a shelf in
self-refresh stays there (R124). Its accepted transfers complete by LINE_TRANSFER. -/
def Dev.recoverShelf (d : Dev) (shaft level : Nat) : Dev :=
  let sh := shelfKey shaft level
  if (d.shelf sh).st = .selfRefresh then d
  else
    let busy := (List.range 16).filter (fun i => (d.bank (bankKey shaft level i)).st ≠ .idle)
    let d := busy.foldl (fun d i => d.setBank (bankKey shaft level i) fun _ => {}) d
    d.setShelf sh fun p =>
      { p with st := .recovering, done := busy.foldl (fun m i => m ||| (1#16 <<< i)) p.done }

/-- A level steward reset, Steps 1 and 2 of Table 5.2. -/
def Dev.stewardReset (d : Dev) (level : Nat) : Dev :=
  let d := (List.range 64).foldl (fun d n => d.recoverShelf n level) d
  let d := d.wrs [(F.LEVEL_RESET_REQ level, 1), (F.LEVEL_RESET_RECOVERING level, 1)]
  (d.bump (F.LEVEL_RESET_RESETS level)).raise .stewardReset (Src.level level)

/-- LEVEL_STEWARD_RESET (R123): the level warden orders the reset. -/
def execLevelStewardReset (level : Fin 17) (s : State) : Host.Outcome State Fault Refusal :=
  s.next fun d => d.stewardReset level

/-- LEVEL_RESET_REQ (R123, Table 5.9): the write orders a reset; the bit reads 1 until Step 5. -/
def execLevelResetReq (level : Fin 17) (s : State) : Host.Outcome State Fault Refusal :=
  s.next fun d => d.wr (F.LEVEL_RESET_REQ level) 1

/-- RECOVERING_REF_TIMER (R124): at once and every 3.5 µs the bay sends one REF to each bank of a RECOVERING shelf. -/
def execRecoveringRefTimer (shaft : Fin 64) (level : Fin 17) (s : State) : Host.Outcome State Fault Refusal :=
  s.next fun d =>
    if (d.shelf (shelfKey shaft level)).st = .recovering then
      (List.range 16).foldl (fun d k => d.general shaft level k 0x4 0 { down := 0, up := 0 }) d
    else d

end Sys2Proof.Machine
end

