-- ==== Sys2Proof/Machine/Seal.lean ====
section
/-!
DEFINITION. Sealing (R190 to R199, R521, R522): KEK slots, the key vault, next keys, and the encryption between the reading room
and the bays.
-/

namespace Sys2Proof.Machine

open Sys2Proof

/-! ## Keys -/

/-- The value of a slot; none where nothing is loaded. -/
def slotAt {α : Type} (m : SMap α) (k : Nat) : Option α := (m.find? (fun kv => kv.1 = k)).map (·.2)

/-- Whether a patron exists on this variant (R3). -/
def State.patronExists (s : State) (p : Nat) : Bool := !(s.fuses.variantS && decide (1024 ≤ p))

/-- The key an epoch selects (R197, R521): the vault key where it is present, else the next key. -/
def Dev.keyFor (d : Dev) (p : Nat) (epoch : Bool) : Option (BitVec 512) :=
  if d.flag (F.PATRON_STATUS_KEY_EPOCH p) = epoch then
    if d.flag (F.PATRON_STATUS_KEY_LOADED p) && !d.flag (F.PATRON_STATUS_KEY_LOST p) then slotAt d.vault p else none
  else slotAt d.nextKeys p

/-- The epoch that new data of a patron is sealed under (R197). -/
def Dev.newEpoch (d : Dev) (p : Nat) : Bool :=
  if (slotAt d.nextKeys p).isSome then !d.flag (F.PATRON_STATUS_KEY_EPOCH p) else d.flag (F.PATRON_STATUS_KEY_EPOCH p)

/-- A double error in a vault slot (R199): the slot is zeroed and the key is lost. -/
def Dev.vaultError (d : Dev) (p : Nat) : Dev :=
  let d := { d with vault := SMap.erase p d.vault }
  (d.wrs [(F.PATRON_STATUS_KEY_LOST p, 1), (F.PATRON_STATUS_KEY_LOADED p, 0)]).raise .vaultUe Src.device [(p, 12)]

/-! ## Lines between the reading room and the bays (R190 to R192) -/

/-- Plaintext as stored: zero lines pass through, others are encrypted under the line's DPA (R190, R191). -/
def sealed (key : BitVec 512) (dpa : Nat) (data : LineData) : LineData :=
  if data = 0 then 0 else sealLine (bytesOfNat 64 key.toNat) (dpa / 64 * 64) data

/-- Stored data as plaintext (R190, R191). -/
def unsealed (key : BitVec 512) (dpa : Nat) (data : LineData) : LineData :=
  if data = 0 then 0 else unsealLine (bytesOfNat 64 key.toNat) (dpa / 64 * 64) data

/-- Sealing counted at its slice (R201): a zero line passed, a line encrypted (`enc`) or decrypted. -/
def Dev.countSeal (d : Dev) (shaft : Nat) (enc : Bool) (data : LineData) (p : Nat) : Dev :=
  d.count (if data = 0 then 0x040B else if enc then 0x0409 else 0x040A) (sealSlice shaft) (some p)

/-! ## Commands (Tables 7.21 to 7.24) -/

/-- SEAL_DATA cleared, as after every command (R195). -/
def Dev.clearSealData (d : Dev) : Dev := (List.range 18).foldl (fun d i => d.wr (F.SEAL_DATA_DATA i) 0) d

/-- The 72 bytes of SEAL_DATA. -/
def Dev.sealData (d : Dev) : List Nat := (List.range 18).flatMap (fun i => bytesOfNat 4 (d.rd (F.SEAL_DATA_DATA i)))

/-- The end of a SEAL command: RESULT, and SEAL_DATA cleared. -/
def Dev.sealEnd (d : Dev) (result : Nat) : Dev :=
  (d.wrs [(F.SEAL_STATUS_RESULT, result), (F.SEAL_STATUS_NEXT_FREE, 16 - d.nextKeys.length)]).clearSealData

/-- The unwrapped key in SEAL_DATA under a KEK, or the RESULT of the first check that fails: KEK_EMPTY 4, UNWRAP_FAIL 1,
EQUAL_HALVES 7 (R195). -/
def Dev.unwrapSeal (d : Dev) (kek : Nat) : Except Nat (BitVec 512) :=
  match slotAt d.keks kek with
  | none => .error 4
  | some k =>
    match unwrapKey (bytesOfNat 32 k.toNat) d.sealData with
    | none => .error 1
    | some key =>
      if key.take 32 = key.drop 32 then .error 7 else .ok (BitVec.ofNat 512 (natOfBytes key))

/-- The result of a failed unwrap, with its fault (Table 7.27). -/
def Dev.sealFailed (d : Dev) (p result : Nat) : Dev :=
  (d.raiseIf (result = 1) .keyUnwrapFail Src.device [(p, 12)]).sealEnd result

/-- LOAD_KEK (R194): SEAL_DATA[0–7] becomes the KEK of a slot, unless KEK_LOCK is set (KEK_LOCKED, 5). -/
def Dev.loadKek (d : Dev) (slot : Nat) : Dev :=
  if d.flag F.SEAL_CTL_KEK_LOCK then d.sealEnd 5
  else ({ d with keks := SMap.insert slot (BitVec.ofNat 256 (natOfBytes (d.sealData.take 32))) d.keks } : Dev).sealEnd 0

/-- LOAD_KEY (R195, R196), its conditions in their order. -/
def Dev.loadKey (d : Dev) (present : Bool) (p kek : Nat) : Dev :=
  if !present ∨ p = 0 ∨ ¬ d.flag (F.PATRON_CTL_SEALED p) then d.sealEnd 6
  else if (d.flag (F.PATRON_CTL_ENABLE p) ∨ d.flag (F.PATRON_STATUS_DISABLING p)) ∧ ¬ d.flag (F.PATRON_STATUS_KEY_LOST p) then
    d.sealEnd 2
  else
    match d.unwrapSeal kek with
    | .error r => d.sealFailed p r
    | .ok key =>
      (({ d with vault := SMap.insert p key d.vault } : Dev).wrs
        [(F.PATRON_STATUS_KEY_LOADED p, 1), (F.PATRON_STATUS_KEY_LOST p, 0), (F.PATRON_STATUS_KEY_EPOCH p, 0)]).sealEnd 0

/-- LOAD_NEXT (R197): a sealed, enabled patron (else NOT_SEALED), a free next-key slot (else NO_NEXT_SLOT), then the unwrap; the
order beyond R522 is the model's (log entry 10). -/
def Dev.loadNext (d : Dev) (present : Bool) (p kek : Nat) : Dev :=
  if !present ∨ p = 0 ∨ ¬ d.flag (F.PATRON_CTL_SEALED p) ∨ ¬ d.flag (F.PATRON_CTL_ENABLE p) then d.sealEnd 6
  else if 16 ≤ d.nextKeys.length ∨ (slotAt d.nextKeys p).isSome then d.sealEnd 3
  else
    match d.unwrapSeal kek with
    | .error r => d.sealFailed p r
    | .ok key =>
      (({ d with nextKeys := SMap.insert p key d.nextKeys } : Dev).wr (F.PATRON_STATUS_NEXT_KEY_LOADED p) 1).sealEnd 0

/-- A patron's next-key slot freed. -/
def Dev.freeNext (d : Dev) (p : Nat) : Dev :=
  ({ d with nextKeys := SMap.erase p d.nextKeys } : Dev).wr (F.PATRON_STATUS_NEXT_KEY_LOADED p) 0

/-- DROP_NEXT (R197): only while no REKEY of the patron runs. -/
def Dev.dropNext (d : Dev) (present : Bool) (p : Nat) : Dev :=
  if !present ∨ p = 0 ∨ ¬ d.flag (F.PATRON_CTL_SEALED p) ∨ d.rekeying.contains p then d.sealEnd 6
  else (d.freeNext p).sealEnd 0

/-- CLEAR_KEK (R194): always accepted. -/
def Dev.clearKek (d : Dev) (slot : Nat) : Dev := ({ d with keks := SMap.erase slot d.keks } : Dev).sealEnd 0

/-- LOAD_KEK (R194). -/
def execLoadKek (slot : Fin 16) (s : State) : Host.Outcome State Fault Refusal := s.next fun d => d.loadKek slot

/-- LOAD_KEY (R195). -/
def execLoadKey (patron : Fin 4096) (kek : Fin 16) (s : State) : Host.Outcome State Fault Refusal :=
  s.next fun d => d.loadKey (s.patronExists patron) patron kek

/-- LOAD_NEXT (R197). -/
def execLoadNext (patron : Fin 4096) (kek : Fin 16) (s : State) : Host.Outcome State Fault Refusal :=
  s.next fun d => d.loadNext (s.patronExists patron) patron kek

/-- DROP_NEXT (R197). -/
def execDropNext (patron : Fin 4096) (s : State) : Host.Outcome State Fault Refusal :=
  s.next fun d => d.dropNext (s.patronExists patron) patron

/-- CLEAR_KEK (R194). -/
def execClearKek (slot : Fin 16) (s : State) : Host.Outcome State Fault Refusal := s.next fun d => d.clearKek slot

/-- SEAL_RESERVED_OP (R195): nothing runs, RESULT stands, SEAL_DATA is cleared. -/
def execSealReservedOp (s : State) : Host.Outcome State Fault Refusal := s.next fun d => d.clearSealData

/-- KEK_LOCK (R194). -/
def execKekLock (s : State) : Host.Outcome State Fault Refusal := s.next fun d => d.wr F.SEAL_CTL_KEK_LOCK 1

end Sys2Proof.Machine
end

