-- ==== Sys2Proof/Machine/Room.lean ====
section
/-!
DEFINITION. The reading room (R46 to R52, R151): lookup, allocation with way masks and occupancy caps, the hand-off of dirty
lines to their bays, fills, and flushes.
-/

namespace Sys2Proof.Machine

open Sys2Proof

/-! ## Places -/

/-- The place of a way: slice, set and way. -/
def roomKey (slice set way : Nat) : Nat := (slice * 8192 + set % 8192) * 16 + way

/-- The slice of a way's place. -/
def roomKeySlice (key : Nat) : Nat := key / 16 / 8192

/-- The physical shaft of a DPA in this layout (R35). -/
def State.shaftOf (s : State) (dpa : Nat) : Nat := dpaShaft s.layout.shaftHash dpa

/-- The line of the room that holds a DPA, with its place. -/
def State.roomLine (s : State) (dpa : Nat) : Option (Nat × RoomLine) :=
  s.dev.room.find? (fun kl => kl.2.tag = dpa / 64)

/-- A line of the room replaced. -/
def Dev.setRoom (d : Dev) (key : Nat) (l : RoomLine) : Dev := { d with room := SMap.insert key l d.room }

/-- A line of the room invalidated. -/
def Dev.dropRoom (d : Dev) (key : Nat) : Dev := { d with room := SMap.erase key d.room }

/-! ## Scope of a flush (R52) -/

/-- Whether a flush runs. -/
def Dev.flushing (d : Dev) : Bool := d.flag F.RR_FLUSH_STATUS_BUSY

/-- The scope that RR_FLUSH_CTL, RR_FLUSH_BASE and RR_FLUSH_LIMIT set. -/
def Dev.scopeSet (d : Dev) : FlushScope where
  invalidate := d.flag F.RR_FLUSH_CTL_INVALIDATE
  scope := d.rd F.RR_FLUSH_CTL_SCOPE
  slice := d.rd F.RR_FLUSH_CTL_SLICE
  group := d.rd F.RR_FLUSH_CTL_GROUP
  base := d.rd F.RR_FLUSH_BASE_LINE
  limit := d.rd F.RR_FLUSH_LIMIT_LINE

/-- Whether a line of the room lies in a scope. -/
def FlushScope.covers (f : FlushScope) (key : Nat) (l : RoomLine) : Bool :=
  match f.scope with
  | 0 => true
  | 1 => roomKeySlice key = f.slice
  | 2 => l.grp = f.group
  | _ => decide (f.base ≤ l.tag ∧ l.tag ≤ f.limit)

/-- Whether an access to a line by a group lies in that scope (R52). -/
def State.accessInScope (s : State) (dpa grp : Nat) : Bool :=
  match s.dev.flushScope.scope with
  | 0 => true
  | 1 => roomSlice (s.shaftOf dpa) = s.dev.flushScope.slice
  | 2 => (match s.roomLine dpa with
          | some kl => kl.2.grp
          | none => grp) = s.dev.flushScope.group
  | _ => decide (s.dev.flushScope.base ≤ dpa / 64 ∧ dpa / 64 ≤ s.dev.flushScope.limit)

/-! ## Where a line lies -/

/-- The home of a line: on a shaft, on a retired shelf (R288), or on a lost pair (R41). -/
inductive Home where
  | dram (loc : Nat)
  | retired
  | lost (loc : Nat)
  deriving DecidableEq, Repr

/-- The second copy of a line whose shelf is being spared (R282, R286): the physical line on the reserve level where the bay has
copied the line already. -/
def State.sparedCopy (s : State) (dpa : Nat) : Option Nat :=
  let d := s.dev
  if d.rd F.SPARE_STATUS_STATE < 2 ∨ d.levelOfShelf (dpaShelf dpa) ≠ some (d.rd F.SPARE_STATUS_SOURCE) then none
  else
    let n := s.shaftOf dpa
    let v := d.rd F.DEV_STACK_CURRENT_RESERVE
    if dpaRow dpa * 512 + dpaBank dpa * 32 + dpaLineInRow dpa < SMap.get 0 d.spareCursor n then
      some (lineKey n v (dpaBank dpa) (d.physRow n v (dpaBank dpa) (dpaRow dpa)) (dpaLineInRow dpa))
    else none

/-- The home of a DPA: a line already copied by a running sparing is read from the reserve level (Table 11.3). -/
def State.home (s : State) (dpa : Nat) : Home :=
  match s.locOf dpa with
  | none => .retired
  | some loc =>
    if s.dev.rd (F.TWIN_STATUS_MODE (locShaft loc)) = 3 then .lost loc else .dram ((s.sparedCopy dpa).getD loc)

/-- Whether a DPA lies on a shaft of a lost pair (R41). -/
def State.isLost (s : State) (dpa : Nat) : Bool :=
  match s.home dpa with
  | .lost _ => true
  | _ => false

/-- Whether accesses to a line neither hit nor allocate: its slice is not in service, or an invalidating flush has it in scope
(R51, R52), or its pair is lost, when every read of it is poisoned (R41). -/
def State.roomBypassed (s : State) (dpa grp : Nat) : Bool :=
  s.isLost dpa || !s.dev.domainOn (Dom.roomSlice (roomSlice (s.shaftOf dpa))) ||
    (s.dev.flushing && s.dev.flushScope.invalidate && s.accessInScope dpa grp)

/-- Whether a line's bay can serve it now. -/
def State.canServe (s : State) (loc : Nat) : Bool :=
  s.dev.shaftServes (locShaft loc) (locLevel loc) && s.dev.portPowered (locShaft loc) (locLevel loc)

/-! ## Writes to a shaft -/

/-- All merge-buffer entries of a line issued and completed, in their order (R49, R50). -/
def State.completeLine (s : State) (bay loc : Nat) : State :=
  let entries := (s.dev.mergeOf bay).filter (fun e => e.loc = loc && e.st ≠ .filling)
  entries.foldl (fun s e =>
    let s := s.withDev fun d => d.setMerge bay ((d.mergeOf bay).map (fun x => if x = e then { x with st := .issued } else x))
    (s.mergeComplete bay { e with st := .issued }).withDev fun d => d.charge (locShaft loc) e.cls e.grp) s

/-- Data of the room as it is stored: sealed where its line records a patron; poison over zeros where the key is gone (R192,
R199). -/
def State.storedForm (s : State) (l : RoomLine) : LineData × Bool :=
  if ¬ l.sealed then (l.data, l.poison)
  else
    match s.dev.keyFor l.patron l.epoch with
    | some k => (sealed k (l.tag * 64) l.data, l.poison)
    | none => (0, true)

/-- A write of one line under a mask, to where it lives: the end is that of the merge buffer; a retired or lost target takes no
shaft access (R148, R288). A line copied by a running sparing is written to both levels, the second as A5 (Table 11.3, R283). -/
def State.shaftWrite (s : State) (dpa : Nat) (data : LineData) (mask : BitVec 64) (poison room : Bool) (cls grp : Nat)
    (wire : CodeWord) : MergeEnd × State :=
  match s.home dpa with
  | .retired => (.targetPoisoned, s.withDev fun d => d.count 0x0716 (s.shaftOf dpa))
  | .lost _ => (.targetPoisoned, s)
  | .dram loc =>
    let bay := s.dev.drivingBay (locShaft loc)
    let s :=
      match s.sparedCopy dpa, s.locOf dpa with
      | some _, some old =>
        (s.mergeWrite bay old (dpa / 64) data mask poison false 5 0 wire).2.withDev fun d => (d.count 0x0712 bay).charge (locShaft loc) 5 0
      | _, _ => s
    s.mergeWrite bay loc (dpa / 64) data mask poison room cls grp wire

/-- A dirty line handed to its bay (R49): it enters WRITING; where its bay serves, the line is on its shaft before the step ends.
A full merge buffer leaves it DIRTY. -/
def State.handBack (s : State) (key : Nat) (l : RoomLine) (cls grp : Nat) : State :=
  let dpa := l.tag * 64
  let st := s.storedForm l
  let s := if l.sealed then s.withDev fun d => d.countSeal (s.shaftOf dpa) true l.data l.patron else s
  let (e, s) := s.shaftWrite dpa st.1 fullMask st.2 true cls grp 0
  if e = .full then s
  else
    let s := s.withDev fun d => d.setRoom key { l with st := .writing, redirty := false }
    match s.home dpa with
    | .dram loc => if s.canServe loc then s.completeLine (s.dev.drivingBay (locShaft loc)) loc else s
    | _ => s.withDev fun d => d.roomWritten l.tag

/-! ## Allocation (R48) -/

/-- Lines of a slice counted to a group. -/
def Dev.occupancy (d : Dev) (slice grp : Nat) : Nat :=
  (d.room.filter (fun kl => roomKeySlice kl.1 = slice && kl.2.grp = grp)).length

/-- The ways a group may take in a set: the ways of its mask, only its own lines' ways at its occupancy cap; with whether each is
INVALID. -/
def State.eligibleWays (s : State) (slice set grp : Nat) : List Nat :=
  let g := s.dev.group grp
  let mask := g.wayMask
  let capped := g.occCap ≠ 0xFFFF && decide (4 * g.occCap ≤ s.dev.occupancy slice grp)
  (List.range 16).filter (fun w =>
    mask.testBit w &&
      (!capped || match slotAt s.dev.room (roomKey slice set w) with
                  | some l => l.grp == grp
                  | none => false))

/-- A way for a new line (R48, R49): an INVALID one if there is one, else a victim that is not the most recently used; a dirty
victim is written first. None where no way can be had: the access is then served uncached. -/
def State.roomWay (s : State) (dpa grp : Nat) : Option Nat × State :=
  let n := s.shaftOf dpa
  let slice := roomSlice n
  let set := roomSet n dpa
  let ways := s.eligibleWays slice set grp
  match ways.find? (fun w => (slotAt s.dev.room (roomKey slice set w)).isNone) with
  | some w => (some (roomKey slice set w), s)
  | none =>
    let mru := SMap.get 16 s.dev.roomMru (slice * 8192 + set)
    let cand := if ways.filter (· ≠ mru) = [] then ways else ways.filter (· ≠ mru)
    match cand with
    | [] => (none, s)
    | c :: cs =>
      let key := roomKey slice set ((c :: cs).getD (Config.victim s.dev.freeCount % (c :: cs).length) c)
      let s := s.withDev fun d => { d with freeCount := d.freeCount + 1 }
      match slotAt s.dev.room key with
      | none => (some key, s)
      | some l =>
        let s := if l.st = .dirty then s.handBack key l 0 l.grp else s
        match slotAt s.dev.room key with
        | some l' => if l'.st = .clean then (some key, s.withDev fun d => d.dropRoom key) else (none, s)
        | none => (some key, s)

/-- A line put into the room and noted as the most recently used way of its set. -/
def State.roomPut (s : State) (key : Nat) (l : RoomLine) : State :=
  s.withDev fun d => { d.setRoom key l with roomMru := SMap.put 16 d.roomMru (key / 16) (key % 16) }

/-! ## Errors at an access (R151) -/

/-- A line of the room as an access finds it with the error the outside adds: a single error is corrected; a double one drops a
CLEAN line and poisons a DIRTY or WRITING one; a lost tag drops a CLEAN line and is RR_TAG_LOST otherwise. -/
def State.roomTouched (s : State) (key : Nat) (l : RoomLine) (err : RoomError) : Option RoomLine × State :=
  let slice := roomKeySlice key
  match err with
  | .none => (some l, s)
  | .single => (some l, s.withDev fun d => (d.bump (F.RR_INTEG_SINGLE slice)).raise .rrCe (Src.roomSlice slice))
  | .double =>
    if l.st = .clean then (none, s.withDev fun d => (d.dropRoom key).bump (F.RR_INTEG_REFETCHED slice))
    else
      let l := { l with poison := true }
      (some l, s.withDev fun d => ((d.setRoom key l).bump (F.RR_INTEG_POISONED slice)).raise .rrUe (Src.roomSlice slice))
  | .tagLost =>
    if l.st = .clean then (none, s.withDev fun d => d.dropRoom key)
    else (none, s.withDev fun d => (d.dropRoom key).raise .rrTagLost (Src.roomSlice slice))

/-! ## Flushes (R52) -/

/-- One line of the flush's scope: a DIRTY one is handed to its bay; a WRITING one is written where its bay serves. -/
def State.flushLine (s : State) (tag : Nat) : State :=
  match s.roomLine (tag * 64) with
  | none => s.withDev fun d => d.flushWritten tag
  | some (key, l) =>
    match l.st with
    | .clean => s.withDev fun d => d.flushWritten tag
    | .dirty => s.handBack key l 7 0
    | .writing =>
      match s.home (tag * 64) with
      | .dram loc => if s.canServe loc then s.completeLine (s.dev.drivingBay (locShaft loc)) loc else s
      | _ => s

/-- The lines of a running flush that still wait tried again. -/
def State.pumpFlush (s : State) : State :=
  if s.dev.flag F.SAFE_STATUS_ACTIVE then s else s.dev.flushWait.foldl State.flushLine s

/-- A flush with a scope, which it keeps until it ends (R52). -/
def State.flush (s : State) (f : FlushScope) : State :=
  let d : Dev := { s.dev with flushScope := f }
  let inScope := d.room.filter (fun kl => f.covers kl.1 kl.2)
  let tags := (inScope.filter (fun kl => kl.2.st ≠ .clean)).map (·.2.tag)
  let d := d.wrs [(F.RR_FLUSH_STATUS_BUSY, 1), (F.RR_FLUSH_CTL_START, 1), (F.RR_FLUSH_STATUS_LINES_WRITTEN, 0)]
  let d := if f.invalidate then
      { d with room := d.room.filter (fun kl => !(f.covers kl.1 kl.2 && kl.2.st = .clean)) } else d
  if tags = [] then
    { s with dev := d.wrs [(F.RR_FLUSH_STATUS_BUSY, 0), (F.RR_FLUSH_CTL_START, 0), (F.RR_FLUSH_STATUS_DONE, 1)] }
  else ({ s with dev := { d with flushWait := tags } } : State).pumpFlush

/-- A running flush ended by the safe state or CLOSED entry (R52). -/
def Dev.flushAbort (d : Dev) : Dev :=
  if d.flushing then
    ({ d with flushWait := [], disableFlush := d.disableFlush.map (fun x => (x.1, false)) } : Dev).wrs
      [(F.RR_FLUSH_STATUS_BUSY, 0), (F.RR_FLUSH_CTL_START, 0), (F.RR_FLUSH_STATUS_ABORTED, 1)]
  else d

/-- The write of RR_FLUSH_CTL that starts a flush (Table 2.9): it has no effect while BUSY, nor while a patron's disable flushes its
group (Table 7.10, Step 4). -/
def State.flushStart (s : State) (value : Nat) : State :=
  if s.dev.flushing ∨ s.dev.disableFlush.isSome then s
  else
    let s := s.withDev fun d => d.wrs [(F.RR_FLUSH_CTL_INVALIDATE, value / 2), (F.RR_FLUSH_CTL_SCOPE, value / 4),
      (F.RR_FLUSH_CTL_SLICE, value / 16), (F.RR_FLUSH_CTL_GROUP, value / 256)]
    s.flush s.dev.scopeSet

/-- RR_FLUSH_START (R52). -/
def execRrFlushStart (value : Word) (s : State) : Host.Outcome State Fault Refusal := .next (s.flushStart value.toNat)

/-- A slice flushed and invalidated because it leaves service (R51, Table 17.4): its dirty lines are handed to their bays and
its lines are dropped; a line whose bay does not serve now stays WRITING until its write is reported. -/
def State.emptySlice (s : State) (slice : Nat) : State :=
  let s := (s.dev.room.filter (fun kl => roomKeySlice kl.1 = slice && kl.2.st = .dirty)).foldl
    (fun s kl => s.handBack kl.1 kl.2 7 0) s
  s.withDev fun d => { d with room := d.room.filter (fun kl => !(roomKeySlice kl.1 = slice && kl.2.st = .clean)) }

end Sys2Proof.Machine
end

