-- ==== Sys2Proof/Machine/Transfer.lean ====
section
/-!
DEFINITION. Line transfers on a shaft (R72 to R74, R128, R134 to R138, R142, R154 to R158): what the head of the transfer order
moves and everything that follows, beat stalls, and the commands of the merge buffer and of shelf-reading.
-/

namespace Sys2Proof.Machine

open Sys2Proof

/-! ## Steward words (Tables 4.11, 5.4, 11.8) -/

/-- The bank interval in ns: window ÷ 1,552, saturating at 65,535 (R107). -/
def Dev.bankInterval (d : Dev) (level : Nat) : Nat := min 65535 (d.rd (F.REFRESH_STATUS_WINDOW level) * 1000 / 1552)

/-- The open withdrawal of a shelf as word 288 (Table 11.8). -/
def Shelf.word288 (p : Shelf) : Nat :=
  if p.wdOpen then 1 + p.wdBank * 2 + p.wdRow * 2 ^ 5 + p.wdSpare * 2 ^ 18 + p.wdCopied.toNat * 2 ^ 24 else 0

/-- A claim slot's two words (Table 5.4). -/
def claimWord (c : Option Claim) (second : Bool) : Nat :=
  match c with
  | none => 0
  | some c =>
    if second then c.lower % 2 ^ 13 + c.upper % 2 ^ 13 * 2 ^ 13
    else 1 + c.bank * 2 + c.row % 2 ^ 13 * 2 ^ 5 + c.deadline.toNat * 2 ^ 18

/-- A steward word of a shelf, 0 where reserved (R128). -/
def Dev.stewardWord (d : Dev) (shaft level w : Nat) : Nat :=
  let sh := shelfKey shaft level
  let p := d.shelf sh
  let bk := fun k => d.bank (bankKey shaft level k)
  if w < 2 then
    (List.range 8).foldl (fun n i =>
      n + (if p.st = .selfRefresh then 5 else (bk (8 * w + i)).st.code) * 2 ^ (4 * i)) 0
  else if w = 2 then p.alertCause + p.faultBank * 2 ^ 8 + p.faultOp * 2 ^ 12 + p.st.code * 2 ^ 16
  else if w = 3 then
    d.portGrant level % 2 ^ 12 + SMap.get (d.portGrant level) d.grantNext level % 2 ^ 12 * 2 ^ 12
  else if w < 12 then
    let row := fun k => if (bk k).st = .opened then (bk k).row else 0
    row (2 * (w - 4)) + row (2 * (w - 4) + 1) * 2 ^ 16
  else if 16 ≤ w ∧ w < 20 then
    (List.range 4).foldl (fun n i => n + toField 8 (d.owedOf (bankKey shaft level (4 * (w - 16) + i))) * 2 ^ (8 * i)) 0
  else if w = 20 then
    (List.range 16).foldl (fun n k => n + (decide (8 ≤ d.owedOf (bankKey shaft level k))).toNat * 2 ^ k) 0
      + d.openClaims sh * 2 ^ 16
      + (d.claims.any (fun kc => kc.1 / 32 = sh && kc.2.deadline)).toNat * 2 ^ 22
  else if w = 21 then d.bankInterval level
  else if 24 ≤ w ∧ w < 88 then claimWord (d.claimAt (sh * 32 + (w - 24) / 2)) (w % 2 = 1)
  else if 256 ≤ w ∧ w < 288 then
    let used := d.sparesUsed (bankKey shaft level ((w - 256) / 2))
    (2 ^ 32 - 1) ^^^ (used / 2 ^ (32 * (w % 2)) % 2 ^ 32)
  else if w = 288 then p.word288
  else if w = 289 then
    min 16 (SMap.get [] d.proposals level).length + min 255 (SMap.get 0 d.proposalsDropped level) * 2 ^ 8
  else 0

/-- The 64-byte block that holds an indexed word (R128). -/
def Dev.stewardBlock (d : Dev) (shaft level word : Nat) : LineData :=
  BitVec.ofNat 512 ((List.range 16).foldl (fun n i => n + d.stewardWord shaft level (word / 16 * 16 + i) * 2 ^ (32 * i)) 0)

/-! ## Shelf-reading (R154 to R156) -/

/-- Lines of a shelf-reading pass: 3,145,728 to each DATA level (R154). -/
def Dev.passLines (d : Dev) : Nat := 3145728 * ((List.range 17).filter (fun l => d.role l = 0)).length

/-- A pass ends and the next one starts (R155, R156, R158): the symbol and row counts start again. -/
def Dev.passEnd (d : Dev) (bay : Nat) : Dev :=
  let d := d.bump (F.SHELF_READ_PASSES_PASSES bay)
  let d := if d.flag (F.SHELF_READ_STATUS_LATE bay) then d.bump (F.SHELF_READ_PASSES_LATE_PASSES bay) else d
  let d := d.wrs [(F.SHELF_READ_STATUS_LINES_DONE bay, 0), (F.SHELF_READ_STATUS_LATE bay, 0),
    (F.SHELF_READ_STATUS_BEHIND bay, 0)]
  { d with passStart := SMap.put 0 d.passStart bay d.time,
           passMinutes := SMap.put 1440 d.passMinutes bay (clampNat 60 1440 (d.rd F.INTEG_CTL_SHELF_READ_INTERVAL)),
           symbolCount := d.symbolCount.filter (fun kv => kv.1 / 72 / 17 ≠ bay),
           symbolWires := d.symbolWires.filter (fun kv => kv.1 / 4 / 72 / 17 ≠ bay),
           rowErrors := d.rowErrors.filter (fun kv => kv.1 / 6208 / 16 / 17 ≠ bay) }

/-- A line read by shelf-reading (R154, R155). -/
def Dev.scrubbed (d : Dev) (shaft : Nat) : Dev :=
  if ¬ d.flag F.INTEG_CTL_SHELF_READ_EN then d
  else
    let d := d.bump (F.SHELF_READ_STATUS_LINES_DONE shaft)
    if d.passLines ≤ d.rd (F.SHELF_READ_STATUS_LINES_DONE shaft) then d.passEnd shaft else d

/-! ## The wing's held writes (R143, R146) -/

/-- A write to a line, or its wait at the wing while the buffer is full, the shaft switches or the safe state holds (R143, R145,
R146); true where the target was poisoned. -/
def State.mergeRequest (s : State) (r : MergeReq) : State :=
  let dpa := r.dpaLine.toNat * 64
  let n := s.shaftOf dpa
  let wait := fun (s : State) =>
    s.withDev fun d => { d with mergeWaits := SMap.put [] d.mergeWaits n (SMap.get [] d.mergeWaits n ++ [r]) }
  if s.dev.flag (F.TWIN_STATUS_SWITCHING n) ∨ s.dev.flag F.SAFE_STATUS_ACTIVE then wait s
  else
    let (e, s) := s.shaftWrite dpa r.data r.mask r.poison false r.cls r.grp 0
    match e with
    | .full => wait s
    | .filling => s
    | e => s.withDev fun d => { d with mergeStatus := SMap.put false d.mergeStatus r.dpaLine.toNat (e = .targetPoisoned) }

/-- The writes held for a shaft tried again in their order. -/
def State.pumpMerge (s : State) (shaft : Nat) : State :=
  let q := SMap.get [] s.dev.mergeWaits shaft
  q.foldl State.mergeRequest (s.withDev fun d => { d with mergeWaits := SMap.put [] d.mergeWaits shaft [] })

/-- MERGE_WRITE (R142). -/
def execMergeWrite (write : MergeReq) (s : State) : Host.Outcome State Fault Refusal := .next (s.mergeRequest write)

/-- MERGE_GATHER_EXPIRY (R143): the oldest HELD entry is issued; none in the safe state (R145). -/
def execMergeGatherExpiry (bay : Fin 64) (s : State) : Host.Outcome State Fault Refusal :=
  s.next fun d => if d.flag F.SAFE_STATUS_ACTIVE then d else d.setMerge bay (issueOldest (d.mergeOf bay))

/-- SHELF_READ_DEADLINE (R156): a pass not complete at its deadline is late, once. -/
def execShelfReadDeadline (bay : Fin 64) (s : State) : Host.Outcome State Fault Refusal :=
  s.next fun d =>
    if d.flag F.INTEG_CTL_SHELF_READ_EN ∧ ¬ d.flag (F.SHELF_READ_STATUS_LATE bay) then
      (d.wr (F.SHELF_READ_STATUS_LATE bay) 1).raise .shelfReadLate (Src.bay bay)
    else d

/-! ## Line transfers -/

/-- The physical line of a place in the transfer order. -/
def Dev.xferLoc (d : Dev) (shaft : Nat) (x : Xfer) : Nat :=
  lineKey shaft x.level x.bank (d.physRow shaft x.level x.bank x.row) x.line

/-- Auto-precharge after the transfer (Table 4.5). -/
def Dev.autoPrecharge (d : Dev) (shaft : Nat) (x : Xfer) : Dev :=
  let k := bankKey shaft x.level x.bank
  if x.ap ∧ (d.bank k).st = .opened then (d.startBank k .precharging .pre).setBayBank k .precharging else d

/-- What a read delivered (R134). -/
def Dev.deliver (d : Dev) (shaft : Nat) (data : LineData) (poison : Bool) : Dev :=
  d.setShaft shaft fun t => { t with lastData := data, lastPoison := poison }

/-- A read's line transfer (R134 to R138, R142, R154): served from a HELD or ISSUED entry where there is one, else decoded; a
FILLING entry of the line is completed by it. -/
def State.readTransfer (s : State) (shaft : Nat) (x : Xfer) (wire : CodeWord) : State :=
  let bay := s.dev.drivingBay shaft
  let loc := s.dev.xferLoc shaft x
  let s :=
    match s.dev.mergeNewest bay loc with
    | some e => if x.scrub then (s.bayRead bay loc wire false none).2 else s.withDev fun d => d.deliver shaft e.data e.poison
    | none =>
      let filling := (s.dev.mergeOf bay).any (fun e => e.loc = loc && e.st = MergeSt.filling)
      let (r, s) := s.bayRead bay loc wire filling (if x.patron = 0 then none else some x.patron)
      (if filling then s.withDev fun d => d.mergeFilled bay loc r else s).withDev fun d => d.deliver shaft r.data r.poison
  s.withDev fun d => if x.scrub then d.scrubbed shaft else d

/-- A write's line transfer (Table 6.5): the ISSUED entry of the line reaches DRAM as it crossed the wires. -/
def State.writeTransfer (s : State) (shaft : Nat) (x : Xfer) (wire : CodeWord) : State :=
  let bay := s.dev.drivingBay shaft
  let loc := s.dev.xferLoc shaft x
  match s.dev.mergeIssued bay loc with
  | none => s
  | some e =>
    let s := s.mergeComplete bay e
    let s := s.storeLine loc (readLine s.mem loc ^^^ wire)
    s.withDev fun d => d.setBank (bankKey shaft x.level x.bank) fun b => { b with written := true }

/-- SRW to word 288 (R294): COPIED where bits [23:0] match the open record. -/
def Dev.srw288 (d : Dev) (shaft level : Nat) (data : Nat) : Dev :=
  let sh := shelfKey shaft level
  if (d.shelf sh).wdOpen ∧ data % 2 ^ 24 = (d.shelf sh).word288 % 2 ^ 24 ∧ data.testBit 24 then
    d.setShelf sh fun p => { p with wdCopied := true }
  else d

/-- The 512 bits that an SRR, SRW or CAL transfer carries: the block of steward words, the written word, or a pattern of zeros. -/
def Dev.stewardCarried (d : Dev) (shaft : Nat) (x : Xfer) : LineData :=
  match x.kind with
  | .srr => d.stewardBlock shaft x.level x.word
  | .srw => BitVec.ofNat 512 (x.data.toNat * 2 ^ (32 * (x.word % 16)))
  | _ => 0

/-- The transfer of an SRR, SRW or CAL (R135): any outcome but CLEAN, CORRECTED and ERASURE_ONLY repeats it once; the second such
outcome is STEWARD_WORD_UE against the level. -/
def Dev.stewardTransfer (d : Dev) (shaft : Nat) (x : Xfer) (wire : CodeWord) : Dev :=
  let r := decodeLine (encodeLine (d.stewardCarried shaft x) false ^^^ wire) (d.erasures shaft x.level)
  let good := r.outcome = .clean ∨ r.outcome = .corrected ∨ r.outcome = .erasureOnly
  if ¬ good then
    if x.retried then d.raise .stewardWordUe (Src.level x.level)
    else d.setShaft shaft fun t => { t with order := { x with retried := true } :: t.order }
  else
    match x.kind with
    | .srr =>
      let base := x.word / 16 * 16
      let slots := (List.range 32).filter (fun i => decide (base ≤ 24 + 2 * i) && decide (24 + 2 * i < base + 16))
      (d.deliver shaft r.data false).readClaims shaft x.level slots
    | .srw => if x.word = 288 then d.srw288 shaft x.level (r.data.toNat / 2 ^ (32 * (x.word % 16)) % 2 ^ 32) else d
    | _ => d

/-- The transfer at the head of a shaft's order, done (R73). -/
def State.transfer (s : State) (shaft : Nat) (x : Xfer) (rest : List Xfer) (wire : CodeWord) : State :=
  let s := s.withDev fun d => d.setShaft shaft fun t => { t with order := rest }
  let s :=
    match x.kind with
    | .read => (s.readTransfer shaft x wire).withDev fun d => d.autoPrecharge shaft x
    | .write => (s.writeTransfer shaft x wire).withDev fun d => d.autoPrecharge shaft x
    | _ => s.withDev fun d => d.stewardTransfer shaft x wire
  (s.pumpMerge shaft).pumpFlush

/-- A line transfer (R72, R73): the head of the transfer order. A dual-rail control bit that reads 11 is a fault at the receiver,
which does not acknowledge (R57): nothing moves. -/
def State.lineTransfer (s : State) (shaft : Nat) (wire : CodeWord) (illegal : Bool) : State :=
  match (s.dev.shaft shaft).order with
  | [] => s
  | x :: rest =>
    if illegal then
      s.withDev fun d =>
        match x.kind with
        | .read | .srr | .calRead => d.raise .dualRailIllegal (Src.bay shaft)
        | _ => d.raise .dualRailIllegal (Src.level x.level)
    else s.transfer shaft x rest wire

/-! ## Beat stalls (R86, R87) -/

/-- A stall of the transfer at the head: counted and raised; the shelf's entries are re-issued once. At the second failure a
read ends as an uncorrectable read, its data open, and a write stays pending in the bay (R87). -/
def State.stall (s : State) (shaft : Nat) (x : Xfer) (rest : List Xfer) : State :=
  let s := s.withDev fun d => (d.bump (F.SHAFT_ALERTS_BEAT_STALLS shaft)).raise .beatStall (Src.bay shaft)
  if ¬ x.retried then s.withDev fun d => d.reissue shaft x.level
  else
    let s := s.withDev fun d => d.setShaft shaft fun t => { t with order := rest }
    if x.kind = .read then
      let r : LineRead := { outcome := .uncorrectable, data := Config.lostLine s.dev.freeCount, poison := true, errors := [] }
      let s := s.withDev fun d => ({ d with freeCount := d.freeCount + 1 } : Dev).deliver shaft r.data true
      s.afterRead (s.dev.drivingBay shaft) (s.dev.xferLoc shaft x) 0 r false none
    else s

/-- BEAT_STALL (R86). -/
def execBeatStall (shaft : Fin 64) (s : State) : Host.Outcome State Fault Refusal :=
  .next <|
    match (s.dev.shaft shaft).order with
    | [] => s
    | x :: rest => s.stall shaft x rest

/-- READ_START_TIMEOUT (R86): a read at the head not started within 100 ns is treated as a stalled transfer. -/
def execReadStartTimeout (shaft : Fin 64) (s : State) : Host.Outcome State Fault Refusal :=
  .next <|
    match (s.dev.shaft shaft).order with
    | [] => s
    | x :: rest => if x.kind = .read ∨ x.kind = .srr ∨ x.kind = .calRead then s.stall shaft x rest else s

end Sys2Proof.Machine
end

