-- ==== Sys2Proof/Machine/Catalogue.lean ====
section
/-!
DEFINITION. Cards, the card index and the walk cache (R170 to R185), reads and writes of lines through the reading room (R47 to
R52, R148, R192, R193), and card updates.
-/

namespace Sys2Proof.Machine

open Sys2Proof

/-! ## Cards (R171, Table 7.11) -/

/-- A field of a card. -/
def cardField (c : Card) (lo w : Nat) : Nat := c.toNat / 2 ^ lo % 2 ^ w

/-- STATE of a card. -/
def cardState (c : Card) : Nat := cardField c 0 4
/-- VOLUME of a card. -/
def cardVolume (c : Card) : Bool := c.getLsbD 4
/-- EPOCH of a card. -/
def cardEpoch (c : Card) : Bool := c.getLsbD 44
/-- ADDRESS of a card as a DPA. -/
def cardAddress (c : Card) : Nat := cardField c 11 27 * 2048
/-- MEMBER of a card. -/
def cardMember (c : Card) : Nat := cardField c 38 6
/-- JOB of a card. -/
def cardJob (c : Card) : Nat := cardField c 46 12

/-- A card with one field replaced. -/
def setCard (c : Card) (lo w v : Nat) : Card :=
  BitVec.ofNat 64 (c.toNat - cardField c lo w * 2 ^ lo + v % 2 ^ w * 2 ^ lo)

/-- The base of the catalogue reservation (R173). -/
def State.reserveBase (s : State) : Nat := 0x10000000 * (768 - clampNat 1 16 s.layout.reserve)

/-- Whether a DPA lies in the catalogue reservation: the last of the 768 units of 256 MiB of the DPA range. -/
def State.inReserve (s : State) (dpa : Nat) : Bool :=
  decide (768 - clampNat 1 16 s.layout.reserve ≤ dpa / 0x10000000) && decide (dpa / 0x10000000 < 768)

/-- The bytes a leaf or volume card maps. -/
def cardSpan (c : Card) : Nat := if cardVolume c then 2 ^ 24 else 2 ^ 16

/-- Whether a card of a level (1 to 4) is malformed (R172). -/
def State.malformed (s : State) (patron level : Nat) (c : Card) : Bool :=
  let st := cardState c
  let a := cardAddress c
  let own := decide (st = 2 ∨ st = 3 ∨ st = 4 ∨ st = 5 ∨ st = 6 ∨ st = 9)
  decide (10 ≤ st) || cardField c 58 6 ≠ 0 ||
  (st = 1 && (level = 4 || cardField c 4 7 ≠ 0 || cardField c 38 26 ≠ 0 || !(s.inReserve a && decide (a + 2048 ≤ dpaEnd)))) ||
  (st ≠ 0 && st ≠ 1 &&
    (decide (level ≤ 2) || (level = 3 && !cardVolume c) || (level = 4 && cardVolume c) ||
     ((st = 2 || st = 8) && cardVolume c) ||
     (st ≠ 7 && cardMember c ≠ 0) || (st ≠ 2 && c.getLsbD 45) || (st ≠ 6 && cardJob c ≠ 0) ||
     (st = 8 && (a ≠ 0 || cardEpoch c)) || (st = 7 && (a ≠ 0 || cardMember c = s.fuses.position)) ||
     (own && (a % cardSpan c ≠ 0 || decide (dpaEnd < a + cardSpan c) ||
       (patron ≠ 0 && decide (s.reserveBase < a + cardSpan c))))))

/-- The index of a patron address in a table of a level (R170). -/
def cardIndex (pa level : Nat) : Nat := pa / 2 ^ (48 - 8 * level) % 256

/-- The card at a DPA in its line. -/
def cardIn (line : LineData) (cardDpa : Nat) : Card := BitVec.ofNat 64 (line.toNat / 2 ^ (8 * (cardDpa % 64)))

/-- The permission a request needs (R174): 1 read, 2 write, 3 atomic; trolley accesses also need D. -/
def cardPermits (c : Card) (need : Nat) (trolley : Bool) : Bool :=
  (match need with
   | 1 => c.getLsbD 5
   | 2 => c.getLsbD 6
   | _ => c.getLsbD 6 && c.getLsbD 7) && (!trolley || c.getLsbD 8)

/-! ## Lines through the reading room -/

/-- Who a line is accessed for: class, group, patron, and the key its stored data is under, if sealed (R190). -/
structure Who where
  cls    : Nat
  grp    : Nat
  patron : Nat
  key    : Option (Nat × Bool) := none
  deriving DecidableEq, Repr

/-- What a read of a line gives: plaintext and POISON with whether the room held it; a wait; or a key lost meanwhile (R521). -/
inductive Got where
  | line (data : LineData) (poison hit : Bool)
  | wait (why : Hold)
  | keyMissing
  deriving DecidableEq, Repr

/-- Stored data delivered to the wing as plaintext (R192). -/
def State.deliverPlain (s : State) (w : Who) (dpa : Nat) (data : LineData) (poison : Bool) : Got × State :=
  match w.key with
  | none => (.line data poison false, s)
  | some (p, e) =>
    match s.dev.keyFor p e with
    | none => (.keyMissing, s)
    | some k => (.line (unsealed k dpa data) poison false, s.withDev fun d => d.countSeal (s.shaftOf dpa) false data p)

/-- A line read at its bay, without the reading room: from a merge-buffer entry, else from the shaft (R142, R134); a retired shelf
and a lost pair read poisoned (R288, R41). -/
def State.bayFetch (s : State) (w : Who) (dpa : Nat) (wire : CodeWord) : Got × State :=
  match s.home dpa with
  | .retired => (.line 0 true false, s.withDev fun d => d.count 0x0716 (s.shaftOf dpa))
  | .lost _ => (.line (Config.lostLine dpa) true false, s)
  | .dram loc =>
    let n := locShaft loc
    let bay := s.dev.drivingBay n
    match s.dev.mergeNewest bay loc with
    | some e => s.deliverPlain w dpa e.data e.poison
    | none =>
      if (s.dev.mergeOf bay).any (fun e => e.loc = loc && e.st = MergeSt.filling) ∨ ¬ s.canServe loc then (.wait (.shaft n), s)
      else
        let s := s.withDev fun d => d.chargePatron n w.cls w.grp w.patron
        let (r, s) := s.bayRead bay loc wire false (some w.patron)
        s.deliverPlain w dpa r.data r.poison

/-- A hit's line taken out of the way of an access that bypasses the room: a DIRTY line is handed to its bay first (R52). -/
def State.bypassLine (s : State) (dpa : Nat) : State :=
  match s.roomLine dpa with
  | some (key, l) => if l.st = .dirty then s.handBack key l 7 0 else s
  | none => s

/-- A line of the room as an access finds it: none on a miss. -/
def State.roomHit (s : State) (dpa grp : Nat) (err : RoomError) : Option (Nat × RoomLine) × State :=
  if s.roomBypassed dpa grp then (none, s.bypassLine dpa)
  else
    match s.roomLine dpa with
    | none => (none, s)
    | some (key, l) =>
      match s.roomTouched key l err with
      | (some l, s) => (some (key, l), s)
      | (none, s) => (none, s)

/-- A line read (R47, R48): from the room, else from its bay, and allocated where `alloc` says so and a way can be had. -/
def State.fetch (s : State) (w : Who) (dpa : Nat) (env : AccessEnv) (alloc : Bool) : Got × State :=
  match s.roomHit dpa w.grp env.room with
  | (some (key, l), s) => (.line l.data l.poison true, s.roomPut key l)
  | (none, s) =>
    match s.bayFetch w dpa env.wire with
    | (.line data poison hit, s) =>
      if ¬ alloc ∨ s.roomBypassed dpa w.grp then (.line data poison hit, s)
      else
        match s.roomWay dpa w.grp with
        | (some key, s) =>
          (.line data poison hit, s.roomPut key
            { tag := dpa / 64, grp := w.grp, st := .clean, data := data, poison := poison, sealed := w.key.isSome,
              patron := (w.key.map (·.1)).getD 0, epoch := (w.key.map (·.2)).getD false })
        | (none, s) => (.line data poison hit, s)
    | other => other

/-- How a write of a line ends. -/
inductive Put where
  | done
  | poisoned
  | wait (why : Hold)
  | keyMissing
  deriving DecidableEq, Repr

/-- The end of a merge-buffer write as the end of a line write. -/
def MergeEnd.put (e : MergeEnd) (n : Nat) : Put :=
  match e with
  | .done => .done
  | .targetPoisoned => .poisoned
  | .filling | .full => .wait (.shaft n)

/-- Data merged into a line of the room (R48, R49, R141): DIRTY, or modified while WRITING; a full write clears
POISON, counted for the line's shaft (Table 6.13). -/
def State.roomMerge (s : State) (w : Who) (key : Nat) (l : RoomLine) (data : LineData) (mask : BitVec 64) (poison : Bool) :
    Put × State :=
  let full := mask = fullMask
  let p := if full then poison else l.poison || poison
  let l' : RoomLine :=
    { l with data := if full then data else mergeBytes l.data data mask, poison := p,
             st := if l.st = .writing then .writing else .dirty, redirty := l.st = .writing,
             sealed := w.key.isSome, patron := (w.key.map (·.1)).getD 0, epoch := (w.key.map (·.2)).getD false }
  let s := s.roomPut key l'
  let s := if full && l.poison && !poison then s.withDev fun d => (d.bump (F.INTEG_MISC_POISON_CLEARED (s.shaftOf (l.tag * 64)))).count 0x070C (roomKeySlice key) else s
  (if p && !full then .poisoned else .done, s)

/-- A write served without the room (R51, R193): whole lines and unsealed partial lines go to the merge buffer; a sealed partial
line is read, decrypted, merged and sent as a full-mask write. -/
def State.bayPut (s : State) (w : Who) (dpa : Nat) (data : LineData) (mask : BitVec 64) (poison : Bool) (wire : CodeWord) :
    Put × State :=
  let n := s.shaftOf dpa
  if s.dev.flag (F.TWIN_STATUS_SWITCHING n) ∨ s.dev.flag F.SAFE_STATUS_ACTIVE then (.wait (.shaft n), s)
  else
    match w.key with
    | none =>
      let ok := mask = fullMask || (match s.home dpa with
        | .dram loc => s.canServe loc
        | _ => true)
      if ¬ ok then (.wait (.shaft n), s)
      else
        let (e, s) := s.shaftWrite dpa data mask poison false w.cls w.grp wire
        (e.put n, s)
    | some (p, ep) =>
      match s.dev.keyFor p ep with
      | none => (.keyMissing, s)
      | some k =>
        let send := fun (s : State) (plain : LineData) (po : Bool) =>
          let s := s.withDev fun d => d.countSeal n true plain p
          let (e, s) := s.shaftWrite dpa (sealed k dpa plain) fullMask po false w.cls w.grp wire
          match e with
          | .done => ((if po ∧ mask ≠ fullMask then Put.poisoned else .done), s)
          | e => (e.put n, s)
        if mask = fullMask then send s data poison
        else
          match s.bayFetch w dpa wire with
          | (.line old po _, s) => send s (mergeBytes old data mask) (po || poison)
          | (.wait h, s) => (.wait h, s)
          | (.keyMissing, s) => (.keyMissing, s)

/-! ## The translation state (R183, R185) -/

/-- Entries of every wing's index and walk cache taken from a card line are dropped (R185). -/
def Dev.dropCardLine (d : Dev) (lineDpa : Nat) : Dev :=
  let hit := fun (x : Nat) => x / 64 = lineDpa / 64
  let n := (d.index.flatMap (·.2)).countP (fun e => hit e.cardDpa) +
    (d.walkCache.flatMap (·.2)).countP (fun e => hit e.cardDpa)
  let d := { d with index := d.index.map (fun kv => (kv.1, kv.2.filter (fun e => !hit e.cardDpa))),
                    walkCache := d.walkCache.map (fun kv => (kv.1, kv.2.filter (fun e => !hit e.cardDpa))) }
  (List.range n).foldl (fun d _ => d.count 0x0408 0) d

/-- The card index of a wing. -/
def Dev.indexOf (d : Dev) (wing : Nat) : List IndexEntry := SMap.get [] d.index wing

/-- The index entry that serves a patron address (R183). -/
def Dev.indexFind (d : Dev) (wing patron pa : Nat) : Option IndexEntry :=
  (d.indexOf wing).find? (fun e => e.patron = patron ∧
    (if e.level = 3 then pa / 2 ^ 24 = e.base / 2 ^ 24 else pa / 2 ^ 16 = e.base / 2 ^ 16))

/-- A list with room made for one entry: a victim goes where it is full (R183). -/
def makeRoom {α : Type} (cap seed : Nat) (l : List α) : List α :=
  if l.length < cap then l else l.eraseIdx (Config.victim seed % l.length)

/-- An entry put into a wing's index of 8,192. -/
def Dev.indexPut (d : Dev) (wing : Nat) (e : IndexEntry) : Dev :=
  { d with index := SMap.insert wing (makeRoom 8192 d.freeCount (d.indexOf wing) ++ [e]) d.index,
           freeCount := d.freeCount + 1 }

/-- A TABLE card put into a wing's walk cache of 1,024. -/
def Dev.walkCachePut (d : Dev) (wing : Nat) (e : WalkEntry) : Dev :=
  let l := SMap.get [] d.walkCache wing
  { d with walkCache := SMap.insert wing (makeRoom 1024 d.freeCount l ++ [e]) d.walkCache, freeCount := d.freeCount + 1 }

/-- The deepest walk-cache entry that serves a patron address. -/
def Dev.walkCacheFind (d : Dev) (wing patron pa : Nat) : Option WalkEntry :=
  let l := SMap.get [] d.walkCache wing
  [3, 2, 1].findSome? (fun lv =>
    l.find? (fun e => e.patron = patron ∧ e.level = lv ∧ e.pfx = pa / 2 ^ (48 - 8 * lv)))

/-! ## Writes of lines (R47, R185) -/

/-- The room line that a store of a patron or of the house allocates. -/
def Who.roomLine (w : Who) (dpa : Nat) (data : LineData) (poison : Bool) : RoomLine :=
  { tag := dpa / 64, grp := w.grp, st := .dirty, data := data, poison := poison, sealed := w.key.isSome,
    patron := (w.key.map (·.1)).getD 0, epoch := (w.key.map (·.2)).getD false }

/-- A store that missed the room: by the bay, or allocated in the room, whose missing bytes its bay reads (R47, R48). -/
def State.storeMiss (s : State) (w : Who) (dpa : Nat) (data : LineData) (mask : BitVec 64) (poison : Bool) (env : AccessEnv)
    (alloc : Bool) : Put × State :=
  if ¬ alloc ∨ s.roomBypassed dpa w.grp then s.bayPut w dpa data mask poison env.wire
  else if s.home dpa = .retired then (.poisoned, s.withDev fun d => d.count 0x0716 (s.shaftOf dpa))
  else
    match s.roomWay dpa w.grp with
    | (none, s) => s.bayPut w dpa data mask poison env.wire
    | (some key, s) =>
      if mask = fullMask then (.done, s.roomPut key (w.roomLine dpa data poison))
      else
        match s.bayFetch w dpa env.wire with
        | (.line old po _, s) =>
          (if po || poison then .poisoned else .done, s.roomPut key (w.roomLine dpa (mergeBytes old data mask) (po || poison)))
        | (.wait h, s) => (.wait h, s)
        | (.keyMissing, s) => (.keyMissing, s)

/-- The entries taken from a line of the reservation dropped before it is written. -/
def State.dropReserveLine (s : State) (dpa : Nat) : State := if s.inReserve dpa then s.withDev fun d => d.dropCardLine dpa else s

/-- A line written under a mask (R47 to R51, R148): merged in the room on a hit, allocated on a miss where `alloc` says so (a
partial write fills first), and else sent to the bay. A line of the reservation first drops the entries taken from it. -/
def State.store (s : State) (w : Who) (dpa : Nat) (data : LineData) (mask : BitVec 64) (poison : Bool) (env : AccessEnv)
    (alloc : Bool) : Put × State :=
  let r := (s.dropReserveLine dpa).roomHit dpa w.grp env.room
  match r.1 with
  | some (key, l) => r.2.roomMerge w key l data mask poison
  | none => r.2.storeMiss w dpa data mask poison env alloc

/-! ## Card lines -/

/-- Nothing added by the outside world. -/
def cleanEnv : AccessEnv := { wire := 0, room := .none, vault := false, late := false }

/-- A card written in its line: the mask and data of its eight bytes. -/
def cardBytes (cardDpa : Nat) (c : Card) : LineData × BitVec 64 :=
  (BitVec.ofNat 512 (c.toNat * 2 ^ (8 * (cardDpa % 64))), BitVec.ofNat 64 (255 * 2 ^ (cardDpa % 64)))

/-- How a compare-and-swap of a card ends (R177, R180). -/
inductive Swap where
  | done
  | mismatch (found : Card)
  | poisoned
  | wait (why : Hold)
  deriving DecidableEq, Repr

/-- A compare-and-swap of a card through the reading room (R177, R180, R185). -/
def State.swapCard (s : State) (w : Who) (cardDpa : Nat) (expect new : Card) (env : AccessEnv) : Swap × State :=
  match s.fetch { w with key := none } (cardDpa / 64 * 64) env true with
  | (.line data poison _, s) =>
    if poison then (.poisoned, s)
    else if cardIn data cardDpa ≠ expect then (.mismatch (cardIn data cardDpa), s)
    else
      match s.store { w with key := none } (cardDpa / 64 * 64) (cardBytes cardDpa new).1 (cardBytes cardDpa new).2 false cleanEnv true with
      | (.wait h, s) => (.wait h, s)
      | (_, s) => (.done, s)
  | (.wait h, s) => (.wait h, s)
  | (.keyMissing, s) => (.poisoned, s)

/-- The outcome of a walk of a patron's catalogue to the card of a level: the card with its DPA and level; a fault of Table 7.16
with the level and the DPA of the card that met it; or a wait. -/
inductive Walked where
  | card (c : Card) (cardDpa level : Nat)
  | fault (code level cardDpa : Nat) (c : Card)
  | wait (why : Hold)
  deriving DecidableEq, Repr

/-- A walk from a table down to a level (fuel: the levels left), through the reading room (R170, R184). `stop` is the level at
which the card is taken whatever it is. -/
def State.walkFrom (s : State) (w : Who) (pa stop : Nat) (env : AccessEnv) : Nat → Nat → Nat → Walked × State
  | 0, _, _ => (.fault 3 4 0 0, s)
  | fuel + 1, level, table =>
    let cd := table + cardIndex pa level * 8
    match s.fetch { w with key := none } (cd / 64 * 64) env true with
    | (.line data poison _, s) =>
      let c := cardIn data cd
      if poison then (.fault 7 level cd c, s)
      else if level = stop then (.card c cd level, s)
      else if cardState c = 0 then (.fault 3 level cd c, s)
      else if s.malformed w.patron level c then (.fault 6 level cd c, s)
      else if cardState c = 1 then s.walkFrom w pa stop cleanEnv fuel (level + 1) (cardAddress c)
      else (.card c cd level, s)
    | (.wait h, s) => (.wait h, s)
    | (.keyMissing, s) => (.wait .walk, s)

/-- The DPA of the first-level table of a patron (Table 7.5). -/
def Dev.rootOf (d : Dev) (p : Nat) : Nat := d.rd (F.PATRON_ROOT_ROOT p) * 2048

/-- A walk of a patron's catalogue from its root. -/
@[irreducible] def State.walkRoot (s : State) (w : Who) (pa stop : Nat) (env : AccessEnv) : Walked × State :=
  s.walkFrom w pa stop env 4 1 (s.dev.rootOf w.patron)

end Sys2Proof.Machine
end

