-- ==== Sys2Proof/Machine/RingCore.lean ====
section
/-!
DEFINITION. What a patron's rings write (R230 to R249): completion records, fault-ring records, the progress record, ring errors
and interrupt messages.
-/

namespace Sys2Proof.Machine

open Sys2Proof

/-! ## Rings (R230, R231, R234, R235); ring 0 to 3 submission, 4 CRING, 5 FRING -/

/-- The ring states of Table 9.2. -/
def ringDisabled : Nat := 0
def ringActive : Nat := 1
def ringPaused : Nat := 2
def ringStopping : Nat := 3
def ringError : Nat := 4

/-- What the device keeps of a patron's rings. -/
def Dev.ringSide (d : Dev) (p : Nat) : RingSide := SMap.get {} d.rings p

/-- The same, changed. -/
def Dev.setRings (d : Dev) (p : Nat) (f : RingSide → RingSide) : Dev := { d with rings := SMap.modify {} d.rings p f }

/-- STATE of a ring. -/
def Dev.ringState (d : Dev) (p i : Nat) : Nat := d.rd (F.RING_STATUS_STATE p i)

/-- The host address of entry 0 of a ring. -/
def Dev.ringBase (d : Dev) (p i : Nat) : Nat := d.rd (F.RING_BASE_LO_BASE p i) * 2 ^ 12 + d.rd (F.RING_BASE_HI_BASE p i) * 2 ^ 32

/-- The entries of a ring. -/
def Dev.ringSize (d : Dev) (p i : Nat) : Nat := 2 ^ d.rd (F.RING_CTL_SIZE p i)

/-- Bytes to an entry (R231). -/
def ringEntry (i : Nat) : Nat := if i < 4 then 64 else if i = 4 then 16 else 32

/-- The host address of an entry (R230). -/
def Dev.ringSlot (d : Dev) (p i index : Nat) : Nat := d.ringBase p i + index % d.ringSize p i * ringEntry i

/-- INDEX of a ring: SUB_CI, or the producer index. -/
def Dev.ringIndex (d : Dev) (p i : Nat) : Nat := d.rd (F.RING_STATUS_INDEX p i)

/-- The difference of two free-running indices. -/
def indexDiff (a b : Nat) : Nat := (a + 65536 - b % 65536) % 65536

/-- Whether a ring of the device's records is full by the last consumer index read (R230). -/
def Dev.ringFull (d : Dev) (p i : Nat) : Bool :=
  decide (d.ringSize p i - 1 ≤ indexDiff (d.ringIndex p i) (if i = 4 then (d.ringSide p).cringCi else (d.ringSide p).fringCi))

/-- The link on which a patron's host memory is read and written (Table 7.6). -/
def Dev.patronLink (d : Dev) (p : Nat) : Nat := linkNo (d.rd (F.PATRON_HOST_LINK_PORT p)) (d.rd (F.PATRON_HOST_LINK_LINK p))

/-- The host address of a patron's bell area (R232). -/
def Dev.bellAddr (d : Dev) (p : Nat) : Nat := d.rd (F.BELL_ADDR_LO_ADDR p) * 32 + d.rd (F.BELL_ADDR_HI_ADDR p) * 2 ^ 32

/-- The trolley group that serves a patron's rings (R54). -/
def Dev.servingGroup (d : Dev) (p : Nat) : Nat :=
  if d.domainOn (Dom.trolleyGroup (p % 8)) then p % 8 else p % 8 ^^^ 1

/-! ## Interrupts (R246) -/

/-- Interrupt causes of a patron: sent or gathered; a message sent is counted. -/
def Dev.ringInterrupt (d : Dev) (p causes : Nat) : Dev :=
  if (SMap.get (α := IntSide) {} d.ints p).running then d.interrupt p causes
  else (d.interrupt p causes).count 0x0606 (d.servingGroup p) (some p)

/-! ## The progress record (R232, R233) -/

/-- The progress record written. -/
def Dev.progress (d : Dev) (p : Nat) : Dev :=
  let r := d.ringSide p
  let words := (List.range 6).map (d.ringIndex p) ++ [r.fringLost, r.cringLost]
  let bytes := words.foldr (fun w n => w % 65536 + 65536 * n) 0
  d.hostOp (d.patronLink p) p .progress 0 (hostWrite (d.bellAddr p + 16) bytes 16)

/-! ## Fault-ring records (R245, Table 9.10) -/

/-- A fault-ring record. -/
structure FaultRec where
  kind  : Nat
  code  : Nat := 0
  write : Bool := false
  level : Nat := 0
  loc   : Nat := 0
  addr  : Nat := 0
  deriving DecidableEq, Repr

/-- The 32 bytes of a fault-ring record (Table 9.10). -/
def FaultRec.bytes (f : FaultRec) (patron time : Nat) (phase lostBefore : Bool) : Nat :=
  patron % 2 ^ 12 + f.kind * 2 ^ 12 + f.code * 2 ^ 16 +
    (phase.toNat + 2 * lostBefore.toNat + 4 * f.write.toNat + 8 * f.level) * 2 ^ 24 +
    f.loc % 2 ^ 32 * 2 ^ 32 + f.addr % 2 ^ 64 * 2 ^ 64 + time % 2 ^ 64 * 2 ^ 128

/-- A fault-ring record written, or dropped and counted where FRING is full or not ACTIVE (R245). -/
def Dev.faultRecord (d : Dev) (p : Nat) (f : FaultRec) : Dev :=
  if d.ringState p 5 = ringActive ∧ ¬ d.ringFull p 5 then
    let r := d.ringSide p
    let pi := d.ringIndex p 5
    let d := d.hostOp (d.patronLink p) p .faultRecord 0
      (hostWrite (d.ringSlot p 5 pi) (f.bytes p d.time r.fPhase r.lostBefore) 32)
    let d := d.wr (F.RING_STATUS_INDEX p 5) (pi + 1)
    let d := d.setRings p fun r =>
      { r with lostBefore := false, fPhase := if (pi + 1) % d.ringSize p 5 = 0 then !r.fPhase else r.fPhase }
    let d := d.progress p
    if d.flag (F.RING_CTL_INT_ALL p 5) then d.ringInterrupt p 2 else d
  else
    (d.setRings p fun r => { r with lostBefore := true, fringLost := min 65535 (r.fringLost + 1) }).count 0x0605
      (d.servingGroup p) (some p)

/-! ## Completion records (R244, R246, Table 9.8) -/

/-- The 16 bytes of a completion record. -/
def Completion.bytes (c : Completion) (phase : Bool) : Nat :=
  c.index % 2 ^ 16 + (c.ring + 4 * phase.toNat) * 2 ^ 16 + c.status * 2 ^ 24 + c.tf * 2 ^ 32 + c.reason * 2 ^ 40 +
    c.result % 2 ^ 64 * 2 ^ 64

/-- A completion record written at the producer index, with the progress record and the interrupt it asks for. -/
def Dev.completionWrite (d : Dev) (p : Nat) (c : Completion) : Dev :=
  let pi := d.ringIndex p 4
  let d := d.hostOp (d.patronLink p) p .completion 0
    (hostWrite (d.ringSlot p 4 pi) (c.bytes (d.ringSide p).cPhase) 16)
  let d := d.wr (F.RING_STATUS_INDEX p 4) (pi + 1)
  let d := d.setRings p fun r => { r with cPhase := if (pi + 1) % d.ringSize p 4 = 0 then !r.cPhase else r.cPhase }
  let d := (d.count 0x0604 (d.servingGroup p) (some p)).progress p
  if c.int || d.flag (F.RING_CTL_INT_ALL p 4) then d.ringInterrupt p 1 else d

/-- A completion: written, held for space or for the end of the safe state, or lost because CRING is in ERROR (R246). -/
def Dev.complete (d : Dev) (p : Nat) (c : Completion) : Dev :=
  let st := d.ringState p 4
  if st = ringError ∨ st = ringDisabled then
    d.setRings p fun r => { r with cringLost := min 65535 (r.cringLost + 1) }
  else if st = ringPaused ∨ (d.ringSide p).waiting ≠ [] ∨ d.ringFull p 4 then
    d.setRings p fun r => { r with waiting := r.waiting ++ [c] }
  else d.completionWrite p c

/-- Completions that waited written while there is space (R241); with CRING in ERROR they are lost. -/
def Dev.pumpCompletions : Nat → Dev → Nat → Dev
  | 0, d, _ => d
  | fuel + 1, d, p =>
    match (d.ringSide p).waiting with
    | [] => d
    | c :: rest =>
      let st := d.ringState p 4
      if st = ringError ∨ st = ringDisabled then
        Dev.pumpCompletions fuel
          (d.setRings p fun r => { r with waiting := rest, cringLost := min 65535 (r.cringLost + 1) }) p
      else if st = ringPaused ∨ d.ringFull p 4 then d
      else Dev.pumpCompletions fuel ((d.setRings p fun r => { r with waiting := rest }).completionWrite p c) p

/-! ## Ring errors (R248, Table 9.7) -/

/-- A ring enters ERROR with its reason; an interrupt names a ring error (R246). -/
def Dev.ringToError (d : Dev) (p i reason : Nat) : Dev :=
  if d.ringState p i = ringActive ∨ d.ringState p i = ringPaused then
    (d.wrs [(F.RING_STATUS_STATE p i, ringError), (F.RING_STATUS_REASON p i, reason)]).ringInterrupt p 4
  else d

/-- The fault of a ring error, and its KIND 4 record: `sel` holds ring and target as WHERE of Table 9.10. -/
def Dev.ringFault (d : Dev) (p sel code index addr : Nat) : Dev :=
  let t : FaultType := if code = 0x92 ∨ code = 0x93 ∨ code = 0x95 then .ringHostFault else .ringProtocol
  let d := d.raise t (Src.trolleyGroup (d.servingGroup p)) [(p, 12), (sel, 5), (code, 8)]
  d.faultRecord p { kind := 4, code := code, loc := sel + index % 65536 * 65536, addr := addr }

/-- Every submission ring of a patron enters ERROR. -/
def Dev.allToError (d : Dev) (p reason : Nat) : Dev := (List.range 4).foldl (fun d i => d.ringToError p i reason) d

/-- A write of a record failed (0x95): target 1 CRING, 2 FRING, 3 the progress record. -/
def Dev.recordWriteFault (d : Dev) (p target index addr : Nat) : Dev :=
  let d := match target with
    | 1 => (d.ringToError p 4 0x95).allToError p 0x95
    | 2 => d.ringToError p 5 0x95
    | _ => d.allToError p 0x95
  (d.ringFault p (target * 4) 0x95 index addr).pumpCompletions 65536 p

end Sys2Proof.Machine
end

