-- ==== Sys2Proof/Machine/Counters.lean ====
section
/-!
DEFINITION. Counters, tracer slips and statements (R461 to R475): reads and writes of the performance counters, the circulation
records, and the statements written to house ring 0.
-/

namespace Sys2Proof.Machine

open Sys2Proof

/-! ## Performance counters (R463) -/

/-- A performance counter. -/
def Dev.perfOf (d : Dev) (c : Nat) : Perf := SMap.get {} d.perf c

/-- A performance counter changed. -/
def Dev.setPerf (d : Dev) (c : Nat) (f : Perf → Perf) : Dev := { d with perf := SMap.modify {} d.perf c f }

/-- PERF_VALUE_LO_READ (R463): bits [47:32] are captured in the same access. -/
def execPerfValueLoRead (counter : Fin 512) (s : State) : Host.Outcome State Fault Refusal :=
  s.next fun d => d.setPerf counter fun p => { p with capHi := p.value / 2 ^ 32, loStage := p.value % 2 ^ 32 }

/-- A write of VALUE_LO while EN is 0: held until VALUE_HI is written (R463). -/
def Dev.perfWriteLo (d : Dev) (c v : Nat) : Dev :=
  d.setPerf c fun p => if p.en then p else { p with loStage := v % 2 ^ 32 }

/-- A write of VALUE_HI while EN is 0: both halves are loaded (R463). -/
def Dev.perfWriteHi (d : Dev) (c v : Nat) : Dev :=
  d.setPerf c fun p =>
    if p.en then p else { p with value := v % 2 ^ 16 * 2 ^ 32 + p.loStage, capHi := v % 2 ^ 16 }

/-- PERF_VALUE_HI_WRITE (R463). -/
def execPerfValueHiWrite (counter : Fin 512) (value : Word) (s : State) : Host.Outcome State Fault Refusal :=
  s.next fun d => d.perfWriteHi counter value.toNat

/-- PERF_FREEZE (R463): every counter stops, or counts again. -/
def execPerfFreeze (freeze : Bool) (s : State) : Host.Outcome State Fault Refusal :=
  s.next fun d => d.put F.PERF_CTL_FREEZE freeze

/-- PERF_CLEAR (R463): every counter and every OVF bit to 0. -/
def Dev.perfClear (d : Dev) : Dev :=
  (d.perf.map (·.1)).foldl (fun d c => d.setPerf c fun p => { p with value := 0, ovf := false, capHi := 0, loStage := 0 }) d

/-- PERF_CLEAR (R463). -/
def execPerfClear (s : State) : Host.Outcome State Fault Refusal := s.next Dev.perfClear

/-- The counters assigned to a patron, ascending (R466). -/
def Dev.assigned (d : Dev) (p : Nat) : List Perf :=
  ((d.perf.filter (fun cp => cp.2.patronEn && cp.2.leaf && cp.2.patron = p)).map (·.2)).take 64

/-! ## Tracers (R467) -/

/-- The tracer LFSRs of all ports loaded (R467). -/
def Dev.traceLoad (d : Dev) : Dev :=
  { d with lfsr := (List.range 64).foldl (fun m p =>
      let v := (d.rd F.TRACE_SEED_SEED + p) % 2 ^ 32
      SMap.insert p (if v = 0 then 1 else v) m) [] }

/-- TRACE_ENABLE (R467): EN is set and every LFSR reloaded. -/
def execTraceEnable (s : State) : Host.Outcome State Fault Refusal :=
  s.next fun d => (d.wr F.TRACE_CTL_EN 1).traceLoad

/-- A 32-bit Galois LFSR with x^32 + x^22 + x^2 + x + 1, one step to the right (R356, R467). -/
def lfsrStep (v : Nat) : Nat := if v % 2 = 1 then (v / 2) ^^^ 0x80200003 else v / 2

/-- The LFSR of a port advanced once for a request; whether it selects the request (R467). -/
def Dev.traceStep (d : Dev) (port : Nat) : Bool × Dev :=
  if ¬ d.flag F.TRACE_CTL_EN then (false, d)
  else
    let v := lfsrStep (SMap.get 1 d.lfsr port)
    let d := { d with lfsr := SMap.insert port v d.lfsr }
    if v % 2 ^ clampNat 8 24 (d.rd F.TRACE_CTL_RATE) = 0 then (true, d.bump F.TRACE_STATUS_SELECTED) else (false, d)

/-! ## Marks of the time base -/

/-- The next multiple of `n` that the time base reaches, beyond the last one taken. -/
def nextMark (n time last : Nat) : Nat :=
  let m := (time + n - 1) / n * n
  if m ≤ last then (last / n + 1) * n else m

/-- LEAVES of every patron sampled into LEAF_MS (Table 19.6). -/
def Dev.sampleLeaves (d : Dev) : Dev :=
  (List.range 4096).foldl (fun d p =>
    let n := d.rd (F.PATRON_LEAVES_COUNT p)
    if n = 0 then d else d.circulate p fun c => { c with leafMs := c.leafMs + n }) d

/-- The marks that a forward step of the time base passes over, each sampled (R469). -/
def Dev.leafMarks (d : Dev) : Nat → Dev
  | 0 => d
  | fuel + 1 =>
    let m := (d.lastMs / 1000000 + 1) * 1000000
    if m ≤ d.time then (({ d with lastMs := m } : Dev).sampleLeaves).leafMarks fuel else d

/-- LEAF_MS_MARK (R469): the time base reaches its next whole millisecond, and every patron's LEAF_MS adds its LEAVES. -/
def execLeafMsMark (s : State) : Host.Outcome State Fault Refusal :=
  s.next fun d =>
    let m := nextMark 1000000 d.time d.lastMs
    ({ d with time := max d.time m, lastMs := m } : Dev).sampleLeaves

/-! ## Statements (R470 to R474) -/

/-- The length of the statement interval in force, in ns (R471). -/
def Dev.stmtNs (d : Dev) : Nat := d.stmt.secs * 1000000000

/-- A patron's record in the layout of Table 19.7. -/
def Dev.stmtRecord (d : Dev) (p seq stop member flags : Nat) : BitVec 512 :=
  let c := d.circOf p
  let w := fun (n k : Nat) => n % 2 ^ 64 * 2 ^ (64 * k)
  BitVec.ofNat 512 (p + flags * 2 ^ 12 + member * 2 ^ 16 + seq % 2 ^ 32 * 2 ^ 32 + w stop 1 + w c.bytesRead 2 +
    w c.bytesWritten 3 + w c.dmaBytes 4 + w c.leafMs 5 + (c.urgentSlots % 2 ^ 32) * 2 ^ 384 + (c.misses % 2 ^ 32) * 2 ^ 416 +
    w d.stmt.start 7)

/-- The member byte of a record: the position in a collection, 0 on a standalone device. -/
def State.member (s : State) : Nat := if s.dev.rd F.COLL_STATUS_STATE = 0 then 0 else s.fuses.position

/-- The flags TIME_DISC, OUT_OF_STEP and PARTIAL of a record. -/
def Dev.stmtFlags (d : Dev) (p : Nat) : Nat :=
  (d.stmt.disc || d.tbLost).toNat + 2 * (d.stmt.oos || d.flag F.COLL_STATUS_OUT_OF_STEP).toNat +
    4 * (d.stmt.partly.contains p || !d.flag (F.PATRON_STATUS_ACTIVE p)).toNat

/-- The live record of a patron (R470). -/
def State.liveRecord (s : State) (p : Nat) : BitVec 512 :=
  s.dev.stmtRecord p (s.dev.stmt.start / s.dev.stmtNs + 1) s.dev.time s.member (s.dev.stmtFlags p + 8)

/-- Statements of the buffer written to house ring 0 in ascending patron order, while it is ACTIVE with room and the safe state
does not hold them (R472, R473). -/
def Dev.pumpStatements : Nat → Dev → Dev
  | 0, d => d
  | fuel + 1, d =>
    match d.stmt.buffer with
    | [] => d
    | (_, r) :: rest =>
      if d.rd (F.HOUSE_RING_STATUS_STATE 0) = ringActive ∧ ¬ d.houseFull 0 ∧ ¬ d.flag F.SAFE_STATUS_ACTIVE then
        let d := (({ d with stmt.buffer := rest } : Dev).houseStore 0 r).wr F.STMT_STATUS_WAITING rest.length
        let d := if rest = [] then d.wr F.STMT_LAST_SEQ (r.toNat / 2 ^ 32 % 2 ^ 32) else d
        d.pumpStatements fuel
      else d

/-- One patron's snapshot put into the buffer; a record that still waits is replaced (R473). -/
def Dev.stmtPut (d : Dev) (p : Nat) (r : BitVec 512) : Dev :=
  let old := d.stmt.buffer.any (fun kv => kv.1 = p)
  let r := if old then r ||| BitVec.ofNat 512 (2 ^ 22) else r
  let d := { d with stmt.buffer := SMap.insert p r d.stmt.buffer }
  if old then (d.bump F.STMT_STATUS_SUPERSEDED).raise .statementSuperseded (Src.device) [(p, 12)] else d

/-- STATEMENT_BOUNDARY (R471, R472): one record for every patron enabled at any moment since the last boundary, then the
writes. -/
def execStatementBoundary (s : State) : Host.Outcome State Fault Refusal := .next <|
  let b := nextMark s.dev.stmtNs s.dev.time s.dev.stmt.start
  let d := { s.dev with time := max s.dev.time b }
  let seq := b / d.stmtNs
  let active := (List.range 4096).filter (fun p => d.flag (F.PATRON_STATUS_ACTIVE p))
  let all := (List.range 4096).filter (fun p => active.contains p || d.stmt.enabled.contains p)
  let d := all.foldl (fun d p => d.stmtPut p (d.stmtRecord p seq b s.member (d.stmtFlags p))) d
  let d := { d with stmt.start := b, stmt.disc := false, stmt.oos := false, stmt.enabled := [], stmt.partly := [],
                    stmt.secs := clampNat 1 3600 (d.rd F.STMT_CFG_INTERVAL) }
  let d := d.wr F.STMT_STATUS_WAITING d.stmt.buffer.length
  { s with dev := d.pumpStatements 4096 }

/-- A capture of the live record into CIRC (R470). -/
def State.circCapture (s : State) (p : Nat) : State :=
  let r := s.liveRecord p
  s.withDev fun d => (List.range 16).foldl (fun d i => d.wr (F.PATRON_CIRC_DATA p i) (r.toNat / 2 ^ (32 * i))) d

/-- PATRON_CIRC_READ (R470). -/
def execPatronCircRead (patron : Fin 4096) (s : State) : Host.Outcome State Fault Refusal := .next (s.circCapture patron)

end Sys2Proof.Machine
end

