-- ==== Sys2Proof/Machine/Peer.lean ====
section
/-!
DEFINITION. Where messages go (R340, R347, R361, R362): replies on the link of arrival, and peer messages over the hypercube of a
collection.
-/

namespace Sys2Proof.Machine

open Sys2Proof

/-- Whether a link is UP (Table 12.3). -/
def Dev.linkUp (d : Dev) (link : Nat) : Bool := d.rd (F.PORT_LINK_STATE (link / 4) (link % 4)) = 7

/-- A reply on a link; one whose link is not UP is discarded (R340). -/
def Dev.reply (d : Dev) (link : Nat) (m : Msg) : Dev := if d.linkUp link then d.send link m else d

/-- The highest bit set of a six-bit number; 0 for 0. -/
def highestBit (n : Nat) : Nat := ((List.range 6).reverse.find? (fun i => n.testBit i)).getD 0

/-- The lowest bit set of a six-bit number; 0 for 0. -/
def lowestBit (n : Nat) : Nat := ((List.range 6).find? (fun i => n.testBit i)).getD 0

/-- The bits of one six-bit number that another lacks. -/
def bitsLacking (m t : Nat) : Nat := (List.range 6).foldl (fun n i => if m.testBit i && !t.testBit i then n + 2 ^ i else n) 0

/-- The dimension of the next hop from one position towards another (R362): the highest bit to clear, else the lowest bit to
set. -/
def nextDim (m t : Nat) : Nat := if bitsLacking m t ≠ 0 then highestBit (bitsLacking m t) else lowestBit (bitsLacking t m)

/-- Whether the next move from one position towards another is a down move (R362, R364). -/
def downMove (m t : Nat) : Bool := bitsLacking m t ≠ 0

/-- The link of the next hop towards a member (R361, R362); none where its dimension is not in use. -/
def State.peerLink (s : State) (t : Nat) : Option Nat :=
  let k := nextDim s.fuses.position t
  if t ≠ s.fuses.position ∧ s.dev.flag (F.COLL_DIM_VALID k) then some (linkNo (s.dev.rd (F.COLL_DIM_PORT k)) 0) else none

/-- A peer message towards a member (R363: `home` is DEST). -/
def State.sendPeer (s : State) (t : Nat) (m : Msg) : State :=
  match s.peerLink t with
  | some l => s.withDev fun d => d.send l { m with home := t }
  | none => s

/-- Whether a position is in a 64-bit map held in two words. -/
def Dev.inMap (d : Dev) (f : Nat → Field) (m : Nat) : Bool := (d.rd (f (m / 32))).testBit (m % 32)

/-- Whether this device is a member or the head of a collection. -/
def Dev.inCollection (d : Dev) : Bool := d.rd F.COLL_STATUS_STATE = 2 ∨ d.rd F.COLL_STATUS_STATE = 3

/-- Whether a member can be reached (R174, R369, R376, R380). -/
def State.reachable (s : State) (m : Nat) : Bool :=
  s.dev.inCollection && s.dev.inMap F.COLL_MEMBERS_MAP m && !s.dev.inMap F.COLL_LOST_MAP m && m ≠ s.fuses.position

end Sys2Proof.Machine
end

