-- ==== Sys2Proof/Machine/Access.lean ====
section
/-!
DEFINITION. Access through a leaf or volume card (R174 to R182, R189, R521): permissions and states, materialisation, re-shelved
leaves, delivery of poison, and the card updates made on the way.
-/

namespace Sys2Proof.Machine

open Sys2Proof

/-- What an access does to its line: a read, a write under a mask, or an operation of Table 13.8. -/
inductive AccKind where
  | read
  | write (data : LineData) (mask : BitVec 64) (poison : Bool)
  | atomic (op : Nat) (operand cmp : BitVec 64)
  deriving DecidableEq, Repr

/-- An access of a patron at a patron address: its applied level, and whether it is a trolley's (which never allocates, R254). -/
structure Access where
  patron  : Nat
  pa      : Nat
  kind    : AccKind
  level   : Nat := 0
  trolley : Bool := false
  env     : AccessEnv := cleanEnv
  deriving DecidableEq, Repr

/-- How an access ends: with data, written (true: onto a poisoned target), an atomic's former value, a translation fault with its
level, a wait, a forwarding, or a translation to be made again. -/
inductive AccEnd where
  | read (data : LineData) (poison : Bool)
  | written (target : Bool)
  | atomic (old : BitVec 64) (poison : Bool)
  | fault (code level : Nat)
  | wait (why : Hold)
  | remote (m : Nat)
  | again
  deriving DecidableEq, Repr

/-- What a tracer slip shows of an access (Table 19.4). -/
structure AccInfo where
  dpa   : Nat := 0
  cls   : Nat := 1
  hit   : Bool := false
  blank : Bool := false
  counter : Bool := false
  bay   : Bool := false
  deriving DecidableEq, Repr

/-- The permission an access needs (R174): 1 read, 2 write, 3 atomic. -/
def AccKind.need : AccKind → Nat
  | .read => 1
  | .write .. => 2
  | .atomic .. => 3

/-! ## Classes (R214, R216) -/

/-- Whether an access through a card ends without a transfer of its own on the shaft: the room holds the line, no shaft serves it
(R41, R288), or the merge buffer gives or takes it (R142, R144). -/
def State.slotFree (s : State) (g : Nat) (c : Card) (kind : AccKind) (dpa : Nat) : Bool :=
  match s.home dpa with
  | .dram loc =>
    let hit := (s.roomLine dpa).isSome && !s.roomBypassed dpa g
    let entry := (s.dev.mergeOf (s.dev.drivingBay (locShaft loc))).any (fun e => e.loc = loc)
    let whole : Bool := match kind with
      | .write _ mask _ => mask = fullMask
      | _ => false
    hit || (cardState c ≠ 6 && (entry || whole))
  | _ => true

/-- The class an access takes at the bay of its line: by R214, or by R216 without regard to tokens where it takes no slot. -/
def State.accClass (s : State) (p dpa level : Nat) (free : Bool) : Option Nat :=
  let g := s.dev.rd (F.PATRON_GROUP_GROUP p)
  let bay := s.shaftOf dpa
  if free then some (s.dev.freeClass bay g level) else s.dev.requestClass bay g level

/-- Event 0x050C: a request at the urgency threshold that finds no A2 token. -/
def State.countNoA2 (s : State) (p dpa level : Nat) : State :=
  let g := s.dev.rd (F.PATRON_GROUP_GROUP p)
  let bay := s.shaftOf dpa
  if s.dev.urgentAt g level ∧ (s.dev.bayTokens bay).a2 ≤ s.dev.spentA2 bay then
    s.withDev fun d => d.count 0x050C bay (some p)
  else s

/-- Who an access is made for, in a class and without a key. -/
def Dev.whoOf (d : Dev) (p cls : Nat) : Who := { cls := cls, grp := d.rd (F.PATRON_GROUP_GROUP p), patron := p }

/-- Management work of the device for a patron: class A7, of no allowance group (R206).
DESIGN CHOICE (log 41): a line it allocates is recorded to group 0. Unsafe. -/
def houseWork (p : Nat) : Who := { cls := 7, grp := 0, patron := p }

/-! ## Keys (R197, R275, R521) -/

/-- Whether a line of a card has been encrypted again under the next key by an open rekey record (R275). -/
def Dev.rekeyed (d : Dev) (cardDpa pa : Nat) : Bool :=
  match d.rekeys.find? (fun r => r.cardDpa = cardDpa) with
  | some r =>
    let seg := if cardVolume r.card then pa / 2 ^ 16 % 256 else 0
    decide (seg < r.segment) || (seg = r.segment && r.map.testBit (pa / 64 % 1024))
  | none => false

/-- The key of a patron's line: none for an unsealed patron, else the patron and the epoch. -/
def Dev.accKey (d : Dev) (p : Nat) (c : Card) (cd pa : Nat) : Option (Nat × Bool) :=
  if d.flag (F.PATRON_CTL_SEALED p) then some (p, cardEpoch c != d.rekeyed cd pa) else none

/-- Whether the key of an access is present, after a double error met in the vault slot (R199, R521). -/
def State.keyCheck (s : State) (key : Option (Nat × Bool)) (vault : Bool) : Bool × State :=
  match key with
  | none => (true, s)
  | some (p, e) =>
    let s := if vault ∧ s.dev.flag (F.PATRON_STATUS_KEY_EPOCH p) = e ∧ s.dev.flag (F.PATRON_STATUS_KEY_LOADED p) then
        s.withDev fun d => d.vaultError p else s
    ((s.dev.keyFor p e).isSome, s)

/-! ## Poison (R140, R181) -/

/-- A delivery of poisoned data through a card: POISON_DELIVERED at the bay, and a MATERIALISED card becomes POISONED_PRESENT with
a LEAF_POISONED record; a card that has changed meanwhile is left. -/
def State.poisonThrough (s : State) (w : Who) (c : Card) (cd pa dpa : Nat) (trolley : Bool) : State :=
  let s := s.withDev fun d =>
    d.raise .poisonDelivered (Src.bay (d.drivingBay (s.shaftOf dpa))) [(w.patron, 12)]
  if cardState c ≠ 3 then s
  else
    match s.swapCard w cd c (setCard c 0 4 5) cleanEnv with
    | (.done, s) =>
      let leaf := pa / cardSpan c * cardSpan c
      let src := if trolley then Src.trolleyGroup (s.dev.servingGroup w.patron) else Src.wing (pa / 4096 % 4)
      s.withDev fun d => (d.faultRecord w.patron { kind := 3, addr := leaf }).raise .leafPoisoned src [(w.patron, 12), (leaf, 48)]
    | (_, s) => s

/-! ## Atomics (Table 13.8) -/

/-- The new value of an atomic operation. -/
def atomicNew (op : Nat) (old operand cmp : BitVec 64) : BitVec 64 :=
  match op with
  | 0 => operand
  | 1 => if old = cmp then operand else old
  | 2 => old + operand
  | 3 => old &&& operand
  | 4 => old ||| operand
  | 5 => old ^^^ operand
  | 6 => if operand.slt old then operand else old
  | 7 => if old.slt operand then operand else old
  | 8 => if operand.ult old then operand else old
  | _ => if old.ult operand then operand else old

/-- The eight bytes of a line at an offset. -/
def lineWord (data : LineData) (off : Nat) : BitVec 64 := BitVec.ofNat 64 (data.toNat / 2 ^ (8 * off))

/-- A line that holds eight bytes at an offset, with their mask. -/
def wordLine (v : BitVec 64) (off : Nat) : LineData × BitVec 64 :=
  (BitVec.ofNat 512 (v.toNat * 2 ^ (8 * off)), BitVec.ofNat 64 (255 * 2 ^ off))

/-! ## A line at its DPA -/

/-- The end of a line's write as the end of an access. -/
def Put.toEnd (p : Put) : AccEnd :=
  match p with
  | .done => .written false
  | .poisoned => .written true
  | .wait h => .wait h
  | .keyMissing => .fault 9 0

/-- A read, write or atomic of one line through the reading room (R47 to R52, R254, R349). -/
def State.lineAccess (s : State) (a : Access) (w : Who) (c : Card) (cd dpa : Nat) : AccEnd × AccInfo × State :=
  let info : AccInfo := { dpa := dpa, cls := w.cls, bay := true }
  let line := dpa / 64 * 64
  match a.kind with
  | .read =>
    match s.fetch w line a.env (!a.trolley) with
    | (.line data poison hit, s) =>
      (.read data poison, { info with hit := hit, bay := !hit },
        if poison then s.poisonThrough w c cd a.pa dpa a.trolley else s)
    | (.wait h, s) => (.wait h, info, s)
    | (.keyMissing, s) => (.fault 9 0, info, s)
  | .write data mask poison =>
    let hit := (s.roomLine line).isSome && !s.roomBypassed line w.grp
    let (p, s) := s.store w line data mask poison a.env (!a.trolley)
    (p.toEnd, { info with hit := hit, bay := !hit }, s)
  | .atomic op operand cmp =>
    match s.fetch w line a.env true with
    | (.line data poison hit, s) =>
      let old := lineWord data (dpa % 64)
      let info := { info with hit := hit, bay := !hit }
      if poison then (.atomic old true, info, s.poisonThrough w c cd a.pa dpa a.trolley)
      else
        let b := wordLine (atomicNew op old operand cmp) (dpa % 64)
        match s.store w line b.1 b.2 false cleanEnv true with
        | (.wait h, s) => (.wait h, info, s)
        | (.keyMissing, s) => (.fault 9 0, info, s)
        | (_, s) => (.atomic old false, info, s)
    | (.wait h, s) => (.wait h, info, s)
    | (.keyMissing, s) => (.fault 9 0, info, s)

/-! ## RESHELVING (R281, R282, Table 11.3) -/

/-- The rank of an offset of a leaf or volume among the source lines of its shaft (R282). -/
def lineRank (off : Nat) : Nat := off / 2 ^ 14 * 4 + off / 64 % 4

/-- Whether a job has copied the line at an offset. -/
def State.jobCopied (s : State) (j : Job) (off : Nat) : Bool :=
  decide (lineRank off < SMap.get 0 j.cursor (s.shaftOf (j.src + off)))

/-- A line in the form it has in DRAM at a DPA (R190, R283). -/
def State.storedAt (s : State) (w : Who) (dpa : Nat) (data : LineData) (poison : Bool) : LineData × Bool :=
  match w.key with
  | none => (data, poison)
  | some (p, e) =>
    match s.dev.keyFor p e with
    | some k => (sealed k dpa data, poison)
    | none => (0, true)

/-- A copied line sent to the member that holds the destination (R373, Table 14.2), in its stored form. -/
def State.sendXcopy (s : State) (m : Nat) (w : Who) (dpa : Nat) (data : LineData) (poison : Bool) : State :=
  let x := s.storedAt w dpa data poison
  s.sendPeer m { op := 0x45, addr := BitVec.ofNat 64 dpa, value := BitVec.ofNat 64 x.2.toNat, data := x.1 }

/-- The second copy of a write to a copied line (Table 11.3), one A5 slot: to the destination here, or as an XCOPY of the whole
line to the member that holds it (R373). -/
def State.mirror (s : State) (j : Job) (w : Who) (off : Nat) (data : LineData) (mask : BitVec 64) (poison : Bool) : State :=
  let bay := s.shaftOf (j.src + off)
  let w5 : Who := { w with cls := 5, grp := 0 }
  match j.member with
  | none => (((s.withDev fun d => d.count 0x0712 bay)).bayPut w5 (j.dst + off) data mask poison 0).2
  | some m =>
    match s.bayFetch w5 (j.src + off) 0 with
    | (.line whole po _, s) =>
      (s.withDev fun d => (d.count 0x0712 bay).charge bay 5 0).sendXcopy m w (j.dst + off) whole po
    | (_, s) => s

/-- A read of a line under re-shelving: a copied line from its destination, read again from the source where the destination fails
(R282); every other line from the source. -/
def State.jobRead (s : State) (j : Job) (w : Who) (off : Nat) (wire : CodeWord) : Got × State :=
  if s.jobCopied j off ∧ j.member = none then
    match s.bayFetch w (j.dst + off) wire with
    | (.line data true hit, s) =>
      match s.bayFetch w (j.src + off) 0 with
      | (.line d2 false h2, s) =>
        let s := (s.bayPut { w with cls := 5, grp := 0 } (j.dst + off) d2 fullMask false 0).2
        (.line d2 false h2, s.withDev fun d => d.count 0x0713 (d.drivingBay (s.shaftOf (j.src + off))))
      | (_, s) => (.line data true hit, s)
    | r => r
  else s.bayFetch w (j.src + off) wire

/-- An access to a line under re-shelving (Table 11.3). -/
def State.jobAccess (s : State) (a : Access) (w : Who) (j : Job) (c : Card) (cd off : Nat) : AccEnd × AccInfo × State :=
  let o := off / 64 * 64
  let info : AccInfo := { dpa := j.src + off, cls := w.cls, bay := true }
  match a.kind with
  | .read =>
    match s.jobRead j w o a.env.wire with
    | (.line data poison _, s) => (.read data poison, info, if poison then s.poisonThrough w c cd a.pa (j.src + off) a.trolley else s)
    | (.wait h, s) => (.wait h, info, s)
    | (.keyMissing, s) => (.fault 9 0, info, s)
  | .write data mask poison =>
    match s.bayPut w (j.src + o) data mask poison a.env.wire with
    | (.wait h, s) => (.wait h, info, s)
    | (.keyMissing, s) => (.fault 9 0, info, s)
    | (p, s) => (p.toEnd, info, if s.jobCopied j o then s.mirror j w o data mask poison else s)
  | .atomic op operand cmp =>
    match s.jobRead j w o a.env.wire with
    | (.line data poison _, s) =>
      let old := lineWord data (off % 64)
      if poison then (.atomic old true, info, s.poisonThrough w c cd a.pa (j.src + off) a.trolley)
      else
        let b := wordLine (atomicNew op old operand cmp) (off % 64)
        match s.bayPut w (j.src + o) b.1 b.2 false 0 with
        | (.wait h, s) => (.wait h, info, s)
        | (.keyMissing, s) => (.fault 9 0, info, s)
        | (_, s) => (.atomic old false, info, if s.jobCopied j o then s.mirror j w o b.1 b.2 false else s)
    | (.wait h, s) => (.wait h, info, s)
    | (.keyMissing, s) => (.fault 9 0, info, s)

/-! ## Materialisation (R176 to R178, Table 7.15) -/

/-- One zero write of a materialisation: a hit makes the room line zero and DIRTY, a miss enters the merge buffer (Step 3). -/
def State.zeroLine (s : State) (w : Who) (dpa : Nat) : State :=
  match s.roomHit dpa w.grp .none with
  | (some (key, l), s) => (s.roomMerge w key l 0 fullMask false).2
  | (none, s) =>
    let s := match w.key with
      | some (p, _) => s.withDev fun d => d.countSeal (s.shaftOf dpa) true 0 p
      | none => s
    s.mergeRequest { dpaLine := BitVec.ofNat 32 (dpa / 64), data := 0, mask := fullMask, poison := false,
                     cls := Fin.ofNat 8 w.cls, grp := Fin.ofNat 256 w.grp }

/-- Steps 1 to 3: the card becomes MATERIALISING, and the leaf's 1,024 lines are written zero unless PREZEROED. -/
def State.materialise (s : State) (w : Who) (c : Card) (cd : Nat) (epoch : Bool) : AccEnd × State :=
  let ad := s.dev.flag (F.PATRON_CTL_TRACK_AD w.patron)
  let c' := setCard (setCard (setCard c 0 4 9) 44 1 epoch.toNat) 45 1 0
  let c' := if ad then c' ||| 0x600#64 else c'
  match s.swapCard w cd c c' cleanEnv with
  | (.done, s) =>
    let w := { w with key := if s.dev.flag (F.PATRON_CTL_SEALED w.patron) then some (w.patron, epoch) else none }
    let s := if c.getLsbD 45 then s else (List.range 1024).foldl (fun s i => s.zeroLine w (cardAddress c + i * 64)) s
    (.wait (.card cd), s.withDev fun d =>
      { d with materialising := d.materialising ++ [{ cardDpa := cd, card := c', patron := w.patron }] })
  | (.mismatch _, s) => (.again, s)
  | (.poisoned, s) => (.fault 7 4, s)
  | (.wait h, s) => (.wait h, s)

/-! ## The counter leaf (R189, Table 7.20) -/

/-- A line of a patron's counter leaf. -/
def State.counterLine (s : State) (p line : Nat) : LineData :=
  if line = 0 then s.liveRecord p
  else if line = 1 then BitVec.ofNat 512 (s.dev.time % 2 ^ 64 + s.dev.stmt.start / s.dev.stmtNs * 2 ^ 64)
  else if line < 10 then
    BitVec.ofNat 512 ((((s.dev.assigned p).drop (8 * (line - 2))).take 8).foldr (fun c n => c.value + 2 ^ 64 * n) 0)
  else 0

/-! ## The access (R174) -/

/-- WRITTEN set at the first write translated through a card under TRACK_AD (R180): the card to go on with, or why not. -/
def State.markWritten (s : State) (w : Who) (a : Access) (c : Card) (cd : Nat) : Except AccEnd Card × State :=
  if a.kind.need = 1 ∨ c.getLsbD 10 ∨ ¬ s.dev.flag (F.PATRON_CTL_TRACK_AD a.patron) then (.ok c, s)
  else
    let c' := c ||| 0x400#64
    match s.swapCard w cd c c' cleanEnv with
    | (.done, s) => (.ok c', s)
    | (.mismatch _, s) => (.error .again, s)
    | (.poisoned, s) => (.error (.fault 7 0), s)
    | (.wait h, s) => (.error (.wait h), s)

/-- An access to stored data: the key, WRITTEN, the class, then the line (Table 7.13). -/
def State.dataAccess (s : State) (a : Access) (c : Card) (cd : Nat) : AccEnd × AccInfo × State :=
  let dpa := cardAddress c + a.pa % cardSpan c
  let key := s.dev.accKey a.patron c cd a.pa
  let (ok, s) := s.keyCheck key a.env.vault
  if ¬ ok then (.fault 9 0, { dpa := dpa }, s)
  else
    match s.accClass a.patron dpa a.level (s.slotFree (s.dev.rd (F.PATRON_GROUP_GROUP a.patron)) c a.kind dpa) with
    | none => (.wait (.tokens (s.shaftOf dpa)), { dpa := dpa }, s.countNoA2 a.patron dpa a.level)
    | some cls =>
      let s := if cls = 2 then s else s.countNoA2 a.patron dpa a.level
      let w : Who := { s.dev.whoOf a.patron cls with key := key }
      match s.markWritten w a c cd with
      | (.error e, s) => (e, { dpa := dpa, cls := cls }, s)
      | (.ok c, s) =>
        match (if cardState c = 6 then slotAt s.dev.jobs (cardJob c) else none) with
        | some j =>
          if j.st = .starting then (.wait (.job (cardJob c)), { dpa := dpa, cls := cls }, s)
          else s.jobAccess a w j c cd (a.pa % cardSpan c)
        | none => s.lineAccess a w c cd dpa

/-- An access through a leaf or volume card that is neither INVALID nor malformed, its checks in the order of R174. -/
def State.access (s : State) (a : Access) (c : Card) (cd level : Nat) : AccEnd × AccInfo × State :=
  let st := cardState c
  let need := a.kind.need
  if st = 8 then
    if a.trolley ∨ need ≠ 1 ∨ ¬ c.getLsbD 5 ∨ ¬ s.dev.flag (F.PATRON_CTL_COUNTER_READ a.patron) then (.fault 4 level, {}, s)
    else (.read (s.counterLine a.patron (a.pa / 64 % 1024)) false, {}, s)
  else if ¬ cardPermits c need a.trolley then (.fault 4 level, {}, s)
  else if st = 7 then (.remote (cardMember c), {}, s)
  else if st = 9 then (.wait (.card cd), {}, s)
  else if st = 4 ∧ need ≠ 1 then (.fault 5 level, {}, s)
  else if st = 2 then
    let dpa := cardAddress c + a.pa % 2 ^ 16
    let cls := s.dev.freeClass (s.shaftOf dpa) (s.dev.rd (F.PATRON_GROUP_GROUP a.patron)) a.level
    let info : AccInfo := { dpa := dpa, cls := cls, blank := true }
    if need = 1 then (.read 0 false, info, s.withDev fun d => d.count 0x0406 (a.pa / 4096 % 4) (some a.patron))
    else
      let sealed := s.dev.flag (F.PATRON_CTL_SEALED a.patron)
      let e := sealed && s.dev.newEpoch a.patron
      let (ok, s) := s.keyCheck (if sealed then some (a.patron, e) else none) a.env.vault
      if ¬ ok then (.fault 9 level, info, s)
      else
        let (r, s) := s.materialise (s.dev.whoOf a.patron cls) c cd e
        (r, info, s)
  else
    match s.dataAccess a c cd with
    | (.fault code 0, info, s) => (.fault code level, info, s)
    | r => r

end Sys2Proof.Machine
end

