-- ==== Sys2Proof/Machine/Requests.lean ====
section
/-!
DEFINITION. Memory requests (R166, R183, R184, R188, R348 to R350, R366 to R369): the port check, translation through the card
index and walks, forwarding, replies, and requests that wait.
-/

namespace Sys2Proof.Machine

open Sys2Proof

/-! ## Misses (R226, R227) -/

/-- A miss counted in its group's window; the one that reaches MISS_N raises GUARANTEE_MISS, once in the window (R227). -/
def Dev.windowMiss (d : Dev) (g : Nat) : Dev :=
  let n := SMap.get 0 d.missCount g + 1
  let d := { d with missCount := SMap.insert g n d.missCount }
  d.raiseIf (n = SMap.get 16 d.loose.missN g) .guaranteeMiss (Src.group g)

/-- A latency miss of an urgent claim or an A0 request (R226). -/
def Dev.latencyMiss (d : Dev) (p port cls : Nat) : Dev :=
  if cls = 0 ∨ cls = 2 then
    let g := d.rd (F.PATRON_GROUP_GROUP p)
    (((d.bump (F.MISS_LATENCY_COUNT g)).count 0x050A port (some p)).circulate p
      fun c => { c with misses := c.misses + 1 }).windowMiss g
  else d

/-! ## The request -/

/-- The operation of a host or forwarded request: 1 LOAD, 2 STORE, 3 STORE_MASKED, 4 ATOMIC. -/
def operationOf (m : Msg) : Nat :=
  match m.op with
  | 0x01 | 0x40 => 1
  | 0x02 => 2
  | 0x03 | 0x41 => 3
  | _ => 4

/-- The access a request makes. -/
def Req.access (q : Req) : Access :=
  { patron := q.msg.patron, pa := q.msg.addr.toNat, level := q.level, env := q.env,
    kind := match (operationOf q.msg) with
      | 1 => .read
      | 2 => .write q.msg.data fullMask false
      | 3 => .write q.msg.data q.msg.mask false
      | _ => .atomic q.msg.arg q.msg.value q.msg.cmp }

/-- The wing of a request's line (R35: DPA[13:12] are patron-address bits [13:12]). -/
def Req.wing (q : Req) : Nat := q.msg.addr.toNat / 4096 % 4

/-- The requests of the device without an answer. -/
def Dev.waiting (d : Dev) : List Req :=
  d.held.map (·.req) ++ d.walks.flatMap (·.2.reqs) ++ d.forwards.map (·.req)

/-! ## Translation faults (R188, Table 7.16) -/

/-- What a translation fault does beside the reply: counts, LAST_TF, the fault record (`kind` 1 or 2) and the fault raised. -/
def Dev.tfault (d : Dev) (p code level cardDpa wing kind loc addr : Nat) (write : Bool) : Dev :=
  let d := if 2 ≤ code then d.bump (F.TF_COUNT_COUNT p (code - 2)) else d
  let d := (d.wr (F.PATRON_STATUS_LAST_TF p) code).count 0x0407 wing (some p)
  let d := if 3 ≤ code then
      d.faultRecord p { kind := kind, code := code, write := write, level := level, loc := loc, addr := addr } else d
  match code with
  | 6 => d.raise .cardMalformed (Src.wing wing) [(p, 12), (cardDpa, 38)]
  | 7 => d.raise .catalogueUe (Src.wing wing) [(cardDpa, 38)]
  | 9 => d.raise .keyMissing (Src.wing wing) [(p, 12)]
  | _ => d

/-! ## Replies (R347, R349, R366) -/

/-- The SLIP record of a selected request (Table 19.4): points reached carry the time base since T1, the others 0xFFFF_FFFF. -/
def Dev.slip (d : Dev) (q : Req) (status : Nat) (info : AccInfo) (forwarded : Bool) : Dev :=
  if ¬ q.traced then d
  else
    let pt := fun (reached : Bool) => if reached then (d.time - q.arrived) % 2 ^ 32 else 2 ^ 32 - 1
    let translated := decide (10 ≤ status) || status = 0
    let pts := [true, translated, translated && !info.blank, info.bay && !forwarded, info.bay && !forwarded, true]
    let deltas := pts.foldr (fun r n => pt r + 2 ^ 32 * n) 0
    let outcome := info.hit.toNat + 2 * q.missed.toNat + 4 * info.blank.toNat + 8 * forwarded.toNat +
      16 * (decide (status = 0x10 ∨ status = 0x11)).toNat
    d.houseRecord 1 (BitVec.ofNat 512 (1 + q.msg.op * 2 ^ 8 + q.msg.patron * 2 ^ 16 +
      (q.link / 4 + q.link % 4 * 64) * 2 ^ 32 + (info.cls % 8 + q.level * 8) * 2 ^ 40 + outcome * 2 ^ 48 + status * 2 ^ 56 +
      q.arrived % 2 ^ 64 * 2 ^ 64 + deltas * 2 ^ 128 + info.dpa * 2 ^ 320 + q.msg.addr.toNat * 2 ^ 384 +
      d.rd (F.PATRON_GROUP_GROUP q.msg.patron) * 2 ^ 448))

/-- The reply message of a request. It keeps its patron, which its layout does not carry, for the injector (R356). -/
def Req.replyMsg (q : Req) (status : Nat) (data : LineData) (value : BitVec 64) (position : Nat) : Msg :=
  let loaded := (operationOf q.msg) = 1 ∧ (status = 0 ∨ status = 0x11)
  let op := match q.source with
    | some _ => if loaded then 0x44 else 0x43
    | none => if loaded then 0x11 else if (operationOf q.msg) = 4 then 0x12 else 0x10
  { op := op, status := status, tag := q.msg.tag, value := value, data := data, patron := q.msg.patron,
    member := if q.source.isSome then position else 0 }

/-- The outcome of a forwarded atomic kept, the last 64 of each source member (R368). -/
def Dev.keepAtomic (d : Dev) (m tag status : Nat) (value : BitVec 64) : Dev :=
  let mine := (d.atomicsDone.filter (fun a => a.source = m)).length
  let l := if 64 ≤ mine then d.atomicsDone.eraseP (fun a => a.source = m) else d.atomicsDone
  { d with atomicsDone := l ++ [{ source := m, tag := tag, status := status, value := value }] }

/-- The circulation of an answered host request (Table 19.6): nothing where it failed or read the counter leaf. -/
def Dev.circulateReply (d : Dev) (q : Req) (status : Nat) (info : AccInfo) : Dev :=
  let p := q.msg.patron
  if q.source.isSome ∨ info.counter then d
  else
    match (operationOf q.msg) with
    | 1 => if status = 0 ∨ status = 0x11 then d.circulate p fun c => { c with bytesRead := c.bytesRead + 64 } else d
    | 4 => if status = 0 then
        d.circulate p fun c => { c with bytesRead := c.bytesRead + 8, bytesWritten := c.bytesWritten + 8 } else d
    | o => if status = 0 ∨ status = 0x10 then
        d.circulate p fun c =>
          { c with bytesWritten := c.bytesWritten + (if o = 2 then 64 else popCount q.msg.mask.toNat 64) }
      else d

/-- The link number under which a trolley's line is forwarded to another member (R366). -/
def trolleyLink : Nat := 256

/-- The answer of another member to a line of a trolley: kept for the descriptor that waits for it. -/
def Dev.trolleyAnswer (d : Dev) (q : Req) (status : Nat) (data : LineData) : Dev :=
  { d with trolleys := d.trolleys.map (fun kw =>
      if kw.2.desc.serial = q.serial then
        (kw.1, { kw.2 with remote := kw.2.remote ++ [(q.msg.addr.toNat, q.msg.op, status, data)] })
      else kw) }

/-- A request answered: the reply, circulation, a latency miss, the tracer's slip. -/
def State.answer (s : State) (q : Req) (status : Nat) (data : LineData) (value : BitVec 64) (info : AccInfo)
    (forwarded : Bool := false) : State :=
  if q.link = trolleyLink then s.withDev fun d => d.trolleyAnswer q status data
  else
  let m := q.replyMsg status data value s.fuses.position
  let s := match q.source with
    | some src =>
      let s := if (operationOf q.msg) = 4 then s.withDev fun d => d.keepAtomic src q.msg.tag status value else s
      s.sendPeer src m
    | none => s.withDev fun d => d.reply q.link m
  s.withDev fun d =>
    let d := d.circulateReply q status info
    let d := if q.env.late ∧ q.source.isNone then d.latencyMiss q.msg.patron (q.link / 4) info.cls else d
    d.slip q status info forwarded

/-- A request that fails in translation. -/
def State.fail (s : State) (q : Req) (code level cardDpa : Nat) (info : AccInfo) : State :=
  let s := if q.link = trolleyLink then s else s.withDev fun d =>
    d.tfault q.msg.patron code level cardDpa q.wing 1 (q.link / 4 + q.link % 4 * 64) q.msg.addr.toNat ((operationOf q.msg) ≠ 1)
  s.answer q code 0 0 info

/-- A request made to wait. -/
def Dev.hold (d : Dev) (q : Req) (why : Hold) (card : Option (Card × Nat × Nat)) : Dev :=
  { d with held := d.held ++ [{ req := q, why := why, card := card }] }

/-- A request through a REMOTE card (R366, R368): forwarded to the holder; a member that cannot be reached fails it, and a request
that has been forwarded once more already fails with ROUTE_LOOP. -/
def State.forward (s : State) (q : Req) (m : Nat) (card : Card × Nat × Nat) : State :=
  if q.msg.again then
    (s.fail q 8 card.2.2 0 {}).withDev fun d => d.raise .routeLoop (Src.wing q.wing) [(q.msg.patron, 12), (q.msg.addr.toNat, 48)]
  else if ¬ s.reachable m then s.fail q 8 card.2.2 0 {}
  else if (operationOf q.msg) = 4 ∧
      64 ≤ (s.dev.forwards.filter (fun f => f.holder = m && (operationOf f.req.msg) = 4)).length then
    s.withDev fun d => d.hold q (.holder m) (some card)
  else
    let t := s.dev.fwdTag
    let s := s.withDev fun d =>
      ({ d with fwdTag := (t + 1) % 4096, forwards := d.forwards ++ [{ tag := t, holder := m, req := q, level := card.2.2 }] } : Dev).count 0x0112
        q.wing (some q.msg.patron)
    s.sendPeer m
      { q.msg with op := (match (operationOf q.msg) with
                     | 1 => 0x40
                     | 4 => 0x42
                     | _ => 0x41),
                   mask := if (operationOf q.msg) = 2 then fullMask else q.msg.mask,
                   tag := t, member := s.fuses.position, hops := q.level, again := q.source.isSome }

/-- The access of a translated request and its answer; none where the card has changed and it translates again. -/
def State.useCard (s : State) (q : Req) (c : Card) (cd level : Nat) : Option State × State :=
  if s.dev.flag (F.PATRON_CTL_SEALED q.msg.patron) ∧ s.dev.underTest (Dom.sealSlice (sealSlice (s.shaftOf (cardAddress c)))) then
    (some (s.withDev fun d => d.hold q (.wing q.wing) (some (c, cd, level))), s)
  else
  match s.access q.access c cd level with
  | (.read data poison, info, s) => (some (s.answer q (if poison then 0x11 else 0) data 0 { info with counter := cardState c = 8 }), s)
  | (.written target, info, s) => (some (s.answer q (if target then 0x10 else 0) 0 0 info), s)
  | (.atomic old poison, info, s) => (some (s.answer q (if poison then 0x11 else 0) 0 old info), s)
  | (.fault code lv, info, s) => (some (s.fail q code lv cd info), s)
  | (.wait why, _, s) =>
    (some (s.withDev fun d => d.hold q why (match why with
      | .card _ => none
      | _ => some (c, cd, level))), s)
  | (.remote m, _, s) => (some (s.forward q m (c, cd, level)), s)
  | (.again, _, s) => (none, s)

/-! ## Walks (R183, R184) -/

/-- A walk started or joined at the card a request needs next; none free: the request waits (R184). -/
def State.walkOn (s : State) (q : Req) (level table : Nat) : State :=
  let p := q.msg.patron
  let cd := table + cardIndex q.msg.addr.toNat level * 8
  let base := q.wing * 64
  let mine := s.dev.walks.filter (fun kw => decide (base ≤ kw.1) && decide (kw.1 < base + 64))
  match mine.find? (fun kw => kw.2.patron = p && kw.2.level = level && kw.2.line = cd / 64) with
  | some kw => s.withDev fun d => { d with walks := SMap.insert kw.1 { kw.2 with reqs := kw.2.reqs ++ [q] } d.walks }
  | none =>
    match (List.range 64).find? (fun i => !mine.any (fun kw => kw.1 = base + i)) with
    | none => s.withDev fun d => (d.hold q (.wing q.wing) none).count 0x0404 q.wing (some p)
    | some i =>
      let g := s.dev.rd (F.PATRON_GROUP_GROUP p)
      let cls := s.dev.freeClass (s.shaftOf cd) g q.level
      let k : Walk := { patron := p, level := level, line := cd / 64, cls := cls, grp := g, reqs := [q] }
      s.withDev fun d => { d with walks := SMap.insert (base + i) k d.walks }

/-- A request translated (R183): through the index, or by a walk that starts at the deepest walk-cache entry. -/
def State.translate (s : State) (q : Req) : Nat → State
  | 0 => s.withDev fun d => d.hold q (.wing q.wing) none
  | fuel + 1 =>
    let p := q.msg.patron
    let pa := q.msg.addr.toNat
    if s.dev.underTest (Dom.wing q.wing) then s.withDev fun d => d.hold q (.wing q.wing) none
    else
    let s := s.withDev fun d => d.count 0x0400 q.wing (some p)
    match s.dev.indexFind q.wing p pa with
    | some e =>
      match s.useCard q e.card e.cardDpa e.level with
      | (some s, _) => s
      | (none, s) => s.translate q fuel
    | none =>
      let s := s.withDev fun d => d.count 0x0401 q.wing (some p)
      let q := { q with missed := true }
      match s.dev.walkCacheFind q.wing p pa with
      | some e => (s.withDev fun d => d.count 0x0402 q.wing (some p)).walkOn q (e.level + 1) (cardAddress e.card)
      | none => s.walkOn q 1 (s.dev.rootOf p)

/-- A request carried out through a card, or translated afresh where the card must be read again. -/
def State.tryCard (s : State) (q : Req) (c : Card) (cd level : Nat) : State :=
  match s.useCard q c cd level with
  | (some s, _) => s
  | (none, s) => s.translate q 2

/-- A leaf or volume card loaded into the index, ACCESSED set under TRACK_AD (R180): the card to go on with, or why not. -/
def State.loadIndex (s : State) (w : Who) (pa wing : Nat) (c : Card) (cd level : Nat) : Except AccEnd Card × State :=
  let put := fun (s : State) (c : Card) =>
    s.withDev fun d => d.indexPut wing { patron := w.patron, level := level, base := pa / cardSpan c * cardSpan c, card := c,
                                         cardDpa := cd }
  let st := cardState c
  if c.getLsbD 9 ∨ ¬ s.dev.flag (F.PATRON_CTL_TRACK_AD w.patron) ∨ st < 2 ∨ 6 < st then (.ok c, put s c)
  else
    let c' := c ||| 0x200#64
    match s.swapCard w cd c c' cleanEnv with
    | (.done, s) => (.ok c', put s c')
    | (.mismatch _, s) => (.error .again, s)
    | (.poisoned, s) => (.error (.fault 7 level), s)
    | (.wait h, s) => (.error (.wait h), s)

/-- One request of a walk whose card line has been read (R184): the walk goes down a level, fails, or ends at a card. -/
def State.walkStep (s : State) (w : Who) (q : Req) (level line : Nat) (data : LineData) (poison : Bool) : State :=
  let pa := q.msg.addr.toNat
  let cd := line * 64 + cardIndex pa level * 8 % 64
  let c := cardIn data cd
  if poison then s.fail q 7 level cd {}
  else if cardState c = 0 then s.fail q 3 level cd {}
  else if s.malformed w.patron level c then s.fail q 6 level cd {}
  else if cardState c = 1 then
    let s := s.withDev fun d =>
      d.walkCachePut q.wing { patron := w.patron, level := level, pfx := pa / 2 ^ (48 - 8 * level), card := c, cardDpa := cd }
    s.walkOn q (level + 1) (cardAddress c)
  else
    match s.loadIndex w pa q.wing c cd level with
    | (.ok c, s) =>
      s.tryCard q c cd level
    | (.error (.fault code lv), s) => s.fail q code lv cd {}
    | (.error (.wait h), s) => s.withDev fun d => d.hold q h none
    | (.error _, s) => s.translate q 2

/-! ## Requests that wait -/

/-- A held request tried again. -/
def State.resume (s : State) (h : Held) : State :=
  match h.card with
  | some (c, cd, level) => s.tryCard h.req c cd level
  | none => s.translate h.req 2

/-- The held requests of a reason tried again in their order. -/
def State.release (s : State) (f : Hold → Bool) : State :=
  let go := s.dev.held.filter (fun h => f h.why)
  go.foldl State.resume (s.withDev fun d => { d with held := d.held.filter (fun h => !f h.why) })

/-- FENCE messages whose earlier requests have all been answered (R350). -/
def Dev.pumpFences (d : Dev) : Dev :=
  let w := d.waiting
  let ready := fun (f : FenceReq) =>
    !w.any (fun q => q.source.isNone && q.link = f.link && q.msg.patron = f.msg.patron && decide (q.serial < f.serial))
  let go := d.fences.filter ready
  go.foldl (fun d f => d.reply f.link { op := 0x10, tag := f.msg.tag })
    { d with fences := d.fences.filter (fun f => !ready f) }

/-- Requests held behind an earlier one of their line that has been answered, until none moves (R354); then the fences. -/
def State.settle : Nat → State → State
  | 0, s => s.withDev Dev.pumpFences
  | fuel + 1, s =>
    let w := s.dev.waiting
    let free := fun (h : Held) => match h.why with
      | .behind n => !w.any (fun q => q.serial = n)
      | _ => false
    match s.dev.held.find? free with
    | none => s.withDev Dev.pumpFences
    | some h => ((s.withDev fun d => { d with held := d.held.filter (· ≠ h) }).resume h).settle fuel

/-- Held requests of a reason released, with everything that follows. -/
def State.releaseAll (s : State) (f : Hold → Bool) : State :=
  let s := s.release f
  s.settle s.dev.held.length

/-! ## Arrival (R166, R348) -/

/-- Whether a patron is bound to a link (R165): patron 0 only on the keeper port. -/
def State.bound (s : State) (link p : Nat) : Bool :=
  (SMap.get 0 s.dev.binding (link / 4 * 4096 + p)).testBit (link % 4) &&
    (p ≠ 0 || (s.layout.keeperValid && s.layout.keeperPort = link / 4))

/-- The field checks of R348. -/
def fieldsBad (m : Msg) : Bool :=
  let a := m.addr.toNat
  m.reserved || decide (2 ^ 48 ≤ a) ||
  (match operationOf m with
   | 4 => a % 8 ≠ 0 || decide (10 ≤ m.arg) || (m.arg ≠ 1 && m.cmp ≠ 0)
   | 3 => a % 64 ≠ 0 || m.mask = 0 || m.arg ≠ 0
   | _ => a % 64 ≠ 0 || m.arg ≠ 0)

/-- The applied level of a link (R212). -/
def Dev.appliedLevel (d : Dev) (link : Nat) : Nat := d.rd (F.PORT_URGENCY_LEVELS (link / 4)) / 4 ^ (link % 4) % 4

/-- Whether a link is a peer link in use (R361). -/
def Dev.peerPort (d : Dev) (port : Nat) : Bool :=
  (List.range 6).any (fun k => d.flag (F.COLL_DIM_VALID k) && d.rd (F.COLL_DIM_PORT k) = port)

/-- A reserved OPCODE, or a message that may not come this way: discarded with LINK_PROTOCOL (R335, R344, R361). -/
def Dev.badMessage (d : Dev) (link slot : Nat) : Dev :=
  (d.count 0x090A link).raise .linkProtocol (Src.link (link / 4) (link % 4)) [(slot, 4)]

/-- A memory request past the port check: behind an earlier one of its link to the same line (R354), or translated. -/
def State.enter (s : State) (q : Req) : State :=
  let same := s.dev.waiting.filter (fun x => x.link = q.link && x.source = q.source && x.msg.patron = q.msg.patron &&
    x.msg.addr.toNat / 64 = q.msg.addr.toNat / 64)
  let s := match same.getLast? with
    | some x => s.withDev fun d => d.hold q (.behind x.serial) none
    | none => s.translate q 2
  s.settle s.dev.held.length

/-- A memory request of a host (R166, R348, R349). -/
def State.request (s : State) (link : Nat) (m : Msg) (env : AccessEnv) : State :=
  let p := m.patron
  let q : Req := { serial := s.dev.serial, link := link, msg := m, env := env, level := s.dev.appliedLevel link,
                   arrived := s.dev.time }
  let s := s.withDev fun d => { d with serial := d.serial + 1 }
  if ¬ s.dev.linkUp link then s
  else if s.dev.peerPort (link / 4) then s.withDev fun d => d.badMessage link 0
  else if ¬ s.bound link p then
    (s.fail q 1 0 0 {}).withDev fun d => d.raise .patronNotBound (Src.link (link / 4) (link % 4))
  else if ¬ s.dev.flag (F.PATRON_STATUS_ACTIVE p) then s.fail q 2 0 0 {}
  else
    let (sel, d) := s.dev.traceStep (link / 4)
    let s := { s with dev := d }
    let q := { q with traced := sel }
    if fieldsBad m then s.answer q 0x12 0 0 {} else s.enter q

/-- LOAD (R349). -/
def execLoad (link : Fin 256) (msg : Msg) (env : AccessEnv) (s : State) : Host.Outcome State Fault Refusal :=
  .next (s.request link { msg with op := 0x01 } env)

/-- STORE (R349). -/
def execStore (link : Fin 256) (msg : Msg) (env : AccessEnv) (s : State) : Host.Outcome State Fault Refusal :=
  .next (s.request link { msg with op := 0x02 } env)

/-- STORE_MASKED (R349). -/
def execStoreMasked (link : Fin 256) (msg : Msg) (env : AccessEnv) (s : State) : Host.Outcome State Fault Refusal :=
  .next (s.request link { msg with op := 0x03 } env)

/-- ATOMIC (R349). -/
def execAtomic (link : Fin 256) (msg : Msg) (env : AccessEnv) (s : State) : Host.Outcome State Fault Refusal :=
  .next (s.request link { msg with op := 0x04 } env)

/-- A FENCE message (R348, R350): answered once every earlier request of its patron on the link has been. -/
def State.fence (s : State) (link : Nat) (m : Msg) : State :=
  let p := m.patron
  let rsp := fun (st : Nat) => s.withDev fun d => d.reply link { op := 0x10, status := st, tag := m.tag }
  if ¬ s.dev.linkUp link then s
  else if s.dev.peerPort (link / 4) then s.withDev fun d => d.badMessage link 0
  else if ¬ s.bound link p then
    (rsp 1).withDev fun d => ((d.wr (F.PATRON_STATUS_LAST_TF p) 1).count 0x0407 (p % 8 / 2) (some p)).raise .patronNotBound
      (Src.link (link / 4) (link % 4))
  else if ¬ s.dev.flag (F.PATRON_STATUS_ACTIVE p) then
    (rsp 2).withDev fun d => ((d.bump (F.TF_COUNT_COUNT p 0)).wr (F.PATRON_STATUS_LAST_TF p) 2).count 0x0407 (p % 8 / 2) (some p)
  else if m.reserved || m.addr ≠ 0 || m.arg ≠ 0 then rsp 0x12
  else
    s.withDev fun d =>
      ({ d with fences := d.fences ++ [{ link := link, msg := m, serial := d.serial }], serial := d.serial + 1 } : Dev).pumpFences

/-- FENCE (R350). -/
def execFence (link : Fin 256) (msg : Msg) (s : State) : Host.Outcome State Fault Refusal := .next (s.fence link msg)

/-! ## Card lines and materialisation -/

/-- CARD_LINE_READ (R184): the card line of a walk has been read, and each request that shares it goes on. -/
def execCardLineRead (wing : Fin 4) (walk : Fin 64) (env : AccessEnv) (s : State) : Host.Outcome State Fault Refusal :=
  .next <|
    match slotAt s.dev.walks (wing * 64 + walk) with
    | none => s
    | some k =>
      let w : Who := { cls := k.cls, grp := k.grp, patron := k.patron }
      match s.fetch w (k.line * 64) env true with
      | (.line data poison _, s) =>
        let s := s.withDev fun d =>
          ({ d with walks := SMap.erase (wing * 64 + walk) d.walks } : Dev).count 0x0403 wing (some k.patron)
        let s := k.reqs.foldl (fun s q => s.walkStep w q k.level k.line data poison) s
        s.releaseAll (fun h => h = .wing wing)
      | (_, s) => s

/-- MATERIALISE_ZERO_DONE (R177, Table 7.15, Steps 4 and 5) of the oldest materialisation: not while one of its zero writes waits at
the wing. A card found changed stands (Table 7.14). -/
def execMaterialiseZeroDone (s : State) : Host.Outcome State Fault Refusal :=
  .next <|
    match s.dev.materialising with
    | [] => s
    | m :: rest =>
      let base := cardAddress m.card / 64
      if s.dev.mergeWaits.any (fun kv => kv.2.any (fun r => decide (base ≤ r.dpaLine.toNat) && decide (r.dpaLine.toNat < base + 1024))) then s
      else
        let done := fun (s : State) => (s.withDev fun d => { d with materialising := rest }).releaseAll (fun h => h = .card m.cardDpa)
        match s.swapCard (s.dev.whoOf m.patron 1) m.cardDpa m.card (setCard m.card 0 4 3) cleanEnv with
        | (.done, s) =>
          done (s.withDev fun d =>
            (d.bump (F.PATRON_LEAVES_COUNT m.patron)).count 0x0405 0 (some m.patron))
        | (.wait _, s) => s
        | (_, s) => done s

/-- MATERIALISING_POLL (R178): the requests held at a MATERIALISING card read the card again. -/
def execMaterialisingPoll (s : State) : Host.Outcome State Fault Refusal :=
  .next (s.releaseAll fun h => match h with
    | .card _ => true
    | _ => false)

/-! ## Forwarded requests (R366 to R369) -/

/-- A forwarded request at its holder: a retried atomic whose outcome is kept is answered from the record (R368). -/
def State.forwarded (s : State) (link : Nat) (m : Msg) (env : AccessEnv) : State :=
  if ¬ s.dev.linkUp link then s
  else if ¬ s.dev.peerPort (link / 4) then s.withDev fun d => d.badMessage link 0
  else
    let q : Req := { serial := s.dev.serial, link := link, msg := m, env := env, level := m.hops % 4, arrived := s.dev.time,
                     source := some m.member }
    let s := s.withDev fun d => { d with serial := d.serial + 1 }
    match (if m.op = 0x42 ∧ m.hops.testBit 2 then s.dev.atomicsDone.find? (fun a => a.source = m.member && a.tag = m.tag)
           else none) with
    | some a => s.sendPeer m.member (q.replyMsg a.status 0 a.value s.fuses.position)
    | none => s.enter q

/-- FWD_LOAD (R366). -/
def execFwdLoad (link : Fin 256) (msg : Msg) (env : AccessEnv) (s : State) : Host.Outcome State Fault Refusal :=
  .next (s.forwarded link { msg with op := 0x40 } env)

/-- FWD_STORE (R366). -/
def execFwdStore (link : Fin 256) (msg : Msg) (env : AccessEnv) (s : State) : Host.Outcome State Fault Refusal :=
  .next (s.forwarded link { msg with op := 0x41 } env)

/-- FWD_ATOMIC (R366, R368). -/
def execFwdAtomic (link : Fin 256) (msg : Msg) (env : AccessEnv) (s : State) : Host.Outcome State Fault Refusal :=
  .next (s.forwarded link { msg with op := 0x42 } env)

/-- A reply to a forwarded request, relayed with the holder's STATUS (R366). -/
def State.relay (s : State) (link : Nat) (m : Msg) (late : Bool) : State :=
  if ¬ s.dev.linkUp link then s
  else if ¬ s.dev.peerPort (link / 4) then s.withDev fun d => d.badMessage link 0
  else
    match s.dev.forwards.find? (fun f => f.tag = m.tag) with
    | none => s
    | some f =>
      let s := s.withDev fun d => { d with forwards := d.forwards.filter (· ≠ f) }
      let q := { f.req with env := { f.req.env with late := late } }
      (s.answer q m.status m.data m.value {} true).releaseAll (fun h => h = .holder f.holder)

/-- FWD_RSP (R366). -/
def execFwdRsp (link : Fin 256) (msg : Msg) (late : Bool) (s : State) : Host.Outcome State Fault Refusal :=
  .next (s.relay link { msg with op := 0x43 } late)

/-- FWD_DATA (R366). -/
def execFwdData (link : Fin 256) (msg : Msg) (late : Bool) (s : State) : Host.Outcome State Fault Refusal :=
  .next (s.relay link { msg with op := 0x44 } late)

/-- FWD_TIMEOUT (R368): a forwarded request without its reply is sent once more with RETRY. -/
def execFwdTimeout (tag : Fin 4096) (s : State) : Host.Outcome State Fault Refusal :=
  .next <|
    match s.dev.forwards.find? (fun f => f.tag = tag.val && !f.retried) with
    | none => s
    | some f =>
      let s := s.withDev fun d =>
        ({ d with forwards := d.forwards.map (fun x => if x = f then { x with retried := true } else x) } : Dev).count 0x0113
          f.req.wing (some f.req.msg.patron)
      s.sendPeer f.holder
        { f.req.msg with op := (match (operationOf f.req.msg) with
                           | 1 => 0x40
                           | 4 => 0x42
                           | _ => 0x41),
                         mask := if (operationOf f.req.msg) = 2 then fullMask else f.req.msg.mask,
                         tag := f.tag, member := s.fuses.position, hops := f.req.level + 4, again := f.req.source.isSome }

/-- The forwarded requests of a holder that can no longer be reached, answered TF_REMOTE_UNREACHABLE (R369). -/
def State.dropForwards (s : State) (lost : Nat → Bool) : State :=
  let go := s.dev.forwards.filter (fun f => lost f.holder)
  let s := s.withDev fun d => { d with forwards := d.forwards.filter (fun f => !lost f.holder) }
  let s := go.foldl (fun s f =>
    (s.fail f.req 8 f.level 0 {}).withDev fun d =>
      d.raise .remoteTimeout (Src.wing f.req.wing) [(f.req.msg.patron, 12), (f.holder, 6)]) s
  s.releaseAll fun h => match h with
    | .holder m => lost m
    | _ => false

/-! ## Line transfers -/

/-- LINE_TRANSFER (R72, R73): the head of the shaft's transfer order moves, and requests that waited for the shaft go on. -/
def execLineTransfer (shaft : Fin 64) (wire : CodeWord) (illegal : Bool) (s : State) : Host.Outcome State Fault Refusal :=
  .next ((s.lineTransfer shaft wire illegal).releaseAll fun h => h = .shaft shaft)

end Sys2Proof.Machine
end

