-- ==== Sys2Proof/Machine/Trolley.lean ====
section
/-!
DEFINITION. Trolleys (R253 to R276): descriptor fields, start checks, stepped lines, stops, recall and REKEY.
-/

namespace Sys2Proof.Machine

open Sys2Proof

/-! ## Descriptor fields (Tables 9.6, 10.1, 10.2) -/

/-- A field of a descriptor: bytes from `off`, `n` of them. -/
def Desc.field (x : Desc) (off n : Nat) : Nat := x.words.toNat / 2 ^ (8 * off) % 2 ^ (8 * n)

/-- OPCODE of a descriptor. -/
def Desc.opcode (x : Desc) : Nat := x.field 0 1
/-- INT of a descriptor. -/
def Desc.int (x : Desc) : Bool := x.words.getLsbD 8
/-- FENCE of a descriptor. -/
def Desc.fence (x : Desc) : Bool := x.words.getLsbD 9
/-- SILENT of a descriptor. -/
def Desc.silent (x : Desc) : Bool := x.words.getLsbD 10
/-- LENGTH of a descriptor. -/
def Desc.len (x : Desc) : Nat := x.field 4 4
/-- SRC of a descriptor. -/
def Desc.src (x : Desc) : Nat := x.field 8 8
/-- DST of a descriptor. -/
def Desc.dst (x : Desc) : Nat := x.field 16 8
/-- ARG0 of a descriptor. -/
def Desc.arg0 (x : Desc) : Nat := x.field 24 8
/-- ARG1 of a descriptor. -/
def Desc.arg1 (x : Desc) : Nat := x.field 32 8
/-- ARG2 of a descriptor. -/
def Desc.arg2 (x : Desc) : Nat := x.field 40 2
/-- RESUME of a descriptor. -/
def Desc.resume (x : Desc) : Nat := x.field 44 4

/-- Which fields an opcode uses (Table 10.2): SRC, DST, ARG0, the list or result in ARG1, the count in ARG2. -/
def usesSrc (op : Nat) : Bool := decide (op = 1 ∨ op = 4 ∨ op = 5 ∨ op = 6 ∨ op = 8 ∨ op = 9 ∨ op = 10 ∨ op = 11)
def usesDst (op : Nat) : Bool := decide (op = 1 ∨ op = 2 ∨ op = 3 ∨ op = 4 ∨ op = 5 ∨ op = 7 ∨ op = 9 ∨ op = 10)
def usesArg0 (op : Nat) : Bool := decide (op = 2 ∨ op = 6 ∨ op = 11)
def usesArg1 (op : Nat) : Bool := decide (op = 6 ∨ op = 7 ∨ op = 8)
def usesArg2 (op : Nat) : Bool := decide (op = 7 ∨ op = 8)

/-- Whether SRC is a patron address. -/
def srcPatron (op : Nat) : Bool := usesSrc op && op ≠ 9
/-- Whether DST is a patron address. -/
def dstPatron (op : Nat) : Bool := usesDst op && op ≠ 10

/-- Whether a descriptor is malformed (R243, R255): a reserved opcode, or a non-zero reserved bit or unused field. -/
def Desc.malformed (x : Desc) : Bool :=
  let op := x.opcode
  decide (0x0B < op) || x.field 1 1 / 8 ≠ 0 ||
  (if op = 0 then x.words.toNat / 2 ^ 32 ≠ 0
   else
     x.field 42 2 ≠ 0 || x.field 48 16 ≠ 0 || (!usesSrc op && x.src ≠ 0) || (!usesDst op && x.dst ≠ 0) ||
     (!usesArg0 op && x.arg0 ≠ 0) || (op = 11 && decide (2 ≤ x.arg0)) || (!usesArg1 op && x.arg1 ≠ 0) ||
     (!usesArg2 op && x.arg2 ≠ 0) || (srcPatron op && decide (2 ^ 48 ≤ x.src)) || (dstPatron op && decide (2 ^ 48 ≤ x.dst)))

/-! ## Stepped lines (R259) -/

/-- Whether the stepped range is SRC (Table 10.2). -/
def stepsSrc (op : Nat) : Bool := decide (op = 5 ∨ op = 6 ∨ op = 8 ∨ op = 10 ∨ op = 11)

/-- The start of the stepped range. -/
def Desc.start (x : Desc) : Nat := if stepsSrc x.opcode then x.src else x.dst

/-- Whether two ranges overlap. -/
def overlap (a la b lb : Nat) : Bool := decide (a < b + lb) && decide (b < a + la)

/-- Whether a MOVE's ranges overlap (R260). -/
def Desc.overlapping (x : Desc) : Bool := x.opcode = 4 && overlap x.src x.len x.dst x.len

/-- Whether the stepped lines run downwards (R259). -/
def Desc.descending (x : Desc) : Bool := x.overlapping && decide (x.src < x.dst)

/-- The number of stepped lines. -/
def Desc.lines (x : Desc) : Nat := if x.len = 0 then 0 else (x.start + x.len - 1) / 64 - x.start / 64 + 1

/-- The patron addresses of the stepped line of a processing index, first and past the last. -/
def Desc.range (x : Desc) (i : Nat) : Nat × Nat :=
  let k := if x.descending then x.lines - 1 - i else i
  (max x.start ((x.start / 64 + k) * 64), min (x.start + x.len) ((x.start / 64 + k + 1) * 64))

/-- The bytes before a processing index: progress P (R259). -/
def Desc.bytesAt (x : Desc) (i : Nat) : Nat :=
  if x.opcode = 11 then min x.len (i * 64)
  else if x.lines ≤ i then x.len
  else if x.descending then x.start + x.len - (x.range i).2 else (x.range i).1 - x.start

/-- The processing index whose P is RESUME; none where it is no stepped-line boundary below LENGTH. -/
def Desc.resumeIndex (x : Desc) : Option Nat :=
  if x.resume = 0 then some 0
  else if x.len ≤ x.resume then none
  else if x.opcode = 11 then (if x.resume % 64 = 0 then some (x.resume / 64) else none)
  else if x.descending then
    (if (x.start + x.len - x.resume) % 64 = 0 then some (x.lines - ((x.start + x.len - x.resume) / 64 - x.start / 64)) else none)
  else if (x.start + x.resume) % 64 = 0 then some ((x.start + x.resume) / 64 - x.start / 64) else none

/-- A range cut at the 64-byte boundary it may cross. -/
def cutLine (a n : Nat) : List (Nat × Nat) :=
  if n = 0 then [] else if a % 64 + n ≤ 64 then [(a, n)] else [(a, 64 - a % 64), (a + (64 - a % 64), n - (64 - a % 64))]

/-- The pieces of a list's concatenated ranges that hold `n` bytes from an offset. -/
def listPieces : List (Nat × Nat) → Nat → Nat → List (Nat × Nat)
  | [], _, _ => []
  | (a, l) :: rest, off, n =>
    if n = 0 then []
    else if l ≤ off then listPieces rest (off - l) n
    else
      let k := min (l - off) n
      cutLine (a + off) k ++ listPieces rest 0 (n - k)

/-! ## Start checks (R258, Table 10.3) -/

/-- The checks that need no list: the reason of the first that fails. -/
def Desc.startCheck (x : Desc) : Option Nat :=
  let op := x.opcode
  if (x.len = 0 ∧ op ≠ 11) ∨ x.len % 8 ≠ 0 ∨ (usesArg2 op ∧ (x.arg2 = 0 ∨ 256 < x.arg2)) then some 0x98
  else if (usesSrc op ∧ x.src % 8 ≠ 0) ∨ (usesDst op ∧ x.dst % 8 ≠ 0) ∨ (usesArg1 op ∧ x.arg1 % 8 ≠ 0) ∨
      (op = 11 ∧ (x.src % 65536 ≠ 0 ∨ x.len % 65536 ≠ 0)) ∨ (srcPatron op ∧ 2 ^ 48 < x.src + x.len) ∨
      (dstPatron op ∧ 2 ^ 48 < x.dst + x.len) ∨ x.resumeIndex = none then some 0x99
  else none

/-- Whether any two of the ranges overlap. -/
def anyOverlap : List (Nat × Nat) → Bool
  | [] => false
  | r :: rest => rest.any (fun x => overlap r.1 r.2 x.1 x.2) || anyOverlap rest

/-- The checks of a list and of overlaps, and of REKEY. -/
def Dev.lateCheck (d : Dev) (x : Desc) (raw : List Nat) : Option Nat :=
  let op := x.opcode
  let es := raw.map (fun e => (e % 2 ^ 64, e / 2 ^ 64 % 2 ^ 32))
  if (op = 7 ∨ op = 8) ∧
      (raw.any (fun e => e / 2 ^ 96 ≠ 0 || e / 2 ^ 64 % 2 ^ 32 = 0 || e / 2 ^ 64 % 2 ^ 32 % 8 ≠ 0 || e % 8 ≠ 0) ∨
       es.foldl (fun n e => n + e.2) 0 ≠ x.len ∨ es.any (fun e => decide (2 ^ 48 < e.1 + e.2))) then some 0x9B
  else if (op = 1 ∧ overlap x.src x.len x.dst x.len) ∨
      ((op = 7 ∨ op = 8) ∧ anyOverlap ((x.start, x.len) :: es)) then some 0x9A
  else if op = 11 ∧ (x.patron = 0 ∨ ¬ d.flag (F.PATRON_CTL_SEALED x.patron) ∨ (slotAt d.nextKeys x.patron).isNone) then some 0x9C
  else none

/-! ## Groups and trolleys -/

/-- A trolley group's record store and fetched descriptors. -/
def Dev.groupOf (d : Dev) (g : Nat) : GroupSt := SMap.get {} d.groups g

/-- The same, changed. -/
def Dev.setGroup (d : Dev) (g : Nat) (f : GroupSt → GroupSt) : Dev := { d with groups := SMap.modify {} d.groups g f }

/-- Descriptors of a ring read but not yet returned. -/
def Dev.inFetch (d : Dev) (p i : Nat) : Nat :=
  (d.hostOps.filter (fun o => o.patron = p && match o.purpose with
    | .desc r _ => r = i
    | _ => false)).foldl (fun n o => n + o.lines) 0

/-- Descriptors of a ring fetched but not started. -/
def Dev.fetchedOf (d : Dev) (p i : Nat) : Nat :=
  d.groups.foldl (fun n kv => n + (kv.2.fetched.filter (fun x => x.patron = p && x.ring = i)).length) 0

/-- The new descriptors of an ACTIVE submission ring fetched (R241): up to 8 to a read, no read across the ring's end, no more
than 8 held or on their way. Fuel bounds the reads. -/
def Dev.fetchRing (d : Dev) (p i : Nat) : Nat → Dev
  | 0 => d
  | fuel + 1 =>
    let next := (d.ringIndex p i + d.inFetch p i) % 65536
    let new := indexDiff (SMap.get 0 (d.ringSide p).subPi i) (d.ringIndex p i) - d.inFetch p i
    let n := min (min new (8 - (d.fetchedOf p i + d.inFetch p i))) (d.ringSize p i - next % d.ringSize p i)
    if d.ringState p i ≠ ringActive ∨ n = 0 then d
    else (d.hostRead (d.patronLink p) p (.desc i next) (d.ringSlot p i next) n).fetchRing p i fuel

/-- The new descriptors of a patron fetched, RING[3] first (R241). -/
def Dev.fetchMore (d : Dev) (p : Nat) : Dev := [3, 2, 1, 0].foldl (fun d i => d.fetchRing p i 8) d

/-- The work of a trolley. -/
def Dev.work (d : Dev) (t : Nat) : Option Work := slotAt d.trolleys t

/-- The work of a trolley set. -/
def Dev.setWork (d : Dev) (t : Nat) (w : Work) : Dev := { d with trolleys := SMap.insert t w d.trolleys }

/-- The descriptors that run or are recalled. -/
def Dev.allWork (d : Dev) : List Work := d.trolleys.map (·.2) ++ d.groups.flatMap (·.2.recalled)

/-- Progress of a work in bytes. -/
def Work.p (w : Work) : Nat := w.desc.bytesAt w.done

/-! ## Accesses of a line (R254) -/

/-- A request of a trolley's line as it is forwarded to another member. -/
def lineReq (x : Desc) (a : Access) : Req :=
  { serial := x.serial, link := trolleyLink, env := a.env,
    msg := match a.kind with
      | .read => { op := 0x01, patron := a.patron, addr := BitVec.ofNat 64 a.pa }
      | .write data mask _ => { op := 0x03, patron := a.patron, addr := BitVec.ofNat 64 a.pa, data := data, mask := mask }
      | .atomic .. => { op := 0x04, patron := a.patron } }

/-- An access of a trolley through a card: REMOTE lines are forwarded and wait for their answer. The level and the card's DPA go with
a fault; `again` is the access made afresh where the card must be read again. -/
def State.trolleyUse (s : State) (w : Work) (a : Access) (again : State → AccEnd × Nat × State) (c : Card) (cd level : Nat) :
    AccEnd × Nat × State :=
  match s.access a c cd level with
  | (.remote m, _, s) =>
    let op := (lineReq w.desc a).msg.op
    match w.remote.find? (fun r => r.1 = a.pa && r.2.1 = op) with
    | some r =>
      let st := r.2.2.1
      if op = 0x01 ∧ (st = 0 ∨ st = 0x11) then (AccEnd.read r.2.2.2 (st = 0x11), cd, s)
      else if st = 0 ∨ st = 0x10 then (AccEnd.written (st = 0x10), cd, s)
      else (AccEnd.fault st (if st = 8 then level else 0), cd, s)
    | none =>
      if ¬ s.reachable m then (AccEnd.fault 8 level, cd, s)
      else if s.dev.forwards.any (fun f => f.req.serial = w.desc.serial && f.req.link = trolleyLink &&
          f.req.msg.addr.toNat = a.pa && f.req.msg.op = op) then (AccEnd.wait .walk, cd, s)
      else (AccEnd.wait .walk, cd, s.forward (lineReq w.desc a) m (c, cd, level))
  | (.again, _, s) => again s
  | (e, _, s) => (e, cd, s)

/-- An access of a trolley: translated through the index or by a walk, then made. -/
def State.trolleyAccess (s : State) (w : Work) (a : Access) : Nat → AccEnd × Nat × State
  | 0 => (.wait .walk, 0, s)
  | fuel + 1 =>
    let wing := a.pa / 4096 % 4
    let p := a.patron
    let s := s.withDev fun d => d.count 0x0400 wing (some p)
    match s.dev.indexFind wing p a.pa with
    | some e => s.trolleyUse w a (fun s => s.trolleyAccess w a fuel) e.card e.cardDpa e.level
    | none =>
      let s := s.withDev fun d => d.count 0x0401 wing (some p)
      let who := s.dev.whoOf p 1
      match s.walkRoot who a.pa 5 cleanEnv with
      | (.card c cd level, s) =>
        match s.loadIndex who a.pa wing c cd level with
        | (.ok c, s) => s.trolleyUse w a (fun s => s.trolleyAccess w a fuel) c cd level
        | (.error .again, s) => s.trolleyAccess w a fuel
        | (.error e, s) => (e, cd, s)
      | (.fault code level cd _, s) => (.fault code level, cd, s)
      | (.wait h, s) => (.wait h, 0, s)

/-- How an access of pieces of patron memory ends. -/
inductive Pieces where
  | ok (value : Nat) (poison : Bool)
  | fault (code level addr cardDpa : Nat) (write : Bool)
  | wait
  deriving DecidableEq, Repr

/-- Pieces of patron memory read in order: their bytes, the first lowest. -/
def State.readPieces (s : State) (w : Work) (env : AccessEnv) : List (Nat × Nat) → Pieces × State
  | [] => (.ok 0 false, s)
  | (a, n) :: rest =>
    match s.trolleyAccess w { patron := w.desc.patron, pa := a / 64 * 64, kind := .read, trolley := true, env := env } 3 with
    | (.read data po, _, s) =>
      match s.readPieces w cleanEnv rest with
      | (.ok v po', s) => (.ok (data.toNat / 2 ^ (8 * (a % 64)) % 2 ^ (8 * n) + v * 2 ^ (8 * n)) (po || po'), s)
      | r => r
    | (.fault code level, cd, s) => (.fault code level a cd false, s)
    | (_, _, s) => (.wait, s)

/-- Pieces of patron memory written in order: whether a target was poisoned. -/
def State.writePieces (s : State) (w : Work) (poison : Bool) (env : AccessEnv) : List (Nat × Nat) → Nat → Pieces × State
  | [], _ => (.ok 0 false, s)
  | (a, n) :: rest, v =>
    let mask := BitVec.ofNat 64 ((2 ^ n - 1) * 2 ^ (a % 64))
    let data := BitVec.ofNat 512 (v % 2 ^ (8 * n) * 2 ^ (8 * (a % 64)))
    match s.trolleyAccess w { patron := w.desc.patron, pa := a / 64 * 64, kind := .write data mask poison, trolley := true, env := env } 3 with
    | (.written t, _, s) =>
      match s.writePieces w poison cleanEnv rest (v / 2 ^ (8 * n)) with
      | (.ok _ t', s) => (.ok 0 (t || t'), s)
      | r => r
    | (.fault code level, cd, s) => (.fault code level a cd true, s)
    | (_, _, s) => (.wait, s)

/-! ## Ends of descriptors (R244, R261, Table 10.4) -/

/-- A stopping ring whose descriptors have all completed becomes DISABLED (Table 9.5). -/
def Dev.stopCheck (d : Dev) (p i : Nat) : Dev :=
  let mine := fun (x : Desc) => x.patron = p && x.ring = i
  if d.ringState p i = ringStopping ∧ ¬ d.groups.any (fun kv => kv.2.fetched.any mine) ∧
      ¬ d.allWork.any (fun w => mine w.desc) ∧ ¬ (d.ringSide p).waiting.any (fun c => c.ring = i) ∧
      ¬ d.hostOps.any (fun o => o.patron = p && match o.purpose with
        | .desc r _ => r = i
        | _ => false) then
    d.wr (F.RING_STATUS_STATE p i) ringDisabled
  else d

/-- The submission rings of a patron that may have drained. -/
def Dev.stopChecks (d : Dev) (p : Nat) : Dev := (List.range 4).foldl (fun d i => d.stopCheck p i) d

/-- The completion of a descriptor; SILENT removes the record of a DONE (Table 9.6). -/
def Dev.completeDesc (d : Dev) (x : Desc) (status tf reason result : Nat) : Dev :=
  let d := if x.silent ∧ status = 0 then d
    else d.complete x.patron
      { ring := x.ring, index := x.index, status := status, tf := tf, reason := reason, result := result, int := x.int }
  d.stopCheck x.patron x.ring

/-- A trolley freed. -/
def Dev.freeTrolley (d : Dev) (t : Nat) : Dev := { d with trolleys := SMap.erase t d.trolleys }

/-- The completion of a work whose host writes have all been answered written, and its trolley freed (R273). -/
def Dev.finishWork (d : Dev) (t : Nat) (w : Work) (c : Completion) : Dev :=
  if w.unanswered ≠ [] then d.setWork t { w with ending := some c }
  else
    let d := { d.freeTrolley t with rekeying := if w.desc.opcode = 11 then d.rekeying.filter (· ≠ w.desc.patron) else d.rekeying }
    d.completeDesc w.desc c.status c.tf c.reason c.result

/-- A work ends (Table 10.4): CRC writes its value to ARG1 first, under every status but REFUSED (R262). -/
def Dev.endWork (d : Dev) (t : Nat) (w : Work) (status tf reason result : Nat) : Dev :=
  let c : Completion := { ring := w.desc.ring, index := w.desc.index, status := status, tf := tf, reason := reason, result := result }
  if w.desc.opcode = 6 ∧ status ≠ 0x11 then
    let tag := d.hostTag
    let d := d.hostOp (d.patronLink w.desc.patron) w.desc.patron (.crc w.desc.serial) 0 (hostWrite w.desc.arg1 w.crc 8)
    d.finishWork t { w with unanswered := w.unanswered ++ [tag] } c
  else d.finishWork t w c

/-- The end of a work whose stepped lines are all complete (R261). -/
def Dev.workDone (d : Dev) (t : Nat) (w : Work) : Dev :=
  match w.cmp with
  | some (off, poisoned) => d.endWork t w (if poisoned then 0x02 else 0x03) 0 0 off
  | none => d.endWork t w (if w.srcPoison then 0x02 else if w.tgtPoison then 0x01 else 0) 0 0 w.desc.len

/-- Lines in flight of a work: of the 64 stepped lines from P, those not complete (R253, R259). -/
def Work.inFlight (w : Work) : Nat := min 64 (w.desc.lines - w.done) - w.map.length

/-- A fault met on a stepped line: lines before it go on, the lower of two stops wins (R261, Table 10.7); with none before it the
work ends. The fault record is written before the completion. -/
def Dev.workFault (d : Dev) (t : Nat) (w : Work) : Dev :=
  match w.stop with
  | some (.translation k tf level write addr cd) =>
    if w.done = k then
      (d.tfault w.desc.patron tf level cd (addr / 4096 % 4) 2 (w.desc.ring + w.desc.index * 65536) addr write).endWork t w 0x10 tf 0
        (w.desc.bytesAt k)
    else d.setWork t w
  | some (.host k reason) => if k ≤ w.done then d.endWork t w 0x12 0 reason (w.desc.bytesAt k) else d.setWork t w
  | _ => d.setWork t w

/-- The line of a fault stop. -/
def Stop.line : Stop → Option Nat
  | .translation k .. => some k
  | .host k _ => some k
  | _ => none

/-- A fault stop set on a work, unless a lower line has one (R261); the lines it abandons are counted. -/
def Dev.setFault (d : Dev) (t : Nat) (w : Work) (k : Nat) (st : Stop) : Dev :=
  let lower := match w.stop.bind Stop.line with
    | some j => decide (j ≤ k)
    | none => false
  if lower then d.setWork t w
  else
    let d := (List.range (w.inFlight - (k - w.done))).foldl (fun d _ => d.count 0x060B (t / 4) (some w.desc.patron)) d
    d.workFault t { w with stop := some st, map := w.map.filter (fun i => decide (i < k)) }

/-! ## Progress -/

/-- A stepped line complete: P moves past every line done without a gap (R259, R267). -/
def Work.advance (w : Work) (i : Nat) : Work :=
  let m := i :: w.map
  let done := (List.range 65).foldl (fun n _ => if m.contains n then n + 1 else n) w.done
  { w with done := done, map := m.filter (fun k => decide (done ≤ k)) }

/-- Whether a work has nothing more to step: all lines done, or every line below the lowest offset that COMPARE met (R261). -/
def Work.stepped (w : Work) : Bool :=
  decide (w.desc.lines ≤ w.done) ||
    match w.cmp with
    | some (off, _) => decide (off < w.desc.bytesAt w.done)
    | none => false

/-- A stepped line complete, counted, with the work's end if it was the last (R259, Table 19.6). -/
def Dev.lineDone (d : Dev) (t : Nat) (w : Work) (i : Nat) : Dev :=
  let r := w.desc.range i
  let d := (d.count 0x060C (t / 4) (some w.desc.patron)).circulate w.desc.patron
    fun c => { c with dmaBytes := c.dmaBytes + (r.2 - r.1) }
  let w := w.advance i
  match w.stop.bind Stop.line with
  | some _ => d.workFault t w
  | none => if w.stepped then d.workDone t w else d.setWork t w

/-! ## Host data (R273) -/

/-- The host lines that stepped lines of a HOST_IN need. -/
def Desc.hostLines (x : Desc) (i : Nat) : List Nat :=
  let r := x.range i
  let a := x.src + (r.1 - x.start)
  let b := a + (r.2 - r.1) - 1
  if a / 64 = b / 64 then [a / 64 * 64] else [a / 64 * 64, b / 64 * 64]

/-- Whether a work may step its lines now: running, or lines before a fault. -/
def Work.mayStep (w : Work) (i : Nat) : Bool :=
  w.ending.isNone && (!usesArg2 w.desc.opcode || w.list.isSome) &&
    match w.stop with
    | none => true
    | some (.translation k ..) => decide (i < k)
    | some (.host k _) => decide (i < k)
    | _ => false

/-- The host reads of the lines of a HOST_IN's window that have not been issued yet. -/
def Dev.issueReads (d : Dev) (w : Work) : Dev :=
  if w.desc.opcode ≠ 9 then d
  else
    ((List.range (min 64 (w.desc.lines - w.done))).filter (fun j => w.mayStep (w.done + j))).foldl (fun d j =>
      (w.desc.hostLines (w.done + j)).foldl (fun d a =>
        if w.arrived.any (fun x => x.1 = a) ∨ d.hostOps.any (fun o => o.purpose = .data w.desc.serial a) then d
        else d.hostRead (d.patronLink w.desc.patron) w.desc.patron (.data w.desc.serial a) a 1) d) d

/-- Host bytes of a HOST_IN's line: their value and POISON; none where a line has not arrived. -/
def Work.hostBytes (w : Work) (i : Nat) : Option (Nat × Bool) :=
  let r := w.desc.range i
  let a := w.desc.src + (r.1 - w.desc.start)
  (cutLine a (r.2 - r.1)).foldr (fun (x : Nat × Nat) acc =>
    match acc, w.arrived.find? (fun y => y.1 = x.1 / 64 * 64) with
    | some (v, po), some y => some (y.2.1.toNat / 2 ^ (8 * (x.1 % 64)) % 2 ^ (8 * x.2) + v * 2 ^ (8 * x.2), po || y.2.2)
    | _, _ => none) (some (0, false))

/-- The host writes of a HOST_OUT's line, kept until they are answered. -/
def Dev.hostOut (d : Dev) (w : Work) (i : Nat) (v : Nat) (poison : Bool) : Dev × List Nat :=
  let r := w.desc.range i
  let a := w.desc.dst + (r.1 - w.desc.start)
  let res := (cutLine a (r.2 - r.1)).foldl (fun (x : Dev × List Nat × Nat) pc =>
    let tag := x.1.hostTag
    (x.1.hostOp (x.1.patronLink w.desc.patron) w.desc.patron (.out w.desc.serial i) 0
       (hostWrite pc.1 (x.2.2 % 2 ^ (8 * pc.2)) pc.2 poison), x.2.1 ++ [tag], x.2.2 / 2 ^ (8 * pc.2))) (d, [], v)
  (res.1, res.2.1)

/-! ## One stepped line -/

/-- The pattern bytes of a FILL over a range (Table 10.2). -/
def fillBytes (pattern a n : Nat) : Nat :=
  (List.range n).foldl (fun v i => v + pattern / 2 ^ (8 * ((a + i) % 8)) % 256 * 2 ^ (8 * i)) 0

/-- The offset of the first byte in which two values differ. -/
def firstDiff (x y n : Nat) : Option Nat := (List.range n).find? (fun i => x / 2 ^ (8 * i) % 256 ≠ y / 2 ^ (8 * i) % 256)

/-- The lower of two COMPARE findings. -/
def lowerFinding (a b : Option (Nat × Bool)) : Option (Nat × Bool) :=
  match a, b with
  | some x, some y => if x.1 ≤ y.1 then some x else some y
  | some x, none => some x
  | none, y => y

/-- The source of a data-moving line: pieces read, or values without a read. -/
def Work.source (w : Work) (r : Nat × Nat) : List (Nat × Nat) :=
  let x := w.desc
  let off := r.1 - x.start
  match x.opcode with
  | 1 | 4 => cutLine (x.src + off) (r.2 - r.1)
  | 7 => listPieces (w.list.getD []) off (r.2 - r.1)
  | 2 | 3 | 9 => []
  | _ => cutLine r.1 (r.2 - r.1)

/-- What follows a translation fault on line `i`: the stop (R245, R270). -/
def Dev.lineFault (d : Dev) (t : Nat) (w : Work) (i code level addr cardDpa : Nat) (write : Bool) : Dev :=
  d.setFault t w i (.translation i code level write addr cardDpa)

/-- A stepped line of any operation but REKEY: what it reads and writes, and its completion. `ue` is a double error in the line
buffer, which poisons the line (R270). -/
def State.stepLine (s : State) (t : Nat) (w : Work) (i : Nat) (env : AccessEnv) (ue : Bool) : State :=
  let x := w.desc
  let r := x.range i
  let n := r.2 - r.1
  let off := r.1 - x.start
  let host := w.hostBytes i
  if x.opcode = 9 ∧ host.isNone then s
  else
    match s.readPieces w env (w.source r) with
    | (.wait, s) => s
    | (.fault code level addr cd write, s) => s.withDev fun d => d.lineFault t w i code level addr cd write
    | (.ok v po, s) =>
      let v := match x.opcode with
        | 2 => fillBytes x.arg0 r.1 n
        | 9 => (host.map (·.1)).getD 0
        | _ => v
      let po := (po || (x.opcode = 9 && (host.map (·.2)).getD false)) || ue
      let s := if ue then s.withDev fun d => d.raise .trolleyUe (Src.trolleyGroup (t / 4)) [(t, 5), (x.patron, 12)] else s
      let w := { w with srcPoison := w.srcPoison || (po && x.opcode ≠ 5) }
      match x.opcode with
      | 5 =>
        match s.readPieces w cleanEnv (cutLine (x.dst + off) n) with
        | (.wait, s) => s
        | (.fault code level addr cd write, s) => s.withDev fun d => d.lineFault t w i code level addr cd write
        | (.ok v2 po2, s) =>
          let f := if po || po2 then some (off, true) else (firstDiff v v2 n).map (fun k => (off + k, false))
          s.withDev fun d => d.lineDone t { w with cmp := lowerFinding w.cmp f } i
      | 6 => s.withDev fun d =>
          d.lineDone t { w with crc := crc 64 0x42F0E1EBA9EA3693 w.crc (bytesOfNat n v) } i
      | 10 =>
        let (d, tags) := s.dev.hostOut w i v po
        { s with dev := d.lineDone t { w with unanswered := w.unanswered ++ tags } i }
      | op =>
        let dst := if op = 8 then listPieces (w.list.getD []) off n else cutLine r.1 n
        match s.writePieces w po (if w.source r = [] then env else cleanEnv) dst v with
        | (.wait, s) => s
        | (.fault code level addr cd write, s) => s.withDev fun d => d.lineFault t w i code level addr cd write
        | (.ok _ tgt, s) => s.withDev fun d => d.lineDone t { w with tgtPoison := w.tgtPoison || tgt } i

/-! ## REKEY (R274 to R276) -/

/-- A line as it stands, without an access: from the room, the merge buffer or the shaft. -/
def State.peekLine (s : State) (dpa : Nat) : LineData :=
  match s.roomLine dpa with
  | some (_, l) => l.data
  | none =>
    match s.home dpa with
    | .dram loc =>
      match s.dev.mergeNewest (s.dev.drivingBay (locShaft loc)) loc with
      | some e => e.data
      | none => (decodeLine (readLine s.mem loc) []).data
    | _ => 0

/-- The first card of a patron's catalogue that still selects the vault key: its patron address (R276). -/
def State.vaultCard (s : State) (p : Nat) (epoch : Bool) : Nat → Nat → Nat → Nat → Option Nat
  | 0, _, _, _ => none
  | fuel + 1, level, table, base =>
    (List.range 256).findSome? (fun i =>
      let cd := table + i * 8
      let c := cardIn (s.peekLine (cd / 64 * 64)) cd
      let pa := base + i * 2 ^ (48 - 8 * level)
      let st := cardState c
      if st = 1 then (if s.malformed p level c then none else s.vaultCard p epoch fuel (level + 1) (cardAddress c) pa)
      else if (st = 3 ∨ st = 4 ∨ st = 5 ∨ st = 6 ∨ st = 9) ∧ cardEpoch c = epoch then some pa
      else none)

/-- The switch of R197: the next key into the vault, KEY_EPOCH inverted, the slot freed. -/
def Dev.keySwitch (d : Dev) (p : Nat) : Dev :=
  match slotAt d.nextKeys p with
  | none => d
  | some k =>
    let e := d.flag (F.PATRON_STATUS_KEY_EPOCH p)
    (({ d with vault := SMap.insert p k d.vault } : Dev).wrs
      [(F.PATRON_STATUS_KEY_EPOCH p, (!e).toNat), (F.PATRON_STATUS_KEY_LOADED p, 1), (F.PATRON_STATUS_KEY_LOST p, 0)]).freeNext p

/-- A REKEY whose range is done (R276). -/
def State.rekeyEnd (s : State) (t : Nat) (w : Work) : State :=
  let p := w.desc.patron
  let st := if w.srcPoison then 0x02 else 0
  if w.desc.arg0 % 2 = 0 then s.withDev fun d => d.endWork t w st 0 0 0
  else
    match s.vaultCard p (s.dev.flag (F.PATRON_STATUS_KEY_EPOCH p)) 4 1 (s.dev.rootOf p) 0 with
    | some pa => s.withDev fun d => d.endWork t w st 0 0 (2 ^ 62 + pa)
    | none => s.withDev fun d => ((d.keySwitch p).count 0x060F (t / 4) (some p)).endWork t w st 0 0 (2 ^ 63)

/-- P of a REKEY moved on by lines; past the range it ends. -/
def State.rekeyStep (s : State) (t : Nat) (w : Work) (done : Nat) : State :=
  let w := { w with done := done }
  if w.desc.len ≤ done * 64 then s.rekeyEnd t w else s.withDev fun d => d.setWork t w

/-- One line of the current segment encrypted again (R275): read from the room or decrypted from its shaft, and sent as a full
write under the next key. -/
def State.rekeyLine (s : State) (t : Nat) (w : Work) (r : Rekey) (k : Nat) (env : AccessEnv) : State :=
  let p := r.patron
  let dpa := cardAddress r.card + r.segment * 65536 + k * 64
  let e := s.dev.flag (F.PATRON_STATUS_KEY_EPOCH p)
  let who := s.dev.whoOf p 1
  let put := fun (s : State) (data : LineData) (po : Bool) =>
    match s.bayPut { who with key := some (p, !e) } dpa data fullMask po 0 with
    | (.wait _, _) => s
    | (.keyMissing, s) => s.withDev fun d => d.lineFault t w w.done 9 0 (w.desc.src + w.done * 64) r.cardDpa true
    | (_, s) =>
      let s := match s.roomLine dpa with
        | some (key, _) => s.withDev fun d => d.dropRoom key
        | none => s
      let r' := { r with map := r.map + 2 ^ k }
      let s := s.withDev fun d =>
        (({ d with rekeys := d.rekeys.map (fun x => if x = r then r' else x) } : Dev).count 0x060E (t / 4) (some p)).circulate p
          fun c => { c with dmaBytes := c.dmaBytes + 64 }
      s.rekeyStep t { w with srcPoison := w.srcPoison || po } (w.done + 1)
  match s.roomLine dpa with
  | some (_, l) => if l.st = .writing then s else put s l.data l.poison
  | none =>
    match s.bayFetch { who with key := some (p, e) } dpa env.wire with
    | (.line data po _, s) => put s data po
    | (.wait _, s) => s
    | (.keyMissing, s) => s.withDev fun d => d.lineFault t w w.done 9 0 (w.desc.src + w.done * 64) r.cardDpa false

/-- The end of a segment: the next one, or the card's EPOCH is compared and swapped and the record closed (R275); a card that a
patron 0 store has changed drops the record. -/
def State.rekeyClose (s : State) (r : Rekey) (found : Card) : State :=
  let same := (found ||| 0x600#64) = (r.card ||| 0x600#64)
  let drop := fun (s : State) => s.withDev fun d => { d with rekeys := d.rekeys.filter (· ≠ r) }
  if ¬ same then
    (drop s).withDev fun d => d.raise .rekeyCardChanged (Src.wing (r.patron % 8 / 2)) [(r.patron, 12), (r.cardDpa, 38)]
  else if cardVolume r.card ∧ r.segment < 255 then
    s.withDev fun d => { d with rekeys := d.rekeys.map (fun x => if x = r then { r with segment := r.segment + 1, map := 0 } else x) }
  else
    match s.swapCard (s.dev.whoOf r.patron 1) r.cardDpa found (found ^^^ BitVec.ofNat 64 (2 ^ 44)) cleanEnv with
    | (.done, s) => drop s
    | (_, s) => s

/-- One step of a REKEY (R274): a line of the open record, or the card at P: skipped, waited for, or opened. -/
def State.stepRekey (s : State) (t : Nat) (w : Work) (env : AccessEnv) : State :=
  let p := w.desc.patron
  let pa := w.desc.src + w.done * 64
  let skip := fun (s : State) (span : Nat) => s.rekeyStep t w (((pa / span + 1) * span - w.desc.src) / 64)
  if w.desc.len ≤ w.done * 64 then s.rekeyEnd t w
  else
    match s.walkRoot (s.dev.whoOf p 1) pa 5 env with
    | (.wait _, s) => s
    | (.fault 3 level _ _, s) => skip s (2 ^ (48 - 8 * level))
    | (.fault code level cd _, s) => s.withDev fun d => d.lineFault t w w.done code level pa cd false
    | (.card c cd _, s) =>
      let st := cardState c
      match s.dev.rekeys.find? (fun r => r.patron = p && r.cardDpa = cd) with
      | some r =>
        match (List.range 1024).find? (fun k => !r.map.testBit k) with
        | some k =>
          if (c ||| 0x600#64) ≠ (r.card ||| 0x600#64) then s.rekeyClose r c else s.rekeyLine t w r k env
        | none => s.rekeyClose r c
      | none =>
        if st = 6 ∨ st = 9 then s
        else if st = 2 ∨ st = 7 ∨ st = 8 ∨ cardEpoch c ≠ s.dev.flag (F.PATRON_STATUS_KEY_EPOCH p) then skip s (cardSpan c)
        else s.withDev fun d => { d with rekeys := d.rekeys ++ [{ patron := p, cardDpa := cd, card := c }] }

/-! ## Starting (R264, R265) -/

/-- Whether the FENCE of a fetched descriptor is met (Table 9.6): every earlier descriptor of its ring has its completion
written. -/
def Dev.fenceMet (d : Dev) (x : Desc) : Bool :=
  !x.fence ||
    (!d.groups.any (fun kv => kv.2.fetched.any (fun y => y.patron = x.patron && y.ring = x.ring && decide (y.serial < x.serial))) &&
     !d.allWork.any (fun w => w.desc.patron = x.patron && w.desc.ring = x.ring && decide (w.desc.serial < x.serial)) &&
     !(d.ringSide x.patron).waiting.any (fun c => c.ring = x.ring))

/-- Whether a fetched descriptor is ready (R264): first of its ring, the ring ACTIVE or stopped by a descriptor behind it (Table
9.7), its FENCE met, and no other REKEY of its patron. -/
def Dev.descReady (d : Dev) (x : Desc) : Bool :=
  !d.groups.any (fun kv => kv.2.fetched.any (fun y => y.patron = x.patron && y.ring = x.ring && decide (y.serial < x.serial))) &&
    (d.ringState x.patron x.ring = ringActive ||
      (d.ringState x.patron x.ring = ringError &&
        (d.rd (F.RING_STATUS_REASON x.patron x.ring) = 0x91 || d.rd (F.RING_STATUS_REASON x.patron x.ring) = 0x92))) &&
    d.fenceMet x && !(x.opcode = 11 && d.allWork.any (fun w => w.desc.opcode = 11 && w.desc.patron = x.patron))

/-- NOPs that are ready completed (R243); fuel bounds their number. -/
def Dev.pumpNops (d : Dev) (g : Nat) : Nat → Dev
  | 0 => d
  | fuel + 1 =>
    match (d.groupOf g).fetched.find? (fun x => x.opcode = 0 && d.descReady x) with
    | none => d
    | some x =>
      (((d.setGroup g fun s => { s with fetched := s.fetched.filter (· ≠ x) }).completeDesc x 0 0 0 0).fetchMore x.patron).pumpNops g fuel

/-- What a free trolley takes next (R264): the highest ring priority, recalled before fetched, then the oldest. -/
inductive Choice where
  | recalled (w : Work)
  | fetched (x : Desc)
  deriving DecidableEq, Repr

/-- The order of a choice: greater goes first. -/
def Choice.rank : Choice → Nat × Nat × Nat
  | .recalled w => (w.desc.ring, 1, w.desc.serial)
  | .fetched x => (x.ring, 0, x.serial)

/-- Whether the first choice goes before the second. -/
def Choice.before (a b : Choice) : Bool :=
  let x := a.rank
  let y := b.rank
  decide (y.1 < x.1) || (x.1 = y.1 && (decide (y.2.1 < x.2.1) || (x.2.1 = y.2.1 && decide (x.2.2 < y.2.2))))

/-- The next descriptor of a group. -/
def Dev.choose (d : Dev) (g : Nat) : Option Choice :=
  let l := (d.groupOf g).recalled.map Choice.recalled ++
    ((d.groupOf g).fetched.filter (fun x => x.opcode ≠ 0 && d.descReady x)).map Choice.fetched
  l.foldl (fun b c => match b with
    | none => some c
    | some x => if c.before x then some c else some x) none

/-- Whether a trolley can take work. -/
def Dev.trolleyFree (d : Dev) (t : Nat) : Bool :=
  (d.work t).isNone && !d.withdrawnTrolleys.contains t && d.domainOn (Dom.trolleyGroup (t / 4)) && !d.flag F.SAFE_STATUS_ACTIVE

/-- The list of a GATHER or SCATTER read from host memory, up to 8 lines to a read (R257). -/
def Dev.readList (d : Dev) (x : Desc) : Dev :=
  let first := x.arg1 / 64 * 64
  let lines := (x.arg1 + 16 * x.arg2 - 1) / 64 - x.arg1 / 64 + 1
  (List.range ((lines + 7) / 8)).foldl (fun d i =>
    d.hostRead (d.patronLink x.patron) x.patron (.list x.serial) (first + i * 512) (min 8 (lines - 8 * i))) d

/-- A descriptor refused at its start (R258). -/
def Dev.refuse (d : Dev) (t : Nat) (x : Desc) (reason : Nat) : Dev :=
  ((d.freeTrolley t).count 0x060D (t / 4) (some x.patron)).completeDesc x 0x11 0 reason 0

/-- A trolley takes its group's next descriptor (R264): a recalled one from its progress record, a fetched one after the start
checks, a GATHER or SCATTER once its list is read. -/
def Dev.startOn (d : Dev) (t : Nat) : Dev :=
  let g := t / 4
  if ¬ d.trolleyFree t then d
  else
    match d.choose g with
    | none => d
    | some (.recalled w) =>
      let d := (d.setGroup g fun s => { s with recalled := s.recalled.filter (· ≠ w) }).count 0x060A g (some w.desc.patron)
      let w := { w with stop := none, started := d.time, order := d.serial }
      (({ d with serial := d.serial + 1 } : Dev).setWork t w).issueReads w
    | some (.fetched x) =>
      let d := (d.setGroup g fun s => { s with fetched := s.fetched.filter (· ≠ x) }).fetchMore x.patron
      let done := x.resumeIndex.getD 0
      let w : Work := { desc := x, done := done, crc := x.arg0, started := d.time, order := d.serial }
      let d := ({ d with serial := d.serial + 1 } : Dev).setWork t w
      match x.startCheck with
      | some r => d.refuse t x r
      | none =>
        if usesArg2 x.opcode then (d.readList x).count 0x0608 g (some x.patron)
        else
          match d.lateCheck x [] with
          | some r => d.refuse t x r
          | none =>
            let d := d.count 0x0608 g (some x.patron)
            let d := if x.opcode = 11 then { d with rekeying := d.rekeying ++ [x.patron] } else d
            d.issueReads w

/-- DESCRIPTOR_START (R264): the trolley takes the next descriptor; NOPs that became ready complete. -/
def execDescriptorStart (trolley : Fin 32) (s : State) : Host.Outcome State Fault Refusal :=
  s.next fun d => (d.startOn trolley).pumpNops (trolley / 4) 64

/-- The list of a GATHER or SCATTER has come whole (R257): its checks, then the work goes on. -/
def Dev.listReturn (d : Dev) (t : Nat) (w : Work) (raw : List Nat) : Dev :=
  match d.lateCheck w.desc raw with
  | some r => d.refuse t w.desc r
  | none => d.setWork t { w with list := some (raw.map (fun e => (e % 2 ^ 48, e / 2 ^ 64 % 2 ^ 32))), arrived := [] }

/-- The entries of a list as its host lines hold them: `lines` are the lines from the one that ARG1 lies in. -/
def Desc.entries (x : Desc) (lines : List LineData) : List Nat :=
  let all := lines.foldr (fun l n => l.toNat + 2 ^ 512 * n) 0 / 2 ^ (8 * (x.arg1 % 64))
  (List.range x.arg2).map (fun i => all / 2 ^ (128 * i) % 2 ^ 128)

/-- GATHER_LIST_RETURN (R257): the lines of the list that the trolley waits for. -/
def execGatherListReturn (trolley : Fin 32) (lines : List LineData) (s : State) : Host.Outcome State Fault Refusal :=
  s.next fun d =>
    match d.work trolley with
    | some w =>
      if usesArg2 w.desc.opcode ∧ w.list = none ∧ w.ending = none then
        ({ d with hostOps := d.hostOps.filter (fun o => o.purpose ≠ .list w.desc.serial) } : Dev).listReturn trolley w (w.desc.entries lines)
      else d
    | none => d

/-- STEPPED_LINE_COMPLETE (R259): a line of the trolley's window of 64 completes; CRC and an overlapping MOVE take theirs in order
(R260, R262). -/
def execSteppedLineComplete (trolley : Fin 32) (slot : Fin 64) (env : AccessEnv) (ue : Bool) (s : State) :
    Host.Outcome State Fault Refusal :=
  .next <|
    match s.dev.work trolley with
    | none => s
    | some w =>
      if s.dev.flag F.SAFE_STATUS_ACTIVE then s
      else if w.desc.opcode = 11 then (if w.mayStep w.done then s.stepRekey trolley w env else s)
      else
        let i := if w.desc.opcode = 6 ∨ w.desc.overlapping then w.done else w.done + slot
        if w.desc.lines ≤ i ∨ w.map.contains i ∨ ¬ w.mayStep i then s
        else
          let s := s.stepLine trolley w i env ue
          s.withDev fun d => match d.work trolley with
            | some w => d.issueReads w
            | none => d.pumpNops (trolley / 4) 64

/-- REKEY_CARD_POLL (R274): the card at P is read again; a REKEY that waits at it goes on if it has left MATERIALISING and
RESHELVING. -/
def execRekeyCardPoll (trolley : Fin 32) (env : AccessEnv) (s : State) : Host.Outcome State Fault Refusal :=
  .next <|
    match s.dev.work trolley with
    | some w => if w.desc.opcode = 11 ∧ w.mayStep w.done ∧ ¬ s.dev.flag F.SAFE_STATUS_ACTIVE then s.stepRekey trolley w env else s
    | none => s

/-! ## Recall (R265, R266) -/

/-- A recall ordered in a group where a ready descriptor finds no trolley free (R265). -/
def Dev.orderRecall (d : Dev) (g : Nat) : Dev :=
  let ts := (List.range 4).map (fun i => 4 * g + i)
  if ¬ d.flag F.TROLLEY_CTL_RECALL_EN ∨ ts.any d.trolleyFree ∨ 16 ≤ (d.groupOf g).recalled.length ∨
      d.flag F.SAFE_STATUS_ACTIVE ∨
      ts.any (fun t => match d.work t with
        | some w => w.stop = some .recall
        | none => false) then d
  else
    match d.choose g with
    | none => d
    | some c =>
      let cand := ts.filterMap (fun t => match d.work t with
        | some w => if w.desc.ring < c.rank.1 ∧ w.stop = none ∧ w.ending = none ∧
            w.started + d.rd F.TROLLEY_CTL_RECALL_MIN * 100 ≤ d.time then some (t, w) else none
        | none => none)
      let pick := cand.foldl (fun b x => match b with
        | none => some x
        | some y => if x.2.desc.ring < y.2.desc.ring ∨ (x.2.desc.ring = y.2.desc.ring ∧ y.2.order < x.2.order) then some x else some y)
        (none : Option (Nat × Work))
      match pick with
      | none => d
      | some (t, w) =>
        let d := (List.range w.inFlight).foldl (fun d _ => d.count 0x060B g (some w.desc.patron)) d
        ((d.setWork t { w with stop := some .recall }).bump (F.TROLLEY_GROUP_STATUS_RECALLS g)).count 0x0609 g (some w.desc.patron)

/-- A running descriptor put into its group's record store with its progress (R267). -/
def Dev.toRecalled (d : Dev) (t : Nat) (w : Work) : Dev :=
  (d.freeTrolley t).setGroup (t / 4) fun s => { s with recalled := s.recalled ++ [{ w with stop := none }] }

/-- RECALL_DRAIN_COMPLETE (R266): the recalled descriptor's record is final, and the trolley starts the next one. -/
def execRecallDrainComplete (trolley : Fin 32) (s : State) : Host.Outcome State Fault Refusal :=
  s.next fun d =>
    match d.work trolley with
    | some w => if w.stop = some .recall then (d.toRecalled trolley w).startOn trolley else d
    | none => d

/-- RECALL_LATE (R266). -/
def execRecallLate (trolley : Fin 32) (s : State) : Host.Outcome State Fault Refusal :=
  s.next fun d => d.raise .recallLate (Src.trolleyGroup (trolley / 4))

/-- A running descriptor ended by a ring stop: ABORTED with its P (R238, Table 10.7). -/
def Dev.abortWork (d : Dev) (t : Nat) (w : Work) : Dev :=
  if w.ending.isSome ∨ (w.stop.bind Stop.line).isSome then d
  else
    let d := (List.range w.inFlight).foldl (fun d _ => d.count 0x060B (t / 4) (some w.desc.patron)) d
    d.endWork t { w with stop := some .abort } 0x04 0 0 w.p

/-- A trolley withdrawn (R66, R270): its descriptor is RECALLED. -/
def Dev.withdrawTrolley (d : Dev) (t : Nat) : Dev :=
  let d := { d with withdrawnTrolleys := if d.withdrawnTrolleys.contains t then d.withdrawnTrolleys else d.withdrawnTrolleys ++ [t] }
  match d.work t with
  | some w => if w.ending.isSome then d else d.toRecalled t w
  | none => d

/-- Every running descriptor of a group recalled at once, and every record and fetched descriptor moved to the other group of its
wing (R271). -/
def Dev.moveGroup (d : Dev) (g : Nat) : Dev :=
  let d := (List.range 4).foldl (fun d i => match d.work (4 * g + i) with
    | some w => if w.ending.isSome then d else
        (d.toRecalled (4 * g + i) w).count 0x0609 g (some w.desc.patron)
    | none => d) d
  let st := d.groupOf g
  (d.setGroup g fun _ => {}).setGroup (g ^^^ 1) fun s => { fetched := s.fetched ++ st.fetched, recalled := s.recalled ++ st.recalled }

/-- Whether the other group of a wing can take a group's descriptors (R271). -/
def Dev.groupFits (d : Dev) (g : Nat) : Bool :=
  let running := ((List.range 4).filter (fun i => (d.work (4 * g + i)).isSome)).length
  d.domainOn (Dom.trolleyGroup (g ^^^ 1)) &&
    decide ((d.groupOf (g ^^^ 1)).recalled.length + (d.groupOf g).recalled.length + running ≤ 16)

end Sys2Proof.Machine
end

