-- ==== Sys2Proof/Machine/Check.lean ====
section
/-!
DEFINITION. The configuration check (R12, R492 to R494): the first failing check of a list gives the reason code; a refusal clears
the triggering bit, an acceptance sets it, and both reason fields tell which.
-/

namespace Sys2Proof.Machine

open Sys2Proof

/-- The code of the first check that fails; 0 where none does. -/
def firstCode : List (Bool × Nat) → Nat
  | [] => 0
  | (true, c) :: _ => c
  | (false, _) :: rest => firstCode rest

/-- The triggers of Table 20.7. -/
inductive Trigger where
  | opened | port | patron | commit | ring | power | join | inject | slice | inventory | resume
  deriving DecidableEq, Repr

/-- The number of a trigger (Table 20.7). -/
def Trigger.code : Trigger → Nat
  | .opened => 0 | .port => 1 | .patron => 2 | .commit => 3 | .ring => 4 | .power => 5 | .join => 6 | .inject => 7
  | .slice => 8 | .inventory => 9 | .resume => 10

/-- Whether the inventory has started since the cold start (R458, R493). -/
def Dev.inventoried (d : Dev) : Bool := d.flag F.INVENTORY_STATUS_CLOSE_ONLY

/-- The two common checks of a write of 1 (R493). -/
def Dev.commonChecks (d : Dev) (t : Trigger) : List (Bool × Nat) :=
  [(d.inventoried, 0xE7), (d.flag F.SAFE_STATUS_ACTIVE && (decide (t.code ≤ 4) || t == .join || t == .inject), 0x0C)]

/-- DEV_REASON and the block's own reason field (R12). -/
def Dev.reason (d : Dev) (t : Trigger) (detail code : Nat) (own : List Field) : Dev :=
  own.foldl (fun d f => d.wr f code)
    (d.wrs [(F.DEV_REASON_CODE, code), (F.DEV_REASON_TRIGGER, t.code), (F.DEV_REASON_DETAIL, detail)])

/-- The outcome of a checked write of 1: the bit and the reasons; whether it was accepted. -/
def Dev.checked (d : Dev) (t : Trigger) (detail : Nat) (own : List Field) (bit : Field) (checks : List (Bool × Nat)) :
    Bool × Dev :=
  let code := firstCode (d.commonChecks t ++ checks)
  (decide (code = 0), (d.reason t detail code own).put bit (decide (code = 0)))

/-- The outcome of a checked write of 0 (R12, R493): only the check that Table 20.7 names for it. -/
def Dev.checkedOff (d : Dev) (t : Trigger) (detail : Nat) (own : List Field) (bit : Field) (checks : List (Bool × Nat)) :
    Bool × Dev :=
  let code := firstCode checks
  (decide (code = 0), (d.reason t detail code own).put bit (decide (code ≠ 0)))

end Sys2Proof.Machine
end

