-- ==== Sys2Proof/Machine/Rings.lean ====
section
/-!
DEFINITION. Rings, bells and completions (R230 to R251): enabling and stopping rings, bells, the returns of bell records and
descriptors, host reads and writes that fail, and the house rings.
-/

namespace Sys2Proof.Machine

open Sys2Proof

/-! ## Enabling and stopping (R235 to R238, Tables 9.4, 9.5, 20.7) -/

/-- The area of a ring in host memory: start and length. -/
def Dev.ringArea (d : Dev) (p i : Nat) : Nat × Nat := (d.ringBase p i, d.ringSize p i * ringEntry i)

/-- Whether a ring's area meets another ring of the patron that is not DISABLED, or the bell area. -/
def Dev.ringOverlaps (d : Dev) (p i : Nat) : Bool :=
  let a := d.ringArea p i
  let hits := fun (b : Nat × Nat) => overlap a.1 a.2 b.1 b.2
  hits (d.bellAddr p, 32) ||
    (List.range 6).any (fun j => j ≠ i && d.ringState p j ≠ ringDisabled && hits (d.ringArea p j))

/-- The DETAIL of a ring enable (Table 20.7). -/
def ringDetail (p i : Nat) : Nat := p * 8 + i

/-- The checks of Table 9.4. -/
def Dev.ringChecks (d : Dev) (p i : Nat) : List (Bool × Nat) :=
  let size := d.rd (F.RING_CTL_SIZE p i)
  let wing := p % 8 / 2
  [(!d.flag (F.PATRON_STATUS_ACTIVE p), 0x81), (decide (d.ringState p i = ringStopping), 0x88),
   (decide (size < 4 ∨ 16 < size), 0x82), (decide (d.bellAddr p = 0), 0x83),
   (decide (i < 4 ∧ (d.ringState p 4 ≠ ringActive ∨ d.ringState p 5 ≠ ringActive)), 0x84), (d.ringOverlaps p i, 0x86),
   (!d.domainOn (Dom.trolleyGroup (2 * wing)) && !d.domainOn (Dom.trolleyGroup (2 * wing + 1)), 0x85)]

/-- A ring enabled: ACTIVE from DISABLED, both indices 0 (R230, R235). -/
def Dev.ringStart (d : Dev) (p i : Nat) : Dev :=
  (d.wrs [(F.RING_STATUS_STATE p i, ringActive), (F.RING_STATUS_INDEX p i, 0)]).setRings p fun r =>
    if i = 4 then { r with cringCi := 0, cPhase := true }
    else if i = 5 then { r with fringCi := 0, fPhase := true, fringLost := 0, lostBefore := false }
    else { r with subPi := SMap.erase i r.subPi }

/-- ENABLE of a ring written 1 (R236); a ring whose ENABLE already reads 1 keeps its state (log entry 17). -/
def Dev.ringEnable (d : Dev) (p i : Nat) : Dev :=
  if d.flag (F.RING_CTL_ENABLE p i) then d
  else
    match d.checked .ring (ringDetail p i) [F.RING_STATUS_REASON p i] (F.RING_CTL_ENABLE p i) (d.ringChecks p i) with
    | (true, d) => d.ringStart p i
    | (false, d) => d

/-- Whether a host operation reads descriptors of a ring. -/
def HostOp.fetches (o : HostOp) (p i : Nat) : Bool :=
  o.patron = p && match o.purpose with
    | .desc r _ => decide (r = i)
    | _ => false

/-- A submission ring's descriptors ended by its stop (R238): fetched ones ABORTED with RESULT RESUME, recalled ones with their P,
running ones at their next line boundary; reads that wait to be repeated are not. -/
def Dev.ringDrain (d : Dev) (p i : Nat) : Dev :=
  let mine := fun (x : Desc) => x.patron = p && x.ring = i
  let fetched := d.groups.flatMap (fun kv => kv.2.fetched.filter mine)
  let recalled := d.groups.flatMap (fun kv => kv.2.recalled.filter (fun w => mine w.desc))
  let d : Dev := { d with
    groups := d.groups.map (fun kv =>
      (kv.1, { fetched := kv.2.fetched.filter (fun x => !mine x), recalled := kv.2.recalled.filter (fun w => !mine w.desc) })),
    hostOps := d.hostOps.map (fun o => if o.fetches p i ∧ o.waiting then { o with repeated := true } else o) }
  let d := fetched.foldl (fun d x => d.completeDesc x 0x04 0 0 x.resume) d
  let d := recalled.foldl (fun d w => d.completeDesc w.desc 0x04 0 0 w.p) d
  d.trolleys.foldl (fun d (tw : Nat × Work) => if mine tw.2.desc then d.abortWork tw.1 tw.2 else d) d

/-- A ring stopped: STOPPING, and DISABLED once its descriptors have completed (Table 9.5). -/
def Dev.ringStop (d : Dev) (p i : Nat) : Dev :=
  let d := d.wr (F.RING_STATUS_STATE p i) (if i < 4 then ringStopping else ringDisabled)
  if i < 4 then (d.ringDrain p i).stopCheck p i else d

/-- ENABLE of a ring written 0: checked for CRING and FRING (0x89); a PAUSED ring stops once the safe state ends (Table 9.5). -/
def Dev.ringDisable (d : Dev) (p i : Nat) : Dev :=
  if ¬ d.flag (F.RING_CTL_ENABLE p i) then d
  else
    let busy := (List.range 4).any (fun j => d.ringState p j ≠ ringDisabled)
    let r := if i < 4 then (true, d.wr (F.RING_CTL_ENABLE p i) 0)
      else d.checkedOff .ring (ringDetail p i) [F.RING_STATUS_REASON p i] (F.RING_CTL_ENABLE p i) [(busy, 0x89)]
    match r with
    | (true, d) => if d.ringState p i = ringPaused then d else d.ringStop p i
    | (false, d) => d

/-- RING_ENABLE (R236). -/
def execRingEnable (patron : Fin 4096) (ring : Fin 6) (s : State) : Host.Outcome State Fault Refusal :=
  s.next fun d => d.ringEnable patron ring

/-- RING_DISABLE (R238). -/
def execRingDisable (patron : Fin 4096) (ring : Fin 6) (s : State) : Host.Outcome State Fault Refusal :=
  s.next fun d => d.ringDisable patron ring

/-! ## Bells (R239, R240) -/

/-- A bell-record read issued, or PENDING set where one is outstanding (R240). -/
def Dev.bellRead (d : Dev) (p : Nat) : Dev :=
  if d.hostOps.any (fun o => o.patron = p && o.purpose = .bell) then
    (d.setRings p fun r => { r with pending := true }).count 0x0601 (d.servingGroup p) (some p)
  else d.hostRead (d.patronLink p) p .bell (d.bellAddr p / 64 * 64) 1

/-- A house ring's header read again (R251). -/
def Dev.headerRead (d : Dev) (r : Nat) : Dev :=
  if d.rd (F.HOUSE_RING_STATUS_STATE r) = ringActive ∧ ¬ (d.houseRing r).reading then
    (d.hostRead d.houseLink 0 (.header r) (d.houseBase r) 1).setHouse r fun h => { h with reading := true }
  else d

/-- A BELL that passed the port's checks (R239, R350). -/
def Dev.bellAccepted (d : Dev) (p ring : Nat) : Dev :=
  if 4 ≤ ring then (if p = 0 then d.headerRead (ring - 4) else d)
  else if d.ringState p ring = ringDisabled ∨ d.ringState p ring = ringError then
    d.count 0x0602 (d.servingGroup p) (some p)
  else (d.count 0x0600 (d.servingGroup p) (some p)).bellRead p

/-- BELL (R166, R239, R240, R348): one that fails a check is counted and has no other effect beyond that check's. -/
def execBell (link : Fin 256) (msg : Msg) (s : State) : Host.Outcome State Fault Refusal :=
  .next <|
    let p := msg.patron
    let fail := fun (s : State) => s.withDev fun d => d.count 0x0602 (d.servingGroup p) (some p)
    if ¬ s.dev.linkUp link then s
    else if s.dev.peerPort (link / 4) then s.withDev fun d => d.badMessage link 0
    else if ¬ s.bound link p then
      (fail s).withDev fun d => ((d.wr (F.PATRON_STATUS_LAST_TF p) 1).count 0x0407 (p % 8 / 2) (some p)).raise .patronNotBound
        (Src.link (link / 4) (link % 4))
    else if ¬ s.dev.flag (F.PATRON_STATUS_ACTIVE p) then
      (fail s).withDev fun d => ((d.bump (F.TF_COUNT_COUNT p 0)).wr (F.PATRON_STATUS_LAST_TF p) 2).count 0x0407 (p % 8 / 2) (some p)
    else if msg.reserved || decide (8 ≤ msg.arg) || msg.addr ≠ 0 || msg.tag ≠ 0 then fail s
    else s.withDev fun d => d.bellAccepted p msg.arg

/-! ## The bell record (R232, R240, R241) -/

/-- The line that holds a bell record has come: consumer indices free space, PENDING starts one more read, and every ACTIVE
submission ring's new descriptors are fetched, unless its producer index overruns. -/
def Dev.bellReturn (d : Dev) (p : Nat) (line : LineData) : Dev :=
  let w := line.toNat / 2 ^ (8 * (d.bellAddr p % 64))
  let word := fun (k : Nat) => w / 2 ^ (16 * k) % 65536
  let d : Dev := { d with hostOps := d.hostOps.filter (fun o => ¬ (o.patron = p ∧ o.purpose = .bell)) }
  let again := (d.ringSide p).pending
  let d := d.setRings p fun r =>
    { r with pending := false, cringCi := word 4, fringCi := word 5,
             subPi := (List.range 4).foldl (fun m i => SMap.put 0 m i (word i)) r.subPi }
  let d := (d.pumpCompletions 65536 p).stopChecks p
  let d := if again then d.bellRead p else d
  let d := [3, 2, 1, 0].foldl (fun d i =>
    if d.ringState p i = ringActive ∧ d.ringSize p i - 1 < indexDiff (word i) (d.ringIndex p i) then
      (d.ringFault p i 0x94 (d.ringIndex p i) (d.bellAddr p)).ringToError p i 0x94
    else d) d
  d.fetchMore p

/-- BELL_RECORD_RETURN (R241): the bell-record read of a patron returns its line. -/
def execBellRecordReturn (patron : Fin 4096) (line : LineData) (s : State) : Host.Outcome State Fault Refusal :=
  s.next fun d =>
    if d.hostOps.any (fun o => o.patron = patron && o.purpose = .bell && !o.waiting) then d.bellReturn patron line else d

/-- BELL_REREAD_TIMER (R241): 10 µs have passed while a completion waits for space. -/
def execBellRereadTimer (patron : Fin 4096) (s : State) : Host.Outcome State Fault Refusal :=
  s.next fun d =>
    if (d.ringSide patron).waiting ≠ [] ∧ d.ringState patron 4 = ringActive ∧
        ¬ d.hostOps.any (fun o => o.patron = patron && o.purpose = .bell) then d.bellRead patron
    else d

/-! ## Descriptors (R243, Table 9.7) -/

/-- A submission ring stopped at a descriptor (0x91, 0x92): REFUSED, ERROR with INDEX there, and everything read behind it
discarded. -/
def Dev.descStop (d : Dev) (p i index code addr : Nat) (x : Desc) : Dev :=
  let d : Dev := { d with hostOps := d.hostOps.filter (fun o => !o.fetches p i) }
  (((d.ringFault p i code index addr).completeDesc x 0x11 0 code 0).wr (F.RING_STATUS_INDEX p i) index).ringToError p i code

/-- One fetched descriptor checked (R243): whether its ring goes on. -/
def Dev.descFetched (d : Dev) (p i index : Nat) (line : LineData) : Bool × Dev :=
  let g := d.servingGroup p
  let x : Desc := { serial := d.serial, patron := p, ring := i, index := index, words := line }
  let d := ({ d with serial := d.serial + 1 } : Dev).count 0x0603 g (some p)
  let addr := d.ringSlot p i index
  let next := d.wr (F.RING_STATUS_INDEX p i) (index + 1)
  if d.ringState p i = ringStopping then (true, next.completeDesc x 0x04 0 0 x.resume)
  else if x.field 2 2 ≠ index then (false, d.descStop p i index 0x91 addr { x with words := x.words &&& 0xFF })
  else if x.malformed then (true, (next.ringFault p i 0x90 index addr).completeDesc x 0x11 0 0x90 0)
  else (true, next.setGroup g fun s => { s with fetched := s.fetched ++ [x] })

/-- The descriptors of one read checked in their order. -/
def Dev.descLines (d : Dev) (p i : Nat) : List LineData → Nat → Dev
  | [], _ => d
  | l :: rest, index =>
    match d.descFetched p i (index % 65536) l with
    | (true, d) => d.descLines p i rest (index + 1)
    | (false, d) => d

/-- A descriptor read that failed for good, its ring's oldest: in STOPPING each descriptor completes ABORTED with RESULT 0 (R238);
else DESC_FETCH_FAULT. -/
def Dev.descLost (d : Dev) (p i first lines : Nat) : Dev :=
  let blank := fun (d : Dev) (k : Nat) => ({ serial := d.serial, patron := p, ring := i, index := k, words := 0 } : Desc)
  if d.ringState p i = ringStopping then
    (List.range lines).foldl (fun d j =>
      (d.wr (F.RING_STATUS_INDEX p i) (first + j + 1)).completeDesc (blank d ((first + j) % 65536)) 0x04 0 0 0) d
  else d.descStop p i first 0x92 (d.ringSlot p i first) (blank d first)

/-- Descriptor reads of a ring that have returned or failed, taken in ring order; fuel bounds them. -/
def Dev.pumpReturns (d : Dev) (p i : Nat) : Nat → Dev
  | 0 => d
  | fuel + 1 =>
    match d.hostOps.find? (fun o => o.patron = p && o.purpose = .desc i (d.ringIndex p i) &&
        (o.got.length = o.lines || (o.waiting && o.repeated))) with
    | none => d
    | some o =>
      let first := d.ringIndex p i
      let d : Dev := { d with hostOps := d.hostOps.filter (· ≠ o) }
      let d := if o.got.length = o.lines then
          d.descLines p i ((List.range o.lines).map (fun k => ((o.got.find? (fun g => g.1 = k)).map (·.2.1)).getD 0)) first
        else d.descLost p i first o.lines
      (((d.progress p).pumpNops (d.servingGroup p) 64).fetchMore p).stopCheck p i |>.pumpReturns p i fuel

/-- DESCRIPTOR_RETURN (R243): the read of a ring's descriptors that began at an index returns its lines. -/
def execDescriptorReturn (patron : Fin 4096) (ring : Fin 4) (first : BitVec 16) (lines : List LineData) (s : State) :
    Host.Outcome State Fault Refusal :=
  s.next fun d =>
    ({ d with hostOps := d.hostOps.map (fun o =>
        if o.patron = patron.val ∧ o.purpose = .desc ring first.toNat ∧ ¬ o.waiting ∧ o.lines = lines.length then
          { o with got := lines.mapIdx (fun k l => (k, l, false)) }
        else o) } : Dev).pumpReturns patron ring 16

/-! ## Interrupts (R246) -/

/-- INTERRUPT_HOLDOFF_END (R246): a patron's, or with 4,096 the house's. -/
def execInterruptHoldoffEnd (k : Fin 4097) (s : State) : Host.Outcome State Fault Refusal :=
  s.next fun d =>
    let i := SMap.get (α := IntSide) {} d.ints k
    if i.running then
      let d := d.holdoffEnd k
      if i.causes ≠ 0 ∧ k.val ≠ houseInt then d.count 0x0606 (d.servingGroup k) (some k) else d
    else d

/-! ## House rings (R250, R251) -/

/-- The area of a house ring, header included. -/
def Dev.houseArea (d : Dev) (r : Nat) : Nat × Nat := (d.houseBase r, 64 + d.houseSize r * houseEntryBytes r)

/-- Whether a link exists in the MODE of its port (Table 12.8). -/
def Dev.linkInMode (d : Dev) (p k : Nat) : Bool :=
  match d.rd (F.PORT_CTL_MODE p) with
  | 0 => k = 0
  | 1 => decide (k < 2)
  | 2 => decide (k < 4)
  | _ => false

/-- Whether HOUSE_LINK names an enabled link of the keeper port (R250). -/
def State.houseLinkValid (s : State) : Bool :=
  let p := s.dev.rd F.HOUSE_LINK_PORT
  s.layout.keeperValid && p = s.layout.keeperPort && s.dev.flag (F.PORT_CTL_ENABLE p) &&
    s.dev.linkInMode p (s.dev.rd F.HOUSE_LINK_LINK)

/-- The checks of a house-ring enable (R250). -/
def State.houseChecks (s : State) (r : Nat) : List (Bool × Nat) :=
  let d := s.dev
  let size := d.rd (F.HOUSE_RING_CTL_SIZE r)
  let a := d.houseArea r
  [(decide (d.rd (F.HOUSE_RING_STATUS_STATE r) = ringStopping), 0x88), (decide (size < 4 ∨ 16 < size), 0x82),
   (!s.houseLinkValid, 0x8A),
   ((List.range 4).any (fun j => j ≠ r && d.rd (F.HOUSE_RING_STATUS_STATE j) ≠ ringDisabled &&
      overlap a.1 a.2 (d.houseArea j).1 (d.houseArea j).2), 0x86)]

/-- ENABLE of a house ring written 1 (R250): both indices and LOST 0; waiting statements go out. -/
def State.houseEnable (s : State) (r : Nat) : State :=
  if s.dev.flag (F.HOUSE_RING_CTL_ENABLE r) then s
  else
    match s.dev.checked .ring (0x8000 + r) [F.HOUSE_RING_STATUS_REASON r] (F.HOUSE_RING_CTL_ENABLE r) (s.houseChecks r) with
    | (true, d) =>
      let d := (d.wrs [(F.HOUSE_RING_STATUS_STATE r, ringActive), (F.HOUSE_RING_STATUS_INDEX r, 0)]).setHouse r fun _ => {}
      { s with dev := if r = 0 then d.pumpStatements 4096 else d }
    | (false, d) => { s with dev := d }

/-- ENABLE of a house ring written 0: DISABLED at once, or at the end of the safe state (Table 9.5); held records are dropped. -/
def Dev.houseDisable (d : Dev) (r : Nat) : Dev :=
  if ¬ d.flag (F.HOUSE_RING_CTL_ENABLE r) then d
  else
    let d := d.wr (F.HOUSE_RING_CTL_ENABLE r) 0
    if d.rd (F.HOUSE_RING_STATUS_STATE r) = ringPaused then d
    else
      ((d.wr (F.HOUSE_RING_STATUS_STATE r) ringDisabled).houseDropHeld r).setHouse r fun h => { h with reading := false }

/-- HOUSE_RING_ENABLE (R250). -/
def execHouseRingEnable (ring : Fin 4) (s : State) : Host.Outcome State Fault Refusal := .next (s.houseEnable ring)

/-- HOUSE_HEADER_REREAD (R251): 10 µs have passed while the ring is full. -/
def execHouseHeaderReread (ring : Fin 4) (s : State) : Host.Outcome State Fault Refusal :=
  s.next fun d => if d.houseFull ring then d.headerRead ring else d

/-- A house ring's header has come: its consumer index is taken, held records are written in order, the others dropped (R251). -/
def Dev.headerReturn (d : Dev) (r ci : Nat) : Dev :=
  let d : Dev := { d with hostOps := d.hostOps.filter (fun o => o.purpose ≠ .header r) }
  let d := d.setHouse r fun h => { h with ci := ci, reading := false }
  let d := (d.houseFlush r 16).houseDropHeld r
  if r = 0 then d.pumpStatements 4096 else d

/-- HOUSE_HEADER_RETURN (R251): bytes 2 and 3 of the header are the consumer index. -/
def execHouseHeaderReturn (ring : Fin 4) (header : LineData) (s : State) : Host.Outcome State Fault Refusal :=
  s.next fun d =>
    if d.hostOps.any (fun o => o.purpose = .header ring && !o.waiting) then d.headerReturn ring (header.toNat / 2 ^ 16 % 2 ^ 16)
    else d

/-! ## Host reads and writes that fail (R248) -/

/-- A house ring in ERROR because a write of a record failed (R248). -/
def Dev.houseError (d : Dev) (r : Nat) : Dev :=
  let st := d.rd (F.HOUSE_RING_STATUS_STATE r)
  if st = ringActive ∨ st = ringPaused then
    ((d.wrs [(F.HOUSE_RING_STATUS_STATE r, ringError), (F.HOUSE_RING_STATUS_REASON r, 0x95)]).houseDropHeld r).raise .houseRingLost
      (Src.device) [(4 + r, 3)]
  else d

/-- The index of the record at an address of CRING or FRING (WHERE of Table 9.10): the last one written there. -/
def Dev.recordIndex (d : Dev) (p i addr : Nat) : Nat :=
  let slot := (addr - d.ringBase p i) / ringEntry i
  let last := d.ringIndex p i + 65535
  (last - (last + d.ringSize p i - slot) % d.ringSize p i) % 65536

/-- The running or recalled work of a descriptor: its trolley, where it has one. -/
def Dev.workOf (d : Dev) (serial : Nat) : Option (Option Nat × Work) :=
  match d.trolleys.find? (fun tw => tw.2.desc.serial = serial) with
  | some (t, w) => some (some t, w)
  | none => ((d.groups.flatMap (·.2.recalled)).find? (fun w => w.desc.serial = serial)).map (fun w => (none, w))

/-- A recalled work changed, or ended. -/
def Dev.setRecalled (d : Dev) (w : Work) (w' : Option Work) : Dev :=
  { d with groups := d.groups.map (fun kv =>
      (kv.1, { kv.2 with recalled := kv.2.recalled.flatMap (fun x => if x = w then w'.toList else [x]) })) }

/-- A host write of a descriptor's data or CRC that failed (R248, Table 10.8): HOST_FAULT with 0x97. -/
def Dev.workWriteFailed (d : Dev) (serial tag : Nat) (line : Option Nat) : Dev :=
  match d.workOf serial with
  | none => d
  | some (some t, w) =>
    let w := { w with unanswered := w.unanswered.filter (· ≠ tag) }
    match w.ending, line with
    | some c, some k =>
      let at_ := w.desc.bytesAt k
      d.finishWork t w (if c.status = 0x12 ∧ c.result ≤ at_ then c else { c with status := 0x12, tf := 0, reason := 0x97, result := at_ })
    | some c, none =>
      d.finishWork t w (if c.status = 0x12 then c else { c with status := 0x12, tf := 0, reason := 0x97, result := w.p })
    | none, some k => d.setFault t w k (.host k 0x97)
    | none, none => d.setWork t w
  | some (none, w) =>
    (d.setRecalled w none).completeDesc w.desc 0x12 0 0x97 (w.desc.bytesAt (line.getD w.done))

/-- A host write answered written. -/
def Dev.workWritten (d : Dev) (serial tag : Nat) : Dev :=
  match d.workOf serial with
  | none => d
  | some (some t, w) =>
    let w := { w with unanswered := w.unanswered.filter (· ≠ tag) }
    match w.ending with
    | some c => d.finishWork t w c
    | none => d.setWork t w
  | some (none, w) => d.setRecalled w (some { w with unanswered := w.unanswered.filter (· ≠ tag) })

/-- A host write that has failed (R248). -/
def Dev.writeFailed (d : Dev) (o : HostOp) : Dev :=
  let d : Dev := { d with hostOps := d.hostOps.filter (· ≠ o) }
  let p := o.patron
  match o.purpose with
  | .completion => (d.recordWriteFault p 1 (d.recordIndex p 4 o.addr) o.addr).stopChecks p
  | .faultRecord => (d.recordWriteFault p 2 (d.recordIndex p 5 o.addr) o.addr).stopChecks p
  | .progress => (d.recordWriteFault p 3 0 o.addr).stopChecks p
  | .out serial line => d.workWriteFailed serial o.tag (some line)
  | .crc serial => d.workWriteFailed serial o.tag none
  | .house r => d.houseError r
  | _ => d

/-- A host write answered written. -/
def Dev.writeDone (d : Dev) (o : HostOp) : Dev :=
  let d : Dev := { d with hostOps := d.hostOps.filter (· ≠ o) }
  match o.purpose with
  | .out serial _ => d.workWritten serial o.tag
  | .crc serial => d.workWritten serial o.tag
  | _ => d

/-- A host read that failed twice (R248, Tables 9.7, 10.8). The list of an evacuation is taken by the caller. A header read that
fails leaves its ring full as far as is known: held records are dropped (log entry 18). -/
def Dev.readLost (d : Dev) (o : HostOp) : Dev :=
  let p := o.patron
  let gone : Dev → Dev := fun d => { d with hostOps := d.hostOps.filter (· ≠ o) }
  match o.purpose with
  | .bell => ((gone d).ringFault p 16 0x93 0 o.addr).allToError p 0x93
  | .desc i _ =>
    ({ d with hostOps := d.hostOps.map (fun x => if x = o then { x with waiting := true, repeated := true } else x) } : Dev).pumpReturns
      p i 16
  | .list serial =>
    let d : Dev := { d with hostOps := d.hostOps.filter (fun x => x.purpose ≠ .list serial) }
    match d.workOf serial with
    | some (some t, w) => d.endWork t w 0x12 0 0x96 0
    | _ => d
  | .data serial line =>
    match (gone d).workOf serial with
    | some (some t, w) =>
      match (List.range (w.desc.lines - w.done)).find? (fun j => (w.desc.hostLines (w.done + j)).contains line) with
      | some j => (gone d).setFault t w (w.done + j) (.host (w.done + j) 0x96)
      | none => gone d
    | _ => gone d
  | .header r => ((gone d).setHouse r fun h => { h with reading := false }).houseDropHeld r
  | _ => gone d

/-- A host read that failed once waits 1 µs to be repeated (R248); a descriptor read of a STOPPING ring is not read again
(R238). -/
def Dev.readFailed (d : Dev) (o : HostOp) : Dev :=
  let stopping : Bool := match o.purpose with
    | .desc i _ => decide (d.ringState o.patron i = ringStopping)
    | _ => false
  if o.repeated ∨ stopping then d.readLost o
  else { d with hostOps := d.hostOps.map (fun x => if x = o then { x with waiting := true, got := [] } else x) }

/-- A read issued again under a new tag. -/
def Dev.readIssue (d : Dev) (o : HostOp) : Dev :=
  let t := d.hostTag
  ({ d with hostTag := (t + 1) % 4096,
            hostOps := d.hostOps.map (fun x => if x = o then { x with tag := t, waiting := false, got := [] } else x) } : Dev).send o.link
    { op := 0x20, tag := t, patron := o.patron, arg := o.lines - 1, addr := BitVec.ofNat 64 o.addr }

/-- A read repeated (R248). -/
def Dev.readAgain (d : Dev) (o : HostOp) : Dev :=
  let o' := { o with repeated := true }
  (({ d with hostOps := d.hostOps.map (fun x => if x = o then o' else x) } : Dev).count 0x0607 (d.servingGroup o.patron)
    (some o.patron)).readIssue o'

/-- HOST_READ_RETRY (R248): 1 µs after a read failed, it is repeated once. -/
def execHostReadRetry (tag : Fin 4096) (s : State) : Host.Outcome State Fault Refusal :=
  s.next fun d =>
    match d.hostOps.find? (fun o => decide (o.tag = tag.val) && o.lines ≠ 0 && o.waiting && !o.repeated) with
    | some o => if d.flag F.SAFE_STATUS_ACTIVE then d else d.readAgain o
    | none => d

/-- HOST_READ_TIMEOUT (R248): a read has not been answered within HOST_TIMEOUT. While the safe state holds this is no error
(R249). -/
def execHostReadTimeout (tag : Fin 4096) (s : State) : Host.Outcome State Fault Refusal :=
  s.next fun d =>
    match d.hostOps.find? (fun o => decide (o.tag = tag.val) && o.lines ≠ 0 && !o.waiting && o.got.length ≠ o.lines) with
    | some o => if d.flag F.SAFE_STATUS_ACTIVE then d else d.readFailed o
    | none => d

/-- HOST_WRITE_TIMEOUT (R248): a write has not been answered within HOST_TIMEOUT while its link stays UP. -/
def execHostWriteTimeout (tag : Fin 4096) (s : State) : Host.Outcome State Fault Refusal :=
  s.next fun d =>
    match d.hostOps.find? (fun o => decide (o.tag = tag.val) && o.lines = 0) with
    | some o => if d.linkUp o.link then d.writeFailed o else d
    | none => d

/-! ## Answers of the host (R352, R353) -/

/-- Whether the POISONED status of a line makes its read fail (R248); trolley data and the rest take it. -/
def HostOp.poisonFails (o : HostOp) : Bool :=
  match o.purpose with
  | .bell | .desc .. | .list _ => true
  | _ => false

/-- A read whose lines have all come, handed to its unit. -/
def Dev.readDone (d : Dev) (o : HostOp) : Dev :=
  let line := ((o.got.find? (fun g => g.1 = 0)).map (·.2.1)).getD 0
  match o.purpose with
  | .bell => d.bellReturn o.patron line
  | .desc i _ => d.pumpReturns o.patron i 16
  | .list serial =>
    match d.workOf serial with
    | some (some t, w) =>
      let w := { w with arrived := w.arrived ++ o.got.map (fun g => (o.addr + 64 * g.1, g.2.1, false)) }
      let d := ({ d with hostOps := d.hostOps.filter (· ≠ o) } : Dev).setWork t w
      if d.hostOps.any (fun x => x.purpose = .list serial) then d
      else
        let n := (w.desc.arg1 + 16 * w.desc.arg2 - 1) / 64 - w.desc.arg1 / 64 + 1
        d.listReturn t w (w.desc.entries ((List.range n).map (fun k =>
          ((w.arrived.find? (fun a => a.1 = w.desc.arg1 / 64 * 64 + 64 * k)).map (·.2.1)).getD 0)))
    | _ => { d with hostOps := d.hostOps.filter (· ≠ o) }
  | .data serial a =>
    let d : Dev := { d with hostOps := d.hostOps.filter (· ≠ o) }
    match d.workOf serial with
    | some (some t, w) => d.setWork t { w with arrived := w.arrived ++ o.got.map (fun g => (a, g.2.1, g.2.2)) }
    | _ => d
  | .header r => d.headerReturn r (line.toNat / 2 ^ 16 % 2 ^ 16)
  | _ => d

/-- One line of a read (R352); `evac` says what a complete list of an evacuation does. -/
def Dev.hostData (d : Dev) (link : Nat) (m : Msg) : Option HostOp × Dev :=
  match d.hostOps.find? (fun o => o.link = link && o.tag = m.tag && o.lines ≠ 0 && !o.waiting && decide (m.line < o.lines) &&
      !o.got.any (fun g => g.1 = m.line)) with
  | none => (none, d.count 0x0908 link)
  | some o =>
    let o' := { o with got := o.got ++ [(m.line, m.data, decide (m.status ≠ 0))] }
    let d : Dev := { d with hostOps := d.hostOps.map (fun x => if x = o then o' else x) }
    if o'.got.length < o'.lines then (none, d)
    else if o'.poisonFails && o'.got.any (·.2.2) then (none, d.readFailed o')
    else (some o', d.readDone o')

/-- An RSP of the host (R352, R353): a write is done or has failed; a read has failed; any other tag is a late answer. -/
def Dev.hostRsp (d : Dev) (link : Nat) (m : Msg) : Option HostOp × Dev :=
  match d.hostOps.find? (fun o => o.link = link && o.tag = m.tag && !o.waiting) with
  | none => (none, d.count 0x0908 link)
  | some o =>
    if o.lines ≠ 0 then (some o, d.readFailed o)
    else if m.status = 0 then (none, d.writeDone o) else (none, d.writeFailed o)

end Sys2Proof.Machine
end

