-- ==== Sys2Proof/Machine/Allow.lean ====
section
/-!
DEFINITION. Admission and run-time feasibility (R217 to R227): the checks of a commit, the tokens of every bay, shedding, and miss
windows.
-/

namespace Sys2Proof.Machine

open Sys2Proof

/-! ## Staged settings (R207) -/

/-- The staged settings of a group. -/
def Dev.stagedGroup (d : Dev) (g : Nat) : GroupSet :=
  { guarantee := d.rd (F.GUARANTEE_SLOTS g), ceiling := d.rd (F.CEILING_SLOTS g), wayMask := d.rd (F.GROUP_CACHE_WAY_MASK g),
    occCap := d.rd (F.GROUP_CACHE_OCC_CAP g), share := d.rd (F.GROUP_QUEUE_QUEUE_SHARE g), urgent := d.rd (F.GROUP_QUEUE_URGENT g) }

/-- The staged settings. -/
def Dev.staged (d : Dev) : AllowSet :=
  { period := d.rd F.ALLOW_CTL_PERIOD, designTemp := d.rd F.ALLOW_CTL_DESIGN_TEMP, headroom := d.rd F.ALLOW_CTL_HEADROOM,
    urgent := d.rd F.ALLOW_CTL_URGENT,
    groups := (List.range 256).foldl (fun m g => SMap.put {} m g (d.stagedGroup g)) [] }

/-- The settings of a group among a set. -/
def AllowSet.group (a : AllowSet) (g : Nat) : GroupSet := SMap.get {} a.groups g

/-! ## Capacity (Table 8.3) -/

/-- Twice the capacity S of a bay at admission, in slots per µs; none where its pair is lost. -/
def Dev.admissionS2 (d : Dev) (bay : Nat) : Option Nat :=
  match d.rd (F.TWIN_STATUS_MODE bay) with
  | 3 => none
  | 1 => some (if d.rd (F.TWIN_STATUS_CAUSE bay) = 3 then 1600 else 3200)
  | _ => some 3200

/-- Twice the run-time capacity S of a bay: less under PACE_LOW (R60) or on a shaft below the floor (R61). -/
def Dev.runS2 (d : Dev) (bay : Nat) : Option Nat :=
  match d.rd (F.TWIN_STATUS_MODE bay) with
  | 3 => none
  | 1 => some 1600
  | _ =>
    let z := bay / 8
    let a := if d.flag (F.PACE_ZONE_BELOW_FLOOR z) then d.rd (F.PACE_ZONE_PACE z) else 3200
    let b := if d.flag (F.SHAFT_STATUS_BELOW_FLOOR bay) then d.rd (F.SHAFT_STATUS_BEAT_RATE bay) else 3200
    some (min 3200 (min a b))

/-- A capacity in slots per period of `ns`, from twice its figure per µs. -/
def slotsOf (s2 ns : Nat) : Nat := s2 * ns / 2000

/-- A figure per µs in slots per period, rounded up (R202, R217). -/
def perPeriod (n ns : Nat) : Nat := ceilDiv (n * ns) 1000

/-! ## The A3 need (R126, R127) -/

/-- The admission share of refresh in slots per µs (Table 5.3). -/
def admissionA3 (temp : Nat) : Nat := if temp ≤ 85 then 16 else if temp ≤ 95 then 32 else 64

/-- The run-time A3 need of a bay in slots per µs (R127): the sum of 24,832 ÷ window over the levels it serves, plus 3.125,
rounded up. -/
def Dev.a3Need (d : Dev) : Nat :=
  let levels := (List.range 17).filter (fun l => d.role l = 0 || (d.role l = 1 && d.rd F.SPARE_STATUS_STATE ≠ 0))
  let sum := levels.foldl (fun (x : Nat × Nat) l =>
    let w := atLeastOne (d.rd (F.REFRESH_STATUS_WINDOW l))
    (x.1 * w + 24832 * x.2, x.2 * w)) (0, 1)
  ceilDiv (8 * sum.1 + 25 * sum.2) (8 * sum.2)

/-! ## Admission (R217 to R220) -/

/-- The sum of the per-bay guarantees of the committed groups. -/
def AllowSet.a0Sum (a : AllowSet) : Nat := a.groups.foldl (fun n kv => n + kv.2.t) 0

/-- The reserves of a bay per period in the order of R219: A3, A2, A7, A4. -/
def AllowSet.reserves (a : AllowSet) (cap corr : Nat) : List (Nat × Nat) :=
  let ns := periodNs a.period
  [(3, perPeriod (admissionA3 a.designTemp) ns), (2, ceilDiv (cap * a.urgent) 100), (7, perPeriod 16 ns),
   (4, perPeriod (8 + corr) ns)]

/-- The class of the first reserve that no longer fits; 0 where they all fit. -/
def firstUnfit (cap : Nat) : List (Nat × Nat) → Nat → Nat
  | [], _ => 0
  | (c, n) :: rest, used => if cap < used + n then c else firstUnfit cap rest (used + n)

/-- Whether a bay fails R217, and the class that names it. -/
def Dev.bayUnfit (d : Dev) (a : AllowSet) (bay : Nat) : Option Nat :=
  match d.admissionS2 bay with
  | none => none
  | some s2 =>
    let cap := slotsOf s2 (periodNs a.period)
    let rs := a.reserves cap (atLeastOne (d.rd F.INTEG_CTL_CORR_RESERVE))
    let all := rs.foldl (fun n r => n + r.2) (ceilDiv (cap * a.headroom) 100)
    if a.a0Sum + all ≤ cap then none else some (firstUnfit cap rs 0)

/-- The symbol rate of a step in units of 0.3125 GBd (Table 15.3). -/
def stepRate (step : Nat) : Nat :=
  match step with
  | 0 => 5 | 1 => 10 | 2 => 20 | 3 => 40 | 4 => 60 | _ => 80

/-- The width of a port's links in its mode. -/
def modeWidth (mode : Nat) : Nat :=
  match mode with
  | 0 => 16 | 1 => 8 | _ => 4

/-- The port capacity L of a link in line messages per µs per direction (R218): 0 where it is not UP. -/
def Dev.linkCapacity (d : Dev) (p k : Nat) : Nat :=
  if d.rd (F.PORT_LINK_STATE p k) ≠ 7 ∨ ¬ d.flag (F.PORT_CTL_ENABLE p) ∨ ¬ d.linkInMode p k then 0
  else
    let w := modeWidth (d.rd (F.PORT_CTL_MODE p)) / 2 ^ d.rd (F.PORT_LINK_WIDTH p k)
    3 * w * stepRate (d.rd (F.PORT_LINK_STEP p k)) * 3125 * 31 * 4095 / (10 * 2048 * 32 * 4096)

/-- The links of a set of patrons, each once. -/
def Dev.boundLinks (d : Dev) (member : Nat → Bool) : List (Nat × Nat) :=
  (List.range 64).flatMap (fun p =>
    let mask := (d.binding.filter (fun kv => kv.1 / 4096 = p && member (kv.1 % 4096))).foldl (fun m kv => m ||| kv.2) 0
    ((List.range 4).filter (fun k => mask.testBit k)).map (fun k => (p, k)))

/-- Whether a group fails the port-capacity check (R218), counted with one more patron. -/
def Dev.portShort (d : Dev) (a : AllowSet) (g : Nat) (extra : Option Nat) : Bool :=
  let links := d.boundLinks (fun p => extra = some p || (d.flag (F.PATRON_CTL_ENABLE p) && d.rd (F.PATRON_GROUP_GROUP p) = g))
  let l := links.foldl (fun n x => n + d.linkCapacity x.1 x.2) 0
  decide (l * periodNs a.period < (a.group g).guarantee * 1000)

/-- The groups that have an enabled patron, ascending. -/
def Dev.enabledGroups (d : Dev) : List Nat :=
  let on := ((List.range 4096).filter (fun p => d.flag (F.PATRON_CTL_ENABLE p))).map (fun p => d.rd (F.PATRON_GROUP_GROUP p))
  (List.range 256).filter (fun g => on.contains g)

/-- The checks of Table 8.5: each with its code, and the bay, class and group it names. -/
def Dev.commitChecks (d : Dev) (a : AllowSet) : List (Bool × Nat × Nat × Nat × Nat) :=
  let low := (List.range 256).find? (fun g => decide ((a.group g).ceiling < (a.group g).guarantee))
  let bad := (List.range 64).find? (fun b => (d.bayUnfit a b).isSome)
  let short := d.enabledGroups.find? (fun g => d.portShort a g none)
  [(decide (4 < a.period), 0x68, 0, 0, 0), (decide (a.designTemp < 45 ∨ 105 < a.designTemp), 0x64, 0, 0, 0),
   (decide (50 < a.headroom ∨ 20 < a.urgent), 0x67, 0, 0, 0), (low.isSome, 0x62, 0, 0, low.getD 0),
   (decide (224 < a.groups.foldl (fun n kv => n + kv.2.share) 0), 0x65, 0, 0, 0),
   (bad.isSome, 0x61, bad.getD 0, (bad.bind (d.bayUnfit a)).getD 0, 0), (short.isSome, 0x63, 0, 0, short.getD 0)]

/-- ALLOW_REASON written (Table 8.11). -/
def Dev.allowReason (d : Dev) (code bay cls g : Nat) : Dev :=
  d.wrs [(F.ALLOW_REASON_CODE, code), (F.ALLOW_REASON_BAY, bay), (F.ALLOW_REASON_CLASS, cls), (F.ALLOW_REASON_GROUP, g)]

/-- COMMIT written 1 (R207, R219): refused with a reason, or accepted, to take effect at a boundary; a feasibility check starts
(R221). One written while COMMIT reads 1 has no effect. -/
def Dev.allowCommit (d : Dev) : Dev :=
  if d.flag F.ALLOW_CTL_COMMIT then d
  else
    let a := d.staged
    let common := (d.commonChecks .commit).map (fun c => (c.1, c.2, 0, 0, 0))
    match (common ++ d.commitChecks a).find? (·.1) with
    | some (_, code, bay, cls, g) =>
      ((d.reason .commit (if code = 0x61 then bay else g) code []).allowReason code bay cls g).wr F.ALLOW_CTL_COMMIT 0
    | none =>
      let d := ((d.reason .commit 0 0 []).allowReason 0 0 0 0).wr F.ALLOW_CTL_COMMIT 1
      { d with commit := some (a, d.time), recheck := true }

/-- ALLOW_COMMIT (R219). -/
def execAllowCommit (s : State) : Host.Outcome State Fault Refusal := s.next Dev.allowCommit

/-- The admission of a patron to its group (R220): the code that refuses it, 0 where none does. -/
def Dev.admission (d : Dev) (p : Nat) : Nat :=
  let g := d.rd (F.PATRON_GROUP_GROUP p)
  if (d.group g).ceiling = 0 then 0x66 else if d.portShort d.inForce g (some p) then 0x63 else 0

/-! ## Run-time feasibility (R221 to R225) -/

/-- Whether a repair-critical job runs on a shaft (R222): a sparing, or an open withdrawal. -/
def Dev.repairCritical (d : Dev) (shaft : Nat) : Bool :=
  d.rd F.SPARE_STATUS_STATE ≠ 0 || (List.range 17).any (fun l => (d.shelf (shelfKey shaft l)).wdOpen)

/-- The groups with a FIRM patron enabled (R223). -/
def Dev.firmGroups (d : Dev) : List Nat :=
  ((List.range 4096).filter (fun p => d.flag (F.PATRON_CTL_ENABLE p) && d.flag (F.PATRON_CTL_FIRM p))).map
    (fun p => d.rd (F.PATRON_GROUP_GROUP p))

/-- The scaled A0 tokens of Step 4 (R224): none where even zero tokens leave an excess. -/
def scaleA0 (ts : List (Nat × Nat)) (firm : List Nat) (x : Nat) : Option (List (Nat × Nat)) :=
  let n := (ts.filter (fun gt => !firm.contains gt.1)).foldl (fun n gt => n + gt.2) 0
  let f := (ts.filter (fun gt => firm.contains gt.1)).foldl (fun n gt => n + gt.2) 0
  if x ≤ n then some (ts.map (fun gt => if firm.contains gt.1 then gt else (gt.1, gt.2 * (n - x) / n)))
  else if x ≤ n + f then some (ts.map (fun gt => if firm.contains gt.1 then (gt.1, gt.2 * (f - (x - n)) / f) else (gt.1, 0)))
  else none

/-- The tokens of a bay under a set of settings (R222 to R224). -/
def Dev.bayPlan (d : Dev) (a : AllowSet) (firm : List Nat) (need3 bay : Nat) : BayTokens :=
  let ns := periodNs a.period
  let s2 := (d.runS2 bay).getD 0
  let cap := slotsOf s2 ns
  let a3 := max 1 (perPeriod need3 ns)
  let a7 := perPeriod 16 ns
  let u := ceilDiv (s2 * ns * a.urgent) 200000
  let corr := perPeriod (atLeastOne (d.rd F.INTEG_CTL_CORR_RESERVE)) ns
  let behind := d.flag (F.SHELF_READ_STATUS_BEHIND bay)
  let crit := d.repairCritical bay
  let catchUp := perPeriod 8 ns
  let floor := if crit then perPeriod (min d.loose.floor d.loose.crit) ns else 0
  let ts := (a.groups.filter (fun kv => kv.2.t ≠ 0)).map (fun kv => (kv.1, kv.2.t))
  let fixed := a3 + a7 + u + corr + (if behind then catchUp else 0) + floor
  let need := fixed + a.a0Sum
  if (d.runS2 bay).isNone then { cap := 0, step := 0, a3 := need3, a2 := 0, a5 := 0, a6 := 0, deferred := true }
  else if need ≤ cap then
    let rem := cap - need
    let rem := rem - (if behind then 0 else min catchUp rem)
    let want := perPeriod (if crit then d.loose.crit else d.loose.reshelve) ns - floor
    let a5 := min want rem
    let a6 := min (perPeriod d.loose.spot ns) (rem - a5)
    { cap := s2 / 2, step := 0, a3 := need3, a2 := u, a5 := floor + a5, a6 := a6 }
  else
    match scaleA0 ts firm (need - cap) with
    | some ts' =>
      { cap := s2 / 2, step := 4, a3 := need3, a2 := u, a5 := floor, a6 := 0, deferred := !behind, scaled := ts' }
    | none =>
      { cap := s2 / 2, step := 5, a3 := need3, a2 := cap - (a3 + a7 + corr + floor), a5 := floor, a6 := 0, deferred := !behind,
        scaled := ts.map (fun gt => (gt.1, 0)) }

/-- The tokens of every bay (R222): of the pending commit where there is one. -/
def Dev.plan (d : Dev) : SMap BayTokens :=
  let a := (d.commit.map (·.1)).getD d.inForce
  let firm := d.firmGroups
  let need3 := d.a3Need
  (List.range 64).foldl (fun m b => SMap.put {} m b (d.bayPlan a firm need3 b)) []

/-- FEASIBILITY_CHECK_DONE (R221): the check that a trigger started ends; its result takes effect at a later boundary. -/
def execFeasibilityCheckDone (s : State) : Host.Outcome State Fault Refusal :=
  s.next fun d =>
    if ¬ d.recheck then d
    else ({ d with recheck := false, nextTokens := some (d.time, d.plan) } : Dev).bump F.ALLOW_STATUS_RECHECKS

/-- A3_RECOMPUTE (R127): a need that differs from the one in force starts a feasibility check (R221). -/
def execA3Recompute (s : State) : Host.Outcome State Fault Refusal :=
  s.next fun d =>
    if (List.range 64).any (fun b => (d.bayTokens b).a3 ≠ d.a3Need) then { d with recheck := true } else d

/-- IN_FORCE of the groups (Table 8.18), lowest over the bays that are not lost. -/
def Dev.showInForce (d : Dev) : Dev :=
  let bays := (List.range 64).filter (fun b => (d.runS2 b).isSome)
  (List.range 256).foldl (fun d g =>
    let t := (d.group g).t
    let low := bays.foldl (fun n b => min n (d.a0Tokens b g)) t
    d.wrs [(F.GROUP_IN_FORCE_A0_MIN g, low), (F.GROUP_IN_FORCE_SCALED g, (decide (low < t)).toNat)]) d

/-- New tokens loaded by every bay, with what the registers and the faults show of them (R223, Tables 8.10, 8.18, 8.19). -/
def Dev.loadTokens (d : Dev) (m : SMap BayTokens) : Dev :=
  let old := d.tokens
  let d := { d with tokens := m }
  let d := (List.range 64).foldl (fun d b =>
    let t := d.bayTokens b
    let was := (SMap.get (α := BayTokens) {} old b).step
    let d := d.wrs [(F.ALLOW_BAY_CAP b, t.cap), (F.ALLOW_BAY_STEP b, t.step), (F.ALLOW_BAY_A3 b, min 255 t.a3)]
    let d := d.raiseIf (t.step ≠ 0 && t.step ≠ was) .shedding (Src.bay b) [(t.step, 4)]
    d.raiseIf (t.step = 5 && was ≠ 5) .reserveInfeasible (Src.bay b)) d
  let shed := (List.range 64).filter (fun b => (d.bayTokens b).step ≠ 0)
  (d.wrs [(F.ALLOW_STATUS_SHEDDING_BAYS, shed.length),
    (F.ALLOW_STATUS_INFEASIBLE, (shed.any (fun b => (d.bayTokens b).step = 5)).toNat)]).showInForce

/-! ## Miss windows (R227) -/

/-- MISS_WINDOW (R227): a group's window closes at its aligned end, and counting starts again. -/
def execMissWindow (group : Fin 256) (s : State) : Host.Outcome State Fault Refusal :=
  s.next fun d => { d with missCount := SMap.put 0 d.missCount group 0 }

end Sys2Proof.Machine
end

