-- ==== Sys2Proof/Machine/Patrons.lean ====
section
/-!
DEFINITION. Patrons (R162 to R169): binding maps, enabling and disabling.
-/

namespace Sys2Proof.Machine

open Sys2Proof

/-! ## Fault injection guard (R357) -/

/-- Whether a patron is bound to a link of a port; on a peer link every enabled patron counts as bound (R357). -/
def State.boundFor (s : State) (port link p : Nat) : Bool := s.dev.peerPort port || s.bound (linkNo port link) p

/-- Whether an enabled patron bound to a link lacks TEST (Table 13.10). -/
def State.nonTest (s : State) (port link : Nat) : Bool :=
  (List.range 4096).any (fun p =>
    s.dev.flag (F.PATRON_CTL_ENABLE p) && !s.dev.flag (F.PATRON_CTL_TEST p) && s.boundFor port link p)

/-- Injection stopped at every port where a change has left a patron without TEST bound to the injected link (R357). -/
def State.injectGuard (s : State) : State :=
  (List.range 64).foldl (fun s port =>
    if s.dev.flag (F.INJ_STATUS_RUNNING port) ∧ s.nonTest port (s.dev.rd (F.INJ_CTL_LINK port)) then
      s.withDev fun d => (d.wrs [(F.INJ_CTL_ENABLE port, 0), (F.INJ_STATUS_UNLOCKED port, 0), (F.INJ_STATUS_RUNNING port, 0),
        (F.INJ_STATUS_STOPPED port, 1)]).raise .injectStopped (Src.port port)
    else s) s

/-! ## Binding (R165, Table 7.9a) -/

/-- A port on this variant (R3): the HJ-1664S-W has ports 0 to 31. -/
def State.portExists (s : State) (port : Nat) : Bool := !(s.fuses.variantS && decide (32 ≤ port))

/-- The bits of the links that exist in a port's MODE. -/
def Dev.modeLinks (d : Dev) (port : Nat) : Nat :=
  (List.range 4).foldl (fun n k => if d.linkInMode port k then n + 2 ^ k else n) 0

/-- The binding map of a port changed for one patron. -/
def Dev.setBinding (d : Dev) (port p links : Nat) : Dev := { d with binding := SMap.put 0 d.binding (port * 4096 + p) links }

/-- A write of PORT[p].BIND (R165). -/
def State.bindWrite (s : State) (port value : Nat) : State :=
  if ¬ s.portExists port then s
  else
    let p := value % 4096
    let s := s.withDev fun d => d.wr (F.PORT_BIND_PATRON port) p
    if ¬ value.testBit 31 ∨ ¬ s.patronExists p ∨ (p = 0 ∧ s.layout.locked ∧ s.layout.keeperPort ≠ port) then s
    else (s.withDev fun d => d.setBinding port p (value / 2 ^ 12 % 16 &&& d.modeLinks port)).injectGuard

/-- PORT_BIND (R165). -/
def execPortBind (port : Fin 64) (value : Word) (s : State) : Host.Outcome State Fault Refusal :=
  .next (s.bindWrite port value.toNat)

/-! ## Enabling (R164, R167, R493) -/

/-- Whether HOST_LINK of a patron is not an enabled link bound to it (Table 7.9, 0x44). -/
def State.hostLinkBad (s : State) (p : Nat) : Bool :=
  let d := s.dev
  let port := d.rd (F.PATRON_HOST_LINK_PORT p)
  let k := d.rd (F.PATRON_HOST_LINK_LINK p)
  !d.flag (F.PATRON_HOST_LINK_VALID p) || !d.flag (F.PORT_CTL_ENABLE port) || !d.linkInMode port k ||
    !(SMap.get 0 d.binding (port * 4096 + p)).testBit k ||
    (p = 0 && !(s.layout.keeperValid && s.layout.keeperPort = port))

/-- The checks of a patron enable, in their order (R493, R305, Table 7.9). -/
def State.patronChecks (s : State) (p : Nat) : List (Bool × Nat) :=
  let d := s.dev
  [(decide (2 ≤ d.rd F.FOOT_TAP_STATUS_SCOPE), 0x0D), (d.flag F.EVAC_STATUS_EVACUATING, 0x0A), (!s.patronExists p, 0x41),
   (!s.layout.locked, 0x46), (d.flag (F.PATRON_STATUS_DISABLING p), 0x45),
   (!(s.inReserve (d.rootOf p) && decide (d.rootOf p + 2048 ≤ dpaEnd)), 0x42), (s.hostLinkBad p, 0x44),
   (d.flag (F.PATRON_CTL_SEALED p) && !d.flag (F.PATRON_STATUS_KEY_LOADED p), 0x43),
   (decide (d.admission p ≠ 0), d.admission p)]

/-- A patron noted as enabled in this statement interval, with a partial record (R471, Table 19.7). -/
def Dev.stmtNote (d : Dev) (p : Nat) : Dev :=
  { d with stmt.enabled := if d.stmt.enabled.contains p then d.stmt.enabled else d.stmt.enabled ++ [p],
           stmt.partly := if d.stmt.partly.contains p then d.stmt.partly else d.stmt.partly ++ [p] }

/-- A feasibility check started where the FIRM patrons may have changed (R221). -/
def Dev.firmChanged (d : Dev) (p : Nat) : Dev := if d.flag (F.PATRON_CTL_FIRM p) then { d with recheck := true } else d

/-- ENABLE of a patron written 1 (R167). A patron absent on this variant has no context to change: only DEV_REASON tells (R3). -/
def State.patronEnable (s : State) (p : Nat) : State :=
  if ¬ s.patronExists p then
    let code := firstCode (s.dev.commonChecks .patron ++ s.patronChecks p)
    s.withDev fun d => d.reason .patron p code []
  else if s.dev.flag (F.PATRON_CTL_ENABLE p) then s
  else
    match s.dev.checked .patron p [F.PATRON_REASON_CODE p] (F.PATRON_CTL_ENABLE p) (s.patronChecks p) with
    | (true, d) =>
      ({ s with dev := (d.wr (F.PATRON_STATUS_ACTIVE p) 1).stmtNote p |>.firmChanged p } : State).injectGuard
    | (false, d) =>
      let code := d.rd F.DEV_REASON_CODE
      { s with dev := if code = 0x63 ∨ code = 0x66 then d.allowReason code 0 0 (d.rd (F.PATRON_GROUP_GROUP p)) else d }

/-- PATRON_ENABLE (R167). -/
def execPatronEnable (patron : Fin 4096) (s : State) : Host.Outcome State Fault Refusal := .next (s.patronEnable patron)

/-! ## Disabling (R168, R169, Table 7.10) -/

/-- ENABLE of a patron written 0: refused while one of its rings is enabled (0x47); else Step 1 of Table 7.10. -/
def Dev.patronDisable (d : Dev) (p : Nat) : Dev :=
  if ¬ d.flag (F.PATRON_CTL_ENABLE p) then d
  else
    let busy := (List.range 6).any (fun i => d.ringState p i ≠ ringDisabled)
    match d.checkedOff .patron p [F.PATRON_REASON_CODE p] (F.PATRON_CTL_ENABLE p) [(busy, 0x47)] with
    | (true, d) =>
      ((d.wrs [(F.PATRON_STATUS_ACTIVE p, 0), (F.PATRON_STATUS_DISABLING p, 1)]).stmtNote p).firmChanged p
    | (false, d) => d

/-- PATRON_DISABLE (R168). -/
def execPatronDisable (patron : Fin 4096) (s : State) : Host.Outcome State Fault Refusal := s.next fun d => d.patronDisable patron

/-- Whether a request of a patron past its port check has not completed (Table 7.10, Step 3). -/
def Dev.requestsOf (d : Dev) (p : Nat) : Bool :=
  d.waiting.any (fun q => q.msg.patron = p) || d.fences.any (fun f => f.msg.patron = p)

/-- Step 5 of Table 7.10: the patron's index entries dropped, its keys zeroed, DISABLING 0. -/
def Dev.disabled (d : Dev) (p : Nat) : Dev :=
  ({ d with index := d.index.map (fun kv => (kv.1, kv.2.filter (fun e => e.patron ≠ p))),
            vault := SMap.erase p d.vault, nextKeys := SMap.erase p d.nextKeys,
            disableFlush := if d.disableFlush.map (·.1) = some p then none else d.disableFlush } : Dev).wrs
    [(F.PATRON_STATUS_KEY_LOADED p, 0), (F.PATRON_STATUS_NEXT_KEY_LOADED p, 0),
     (F.SEAL_STATUS_NEXT_FREE, 16 - (SMap.erase p d.nextKeys).length), (F.PATRON_STATUS_DISABLING p, 0)]

/-- The flush of Step 4 for a patron's group, with INVALIDATE in scope GROUP; it reports in RR_FLUSH_STATUS as any flush. -/
def State.disableFlushStart (s : State) (p : Nat) : State :=
  (s.withDev fun d => { d with disableFlush := some (p, true) }).flush
    { invalidate := true, scope := 2, group := s.dev.rd (F.PATRON_GROUP_GROUP p) }

/-- Steps 3 to 5 of Table 7.10 as far as they can go: an unsealed patron ends once its requests have completed; a sealed one after
its flush, which waits for any other and is started again after the safe state (R169). -/
def State.disableStep (s : State) (p : Nat) : State :=
  if ¬ s.dev.flag (F.PATRON_STATUS_DISABLING p) ∨ s.dev.requestsOf p then s
  else if ¬ s.dev.flag (F.PATRON_CTL_SEALED p) then s.withDev fun d => d.disabled p
  else
    let finish := fun (s : State) =>
      if s.dev.disableFlush = some (p, true) ∧ ¬ s.dev.flushing then s.withDev fun d => d.disabled p else s
    match s.dev.disableFlush with
    | some (q, true) => if q = p then finish s else s
    | some (q, false) =>
      if q ≠ p ∨ s.dev.flag F.SAFE_STATUS_ACTIVE ∨ s.dev.flushing then s else finish (s.disableFlushStart p)
    | none =>
      if s.dev.flushing then s
      else if s.dev.flag F.SAFE_STATUS_ACTIVE then s.withDev fun d => { d with disableFlush := some (p, false) }
      else finish (s.disableFlushStart p)

/-- PATRON_DISABLE_COMPLETE (R168). -/
def execPatronDisableComplete (patron : Fin 4096) (s : State) : Host.Outcome State Fault Refusal := .next (s.disableStep patron)

end Sys2Proof.Machine
end

