-- ==== Sys2Proof/Machine/Cards.lean ====
section
/-!
DEFINITION. Catalogue commands (R175, R182, R186, R187) and the propagated card writes of a collection (R372).
-/

namespace Sys2Proof.Machine

open Sys2Proof

/-! ## One card reached through a patron's catalogue -/

/-- The leaves a card counts for (R182): 256 for a volume. -/
def cardLeaves (c : Card) : Nat :=
  let st := cardState c
  if st = 9 ∨ st = 3 ∨ st = 4 ∨ st = 5 ∨ st = 6 then (if cardVolume c then 256 else 1) else 0

/-- LEAVES after a host change of a card (R182). -/
def Dev.leavesChanged (d : Dev) (p : Nat) (old new : Card) : Dev :=
  let n := d.rd (F.PATRON_LEAVES_COUNT p)
  d.wr (F.PATRON_LEAVES_COUNT p) (min (n + cardLeaves new - cardLeaves old) (2 ^ 32 - 1))

/-- Whether a host change of a card is refused (R175, R274): it is or would become MATERIALISING or RESHELVING, or a rekey record is
open on it. -/
def Dev.cardBusy (d : Dev) (cardDpa : Nat) (old new : Card) : Bool :=
  [6, 9].contains (cardState old) || [6, 9].contains (cardState new) || d.rekeys.any (fun r => r.cardDpa = cardDpa)

/-- A host access to the card a patron address reaches at a level (R186): RESULT of Table 7.19 and the card found, with `new` written
where `expect`, if any, is found; none where a line of the walk cannot be read yet. -/
def State.cardOp (s : State) (p level pa : Nat) (new : Option (Card × Option Card)) : Option (Nat × Option Card) × State :=
  if ¬ s.patronExists p then (some (6, none), s)
  else
    let w := houseWork p
    match s.walkRoot w pa level cleanEnv with
    | (.wait _, s) => (none, s)
    | (.fault 6 _ _ c, s) => (some (4, some c), s)
    | (.fault 7 _ _ _, s) => (some (5, none), s)
    | (.fault _ _ _ _, s) => (some (1, none), s)
    | (.card c cd lv, s) =>
      if lv < level then (some (1, none), s)
      else
        match new with
        | none => (some (0, some c), s)
        | some (n, expect) =>
          if s.malformed p level n then (some (4, some c), s)
          else if s.dev.cardBusy cd c n then (some (3, some c), s)
          else if expect.isSome ∧ expect ≠ some c then (some (2, some c), s)
          else
            match s.swapCard w cd c n cleanEnv with
            | (.done, s) => (some (0, some c), s.withDev fun d => d.leavesChanged p c n)
            | (.mismatch f, s) => (some (2, some f), s)
            | (.poisoned, s) => (some (5, none), s)
            | (.wait _, s) => (none, s)

/-! ## Propagation (R371, R372) -/

/-- The card a member other than the holder is given (R372). -/
def remoteCard (new : Card) (holder : Nat) : Card :=
  BitVec.ofNat 64 (7 + cardField new 4 5 * 2 ^ 4 + holder % 64 * 2 ^ 38)

/-- The card a member is given by a propagated write. -/
def CardWrite.cardFor (w : CardWrite) (m : Nat) : Card :=
  match w.holder with
  | none => w.new
  | some h => if h = m then w.new else remoteCard w.new h

/-- A card write noted in the journal of the last 4,096, with its sequence as the last one applied. -/
def Dev.journalPut (d : Dev) (w : CardWrite) : Dev :=
  let l := d.journal ++ [w]
  ({ d with journal := l.drop (l.length - 4096) } : Dev).wr F.COLL_CAT_SEQ_SEQ w.seq

/-- The members of the map that are not LOST, ascending, without this device. -/
def State.others (s : State) : List Nat :=
  (List.range 64).filter (fun m => m ≠ s.fuses.position && s.dev.inMap F.COLL_MEMBERS_MAP m && !s.dev.inMap F.COLL_LOST_MAP m)

/-- A card write sent to a member (Table 14.2a). -/
def State.sendCard (s : State) (m : Nat) (w : CardWrite) (expect : Option Card) : State :=
  s.sendPeer m { op := 0x46, arg := (w.level - 1) + 4 * expect.isSome.toNat, patron := w.patron, tag := w.seq,
                 addr := BitVec.ofNat 64 w.pa, value := w.cardFor m, cmp := expect.getD 0 }

/-- The write a command propagates. -/
def CatCmd.write (c : CatCmd) : CardWrite :=
  { seq := c.seq, patron := c.patron, level := c.level, pa := c.pa, new := c.new, holder := c.holder }

/-- What a CAS expects. -/
def CatCmd.expected (c : CatCmd) : Option Card := if c.op = 2 then some c.expect else none

/-- The write on the members other than the holder (R372, step 2), this device's own among them unless it is the holder. -/
def State.spreadOthers (s : State) (c : CatCmd) : CatCmd × State :=
  let w := c.write
  let s := s.withDev fun d => (d.journalPut w).count 0x0114 0
  let s := if c.holder = none ∨ c.holder = some s.fuses.position then s
    else (s.cardOp c.patron c.level c.pa (some (w.cardFor s.fuses.position, none))).2
  let tell := s.others.filter (fun m => c.holder ≠ some m)
  ({ c with phase := 2, waits := tell }, tell.foldl (fun s m => s.sendCard m w (if c.holder = none then c.expected else none)) s)

/-! ## CAT_CMD -/

/-- CAT_OLD. -/
def Dev.showOld (d : Dev) (c : Option Card) : Dev :=
  match c with
  | none => d
  | some c => d.wrs [(F.CAT_OLD_VALUE 0, c.toNat % 2 ^ 32), (F.CAT_OLD_VALUE 1, c.toNat / 2 ^ 32)]

/-- A command ended with its RESULT. -/
def Dev.catEnd (d : Dev) (result : Nat) : Dev :=
  ({ d with cat := none } : Dev).wrs [(F.CAT_STATUS_BUSY, 0), (F.CAT_STATUS_RESULT, result)]

/-- The command in progress taken as far as it can go. -/
def State.catStep (s : State) : State :=
  match s.dev.cat with
  | none => s
  | some c =>
    if c.op = 3 then s
    else if c.phase = 0 then
      let away := c.spread && c.holder.isSome && c.holder ≠ some s.fuses.position
      if away && s.others.contains (c.holder.getD 0) then
        let s := s.withDev fun d => { d with cat := some { c with phase := 1, waits := c.holder.toList } }
        s.sendCard (c.holder.getD 0) c.write c.expected
      else
        match (if away then (some (0, none), s) else s.cardOp c.patron c.level c.pa (if c.op = 0 then none else some (c.new, c.expected))) with
        | (none, s) => s
        | (some (r, old), s) =>
          let s := s.withDev fun d => d.showOld old
          if r ≠ 0 ∨ ¬ c.spread then s.withDev fun d => d.catEnd r
          else
            let (c, s) := s.spreadOthers c
            if c.waits = [] then s.withDev fun d => d.catEnd 0 else s.withDev fun d => { d with cat := some c }
    else s

/-- Whether this device propagates catalogue commands (R372). -/
def Dev.propagates (d : Dev) : Bool := d.rd F.COLL_STATUS_STATE = 3 && d.flag F.COLL_CAT_PROPAGATE

/-- A 64-bit value held in two words. -/
def Dev.pair (d : Dev) (f : Nat → Field) : Nat := d.rd (f 0) + 2 ^ 32 * d.rd (f 1)

/-- The requests that had finished translation, by serial number and address: what a fence waits for (R187). -/
def Dev.translated (d : Dev) (p : Option Nat) : List (Nat × Nat) :=
  let mine := fun (q : Req) => p = none || p = some q.msg.patron
  (((d.held.filter (fun h => h.card.isSome)).map (·.req) ++ d.forwards.map (·.req)).filter mine).map
    (fun q => (q.serial, q.msg.addr.toNat))

/-- GO of CAT_CMD (R186): no effect while BUSY. -/
def State.catGo (s : State) (op patron level : Nat) (all : Bool) : State :=
  if s.dev.flag F.CAT_STATUS_BUSY then s
  else
    let s := s.withDev fun d => d.wrs [(F.CAT_CMD_PATRON, patron), (F.CAT_CMD_LEVEL, level), (F.CAT_CMD_OP, op),
      (F.CAT_CMD_FENCE_ALL, all.toNat), (F.CAT_STATUS_BUSY, 1)]
    let d := s.dev
    let new : Card := BitVec.ofNat 64 (d.pair F.CAT_NEW_VALUE)
    let spread := d.propagates && (op = 1 || op = 2)
    let c : CatCmd :=
      { op := op, patron := patron, level := level + 1, pa := d.pair F.CAT_ADDR_VALUE % 2 ^ 48, new := new,
        expect := BitVec.ofNat 64 (d.pair F.CAT_EXPECT_VALUE),
        fence := if op = 3 then d.translated (if all then none else some patron) else [],
        spread := spread, holder := if spread && decide (2 ≤ cardState new) then some (d.rd F.COLL_CAT_HOLDER) else none,
        seq := d.rd F.COLL_CAT_SEQ_SEQ + 1 }
    if op = 3 ∧ ¬ all ∧ ¬ s.patronExists patron then s.withDev fun d => d.catEnd 6
    else (s.withDev fun d => { d with cat := some c }).catStep

/-- CAT_READ (R186). -/
def execCatRead (patron : Fin 4096) (level : Fin 4) (s : State) : Host.Outcome State Fault Refusal :=
  .next (s.catGo 0 patron level false)

/-- CAT_WRITE (R175, R182, R186, R372). -/
def execCatWrite (patron : Fin 4096) (level : Fin 4) (s : State) : Host.Outcome State Fault Refusal :=
  .next (s.catGo 1 patron level false)

/-- CAT_CAS (R175, R182, R186, R372). -/
def execCatCas (patron : Fin 4096) (level : Fin 4) (s : State) : Host.Outcome State Fault Refusal :=
  .next (s.catGo 2 patron level false)

/-- CAT_FENCE (R187). -/
def execCatFence (patron : Fin 4096) (all : Bool) (s : State) : Host.Outcome State Fault Refusal :=
  .next (s.catGo 3 patron 0 all)

/-- CAT_FENCE_COMPLETE (R187): every request the fence waits for has completed. -/
def execCatFenceComplete (s : State) : Host.Outcome State Fault Refusal :=
  s.next fun d =>
    match d.cat with
    | some c => if c.op = 3 ∧ ¬ (d.translated none).any (fun k => c.fence.contains k) then d.catEnd 0 else d
    | none => d

/-! ## CARD_SET and CARD_ACK (R372, Table 14.2a) -/

/-- A message that only a peer link carries (R361): taken on an UP peer link, discarded on any other. -/
def State.peerMessage (s : State) (link : Nat) (m : Msg) (f : State → State) : State :=
  if ¬ s.dev.linkUp link then s
  else if ¬ s.dev.peerPort (link / 4) ∨ m.reserved then s.withDev fun d => d.badMessage link 0
  else f s

/-- CARD_SET (R372): a propagated write applied on this member, and its answer to the head. -/
def State.cardSet (s : State) (m : Msg) : State :=
  let level := m.arg % 4 + 1
  let pa := m.addr.toNat % 2 ^ 48
  match s.cardOp m.patron level pa (some (m.value, if m.arg.testBit 2 then some m.cmp else none)) with
  | (none, s) => s.withDev fun d => { d with cardWaits := d.cardWaits ++ [m] }
  | (some (r, old), s) =>
    let holder := if cardState m.value < 2 then none
      else some (if cardState m.value = 7 then cardMember m.value else s.fuses.position)
    let s := if r = 0 then s.withDev fun d =>
        (d.journalPut { seq := m.tag, patron := m.patron, level := level, pa := pa, new := m.value, holder := holder }).count 0x0114 0
      else s
    s.sendPeer (s.dev.rd F.COLL_STATUS_HEAD)
      { op := 0x47, arg := s.fuses.position, status := r, tag := s.dev.rd F.COLL_CAT_SEQ_SEQ, value := old.getD 0 }

/-- CARD_ACK (R372): the holder's answer lets the command go on; the last member's ends it. -/
def State.cardAck (s : State) (m : Msg) : State :=
  match s.dev.cat with
  | none => s
  | some c =>
    if ¬ c.waits.contains m.arg then s
    else if c.phase = 1 then
      let s := s.withDev fun d => d.showOld (some m.value)
      if m.status ≠ 0 then s.withDev fun d => d.catEnd m.status
      else
        let (c, s) := s.spreadOthers c
        if c.waits = [] then s.withDev fun d => d.catEnd 0 else s.withDev fun d => { d with cat := some c }
    else
      let c := { c with waits := c.waits.filter (· ≠ m.arg), result := if c.result = 0 then m.status else c.result }
      if c.waits = [] then s.withDev fun d => d.catEnd c.result else s.withDev fun d => { d with cat := some c }

/-- Members marked LOST no longer hold up a propagated command (R372). -/
def State.catLost (s : State) (lost : Nat → Bool) : State :=
  match s.dev.cat with
  | none => s
  | some c =>
    let c' := { c with waits := c.waits.filter (fun m => !lost m) }
    if c.waits = [] ∨ c'.waits ≠ [] then s.withDev fun d => { d with cat := some c' }
    else if c.phase = 1 then
      let (c, s) := s.spreadOthers c'
      if c.waits = [] then s.withDev fun d => d.catEnd 0 else s.withDev fun d => { d with cat := some c }
    else s.withDev fun d => d.catEnd c'.result

/-- Card accesses that waited for a line of the catalogue tried again. -/
def State.catRetry (s : State) : State :=
  let s := s.catStep
  s.dev.cardWaits.foldl State.cardSet (s.withDev fun d => { d with cardWaits := [] })

/-- CARD_SET (R372). -/
def execCardSet (link : Fin 256) (msg : Msg) (s : State) : Host.Outcome State Fault Refusal :=
  .next (s.peerMessage link msg fun s => s.cardSet msg)

end Sys2Proof.Machine
end

