-- ==== Sys2Proof/Machine/Jobs.lean ====
section
/-!
DEFINITION. Re-shelving jobs (R279 to R284, R373): starting, copying line by line, finishing, and abandoning.
-/

namespace Sys2Proof.Machine

open Sys2Proof

/-! ## Jobs -/

/-- A job; none where its number is FREE. -/
def Dev.job (d : Dev) (n : Nat) : Option Job := slotAt d.jobs n

/-- A job changed. -/
def Dev.setJob (d : Dev) (n : Nat) (j : Job) : Dev := { d with jobs := SMap.insert n j d.jobs }

/-- Whether a job is active (R280). -/
def Job.active (j : Job) : Bool := j.st ≠ .queued && j.st ≠ .ended

/-- The code of a job state (Table 11.13). -/
def JobSt.code : JobSt → Nat
  | .queued => 1 | .starting => 2 | .copying => 3 | .finishing => 4 | .abandoning => 5 | .ended => 6

/-- RESULT, and the state and end of the job named (Table 11.13). -/
def Dev.reshelveShow (d : Dev) (result : Nat) : Dev :=
  let j := d.job (d.rd F.RESHELVE_JOB_JOB)
  d.wrs [(F.RESHELVE_STATUS_RESULT, result), (F.RESHELVE_STATUS_STATE, (j.map (·.st.code)).getD 0),
    (F.RESHELVE_STATUS_END, (j.map (·.ended)).getD 0)]

/-- The bytes a job moves. -/
def Job.span (j : Job) : Nat := if j.volume then 2 ^ 24 else 2 ^ 16

/-- The source lines of a job on each shaft (R280). -/
def Job.lines (j : Job) : Nat := j.span / 4096

/-- The offset of a job's line of a rank on a shaft: ascending source DPA (R282). -/
def State.jobOff (s : State) (j : Job) (shaft rank : Nat) : Nat :=
  let base := rank / 4 * 2 ^ 14 + shaft / 16 * 2 ^ 12 + rank % 4 * 2 ^ 6
  ((List.range 16).map (fun f => base + f * 2 ^ 8)).find? (fun off => s.shaftOf (j.src + off) = shaft) |>.getD base

/-- The card of a RESHELVING leaf or volume (Table 11.2). -/
def reshelving (n : Nat) (former : Card) : Card := setCard (setCard former 0 4 6) 46 12 n

/-- A card without ACCESSED and WRITTEN, which the device itself sets (R180). -/
def cardBare (c : Card) : Card := c &&& ~~~(0x600#64)

/-- A compare-and-swap of a job's card: ACCESSED and WRITTEN as they stand are kept. -/
def State.swapJob (s : State) (p cardDpa : Nat) (expect : Card) (new : Card → Card) : Swap × State :=
  let w := houseWork p
  match s.fetch w (cardDpa / 64 * 64) cleanEnv true with
  | (.line data poison _, s) =>
    let c := cardIn data cardDpa
    if poison then (.poisoned, s)
    else if cardBare c ≠ cardBare expect then (.mismatch c, s)
    else s.swapCard w cardDpa c (new c) cleanEnv
  | (.wait h, s) => (.wait h, s)
  | (.keyMissing, s) => (.poisoned, s)

/-! ## RESHELVE_CMD (R279 to R281) -/

/-- Whether a destination on this device is refused (R279). -/
def State.badDest (s : State) (c : Card) (dst : Nat) : Bool :=
  let n := cardSpan c
  let src := cardAddress c
  dst % n ≠ 0 || decide (s.reserveBase < dst + n) || (decide (src < dst + n) && decide (dst < src + n)) ||
    (List.range 16).any (fun f => decide (dst / 2 ^ 21 % 16 ≤ f) && decide (f ≤ (dst + n - 1) / 2 ^ 21 % 16) &&
      (s.dev.levelOfShelf f).isNone) || s.dev.flag F.EVAC_STATUS_EVACUATING

/-- Whether a destination on another member is refused. -/
def State.badRemoteDest (s : State) (c : Card) (dst m : Nat) : Bool :=
  dst % cardSpan c ≠ 0 || decide (dpaEnd < dst + cardSpan c) || !s.reachable m

/-- START of a move of the card at a patron address to a destination: the RESULT and the job; none while the walk waits. -/
def State.jobStart (s : State) (p va dst : Nat) (member : Option Nat) : Option (Nat × Option Nat) × State :=
  if ¬ s.patronExists p then (some (6, none), s)
  else
    match s.walkRoot (houseWork p) va 4 cleanEnv with
    | (.wait _, s) => (none, s)
    | (.fault _ _ _ _, s) => (some (1, none), s)
    | (.card c cd level, s) =>
      if ¬ [2, 3, 4, 5].contains (cardState c) ∨ s.malformed p level c then (some (1, none), s)
      else if (match member with
               | none => s.badDest c dst
               | some m => s.badRemoteDest c dst m) then (some (2, none), s)
      else if s.dev.rekeys.any (fun r => r.cardDpa = cd) then (some (3, none), s)
      else
        match (List.range 4096).find? (fun n => (s.dev.job n).isNone) with
        | none => (some (4, none), s)
        | some n =>
          let j : Job := { patron := p, cardDpa := cd, former := c, src := cardAddress c, dst := dst, volume := cardVolume c,
                           member := member, va := va / cardSpan c * cardSpan c, order := s.dev.serial }
          (some (0, some n), s.withDev fun d => { d.setJob n j with serial := d.serial + 1 })

/-- The START named in the registers, or its retry. -/
def State.reshelveStart (s : State) (p : Nat) : State :=
  let d := s.dev
  let member := if d.flag F.COLL_XDST_VALID then some (d.rd F.COLL_XDST_MEMBER) else none
  match s.jobStart p (d.rd F.RESHELVE_ADDR_LO_ADDR + 2 ^ 32 * d.rd F.RESHELVE_ADDR_HI_ADDR) (d.rd F.RESHELVE_DST_DPA * 2 ^ 16)
      member with
  | (none, s) => s.withDev fun d => ({ d with reshelvePending := some p } : Dev).wr F.RESHELVE_STATUS_BUSY 1
  | (some (r, n), s) => s.withDev fun d =>
      let d := ({ d with reshelvePending := none } : Dev).wr F.RESHELVE_STATUS_BUSY 0
      (match n with
       | some n => d.wr F.RESHELVE_JOB_JOB n
       | none => d).reshelveShow r

/-- RESHELVE_START (R279). -/
def execReshelveStart (patron : Fin 4096) (s : State) : Host.Outcome State Fault Refusal :=
  .next <|
    if s.dev.flag F.RESHELVE_STATUS_BUSY then s
    else (s.withDev fun d => d.wrs [(F.RESHELVE_CMD_PATRON, patron), (F.RESHELVE_CMD_OP, 0)]).reshelveStart patron

/-! ## Ends -/

/-- A job ENDED with its cause (Table 11.2). -/
def Dev.jobEnd (d : Dev) (n : Nat) (j : Job) (cause : Nat) : Dev :=
  (d.setJob n { j with st := .ended, ended := cause }).count 0x0718 0 (some j.patron)

/-- A card found changed (Table 11.4). -/
def Dev.jobCardChanged (d : Dev) (n : Nat) (j : Job) : Dev :=
  d.raise .reshelveCardChanged Src.device [(n, 12), (j.patron, 12)]

/-- The fence of a job whose card has been written (R281), and the end once the requests it waits for have completed. -/
def State.jobFence (s : State) (n : Nat) (j : Job) (cause : Nat) : State :=
  let l := (j.fence.getD (s.dev.translated (some j.patron)))
  let left := (s.dev.translated none).filter (fun k => l.contains k)
  s.withDev fun d => if left = [] then d.jobEnd n j cause else d.setJob n { j with ended := cause, fence := some left }

/-- ABANDONING (Table 11.2): the card returns to its former state, unless it has been changed. -/
def State.jobAbandon (s : State) (n : Nat) (j : Job) (cause : Nat) : State :=
  let j := { j with st := .abandoning, ended := cause }
  match j.fence with
  | some _ => s.jobFence n j cause
  | none =>
    match s.swapJob j.patron j.cardDpa (reshelving n j.former) (fun c => c &&& 0x600#64 ||| cardBare j.former) with
    | (.done, s) => s.jobFence n j cause
    | (.mismatch _, s) => (s.withDev fun d => d.jobCardChanged n j).jobFence n j 3
    | (.poisoned, s) => s.withDev fun d => d.jobEnd n j 5
    | (.wait _, s) => s.withDev fun d => d.setJob n j

/-- A job abandoned for a cause of Table 11.4 or by CANCEL. -/
def State.jobAbandoned (s : State) (n : Nat) (j : Job) (cause : Nat) : State :=
  (s.withDev fun d => d.raise .reshelveAbandoned Src.device [(0, 1), (n, 12), (cause, 4)]).jobAbandon n j cause

/-- The card of a finished job: the former state with the destination ADDRESS, POISONED_PRESENT if a poisoned line was copied. -/
def Job.finished (j : Job) (c : Card) : Card :=
  let c := c &&& 0x600#64 ||| cardBare j.former
  let c := setCard c 11 27 (j.dst / 2048)
  if j.poisoned then setCard c 0 4 5 else c

/-- The propagation of a cross-member job's card by the head (R373): the destination member first. -/
def State.jobPropagate (s : State) (n : Nat) (j : Job) (m : Nat) : State :=
  if s.dev.jobCat.isSome then s.withDev fun d => d.setJob n j
  else
    let c : CatCmd := { op := 1, patron := j.patron, level := if j.volume then 3 else 4, pa := j.va, new := j.finished (cardBare j.former),
                        spread := true, holder := some m, phase := 1, seq := s.dev.rd F.COLL_CAT_SEQ_SEQ + 1, waits := [m] }
    (s.withDev fun d => { d.setJob n j with jobCat := some (n, c) }).sendCard m c.write none

/-- FINISHING (Table 11.2): the card is written with the destination, then a fence. A job to another member waits for the head's
propagation (R373); its own card becomes REMOTE last. -/
def State.jobFinish (s : State) (n : Nat) (j : Job) : State :=
  let j := { j with st := .finishing, ended := j.poisoned.toNat }
  match j.fence, j.member with
  | some _, _ => s.jobFence n j j.ended
  | none, none =>
    let expect := if cardState j.former = 2 then j.former else reshelving n j.former
    match s.swapJob j.patron j.cardDpa expect j.finished with
    | (.done, s) => s.jobFence n j j.ended
    | (.mismatch _, s) => (s.withDev fun d => d.jobCardChanged n j).jobFence n { j with st := .abandoning } 3
    | (.poisoned, s) => s.withDev fun d => d.jobEnd n j 5
    | (.wait _, s) => s.withDev fun d => d.setJob n j
  | none, some m =>
    if s.dev.rd F.COLL_STATUS_STATE = 3 then s.jobPropagate n j m
    else
      match s.walkRoot (houseWork j.patron) j.va (if j.volume then 3 else 4) cleanEnv with
      | (.card c _ _, s) => if cardState c = 7 then s.jobFence n j j.ended else s.withDev fun d => d.setJob n j
      | (_, s) => s.withDev fun d => d.setJob n j

/-- The holder's own card made REMOTE, once every other member has the new card (R373). -/
def State.jobOwnCard (s : State) (n : Nat) (j : Job) (m : Nat) : State :=
  let s := s.withDev fun d => { d with jobCat := none }
  let expect := if cardState j.former = 2 then j.former else reshelving n j.former
  match s.swapJob j.patron j.cardDpa expect (fun _ => remoteCard j.former m) with
  | (.done, s) => (s.withDev fun d => d.leavesChanged j.patron expect (remoteCard j.former m)).jobFence n j j.ended
  | (.mismatch _, s) => (s.withDev fun d => d.jobCardChanged n j).jobFence n j 3
  | (_, s) => s.withDev fun d => d.jobEnd n j 5

/-- A CARD_ACK for a job's propagation (R373). -/
def State.jobAck (s : State) (n : Nat) (c : CatCmd) (m : Msg) : State :=
  match s.dev.job n with
  | none => s.withDev fun d => { d with jobCat := none }
  | some j =>
    let next := fun (s : State) (c : CatCmd) =>
      if c.waits = [] then s.jobOwnCard n j (c.holder.getD 0) else s.withDev fun d => { d with jobCat := some (n, c) }
    if c.phase = 1 then
      if m.status ≠ 0 then (s.withDev fun d => { d with jobCat := none }).jobAbandoned n j 4
      else
        let (c, s) := s.spreadOthers c
        next s c
    else next s { c with waits := c.waits.filter (· ≠ m.arg) }

/-- CARD_ACK (R372, R373). -/
def execCardAck (link : Fin 256) (msg : Msg) (s : State) : Host.Outcome State Fault Refusal :=
  .next <| s.peerMessage link msg fun s =>
    match s.dev.jobCat with
    | some (n, c) =>
      let other := (s.dev.cat.map (fun x => x.waits.contains msg.arg)).getD false
      if c.waits.contains msg.arg ∧ (msg.tag = c.seq ∨ ¬ other) then s.jobAck n c msg else s.cardAck msg
    | none => s.cardAck msg

/-! ## Activation (Table 11.2) -/

/-- The reading-room lines of a job's source range written back, charged to A5, and invalidated; whether none is left. -/
def State.jobClear (s : State) (j : Job) : Bool × State :=
  let mine := fun (l : RoomLine) => decide (j.src ≤ l.tag * 64) && decide (l.tag * 64 < j.src + j.span)
  let s := (s.dev.room.filter (fun kl => mine kl.2 && kl.2.st = .dirty)).foldl (fun s kl => s.handBack kl.1 kl.2 5 0) s
  let s := s.withDev fun d => { d with room := d.room.filter (fun kl => !(mine kl.2 && kl.2.st = .clean)) }
  (!s.dev.room.any (fun kl => mine kl.2), s)

/-- JOB_ACTIVATE (R280, R281): the queued job that was started first becomes STARTING while fewer than 256 are active; its card is
swapped to RESHELVING, and the reading room gives up its lines. Nothing starts while the safe state holds. -/
def execJobActivate (s : State) : Host.Outcome State Fault Refusal :=
  .next <|
    let queued := s.dev.jobs.filter (fun kj => kj.2.st = .queued)
    let first := queued.foldl (fun (b : Option (Nat × Job)) kj => match b with
      | some x => if kj.2.order < x.2.order then some kj else b
      | none => some kj) none
    match first with
    | none => s
    | some (n, j) =>
      if 256 ≤ (s.dev.jobs.filter (fun kj => kj.2.active)).length ∨ s.dev.flag F.SAFE_STATUS_ACTIVE then s
      else if cardState j.former = 2 then s.jobFinish n j
      else
        match s.swapJob j.patron j.cardDpa j.former (fun c => reshelving n c) with
        | (.done, s) => ((s.withDev fun d => d.setJob n { j with st := .starting }).jobClear j).2
        | (.mismatch _, s) => s.withDev fun d => (d.jobCardChanged n j).jobEnd n j 3
        | (.poisoned, s) => s.withDev fun d => d.jobEnd n j 5
        | (.wait _, s) => s

/-- JOB_STARTING_DONE (R281): the oldest STARTING job whose lines have all been written back enters COPYING, and the accesses held
for it are released in arrival order. -/
def execJobStartingDone (job : Fin 4096) (s : State) : Host.Outcome State Fault Refusal :=
  .next <|
    match s.dev.job job with
    | none => s
    | some j =>
      if j.st ≠ .starting then s
      else
        match s.jobClear j with
        | (true, s) => (s.withDev fun d => d.setJob job { j with st := .copying }).releaseAll fun h => h = .job job
        | (false, s) => s

/-! ## Copying (R282, R283) -/

/-- A5 slots of the period spent at a bay. -/
def Dev.spentA5 (d : Dev) (bay : Nat) : Nat :=
  (d.spent.filter (fun kv => kv.1 / 256 = bay * 8 + 5)).foldl (fun n kv => n + kv.2) 0

/-- Whether a bay holds an A5 token (R283). -/
def Dev.hasA5 (d : Dev) (bay : Nat) : Bool := decide (d.spentA5 bay < (d.bayTokens bay).a5)

/-- The key a job's lines are sealed under: that of the epoch of its card (R283). -/
def State.jobWho (s : State) (j : Job) : Who :=
  { cls := 5, grp := 0, patron := j.patron,
    key := if s.dev.flag (F.PATRON_CTL_SEALED j.patron) then some (j.patron, cardEpoch j.former) else none }

/-- The next line of a job on a shaft copied (R283): read at the source through its code, written to the destination; the cursor
moves once that write has entered the destination's merge buffer. -/
def State.jobCopy (s : State) (n : Nat) (j : Job) (shaft : Nat) (wire : CodeWord) : State :=
  let k := SMap.get 0 j.cursor shaft
  let bay := shaft
  if j.lines ≤ k ∨ ¬ s.dev.hasA5 bay then s
  else if (match j.member with
           | some m => !s.reachable m
           | none => false) then s.jobAbandoned n j 4
  else
    let off := s.jobOff j shaft k
    let w := s.jobWho j
    match s.bayFetch w (j.src + off) wire with
    | (.line data poison _, s) =>
      let put : Bool × State := match j.member with
        | some m =>
          (true, (s.withDev fun d => (d.charge bay 5 0).count 0x0115 bay (some j.patron)).sendXcopy m w (j.dst + off) data poison)
        | none =>
          match s.bayPut w (j.dst + off) data fullMask poison 0 with
          | (.wait _, s) => (false, s)
          | (.keyMissing, s) => (false, s)
          | (_, s) => (true, s)
      if ¬ put.1 then put.2
      else
        let j := { j with cursor := SMap.put 0 j.cursor shaft (k + 1), poisoned := j.poisoned || poison }
        let s := put.2.withDev fun d => (d.setJob n j).count 0x0710 bay (some j.patron)
        if (List.range 64).all (fun i => SMap.get 0 j.cursor i = j.lines) then s.jobFinish n j else s
    | (_, s) => s

/-- Jobs that are finishing or being abandoned, and a start that waits, taken as far as they can go. -/
def State.pumpJobs (s : State) : State :=
  let s := match s.dev.reshelvePending with
    | some p => s.reshelveStart p
    | none => s
  s.dev.jobs.foldl (fun s kj =>
    match kj.2.st with
    | .finishing => if (s.dev.jobCat.map (·.1)) = some kj.1 then s else s.jobFinish kj.1 kj.2
    | .abandoning => s.jobAbandon kj.1 kj.2 kj.2.ended
    | _ => s) s

/-- Jobs whose destination can no longer be reached (Table 11.4, R373). -/
def State.jobsLost (s : State) (f : Job → Bool) : State :=
  s.dev.jobs.foldl (fun s kj =>
    if f kj.2 ∧ (kj.2.st = .starting ∨ kj.2.st = .copying ∨ kj.2.st = .queued) then
      (if kj.2.st = .queued then s.withDev fun d => d.jobEnd kj.1 kj.2 4 else s.jobAbandoned kj.1 kj.2 4)
    else s) s

/-! ## Members that can no longer be reached (R369, R372, R373, R379, R380) -/

/-- What a lost member leaves behind: forwarded requests to it fail, a propagated command no longer waits for it, jobs to it end. -/
def State.membersLost (s : State) (lost : Nat → Bool) : State :=
  ((s.dropForwards lost).catLost lost).jobsLost fun j => match j.member with
    | some m => lost m
    | none => false

/-- ISOLATED (R380). -/
def State.isolate (s : State) : State :=
  (s.withDev fun d => (d.wr F.COLL_STATUS_STATE 4).raise .isolated Src.device).membersLost fun _ => true

/-- The UP or recovering peer links. -/
def Dev.peerLinks (d : Dev) : List Nat :=
  (List.range 6).filter (fun k => d.flag (F.COLL_DIM_VALID k) &&
    (let st := d.rd (F.PORT_LINK_STATE (d.rd (F.COLL_DIM_PORT k)) 0); st = 7 || st = 8))

/-- A member that has lost its last peer link is ISOLATED (R380). -/
def State.linkGone (s : State) (l : Nat) : State :=
  if s.dev.peerPort (l / 4) && s.dev.inCollection && s.dev.peerLinks.isEmpty &&
      decide (1 < (List.range 64).countP (s.dev.inMap F.COLL_MEMBERS_MAP)) then s.isolate else s

/-! ## CANCEL, QUERY, RELEASE -/

/-- OP CANCEL (R281): NO_SUCH_JOB for a FREE number; a QUEUED job ends, a COPYING one is abandoned, any other goes on. -/
def State.reshelveCancel (s : State) : State :=
  let n := s.dev.rd F.RESHELVE_JOB_JOB
  let s := s.withDev fun d => d.wr F.RESHELVE_CMD_OP 1
  match s.dev.job n with
  | none => s.withDev fun d => d.reshelveShow 5
  | some j =>
    (match j.st with
     | .queued => s.withDev fun d => d.jobEnd n j 2
     | .copying => s.jobAbandoned n j 2
     | _ => s).withDev fun d => d.reshelveShow 0

/-- RESHELVE_CANCEL (R281). -/
def execReshelveCancel (s : State) : Host.Outcome State Fault Refusal :=
  .next (if s.dev.flag F.RESHELVE_STATUS_BUSY then s else s.reshelveCancel)

/-- OP QUERY (Table 11.13). -/
def Dev.reshelveQuery (d : Dev) : Dev :=
  if d.flag F.RESHELVE_STATUS_BUSY then d
  else (d.wr F.RESHELVE_CMD_OP 2).reshelveShow (if (d.job (d.rd F.RESHELVE_JOB_JOB)).isNone then 5 else 0)

/-- RESHELVE_QUERY (R281). -/
def execReshelveQuery (s : State) : Host.Outcome State Fault Refusal := s.next Dev.reshelveQuery

/-- OP RELEASE (R280): an ENDED job's number becomes free. -/
def Dev.reshelveRelease (d : Dev) : Dev :=
  if d.flag F.RESHELVE_STATUS_BUSY then d
  else
    let n := d.rd F.RESHELVE_JOB_JOB
    let d := d.wr F.RESHELVE_CMD_OP 3
    if (d.job n).map (·.st) = some .ended then ({ d with jobs := SMap.erase n d.jobs } : Dev).reshelveShow 0
    else d.reshelveShow 5

/-- RESHELVE_RELEASE (R280). -/
def execReshelveRelease (s : State) : Host.Outcome State Fault Refusal := s.next Dev.reshelveRelease

/-! ## XCOPY (R373) -/

/-- XCOPY: a line of a cross-member job or a mirrored write, in its stored form, written at its destination and charged to A5. -/
def execXcopy (link : Fin 256) (msg : Msg) (s : State) : Host.Outcome State Fault Refusal :=
  .next <| s.peerMessage link msg fun s =>
    if dpaEnd ≤ msg.addr.toNat then s
    else s.mergeRequest { dpaLine := BitVec.ofNat 32 (msg.addr.toNat / 64), data := msg.data, mask := fullMask,
                          poison := msg.value.getLsbD 0, cls := 5, grp := 0 }

end Sys2Proof.Machine
end

