-- ==== Sys2Proof/Machine/Twin.lean ====
section
/-!
DEFINITION. Twin bays (R38 to R41, R146, R147, R295): takeover and hand-back of a shaft, lost pairs, evacuation required (R304,
R305), and the switching of power domains that repairs need (R420, R422).
-/

namespace Sys2Proof.Machine

open Sys2Proof

/-! ## Domains off and on (R420, Tables 17.3, 17.14) -/

/-- A domain isolated and switched off. -/
def Dev.domainOff (d : Dev) (i : Nat) : Dev :=
  if d.rd (F.POWER_DOMAIN_STATE i) = 3 then d
  else
    ((d.wrs [(F.POWER_DOMAIN_STATE i, 3), (F.POWER_DOMAIN_ALIVE i, 0)]).bump (F.POWER_DOMAIN_GATINGS i)).count 0x0800 i

/-- A domain that has passed its wake check: every wake sets WAKE_FLAG. -/
def Dev.domainWoken (d : Dev) (i : Nat) : Dev :=
  (d.wrs [(F.POWER_DOMAIN_STATE i, 0), (F.POWER_DOMAIN_ALIVE i, 1), (F.POWER_DOMAIN_WAKE_FLAG i, 1)]).count 0x0801 i

/-- The four quadrants of a level. -/
def levelQuadrants (level : Nat) : List Nat := (List.range 4).map (Dom.quadrant level)

/-! ## Evacuation (R304, R305) -/

/-- The device requires evacuation (R304): REQUIRED and its cause, the fault, and the REPLACE record. -/
def Dev.requireEvacuation (d : Dev) (cause : Nat) : Dev :=
  if d.flag F.EVAC_STATUS_REQUIRED then d
  else
    ((d.wrs [(F.EVAC_STATUS_REQUIRED, 1), (F.EVAC_STATUS_CAUSE, cause)]).raise .evacuationRequired Src.device).ledgerRequest
      { record := recordNo 0x09 0, payload := [1, cause] }

/-- EVAC_START (R305). -/
def execEvacStart (s : State) : Host.Outcome State Fault Refusal := s.next fun d => d.wr F.EVAC_STATUS_EVACUATING 1

/-- EVAC_STOP (R305): REQUIRED does not change. -/
def execEvacStop (s : State) : Host.Outcome State Fault Refusal := s.next fun d => d.wr F.EVAC_STATUS_EVACUATING 0

/-! ## The merge buffer of a shaft drained or moved (R146, R147) -/

/-- Whether a shelf can take line transfers now, whoever drives it. -/
def State.shelfReady (s : State) (loc : Nat) : Bool :=
  s.dev.portPowered (locShaft loc) (locLevel loc) && (s.dev.shelf (shelfKey (locShaft loc) (locLevel loc))).st = .ready &&
    !s.dev.flag F.SAFE_STATUS_ACTIVE

/-- One entry of a bay's buffer written to its shaft: a FILLING one is filled first. -/
def State.drainEntry (s : State) (bay loc : Nat) : State :=
  if ¬ s.shelfReady loc then s
  else
    let s := if (s.dev.mergeOf bay).any (fun e => e.loc = loc && e.st = MergeSt.filling) then
        let (r, s) := s.bayRead bay loc 0 true none
        s.withDev fun d => d.mergeFilled bay loc r
      else s
    s.completeLine bay loc

/-- The entries of a bay's buffer that belong to a shaft. -/
def Dev.mergeFor (d : Dev) (bay shaft : Nat) : List MergeEntry := (d.mergeOf bay).filter (fun e => locShaft e.loc = shaft)

/-- A shaft's entries of a bay's buffer drained to the shaft (R146). -/
def State.drainShaft (s : State) (bay shaft : Nat) : State :=
  (s.dev.mergeFor bay shaft).foldl (fun s e => s.drainEntry bay e.loc) s

/-- The transfer order of a shaft completed (Table 2.5, Step 3). -/
def State.drainOrder (s : State) (shaft : Nat) : Nat → State
  | 0 => s
  | fuel + 1 => if (s.dev.shaft shaft).order = [] then s else (s.lineTransfer shaft 0 false).drainOrder shaft fuel

/-- The entries of a contained bay moved to its twin (R147): a lost one becomes the line poisoned, its merged bytes over zeros. -/
def State.moveEntries (s : State) (src dst shaft : Nat) (lost : List Nat) : State :=
  let mine := s.dev.mergeFor src shaft
  let moved := mine.map (fun e =>
    if lost.contains e.loc then
      { e with data := mergeBytes 0 e.data e.mask, mask := fullMask, poison := true, st := .held, moved := true }
    else { e with moved := true })
  s.withDev fun d =>
    let d := (d.setMerge src ((d.mergeOf src).filter (fun e => locShaft e.loc ≠ shaft))).setMerge dst (d.mergeOf dst ++ moved)
    let d := (mine.filter (fun e => lost.contains e.loc)).foldl
      (fun d e => d.raise .mergeLost (Src.bay src) [(e.dpaLine * 64, 38)]) d
    (List.range (d.mergeOf dst).length).foldl (fun d _ => if 64 < (d.mergeOf dst).length then d.setMerge dst (issueOldest (d.mergeOf dst)) else d) d

/-! ## Lost pairs (R41) -/

/-- A shaft on which every read is poisoned and every write has an uncorrectable target: its entries end so. -/
def State.shaftLost (s : State) (shaft : Nat) : State :=
  let s := s.withDev fun d =>
    let d := d.wrs [(F.TWIN_STATUS_MODE shaft, 3), (F.TWIN_STATUS_SWITCHING shaft, 0)]
    let bays := [shaft, twinOf shaft]
    let gone := bays.flatMap (fun b => d.mergeFor b shaft)
    let d := bays.foldl (fun d b => d.setMerge b ((d.mergeOf b).filter (fun e => locShaft e.loc ≠ shaft))) d
    let d := gone.foldl (fun d e => if e.room then d.roomWritten e.dpaLine else d) d
    { d.setShaft shaft fun t => { t with order := [] } with
      spareCursor := if d.rd F.SPARE_STATUS_STATE = 0 then d.spareCursor else SMap.insert shaft 3145728 d.spareCursor,
      recheck := true }
  (s.pumpMerge shaft).releaseAll fun h => h = .shaft shaft

/-- A pair lost (R41): evacuation is required, and jobs with their destination here are abandoned (Table 11.4). -/
def State.pairLost (s : State) (bay : Nat) : State :=
  let s := (s.shaftLost bay).shaftLost (twinOf bay)
  (s.jobsLost fun j => j.member.isNone).withDev fun d =>
    ({ d with rescue := d.rescue.filter (fun b => b ≠ bay ∧ b ≠ twinOf bay) } : Dev).requireEvacuation 1

/-! ## Takeover and hand-back (R40, Table 2.5) -/

/-- Steps 1 to 3 of a takeover of a shaft by its bay's twin. For gating and spot checks the transfer order completes and the merge
buffer drains; for a contained fault reads are issued again by the twin and the entries move to it. -/
def State.takeover (s : State) (bay : Nat) (cause : Nat) (lost : List Nat) : State :=
  let t := twinOf bay
  let s := if cause = 3 then s else (s.drainOrder bay 32).drainShaft bay bay
  let s := s.withDev fun d =>
    (d.wrs [(F.TWIN_STATUS_MODE bay, 1), (F.TWIN_STATUS_CAUSE bay, cause), (F.TWIN_STATUS_SWITCHING bay, 1),
      (F.TWIN_STATUS_MODE t, 2)]).bump (F.TWIN_STATUS_TAKEOVERS bay)
  let s := s.withDev fun d => { d with recheck := true }
  if cause = 3 then
    let s := s.withDev fun d => d.setShaft bay fun x => { x with order := x.order.filter (fun o => o.kind = .read), alerted := none }
    let s := s.withDev fun d => (List.range 17).foldl (fun d l => d.rebuildBay bay l) d
    s.moveEntries bay t bay lost
  else s

/-- The code of a cause (Table 2.6). -/
def takeoverCode : TakeoverCause → Nat
  | .gated => 1 | .spotCheck => 2 | .contained => 3

/-- A bay contained by a fault (R38, R41): its twin takes the shaft over; where the twin is itself withdrawn by a fault the pair is
lost; where it was withdrawn for gating or a spot check it is woken first, and both shafts are held meanwhile. A shaft that its twin
already drives stays with it. -/
def State.containBay (s : State) (bay : Nat) (lost : List Nat) : State :=
  let t := twinOf bay
  match s.dev.rd (F.TWIN_STATUS_MODE bay) with
  | 0 => s.takeover bay 3 lost
  | 1 => s.withDev fun d => d.wr (F.TWIN_STATUS_CAUSE bay) 3
  | 2 =>
    if s.dev.rd (F.TWIN_STATUS_CAUSE t) = 3 then s.pairLost bay
    else s.withDev fun d =>
      ({ d with rescue := d.rescue.filter (· ≠ t) ++ [t] } : Dev).wrs [(F.TWIN_STATUS_SWITCHING bay, 1), (F.TWIN_STATUS_SWITCHING t, 1)]
  | _ => s

/-- A bay contained again within 24 h of its restoration is withdrawn for good (R295). -/
def Dev.withdrawBay (d : Dev) (bay : Nat) : Dev :=
  if d.withdrawnBays.contains bay then d
  else
    let d := { d with withdrawnBays := d.withdrawnBays ++ [bay], recheck := true }
    let mask := d.withdrawnBays.foldl (fun n b => n ||| 2 ^ b) 0
    (d.raise .bayWithdrawn (Src.bay bay)).ledgerRequest { record := recordNo 0x07 0, payload := bytesOfNat 8 mask }

/-- The containment of a bay with R295's rule of 24 hours. -/
def State.contain (s : State) (bay : Nat) (lost : List Nat) : State :=
  let again := match slotAt s.dev.restored bay with
    | some t => decide (s.dev.time < t + 86400000000000)
    | none => false
  let s := s.containBay bay lost
  if again then s.withDev fun d => d.withdrawBay bay else s

/-- TWIN_TAKEOVER (R40, R41): for gating and spot checks both bays must be OWN. -/
def execTwinTakeover (bay : Fin 64) (cause : TakeoverCause) (lost : List Nat) (s : State) : Host.Outcome State Fault Refusal :=
  .next <|
    if cause = .contained then s.contain bay lost
    else if s.dev.rd (F.TWIN_STATUS_MODE bay) = 0 ∧ s.dev.rd (F.TWIN_STATUS_MODE (twinOf bay)) = 0 then
      s.takeover bay (takeoverCode cause) []
    else s

/-- Steps 4 and 5 of a switch of a shaft: held requests go on in arrival order. -/
def State.switchDone (s : State) (shaft : Nat) : State :=
  let s := s.withDev fun d => d.wr (F.TWIN_STATUS_SWITCHING shaft) 0
  ((s.pumpMerge shaft).pumpFlush).releaseAll fun h => h = .shaft shaft

/-- TAKEOVER_DRAIN_COMPLETE (R40): what still waits in the withdrawn bay's buffer drains; once nothing does, the twin drives the
shaft. Not while the twin itself is being woken (R41). -/
def execTakeoverDrainComplete (bay : Fin 64) (s : State) : Host.Outcome State Fault Refusal :=
  .next <|
    if ¬ s.dev.flag (F.TWIN_STATUS_SWITCHING bay) ∨ s.dev.rescue.contains bay.val ∨ s.dev.rescue.contains (twinOf bay) then s
    else
      let other := if s.dev.rd (F.TWIN_STATUS_MODE bay) = 1 then bay.val else twinOf bay
      let s := s.drainShaft other bay
      if (s.dev.mergeFor other bay) = [] then s.switchDone bay else s

/-- The bay has its own shaft again (R40): the same steps with the roles exchanged; its buffer on the twin drains first. -/
def State.handback (s : State) (bay : Nat) : State :=
  let t := twinOf bay
  let s := (s.drainOrder bay 32).drainShaft t bay
  s.withDev fun d =>
    { d.wrs [(F.TWIN_STATUS_MODE bay, 0), (F.TWIN_STATUS_CAUSE bay, 0), (F.TWIN_STATUS_SWITCHING bay, 1), (F.TWIN_STATUS_MODE t, 0)]
      with recheck := true }

/-- TWIN_HANDBACK (R40): of a shaft that its twin drives, once its bay is in service. -/
def execTwinHandback (bay : Fin 64) (s : State) : Host.Outcome State Fault Refusal :=
  .next <|
    if s.dev.rd (F.TWIN_STATUS_MODE bay) = 1 ∧ s.dev.domainOn (Dom.bay bay) ∧ ¬ s.dev.withdrawnBays.contains bay.val ∧
        ¬ s.dev.rescue.contains bay.val then s.handback bay
    else s

/-- The end of R41's rescue: the withdrawn twin has passed its wake check, takes its own shaft back, and adopts the contained bay's;
or it has failed, and the pair is lost. -/
def State.rescueEnd (s : State) (twin : Nat) (pass : Bool) : State :=
  if ¬ s.dev.rescue.contains twin then s
  else
    let bay := twinOf twin
    let s := s.withDev fun d => { d with rescue := d.rescue.filter (· ≠ twin) }
    if ¬ pass then s.pairLost bay
    else (((s.handback twin).switchDone twin).takeover bay 3 []).switchDone bay

/-- BAY_RESTORE_ATTEMPT (R295): the contained bay's domain is gated and woken and its checker tested. A pass hands the shaft back;
a failure withdraws the bay. -/
def execBayRestoreAttempt (bay : Fin 64) (pass : Bool) (s : State) : Host.Outcome State Fault Refusal :=
  .next <|
    if s.dev.rd (F.TWIN_STATUS_MODE bay) ≠ 1 ∨ s.dev.rd (F.TWIN_STATUS_CAUSE bay) ≠ 3 ∨ s.dev.withdrawnBays.contains bay.val then s
    else
      let s := s.withDev fun d => (d.domainOff (Dom.bay bay)).domainWoken (Dom.bay bay)
      if pass then
        (s.handback bay).withDev fun d => { d with restored := SMap.insert bay.val d.time d.restored }
      else s.withDev fun d => d.withdrawBay bay

end Sys2Proof.Machine
end

