-- ==== Sys2Proof/Machine/Repair.lean ====
section
/-!
DEFINITION. Repair (R285 to R303, R306): level sparing and retirement, via column swaps and standing erasures, row withdrawal, what
follows a recorded ledger write, and lifetime accounting.
-/

namespace Sys2Proof.Machine

open Sys2Proof

/-! ## Level roles (R37, R286, R288) -/

/-- LEVEL_ROLES (Table 11.9): ROLE and SHELF of each level, the reserve in use, the retirements, as given. -/
def rolesPayload (role shelf : Nat → Nat) (reserve : Nat) : List Nat :=
  (List.range 17).map (fun l => role l + 4 * shelf l) ++ [reserve, ((List.range 17).filter (fun l => role l = 2)).length]

/-- The LEVEL_ROLES record requested as it will stand once the retirements ordered, and a sparing that is switching, are in force
(R299). -/
def Dev.recordRoles (d : Dev) : Dev :=
  let switching := d.rd F.SPARE_STATUS_STATE = 3
  let src := d.rd F.SPARE_STATUS_SOURCE
  let v := d.rd F.DEV_STACK_CURRENT_RESERVE
  let gone := fun l => d.retiring.any (fun r => r.1 = l)
  let role := fun l => if gone l ∨ (switching ∧ l = src) then 2 else if switching ∧ l = v then 0 else d.role l
  let shelf := fun l => if switching ∧ l = v then d.rd (F.LEVEL_ROLE_SHELF src) else d.rd (F.LEVEL_ROLE_SHELF l)
  d.ledgerRequest { record := recordNo 0x03 0, payload := rolesPayload role shelf (if switching then 31 else v) }

/-- A written LEVEL_ROLES record: what it shows RETIRED may be switched at a boundary 2 µs later (Table 11.5, R288). -/
def Dev.rolesRecorded (d : Dev) (payload : List Nat) : Dev :=
  let shows := fun l => payload.getD l 0 % 4 = 2
  { d with
    retiring := d.retiring.map (fun r => if r.2.isNone ∧ shows r.1 then (r.1, some d.time) else r),
    rolesDue := if d.rd F.SPARE_STATUS_STATE = 3 ∧ shows (d.rd F.SPARE_STATUS_SOURCE) ∧ d.rolesDue.isNone then some d.time
                else d.rolesDue }

/-- The four quadrants of a level gated. -/
def Dev.gateLevel (d : Dev) (level : Nat) : Dev := (levelQuadrants level).foldl Dev.domainOff d

/-- A level RETIRED: its quadrants are gated (R288, Table 11.5). -/
def Dev.retireLevel (d : Dev) (level : Nat) : Dev :=
  (({ d with recheck := true } : Dev).wr (F.LEVEL_ROLE_ROLE level) 2).bump F.SPARE_STATUS_RETIRED |>.gateLevel level

/-! ## Level sparing (R285, R286) -/

/-- Every line of a level the zero codeword, spare rows included (R149, R422). -/
def zeroLevel (m : List Host.Cell) (level : Nat) : List Host.Cell := m.filter (fun c => locLevel (c.1 / 72) ≠ level)

/-- Steps 1 and 2 of Table 11.5: the reserve's gated quadrants wake and its lines are zeroed (R422), its shelves leave
self-refresh with OWED 0, a withdrawal open on the source is closed without a remap. -/
def State.spareBegin (s : State) (level : Nat) : State :=
  let v := s.dev.rd F.DEV_STACK_CURRENT_RESERVE
  let off := (levelQuadrants v).filter (fun q => !s.dev.domainOn q)
  let s := if off = [] then s else { s with mem := zeroLevel s.mem v }
  s.withDev fun d =>
    let d := off.foldl Dev.domainWoken d
    let d := d.wrs [(F.SPARE_STATUS_STATE, 1), (F.SPARE_STATUS_SOURCE, level), (F.SPARE_STATUS_PROGRESS, 0)]
    let d := { d with spareCursor := [], recheck := true, nextTokens := none,
                      proposals := SMap.put [] d.proposals level [],
                      rowDue := d.rowDue.filter (fun r => r.1 % 17 ≠ level) }
    (List.range 64).foldl (fun d n =>
      let sh := shelfKey n v
      let d := d.setShelf sh fun p =>
        { p with st := if p.st = .selfRefresh then .ready else p.st, baySt := if p.baySt = .selfRefresh then .ready else p.baySt }
      let d := (List.range 16).foldl (fun d b => d.setOwed (bankKey n v b) 0) d
      d.setShelf (shelfKey n level) fun p => { p with wdOpen := false, wdBank := 0, wdRow := 0, wdSpare := 0, wdCopied := false,
                                                      wdLine := 0, wdRecorded := false }) d

/-- Why a host order is refused (R285): 0 where it is not. -/
def Dev.spareCheck (d : Dev) (level : Nat) : Nat :=
  if d.rd F.DEV_STACK_CURRENT_RESERVE = 31 then 1
  else if 17 ≤ level ∨ d.role level ≠ 0 then 2
  else if d.rd F.SPARE_STATUS_STATE ≠ 0 then 3 else 0

/-- The fields a write of SPARE_CTL sets. -/
def Dev.spareCtl (d : Dev) (level op : Nat) : Dev := d.wrs [(F.SPARE_CTL_LEVEL, level), (F.SPARE_CTL_OP, op)]

/-- OP SPARE (R285). -/
def State.spareOrder (s : State) (level : Nat) : State :=
  let s := s.withDev fun d => (d.spareCtl level 0).wr F.SPARE_STATUS_RESULT (d.spareCheck level)
  if s.dev.rd F.SPARE_STATUS_RESULT = 0 then s.spareBegin level else s

/-- LEVEL_SPARE (R285). -/
def execLevelSpare (level : Fin 32) (s : State) : Host.Outcome State Fault Refusal := .next (s.spareOrder level)

/-- A sparing ordered by the registrar (R285): kept while one runs, dropped for a level that is not DATA; without a reserve the
level is reported (R287). -/
def State.spareAuto (s : State) (level : Nat) : State :=
  let drop := fun (s : State) => s.withDev fun d => { d with sparingWanted := d.sparingWanted.filter (· ≠ level) }
  if ¬ s.dev.flag F.REPAIR_CFG_AUTO_SPARE ∨ s.dev.role level ≠ 0 then drop s
  else if s.dev.rd F.SPARE_STATUS_STATE ≠ 0 then s
  else if s.dev.rd F.DEV_STACK_CURRENT_RESERVE = 31 then
    (drop s).withDev fun d =>
      if d.rd F.SPARE_STATUS_REDUCED_LEVEL = level then d
      else (d.wr F.SPARE_STATUS_REDUCED_LEVEL level).raise .levelLostNoReserve (Src.level level)
  else (drop s).spareBegin level

/-- PROGRESS (Table 11.14): permille copied by the slowest bay. -/
def Dev.spareProgress (d : Dev) : Nat :=
  (List.range 64).foldl (fun m n => min m (SMap.get 0 d.spareCursor n)) 3145728 * 1000 / 3145728

/-- Every cursor at its end: STATE SWITCHING, and the roles record is requested (Table 11.5, Step 5). -/
def Dev.spareSwitch (d : Dev) : Dev :=
  if d.rd F.SPARE_STATUS_STATE = 2 ∧ (List.range 64).all (fun n => decide (3145728 ≤ SMap.get 0 d.spareCursor n)) then
    (d.wr F.SPARE_STATUS_STATE 3).recordRoles
  else d

/-- The physical line of a level at a sparing cursor: row by row, banks 0 to 15, the 32 lines of each (R286). -/
def Dev.spareLoc (d : Dev) (shaft level k : Nat) : Nat :=
  let bank := k / 32 % 16
  lineKey shaft level bank (d.physRow shaft level bank (k / 512)) (k % 32)

/-- The next line of a running sparing copied on a shaft (R283, R286): the newest copy of the source line, which is the merge
buffer's where it holds one, written to the reserve. -/
def State.spareCopy (s : State) (shaft : Nat) (wire : CodeWord) : State :=
  let d := s.dev
  let k := SMap.get 0 d.spareCursor shaft
  let v := d.rd F.DEV_STACK_CURRENT_RESERVE
  let src := d.rd F.SPARE_STATUS_SOURCE
  let bay := d.drivingBay shaft
  let locD := d.spareLoc shaft src k
  let locV := d.spareLoc shaft v k
  if d.rd F.SPARE_STATUS_STATE ≠ 2 ∨ 3145728 ≤ k ∨ ¬ d.hasA5 shaft ∨ ¬ s.canServe locD ∨ ¬ s.canServe locV then s
  else
    let (data, poison, s) := match d.mergeNewest bay locD with
      | some e => (e.data, e.poison, s)
      | none =>
        let (r, s) := s.bayRead bay locD wire false none
        (r.data, r.poison, s)
    match s.mergeWrite bay locV (s.dpaOfLoc locD / 64) data fullMask poison false 5 0 0 with
    | (.full, s) => s
    | (_, s) => s.withDev fun d =>
      let d := ((d.charge shaft 5 0).count 0x0711 shaft)
      let d := { d with spareCursor := SMap.insert shaft (k + 1) d.spareCursor }
      (d.wr F.SPARE_STATUS_PROGRESS d.spareProgress).spareSwitch

/-- RESHELVE_LINE_COPY (R283, R286): the next line of a COPYING job, or of the running sparing, on a shaft; nothing is copied while
the safe state holds. -/
def execReshelveLineCopy (shaft : Fin 64) (job : Option (Fin 4096)) (wire : CodeWord) (s : State) :
    Host.Outcome State Fault Refusal :=
  .next <|
    if s.dev.flag F.SAFE_STATUS_ACTIVE then s
    else
      match job with
      | none => s.spareCopy shaft wire
      | some n =>
        match s.dev.job n with
        | some j => if j.st = .copying then s.jobCopy n j shaft wire else s
        | none => s

/-- Steps 6 and 7 of Table 11.5. -/
def Dev.spareSwitched (d : Dev) : Dev :=
  let src := d.rd F.SPARE_STATUS_SOURCE
  let v := d.rd F.DEV_STACK_CURRENT_RESERVE
  let d := d.wrs [(F.LEVEL_ROLE_ROLE v, 0), (F.LEVEL_ROLE_SHELF v, d.rd (F.LEVEL_ROLE_SHELF src)), (F.DEV_STACK_CURRENT_RESERVE, 31),
    (F.SPARE_STATUS_STATE, 0)]
  ({ d with rolesDue := none, spareCursor := [] } : Dev).retireLevel src |>.raise .levelSpared (Src.level src)

/-- A sparing abandoned (Table 11.4): the level stays DATA, the reserve becomes RETIRED, CURRENT_RESERVE reads 31. -/
def Dev.spareAbandoned (d : Dev) (cause : Nat) : Dev :=
  let src := d.rd F.SPARE_STATUS_SOURCE
  let v := d.rd F.DEV_STACK_CURRENT_RESERVE
  let d := d.wrs [(F.DEV_STACK_CURRENT_RESERVE, 31), (F.SPARE_STATUS_STATE, 0)]
  (({ d with rolesDue := none, spareCursor := [] } : Dev).retireLevel v |>.raise .reshelveAbandoned (Src.level src)
    [(1, 1), (src, 12), (cause, 4)]).recordRoles

/-- OP ABANDON: of a sparing that is WAKING or COPYING; once the roles record is being written the sparing completes. -/
def Dev.spareAbandon (d : Dev) : Dev :=
  let d := d.spareCtl (d.rd F.SPARE_CTL_LEVEL) 2
  if d.rd F.SPARE_STATUS_STATE = 1 ∨ d.rd F.SPARE_STATUS_STATE = 2 then
    (d.spareAbandoned 2).wr F.SPARE_STATUS_RESULT 0
  else d

/-- SPARE_ABANDON (Table 11.14). -/
def execSpareAbandon (s : State) : Host.Outcome State Fault Refusal := s.next Dev.spareAbandon

/-- OP RETIRE (R288): accepted for any DATA level while no sparing runs. -/
def Dev.levelRetire (d : Dev) (level : Nat) : Dev :=
  let d := d.spareCtl level 1
  if 17 ≤ level ∨ d.role level ≠ 0 ∨ d.retiring.any (fun r => r.1 = level) then d.wr F.SPARE_STATUS_RESULT 2
  else if d.rd F.SPARE_STATUS_STATE ≠ 0 then d.wr F.SPARE_STATUS_RESULT 3
  else (({ d with retiring := d.retiring ++ [(level, none)] } : Dev).wr F.SPARE_STATUS_RESULT 0).recordRoles

/-- LEVEL_RETIRE (R288). -/
def execLevelRetire (level : Fin 32) (s : State) : Host.Outcome State Fault Refusal := s.next fun d => d.levelRetire level

/-! ## Via column swaps and standing erasures (R159, R289, R290) -/

/-- The place of a spare column of a via group: what working column it holds, plus one. -/
def columnKey (shaft group spare : Nat) : Nat := (shaft * 11 + group) * 2 + spare

/-- What a spare column holds. -/
def Dev.columnAt (d : Dev) (shaft group spare : Nat) : Nat := SMap.get 0 d.columns (columnKey shaft group spare)

/-- The spare columns of a via group that are in use or ordered. -/
def Dev.spareTaken (d : Dev) (shaft group spare : Nat) : Bool :=
  d.columnAt shaft group spare ≠ 0 || d.viaOrders.any (fun o => o.shaft = shaft && o.group = group && o.spare = spare)

/-- COLUMNS (Table 11.9) of a shaft with the swaps ordered. -/
def Dev.columnsPayload (d : Dev) (shaft : Nat) : List Nat :=
  (List.range 10).flatMap (fun g => (List.range 2).map (fun sp =>
    match d.viaOrders.find? (fun o => o.shaft = shaft && o.group = g && o.spare = sp) with
    | some o => o.col
    | none => match d.columnAt shaft g sp with
      | 0 => 0xFF
      | n + 1 => n))

/-- A column swap ordered onto a spare: its record first (Table 11.6). -/
def Dev.orderSwap (d : Dev) (shaft group col spare : Nat) : Dev :=
  let d : Dev := { d with viaOrders := d.viaOrders ++ [{ shaft := shaft, group := group, col := col, spare := spare }] }
  d.ledgerRequest { record := recordNo 0x04 shaft, payload := d.columnsPayload shaft }

/-- The eight entries of a bay's ERASURES record with the order given: symbol, levels, valid. -/
def Dev.erasureSet (d : Dev) (bay : Nat) : List (Nat × Nat) :=
  ((List.range 8).filter (fun i => d.flag (F.ERASURE_VALID bay i))).map
    (fun i => (d.rd (F.ERASURE_SYMBOL bay i), d.rd (F.ERASURE_LEVELS bay i)))

/-- A bay's entries once the orders stand: an order for a symbol replaces the entry it has. -/
def Dev.erasuresOrdered (d : Dev) (bay : Nat) : List (Nat × Nat) :=
  (d.erasureOrders.filter (fun o => o.bay = bay)).foldl
    (fun l o => l.filter (fun e => e.1 ≠ o.symbol) ++ [(o.symbol, o.levels)]) (d.erasureSet bay)

/-- ERASURES (Table 11.9): eight words of four bytes in the layout of the register. -/
def erasurePayload (l : List (Nat × Nat)) : List Nat :=
  (List.range 8).flatMap (fun i => match l[i]? with
    | some (sym, levels) => bytesOfNat 4 (2 ^ 31 + levels * 2 ^ 7 + sym)
    | none => [0, 0, 0, 0])

/-- Entries of a bay that name a level. -/
def onLevel (l : List (Nat × Nat)) (level : Nat) : Nat := (l.filter (fun e => e.2.testBit level)).length

/-- A standing erasure ordered on a level and every one below (R289), unless it would be the fifth of a level, or the ninth of the
bay: then that level is spared (R159). -/
def Dev.orderErasure (d : Dev) (bay symbol top : Nat) : Dev :=
  let levels := 2 ^ (top + 1) - 1
  let old := d.erasuresOrdered bay
  let levels := old.foldl (fun n e => if e.1 = symbol then n ||| e.2 else n) levels
  let d' : Dev := { d with erasureOrders := d.erasureOrders ++ [{ bay := bay, symbol := symbol, levels := levels }] }
  let new := d'.erasuresOrdered bay
  let spare := fun l => { d with sparingWanted := if d.sparingWanted.contains l then d.sparingWanted else d.sparingWanted ++ [l] }
  match (List.range 17).find? (fun l => decide (4 < onLevel new l)) with
  | some l => spare l
  | none =>
    if 8 < new.length then spare top
    else d'.ledgerRequest { record := recordNo 0x05 bay, payload := erasurePayload new }

/-- A wire found to fail acted upon (R289). -/
def State.repairWire (s : State) (shaft wire level : Nat) : State :=
  let d := s.dev
  let group := wire / 32
  let col := wire % 32
  if d.viaOrders.any (fun o => o.shaft = shaft && o.group = group && o.col = col) then s
  else
    match (List.range 2).find? (fun sp => !d.spareTaken shaft group sp) with
    | some sp => s.withDev fun d => d.orderSwap shaft group col sp
    | none =>
      let s := s.withDev fun d => d.raise .spareColumnsExhausted Src.device [(shaft, 6), (group, 4)]
      if group = 9 then (s.shaftLost shaft).withDev fun d => d.requireEvacuation 2
      else
        let sym := wire / 4
        let top := (List.range 17).foldl (fun m l => if SMap.get 0 d.symbolCount (symbolKey shaft l sym) ≠ 0 then max m l else m) level
        s.withDev fun d => d.orderErasure shaft sym top

/-- A swap at its boundary (Table 11.6): the selectors switch, an erasure on the symbol goes, and a full calibration pass begins. -/
def Dev.swapColumn (d : Dev) (o : ViaOrder) : Dev :=
  let first := d.columnAt o.shaft o.group 0 = 0 ∧ d.columnAt o.shaft o.group 1 = 0
  let d := { d with columns := SMap.insert (columnKey o.shaft o.group o.spare) (o.col + 1) d.columns }
  let d := if first then d.bump F.DEV_STACK_GROUPS_SPARED else d
  let sym := (o.group * 32 + o.col) / 4
  let d := (List.range 8).foldl (fun d i =>
    if o.group < 9 ∧ d.rd (F.ERASURE_SYMBOL o.shaft i) = sym then
      d.wrs [(F.ERASURE_VALID o.shaft i, 0), (F.ERASURE_SYMBOL o.shaft i, 0), (F.ERASURE_LEVELS o.shaft i, 0)] else d) d
  (d.wrs [(F.SHAFT_STATUS_CAL_RUNNING o.shaft, 1), (F.SHAFT_STATUS_CALIBRATED o.shaft, 0)]).count 0x0715 o.shaft

/-- A standing erasure at its boundary: the bay's entries as ordered. -/
def Dev.setErasures (d : Dev) (bay : Nat) (l : List (Nat × Nat)) : Dev :=
  (List.range 8).foldl (fun d i => match l[i]? with
    | some (sym, levels) => d.wrs [(F.ERASURE_VALID bay i, 1), (F.ERASURE_SYMBOL bay i, sym), (F.ERASURE_LEVELS bay i, levels)]
    | none => d.wrs [(F.ERASURE_VALID bay i, 0), (F.ERASURE_SYMBOL bay i, 0), (F.ERASURE_LEVELS bay i, 0)]) d

/-! ## Row withdrawal (R292) -/

/-- ROW_MAP (Table 11.9) of a bank: for each spare row its logical row, 0x1FFF when free, bit 15 where it has itself been
withdrawn; with one more remap where an open withdrawal is being recorded. -/
def Dev.rowMapPayload (d : Dev) (shaft level bank : Nat) (add : Option (Nat × Nat)) : List Nat :=
  let base := rowKey shaft level bank 0
  let used := d.sparesUsed (bankKey shaft level bank)
  let map := d.rowMap.filter (fun kv => base ≤ kv.1 && kv.1 < base + 6208)
  (List.range 64).flatMap (fun j =>
    let row := match add with
      | some (r, sp) => if sp = j then some r else (map.find? (fun kv => kv.2 = j + 1 && kv.1 - base ≠ r)).map (fun kv => kv.1 - base)
      | none => (map.find? (fun kv => kv.2 = j + 1)).map (fun kv => kv.1 - base)
    bytesOfNat 2 (match row with
      | some r => r
      | none => if used.testBit j then 0x8000 + 0x1FFF else 0x1FFF))

/-- The index of a bank's ROW_MAP record. -/
def rowMapIndex (shaft level bank : Nat) : Nat := level * 1024 + shaft * 16 + bank

/-- Steps 3 and 4 of a withdrawal (Table 11.7): the 32 lines read through their code and written into the spare row, 64 A5 slots;
COPIED is set, and the record requested. -/
def State.withdrawCopy (s : State) (shaft level : Nat) : State :=
  let p := s.dev.shelf (shelfKey shaft level)
  let bay := s.dev.drivingBay shaft
  let row := s.dev.physRow shaft level p.wdBank p.wdRow
  let locOf := fun r i => lineKey shaft level p.wdBank r i
  if ¬ p.wdOpen ∨ p.wdCopied ∨ ¬ s.canServe (locOf row 0) then s
  else
    let s := (List.range 32).foldl (fun s i =>
      let (r, s) := s.bayRead bay (locOf row i) 0 false none
      s.storeLine (locOf (6144 + p.wdSpare) i) (encodeLine r.data r.poison)) s
    s.withDev fun d =>
      let d := (d.charge shaft 5 0 64).setShelf (shelfKey shaft level) fun p => { p with wdCopied := true, wdLine := 32 }
      d.ledgerRequest { record := recordNo 0x06 (rowMapIndex shaft level p.wdBank),
                        payload := d.rowMapPayload shaft level p.wdBank (some (p.wdRow, p.wdSpare)) }

/-- ROW_WITHDRAW_COPY (R292): held while the shelf is RECOVERING and while the safe state holds. -/
def execRowWithdrawCopy (shaft : Fin 64) (level : Fin 17) (s : State) : Host.Outcome State Fault Refusal :=
  .next (if s.dev.flag F.SAFE_STATUS_ACTIVE then s else s.withdrawCopy shaft level)

/-- A shelf whose withdrawal has been recorded (Step 4). -/
def Dev.rowRecorded (d : Dev) (index : Nat) : Dev :=
  let sh := shelfKey (index / 16 % 64) (index / 1024)
  let p := d.shelf sh
  if p.wdOpen ∧ p.wdCopied ∧ p.wdBank = index % 16 ∧ ¬ p.wdRecorded then
    ({ d with rowDue := d.rowDue ++ [(sh, d.time)] } : Dev).setShelf sh fun p => { p with wdRecorded := true }
  else d

/-- The next proposal of a level whose shelf has no withdrawal open is taken up (R291). -/
def Dev.nextProposal (d : Dev) (level : Nat) : Dev :=
  let q := SMap.get [] d.proposals level
  match q.find? (fun p => !(d.shelf (shelfKey p.shaft level)).wdOpen) with
  | some p => ({ d with proposals := SMap.put [] d.proposals level (q.erase p) } : Dev).openWithdrawal p.shaft level p.bank p.row
  | none => d

/-- Step 5 (Table 11.7): the shelf port maps the row to the spare row, and the record closes. -/
def Dev.rowRemap (d : Dev) (sh : Nat) : Dev :=
  let p := d.shelf sh
  let shaft := sh / 17
  let level := sh % 17
  if ¬ p.wdOpen then d
  else
    let d := { d with rowMap := SMap.insert (rowKey shaft level p.wdBank p.wdRow) (p.wdSpare + 1) d.rowMap, recheck := true }
    let d := d.setShelf sh fun p => { p with wdOpen := false, wdBank := 0, wdRow := 0, wdSpare := 0, wdCopied := false, wdLine := 0,
                                             wdRecorded := false }
    (d.count 0x0714 shaft).nextProposal level

/-! ## Orders at a boundary (R44) -/

/-- Whether an event is at least 2 µs before now. -/
def Dev.past2 (d : Dev) (t : Nat) : Bool := decide (t + 2000 ≤ d.time)

/-- The repairs that are due at a lending-period boundary: those whose records were written at least 2 µs before (Tables 11.5 to
11.7, R288). -/
def Dev.repairBoundary (d : Dev) : Dev :=
  let isDue := fun (t : Option Nat) => match t with
    | some t => d.past2 t
    | none => false
  let retire := d.retiring.filter (fun r => isDue r.2)
  let swaps := d.viaOrders.filter (fun o => isDue o.since)
  let erasures := d.erasureOrders.filter (fun o => isDue o.since)
  let rows := d.rowDue.filter (fun r => d.past2 r.2)
  let sw := isDue d.rolesDue
  let d := if sw then d.spareSwitched else d
  let d := retire.foldl (fun d r => d.retireLevel r.1) { d with retiring := d.retiring.filter (fun r => !isDue r.2) }
  let d := swaps.foldl Dev.swapColumn { d with viaOrders := d.viaOrders.filter (fun o => !isDue o.since) }
  let d := (List.range 64).foldl (fun d b =>
    let mine := erasures.filter (fun o => o.bay = b)
    if mine = [] then d
    else d.setErasures b (mine.foldl (fun l o => l.filter (fun e => e.1 ≠ o.symbol) ++ [(o.symbol, o.levels)]) (d.erasureSet b)))
    { d with erasureOrders := d.erasureOrders.filter (fun o => !isDue o.since) }
  rows.foldl (fun d r => d.rowRemap r.1) { d with rowDue := d.rowDue.filter (fun r => !d.past2 r.2) }

/-- The registrar's repairs that wait: wires that failed, sparings wanted (R285, R289). -/
def State.pumpRepair (s : State) : State :=
  let wires := s.dev.viaWanted
  let s := wires.foldl (fun s w => s.repairWire w.1 w.2.1 w.2.2) (s.withDev fun d => { d with viaWanted := [] })
  s.dev.sparingWanted.foldl State.spareAuto s

/-! ## A slot written (R299, R302, R303) -/

/-- What follows the writing of a record (R299, Table 20.12). -/
def Dev.recorded (d : Dev) (record : Nat) (payload : List Nat) : Dev :=
  match record / 2 ^ 16 with
  | 0x03 => d.rolesRecorded payload
  | 0x04 => { d with viaOrders := d.viaOrders.map (fun o =>
      if o.shaft = record % 2 ^ 16 ∧ o.since.isNone ∧ payload.getD (2 * o.group + o.spare) 0xFF = o.col then
        { o with since := some d.time } else o) }
  | 0x05 => { d with erasureOrders := d.erasureOrders.map (fun o =>
      if o.bay = record % 2 ^ 16 ∧ o.since.isNone ∧ (List.range 8).any (fun i => payloadNum payload (4 * i) 4 % 2 ^ 7 = o.symbol ∧
          payloadNum payload (4 * i) 4 / 2 ^ 7 % 2 ^ 17 = o.levels) then { o with since := some d.time } else o) }
  | 0x06 => d.rowRecorded (record % 2 ^ 16)
  | 0x10 => d.wr F.DEV_START_CFG_SAVE 0
  | _ => d

/-- LEDGER_WRITE_DONE (R302, R303): the slot completes. A block that fails its check after the write is retired into the pool, and
the record is written again. -/
def execLedgerWriteDone (ok : Bool) (s : State) : Host.Outcome State Fault Refusal :=
  .next <|
    match s.dev.ledgerWriting with
    | none => s
    | some (req, second) =>
      if ok then
        ({ s with ledger := s.ledger.endWrite req second } : State).withDev fun d =>
          (({ d with ledgerWriting := none } : Dev).count 0x0717 0).recorded req.record req.payload
      else
        let n := recordBlock req.record + second.toNat
        let free := s.dev.rd F.LEDGER_STATUS_SPARE_BLOCKS
        let spare := 59776 + (5760 - free)
        let l := { s.ledger with wearMap := SMap.insert n (s.ledger.physical spare) (SMap.insert spare (s.ledger.physical n) s.ledger.wearMap) }
        ({ s with ledger := if free = 0 then s.ledger else l } : State).withDev fun d =>
          if free = 0 then d else d.wr F.LEDGER_STATUS_SPARE_BLOCKS (free - 1)

/-! ## Lifetime accounting (R306) -/

/-- 2 to the power of q ÷ 40, in units of 2^-16, rounded down: the largest w whose 40th power is at most 2^(640 + q). -/
def lifeWeight (q : Int) : Nat :=
  let e := 640 + q
  if e < 0 then 0
  else
    let top := e.toNat / 40 + 1
    (List.range (top + 1)).foldl (fun w i => let c := w + 2 ^ (top - i); if c ^ 40 ≤ 2 ^ e.toNat then c else w) 0

/-- LIFE_USED of a total: permille of 350,640 hours, saturating. -/
def lifePermille (total : Nat) : Nat := min 2047 (total * 1000 / (350640 * 2 ^ 16))

/-- The LIFE record (Table 11.10): hours and the two totals, in units of 2^-16 hours. -/
def Dev.lifePayload (d : Dev) : List Nat := bytesOfNat 4 d.life.hours ++ bytesOfNat 8 d.life.crown ++ bytesOfNat 8 d.life.levels

/-- The LIFE registers (Table 11.15). -/
def Dev.showLife (d : Dev) : Dev :=
  d.wrs [(F.LIFE_HOURS_HOURS, d.life.hours), (F.LIFE_CROWN_WEIGHTED, d.life.crown / 2 ^ 16), (F.LIFE_LEVELS_WEIGHTED, d.life.levels / 2 ^ 16),
    (F.LIFE_USED_CROWN, lifePermille d.life.crown), (F.LIFE_USED_LEVELS, lifePermille d.life.levels)]

/-- An hour of OPEN time added with the mean temperatures of the hour in quarters of a degree (R306). -/
def Dev.lifeHour (d : Dev) (crown levels : Int) : Dev :=
  let rated := fun (d : Dev) => decide (1000 ≤ lifePermille d.life.crown) || decide (1000 ≤ lifePermille d.life.levels)
  let before := rated d
  let d := { d with life.hours := d.life.hours + 1, life.crown := d.life.crown + lifeWeight (crown - 320),
                    life.levels := d.life.levels + lifeWeight (levels - 340) }
  let d := d.showLife
  let d := d.ledgerRequest { record := recordNo 0x20 0, payload := d.lifePayload }
  d.raiseIf (rated d && !before) .lifeRatingReached Src.device

/-- LIFE_RECORD (R306). -/
def execLifeRecord (crown levels : Int) (s : State) : Host.Outcome State Fault Refusal := s.next fun d => d.lifeHour crown levels

end Sys2Proof.Machine
end

