-- ==== Sys2Proof/Machine/Pace.lean ====
section
/-!
DEFINITION. Pace regulation (R58 to R61), the time base and its local counts (R67, R68, R70, R398).
-/

namespace Sys2Proof.Machine

open Sys2Proof

/-! ## Pace zones (Table 3.3) -/

/-- The run lengths of a zone. -/
def Dev.paceRuns (d : Dev) (z : Nat) : PaceZone := SMap.get {} d.pace z

/-- The lowest of a zone's four monitors in the window, saturating at 4,095 (R58). -/
def zonePace (counts : List Nat) (z : Nat) : Nat :=
  min 4095 ((List.range 4).foldl (fun m i => min m (counts.getD (4 * z + i) 0)) 4095)

/-- The regulator code after a window (Table 3.3): 4 to 60, two steps up below the guard, one down after eight windows above the
hold band. -/
def nextVolt (volt p highRun : Nat) : Nat :=
  if p < 3360 then min 60 (volt + 2) else if highRun = 8 then max 4 (volt - 1) else volt

/-- One zone at the end of a window (R59, R60): regulation, PACE_CEILING on reaching the ceiling's hold, PACE_LOW after two windows
below the floor, its end after sixteen at or above it, and PACE_COLLAPSE. -/
def Dev.paceZone (d : Dev) (z p : Nat) : Dev :=
  let was := d.paceRuns z
  let high := if 3680 ≤ p then was.highRun + 1 else 0
  let low := if p < 3200 then was.lowRun + 1 else 0
  let ok := if 3200 ≤ p then was.okRun + 1 else 0
  let volt := d.rd (F.PACE_ZONE_VOLT z)
  let ceiling := decide (p < 3360) && volt = 60
  let below := d.flag (F.PACE_ZONE_BELOW_FLOOR z)
  let isLow := !below && decide (2 ≤ low)
  let clears := below && decide (16 ≤ ok)
  let d := { d with
    pace := SMap.put {} d.pace z { highRun := if high = 8 then 0 else high, lowRun := low, okRun := min 16 ok },
    recheck := d.recheck || (decide (z < 8) && (isLow || clears || (below && d.rd (F.PACE_ZONE_PACE z) ≠ p))) }
  let d := d.raiseIf (ceiling && !d.flag (F.PACE_ZONE_AT_CEILING z)) .paceCeiling (Src.environment z)
  let d := d.raiseIf isLow .paceLow (Src.environment z)
  let d := d.raiseIf (decide (p < 2800)) .paceCollapse (Src.environment z)
  d.wrs [(F.PACE_ZONE_PACE z, p), (F.PACE_ZONE_VOLT z, nextVolt volt p high), (F.PACE_ZONE_GUARD z, (decide (p < 3360)).toNat),
    (F.PACE_ZONE_BELOW_FLOOR z, ((below && !clears) || isLow).toNat), (F.PACE_ZONE_AT_CEILING z, ceiling.toNat)]

/-- SAFE_STATUS.PACE: a zone below 2,800 counts (R450). -/
def Dev.showPaceCause (d : Dev) : Dev :=
  d.put F.SAFE_STATUS_PACE ((List.range 16).any (fun z => d.pace.any (fun kv => kv.1 = z) && decide (d.rd (F.PACE_ZONE_PACE z) < 2800)))

/-- PACE_WINDOW (R59): the counts of the 64 monitors, four to a zone. While HP2's gate is closed the regulators hold their settings
(R393). -/
def execPaceWindow (counts : List Nat) (s : State) : Host.Outcome State Fault Refusal :=
  s.next fun d =>
    let volts := (List.range 16).map (fun z => d.rd (F.PACE_ZONE_VOLT z))
    let hold := !d.flag (F.CLK_PLL_STATUS_GATE_OPEN 2)
    let d := ((List.range 16).foldl (fun d z => d.paceZone z (zonePace counts z)) d).showPaceCause
    if hold then (List.range 16).foldl (fun d z => d.wr (F.PACE_ZONE_VOLT z) (volts.getD z 36)) d else d

/-! ## The time base (R67, R68) -/

/-- The source of a die's faults: 0 to 16 the levels, 17 the foot. -/
def dieSource (die : Nat) : Nat := if die < 17 then Src.level die else Src.foot 0

/-- LOCAL_TIME_CHECK (R67): every die's local count against the time base; a difference above 8 ns is a fault of that die, and its
count is loaded at the next boundary. -/
def execLocalTimeCheck (counts : List Nat) (s : State) : Host.Outcome State Fault Refusal :=
  s.next fun d =>
    (List.range 18).foldl (fun d die =>
      let n := counts.getD die d.time
      let d := { d with localCount := SMap.insert die n d.localCount }
      if n + 8 < d.time ∨ d.time + 8 < n then
        ({ d with localReload := d.localReload.filter (· ≠ die) ++ [die] } : Dev).raise .localTimeMismatch (dieSource die)
      else d) d

/-- TB_TIME_LO_READ (R68): the upper half is captured. -/
def execTbTimeLoRead (s : State) : Host.Outcome State Fault Refusal := s.next fun d => d.wr F.TB_TIME_HI_TIME (d.time / 2 ^ 32)

/-- The local counts loaded with the time base. -/
def Dev.loadLocal (d : Dev) (dies : List Nat) : Dev :=
  dies.foldl (fun d die => { d with localCount := SMap.insert die d.time d.localCount }) d

/-! ## Steps and slews (R70, R398) -/

/-- The time base moved by a correction. A forward move takes the marks it passes over (R469); after a backward one the marks behind
it come again. -/
def Dev.moveTime (d : Dev) (by_ : Int) : Dev :=
  let t := ((d.time : Int) + by_).toNat
  let d := { d with time := t }
  if by_ < 0 then { d with lastMs := min d.lastMs (t / 1000000 * 1000000) } else d.leafMarks (by_.toNat / 1000000 + 1)

/-- A step applied at a boundary (R70): a whole multiple of 8,000 ns. The local counts are loaded, and the next statement is marked
with a time discontinuity. -/
def Dev.applyStep (d : Dev) : Dev :=
  if d.stepOrdered = 0 then d
  else
    let n := d.stepOrdered
    let d := ({ d with stepOrdered := 0, stmt.disc := true } : Dev).moveTime n
    let d := (d.wrs ([(F.TB_STATUS_STEPPED, 1)] ++ (if n < 0 then [(F.TB_STATUS_BACKWARD, 1)] else []))).bump F.TB_STATUS_STEPS
    d.loadLocal (List.range 18)

/-- A correction found by the collection's agreement on time (R70, R377, R398): whole multiples of 8,000 ns are stepped at the next
boundary, the remainder is slewed. -/
def Dev.correctTime (d : Dev) (err : Int) : Dev :=
  let whole := Int.tdiv err 8000 * 8000
  let rest := err - whole
  ({ d with stepOrdered := whole, slewRest := rest } : Dev).wr F.TB_STATUS_SLEWING (if rest = 0 then 0 else 1)

/-- TB_SLEW_COMPLETE (R70): the remainder has been slewed out. -/
def execTbSlewComplete (s : State) : Host.Outcome State Fault Refusal :=
  s.next fun d => (({ d with slewRest := 0 } : Dev).moveTime d.slewRest).wr F.TB_STATUS_SLEWING 0

end Sys2Proof.Machine
end

