-- ==== Sys2Proof/Machine/Lanes.lean ====
section
/-!
DEFINITION. Serial lanes (R308 to R329): block coding, training and the step ladder, equalisation, recovery, lane sparing, and a
link's loss of its protocol state (R340).
-/

namespace Sys2Proof.Machine

open Sys2Proof

/-! ## Places -/

/-- The state of a link (Table 12.3). -/
def Dev.lst (d : Dev) (l : Nat) : Nat := d.rd (F.PORT_LINK_STATE (l / 4) (l % 4))

/-- The state of a link set. -/
def Dev.setLst (d : Dev) (l st : Nat) : Dev := d.wr (F.PORT_LINK_STATE (l / 4) (l % 4)) st

/-- A link's training. -/
def Dev.tr (d : Dev) (l : Nat) : Training := SMap.get {} d.training l

/-- A link's training changed. -/
def Dev.setTr (d : Dev) (l : Nat) (f : Training → Training) : Dev := { d with training := SMap.modify {} d.training l f }

/-- A receive lane of a port. -/
def Dev.rx (d : Dev) (p lane : Nat) : LaneRx := SMap.get {} d.laneRx (p * 18 + lane)

/-- A receive lane changed. -/
def Dev.setRx (d : Dev) (p lane : Nat) (f : LaneRx → LaneRx) : Dev := { d with laneRx := SMap.modify {} d.laneRx (p * 18 + lane) f }

/-- The transmitter of a link's logical lane. -/
def Dev.tx (d : Dev) (l j : Nat) : LaneTx := SMap.get {} d.laneTx (l * 16 + j)

/-- The transmitter of a logical lane changed. -/
def Dev.setTx (d : Dev) (l j : Nat) (f : LaneTx → LaneTx) : Dev := { d with laneTx := SMap.modify {} d.laneTx (l * 16 + j) f }

/-- A link's protocol state. -/
def Dev.linkSt (d : Dev) (l : Nat) : LinkSt := SMap.get {} d.links l

/-- A link's protocol state changed. -/
def Dev.setLinkSt (d : Dev) (l : Nat) (f : LinkSt → LinkSt) : Dev := { d with links := SMap.modify {} d.links l f }

/-- The full width of a link's port. -/
def Dev.fullWidth (d : Dev) (l : Nat) : Nat := modeWidth (d.rd (F.PORT_CTL_MODE (l / 4)))

/-- The source of a link's faults. -/
def srcOf (l : Nat) : Nat := Src.link (l / 4) (l % 4)

/-- The quarters in use: all, a half or a quarter (R323). -/
def quartersOf (width part : Nat) : List Nat :=
  if width = 1 then [2 * part, 2 * part + 1] else if width = 2 then [part] else [0, 1, 2, 3]

/-- The quarter of a logical lane (Table 12.2). -/
def Dev.quarter (d : Dev) (l j : Nat) : Nat := 4 * j / d.fullWidth l

/-- The logical lanes of the width in use (R308, R323), before renumbering. -/
def Dev.lanesOf (d : Dev) (l : Nat) : List Nat :=
  let q := quartersOf (d.rd (F.PORT_LINK_WIDTH (l / 4) (l % 4))) (d.rd (F.PORT_LINK_PART (l / 4) (l % 4)))
  (List.range (d.fullWidth l)).filter (fun j => q.contains (d.quarter l j))

/-! ## Lane maps (R308, R326, Table 12.11) -/

/-- The fields of one spare in one direction's lane map: the lane carried, used, failed. -/
def mapField (recv : Bool) (second : Bool) (p : Nat) : Field × Field × Field :=
  match recv, second with
  | false, false => (F.LANE_MAP_TX_S0_LANE p, F.LANE_MAP_TX_S0_USED p, F.LANE_MAP_TX_S0_FAILED p)
  | false, true => (F.LANE_MAP_TX_S1_LANE p, F.LANE_MAP_TX_S1_USED p, F.LANE_MAP_TX_S1_FAILED p)
  | true, false => (F.LANE_MAP_RX_S0_LANE p, F.LANE_MAP_RX_S0_USED p, F.LANE_MAP_RX_S0_FAILED p)
  | true, true => (F.LANE_MAP_RX_S1_LANE p, F.LANE_MAP_RX_S1_USED p, F.LANE_MAP_RX_S1_FAILED p)

/-- The mask of failed working lanes of a direction. -/
def failedField (recv : Bool) (p : Nat) : Field := if recv then F.LANE_MAP_RX_FAILED p else F.LANE_MAP_TX_FAILED p

/-- Whether a spare stands by in a direction. -/
def Dev.spareFree (d : Dev) (recv second : Bool) (p : Nat) : Bool :=
  let (_, u, f) := mapField recv second p
  !d.flag u && !d.flag f

/-- The lowest-numbered spare in standby in a direction, where SPARE_EN allows a move. -/
def Dev.standby (d : Dev) (recv : Bool) (p : Nat) : Option Bool :=
  if ¬ d.flag (F.PORT_CTL_SPARE_EN p) then none
  else if d.spareFree recv false p then some false
  else if d.spareFree recv true p then some true else none

/-- The spare that carries a port logical lane in a direction. -/
def Dev.carriedBy (d : Dev) (recv : Bool) (p n : Nat) : Option Bool :=
  [false, true].find? (fun sp => let (a, u, _) := mapField recv sp p; d.flag u && d.rd a = n)

/-- LANES (Table 11.9): the two lane maps, four bytes each. -/
def Dev.lanesPayload (d : Dev) (p : Nat) : List Nat :=
  [false, true].flatMap (fun recv =>
    let half := fun (sp : Bool) => let (a, u, _) := mapField recv sp p; d.rd a + 32 * d.rd u
    [half false, half true] ++ bytesOfNat 2 (d.rd (failedField recv p)))

/-- A logical lane of a link moved onto a spare (R326): the old physical lane is marked failed, the move is reported and recorded. -/
def Dev.moveLane (d : Dev) (recv : Bool) (l j old : Nat) (sp : Bool) : Dev :=
  let p := l / 4
  let n := l % 4 * d.fullWidth l + j
  let d := match d.carriedBy recv p n with
    | some was => let (a, u, f) := mapField recv was p; d.wrs [(a, 0), (u, 0), (f, 1)]
    | none => if old < 16 then d.wr (failedField recv p) (d.rd (failedField recv p) ||| 2 ^ old) else d
  let (a, u, _) := mapField recv sp p
  let d := (d.wrs [(a, n), (u, 1)]).count 0x0004 p
  (d.raise .laneSpared (Src.port p) [(old, 5), (sp.toNat, 1), (recv.toNat, 1)]).ledgerRequest
    { record := recordNo 0x08 p, payload := d.lanesPayload p }

/-- The physical receive lane that carries a logical lane of a link. -/
def Dev.physRx (d : Dev) (l j : Nat) : Nat :=
  let p := l / 4
  let w := d.fullWidth l
  let k := l % 4
  match d.carriedBy true p (k * w + j) with
  | some sp => 16 + sp.toNat
  | none => ((List.range w).find? (fun i => d.rd (F.LANE_ERR_LOGICAL p (k * w + i)) = j && (d.rx p (k * w + i)).acqRun ≠ 0)).map
      (fun i => k * w + i) |>.getD (k * w + j)

/-- The link a receive lane belongs to: a working lane's own; a spare's by its map, by the move under way, or link p.0 (R319). -/
def Dev.laneLink (d : Dev) (p lane : Nat) (j : Option Nat) : Nat :=
  let w := modeWidth (d.rd (F.PORT_CTL_MODE p))
  if lane < 16 then 4 * p + lane / w
  else
    let (a, u, _) := mapField true (lane = 17) p
    if d.flag u then 4 * p + d.rd a / w
    else match (List.range 4).find? (fun k => j.isSome && (d.tr (4 * p + k)).move = j) with
      | some k => 4 * p + k
      | none => 4 * p

/-! ## Loss of a link's state (R340) -/

/-- A link without link: requests of a link whose state was discarded keep their effect and lose their reply (R340). -/
def noLink (l : Nat) : Nat := l + 512

/-- A request whose link has discarded its state. -/
def Req.orphan (q : Req) (l : Nat) : Req := if q.link = l then { q with link := noLink l } else q

/-- A link that leaves UP or RECOVER by any way but the switch point (R340): its state is discarded, replies to its requests are
too, its host writes without an answer fail, its host reads stay unanswered. Flits in transit keep their place before the next link. -/
def State.linkLost (s : State) (l : Nat) : State :=
  s.withDev fun d =>
    let writes := d.hostOps.filter (fun o => o.link = l && o.lines = 0)
    let d : Dev := { d with
      links := SMap.put {} (SMap.mapV {} (fun _ x => { x with transit := x.transit.map fun f => (if f.1 = l then noLink l else f.1, f.2) })
        d.links) l { transit := (d.linkSt l).transit },
      out := d.out.filter (fun o => o.1 ≠ l ∨ o.2.op = 0x23),
      held := d.held.map (fun h => { h with req := h.req.orphan l }),
      walks := d.walks.map (fun kw => (kw.1, { kw.2 with reqs := kw.2.reqs.map (·.orphan l) })),
      forwards := d.forwards.map (fun f => { f with req := f.req.orphan l }),
      fences := d.fences.filter (fun f => f.link ≠ l),
      urgency := SMap.put 0 d.urgency l 0 }
    let p := l / 4
    let k := l % 4
    let d := d.wrs [(F.FLIT_STATUS_TX_SEQ p k, 0), (F.FLIT_STATUS_EXPECTED p k, 0), (F.FLIT_STATUS_UNANSWERED p k, 0),
      (F.FLIT_STATUS_NAK_PENDING p k, 0), (F.FLIT_STATUS_REPLAYING p k, 0)]
    let d := writes.foldl (fun d o => if d.hostOps.contains o then d.writeFailed o else d) d
    d.raise .linkDown (srcOf l)

/-! ## Entering states (Table 12.3) -/

/-- The starting preset of a step (Table 12.5): pre and post. -/
def presetOf : Nat → Nat × Nat
  | 0 => (0, 0) | 1 => (0, 4) | 2 => (0, 8) | 3 => (2, 6) | 4 => (0, 12) | 5 => (4, 8) | 6 => (2, 14) | _ => (6, 12)

/-- The preset a step starts from. -/
def startPreset (step : Nat) : Nat := if step ≤ 2 then 0 else if step = 3 then 1 else if step = 4 then 3 else 5

/-- The receive lanes a link may use: its own working lanes, and the spares of the port. -/
def Dev.rxLanes (d : Dev) (l : Nat) : List Nat :=
  let w := d.fullWidth l
  (List.range w).map (fun i => l % 4 * w + i) ++ ([16, 17].filter (fun i => d.laneLink (l / 4) i none = l))

/-- The runs that a state counts start again. -/
def Dev.clearRuns (d : Dev) (l : Nat) : Dev :=
  (d.rxLanes l).foldl (fun d i => d.setRx (l / 4) i fun r =>
    { r with run := 0, prbs := none, prbsSeen := 0, prbsErr := 0, seedPos := 0, seedGood := 0, seed := 0 }) d

/-- The receivers of a link look for block lock again. -/
def Dev.clearLock (d : Dev) (l : Nat) : Dev :=
  (d.rxLanes l).foldl (fun d i => (d.setRx (l / 4) i fun r => { r with good := 0, errs := 0, acqKey := 0, acqRun := 0 }).wr
    (F.LANE_ERR_LOCKED (l / 4) i) 0) d

/-- ACQUIRE at a step: transmitters start from the step's preset (R324). -/
def Dev.acquire (d : Dev) (l step : Nat) : Dev :=
  let d := (d.setLst l 2).wr (F.PORT_LINK_STEP (l / 4) (l % 4)) step
  let (pre, post) := presetOf (startPreset step)
  let d := (List.range (d.fullWidth l)).foldl (fun d j => d.setTx l j fun _ => { pre := pre, post := post }) d
  ((d.clearRuns l).clearLock l).setTr l fun t => { t with modeBad := false }

/-- DETECT (Table 12.3): a link that left UP or RECOVER loses its state; training starts from Step 0 with the MAX_STEP of CTL. A
DISABLED link, and a HALTED one, stay. -/
def State.toDetect (s : State) (l : Nat) (retrain : Bool) : State :=
  let st := s.dev.lst l
  if st = 0 ∨ st = 9 then s
  else
    let s := if st = 7 ∨ st = 8 then s.linkLost l else s
    State.linkGone (l := l) <| s.withDev fun d =>
      let p := l / 4
      let k := l % 4
      let d := (d.setLst l 1).wrs [(F.PORT_LINK_STEP p k, 0), (F.PORT_LINK_WIDTH p k, 3), (F.PORT_LINK_PART p k, 0),
        (F.PORT_LINK_FAILED_STEP p k, 7)]
      let d := d.setTr l fun t => { maxStep := d.rd (F.PORT_CTL_MAX_STEP p), recoveries := t.recoveries }
      let d := (d.clearRuns l).clearLock l
      (d.count 0x0006 (l / 4)).raiseIf retrain .linkRetrain (srcOf l)

/-- DISABLED (Table 12.3). -/
def State.toDisabled (s : State) (l : Nat) : State :=
  let st := s.dev.lst l
  let s := if st = 7 ∨ st = 8 then s.linkLost l else s
  State.linkGone (l := l) <| s.withDev fun d =>
    let p := l / 4
    let k := l % 4
    let d := (d.setLst l 0).wrs [(F.PORT_LINK_STEP p k, 0), (F.PORT_LINK_WIDTH p k, 3), (F.PORT_LINK_PART p k, 0)]
    ((d.clearRuns l).clearLock l).setTr l fun _ => {}

/-- HALTED in the safe state (R355): HALT is sent by a link that was UP or in RECOVER. -/
def State.toHalted (s : State) (l : Nat) : State :=
  let st := s.dev.lst l
  if st = 0 ∨ st = 9 then s
  else
    let s := if st = 7 ∨ st = 8 then s.linkLost l else s
    State.linkGone (l := l) <| s.withDev fun d => ((d.setLst l 9).clearRuns l).clearLock l

/-- A DISABLED link of an enabled port begins; a HALTED one goes on when the safe state ends. -/
def State.startLink (s : State) (l : Nat) : State :=
  (s.withDev fun d => d.setLst l 1).toDetect l false

/-- TRAIN_FAIL with its cause, 0 MODE, 1 LANES, 2 TIMEOUT: the link returns to DETECT. -/
def State.trainFail (s : State) (l cause : Nat) : State :=
  (s.withDev fun d => d.raise .trainFail (srcOf l) [(cause, 4)]).toDetect l false

/-- A phase that has failed (R321, Table 12.3): at Step 0 the link returns to DETECT; above it the step is tried once more, then the
target falls. -/
def State.phaseFailed (s : State) (l : Nat) : State :=
  let t := s.dev.tr l
  let n := s.dev.rd (F.PORT_LINK_STEP (l / 4) (l % 4))
  if n = 0 then s.trainFail l (if t.modeBad then 0 else 2)
  else if t.tries = 0 then (s.withDev fun d => (d.setTr l fun t => { t with tries := 1 }).acquire l n)
  else s.withDev fun d =>
    let d := (d.setTr l fun t => { t with tries := 0, limit := n - 1 }).wr (F.PORT_LINK_FAILED_STEP (l / 4) (l % 4)) n
    (d.raise .linkStepLimited (srcOf l) [(n, 4)]).acquire l (n - 1)

/-- The target step of a link (R319). -/
def Dev.target (d : Dev) (l : Nat) : Nat := let t := d.tr l; min t.maxStep (min t.farMax t.limit)

/-! ## Widths (R322, R323) -/

/-- The QUARTERS this end sends: those without a logical lane that it lacks. -/
def Dev.ownQuarters (d : Dev) (l : Nat) : Nat :=
  (List.range 4).foldl (fun n q => if (d.tr l).missing.any (fun j => d.quarter l j = q) then n else n + 2 ^ q) 0

/-- Width and part from the AND of the two QUARTERS (R323); none where no width qualifies. -/
def chooseWidth (mode q : Nat) (degrade : Bool) : Option (Nat × Nat) :=
  if q = 15 then some (0, 0)
  else if ¬ degrade then none
  else match (List.range 2).find? (fun h => q.testBit (2 * h) && q.testBit (2 * h + 1)) with
    | some h => some (1, h)
    | none => if mode = 0 then ((List.range 4).find? (fun i => q.testBit i)).map (fun i => (2, i)) else none

/-! ## UP (R317, R336, R340, R341, R342, R364) -/

/-- The receive buffer of a class: host links REQ, RSP, DEV by width (R342), peer links LOCAL, DOWN, UP (Table 14.1). -/
def Dev.bufferSize (d : Dev) (l cls : Nat) : Nat :=
  if d.peerPort (l / 4) then (if cls = 0 then 528 else 480)
  else
    let w := d.fullWidth l
    if cls = 0 then 1008 * w / 16 else if cls = 1 then 512 * w / 16 else 0

/-- The seeds that a transmitter draws at an entry to stuffed coding (R315): fresh, never 0, and free. -/
def Dev.drawSeeds (d : Dev) (l : Nat) : Dev :=
  (d.lanesOf l).foldl (fun d j =>
    let (v, d) := d.fresh
    d.setTx l j fun t => { t with scr := v.toNat % (2 ^ 31 - 1) + 1, runLen := 0, prev := false }) d

/-- UP at the switch point: after DETECT the protocol starts; after RECOVER replay begins as if for a NAK (R340). -/
def Dev.toUp (d : Dev) (l : Nat) : Dev :=
  let d := d.setLst l 7
  let d := (d.rxLanes l).foldl (fun d i => (d.setRx (l / 4) i fun r => { r with scr := r.seed, runLen := 0, prev := false }).wr
    (F.LANE_ERR_LOCKED (l / 4) i) 1) d
  let d := d.setTr l fun t => { t with tries := 0, move := none }
  if (d.linkSt l).live then d.setLinkSt l fun x => { x with replayAt := if x.replay = [] then none else some 0, crcRun := 0 }
  else
    let size := [0, 1, 2].map (d.bufferSize l)
    d.setLinkSt l fun x => { live := true, freed := size, transit := x.transit }

/-! ## Recovery (R325, R326) -/

/-- An UP end enters recovery; a fourth within 10 ms returns the link to DETECT. -/
def State.recover (s : State) (l : Nat) : State :=
  if s.dev.lst l ≠ 7 then s
  else
    let now := s.dev.time
    let recent := (s.dev.tr l).recoveries.filter (fun t => decide (now < t + 10000000)) ++ [now]
    let s := s.withDev fun d => ((d.setTr l fun t => { t with recoveries := recent }).bump (F.PORT_LINK_RECOVERIES (l / 4) (l % 4))).count 0x0003 (l / 4)
    if 4 ≤ recent.length then (s.withDev fun d => d.setTr l fun t => { t with recoveries := [] }).toDetect l true
    else s.withDev fun d => ((d.setLst l 8).clearRuns l).clearLock l

/-- A lane found failed: a move is asked for while a spare stands by; with none left the link trains at a reduced width (R326). -/
def State.askMove (s : State) (l j : Nat) : State :=
  let p := l / 4
  if (s.dev.standby true p).isSome then
    (s.withDev fun d => d.setTr l fun t => { t with move := some j }).recover l
  else
    let s := (s.withDev fun d => d.raise .sparesExhausted (Src.port p)).toDetect l false
    s.withDev fun d => d.setTr l fun t => { t with missing := t.missing.filter (· ≠ j) ++ [j] }

/-! ## Blocks (R311 to R313) -/

/-- A payload descrambled with the lane's history (R311): the payload, and the 58 bits kept. -/
def descramble (hist payload : Nat) : Nat × Nat :=
  (List.range 64).foldl (fun (a : Nat × Nat) i =>
    let y := (payload.testBit i)
    let x := (y ^^ a.2.testBit 38) ^^ a.2.testBit 57
    (a.1 + x.toNat * 2 ^ i, (a.2 * 2 + y.toNat) % 2 ^ 58)) (0, hist)

/-- The CRC-8 of an ordered block (R312). -/
def crc8 (bytes : List Nat) : Nat := crc 8 0x07 0 bytes

/-- Whether a payload is a valid ordered block (R312, Table 12.1). -/
def ordered (x : Nat) : Bool :=
  let b := bytesOfNat 8 x
  ([0x1E, 0x33, 0x66].contains (b.getD 0 0)) && crc8 (b.take 7) = b.getD 7 0

/-- PRBS31 checked over a payload, self-seeding (R313): the window kept, and the bits found wrong. -/
def prbsCheck (w : Option Nat) (payload : Nat) : Nat × Nat :=
  (List.range 64).foldl (fun (a : Nat × Nat) i =>
    let b := payload.testBit i
    let bad := (w.isSome || decide (31 ≤ i)) && (b != (a.1.testBit 30 ^^ a.1.testBit 27))
    ((a.1 * 2 + b.toNat) % 2 ^ 31, a.2 + bad.toNat)) (w.getD 0, 0)

/-- A lane error counted (Table 12.12). -/
def Dev.laneError (d : Dev) (p lane : Nat) : Dev := d.bump (F.LANE_ERR_ERRORS p lane)

/-- A header taken into the lane's block lock (R311): lock after 64 without an error, lost at 16 errors within 64. -/
def Dev.header (d : Dev) (p lane : Nat) (bad : Bool) : Dev :=
  let r := d.rx p lane
  let errs := (r.errs * 2 + bad.toNat) % 2 ^ 64
  let good := if bad then 0 else min 64 (r.good + 1)
  let lost := decide (16 ≤ popCount errs 64)
  let d := d.setRx p lane fun r => { r with good := if lost then 0 else good, errs := if lost then 0 else errs }
  let d := if bad then (d.laneError p lane).count 0x0002 p else d
  if lost then d.wr (F.LANE_ERR_LOCKED p lane) 0 else if good = 64 then d.wr (F.LANE_ERR_LOCKED p lane) 1 else d

/-- Whether a link's receivers take blocks: in block coding. -/
def takesBlocks (st : Nat) : Bool := [2, 3, 4, 5, 6, 8].contains st

/-! ## TS blocks (Table 12.2, R319 to R327) -/

/-- A field of a TS block: byte, lowest bit, width. -/
def tsField (x byte lo w : Nat) : Nat := x / 2 ^ (8 * byte + lo) % 2 ^ w

/-- One tap after a request (R324): its value, and the status answered. -/
def tapStep (v lim req room : Nat) : Nat × Nat :=
  if req = 1 then (if lim ≤ v ∨ room = 0 then (v, 3) else (v + 1, 1))
  else if req = 2 then (if v = 0 then (v, 2) else (v - 1, 1)) else (v, 0)

/-- A far receiver's request on a logical lane (R324): a new one starts only from status 0; a hold returns the status to 0. -/
def LaneTx.request (t : LaneTx) (x : Nat) : LaneTx :=
  if tsField x 4 7 1 = 1 then
    if t.stPre = 0 ∧ t.stPost = 0 then
      let (a, b) := presetOf (tsField x 4 4 3)
      { t with pre := a, post := b, stPre := 1, stPost := 1 }
    else t
  else
    let room := 24 - (t.pre + t.post)
    let rp := tsField x 4 0 2
    let ro := tsField x 4 2 2
    let t := if rp = 0 then { t with stPre := 0 }
      else if t.stPre = 0 then let (v, st) := tapStep t.pre 8 rp room; { t with pre := v, stPre := st } else t
    let room := 24 - (t.pre + t.post)
    if ro = 0 then { t with stPost := 0 }
    else if t.stPost = 0 then let (v, st) := tapStep t.post 16 ro room; { t with post := v, stPost := st } else t

/-- This end's own requests on a logical lane (R324): set while the far status reads 0, dropped once it does not. -/
def LaneTx.ask (t : LaneTx) (x : Nat) (a : Adapt) : LaneTx :=
  let sp := tsField x 5 0 2
  let so := tsField x 5 2 2
  { t with eqDone := a.done, farPre := sp, farPost := so, reqPre := if sp = 0 then a.pre.val else 0,
           reqPost := if so = 0 then a.post.val else 0 }

/-- A move asked for by the far end (R326): this end's transmitter moves the lane onto its lowest spare in standby. -/
def State.farMove (s : State) (l x : Nat) : State :=
  let on := tsField x 6 5 1 = 1
  let j := tsField x 6 0 5
  let t := s.dev.tr l
  if ¬ on then s.withDev fun d => d.setTr l fun t => { t with moved := none }
  else if t.moved = some j ∨ s.dev.fullWidth l ≤ j then s
  else
    let s := s.withDev fun d => d.setTr l fun t => { t with moved := some j }
    match s.dev.standby false (l / 4) with
    | some sp => s.withDev fun d => d.moveLane false l j (l % 4 * d.fullWidth l + j) sp
    | none => (s.withDev fun d => d.raise .sparesExhausted (Src.port (l / 4))).toDetect l false

/-- Whether a TS meets the condition that the state counts in a row (Tables 12.3, 12.4, 12.6). -/
def tsCounts (st x : Nat) : Bool :=
  let phase := tsField x 2 5 3
  if st = 3 then tsField x 5 4 1 = 1
  else if st = 4 then phase = 2 || phase = 3
  else if st = 5 then phase = 3
  else if st = 8 then phase = 2 else false

/-- A logical lane's receive lane meets a condition. -/
def Dev.everyLane (d : Dev) (l : Nat) (f : LaneRx → Bool) : Bool := (d.lanesOf l).all (fun j => f (d.rx (l / 4) (d.physRx l j)))

/-- SEED (Table 12.3): the transmitters draw their seeds. -/
def Dev.toSeed (d : Dev) (l : Nat) : Dev := ((d.setLst l 6).clearRuns l).drawSeeds l

/-- ACQUIRE ends (Table 12.4): 8 intact TS on each lane, and 16 sent since, counted as 16 more received. -/
def State.acquireDone (s : State) (l : Nat) : State :=
  let d := s.dev
  let p := l / 4
  let k := l % 4
  match chooseWidth (d.rd (F.PORT_CTL_MODE p)) (d.ownQuarters l &&& (d.tr l).farQuarters) (d.flag (F.PORT_CTL_DEGRADE_EN p)) with
  | none => if (d.tr l).modeBad then s else s.trainFail l 1
  | some (w, part) =>
    let d' := d.wrs [(F.PORT_LINK_WIDTH p k, w), (F.PORT_LINK_PART p k, part)]
    let locked := (d'.lanesOf l).all (fun j => d'.flag (F.LANE_ERR_LOCKED p (d'.physRx l j)))
    if ¬ (locked ∧ d'.everyLane l (fun r => decide (24 ≤ r.acqRun))) then s
    else
      let first := d.rd (F.PORT_LINK_WIDTH p k) ≠ w
      { s with dev := ((d'.raiseIf (decide (w ≠ 0) && first) .linkDegraded (srcOf l) [(w, 2)]).setLst l 3).clearRuns l }

/-- What a link's state makes of the TS received so far. -/
def State.tsProgress (s : State) (l x : Nat) : State :=
  let d := s.dev
  let st := d.lst l
  let all8 := d.everyLane l (fun r => decide (8 ≤ r.run))
  let clean := d.everyLane l (fun r => r.prbsErr = 0)
  if st = 2 then s.acquireDone l
  else if st = 3 then
    if all8 ∧ (d.lanesOf l).all (fun j => (d.tx l j).eqDone) then s.withDev fun d => (d.setLst l 4).clearRuns l else s
  else if st = 4 then
    let started := (d.lanesOf l).any (fun j => (d.rx (l / 4) (d.physRx l j)).prbsSeen ≠ 0)
    if (tsField x 2 5 3 = 1 ∧ started) ∨ (all8 ∧ ¬ clean) then s.phaseFailed l
    else if all8 then
      if d.rd (F.PORT_LINK_STEP (l / 4) (l % 4)) < d.target l then s.withDev fun d => (d.setLst l 5).clearRuns l
      else s.withDev fun d => d.toSeed l
    else s
  else if st = 8 then (if all8 ∧ clean then s.withDev fun d => d.toSeed l else s)
  else s

/-- An intact TS on a receive lane (Table 12.2). -/
def State.tsReceived (s : State) (p lane x : Nat) (a : Adapt) : State :=
  let j := tsField x 2 0 5
  let l := s.dev.laneLink p lane (some j)
  if ¬ takesBlocks (s.dev.lst l) then s
  else
    let s := s.withDev fun d =>
      let mode := tsField x 3 0 2
      let bad := mode ≠ d.rd (F.PORT_CTL_MODE p)
      let key := mode + 4 * tsField x 3 3 4
      let d := d.wrs [(F.LANE_ERR_LOGICAL p lane, j), (F.PORT_LINK_FAR_DEVICE p (l % 4), tsField x 3 2 1)]
      let d := d.setTr l fun t => { t with farMax := tsField x 1 4 4, farQuarters := tsField x 3 3 4, modeBad := t.modeBad || bad }
      d.setRx p lane fun r =>
        { r with acqKey := key, acqRun := if bad then 0 else if r.acqKey = key then r.acqRun + 1 else 1,
                 run := if tsCounts (d.lst l) x then r.run + 1 else 0 }
    let s := if 16 ≤ lane ∧ j < 16 ∧ (s.dev.tr l).move = some j ∧ s.dev.spareFree true (lane = 17) p then
        s.withDev fun d => (d.moveLane true l j (d.physRx l j) (lane = 17)).setTr l fun t =>
          { t with move := none, missing := t.missing.filter (· ≠ j) }
      else s
    let s := if j < s.dev.fullWidth l then s.withDev fun d => d.setTx l j fun t => (t.request x).ask x a else s
    (s.farMove l x).tsProgress l x

/-- The TS that this end sends on a logical lane now (Table 12.2). -/
def Dev.tsSent (d : Dev) (l j : Nat) : Nat :=
  let t := d.tr l
  let x := d.tx l j
  let st := d.lst l
  let dirty := !d.everyLane l (fun r => r.prbsErr = 0)
  let phase := if st = 3 then 1 else if st = 4 then (if dirty then 1 else 2) else if st = 5 then 3 else if st = 8 then 4 else 0
  let b := [0x1E, d.rd (F.PORT_LINK_STEP (l / 4) (l % 4)) + 16 * t.maxStep, j + 32 * phase,
    d.rd (F.PORT_CTL_MODE (l / 4)) + 4 + 8 * d.ownQuarters l, x.reqPre + 4 * x.reqPost, x.stPre + 4 * x.stPost + 16 * x.eqDone.toNat,
    match t.move with
    | some m => m + 32
    | none => 0]
  natOfBytes (b ++ [crc8 b])

/-! ## SEED blocks (R317) -/

/-- The switch point of a link: every lane's SEED blocks have passed. With fewer than four intact and agreeing on a lane, or a seed
of 0, the entry has failed, and the link returns to DETECT. -/
def State.seedSwitch (s : State) (l : Nat) : State :=
  let d := s.dev
  if d.lst l ≠ 6 ∨ ¬ d.everyLane l (fun r => decide (8 ≤ r.seedPos)) then s
  else if d.everyLane l (fun r => decide (4 ≤ r.seedGood) && r.seed ≠ 0) then s.withDev fun d => d.toUp l
  else s.toDetect l true

/-- A SEED block's place taken on a lane; an intact one gives COUNT and the seed. -/
def State.seedReceived (s : State) (p lane : Nat) (x : Option Nat) : State :=
  let l := s.dev.laneLink p lane (x.map (fun x => x / 2 ^ 48 % 32))
  if s.dev.lst l ≠ 6 then s
  else
    (s.withDev fun d => d.setRx p lane fun r =>
      match x with
      | some x =>
        let seed := x / 2 ^ 16 % 2 ^ 32
        { r with seedPos := 8 - x / 2 ^ 8 % 8, seed := if r.seedGood = 0 then seed else r.seed,
                 seedGood := if r.seedGood = 0 ∨ r.seed = seed then r.seedGood + 1 else r.seedGood }
      | none => if r.seedPos = 0 then r else { r with seedPos := r.seedPos + 1 }).seedSwitch l

/-! ## A block on a lane -/

/-- A payload as received: inverted where the lane's polarity is. -/
def Dev.polar (d : Dev) (p lane payload : Nat) : Nat :=
  if d.flag (F.LANE_ERR_INVERTED p lane) then 2 ^ 64 - 1 - payload else payload

/-- An ordered block (R312): descrambled, checked, and acted on by its type. One whose CRC fails or whose type is not listed is a lane
error. -/
def State.controlBlock (s : State) (p lane payload : Nat) (a : Adapt) : State :=
  let (x, hist) := descramble (s.dev.rx p lane).hist (s.dev.polar p lane payload)
  let s := s.withDev fun d => (d.setRx p lane fun r => { r with hist := hist }).header p lane false
  if ¬ ordered x then (s.withDev fun d => d.laneError p lane).seedReceived p lane none
  else if x % 256 = 0x1E then s.tsReceived p lane x a
  else if x % 256 = 0x33 then s.seedReceived p lane (some x)
  else s

/-- Whether a lane receives blocks: its link is in block coding, or the port loops back (R328). -/
def Dev.laneHears (d : Dev) (p lane : Nat) : Bool :=
  takesBlocks (d.lst (d.laneLink p lane none)) || (d.flag (F.PORT_CTL_LOOPBACK p) && !d.flag (F.PORT_CTL_ENABLE p)) ||
    (decide (16 ≤ lane) && (List.range 4).any (fun k => takesBlocks (d.lst (4 * p + k))))

/-- A data block (R311 to R313, R328): its PRBS is checked; at Step 0 one that holds the complement of an ordered block turns the
lane's polarity. -/
def Dev.dataBlock (d : Dev) (p lane payload : Nat) : Dev :=
  let (x, hist) := descramble (d.rx p lane).hist (d.polar p lane payload)
  let l := d.laneLink p lane none
  let loop := d.flag (F.PORT_CTL_LOOPBACK p) && !d.flag (F.PORT_CTL_ENABLE p)
  let d := (d.setRx p lane fun r => { r with hist := hist }).header p lane false
  if ¬ loop ∧ d.rd (F.PORT_LINK_STEP p (l % 4)) = 0 ∧ ordered (2 ^ 64 - 1 - x) then
    ((d.setRx p lane fun r => { r with good := 0, errs := 0, hist := 0 }).wr (F.LANE_ERR_LOCKED p lane) 0).wr (F.LANE_ERR_INVERTED p lane)
      (1 - d.rd (F.LANE_ERR_INVERTED p lane))
  else if loop ∨ d.lst l = 4 ∨ d.lst l = 8 then
    let r := d.rx p lane
    let (w, bad) := prbsCheck r.prbs x
    let d := d.setRx p lane fun r => { r with prbs := some w, prbsSeen := r.prbsSeen + 1, prbsErr := r.prbsErr + bad }
    if loop then d.bumpBy (F.LANE_ERR_ERRORS p lane) bad else d
  else d

/-- A block with its header (R311): 2 is data (0 then 1 on the line), 1 control, 0 and 3 header errors. -/
def State.block (s : State) (p lane header payload : Nat) (a : Adapt) : State :=
  if ¬ s.dev.laneHears p lane then s
  else
    let h := if s.dev.flag (F.LANE_ERR_INVERTED p lane) then 3 - header else header
    if h = 1 then s.controlBlock p lane payload a
    else if h = 2 then s.withDev fun d => d.dataBlock p lane payload
    else s.withDev fun d =>
      let d := (d.setRx p lane fun r => { r with hist := (descramble r.hist (d.polar p lane payload)).2 }).header p lane true
      if d.lst (d.laneLink p lane none) = 4 ∨ d.lst (d.laneLink p lane none) = 8 then
        d.setRx p lane fun r => { r with prbsErr := r.prbsErr + 1 } else d

/-- The header that reads as a control block on a lane. -/
def Dev.controlHeader (d : Dev) (p lane : Nat) : Nat := if d.flag (F.LANE_ERR_INVERTED p lane) then 2 else 1

/-- TS_BLOCK (R312): a control block's scrambled payload on a receive lane, with how far this end's receiver has adapted. -/
def execTsBlock (port : Fin 64) (lane : Fin 18) (payload : BitVec 64) (adapt : Adapt) (s : State) :
    Host.Outcome State Fault Refusal :=
  .next (s.block port lane (s.dev.controlHeader port lane) payload.toNat adapt)

/-- CC_BLOCK (R313): it is deleted or repeated, on every lane at once; the scrambler history runs over it. -/
def execCcBlock (port : Fin 64) (lane : Fin 18) (payload : BitVec 64) (s : State) : Host.Outcome State Fault Refusal :=
  .next (s.block port lane (s.dev.controlHeader port lane) payload.toNat { done := false, pre := 0, post := 0 })

/-- DATA_BLOCK (R311): a block with its header, bit 0 the first on the line. -/
def execDataBlock (port : Fin 64) (lane : Fin 18) (header : BitVec 2) (payload : BitVec 64) (s : State) :
    Host.Outcome State Fault Refusal :=
  .next (s.block port lane header.toNat payload.toNat { done := false, pre := 0, post := 0 })

/-! ## Events of training -/

/-- SIGNAL_DETECT (R320): signal detect has held for 10 µs on the logical lanes of the mask; spares must cover the rest. -/
def execSignalDetect (link : Fin 256) (lanes : BitVec 16) (s : State) : Host.Outcome State Fault Refusal :=
  s.next fun d =>
    let p := link.val / 4
    let absent := (List.range (d.fullWidth link)).filter (fun j => !lanes.getLsbD j)
    let spares := ([false, true].filter (fun sp => d.flag (F.PORT_CTL_SPARE_EN p) && d.spareFree true sp p)).length
    if d.lst link ≠ 1 ∨ spares < absent.length then d else d.acquire link 0

/-- TRAINING_PHASE_TIMEOUT (R321): ACQUIRE, EQUALISE, CONFIRM or CHANGE has not ended within its bound. -/
def execTrainingPhaseTimeout (link : Fin 256) (s : State) : Host.Outcome State Fault Refusal :=
  .next (if [2, 3, 4, 5].contains (s.dev.lst link) then s.phaseFailed link else s)

/-- STEP_CHANGE_IDLE (R320): 1 µs of electrical idle in CHANGE; the next step is acquired. -/
def execStepChangeIdle (link : Fin 256) (s : State) : Host.Outcome State Fault Refusal :=
  s.next fun d =>
    if d.lst link = 5 ∧ d.everyLane link (fun r => decide (8 ≤ r.run)) then
      (d.setTr link fun t => { t with tries := 0 }).acquire link (d.rd (F.PORT_LINK_STEP (link / 4) (link % 4)) + 1)
    else d

/-- RECOVERY_TRIGGER (R325): a lane has lost CDR lock or signal detect. -/
def execRecoveryTrigger (link : Fin 256) (s : State) : Host.Outcome State Fault Refusal := .next (s.recover link)

/-- EXIT_PATTERN (R325): 48 or more identical line bits on at least half the lanes. -/
def execExitPattern (link : Fin 256) (s : State) : Host.Outcome State Fault Refusal := .next (s.recover link)

/-- RECOVERY_TIMEOUT (R320): the recovery is not back in SEED within its bound. -/
def execRecoveryTimeout (link : Fin 256) (s : State) : Host.Outcome State Fault Refusal :=
  .next (if s.dev.lst link = 8 then s.toDetect link true else s)

/-- LANE_FAILURE (R326): a receive lane of a port has failed; `unstable` where its signal detect toggled. A spare in standby only
becomes failed. -/
def execLaneFailure (port : Fin 64) (lane : Fin 18) (unstable : Bool) (s : State) : Host.Outcome State Fault Refusal :=
  .next <|
    let s := if unstable then
        s.withDev fun d => (d.bump (F.LANE_ERR_UNSTABLE port lane)).raise .laneUnstable (Src.port port) [(lane, 5), (1, 1)]
      else s
    let (_, u, f) := mapField true (lane = 17) port
    if 16 ≤ lane.val ∧ ¬ s.dev.flag u then s.withDev fun d => d.wr f 1
    else
      let l := s.dev.laneLink port lane none
      if [0, 1, 9].contains (s.dev.lst l) then s else s.askMove l (s.dev.rd (F.LANE_ERR_LOGICAL port lane))

/-- ACQUIRE_LANE_MISSING (R322): in ACQUIRE at Step 0 a logical lane is still missing after 1 ms; a move is asked for it, or its
quarter stays clear. -/
def execAcquireLaneMissing (link : Fin 256) (lane : Fin 16) (s : State) : Host.Outcome State Fault Refusal :=
  s.next fun d =>
    if d.lst link ≠ 2 ∨ d.rd (F.PORT_LINK_STEP (link / 4) (link % 4)) ≠ 0 ∨ d.fullWidth link ≤ lane then d
    else if (d.standby true (link / 4)).isSome ∧ ((d.tr link).move.isNone ∨ (d.tr link).move = some lane.val) then
      d.setTr link fun t => { t with move := some lane.val }
    else d.setTr link fun t => { t with missing := t.missing.filter (· ≠ lane.val) ++ [lane.val] }

/-- HALT (R355): the far end has stopped; the link's state is discarded, and it waits for TS. -/
def execHalt (link : Fin 256) (s : State) : Host.Outcome State Fault Refusal :=
  .next (if s.dev.lst link = 7 ∨ s.dev.lst link = 8 then s.toDetect link false else s)

/-! ## PORT[p].CTL (R328, R329, Table 12.8) -/

/-- The checks of Table 12.7. -/
def State.portChecks (s : State) (p : Nat) : List (Bool × Nat) :=
  let d := s.dev
  [(!s.portExists p, 0x21), (!d.domainOn (Dom.port p), 0x22), (!d.domainOn (Dom.concourse (p / 8)), 0x23),
   (d.rd (F.PORT_CTL_MODE p) = 3, 0x24), (decide (6 ≤ d.rd (F.PORT_CTL_MAX_STEP p)), 0x25)]

/-- ENABLE written 1 (R329). -/
def State.portEnable (s : State) (p : Nat) : State :=
  if s.dev.flag (F.PORT_CTL_ENABLE p) then s
  else
    let (ok, d) := s.dev.checked .port p [F.PORT_REASON_CODE p] (F.PORT_CTL_ENABLE p) (s.portChecks p)
    let s := { s with dev := d }
    if ¬ ok then s
    else ((List.range 4).filter (fun k => d.linkInMode p k)).foldl (fun s k => s.startLink (4 * p + k)) s

/-- PORT_ENABLE (R329). -/
def execPortEnable (port : Fin 64) (s : State) : Host.Outcome State Fault Refusal := .next (s.portEnable port)

/-- ENABLE written 0 (Table 12.8): HALT, then every link DISABLED. -/
def State.portDisable (s : State) (p : Nat) : State :=
  if ¬ s.dev.flag (F.PORT_CTL_ENABLE p) then s
  else
    let (_, d) := s.dev.checkedOff .port p [F.PORT_REASON_CODE p] (F.PORT_CTL_ENABLE p) []
    (List.range 4).foldl (fun s k => s.toDisabled (4 * p + k)) { s with dev := d }

/-- PORT_DISABLE (R320). -/
def execPortDisable (port : Fin 64) (s : State) : Host.Outcome State Fault Refusal := .next (s.portDisable port)

/-- RETRAIN (Table 12.3). -/
def State.portRetrain (s : State) (p : Nat) : State := (List.range 4).foldl (fun s k => s.toDetect (4 * p + k) false) s

/-- PORT_RETRAIN (R320). -/
def execPortRetrain (port : Fin 64) (s : State) : Host.Outcome State Fault Refusal := .next (s.portRetrain port)

/-- LOOPBACK written (R328): ignored while ENABLE is 1. -/
def Dev.loopback (d : Dev) (p : Nat) (on : Bool) : Dev :=
  if d.flag (F.PORT_CTL_ENABLE p) then d
  else
    (List.range 18).foldl (fun d i => d.setRx p i fun r => { r with prbs := none, prbsSeen := 0, prbsErr := 0 })
      (d.put (F.PORT_CTL_LOOPBACK p) on)

/-- LOOPBACK (R328). -/
def execLoopback (port : Fin 64) (on : Bool) (s : State) : Host.Outcome State Fault Refusal := s.next fun d => d.loopback port on

end Sys2Proof.Machine
end

