-- ==== Sys2Proof/Machine/Stuff.lean ====
section
/-!
DEFINITION. Stuffed coding (R314 to R316): the bytes of a flit on the lanes of a link, the additive scrambler, and stuffing over the
whole link.
-/

namespace Sys2Proof.Machine

open Sys2Proof

/-- One lane's end of stuffed coding: the 31-bit scrambler, the run count, the last line bit. -/
structure StuffLane where
  scr    : Nat := 0
  runLen : Nat := 0
  prev   : Bool := false
  deriving DecidableEq, Repr

/-- The scrambler's next bit. -/
def StuffLane.key (x : StuffLane) : Bool := x.scr.testBit 30 ^^ x.scr.testBit 27

/-- A data bit's line bit taken: the run count starts again at 1 on a change and after a stuff bit (R316); the scrambler advances
(R315). -/
def StuffLane.took (x : StuffLane) (line : Bool) : StuffLane :=
  { scr := (x.scr * 2 + x.key.toNat) % 2 ^ 31, runLen := if x.runLen ≠ 0 ∧ line = x.prev then x.runLen + 1 else 1, prev := line }

/-- A stuff bit taken. -/
def StuffLane.stuffed (x : StuffLane) (line : Bool) : StuffLane := { x with runLen := 0, prev := line }

/-- Whether the next line bit of every lane is a stuff bit. -/
def stuffDue (l : List StuffLane) : Bool := l.any (fun x => x.runLen = 31)

/-- A column of line bits, lane 0 in bit 0. -/
def column (bits : List Bool) : Nat := bits.foldr (fun b n => b.toNat + 2 * n) 0

/-- The data bits of a flit at one bit time: byte i travels on lane i mod W, least significant bit first (R314). -/
def dataColumn (flit w t : Nat) : List Bool := (List.range w).map (fun j => flit.testBit (8 * (t / 8 * w + j) + t % 8))

/-- A flit put on the lines: the columns, oldest first, the stuff positions among them, and the lanes after it. -/
def stuffSend (flit w : Nat) (lanes : List StuffLane) : List Nat × Nat × List StuffLane :=
  let r := (List.range (2048 / w)).foldl (fun (a : List Nat × Nat × List StuffLane) t =>
    let (cols, n, ls) := a
    let bits := (dataColumn flit w t).zip ls |>.map (fun (b, x) => b ^^ x.key)
    let ls := ls.zip bits |>.map (fun (x, b) => x.took b)
    let cols := column bits :: cols
    if stuffDue ls then
      (column (ls.map (fun x => !x.prev)) :: cols, n + 1, ls.map (fun x => x.stuffed (!x.prev)))
    else (cols, n, ls)) ([], 0, lanes)
  (r.1.reverse, r.2.1, r.2.2)

/-- A flit taken from the lines (R316): none where it was cut short; with the violations found on each lane, and the lanes after
it. -/
def stuffReceive (w : Nat) (cols : List Nat) (lanes : List StuffLane) : Option Nat × List Nat × List StuffLane :=
  let step := fun (a : Nat × Nat × List Nat × List StuffLane) (c : Nat) =>
    let (t, flit, bad, ls) := a
    if stuffDue ls then
      let lines := (List.range w).map (fun j => c.testBit j)
      let wrong := ((List.range w).zip (lines.zip ls)).filter (fun (_, b, x) => b == x.prev) |>.map (·.1)
      (t, flit, bad ++ wrong, ls.zip lines |>.map (fun (x, b) => x.stuffed b))
    else
      let lines := (List.range w).map (fun j => c.testBit j)
      let data := ((List.range w).zip (lines.zip ls)).map (fun (j, b, x) =>
        ((b ^^ x.key)).toNat * 2 ^ (8 * (t / 8 * w + j) + t % 8))
      (t + 1, flit + data.foldl (· + ·) 0, bad, ls.zip lines |>.map (fun (x, b) => x.took b))
  let (t, flit, bad, ls) := cols.foldl step (0, 0, [], lanes)
  (if t = 2048 / w then some flit else none, bad, ls)

/-! ## The lanes of a link -/

/-- The width of a link now, renumbered (R323). -/
def Dev.widthNow (d : Dev) (l : Nat) : Nat := (d.lanesOf l).length

/-- The transmit lanes of a link. -/
def Dev.txStuff (d : Dev) (l : Nat) : List StuffLane :=
  (d.lanesOf l).map (fun j => let x := d.tx l j; { scr := x.scr, runLen := x.runLen, prev := x.prev })

/-- The transmit lanes stored. -/
def Dev.setTxStuff (d : Dev) (l : Nat) (ls : List StuffLane) : Dev :=
  ((d.lanesOf l).zip ls).foldl (fun d (j, x) => d.setTx l j fun t => { t with scr := x.scr, runLen := x.runLen, prev := x.prev }) d

/-- The receive lanes of a link, in logical order. -/
def Dev.rxStuff (d : Dev) (l : Nat) : List StuffLane :=
  (d.lanesOf l).map (fun j => let x := d.rx (l / 4) (d.physRx l j); { scr := x.scr, runLen := x.runLen, prev := x.prev })

/-- The receive lanes stored, with the violations counted. -/
def Dev.setRxStuff (d : Dev) (l : Nat) (ls : List StuffLane) (bad : List Nat) : Dev :=
  let lanes := (d.lanesOf l).map (d.physRx l)
  let d := (lanes.zip ls).foldl (fun d (i, x) => d.setRx (l / 4) i fun t => { t with scr := x.scr, runLen := x.runLen, prev := x.prev }) d
  bad.foldl (fun d j => (d.laneError (l / 4) (lanes.getD j 0)).count 0x0001 (l / 4)) d

end Sys2Proof.Machine
end

