-- ==== Sys2Proof/Machine/Link.lean ====
section
/-!
DEFINITION. The link's transmitter (R331 to R342, R344 to R346, R363, R364): messages in slots, flits, credits, replay; and the fault
injector (R356, R357).
-/

namespace Sys2Proof.Machine

open Sys2Proof

/-! ## Messages in slots (R335, R345, R346, Tables 13.3 to 13.6, 14.2, 14.2a) -/

/-- Whether an OPCODE is listed, and for a peer link. -/
def knownOp (op : Nat) (peer : Bool) : Bool :=
  if peer then decide (0x40 ≤ op ∧ op ≤ 0x4D)
  else decide ((1 ≤ op ∧ op ≤ 7) ∨ (0x10 ≤ op ∧ op ≤ 0x14) ∨ (0x20 ≤ op ∧ op ≤ 0x23))

/-- Whether the host may send a message to the device (Table 13.3). -/
def fromHost (op : Nat) : Bool := decide ((1 ≤ op ∧ op ≤ 7) ∨ op = 0x10 ∨ op = 0x14)

/-- The credit class of a message on a host link (Table 13.3): 0 REQ, 1 RSP, 2 DEV. -/
def opClass (op : Nat) : Nat := if op < 0x10 then 0 else if op < 0x20 then 1 else 2

/-- The slot count an OPCODE fixes. -/
def opSlots (op : Nat) : Nat := Msg.slots { op := op }

/-- The first slot of a message. -/
def Msg.first (m : Msg) : List Nat :=
  let a := m.addr.toNat
  if m.op = 0x23 then
    [m.op, m.arg % 16] ++ bytesOfNat 2 (m.patron % 4096) ++ bytesOfNat 4 m.value.toNat ++ bytesOfNat 8 a
  else if 0x10 ≤ m.op ∧ m.op ≤ 0x14 then
    [m.op, m.status % 256, m.line % 8, 0] ++ bytesOfNat 2 (m.tag % 4096) ++ [0, 0] ++
      bytesOfNat 8 (if m.op = 0x12 then m.value.toNat else 0)
  else if m.op = 0x43 ∨ m.op = 0x44 then
    [m.op, m.status % 256, m.member % 64, 0] ++ bytesOfNat 2 (m.tag % 4096) ++ [0, 0] ++
      bytesOfNat 8 (if m.op = 0x43 then m.value.toNat else 0)
  else if 0x40 ≤ m.op ∧ m.op ≤ 0x42 then
    [m.op, m.arg % 256] ++ bytesOfNat 2 (m.patron % 4096) ++ bytesOfNat 2 (m.tag % 4096) ++ [m.member % 64, m.hops % 8] ++ bytesOfNat 8 a
  else if m.op = 0x46 then
    [m.op, m.arg % 8] ++ bytesOfNat 2 (m.patron % 4096) ++ bytesOfNat 4 m.tag ++ bytesOfNat 8 (a % 2 ^ 48)
  else if m.op = 0x47 then
    [m.op, m.arg % 64, m.status % 256, 0] ++ bytesOfNat 4 m.tag ++ bytesOfNat 8 m.value.toNat
  else if m.op = 0x45 then [m.op, 0, 0, 0, 0, 0, 0, 0] ++ bytesOfNat 8 a
  else if 0x48 ≤ m.op then
    [m.op, m.arg % 256, m.status % 256, m.line % 256] ++ bytesOfNat 4 m.tag ++ bytesOfNat 8 a
  else
    [m.op, m.arg % 256] ++ bytesOfNat 2 (m.patron % 4096) ++ bytesOfNat 2 (m.tag % 4096) ++ [0, 0] ++ bytesOfNat 8 a

/-- The slots of a message, sixteen bytes each. -/
def Msg.bytes (m : Msg) : List Nat :=
  let data := bytesOfNat 64 m.data.toNat
  let pair := bytesOfNat 8 m.value.toNat ++ bytesOfNat 8 m.cmp.toNat
  let body :=
    match m.op with
    | 0x02 | 0x07 | 0x11 | 0x13 | 0x14 | 0x21 | 0x44 => data
    | 0x03 | 0x22 | 0x41 => bytesOfNat 8 m.mask.toNat ++ List.replicate 8 0 ++ data
    | 0x45 => [m.value.toNat % 2] ++ List.replicate 15 0 ++ data
    | 0x04 | 0x42 | 0x46 | 0x4B => pair
    | 0x4D => bytesOfNat 8 m.value.toNat ++ List.replicate 8 0
    | 0x48 | 0x49 => pair ++ data.take 32 ++ List.replicate 16 0
    | 0x4C => data.take 32 ++ List.replicate 32 0
    | _ => []
  Msg.first m ++ body

/-- A message read from its slots. What the layout does not name must be 0: `reserved` says whether it was not. -/
def Msg.ofBytes (b : List Nat) : Msg :=
  let at_ := fun (i : Nat) => b.getD i 0
  let num := fun (i n : Nat) => natOfBytes ((b.drop i).take n)
  let op := at_ 0
  let data := fun (i n : Nat) => BitVec.ofNat 512 (num i n)
  let m : Msg :=
    if 0x10 ≤ op ∧ op ≤ 0x14 then
      { op := op, status := at_ 1, line := at_ 2 % 8, tag := num 4 2 % 4096, value := BitVec.ofNat 64 (num 8 8), data := data 16 64 }
    else if op = 0x43 ∨ op = 0x44 then
      { op := op, status := at_ 1, member := at_ 2 % 64, tag := num 4 2 % 4096, value := BitVec.ofNat 64 (num 8 8), data := data 16 64 }
    else
      let base : Msg :=
        if op = 0x46 then { op := op, arg := at_ 1 % 8, patron := num 2 2 % 4096, tag := num 4 4, addr := BitVec.ofNat 64 (num 8 8) }
        else if op = 0x47 then
          { op := op, arg := at_ 1 % 64, status := at_ 2, tag := num 4 4, value := BitVec.ofNat 64 (num 8 8) }
        else if 0x48 ≤ op then
          { op := op, arg := at_ 1, status := at_ 2, line := at_ 3, tag := num 4 4, addr := BitVec.ofNat 64 (num 8 8) }
        else { op := op, arg := at_ 1, patron := num 2 2 % 4096, tag := num 4 2 % 4096, member := at_ 6 % 64, hops := at_ 7 % 8,
               addr := BitVec.ofNat 64 (num 8 8) }
      match op with
      | 0x02 | 0x07 | 0x21 => { base with data := data 16 64 }
      | 0x03 | 0x22 | 0x41 => { base with mask := BitVec.ofNat 64 (num 16 8), data := data 32 64 }
      | 0x45 => { base with value := BitVec.ofNat 64 (at_ 16 % 2), data := data 32 64 }
      | 0x04 | 0x42 | 0x46 | 0x4B => { base with value := BitVec.ofNat 64 (num 16 8), cmp := BitVec.ofNat 64 (num 24 8) }
      | 0x4D => { base with value := BitVec.ofNat 64 (num 16 8) }
      | 0x48 | 0x49 =>
        { base with value := BitVec.ofNat 64 (num 16 8), cmp := BitVec.ofNat 64 (num 24 8), data := data 32 32 }
      | 0x4C => { base with data := data 16 32 }
      | _ => base
  { m with reserved := decide ((Msg.bytes m) ≠ b) }

/-! ## Flits (R331 to R334) -/

/-- The CRC-64 of bytes 0 to 247 (R333). -/
def crc64 (bytes : List Nat) : Nat := crc 64 0x42F0E1EBA9EA3693 (2 ^ 64 - 1) bytes ^^^ (2 ^ 64 - 1)

/-- The fields of a flit header (Table 13.2, R363). -/
structure Header where
  kind     : Nat := 2
  urgency  : Nat := 0
  ackValid : Bool := false
  nak      : Bool := false
  seq      : Nat := 0
  ackSeq   : Nat := 0
  crClass  : Nat := 3
  crCount  : Nat := 0
  replay   : Bool := false
  dest     : Nat := 0
  deriving DecidableEq, Repr

/-- A header as 64 bits. -/
def Header.bits (h : Header) : Nat :=
  h.kind % 16 + h.urgency % 4 * 2 ^ 4 + h.ackValid.toNat * 2 ^ 6 + h.nak.toNat * 2 ^ 7 + h.seq % 1024 * 2 ^ 8 + h.ackSeq % 1024 * 2 ^ 18 +
    h.crClass % 4 * 2 ^ 28 + h.crCount % 1024 * 2 ^ 30 + h.replay.toNat * 2 ^ 40 + h.dest % 64 * 2 ^ 41

/-- A header read from 64 bits. -/
def Header.ofBits (n : Nat) : Header :=
  { kind := n % 16, urgency := n / 2 ^ 4 % 4, ackValid := n.testBit 6, nak := n.testBit 7, seq := n / 2 ^ 8 % 1024,
    ackSeq := n / 2 ^ 18 % 1024, crClass := n / 2 ^ 28 % 4, crCount := n / 2 ^ 30 % 1024, replay := n.testBit 40,
    dest := n / 2 ^ 41 % 64 }

/-- A flit of a header and 240 payload bytes, its CRC computed. -/
def flitOf (h : Header) (payload : List Nat) : BitVec 2048 :=
  let body := bytesOfNat 8 h.bits ++ (payload ++ List.replicate (240 - payload.length) 0).take 240
  BitVec.ofNat 2048 (natOfBytes (body ++ bytesOfNat 8 (crc64 body)))

/-- The 240 payload bytes of a flit. -/
def flitPayload (f : BitVec 2048) : List Nat := (bytesOfNat 256 f.toNat).drop 8 |>.take 240

/-- The header of a flit. -/
def flitHeader (f : BitVec 2048) : Header := Header.ofBits (f.toNat % 2 ^ 64)

/-! ## Replay buffer and credits (R338, R341) -/

/-- The place of a port's link among the registers of its flits. -/
def Dev.showFlits (d : Dev) (l : Nat) : Dev :=
  let x := d.linkSt l
  let p := l / 4
  let k := l % 4
  let may := fun (c : Nat) => match x.farFreed.getD c none with
    | some f => (f + 1024 - x.consumed.getD c 0) % 1024
    | none => 0
  d.wrs [(F.FLIT_STATUS_UNANSWERED p k, x.replay.length), (F.FLIT_STATUS_REPLAYING p k, x.replayAt.isSome.toNat),
    (F.FLIT_CREDITS_REQ p k, may 0), (F.FLIT_CREDITS_RSP p k, may 1), (F.FLIT_CREDITS_DEV p k, may 2)]

/-- Slots of a class that may be sent now (R341). -/
def LinkSt.may (x : LinkSt) (c : Nat) : Nat :=
  match x.farFreed.getD c none with
  | some f => (f + 1024 - x.consumed.getD c 0) % 1024
  | none => 0

/-- A number of a class raised, modulo 1,024. -/
def addAt (l : List Nat) (c n : Nat) : List Nat := l.mapIdx (fun i v => if i = c then (v + n) % 1024 else v)

/-- A replay begun from an entry of the buffer (R338). -/
def Dev.startReplay (d : Dev) (l i : Nat) : Dev :=
  let x := d.linkSt l
  if x.replay.length ≤ i then d.showFlits l
  else
    let again := x.replay.mapIdx (fun j h => if j = i then { h with replays := h.replays + 1 } else h)
    ((d.setLinkSt l fun x => { x with replay := again, replayAt := some i }).bump (F.FLIT_ERRORS_REPLAYS (l / 4) (l % 4))).showFlits l

/-- REPLAY_LIMIT (R338): the oldest flit has been replayed so often without an answer. -/
def Dev.replayLimit (d : Dev) (l : Nat) : Bool :=
  match (d.linkSt l).replay with
  | h :: _ => decide (atLeastOne (d.rd (F.FLIT_CFG_REPLAY_LIMIT (l / 4))) ≤ h.replays)
  | [] => false

/-- A replay, or the recovery that REPLAY_LIMIT asks for. -/
def State.replayFrom (s : State) (l i : Nat) : State :=
  if i = 0 ∧ s.dev.replayLimit l then (s.withDev fun d => d.raise .replayLimit (srcOf l)).recover l
  else s.withDev fun d => d.startReplay l i

/-- ANSWER_TIMEOUT (R338): no answer has advanced the oldest flit for the timeout. -/
def execAnswerTimeout (link : Fin 256) (s : State) : Host.Outcome State Fault Refusal :=
  .next <|
    if s.dev.lst link ≠ 7 ∨ (s.dev.linkSt link).replay = [] then s
    else
      (s.withDev fun d => (d.bump (F.FLIT_ERRORS_TIMEOUTS (link / 4) (link % 4))).raise .replayTimeout (srcOf link)).replayFrom link 0

/-! ## Choosing what to send -/

/-- The dimension a peer port carries. -/
def Dev.dimOf (d : Dev) (p : Nat) : Option Nat :=
  (List.range 6).find? (fun k => d.flag (F.COLL_DIM_VALID k) && d.rd (F.COLL_DIM_PORT k) = p)

/-- The position at the far end of a peer link. -/
def State.farPosition (s : State) (l : Nat) : Nat :=
  match s.dev.dimOf (l / 4) with
  | some k => s.fuses.position ^^^ 2 ^ k
  | none => s.fuses.position

/-- The credit class of a flit for a DEST at the receiver of a link (R364): 0 LOCAL, 1 DOWN, 2 UP. -/
def transitClass (receiver dest : Nat) : Nat := if dest = receiver then 0 else if downMove receiver dest then 1 else 2

/-- A DATA flit being put together: slots used, bytes, messages taken, classes that wait for credits, credits used. -/
structure Packing where
  used  : Nat := 0
  bytes : List Nat := []
  taken : List (Nat × Msg) := []
  stuck : List Nat := []
  spend : List Nat := [0, 0, 0]
  deriving DecidableEq, Repr

/-- One more message for the flit, in order within its class. -/
def Packing.add (x : Packing) (l : Nat) (may : Nat → Nat) (cls : Msg → Nat) (m : Msg) : Packing :=
  let c := cls m
  let n := (Msg.slots m)
  if x.stuck.contains c ∨ 15 < x.used + n then { x with stuck := c :: x.stuck }
  else if may c < x.spend.getD c 0 + n then { x with stuck := c :: x.stuck }
  else { x with used := x.used + n, bytes := x.bytes ++ (Msg.bytes m), taken := x.taken ++ [(l, m)], spend := addAt x.spend c n }

/-- The messages that the next DATA flit of a link takes, with the credits it consumes and its DEST. -/
def State.pack (s : State) (l : Nat) : Packing × Nat :=
  let d := s.dev
  let x := d.linkSt l
  let mine := (d.out.filter (fun o => o.1 = l)).map (·.2)
  if ¬ d.peerPort (l / 4) then
    (mine.foldl (fun a m => a.add l x.may (fun m => opClass m.op) m) {}, 0)
  else
    match mine with
    | [] => ({}, 0)
    | first :: _ =>
      let far := s.farPosition l
      let c := transitClass far first.home
      let same := mine.takeWhile (fun m => m.home = first.home)
      if c = 0 then (same.foldl (fun a m => a.add l x.may (fun _ => 0) m) {}, first.home)
      else
        let a := same.foldl (fun a m => a.add l (fun _ => 15) (fun _ => 0) m) ({} : Packing)
        if x.may c < 15 then ({ stuck := [c] }, first.home) else ({ a with spend := addAt [0, 0, 0] c 15 }, first.home)

/-- The credits of a flit re-driven onto a link (R364): the slots of its messages where the receiver is its DEST, else 15. -/
def flitSlots : Nat → List Nat → Nat
  | 0, _ => 0
  | fuel + 1, b =>
    match b with
    | [] => 0
    | op :: _ => if op = 0 then flitSlots fuel (b.drop 16) else opSlots op + flitSlots fuel (b.drop (16 * opSlots op))

/-! ## The injector (R356) -/

/-- The injector's decision for a DATA flit of a link in a direction: the LFSR advances, and its low RATE bits decide. -/
def Dev.injects (d : Dev) (l : Nat) (recv : Bool) : Bool × Dev :=
  let p := l / 4
  if ¬ d.flag (F.INJ_CTL_ENABLE p) ∨ d.rd (F.INJ_CTL_LINK p) ≠ l % 4 ∨ d.flag (F.INJ_CTL_DIRECTION p) ≠ recv then (false, d)
  else
    let v := lfsrStep (SMap.get 1 d.injLfsr p)
    (decide (v % 2 ^ clampNat 1 24 (d.rd (F.INJ_CTL_RATE p)) = 0), { d with injLfsr := SMap.insert p v d.injLfsr })

/-- An injection counted. -/
def Dev.injected (d : Dev) (l : Nat) : Dev := (d.bump (F.INJ_STATUS_INJECTED (l / 4))).count 0x090B l

/-- The byte offset in a flit's payload of the line data of the first message for a patron with TEST. -/
def Dev.testData (d : Dev) : List (Nat × Msg) → Nat → Option Nat
  | [], _ => none
  | (_, m) :: rest, off =>
    let data := match m.op with
      | 0x02 | 0x11 | 0x21 | 0x44 => some 16
      | 0x03 | 0x22 | 0x41 => some 32
      | _ => none
    match data with
    | some k => if d.flag (F.PATRON_CTL_TEST m.patron) then some (off + k) else d.testData rest (off + 16 * (Msg.slots m))
    | none => d.testData rest (off + 16 * (Msg.slots m))

/-- A bit of a list of bytes flipped. -/
def flipBit (b : List Nat) (i : Nat) : List Nat := b.mapIdx (fun k v => if k = i / 8 then v ^^^ 2 ^ (i % 8) else v)

/-! ## FLIT_SEND (R334, R336, R337) -/

/-- The answer, credit and DEST fields of the next flit. -/
def State.answers (s : State) (l : Nat) (h : Header) : Header × Dev :=
  let d := s.dev
  let x := d.linkSt l
  let expected := d.rd (F.FLIT_STATUS_EXPECTED (l / 4) (l % 4))
  let classes := [0, 1, 2].filter (fun c => d.bufferSize l c ≠ 0)
  let c := classes.getD (x.turn % atLeastOne classes.length) 3
  let h := { h with ackValid := x.accepted, nak := x.sendNak, ackSeq := if x.accepted then (expected + 1023) % 1024 else 0,
                    crClass := c, crCount := x.freed.getD c 0,
                    dest := if d.peerPort (l / 4) ∧ h.kind ≠ 1 then s.farPosition l else h.dest }
  let d := d.setLinkSt l fun x => { x with sendNak := false, turn := (x.turn + 1) % 12 }
  (h, if h.nak then d.count 0x0904 l else d)

/-- A flit put on the lanes. -/
def Dev.drive (d : Dev) (l : Nat) (f : BitVec 2048) : Dev :=
  let (cols, n, ls) := stuffSend f.toNat (d.widthNow l) (d.txStuff l)
  let d := (d.setTxStuff l ls).setLinkSt l fun x => { x with sent := cols }
  (List.range n).foldl (fun d _ => d.count 0x0000 (l / 4)) d

/-- A DATA flit sent, with the injector's work on it (R356): a dropped one is not sent, a reordered one waits for the next. -/
def Dev.sendData (d : Dev) (l : Nat) (h : Header) (payload : List Nat) (taken : List (Nat × Msg)) : Dev :=
  let clean := flitOf h payload
  let d := d.count 0x0900 l
  let (hit, d) := d.injects l false
  if ¬ hit then d.drive l clean
  else
    let (v, d') := d.fresh
    match d.rd (F.INJ_CTL_MODE (l / 4)) with
    | 0 => (d'.injected l).setLinkSt l fun x => { x with sent := [] }
    | 1 =>
      match d.testData taken 0 with
      | some off => (d'.injected l).drive l (flitOf h (flipBit payload (8 * off + v.toNat % 512)))
      | none => d.drive l clean
    | 2 => (d'.injected l).drive l (clean ^^^ BitVec.ofNat 2048 (2 ^ (v.toNat % 2048)))
    | _ =>
      if (d.linkSt l).kept.isSome then d.drive l clean
      else (d'.injected l).setLinkSt l fun x => { x with kept := some clean, sent := [] }

/-- A flit without messages: FILL 3, IDLE 2. -/
def State.sendEmpty (s : State) (l kind : Nat) : State :=
  let (h, d) := s.answers l { kind := kind }
  let d := if kind = 2 then d.count 0x0902 l else d
  { s with dev := (d.drive l (flitOf h [])).setLinkSt l fun x => { x with sinceFill := if kind = 3 then 0 else x.sinceFill + 1 } }

/-- The next flit of a replay (R338). -/
def State.sendReplay (s : State) (l i : Nat) : State :=
  match (s.dev.linkSt l).replay[i]? with
  | none => s.withDev fun d => (d.setLinkSt l fun x => { x with replayAt := none }).showFlits l
  | some e =>
    let (h, d) := s.answers l { kind := 1, seq := e.seq, replay := true, dest := (flitHeader e.flit).dest }
    let d := (d.count 0x0906 l).sendData l h (flitPayload e.flit) []
    let d := d.setLinkSt l fun x =>
      { x with replayAt := if x.replay.length ≤ i + 1 then none else some (i + 1), sinceFill := x.sinceFill + 1 }
    { s with dev := d.showFlits l }

/-- A new DATA flit: it takes the next SEQ, is held for replay and consumes its credits (R336, R338, R341). -/
def State.sendNew (s : State) (l : Nat) (dest : Nat) (payload : List Nat) (taken : List (Nat × Msg)) (spend : List Nat) : State :=
  let p := l / 4
  let k := l % 4
  let seq := s.dev.rd (F.FLIT_STATUS_TX_SEQ p k)
  let (h, d) := s.answers l { kind := 1, seq := seq, dest := dest }
  let d := d.wr (F.FLIT_STATUS_TX_SEQ p k) ((seq + 1) % 1024)
  let d := d.setLinkSt l fun x =>
    { x with replay := x.replay ++ [{ seq := seq, flit := flitOf h payload }], sinceFill := x.sinceFill + 1,
             consumed := (List.range 3).map (fun c => (x.consumed.getD c 0 + spend.getD c 0) % 1024) }
  let d := { d with out := taken.foldl (fun o t => o.erase t) d.out }
  { s with dev := (d.sendData l h payload taken).showFlits l }

/-- The next flit that waits to be re-driven onto a link, where its credits suffice (R364, R365): the credit it held on the link it
came by is freed. -/
def State.sendTransit (s : State) (l : Nat) : Option State :=
  match (s.dev.linkSt l).transit with
  | [] => none
  | (from_, f) :: rest =>
    let dest := (flitHeader f).dest
    let c := transitClass (s.farPosition l) dest
    let n := if c = 0 then flitSlots 15 (flitPayload f) else 15
    if (s.dev.linkSt l).may c < n then none
    else
      let s := s.withDev fun d =>
        let d := d.setLinkSt l fun x => { x with transit := rest }
        if 256 ≤ from_ then d
        else d.setLinkSt from_ fun x => { x with freed := addAt x.freed (transitClass s.fuses.position dest) 15 }
      some (s.sendNew l dest (flitPayload f) [] (addAt [0, 0, 0] c n))

/-- FLIT_SEND (R337): the transmitter of an UP link starts its next flit: a flit kept back by the injector, a FILL after 4,095 others
or in place of a flit whose FIFO ran empty (R63, R334), a replay, a flit in transit, new messages, or IDLE. -/
def State.flitSend (s : State) (l : Nat) (starved : Bool) : State :=
  let x := s.dev.linkSt l
  if s.dev.lst l ≠ 7 then s
  else if 4095 ≤ x.sinceFill ∨ starved then s.sendEmpty l 3
  else
    match x.replayAt with
    | some i => s.sendReplay l i
    | none =>
      if 64 ≤ x.replay.length then s.sendEmpty l 2
      else
        match s.sendTransit l with
        | some s => s
        | none =>
          let (a, dest) := s.pack l
          let s := if a.stuck ≠ [] ∧ a.used < 15 then s.withDev fun d => d.count 0x0909 l else s
          if a.taken ≠ [] then s.sendNew l dest a.bytes a.taken a.spend
          else
            match x.kept with
            | some f => s.withDev fun d => (d.drive l f).setLinkSt l fun x => { x with kept := none, sinceFill := x.sinceFill + 1 }
            | none => s.sendEmpty l 2

/-- FLIT_SEND (R337). -/
def execFlitSend (link : Fin 256) (starved : Bool) (s : State) : Host.Outcome State Fault Refusal := .next (s.flitSend link starved)

/-! ## Enabling the injector (R357) -/

/-- The checks of Table 13.10. -/
def State.injectChecks (s : State) (p : Nat) : List (Bool × Nat) :=
  let d := s.dev
  let k := d.rd (F.INJ_CTL_LINK p)
  [(!d.flag (F.INJ_STATUS_UNLOCKED p), 0x26), (!d.linkInMode p k, 0x27), (s.nonTest p k, 0x28)]

/-- INJ_CTL.ENABLE written 1. -/
def State.injectEnable (s : State) (p : Nat) : State :=
  if s.dev.flag (F.INJ_CTL_ENABLE p) then s
  else
    let (ok, d) := s.dev.checked .inject p [] (F.INJ_CTL_ENABLE p) (s.injectChecks p)
    if ¬ ok then { s with dev := d }
    else { s with dev := ({ d with injLfsr := SMap.insert p (atLeastOne (d.rd (F.INJ_SEED_SEED p))) d.injLfsr } : Dev).wr (F.INJ_STATUS_RUNNING p) 1 }

/-- INJ_CTL.ENABLE written 0 (R357): UNLOCKED is cleared. -/
def Dev.injectDisable (d : Dev) (p : Nat) : Dev :=
  d.wrs [(F.INJ_CTL_ENABLE p, 0), (F.INJ_STATUS_RUNNING p, 0), (F.INJ_STATUS_UNLOCKED p, 0)]

/-- INJ_ENABLE (R357). -/
def execInjEnable (port : Fin 64) (s : State) : Host.Outcome State Fault Refusal := .next (s.injectEnable port)

/-- A read of INJ_UNLOCK: a fresh NONCE. -/
def Dev.injectNonce (d : Dev) (p : Nat) : Dev :=
  let (v, d) := d.fresh
  d.wr (F.INJ_UNLOCK_NONCE p) (v.toNat % 2 ^ 16)

/-- INJ_UNLOCK_READ (R357): from Flaud on the keeper port. -/
def execInjUnlockRead (port : Fin 64) (s : State) : Host.Outcome State Fault Refusal := s.next fun d => d.injectNonce port

/-- INJ_UNLOCK_KEY (R357): the last NONCE written back unlocks. -/
def Dev.injectKey (d : Dev) (p key : Nat) : Dev :=
  if key = d.rd (F.INJ_UNLOCK_NONCE p) then d.wr (F.INJ_STATUS_UNLOCKED p) 1 else d

/-- INJ_UNLOCK_KEY (R357). -/
def execInjUnlockKey (port : Fin 64) (key : BitVec 16) (s : State) : Host.Outcome State Fault Refusal :=
  s.next fun d => d.injectKey port key.toNat

end Sys2Proof.Machine
end

