-- ==== Sys2Proof/Machine/Coll.lean ====
section
/-!
DEFINITION. Collections (R360 to R382): joining and leaving, roll calls, agreement on time, loss of members and of the head, and the
evacuation of a member.
-/

namespace Sys2Proof.Machine

open Sys2Proof

/-! ## The collection-scope digest (R376) -/

/-- A register as its stored fields give it. -/
def Dev.regWord (d : Dev) (r : RegName) (i j : Nat) : Nat := (r.fields i j).foldl (fun n f => n + d.rd f * 2 ^ f.lo) 0

/-- The byte string the digest is taken over. -/
def Dev.digestBytes (d : Dev) : List Nat :=
  (List.range 4096).flatMap (fun p =>
    bytesOfNat 4 (d.regWord .PATRON_CTL p 0 &&& 0x1E) ++ bytesOfNat 4 (d.rd (F.PATRON_GROUP_GROUP p)) ++
      bytesOfNat 4 (d.regWord .PATRON_ROOT p 0)) ++
  (List.range 256).flatMap (fun g =>
    let x := d.group g
    bytesOfNat 4 x.guarantee ++ bytesOfNat 4 x.ceiling ++ bytesOfNat 4 (x.wayMask + 2 ^ 16 * x.occCap) ++
      bytesOfNat 4 (x.share + 2 ^ 8 * x.urgent)) ++
  bytesOfNat 4 (d.inForce.period * 2 + d.inForce.designTemp * 2 ^ 4 + d.inForce.headroom * 2 ^ 11 + d.inForce.urgent * 2 ^ 17)

/-- The digest: SHA-256 of that string. -/
def Dev.digest (d : Dev) : List Nat := sha256 d.digestBytes

/-- The first 32 bytes of a message's data as a list. -/
def digestOf (x : LineData) : List Nat := bytesOfNat 32 (x.toNat % 2 ^ 256)

/-- A digest as message data. -/
def digestData (l : List Nat) : LineData := BitVec.ofNat 512 (natOfBytes l)

/-! ## The membership map -/

/-- A 64-bit map shown in two words. -/
def Dev.setPair (d : Dev) (f : Nat → Field) (v : Nat) : Dev := d.wrs [(f 0, v), (f 1, v / 2 ^ 32)]

/-- The membership map. -/
def Dev.map (d : Dev) : Nat := d.pair F.COLL_MEMBERS_MAP

/-- The LOST map. -/
def Dev.lostMap (d : Dev) : Nat := d.pair F.COLL_LOST_MAP

/-- The positions in a map. -/
def positions (v : Nat) : List Nat := (List.range 64).filter v.testBit

/-- A map of positions. -/
def mapOf (f : Nat → Bool) : Nat := (List.range 64).foldl (fun n m => if f m then n + 2 ^ m else n) 0

/-- Whether the positions that a position needs below it are all in a map (R360). -/
def closedUnder (map m : Nat) : Bool := (List.range 64).all (fun p => p &&& m ≠ p || p = m || map.testBit p)

/-- New maps adopted: every change of membership makes the device re-run feasibility (R221, R379), and what stood on a member that
can no longer be reached fails (R369). -/
def State.setMaps (s : State) (map lost : Nat) : State :=
  let was := fun m => s.dev.map.testBit m && !s.dev.lostMap.testBit m
  let gone := fun m => was m && !(map.testBit m && !lost.testBit m)
  let change := decide (map ≠ s.dev.map ∨ lost ≠ s.dev.lostMap)
  let s := s.withDev fun d =>
    let d := ((d.setPair F.COLL_MEMBERS_MAP map).setPair F.COLL_LOST_MAP lost).wr F.COLL_STATUS_MEMBERS (positions map).length
    if change then { d with recheck := true } else d
  if (List.range 64).any gone then s.membersLost gone else s

/-- The head named: HEAD_CHANGED where it differs from the one known. -/
def Dev.setHead (d : Dev) (h : Nat) : Dev :=
  let d := d.raiseIf (d.coll.headKnown && d.inCollection && d.rd F.COLL_STATUS_HEAD ≠ h) .headChanged Src.device [(h, 6)]
  ({ d with coll.headKnown := true } : Dev).wr F.COLL_STATUS_HEAD h

/-- The counter mode of a number of members (R381): sampling at 16 or more. -/
def samplingMode (map : Nat) : Bool := decide (16 ≤ (positions map).length)

/-- RUN_LEVEL: the lowest LEVEL among the members (R377). -/
def State.runLevel (s : State) (map : Nat) : Nat :=
  (positions map).foldl (fun n m =>
    if m = s.fuses.position then n else min n (SMap.get (s.dev.rd F.COLL_VERSION_LEVEL) s.dev.coll.memberLevels m))
    (s.dev.rd F.COLL_VERSION_LEVEL)

/-- Outside any collection: maps, head and modes as at reset. -/
def State.alone (s : State) : State :=
  let s := s.setMaps 0 0
  s.withDev fun d =>
    ({ d with coll.headKnown := false, coll.rejoining := false, coll.joinAccepted := false, coll.leaving := false, coll.joins := [], coll.leaves := [],
              coll.members := [], coll.inStep := 0, coll.samplingNext := some false } : Dev).wrs
      [(F.COLL_STATUS_STATE, 0), (F.COLL_STATUS_HEAD, 0), (F.COLL_STATUS_DRIFT, 0), (F.COLL_STATUS_OUT_OF_STEP, 0),
       (F.COLL_VERSION_RUN_LEVEL, 0), (F.COLL_CAT_PROPAGATE, 0), (F.COLL_CTL_JOIN, 0)]

/-! ## Joining (R374, R375, Tables 14.3, 14.4) -/

/-- LEAVES of the device (R305). -/
def Dev.allLeaves (d : Dev) : Nat := (List.range 4096).foldl (fun n p => n + d.rd (F.PATRON_LEAVES_COUNT p)) 0

/-- The JOIN_REQ of this device. -/
def State.joinReq (s : State) : Msg :=
  { op := 0x4C, arg := s.fuses.position, status := s.dev.rd F.COLL_VERSION_MAJOR, line := s.dev.rd F.COLL_VERSION_LEVEL,
    tag := s.dev.rd F.COLL_CAT_SEQ_SEQ, addr := BitVec.ofNat 64 (s.dev.rd F.COLL_CTL_FOUND), data := digestData s.dev.digest }

/-- JOIN_REQ towards the head where one is known, else on every peer link in use (R367). -/
def State.sendJoin (s : State) : State :=
  if s.dev.coll.headKnown ∧ s.dev.rd F.COLL_STATUS_HEAD ≠ s.fuses.position then s.sendPeer (s.dev.rd F.COLL_STATUS_HEAD) s.joinReq
  else (s.dev.peerLinks.filter (fun k => s.dev.linkUp (linkNo (s.dev.rd (F.COLL_DIM_PORT k)) 0))).foldl (fun s k =>
    s.withDev fun d => d.send (linkNo (d.rd (F.COLL_DIM_PORT k)) 0) { s.joinReq with home := s.fuses.position ^^^ 2 ^ k }) s

/-- Whether a port named in COLL_DIM is UP. -/
def Dev.peerUp (d : Dev) : Bool := d.peerLinks.any (fun k => d.linkUp (linkNo (d.rd (F.COLL_DIM_PORT k)) 0))

/-- A collection of one member with this device as its head (R374). -/
def State.found (s : State) : State :=
  let s := s.setMaps (2 ^ s.fuses.position) 0
  s.withDev fun d =>
    (({ d with coll.members := [], coll.joins := [], coll.leaves := [], coll.memberLevels := [], coll.samplingNext := some false, coll.rejoining := false } : Dev).setHead
      s.fuses.position).wrs [(F.COLL_STATUS_STATE, 3), (F.COLL_VERSION_RUN_LEVEL, d.rd F.COLL_VERSION_LEVEL)]

/-- The checks of Table 14.3 that the device itself makes when JOIN is set. A founding join that can hear no peer has no head to
reach. -/
def State.joinChecks (s : State) (found : Bool) : List (Bool × Nat) :=
  [(s.fuses.variantS, 0xA1), (!s.dev.flag F.DEV_CTL_OPEN, 0xA6), (s.dev.flag F.EVAC_STATUS_EVACUATING, 0xA7),
   (!found && !s.dev.peerUp, 0xA5)]

/-- JOIN written 1 while it reads 0, with FOUND as given (R374). A founding join over live peer links asks whether a head answers
before it forms its collection. -/
def State.collJoin (s : State) (found : Bool) : State :=
  if s.dev.flag F.COLL_CTL_JOIN then s
  else
    let s := s.withDev fun d => d.put F.COLL_CTL_FOUND found
    let (ok, d) := s.dev.checked .join s.fuses.position [F.COLL_REASON_CODE] F.COLL_CTL_JOIN (s.joinChecks found)
    let s := { s with dev := d }
    if ¬ ok then s
    else if found ∧ ¬ s.dev.peerUp then s.found
    else (s.withDev fun d => d.wr F.COLL_STATUS_STATE 1).sendJoin

/-- COLL_JOIN (R374, R375): step 1 of Table 14.4. -/
def execCollJoin (s : State) : Host.Outcome State Fault Refusal := .next (s.collJoin false)

/-- COLL_FOUND (R374). -/
def execCollFound (s : State) : Host.Outcome State Fault Refusal := .next (s.collJoin true)

/-- A join or rejoin refused (R375, R380): a first join clears JOIN; an ISOLATED member stays ISOLATED. -/
def State.joinRefused (s : State) (code : Nat) : State :=
  let s := s.withDev fun d => d.reason .join s.fuses.position code [F.COLL_REASON_CODE]
  if s.dev.coll.rejoining then s.withDev fun d => { d with coll.rejoining := false, coll.joinAccepted := false }
  else s.withDev fun d => ({ d with coll.joinAccepted := false } : Dev).wrs [(F.COLL_CTL_JOIN, 0), (F.COLL_STATUS_STATE, 0)]

/-- Whether a join is under way that the head has not answered. -/
def Dev.joinWaits (d : Dev) : Bool := (d.rd F.COLL_STATUS_STATE = 1 || d.coll.rejoining) && !d.coll.joinAccepted

/-- JOIN_TIMEOUT (Table 14.3, checks 4 and 5): HEAD_UNREACHABLE, but a founding join goes on. -/
def execJoinTimeout (s : State) : Host.Outcome State Fault Refusal :=
  .next <|
    if ¬ s.dev.joinWaits then s
    else if s.dev.flag F.COLL_CTL_FOUND ∧ ¬ s.dev.coll.rejoining then s.found
    else s.joinRefused 0xAA

/-- Checks 6 to 10 of Table 14.3 at the head; for a founding join the answer is HEAD_EXISTS. A member marked LOST may come back to its
position. -/
def State.joinCode (s : State) (m : Msg) : Nat :=
  let seq := s.dev.rd F.COLL_CAT_SEQ_SEQ
  firstCode [(m.addr.toNat.testBit 0, 0xAB),
    (decide (m.arg = s.fuses.position) || (s.dev.map.testBit m.arg && !s.dev.lostMap.testBit m.arg), 0xA4),
    (!closedUnder s.dev.map m.arg, 0xAD), (m.status ≠ s.dev.rd F.COLL_VERSION_MAJOR, 0xA2),
    (digestOf m.data ≠ s.dev.digest, 0xA3), (decide (seq < m.tag) || decide (m.tag + 4096 < seq), 0xA9)]

/-- The journal's card writes after a sequence, sent to a member in order (R375, R378). -/
def State.sendMissing (s : State) (dst seq : Nat) : State :=
  (s.dev.journal.filter (fun w => decide (seq < w.seq) && !(w.holder = some dst && cardState w.new = 7))).foldl
    (fun s w => s.sendCard dst w none) s

/-- JOIN_REQ (R375): the head runs checks 6 to 10 and answers; any other member passes it on to its head (R367). -/
def State.joinReqIn (s : State) (m : Msg) : State :=
  if s.dev.rd F.COLL_STATUS_STATE = 3 then
    let code := s.joinCode m
    let d := s.dev
    let s := if code = 0 then s.withDev fun d => { d with coll.joins := d.coll.joins.filter (·.1 ≠ m.arg) ++ [(m.arg, m.line)] } else s
    let s := s.sendPeer m.arg
      { op := 0x4D, arg := code, status := s.fuses.position, line := min (d.rd F.COLL_VERSION_RUN_LEVEL) m.line,
        tag := d.rd F.COLL_CAT_SEQ_SEQ, addr := BitVec.ofNat 64 d.time, value := BitVec.ofNat 64 d.map }
    if code = 0 then s.sendMissing m.arg m.tag else s
  else if s.dev.inCollection then s.sendPeer (s.dev.rd F.COLL_STATUS_HEAD) m
  else s

/-- JOIN_REQ (R375). -/
def execJoinReq (link : Fin 256) (msg : Msg) (s : State) : Host.Outcome State Fault Refusal :=
  .next (s.peerMessage link msg fun s => s.joinReqIn msg)

/-- JOIN_RSP (R375): a refusal is recorded; an acceptance steps the time base to the head's (Table 14.4, step 3). -/
def State.joinRspIn (s : State) (m : Msg) : State :=
  if ¬ s.dev.joinWaits then s
  else if m.arg ≠ 0 then s.joinRefused m.arg
  else if s.dev.flag F.COLL_CTL_FOUND ∧ ¬ s.dev.coll.rejoining then s.joinRefused 0xAB
  else s.withDev fun d =>
    ((({ d with coll.joinAccepted := true, coll.headKnown := true } : Dev).wrs
      [(F.COLL_STATUS_HEAD, m.status), (F.COLL_VERSION_RUN_LEVEL, m.line)]).correctTime ((m.addr.toNat : Int) - d.time))

/-- JOIN_RSP (R375). -/
def execJoinRsp (link : Fin 256) (msg : Msg) (s : State) : Host.Outcome State Fault Refusal :=
  .next (s.peerMessage link msg fun s => s.joinRspIn msg)

/-- COLL_LEAVE (R376): JOIN written 0 while it reads 1. A member leaves at the next roll call; a device that no head has in its map is
alone at once. -/
def State.collLeave (s : State) : State :=
  if ¬ s.dev.flag F.COLL_CTL_JOIN then s
  else
    let (ok, d) := s.dev.checkedOff .join s.fuses.position [F.COLL_REASON_CODE] F.COLL_CTL_JOIN [(decide (s.dev.allLeaves ≠ 0), 0xA8)]
    let s := { s with dev := d }
    if ¬ ok then s
    else if s.dev.inCollection then s.withDev fun d => { d with coll.leaving := true }
    else s.alone

/-- COLL_LEAVE (R376). -/
def execCollLeave (s : State) : Host.Outcome State Fault Refusal := .next s.collLeave

/-! ## Roll calls (R378, R379) -/

/-- The summary of a ROLL_ANSWER (Table 14.2a). -/
def Dev.faultSummary (d : Dev) : Nat :=
  d.rd F.FAULT_STATUS_FAULT_N + 2 * d.rd F.FAULT_STATUS_OVERFLOW + 4 * d.rd F.SAFE_STATUS_ACTIVE + 8 * d.rd F.EVAC_STATUS_REQUIRED

/-- The answer to a roll call; a member that leaves reports ALONE. -/
def State.rollAnswer (s : State) (call : BitVec 64) : Msg :=
  let d := s.dev
  { op := 0x49, arg := s.fuses.position, tag := d.rd F.COLL_CAT_SEQ_SEQ, addr := call,
    status := (if d.coll.leaving then 0 else d.rd F.COLL_STATUS_STATE) + 8 * d.rd F.COLL_STATUS_OUT_OF_STEP +
      16 * d.rd F.EVAC_STATUS_EVACUATING + 32 * d.rd F.COLL_STATUS_DRIFT,
    value := BitVec.ofNat 64 (d.allLeaves % 2 ^ 24 + 2 ^ 32 * d.rd F.FAULT_STATUS_OPEN + 2 ^ 48 * d.faultSummary),
    cmp := BitVec.ofNat 64 d.time, data := digestData d.digest }

/-- What a roll call carries, adopted at once (R378). -/
def State.adoptCall (s : State) (m : Msg) : State :=
  let s := s.withDev fun d => d.setHead m.arg
  let s := s.setMaps m.value.toNat m.cmp.toNat
  let drift := decide (s.dev.digest ≠ digestOf m.data)
  s.withDev fun d =>
    let d := d.raiseIf (drift && !d.flag F.COLL_STATUS_DRIFT) .digestDrift Src.device
    ({ d with coll.samplingNext := some (m.line.testBit 0), coll.headDigest := digestOf m.data, coll.rejoining := false, coll.joinAccepted := false } : Dev).wrs
      ([(F.COLL_VERSION_RUN_LEVEL, m.status), (F.COLL_STATUS_DRIFT, drift.toNat),
        (F.COLL_STATUS_STATE, if m.arg = s.fuses.position then 3 else 2)] ++
        (if m.arg = s.fuses.position then [] else [(F.COLL_CAT_PROPAGATE, 0)]))

/-- ROLL_CALL (R378): a member adopts it and answers; one that has left, or can no longer be brought level (R379), is alone. A part
without peer links never answers (R4). -/
def State.rollCall (s : State) (m : Msg) : State :=
  let d := s.dev
  let st := d.rd F.COLL_STATUS_STATE
  let inMap := m.value.toNat.testBit s.fuses.position
  let seq := d.rd F.COLL_CAT_SEQ_SEQ
  if s.fuses.variantS ∨ st = 0 then s
  else if (st = 1 ∨ st = 4) ∧ ¬ (d.coll.joinAccepted ∧ inMap) then s
  else if ¬ inMap then s.alone
  else if seq + 4096 < m.tag ∨ m.tag + 4096 < seq then
    (s.withDev fun d => d.reason .join s.fuses.position 0xA9 [F.COLL_REASON_CODE]).alone
  else
    let s := s.adoptCall m
    if m.arg = s.fuses.position then s
    else
      let s := s.sendPeer m.arg (s.rollAnswer m.addr)
      if m.tag < seq then s.sendMissing m.arg m.tag else s

/-- ROLL_CALL (R378). -/
def execRollCall (link : Fin 256) (msg : Msg) (s : State) : Host.Outcome State Fault Refusal :=
  .next (s.peerMessage link msg fun s => s.rollCall msg)

/-- ROLL_ANSWER (R378): recorded at the head; a member behind is sent the missing card writes, a member that leaves is taken out at the
next roll call. -/
def State.rollAnswerIn (s : State) (m : Msg) : State :=
  if s.dev.rd F.COLL_STATUS_STATE ≠ 3 ∨ ¬ s.dev.map.testBit m.arg then s
  else
    let v := m.value.toNat
    let i : MemberInfo :=
      { missed := 0, answered := true, state := m.status % 8, outOfStep := m.status.testBit 3, evacuating := m.status.testBit 4,
        drift := m.status.testBit 5, leaves := v % 2 ^ 24, openRecs := v / 2 ^ 32 % 2 ^ 16, summary := v / 2 ^ 48 % 256, seq := m.tag,
        time := m.cmp.toNat, digest := digestOf m.data }
    let s := s.withDev fun d =>
      { d with coll.members := SMap.put (α := MemberInfo) {} d.coll.members m.arg i,
               coll.leaves := if i.state = 0 then d.coll.leaves.filter (· ≠ m.arg) ++ [m.arg] else d.coll.leaves }
    if m.tag < s.dev.rd F.COLL_CAT_SEQ_SEQ then s.sendMissing m.arg m.tag else s

/-- ROLL_ANSWER (R378). -/
def execRollAnswer (link : Fin 256) (msg : Msg) (s : State) : Host.Outcome State Fault Refusal :=
  .next (s.peerMessage link msg fun s => s.rollAnswerIn msg)

/-- A member's record. -/
def Dev.memberInfo (d : Dev) (m : Nat) : MemberInfo := SMap.get {} d.coll.members m

/-- The head of the next roll call: this device, unless it evacuates or leaves and another member can take the role (R382): then the
lowest other position that neither evacuates nor is LOST nor leaves. -/
def State.nextHead (s : State) (map lost : Nat) : Nat :=
  if s.dev.flag F.EVAC_STATUS_EVACUATING || s.dev.coll.leaving then
    ((positions map).find? (fun m => m ≠ s.fuses.position && !lost.testBit m && !(s.dev.memberInfo m).evacuating)).getD s.fuses.position
  else s.fuses.position

/-- ROLL_CALL_TIMER (R378, R379): the head marks members LOST after three calls without an answer, enters and removes members, and
sends the next call to every member. -/
def State.rollTimer (s : State) : State :=
  if s.dev.rd F.COLL_STATUS_STATE ≠ 3 then s
  else
    let me := s.fuses.position
    let silent := (positions s.dev.map).filter (fun m => m ≠ me && !(s.dev.memberInfo m).answered)
    let s := silent.foldl (fun s m => s.withDev fun d =>
      { d with coll.members := SMap.modify (α := MemberInfo) {} d.coll.members m fun i => { i with missed := i.missed + 1 } }) s
    let newLost := silent.filter (fun m => 3 ≤ (s.dev.memberInfo m).missed && !s.dev.lostMap.testBit m)
    let s := newLost.foldl (fun s m => s.withDev fun d => d.raise .memberLost (Src.member m)) s
    let out := s.dev.coll.leaves ++ (if s.dev.coll.leaving then [me] else [])
    let joins := s.dev.coll.joins
    let old := s.dev.map
    let map := mapOf (fun m => (old.testBit m || joins.any (·.1 = m)) && !out.contains m)
    let lost := mapOf (fun m => (s.dev.lostMap.testBit m || newLost.contains m) && map.testBit m && !joins.any (·.1 = m))
    if map = 0 then s.alone
    else
      let head := s.nextHead map lost
      let s := s.withDev fun d =>
        { d with coll.joins := [], coll.leaves := [],
                 coll.memberLevels := joins.foldl (fun l j => SMap.insert j.1 j.2 l) d.coll.memberLevels,
                 coll.members := d.coll.members.filter (fun kv => map.testBit kv.1) }
      let s := joins.foldl (fun s j => s.withDev fun d => { d with coll.members := SMap.erase j.1 d.coll.members }) s
      let s := s.setMaps map lost
      let level := s.runLevel map
      let s := s.withDev fun d => { d.wr F.COLL_VERSION_RUN_LEVEL level with coll.samplingNext := some (samplingMode map) }
      let d := s.dev
      let call : Msg :=
        { op := 0x48, arg := head, status := level, line := (samplingMode map).toNat, tag := d.rd F.COLL_CAT_SEQ_SEQ,
          addr := BitVec.ofNat 64 d.time, value := BitVec.ofNat 64 map, cmp := BitVec.ofNat 64 lost, data := digestData d.digest }
      let tell := (List.range 64).filter (fun m => m ≠ me && (map.testBit m || old.testBit m))
      let s := tell.foldl (fun s m =>
        (s.withDev fun d => { d with coll.members := SMap.modify (α := MemberInfo) {} d.coll.members m fun i => { i with answered := false } }).sendPeer
          m call) s
      if ¬ map.testBit me then s.alone
      else if head = me then s
      else s.withDev fun d => (d.setHead head).wrs [(F.COLL_STATUS_STATE, 2), (F.COLL_CAT_PROPAGATE, 0)]

/-- ROLL_CALL_TIMER (R378, R379). -/
def execRollCallTimer (s : State) : Host.Outcome State Fault Refusal := .next s.rollTimer

/-- HEAD_LOST (R379, R380): the members that can still reach one another continue with a new head, or this member is ISOLATED. `reach`
holds the positions that this member can still reach, `evac` those that evacuate. -/
def State.headLost (s : State) (reach evac : Nat) : State :=
  if s.dev.rd F.COLL_STATUS_STATE ≠ 2 then s
  else
    let me := s.fuses.position
    let all := positions s.dev.map
    let part := all.filter (fun m => m = me || reach.testBit m)
    let goes := decide (all.length < 2 * part.length) || (decide (all.length = 2 * part.length) && part.contains (all.headD 64))
    if ¬ goes ∨ s.dev.peerLinks = [] then s.isolate
    else
      let head := (part.find? (fun m => !evac.testBit m)).getD (part.headD me)
      let s := s.withDev fun d => { d.setHead head with coll.members := [] }
      let s := s.setMaps s.dev.map (mapOf fun m => s.dev.map.testBit m && !part.contains m)
      s.withDev fun d => d.wr F.COLL_STATUS_STATE (if head = me then 3 else 2)

/-- HEAD_LOST (R379, R380). -/
def execHeadLost (reach evac : BitVec 64) (s : State) : Host.Outcome State Fault Refusal :=
  .next (s.headLost reach.toNat evac.toNat)

/-! ## Agreement on time (R377) -/

/-- TIME_EXCHANGE_TIMER (R377): a member asks the head, unless TSYNC pulses take the place of the exchange. -/
def execTimeExchangeTimer (s : State) : Host.Outcome State Fault Refusal :=
  .next <|
    if s.dev.rd F.COLL_STATUS_STATE = 2 ∧ ¬ s.dev.flag F.COLL_CFG_TSYNC then
      s.sendPeer (s.dev.rd F.COLL_STATUS_HEAD) { op := 0x4A, arg := s.fuses.position, addr := BitVec.ofNat 64 s.dev.time }
    else s

/-- TIME_REQ (R377): the head answers with its time base at arrival and at departure. -/
def State.timeReq (s : State) (m : Msg) : State :=
  if s.dev.rd F.COLL_STATUS_STATE = 3 then
    s.sendPeer m.arg { op := 0x4B, arg := s.fuses.position, addr := m.addr, value := BitVec.ofNat 64 s.dev.time,
                       cmp := BitVec.ofNat 64 s.dev.time }
  else s

/-- TIME_REQ (R377). -/
def execTimeReq (link : Fin 256) (msg : Msg) (s : State) : Host.Outcome State Fault Refusal :=
  .next (s.peerMessage link msg fun s => s.timeReq msg)

/-- An offset measured (R377): shown, corrected, and OUT_OF_STEP kept: entered above 100 ns, left after eight exchanges within it. -/
def Dev.offset (d : Dev) (off : Int) : Dev :=
  let d := (d.wr F.COLL_OFFSET_OFFSET (toField 32 off)).correctTime off
  if 100 < off.natAbs then
    let d := d.raiseIf (!d.flag F.COLL_STATUS_OUT_OF_STEP) .outOfStep Src.device
    { d.wr F.COLL_STATUS_OUT_OF_STEP 1 with coll.inStep := 0, stmt.oos := true }
  else
    let n := d.coll.inStep + 1
    let d : Dev := { d with coll.inStep := n }
    if 8 ≤ n then d.wr F.COLL_STATUS_OUT_OF_STEP 0 else d

/-- TIME_RSP (R377): the offset is half of (t2 − t1) − (t4 − t3). -/
def State.timeRsp (s : State) (m : Msg) : State :=
  if s.dev.rd F.COLL_STATUS_STATE = 2 then
    s.withDev fun d =>
      d.offset ((((m.value.toNat : Int) - m.addr.toNat) - ((d.time : Int) - m.cmp.toNat)) / 2)
  else s

/-- TIME_RSP (R377). -/
def execTimeRsp (link : Fin 256) (msg : Msg) (s : State) : Host.Outcome State Fault Refusal :=
  .next (s.peerMessage link msg fun s => s.timeRsp msg)

/-- TSYNC_PULSE (R377): the pulse left the head at a whole millisecond of its time base; its arrival less TSYNC_DELAY takes the place
of the exchange. -/
def execTsyncPulse (s : State) : Host.Outcome State Fault Refusal :=
  .next <|
    if s.dev.rd F.COLL_STATUS_STATE = 2 ∧ s.dev.flag F.COLL_CFG_TSYNC then
      s.withDev fun d =>
        let t : Int := (d.time : Int) - d.rd F.COLL_CFG_TSYNC_DELAY
        d.offset ((t + 500000) / 1000000 * 1000000 - t)
    else s

/-! ## Rejoining (R380) -/

/-- A peer link is UP again on an ISOLATED member: it rejoins from step 1 of Table 14.4 without a write of JOIN. -/
def State.rejoin (s : State) (l : Nat) : State :=
  if s.dev.rd F.COLL_STATUS_STATE = 4 ∧ ¬ s.dev.coll.rejoining ∧ s.dev.peerPort (l / 4) ∧ s.dev.linkUp l then
    (s.withDev fun d => { d with coll.rejoining := true, coll.joinAccepted := false, coll.headKnown := false }).sendJoin
  else s

/-- SEED_BLOCK (R317): the block on its lane; a peer link that comes UP lets an ISOLATED member rejoin. -/
def execSeedBlock (port : Fin 64) (lane : Fin 18) (payload : BitVec 64) (s : State) : Host.Outcome State Fault Refusal :=
  .next <|
    let up := s.dev.linkUp (linkNo port 0)
    let s := s.block port lane (s.dev.controlHeader port lane) payload.toNat { done := false, pre := 0, post := 0 }
    if up then s else s.rejoin (linkNo port 0)

/-! ## Evacuating a member (R382) -/

/-- The cards of a patron's catalogue that name local leaves or volumes: DPA of the card, patron address and card. -/
def State.leafCards (s : State) (p : Nat) : Nat → Nat → Nat → Nat → List (Nat × Nat × Card)
  | 0, _, _, _ => []
  | fuel + 1, level, table, base =>
    (List.range 256).flatMap (fun i =>
      let cd := table + i * 8
      let c := cardIn (s.peekLine (cd / 64 * 64)) cd
      let pa := base + i * 2 ^ (48 - 8 * level)
      if s.malformed p level c then []
      else if cardState c = 1 then s.leafCards p fuel (level + 1) (cardAddress c) pa
      else if [2, 3, 4, 5].contains (cardState c) then [(cd, pa, c)]
      else [])

/-- Whether a job is at work on a card. -/
def Dev.cardAtWork (d : Dev) (cd : Nat) : Bool := d.jobs.any (fun kj => kj.2.cardDpa = cd && kj.2.st ≠ .ended)

/-- The next local leaf or volume to move: its patron, patron address and card. -/
@[irreducible] def State.nextLeaf (s : State) : Option (Nat × Nat × Card) :=
  (List.range 4096).findSome? (fun p =>
    if s.patronExists p then
      ((s.leafCards p 4 1 (s.dev.rootOf p) 0).find? (fun x => !s.dev.cardAtWork x.1)).map (fun x => (p, x.2))
    else none)

/-- Whether the evacuation may start another job: it stands, in a collection, and fewer than 256 of its jobs run. -/
def Dev.evacMay (d : Dev) : Bool :=
  d.flag F.EVAC_STATUS_EVACUATING && d.inCollection &&
    decide ((d.coll.evacJobs.filter (fun n => ((d.job n).map (fun j => decide (j.st ≠ .ended))).getD false)).length < 256)

/-- Ended jobs of the evacuation released. -/
def Dev.evacRelease (d : Dev) : Dev :=
  let done := d.coll.evacJobs.filter (fun n => ((d.job n).map (fun j => decide (j.st = .ended))).getD true)
  { d with coll.evacJobs := d.coll.evacJobs.filter (fun n => !done.contains n), jobs := d.jobs.filter (fun kj => !done.contains kj.1) }

/-- Whether a list entry is skipped (R382): its member is absent, evacuating or not closed, or its kind is not the card's. -/
def State.entrySkipped (s : State) (e : Nat) (c : Card) : Bool :=
  let m := e / 2 ^ 22 % 64
  !s.reachable m || (s.dev.memberInfo m).evacuating || !closedUnder s.dev.map m || e.testBit 28 ≠ cardVolume c

/-- Entries of the list taken in order: each starts the cross-member job of the next leaf, or is skipped. -/
def State.evacEntries (s : State) : List Nat → State
  | [] => s
  | e :: rest =>
    let s := s.withDev Dev.evacRelease
    if ¬ s.dev.evacMay ∨ s.dev.rd F.COLL_EVAC_COUNT_COUNT ≤ s.dev.coll.evacNext then s
    else
      match s.nextLeaf with
      | none => s
      | some (p, pa, c) =>
        let skip := fun (s : State) => s.withDev fun d => { d.count 0x0116 0 with coll.evacNext := d.coll.evacNext + 1 }
        if s.entrySkipped e c then (skip s).evacEntries rest
        else
          match s.jobStart p pa (2 ^ 16 * (e % 2 ^ 22)) (some (e / 2 ^ 22 % 64)) with
          | (none, s) => s
          | (some (0, some n), s) =>
            (s.withDev fun d => { d with coll.evacNext := d.coll.evacNext + 1, coll.evacJobs := d.coll.evacJobs ++ [n] }).evacEntries rest
          | (_, s) => (skip s).evacEntries rest

/-- The host address of the next entry of the list. -/
def Dev.evacAddr (d : Dev) : Nat := d.pair F.COLL_EVAC_LIST_ADDR / 8 * 8 + 8 * d.coll.evacNext

/-- A line of the list that has come: its entries from the next one on. -/
def State.evacLine (s : State) (line : LineData) : State :=
  let first := s.dev.evacAddr % 64 / 8
  s.evacEntries ((List.range 8).filter (first ≤ ·) |>.map (fun i => line.toNat / 2 ^ (64 * i) % 2 ^ 64))

/-- The line that holds the next entry read over the house link, where the evacuation can start another job (R382). -/
def State.pumpEvac (s : State) : State :=
  let s := if s.dev.coll.evacJobs = [] then s else s.withDev Dev.evacRelease
  let d := s.dev
  if d.evacMay ∧ d.coll.evacNext < d.rd F.COLL_EVAC_COUNT_COUNT ∧ ¬ d.hostOps.any (fun o => o.purpose = .evac) ∧ s.nextLeaf.isSome then
    s.withDev fun d => d.hostRead d.houseLink 0 .evac (d.evacAddr / 64 * 64) 1
  else s

/-- EVAC_LIST_READ (R382): the line of the list that holds the next entry has come from host memory. -/
def execEvacListRead (line : LineData) (s : State) : Host.Outcome State Fault Refusal :=
  .next <|
    let s := s.withDev fun d => { d with hostOps := d.hostOps.filter (fun o => o.purpose ≠ .evac) }
    (s.evacLine line).pumpEvac

/-! ## Answers of the host (R352, R353) -/

/-- Whether a link can carry an answer of the host to the device. -/
def Dev.hostSide (d : Dev) (l : Nat) : Bool := d.linkUp l && !d.peerPort (l / 4)

/-- One line of a host read. -/
def State.hostData (s : State) (l : Nat) (m : Msg) : State :=
  if ¬ s.dev.linkUp l then s
  else if s.dev.peerPort (l / 4) ∨ m.reserved then s.withDev fun d => d.badMessage l 0
  else
    let (o, d) := s.dev.hostData l m
    let s := { s with dev := d }
    match o with
    | some o =>
      if o.purpose = .evac then
        (s.withDev fun d => { d with hostOps := d.hostOps.filter (· ≠ o) }).evacLine m.data
      else s
    | none => s

/-- HOST_DATA (R352). -/
def execHostData (link : Fin 256) (msg : Msg) (s : State) : Host.Outcome State Fault Refusal :=
  .next (s.hostData link msg)

/-- An RSP of the host. -/
def State.hostRsp (s : State) (l : Nat) (m : Msg) : State :=
  if ¬ s.dev.linkUp l then s
  else if s.dev.peerPort (l / 4) ∨ m.reserved then s.withDev fun d => d.badMessage l 0
  else { s with dev := (s.dev.hostRsp l m).2 }

/-- RSP (R353). -/
def execRsp (link : Fin 256) (msg : Msg) (s : State) : Host.Outcome State Fault Refusal := .next (s.hostRsp link msg)

end Sys2Proof.Machine
end

