-- ==== Sys2Proof/Machine/Clocks.lean ====
section
/-!
DEFINITION. Reference inputs, PLLs and the time-base pair (R385 to R398).
-/

namespace Sys2Proof.Machine

open Sys2Proof

/-! ## The PLLs (Table 15.2): 0 to 63 those of the ports, 64 to 67 HP0 to HP3 -/

/-- The state of a PLL (Table 15.4): 0 OFF, 1 ACQUIRE, 2 LOCKED, 3 HOLDOVER, 4 SLEWING. -/
def Dev.pll (d : Dev) (i : Nat) : Nat := if i < 64 then d.rd (F.CLK_PORT_PLL_STATE i) else d.rd (F.CLK_PLL_STATUS_STATE (i - 64))

/-- The source of a PLL's faults and what DETAIL still names (R438, Table 18.4a). -/
def pllSource (i : Nat) : Nat × List (Nat × Nat) :=
  if i < 64 then (Src.port i, [(i, 7)]) else (Src.environment (16 + (i - 64)), [])

/-- A PLL in a state, with its gate and its SLEWING flag; entries are counted (Table 15.12). An entry to ACQUIRE loads the dither
seed, 0 taken as 1 (R389). -/
def Dev.setPll (d : Dev) (i st : Nat) : Dev :=
  let gate := (decide (2 ≤ st)).toNat
  let d := if i < 64 then d.wrs [(F.CLK_PORT_PLL_STATE i, st), (F.CLK_PORT_PLL_GATE_OPEN i, gate)]
    else d.wrs [(F.CLK_PLL_STATUS_STATE (i - 64), st), (F.CLK_PLL_STATUS_GATE_OPEN (i - 64), gate),
                (F.CLK_PLL_STATUS_SLEWING (i - 64), (decide (st = 4)).toNat)]
  let d : Dev := { d with clk.lockedIn := d.clk.lockedIn.filter (· ≠ i) }
  match st with
  | 1 =>
    let d := d.count 0x0823 i
    if i < 64 then { d with clk.dither := SMap.insert i (atLeastOne (d.rd (F.CLK_PORT_PLL_SEED i))) d.clk.dither } else d
  | 3 => d.count 0x0821 i
  | 4 => d.count 0x0822 i
  | _ => d

/-- The time-base generator after a change of HP0 or HP1 (R394): it follows its PLL while that is LOCKED or SLEWING, else the other one
if that is, else one in HOLDOVER; with none it coasts on the ring oscillator. -/
def Dev.timeBase (d : Dev) : Dev :=
  let act := (List.range 2).find? (fun i => d.flag (F.CLK_PLL_STATUS_ACTIVE i))
  let good := fun i => d.pll (64 + i) = 2 || d.pll (64 + i) = 4
  let hold := fun i => d.pll (64 + i) = 3
  let first := act.getD 0
  let pick := [first, 1 - first].find? good |>.or ([first, 1 - first].find? hold)
  let d : Dev := if (List.range 2).any (fun i => d.pll (64 + i) = 2) then { d with tbLost := false } else d
  match pick with
  | some i =>
    if act = some i then d
    else
      let d := d.wrs [(F.CLK_PLL_STATUS_ACTIVE i, 1), (F.CLK_PLL_STATUS_ACTIVE (1 - i), 0)]
      if act.isSome then d.count 0x0824 0 else d
  | none =>
    match act with
    | some i => (({ d with tbLost := true } : Dev).wr (F.CLK_PLL_STATUS_ACTIVE i) 0).raise .timebasePllLost (Src.environment (16 + i))
    | none => d

/-- A PLL moved to a state: a port PLL whose gate closes sends its links to DETECT (R393); HP3 takes a frequency change that waited
for LOCKED; HP0 and HP1 move the time base. -/
def State.pllTo (s : State) (i st : Nat) : State :=
  let wasOpen := decide (2 ≤ s.dev.pll i)
  let s := s.withDev fun d => d.setPll i st
  let s := if i = 67 ∧ st = 2 ∧ s.dev.clk.freqPending then
      s.withDev fun d => ({ d with clk.freqPending := false } : Dev).setPll 67 1
    else s
  let s := if i < 64 ∧ wasOpen ∧ st < 2 then (List.range 4).foldl (fun s k => s.toDetect (linkNo i k) true) s else s
  if i = 64 ∨ i = 65 then s.withDev Dev.timeBase else s

/-! ## Reference inputs (R386, R387, R396, R397) -/

/-- The state of a reference input: 0 ABSENT, 1 QUALIFIED, 2 LOST, 3 BAD. -/
def Dev.refState (d : Dev) (i : Nat) : Nat := if i = 0 then d.rd F.CLK_REF_STATUS_A_STATE else d.rd F.CLK_REF_STATUS_B_STATE

/-- A reference input in a state. -/
def Dev.setRef (d : Dev) (i st : Nat) : Dev := if i = 0 then d.wr F.CLK_REF_STATUS_A_STATE st else d.wr F.CLK_REF_STATUS_B_STATE st

/-- The input the PLLs are to follow (R387): under AUTO one that is QUALIFIED, REFCLK_A first, but a followed REFCLK_B is kept while
QUALIFIED until REFCLK_A has been back for 100 ms. -/
def Dev.refChoice (d : Dev) : Nat :=
  match d.rd F.CLK_REF_CTL_SELECT with
  | 1 => 0
  | 2 => 1
  | _ =>
    let now := d.rd F.CLK_REF_STATUS_FOLLOWING_B
    if d.refState now = 1 then now else if d.refState (1 - now) = 1 then 1 - now else now

/-- The PLLs after a change of the inputs or of the choice: a loss puts every locked one in HOLDOVER; a followed input that is QUALIFIED
takes each out of it, by its phase error in ps (R397). -/
def State.follow (s : State) (choice : Nat) (errors : List Int) : State :=
  let old := s.dev.rd F.CLK_REF_STATUS_FOLLOWING_B
  let good := decide (s.dev.refState choice = 1)
  let s := if choice = old ∧ good then s
    else (List.range 68).foldl (fun s i => if s.dev.pll i = 2 ∨ s.dev.pll i = 4 then s.pllTo i 3 else s) s
  let s := if choice = old then s else s.withDev fun d => (d.wr F.CLK_REF_STATUS_FOLLOWING_B choice).count 0x0820 0
  if ¬ good then s
  else
    let s := (List.range 68).foldl (fun s i =>
      if s.dev.pll i = 3 then s.pllTo i (if (errors.getD i 0).natAbs ≤ 1000 then 2 else 4) else s) s
    s.withDev fun d => { d with clk.longRaised := false }

/-- REF_QUALIFY (R386): the input is QUALIFIED. -/
def execRefQualify (input : Fin 2) (errors : List Int) (s : State) : Host.Outcome State Fault Refusal :=
  .next <|
    let s := s.withDev fun d => d.setRef input 1
    s.follow s.dev.refChoice errors

/-- REF_LOST (R386): a QUALIFIED input without an edge for 64 ns. -/
def execRefLost (input : Fin 2) (errors : List Int) (s : State) : Host.Outcome State Fault Refusal :=
  .next <|
    if s.dev.refState input ≠ 1 then s
    else
      let s := s.withDev fun d => (d.setRef input 2).raise .refLost (Src.environment (20 + input))
      s.follow s.dev.refChoice errors

/-- REF_WINDOW (R386): a window of 2^14 reference periods, its reading in units of 0.1 ppm; beyond 1,000 ppm the input is BAD. -/
def execRefWindow (input : Fin 2) (ppm : Int) (errors : List Int) (s : State) : Host.Outcome State Fault Refusal :=
  .next <|
    let s := if input = 0 then s.withDev fun d => d.wr F.CLK_REF_STATUS_A_PPM (toField 16 ppm) else s
    if s.dev.refState input ≠ 1 ∨ ppm.natAbs ≤ 10000 then s
    else
      let s := s.withDev fun d => (d.setRef input 3).raise .refBad (Src.environment (20 + input))
      s.follow s.dev.refChoice errors

/-- REF_RETURN_HOLD (R387): under AUTO, REFCLK_A has stayed QUALIFIED for 100 ms. -/
def execRefReturnHold (errors : List Int) (s : State) : Host.Outcome State Fault Refusal :=
  .next <|
    let sel := s.dev.rd F.CLK_REF_CTL_SELECT
    if sel = 1 ∨ sel = 2 ∨ s.dev.refState 0 ≠ 1 then s else s.follow 0 errors

/-- A write of SELECT (R387). The phase errors that the PLLs find are the outside world's: free values. -/
def State.refSelect (s : State) : State :=
  let (v, d) := s.dev.fresh
  let s := { s with dev := d }
  s.follow s.dev.refChoice ((List.range 68).map (fun i => if v.getLsbD i then 2000 else 0))

/-! ## Locking (R391, R392) -/

/-- The loop's control was clamped in ACQUIRE so many times (R392). -/
def Dev.clamps (d : Dev) (i n : Nat) : Dev :=
  let d := if i < 64 then d else d.bumpBy (F.CLK_PLL_STATUS_CLAMPS (i - 64)) n
  (List.range n).foldl (fun d _ => d.raise .pllVcoClamp (pllSource i).1 (pllSource i).2) d

/-- PLL_LOCK_DETECT (R391): the lock detector of a PLL in ACQUIRE reads LOCKED_IN; the window check runs. -/
def execPllLockDetect (pll : Fin 68) (clamps : Nat) (s : State) : Host.Outcome State Fault Refusal :=
  s.next fun d =>
    if d.pll pll ≠ 1 then d
    else
      let d := d.clamps pll clamps
      { d with clk.lockedIn := d.clk.lockedIn.filter (· ≠ pll.val) ++ [pll.val] }

/-- PLL_WINDOW_CHECK (R392): a check that passes opens the gate; one that fails leaves the PLL in ACQUIRE. -/
def execPllWindowCheck (pll : Fin 68) (pass : Bool) (s : State) : Host.Outcome State Fault Refusal :=
  .next <|
    if s.dev.pll pll ≠ 1 ∨ ¬ s.dev.clk.lockedIn.contains pll.val then s
    else if pass then s.pllTo pll 2
    else s.withDev fun d => { d with clk.lockedIn := d.clk.lockedIn.filter (· ≠ pll.val) }

/-- PLL_UNLOCK counted and raised. -/
def Dev.unlocked (d : Dev) (i : Nat) : Dev :=
  (d.bump (if i < 64 then F.CLK_PORT_PLL_UNLOCKS i else F.CLK_PLL_STATUS_UNLOCKS (i - 64))).raise .pllUnlock (pllSource i).1 (pllSource i).2

/-- PLL_ACQUIRE_TIMEOUT (R391): no lock within 200 µs; ACQUIRE starts again. -/
def execPllAcquireTimeout (pll : Fin 68) (s : State) : Host.Outcome State Fault Refusal :=
  .next <| if s.dev.pll pll ≠ 1 then s else (s.pllTo pll 1).withDev fun d => d.unlocked pll

/-- PLL_LOCK_LOST (R391): with the reference QUALIFIED, the gate closes and the PLL acquires again. -/
def execPllLockLost (pll : Fin 68) (s : State) : Host.Outcome State Fault Refusal :=
  .next <|
    if (s.dev.pll pll ≠ 2 ∧ s.dev.pll pll ≠ 4) ∨ s.dev.refState (s.dev.rd F.CLK_REF_STATUS_FOLLOWING_B) ≠ 1 then s
    else (s.withDev fun d => d.unlocked pll).pllTo pll 1

/-- PLL_SLEW_DONE (R397). -/
def execPllSlewDone (pll : Fin 68) (s : State) : Host.Outcome State Fault Refusal :=
  .next <| if s.dev.pll pll ≠ 4 then s else s.pllTo pll 2

/-- HOLDOVER_LONG (R396): raised once for a holdover of 10 s. -/
def execHoldoverLong (s : State) : Host.Outcome State Fault Refusal :=
  s.next fun d =>
    if d.clk.longRaised ∨ ¬ (List.range 68).any (fun i => d.pll i = 3) then d
    else ({ d with clk.longRaised := true } : Dev).raise .holdoverLong (Src.environment (20 + d.rd F.CLK_REF_STATUS_FOLLOWING_B))

/-- A write of FREQ relocks HP3; in HOLDOVER the change waits for LOCKED (R391, R392). -/
def State.hp3Freq (s : State) (freq : Nat) : State :=
  let s := s.withDev fun d => d.wr F.CLK_HP3_CTL_FREQ freq
  match s.dev.pll 67 with
  | 0 => s
  | 3 => s.withDev fun d => { d with clk.freqPending := true }
  | _ => s.pllTo 67 1

/-- CLK_HP3_FREQ (R391, R392). -/
def execClkHp3Freq (freq : BitVec 4) (s : State) : Host.Outcome State Fault Refusal := .next (s.hp3Freq freq.toNat)

end Sys2Proof.Machine
end

