-- ==== Sys2Proof/Machine/Domain.lean ====
section
/-!
DEFINITION. Shafts brought to self-refresh and out of it (R100, Table 4.13), and the power domains (R419 to R423): drains, isolation,
gating and wakes (Tables 17.3, 17.4).
-/

namespace Sys2Proof.Machine

open Sys2Proof

/-! ## Self-refresh of whole shafts (R100) -/

/-- Every shelf of a shaft precharged and in self-refresh; claims end with it. -/
def Dev.asleep (d : Dev) (n : Nat) : Dev :=
  let d : Dev := { d with
    banks := SMap.mapV {} (fun k b => if k / 272 = n then { b with st := .idle, op := .none, written := false } else b) d.banks,
    bayBanks := d.bayBanks.filter (fun kv => kv.1 / 272 ≠ n),
    claims := d.claims.filter (fun kc => kc.1 / 544 ≠ n) }
  (List.range 17).foldl (fun d l =>
    if d.portPowered n l then d.setShelf (shelfKey n l) fun p => { p with st := .selfRefresh, baySt := .selfRefresh } else d) d

/-- Every shaft brought to self-refresh (Table 4.13): the transfer orders complete, then PRE with ALL and SREF enter. -/
def State.allAsleep (s : State) : State :=
  (List.range 64).foldl (fun s n => (s.drainOrder n 32).withDev fun d => d.asleep n) s

/-- Whether a level has a reserve's rest: RESERVE with no sparing under way (R106). -/
def Dev.resting (d : Dev) (level : Nat) : Bool := d.role level = 1 && d.rd F.SPARE_STATUS_STATE = 0

/-- The shelves of every shaft leave self-refresh (Table 18.6, Step 2), a resting reserve level excepted. -/
def Dev.allAwake (d : Dev) : Dev :=
  (List.range 1088).foldl (fun d sh =>
    if (d.shelf sh).st = .selfRefresh ∧ ¬ d.resting (sh % 17) then
      (List.range 16).foldl (fun d i => d.setOwed (sh * 16 + i) 0)
        (d.setShelf sh fun p => { p with st := .ready, baySt := .ready, done := 0xFFFF })
    else d) d

/-! ## What a domain holds (R420) -/

/-- Register fields whose registers lie in a range of addresses returned to their reset values. -/
def Dev.clearFields (d : Dev) (lo n : Nat) : Dev :=
  { d with fields := d.fields.filter (fun kv => kv.1 / 32 < lo || decide (lo + n ≤ kv.1 / 32)) }

/-- The registers of a port returned to reset with its domain; the lane maps, which the ledger holds, stay (R298). -/
def Dev.clearPort (d : Dev) (p : Nat) : Dev :=
  let map := (d.regWord .LANE_MAP_TX p 0, d.regWord .LANE_MAP_RX p 0)
  let d := d.clearFields (0x100000 + p * 0x1000) 0x1000
  let put := fun (d : Dev) (r : RegName) (v : Nat) => (r.fields p 0).foldl (fun d f => d.wr f (v / 2 ^ f.lo)) d
  let d := put (put d .LANE_MAP_TX map.1) .LANE_MAP_RX map.2
  { d with binding := d.binding.filter (fun kv => kv.1 / 4096 ≠ p) }

/-- The PLL of a domain, if it has one. -/
def domainPll (i : Nat) : Option Nat := if i < 64 then some i else if 174 ≤ i ∧ i < 178 then some (64 + (i - 174)) else none

/-- What the loss of a domain's supply takes with it (R420: a domain has no retention state). -/
def State.domainEmptied (s : State) (i : Nat) : State :=
  let s := match domainPll i with
    | some k => s.pllTo k 0
    | none => s
  if i < 64 then s.withDev fun d => d.clearPort i
  else if i < 128 then
    let b := i - 64
    s.withDev fun d =>
      [RegName.INTEG_CE, .INTEG_UE, .INTEG_WB, .INTEG_MISC, .SHELF_READ_STATUS].foldl
        (fun d r => (r.fields b 0).foldl (fun d f => d.wr f f.reset) d) d
  else if i < 144 then
    let k := i - 128
    s.withDev fun d =>
      (RegName.fields .RR_INTEG k 0).foldl (fun d f => d.wr f f.reset) { d with room := d.room.filter (fun kl => roomKeySlice kl.1 ≠ k) }
  else if i < 148 then
    let w := i - 144
    s.withDev fun d => { d with index := SMap.put [] d.index w [], walkCache := SMap.put [] d.walkCache w [] }
  else if i = 172 ∨ i = 173 then s.withDev fun d => d.wr F.DEV_REG_STANDBY_READY 0
  else if 178 ≤ i ∧ i < 246 then
    let l := (i - 178) / 4
    let q := (i - 178) % 4
    s.withDev fun d => (List.range 16).foldl (fun d j =>
      let n := 16 * q + j
      (d.asleep n).setShelf (shelfKey n l) fun _ => {}) d
  else s

/-! ## Gating (Tables 17.3, 17.4) -/

/-- The domain of a source that containment holds OFF until its record is cleared (Table 18.3). -/
def sourceDomain (source : Nat) : Option Nat :=
  let i := source % 256
  match source / 256 with
  | 0x7 => some (Dom.concourse i)
  | 0x8 => if 16 ≤ i ∧ i < 32 then some (Dom.roomSlice (i - 16)) else if 32 ≤ i ∧ i < 40 then some (Dom.sealSlice (i - 32)) else if 48 ≤ i ∧ i < 56 then some (Dom.trolleyGroup (i - 48)) else none
  | 0xD => some i
  | _ => none

/-- Whether wake requests for a domain are refused until a record is cleared (Table 18.3). -/
def Dev.heldOff (d : Dev) (i : Nat) : Bool := d.flt.records.any (fun r => r.reaction = 2 && sourceDomain r.source = some i)

/-- Whether a domain is one of the port domains fused on the HJ-1664S-W (R2). -/
def State.fused (s : State) (i : Nat) : Bool := s.fuses.variantS && decide (32 ≤ i) && decide (i < 64)

/-- The drain of a domain's kind begun (Table 17.4). -/
def State.gateDrain (s : State) (i : Nat) : State :=
  let s := s.withDev fun d => d.wr (F.POWER_DOMAIN_STATE i) 1
  if 64 ≤ i ∧ i < 128 then
    let b := i - 64
    if s.dev.rd (F.TWIN_STATUS_MODE b) = 0 ∧ s.dev.rd (F.TWIN_STATUS_MODE (twinOf b)) = 0 then s.takeover b 1 [] else s
  else if 128 ≤ i ∧ i < 144 then s.emptySlice (i - 128)
  else if 156 ≤ i ∧ i < 164 then (if s.dev.groupFits (i - 156) then s.withDev fun d => d.moveGroup (i - 156) else s)
  else s

/-- Whether the drain of a domain is complete. -/
def State.drained (s : State) (i : Nat) : Bool :=
  if 64 ≤ i ∧ i < 128 then s.dev.rd (F.TWIN_STATUS_MODE (i - 64)) = 1 && !s.dev.flag (F.TWIN_STATUS_SWITCHING (i - 64))
  else if 128 ≤ i ∧ i < 144 then !s.dev.room.any (fun kl => roomKeySlice kl.1 = i - 128)
  else if 156 ≤ i ∧ i < 164 then
    let g := i - 156
    (List.range 4).all (fun k => (s.dev.work (4 * g + k)).isNone) && (s.dev.groupOf g).fetched.isEmpty && (s.dev.groupOf g).recalled.isEmpty
  else true

/-- The end of a domain's drain (Table 17.3): clamps, then the header switches. -/
def State.domainDrained (s : State) (i : Nat) : State :=
  if s.dev.rd (F.POWER_DOMAIN_STATE i) ≠ 1 then s
  else
    let s := if 156 ≤ i ∧ i < 164 ∧ ¬ s.drained i ∧ s.dev.groupFits (i - 156) then s.withDev fun d => d.moveGroup (i - 156)
      else if 128 ≤ i ∧ i < 144 ∧ ¬ s.drained i then s.emptySlice (i - 128) else s
    if s.drained i then (s.withDev fun d => d.domainOff i).domainEmptied i else s

/-- A domain gated by containment (Table 18.3): through the states of Table 17.3, with the drain of its kind. -/
def State.containGate (s : State) (i : Nat) : State :=
  if s.dev.rd (F.POWER_DOMAIN_STATE i) = 3 ∨ s.dev.rd (F.POWER_DOMAIN_STATE i) = 1 then s else s.gateDrain i

/-! ## Wakes -/

/-- A domain's switches closed, its reset held (Table 17.3). -/
def State.wakeStart (s : State) (i : Nat) : State :=
  if s.dev.rd (F.POWER_DOMAIN_STATE i) = 3 then s.withDev fun d => d.wr (F.POWER_DOMAIN_STATE i) 4 else s

/-- A waking domain's supply is good: reset and clamps released, ALIVE 1, and the wake check runs; a PLL acquires. -/
def State.supplyGood (s : State) (i : Nat) : State :=
  if s.dev.rd (F.POWER_DOMAIN_STATE i) ≠ 4 then s
  else
    let s := s.withDev fun d => d.wrs [(F.POWER_DOMAIN_STATE i, 5), (F.POWER_DOMAIN_ALIVE i, 1)]
    match domainPll i with
    | some k => if s.dev.pll k = 0 then s.pllTo k 1 else s
    | none => s

/-- The wake check of a domain (Table 17.4). A bay that passes takes its shaft back unless it is withdrawn; a failed one raises
DOMAIN_WAKE_FAIL. -/
def State.wakeChecked (s : State) (i : Nat) (pass : Bool) : State :=
  if s.dev.rd (F.POWER_DOMAIN_STATE i) ≠ 5 then s
  else if pass then
    let s := s.withDev fun d => d.domainWoken i
    if 64 ≤ i ∧ i < 128 then
      let b := i - 64
      if s.dev.rescue.contains b then s.rescueEnd b true
      else if s.dev.rd (F.TWIN_STATUS_MODE b) = 1 ∧ ¬ s.dev.withdrawnBays.contains b then s.handback b else s
    else if i = 172 ∨ i = 173 then
      s.withDev fun d => if i - 172 ≠ d.rd F.DEV_REG_ACTIVE then d.wr F.DEV_REG_STANDBY_READY 1 else d
    else if 178 ≤ i ∧ i < 246 then
      let l := (i - 178) / 4
      let q := (i - 178) % 4
      if s.dev.resting l then
        s.withDev fun d => (List.range 16).foldl (fun d j =>
          d.setShelf (shelfKey (16 * q + j) l) fun p => { p with st := .selfRefresh, baySt := .selfRefresh }) d
      else s
    else s
  else
    let s := (s.withDev fun d => (d.wrs [(F.POWER_DOMAIN_STATE i, 3), (F.POWER_DOMAIN_ALIVE i, 0)]).raise .domainWakeFail (Src.domain i)).domainEmptied i
    if 64 ≤ i ∧ i < 128 then s.rescueEnd (i - 64) false else s

end Sys2Proof.Machine
end

