-- ==== Sys2Proof/Machine/Test.lean ====
section
/-!
DEFINITION. Spot checks and the closing inventory (R452 to R459).
-/

namespace Sys2Proof.Machine

open Sys2Proof

/-! ## Spot checks (R454, R455, Tables 18.8, 18.9) -/

/-- The links of a port that are neither DISABLED, DETECT nor HALTED. -/
def Dev.portBusy (d : Dev) (p : Nat) : Bool := (List.range 4).any (fun k => !List.contains [0, 1, 9] (d.lst (4 * p + k)))

/-- Whether every port of a concourse slice is disabled. -/
def Dev.concourseIdle (d : Dev) (c : Nat) : Bool := (List.range 8).all (fun i => !d.flag (F.PORT_CTL_ENABLE (8 * c + i)))

/-- Whether test access is open (R487). -/
def Dev.testAccess (d : Dev) : Bool := decide (2 ≤ d.rd F.FOOT_TAP_STATUS_SCOPE)

/-- Whether a link of the keeper port is UP. -/
def State.keeperUp (s : State) : Bool :=
  s.layout.keeperValid && (List.range 4).any (fun k => s.dev.linkUp (4 * s.layout.keeperPort + k))

/-- The start condition of a domain's kind (Table 18.8): the code where it does not hold. -/
def State.sliceCode (s : State) (i : Nat) : Nat :=
  let d := s.dev
  if i < 64 then (if d.portBusy i then 0xE4 else 0)
  else if i < 128 then
    let b := i - 64
    if d.rd (F.TWIN_STATUS_MODE b) ≠ 0 ∨ d.rd (F.TWIN_STATUS_MODE (twinOf b)) ≠ 0 then 0xE3
    else if (d.bayTokens b).deferred then 0xE5 else 0
  else if i < 148 then 0
  else if i < 156 then (if d.concourseIdle (i - 148) then 0 else 0xE3)
  else if i < 164 then (if d.domainOn (Dom.trolleyGroup ((i - 156) ^^^ 1)) then 0 else 0xE3)
  else if i < 172 then 0
  else if i < 174 then (if i - 172 = d.rd F.DEV_REG_ACTIVE then 0xE3 else 0)
  else if i = 246 then (if d.testAccess then 0xE3 else 0)
  else if i = 247 then (if s.keeperUp then 0 else 0xE3)
  else 0xE2

/-- Whether a slice runs. -/
def Dev.slicing (d : Dev) : Bool := d.rd F.TEST_SLICE_STATUS_STATE ≠ 0

/-- Whether the inventory runs. -/
def Dev.taking (d : Dev) : Bool := d.rd F.INVENTORY_STATUS_STATE = 1

/-- The checks of a slice's START (Table 18.14). -/
def State.sliceChecks (s : State) (i : Nat) : List (Bool × Nat) :=
  [(s.dev.flag F.SAFE_STATUS_ACTIVE, 0xE8), (s.dev.slicing || s.dev.taking, 0xE1),
   (decide (248 ≤ i) || (decide (174 ≤ i) && decide (i < 246)) || s.dev.rd (F.POWER_DOMAIN_STATE i) ≠ 0, 0xE2),
   (s.sliceCode i ≠ 0, s.sliceCode i)]

/-- PREPARING (Table 18.9): the drain of the kind, and the domain isolated; HP3 is woken where it is gated (R395). -/
def State.sliceBegin (s : State) (i : Nat) : State :=
  let s := s.withDev fun d =>
    d.wrs [(F.TEST_SLICE_STATUS_STATE, 1), (F.TEST_SLICE_STATUS_DOMAIN, i), (F.TEST_SLICE_STATUS_PATTERNS_DONE, 0),
      (F.TEST_SLICE_START, 1)]
  let s := s.wakeStart (Dom.pll 3)
  let s := if 64 ≤ i ∧ i < 128 then s.takeover (i - 64) 2 []
    else if 128 ≤ i ∧ i < 144 then s.emptySlice (i - 128)
    else if 156 ≤ i ∧ i < 164 ∧ s.dev.groupFits (i - 156) then s.withDev fun d => d.moveGroup (i - 156)
    else s
  s.withDev fun d =>
    (if i = 172 ∨ i = 173 then d.wr F.DEV_REG_STANDBY_READY 0 else d).wr (F.POWER_DOMAIN_ALIVE i) 0

/-- START written (R454). -/
def State.sliceStart (s : State) (i : Nat) : State :=
  let s := s.withDev fun d => d.wr F.TEST_SLICE_DOMAIN i
  let was := s.dev.rd F.TEST_SLICE_START
  let (ok, d) := s.dev.checked .slice i [F.TEST_REASON_CODE] F.TEST_SLICE_START (s.sliceChecks i)
  let s := { s with dev := d }
  if ok then s.sliceBegin i else s.withDev fun d => d.wr F.TEST_SLICE_START was

/-- SLICE_START (R454). -/
def execSliceStart (domain : BitVec 8) (s : State) : Host.Outcome State Fault Refusal := .next (s.sliceStart domain.toNat)

/-- SLICE_SCHEDULE (R454): the next domain in ascending number whose start condition holds. -/
def execSliceSchedule (s : State) : Host.Outcome State Fault Refusal :=
  .next <|
    if ¬ s.dev.flag F.TEST_SCHED_EN ∨ s.dev.inventoried then s
    else
      match ((List.range 248).map (fun k => (s.dev.test.next + k) % 248)).find? (fun i => firstCode (s.sliceChecks i) = 0) with
      | none => s
      | some i => ({ s with dev := { s.dev with test.next := (i + 1) % 248 } } : State).sliceBegin i

/-- SLICE_PREPARED (R453, R455): once its drain is complete the domain's state is saved, its secrets are cleared, and the test runs. -/
def execSlicePrepared (s : State) : Host.Outcome State Fault Refusal :=
  .next <|
    let i := s.dev.rd F.TEST_SLICE_STATUS_DOMAIN
    if s.dev.rd F.TEST_SLICE_STATUS_STATE ≠ 1 then s
    else
      let s := if 156 ≤ i ∧ i < 164 ∧ ¬ s.drained i ∧ s.dev.groupFits (i - 156) then s.withDev fun d => d.moveGroup (i - 156) else s
      if s.drained i then s.withDev fun d => d.wr F.TEST_SLICE_STATUS_STATE 3 else s

/-- A slice stopped before its end (R452, R455): RESTORING with its result, 2 INCOMPLETE or 3 ABORTED. -/
def Dev.sliceStop (d : Dev) (result patterns : Nat) : Dev :=
  let st := d.rd F.TEST_SLICE_STATUS_STATE
  if st = 0 ∨ 4 ≤ st then d
  else ({ d with test.result := result } : Dev).wrs
    [(F.TEST_SLICE_STATUS_STATE, 5), (F.TEST_SLICE_STATUS_PATTERNS_DONE, if st = 3 then patterns else 0)]

/-- SLICE_STOP (R455). -/
def execSliceStop (patterns : BitVec 16) (s : State) : Host.Outcome State Fault Refusal := s.next fun d => d.sliceStop 3 patterns.toNat

/-- SLICE_HP3_TIMEOUT (R455). -/
def execSliceHp3Timeout (patterns : BitVec 16) (s : State) : Host.Outcome State Fault Refusal :=
  s.next fun d => d.sliceStop 3 patterns.toNat

/-- SLICE_URGENT_STOP (R457): a held request stops a slice of a wing or a sealing slice. -/
def execSliceUrgentStop (patterns : BitVec 16) (s : State) : Host.Outcome State Fault Refusal :=
  s.next fun d =>
    let i := d.rd F.TEST_SLICE_STATUS_DOMAIN
    if (144 ≤ i ∧ i < 148) ∨ (164 ≤ i ∧ i < 172) then d.sliceStop 2 patterns.toNat else d

/-- The patterns of a domain's kind (Table 18.8). -/
def slicePatterns (i : Nat) : Nat :=
  if i < 64 then 4096 else if i < 128 then 8192 else if i < 144 then 2048 else if i < 148 then 8192 else if i < 164 then 4096
  else if i < 172 then 8192 else if i < 174 then 16384 else 1024

/-- SLICE_TEST_DONE (R452, R455): the signature and the arrays are compared. -/
def execSliceTestDone (outcome : SliceOutcome) (s : State) : Host.Outcome State Fault Refusal :=
  s.next fun d =>
    if d.rd F.TEST_SLICE_STATUS_STATE ≠ 3 then d
    else
      let mem := decide (outcome.failures ≠ 0)
      ({ d with test.result := (outcome.logicFail || mem).toNat } : Dev).wrs
        [(F.TEST_SLICE_STATUS_STATE, 5), (F.TEST_SLICE_STATUS_PATTERNS_DONE, slicePatterns (d.rd F.TEST_SLICE_STATUS_DOMAIN)),
         (F.TEST_RESULT_ARRAY, if mem then outcome.array.toNat else 0), (F.TEST_RESULT_LOGIC_FAIL, outcome.logicFail.toNat),
         (F.TEST_RESULT_MEM_FAIL, mem.toNat), (F.TEST_RESULT_FAILURES, min outcome.failures 4194303),
         (F.TEST_FAIL_ADDR_ADDR, if mem then outcome.addr.toNat else 0),
         (F.TEST_FAIL_BITS_BITS 0, if mem then outcome.bits.toNat else 0),
         (F.TEST_FAIL_BITS_BITS 1, if mem then outcome.bits.toNat / 2 ^ 32 else 0)]

/-- SLICE_RESTORED (R455, R457): the domain is reset, restored and wake-checked; clamps are released, a bay takes its shaft back, and
held requests go on in arrival order. A wake check that fails makes the result FAIL. -/
def execSliceRestored (pass : Bool) (s : State) : Host.Outcome State Fault Refusal :=
  .next <|
    if s.dev.rd F.TEST_SLICE_STATUS_STATE ≠ 5 then s
    else
      let i := s.dev.rd F.TEST_SLICE_STATUS_DOMAIN
      let result := if pass then s.dev.test.result else 1
      let s := s.withDev fun d =>
        let d := d.wrs [(F.TEST_SLICE_STATUS_STATE, 0), (F.TEST_SLICE_STATUS_RESULT, result), (F.TEST_SLICE_START, 0),
          (F.POWER_DOMAIN_ALIVE i, 1)]
        let d := if (i = 172 ∨ i = 173) ∧ result ≠ 1 then d.wr F.DEV_REG_STANDBY_READY 1 else d
        let d := d.raiseIf (result = 1) .selfTestFail (Src.domain i) [(d.rd F.TEST_RESULT_ARRAY, 8)]
        d.raiseIf (result = 2) .sliceIncomplete (Src.domain i)
      let s := if 64 ≤ i ∧ i < 128 then
          let b := i - 64
          if s.dev.rescue.contains b then s.rescueEnd b (result ≠ 1)
          else if result ≠ 1 ∧ s.dev.rd (F.TWIN_STATUS_MODE b) = 1 then s.handback b else s
        else s
      s.releaseAll fun h => match h with
        | .wing _ => true
        | _ => false

/-! ## Phases of Table 18.10 -/

/-- The first phase that failed. -/
def Dev.phaseFailed (d : Dev) (k : Nat) : Dev := if d.test.failPhase = 0 then { d with test.failPhase := k } else d

/-- A failed domain: its record names the domain; no array is reported. -/
def Dev.domainFailed (d : Dev) (k i : Nat) : Dev := (d.raise .selfTestFail (Src.domain i) [(0, 8)]).phaseFailed k

/-- A failed working column swapped onto a spare of its group; without a free one the phase fails (R290). -/
def Dev.columnFailed (d : Dev) (k shaft group col : Nat) : Dev :=
  match (List.range 2).find? (fun sp => !d.spareTaken shaft group sp) with
  | some sp => (d.orderSwap shaft group col sp).bump F.INVENTORY_STATUS_REPAIRS
  | none => (d.raise .spareColumnsExhausted (Src.bay shaft) [(group, 4)]).phaseFailed k

/-- A row with a line in error withdrawn into a free spare row without copying; a bank without one fails the phase. -/
def Dev.rowFailed (d : Dev) (k shaft level bank row : Nat) : Dev :=
  let b := bankKey shaft level bank
  match d.freeSpare b with
  | none => d.phaseFailed k
  | some j =>
    let d : Dev := { d with rowMap := SMap.put 0 d.rowMap (rowKey shaft level bank row) (j + 1),
                            spareUsed := SMap.put 0 d.spareUsed b (d.sparesUsed b + 2 ^ j) }
    (d.ledgerRequest { record := recordNo 0x06 (rowMapIndex shaft level bank),
                       payload := d.rowMapPayload shaft level bank none }).bump F.INVENTORY_STATUS_REPAIRS

/-- A sensor whose reference test failed (Tables 16.2, 18.10). -/
def Dev.sensorBroken (d : Dev) (i test : Nat) : Dev :=
  if d.rd (F.THERM_SENSOR_STATE i) = 2 then d
  else (d.wrs [(F.THERM_SENSOR_STATE i, 2), (F.THERM_SENSOR_CAUSE i, test)]).raise .sensorBroken (Src.sensor i) [(test, 4)]

/-- Phase 5: a slot that is not valid beside a valid one is written again. -/
def LedgerRec.repair (r : LedgerRec) (n : Nat) : LedgerRec :=
  match r.newest with
  | some x => if r.a.valid && r.b.valid then r else r.set r.target (r.next n x.payload)
  | none => r

/-- What a phase found and repaired (Table 18.10). Phase 4 leaves every line holding the zero codeword and every in-row count 0. -/
def State.testPhase (s : State) (k : Nat) (o : PhaseOutcome) : State :=
  let s := s.withDev fun d =>
    let d := if k ≤ 2 then o.domains.foldl (fun d i => d.domainFailed k i) d else d
    let d := if k = 3 then o.columns.foldl (fun d c => d.columnFailed k c.1 c.2.1 c.2.2) d else d
    let d := if k = 4 then o.rows.foldl (fun d r => d.rowFailed k r.1 r.2.1 r.2.2.1 r.2.2.2) d else d
    let d := if k = 6 then o.sensors.foldl (fun d i => (d.sensorBroken i 3).phaseFailed k) d else d
    if o.other then d.phaseFailed k else d
  if k = 4 then { s with mem := [], dev := { s.dev with rowCounts := [], room := [], merge := [] } }
  else if k = 5 then { s with ledger := { s.ledger with records := s.ledger.records.map (fun kv => (kv.1, kv.2.repair kv.1)) } }
  else s

/-! ## The closing inventory (R458, R459) -/

/-- Whether a patron other than 0 is enabled. -/
def Dev.patronsOn (d : Dev) : Bool := (List.range 4096).any (fun p => p ≠ 0 && d.flag (F.PATRON_CTL_ENABLE p))

/-- INVENTORY_CTL.START written (R458). A PT domain with a link not DISABLED is skipped in phase 1; the keeper port's may be. -/
def State.inventoryStart (s : State) : State :=
  let was := s.dev.rd F.INVENTORY_CTL_START
  let (ok, d) := s.dev.checked .inventory 0 [F.INVENTORY_STATUS_REASON] F.INVENTORY_CTL_START
    [(s.dev.flag F.SAFE_STATUS_ACTIVE, 0xE8), (s.dev.slicing || s.dev.taking, 0xE1), (s.dev.patronsOn, 0xE6)]
  let s := { s with dev := d }
  if ¬ ok then s.withDev fun d => d.wr F.INVENTORY_CTL_START was
  else s.withDev fun d =>
    let skipped := (List.range 64).any (fun p => !(s.layout.keeperValid && p = s.layout.keeperPort) &&
      (List.range 4).any (fun k => d.lst (4 * p + k) ≠ 0))
    ({ d with test.failPhase := 0, test.skipped := skipped } : Dev).wrs
      [(F.INVENTORY_STATUS_STATE, 1), (F.INVENTORY_STATUS_PHASE, 1), (F.INVENTORY_STATUS_CLOSE_ONLY, 1), (F.INVENTORY_STATUS_REPAIRS, 0)]

/-- INVENTORY_START (R458). -/
def execInventoryStart (s : State) : Host.Outcome State Fault Refusal := .next s.inventoryStart

/-- The INVENTORY record (Table 21.1). -/
def Dev.inventoryPayload (d : Dev) (closedOk : Nat) : List Nat :=
  bytesOfNat 4 (d.rd F.DEV_START_COUNT_COUNT) ++ [d.rd F.INVENTORY_STATUS_STATE, closedOk, 0, 0] ++ bytesOfNat 4 d.life.hours ++
    bytesOfNat 2 (d.rd F.INVENTORY_STATUS_REPAIRS)

/-- The inventory ended: 2 PASSED, 3 FAILED, 4 ABORTED; its record is requested with CLOSED_OK 0 (R499). -/
def Dev.inventoryEnd (d : Dev) (result : Nat) : Dev :=
  let d := d.wrs [(F.INVENTORY_STATUS_STATE, result), (F.INVENTORY_CTL_START, 0)]
  let d := d.raiseIf (result = 3) .inventoryFail (Src.test 1) [(if d.test.failPhase = 0 then 1 else d.test.failPhase, 3)]
  ({ d with pow.cleanClose := true } : Dev).ledgerRequest { record := recordNo 0x11 0, payload := d.inventoryPayload 0 }

/-- The inventory cut short (R459). -/
def Dev.inventoryAbort (d : Dev) : Dev := if d.taking then d.inventoryEnd 4 else d

/-- INVENTORY_PHASE_DONE (R459): the next phase, or the result. -/
def execInventoryPhaseDone (outcome : PhaseOutcome) (s : State) : Host.Outcome State Fault Refusal :=
  .next <|
    if ¬ s.dev.taking then s
    else
      let k := s.dev.rd F.INVENTORY_STATUS_PHASE
      let s := s.testPhase k outcome
      if k < 6 then s.withDev fun d => d.wr F.INVENTORY_STATUS_PHASE (k + 1)
      else s.withDev fun d => d.inventoryEnd (if d.test.failPhase = 0 ∧ ¬ d.test.skipped then 2 else 3)

end Sys2Proof.Machine
end

