-- ==== Sys2Proof/Machine/Power.lean ====
section
/-!
DEFINITION. Power requests and the request slot (R421 to R424), CLOSED entry and wake sources (R425 to R433).
-/

namespace Sys2Proof.Machine

open Sys2Proof

/-! ## Acceptance (Tables 17.4, 17.15) -/

/-- Whether a scan, a test access or a spot check uses HP3 (R395). -/
def Dev.hp3Used (d : Dev) : Bool := d.testAccess || d.slicing || d.taking

/-- Why a gate request is not accepted; 0 where it is. -/
def State.gateCode (s : State) (i : Nat) : Nat :=
  let d := s.dev
  if i < 64 then
    if d.flag (F.PORT_CTL_ENABLE i) || (s.layout.keeperValid && s.layout.keeperPort = i) ||
        (s.houseLinkValid && d.rd F.HOUSE_LINK_PORT = i) ||
        (List.range 6).any (fun k => d.flag (F.COLL_DIM_VALID k) && d.rd (F.COLL_DIM_PORT k) = i) then 0xC4 else 0
  else if i < 128 then (if d.rd (F.TWIN_STATUS_MODE (i - 64)) = 0 then 0 else 0xC3)
  else if i < 144 then 0
  else if i < 148 then (if (List.range 4096).any (fun p => d.flag (F.PATRON_CTL_ENABLE p)) then 0xC6 else 0)
  else if i < 156 then (if d.concourseIdle (i - 148) then 0 else 0xC4)
  else if i < 164 then 0
  else if i < 172 then
    (if (List.range 4096).any (fun p => d.flag (F.PATRON_CTL_ENABLE p) && d.flag (F.PATRON_CTL_SEALED p)) then 0xC5 else 0)
  else if i < 174 then (if i - 172 = d.rd F.DEV_REG_ACTIVE then 0xC4 else 0)
  else if i < 176 then (if d.pll (64 + (1 - (i - 174))) = 2 then 0 else 0xD0)
  else if i = 176 then 0xD1
  else if i = 177 then (if d.hp3Used then 0xD1 else 0)
  else if i < 246 then
    let l := (i - 178) / 4
    if d.role l = 2 || d.resting l then 0 else 0xC4
  else if i = 246 then (if d.testAccess then 0xC4 else 0)
  else (if s.keeperUp then 0 else 0xC4)

/-- The check of a GATE or WAKE request. -/
def State.powerCode (s : State) (op i : Nat) : Nat :=
  if 248 ≤ i then 0xC2
  else if op = 0 then (if s.dev.rd (F.POWER_DOMAIN_STATE i) = 3 ∨ s.fused i then 0 else s.gateCode i)
  else if s.dev.rd (F.POWER_DOMAIN_STATE i) = 0 then 0
  else if s.fused i ∨ s.dev.heldOff i then 0xC4 else 0

/-- Whether a request is done as it stands (R421): the domain is already as asked. -/
def State.powerDone (s : State) (op i : Nat) : Bool :=
  if op = 0 then s.dev.rd (F.POWER_DOMAIN_STATE i) = 3 || s.fused i else s.dev.rd (F.POWER_DOMAIN_STATE i) = 0

/-- Whether a gate request is held: a trolley group's until the other group can take its descriptors (R271), a bay's while a takeover
that a fault ordered is in progress (R423). -/
def State.gateHeld (s : State) (i : Nat) : Bool :=
  (decide (156 ≤ i) && decide (i < 164) && !s.dev.groupFits (i - 156)) ||
    (decide (64 ≤ i) && decide (i < 128) && (s.dev.flag (F.TWIN_STATUS_SWITCHING (i - 64)) || s.dev.flag (F.TWIN_STATUS_SWITCHING (twinOf (i - 64)))))

/-! ## CLOSED entry (R426, Table 17.5) -/

/-- The wake pins that are active (R428), as a mask. -/
def Dev.wakeActive (d : Dev) : Nat := mapOf fun n => decide (n < 4) && (d.pow.wakeLevel.testBit n == (d.rd F.POWER_WAKE_CFG_PIN_HIGH).testBit n)

/-- Bit *n*: WAKE*n* is an enabled source and active. -/
def Dev.wakePins (d : Dev) : Nat := d.wakeActive &&& d.rd F.POWER_WAKE_CFG_PIN_EN

/-- Bit *p*: the detector of port *p* is an enabled source and sees signal (R432). -/
def Dev.wakeLinks (d : Dev) : Nat := d.rd F.POWER_PINS_LINK &&& d.rd F.POWER_WAKE_CFG_LINK_EN

/-- Whether an enabled wake source is active (R429, R432). -/
def Dev.wakeAsserted (d : Dev) : Bool := d.wakePins ≠ 0 || d.wakeLinks ≠ 0

/-- The reset of a domain that was scanned (R488): what it held is lost, and a PLL in it acquires again. -/
def State.scanReset (s : State) (i : Nat) : State :=
  let s := s.domainEmptied i
  match domainPll i with
  | some k => if s.dev.domainOn i then s.pllTo k 1 else s
  | none => s

/-- An unlock of test access ended (R488): scans stop, the domains that were scanned are reset, and EXTEST drives no pad. -/
def State.endUnlock (s : State) : State :=
  (s.dev.mgmt.scanned.foldl State.scanReset s).withDev fun d =>
    ({ d with mgmt.scanned := [], mgmt.selected := 0, mgmt.drives := false } : Dev).wrs
      [(F.FOOT_TAP_STATUS_SCOPE, 0), (F.DEV_STATUS_TEST_UNLOCKED, 0)]

/-- Every link that is not DISABLED HALTED (R355). -/
def State.haltLinks (s : State) : State := (List.range 256).foldl (fun s l => s.toHalted l) s

/-- Every HALTED link begins again (Tables 17.6, 18.6). -/
def State.startHalted (s : State) : State := (List.range 256).foldl (fun s l => if s.dev.lst l = 9 then s.startLink l else s) s

/-- Steps 1 to 3 of Table 17.5: a slice, the inventory and a flush end, links halt, and shafts reach self-refresh. -/
def State.closeBegin (s : State) : State :=
  let (v, d) := s.dev.fresh
  let s : State := { s with dev := ((d.sliceStop 3 (v.toNat % 2 ^ 16)).inventoryAbort).flushAbort }
  (s.haltLinks.allAsleep.withDev fun d => d.wr F.POWER_STATUS_CLOSING 1).endUnlock

/-- Step 4 of Table 17.5: every domain isolated. -/
def Dev.isolateAll (d : Dev) : Dev :=
  ((List.range 248).filter (fun i => d.rd (F.POWER_DOMAIN_STATE i) ≠ 3)).foldl
    (fun d i => d.wrs [(F.POWER_DOMAIN_STATE i, 2), (F.POWER_DOMAIN_ALIVE i, 0)]) d

/-! ## The request slot (R424) -/

/-- The request in progress completed with its RESULT. -/
def Dev.powerEnd (d : Dev) (result : Nat) : Dev :=
  ({ d with pow.cur := none, pow.cleanClose := false } : Dev).wrs
    [(F.POWER_STATUS_BUSY, 0), (F.POWER_STATUS_RESULT, result), (F.POWER_CTL_GO, d.pow.pend.isSome.toNat)]

/-- A request refused when it starts completes REFUSED with its code. -/
def Dev.powerRefused (d : Dev) (code : Nat) : Dev := (d.wr F.POWER_STATUS_REASON code).powerEnd 1

/-- The request in progress, taken as far as it can go at once. -/
def State.powerCarry (s : State) (r : PowerReq) : State :=
  if r.op = 2 then
    if s.dev.patronsOn then s.withDev fun d => d.powerRefused 0xC6
    else if s.dev.wakeAsserted then s.withDev fun d => d.powerEnd 4
    else s.closeBegin
  else
    let code := s.powerCode r.op r.domain
    if code ≠ 0 then s.withDev fun d => d.powerRefused code
    else if s.powerDone r.op r.domain then s.withDev fun d => d.powerEnd 0
    else if r.op = 0 then (if s.gateHeld r.domain then s else s.gateDrain r.domain)
    else s.wakeStart r.domain

/-- Whether a request may start now: one at a time, not before READY (R503), and a gate or wake not in the safe state (R424). -/
def Dev.powerMay (d : Dev) (r : PowerReq) : Bool :=
  d.pow.cur.isNone && d.rd F.DEV_STATUS_STATE ≠ 0 && (r.op = 2 || !d.flag F.SAFE_STATUS_ACTIVE)

/-- A request started. -/
def State.powerBegin (s : State) (r : PowerReq) : State :=
  (s.withDev fun d => ({ d with pow.cur := some r } : Dev).wrs
    [(F.POWER_STATUS_BUSY, 1), (F.POWER_STATUS_CUR_DOMAIN, r.domain), (F.POWER_STATUS_CUR_OP, r.op), (F.POWER_CTL_GO, 1)]).powerCarry r

/-- The pending request started where it may; a gate request that was held tried again. -/
def State.powerPump (s : State) : State :=
  match s.dev.pow.cur with
  | some r => if r.op = 0 ∧ s.dev.rd (F.POWER_DOMAIN_STATE r.domain) = 0 ∧ ¬ s.gateHeld r.domain then s.powerCarry r else s
  | none =>
    match s.dev.pow.pend with
    | some r =>
      if s.dev.powerMay r then
        (s.withDev fun d => ({ d with pow.pend := none } : Dev).wr F.POWER_STATUS_PENDING 0).powerBegin r
      else s
    | none => s

/-- GO of POWER_CTL (R421, R424): the check, then the request starts or takes the pending slot, where it supersedes an older one. -/
def State.powerGo (s : State) (op i : Nat) : State :=
  let s := s.withDev fun d => d.wrs [(F.POWER_CTL_DOMAIN, i), (F.POWER_CTL_OP, op)]
  let go := s.dev.rd F.POWER_CTL_GO
  let checks := if op = 2 then [(s.dev.patronsOn, 0xC6)]
    else if op = 3 then [(true, 0xC2)]
    else [(s.powerCode op i ≠ 0, s.powerCode op i)]
  let code := firstCode ((if op = 2 then [] else s.dev.commonChecks .power) ++ checks)
  let s := s.withDev fun d => d.reason .power (if op = 2 then 0xFFFF else i) code [F.POWER_STATUS_REASON]
  if code ≠ 0 then s.withDev fun d => d.wr F.POWER_CTL_GO (if d.pow.cur.isSome ∨ d.pow.pend.isSome then go else 0)
  else if op ≠ 2 ∧ s.powerDone op i then s.withDev fun d => d.wr F.POWER_STATUS_RESULT 0
  else
    let r : PowerReq := { op := op, domain := i }
    if s.dev.powerMay r ∧ s.dev.pow.pend.isNone then (s.powerBegin r).powerPump
    else
      let s := s.withDev fun d =>
        if d.pow.pend.isSome then (d.wr F.POWER_STATUS_RESULT 2).count 0x0802 0 else d
      (s.withDev fun d => ({ d with pow.pend := some r } : Dev).wrs [(F.POWER_STATUS_PENDING, 1), (F.POWER_CTL_GO, 1)]).powerPump

/-- POWER_GATE (R421). -/
def execPowerGate (domain : BitVec 8) (s : State) : Host.Outcome State Fault Refusal := .next (s.powerGo 0 domain.toNat)

/-- POWER_WAKE (R421). -/
def execPowerWake (domain : BitVec 8) (s : State) : Host.Outcome State Fault Refusal := .next (s.powerGo 1 domain.toNat)

/-- POWER_CLOSE (R425, R426). -/
def execPowerClose (s : State) : Host.Outcome State Fault Refusal := .next (s.powerGo 2 (s.dev.rd F.POWER_CTL_DOMAIN))

/-- POWER_OP_INVALID (R436). -/
def execPowerOpInvalid (domain : BitVec 8) (s : State) : Host.Outcome State Fault Refusal := .next (s.powerGo 3 domain.toNat)

/-- The request in progress completes DONE when it is the one for this operation and domain. -/
def State.powerReached (s : State) (op i : Nat) : State :=
  if s.dev.pow.cur = some { op := op, domain := i } then (s.withDev fun d => d.powerEnd 0).powerPump else s

/-- DOMAIN_DRAIN_COMPLETE (R420): clamps applied, switches open, OFF. -/
def execDomainDrainComplete (domain : Fin 248) (s : State) : Host.Outcome State Fault Refusal :=
  .next <|
    let s := s.domainDrained domain
    if s.dev.rd (F.POWER_DOMAIN_STATE domain) = 3 then s.powerReached 0 domain else s

/-- DOMAIN_SUPPLY_GOOD (R420). -/
def execDomainSupplyGood (domain : Fin 248) (s : State) : Host.Outcome State Fault Refusal := .next (s.supplyGood domain)

/-- DOMAIN_WAKE_CHECK_DONE (R420): ON, or OFF with DOMAIN_WAKE_FAIL; the wake request completes either way. -/
def execDomainWakeCheckDone (domain : Fin 248) (pass : Bool) (s : State) : Host.Outcome State Fault Refusal :=
  .next <|
    if s.dev.rd (F.POWER_DOMAIN_STATE domain) ≠ 5 then s else (s.wakeChecked domain pass).powerReached 1 domain

/-! ## The commit point and CLOSED (R426, R435, R499) -/

/-- Whether a CLOSE is in progress before its commit point. -/
def Dev.closing (d : Dev) : Bool := d.flag F.POWER_STATUS_CLOSING

/-- A record written by the foot itself at once: into the slot that R301 gives it. -/
def Ledger.writeNow (l : Ledger) (n : Nat) (payload : List Nat) : Ledger :=
  let r := l.record n
  l.setRecord n (r.set r.target (r.next n payload))

/-- CLOSED_OK set in the INVENTORY record, where this CLOSE is the first power request carried out after the inventory (R499). -/
def State.markClean (s : State) : State :=
  if ¬ s.dev.pow.cleanClose then s
  else
    let p := match s.ledger.read (recordNo 0x11 0) with
      | some p => if payloadNum p 0 4 = s.dev.rd F.DEV_START_COUNT_COUNT then p.set 5 1 else s.dev.inventoryPayload 1
      | none => s.dev.inventoryPayload 1
    { s with ledger := s.ledger.writeNow (recordNo 0x11 0) p }

/-- CLOSE_COMMIT (R426, R430): isolation is done and the array switches of every level open, and DRAM contents are lost; not while the
foot is in reset. -/
def execCloseCommit (s : State) : Host.Outcome State Fault Refusal :=
  .next <|
    if ¬ s.dev.closing ∨ s.dev.footInReset then s
    else
      let s := s.markClean
      { s with mem := [], dev := (({ s.dev with pow.committed := true } : Dev).wr F.POWER_STATUS_CLOSING 0).isolateAll }

/-- The wake record of a latched wake, or of a device that only RESET_N or the removal of VAO can start (R435). -/
def wakeRecord : Option (Nat × Nat) → Nat
  | some (cause, source) => cause + 2 ^ 4 + source * 2 ^ 5
  | none => 1

/-- CLOSED (R425, R435): everything but the always-on domain is lost; the wake record is written. -/
def State.closedNow (s : State) (record : Nat) (thermal : Bool) : State :=
  let d := s.dev
  let keep : Dev := { pow := { closed := true, record := some record, wakeLevel := d.pow.wakeLevel,
                               latched := if thermal then none else d.pow.latched, thermLow := thermal, trip := d.pow.trip, trips := d.pow.trips },
                      freeCount := d.freeCount, footInReset := d.footInReset }
  let kept := [F.POWER_WAKE_CFG_PIN_EN, F.POWER_WAKE_CFG_PIN_HIGH, F.POWER_WAKE_CFG_LINK_EN, F.POWER_PINS_LINK, F.POWER_PINS_PGOOD,
    F.POWER_PINS_SAFE_N, F.FOOT_I3C_ALERT_WAKE]
  { s with mem := [], layout := {}, dev := keep.wrs (kept.map fun f => (f, d.rd f)) }

/-- The wake record of a thermal shutdown (R408): cause THERMAL and the zone that tripped first. -/
def tripRecord (p : PowerSt) : Nat := 4 + 2 ^ 7 * (p.trip.map (·.1)).getD 0

/-- CLOSED_REACHED (R408, R426, Table 17.5, Step 7). -/
def execClosedReached (s : State) : Host.Outcome State Fault Refusal :=
  .next <|
    if s.dev.pow.shutdown then s.closedNow (tripRecord s.dev.pow) true
    else if s.dev.pow.committed then s.closedNow (wakeRecord s.dev.pow.latched) false else s

/-! ## Wake sources (R428 to R433) -/

/-- CLOSED entry abandoned by a wake (R430): shelves leave self-refresh, and links train again; in the safe state they stay halted and
the shafts asleep. -/
def State.closeAbandon (s : State) : State :=
  let s := s.withDev fun d => (d.wr F.POWER_STATUS_CLOSING 0).count 0x0803 0
  let s := if s.dev.flag F.SAFE_STATUS_ACTIVE then s else (s.withDev Dev.allAwake).startHalted
  (s.withDev fun d => d.powerEnd 3).powerPump

/-- A wake source that has become active: in CLOSED, or after the commit point, it is latched; before the commit point it abandons
CLOSED entry; in OPEN it is counted (R430, R431, R433). A link wake in CLOSED sets the alert WAKE (R432, R481). During a thermal
shutdown a wake is ignored (R409). -/
def State.wake (s : State) (cause source : Nat) : State :=
  let p := s.dev.pow
  if p.shutdown ∨ p.thermLow then s
  else if p.closed then
    if p.latched.isSome then s
    else s.withDev fun d =>
      ({ d with pow.latched := some (cause, source), pow.record := some (wakeRecord (some (cause, source))) } : Dev).put
        F.FOOT_I3C_ALERT_WAKE (cause = 3 || d.flag F.FOOT_I3C_ALERT_WAKE)
  else if p.committed then s.withDev fun d => { d with pow.latched := d.pow.latched.or (some (cause, source)) }
  else if s.dev.closing then s.closeAbandon
  else s.withDev fun d => d.count 0x0804 0

/-- The enabled wake sources that were not active in an earlier state and are now, by a sample or by a change of POWER_WAKE_CFG
(R430, R433). -/
def State.wakeResample (s : State) (old : Dev) : State :=
  let s := (List.range 4).foldl (fun s n => if s.dev.wakePins.testBit n ∧ ¬ old.wakePins.testBit n then s.wake 2 n else s) s
  (List.range 4).foldl (fun s n => if s.dev.wakeLinks.testBit n ∧ ¬ old.wakeLinks.testBit n then s.wake 3 n else s) s

/-- WAKE_PIN (R428): a pin has been at a level for 1 µs; not sampled while the foot is in reset (R418). -/
def execWakePin (pin : Fin 4) (level : Bool) (s : State) : Host.Outcome State Fault Refusal :=
  .next <|
    if s.dev.footInReset then s
    else
      let s := s.withDev fun d =>
        { d with pow.wakeLevel := mapOf fun n => decide (n < 4) && (if n = pin then level else d.pow.wakeLevel.testBit n) }
      if s.dev.wakeActive.testBit pin && (s.dev.rd F.POWER_WAKE_CFG_PIN_EN).testBit pin then s.wake 2 pin else s

/-- LINK_WAKE (R432): what the detector of a port has seen for 10 µs. -/
def execLinkWake (port : Fin 4) (signal : Bool) (s : State) : Host.Outcome State Fault Refusal :=
  .next <|
    if s.dev.footInReset then s
    else
      let s := s.withDev fun d =>
        d.wr F.POWER_PINS_LINK (mapOf fun n => decide (n < 4) && (if n = port then signal else (d.rd F.POWER_PINS_LINK).testBit n))
      if signal && (s.dev.rd F.POWER_WAKE_CFG_LINK_EN).testBit port then s.wake 3 port else s

end Sys2Proof.Machine
end

