-- ==== Sys2Proof/Machine/Reactions.lean ====
section
/-!
DEFINITION. Fault collection (R438 to R448), the safe state (R449 to R451), and registrar takeover (R489 to R491).
-/

namespace Sys2Proof.Machine

open Sys2Proof

/-! ## The I3C alert (R481) -/

/-- The value of FOOT_I3C_ALERT. -/
def Dev.alerts (d : Dev) : Nat :=
  d.rd F.FOOT_I3C_ALERT_FAULT + 2 * d.rd F.FOOT_I3C_ALERT_SAFE + 4 * d.rd F.FOOT_I3C_ALERT_WAKE + 8 * d.rd F.FOOT_I3C_ALERT_TAKEOVER

/-- A bit of FOOT_I3C_ALERT set; an IBI with bits [3:0] of the register as it changes from 0 to 1. -/
def Dev.alert (d : Dev) (f : Field) : Dev :=
  if d.flag f then d
  else
    let d := d.wr f 1
    if d.flag F.FOOT_I3C_STATUS_IBI_EN then { d with mgmt.ibis := d.mgmt.ibis ++ [d.alerts] } else d

/-! ## Counting (R439 to R441) -/

/-- The window of a fault type in ns. -/
def Dev.faultWindow (d : Dev) (t : Nat) : Nat :=
  let w := d.rd (F.FAULT_TYPE_CFG_WINDOW t)
  if w ≤ 31 then 2 ^ w * 1000 else 3600000000000

/-- The entry dropped when 1,024 are in use: the one whose window opened earliest. -/
def dropEarliest (l : List FaultCount) : List FaultCount :=
  if l.length < 1024 then l
  else match l with
    | [] => []
    | c :: rest => l.erase (rest.foldl (fun a b => if b.opened < a.opened then b else a) c)

/-- One event counted against its source; whether it is classified. -/
def Dev.countFault (d : Dev) (t source : Nat) : Bool × Dev :=
  let n := atLeastOne (d.rd (F.FAULT_TYPE_CFG_N t))
  let set := fun (l : List FaultCount) => { d with flt.counts := l }
  let rest := d.flt.counts.filter (fun c => c.source ≠ source ∨ c.type ≠ t)
  if n = 1 then (true, set rest)
  else
    match d.flt.counts.find? (fun c => c.source = source && c.type = t) with
    | some c =>
      if d.time < c.opened + d.faultWindow t then
        if n ≤ c.n + 1 then (true, set rest) else (false, set (rest ++ [{ c with n := c.n + 1 }]))
      else (false, set (rest ++ [{ c with opened := d.time, n := 1 }]))
    | none => (false, set (dropEarliest rest ++ [{ source := source, type := t, opened := d.time, n := 1 }]))

/-! ## Records (R444 to R447) -/

/-- The 32 bytes of a fault record (Table 18.4). -/
def FaultRecord.bits (r : FaultRecord) : Nat :=
  r.seq % 2 ^ 32 + 2 ^ 32 * (r.source % 2 ^ 12 + 2 ^ 12 * (r.reaction % 4) + 2 ^ 14 * r.signal.toNat + 2 ^ 15 * r.lostBefore.toNat) +
    2 ^ 48 * (r.type % 256) + 2 ^ 64 * (r.first % 2 ^ 64) + 2 ^ 128 * (r.last % 2 ^ 32) + 2 ^ 160 * (r.count % 2 ^ 16) +
    2 ^ 192 * (r.detail % 2 ^ 64)

/-- OPEN, FAULT_N and the holding cause of the records, after a change of the queue. -/
def Dev.showFaults (d : Dev) : Dev :=
  d.wrs [(F.FAULT_STATUS_OPEN, d.flt.records.length),
    (F.FAULT_STATUS_FAULT_N, (d.flt.records.any (·.signal) || d.flag F.FAULT_STATUS_OVERFLOW).toNat),
    (F.SAFE_STATUS_RECORDS, (d.flt.records.any (fun r => r.reaction = 3)).toNat)]

/-- A batch of up to seven records passed to the ledger (R445); none while ledger writes are held off. -/
def Dev.logBatch (d : Dev) : Dev :=
  if d.flt.logWait = [] ∨ d.ledgerHeld then d
  else
    let batch := d.flt.logWait.take 7
    let d : Dev := { d with flt.logWait := d.flt.logWait.drop 7, flt.logNext := (d.flt.logNext + 1) % 8192 }
    d.ledgerRequest { record := recordNo 0x30 ((d.flt.logNext + 8191) % 8192), payload := batch.flatMap (fun r => bytesOfNat 32 r.bits) }

/-- Batches written once seven records wait. -/
def Dev.pumpLog (d : Dev) : Dev := if 7 ≤ d.flt.logWait.length then d.logBatch else d

/-- A record opened (R445, R446): queue, house ring 2 and event log; with 256 entries open it is dropped as OVERFLOW. -/
def Dev.openRecord (d : Dev) (t source detail reaction : Nat) : Dev :=
  if 256 ≤ d.flt.records.length then
    let d := (d.wr F.FAULT_STATUS_OVERFLOW 1).bump F.FAULT_STATUS_LOST
    let d := d.setHouse 2 fun h => { h with lost := min (h.lost + 1) (2 ^ 32 - 1) }
    ({ d with flt.lostMark := true, flt.seq := d.flt.seq + 1 } : Dev).showFaults
  else
    let r : FaultRecord := { seq := d.flt.seq + 1, source := source, reaction := reaction, signal := d.flag (F.FAULT_TYPE_CFG_SIGNAL t),
                             lostBefore := d.flt.lostMark, type := t, first := d.time, detail := detail }
    let d : Dev := { d with flt.records := d.flt.records ++ [r], flt.seq := d.flt.seq + 1, flt.lostMark := false,
                            flt.logWait := d.flt.logWait ++ [r] }
    (d.showFaults.houseRecord 2 (BitVec.ofNat 512 r.bits)).pumpLog

/-- A later event of a source whose record is open (R446): COUNT and LAST only. -/
def FaultRecord.again (r : FaultRecord) (time : Nat) : FaultRecord :=
  { r with count := min 65535 (r.count + 1), last := min (2 ^ 32 - 1) ((time - r.first) / 1000) }

/-! ## The safe state (R449, R450) -/

/-- The patrons that any register field away from reset belongs to. -/
def Dev.knownPatrons (d : Dev) : List Nat :=
  (d.fields.filterMap fun kv =>
    let a := kv.1 / 32
    if 0x1000000 ≤ a ∧ a < 0x1100000 then some ((a - 0x1000000) / 256) else none).eraseDups

/-- Every ACTIVE ring PAUSED (R249), house rings included (log entry 16). -/
def Dev.ringsPause (d : Dev) : Dev :=
  let d := d.knownPatrons.foldl (fun d p => (List.range 6).foldl (fun d i =>
    if d.ringState p i = ringActive then d.wr (F.RING_STATUS_STATE p i) ringPaused else d) d) d
  (List.range 4).foldl (fun d r =>
    if d.rd (F.HOUSE_RING_STATUS_STATE r) = ringActive then d.wr (F.HOUSE_RING_STATUS_STATE r) ringPaused else d) d

/-- PAUSED rings ACTIVE again; one whose ENABLE was written 0 meanwhile stops (Table 9.5). -/
def Dev.ringsResume (d : Dev) : Dev :=
  let d := d.knownPatrons.foldl (fun d p => (List.range 6).foldl (fun d i =>
    if d.ringState p i ≠ ringPaused then d
    else
      let d := d.wr (F.RING_STATUS_STATE p i) ringActive
      if d.flag (F.RING_CTL_ENABLE p i) then d else d.ringStop p i) d) d
  (List.range 4).foldl (fun d r =>
    if d.rd (F.HOUSE_RING_STATUS_STATE r) ≠ ringPaused then d
    else if d.flag (F.HOUSE_RING_CTL_ENABLE r) then (d.wr (F.HOUSE_RING_STATUS_STATE r) ringActive).houseFlush r 16
    else (d.wr (F.HOUSE_RING_STATUS_STATE r) ringDisabled).houseDropHeld r) d

/-- Running descriptors PAUSING (Table 10.7): a stop by a fault stays. -/
def Dev.worksPause (d : Dev) : Dev :=
  { d with trolleys := d.trolleys.map (fun kw =>
      (kw.1, if kw.2.ending.isNone ∧ (kw.2.stop = none ∨ kw.2.stop = some .recall) then { kw.2 with stop := some .pause } else kw.2)) }

/-- Entry to the safe state (Table 18.5). -/
def State.safeEnter (s : State) : State :=
  if s.dev.flag F.SAFE_STATUS_ACTIVE then s
  else
    let (v, d) := s.dev.fresh
    let d := ((d.ringsPause.worksPause.flushAbort).sliceStop 3 (v.toNat % 2 ^ 16)).inventoryAbort
    let s := (({ s with dev := d } : State).endUnlock).haltLinks.allAsleep
    s.withDev fun d => ((d.bump F.SAFE_STATUS_ENTRIES).wrs [(F.SAFE_STATUS_ACTIVE, 1), (F.DEV_STATUS_SAFE, 1)]).alert F.FOOT_I3C_ALERT_SAFE

/-- Whether a holding cause stands (R450). -/
def Dev.holding (d : Dev) : Bool :=
  d.flag F.SAFE_STATUS_RECORDS || d.flag F.SAFE_STATUS_SAFE_N || d.flag F.SAFE_STATUS_CHATTER || d.flag F.SAFE_STATUS_BROWN ||
    d.flag F.SAFE_STATUS_PACE

/-- Descriptors that the safe state paused, RECALLED (Table 18.6, Step 3). -/
def Dev.worksRecalled (d : Dev) : Dev :=
  let d := d.trolleys.foldl (fun d (kw : Nat × Work) => if kw.2.stop = some .pause then d.toRecalled kw.1 kw.2 else d) d
  (List.range 32).foldl (fun d t => d.startOn t) d

/-- Host reads that were outstanding issued again; their loss is no failure (R249). -/
def Dev.readsAgain (d : Dev) : Dev :=
  (d.hostOps.filter (fun o => o.lines ≠ 0 && o.got.length ≠ o.lines && !o.waiting)).foldl
    (fun d o => if d.hostOps.contains o then d.readIssue o else d) d

/-- The work that Step 3 of Table 18.6 lets go on. -/
def State.goOn (s : State) : State :=
  let s := s.withDev fun d => d.ringsResume.worksRecalled.readsAgain
  let s := s.withDev fun d => d.knownPatrons.foldl (fun d p => ((d.pumpCompletions 65536 p).stopChecks p).fetchMore p) d
  let s := s.withDev fun d => ((d.pumpStatements 4096).ledgerRefill).pumpLog
  let s := (List.range 64).foldl (fun s n => s.pumpMerge n) s
  let s := s.pumpFlush
  let s := match s.dev.disableFlush with
    | some (p, false) => s.disableStep p
    | _ => s
  let s := s.releaseAll fun h => match h with
    | .shaft _ => true
    | _ => false
  s.pumpJobs.catRetry

/-- The end of the safe state (Table 18.6); a CLOSED entry in progress keeps its shafts asleep and its links halted. -/
def State.safeExit (s : State) : State :=
  if ¬ s.dev.flag F.SAFE_STATUS_ACTIVE then s
  else
    let s := s.withDev fun d => d.wrs [(F.SAFE_STATUS_ACTIVE, 0), (F.DEV_STATUS_SAFE, 0)]
    if s.dev.closing then s
    else ((s.withDev Dev.allAwake).goOn.startHalted).powerPump

/-! ## Registrar takeover (R489 to R491) -/

/-- A takeover triggered: the wardens hold events and management accesses; without a ready standby REGISTRAR_LOST is raised. -/
def Dev.takeoverTrigger (d : Dev) : Dev :=
  if d.flt.takeover ∨ d.flt.registrarLost then d
  else if d.flag F.DEV_REG_STANDBY_READY then { d with flt.takeover := true }
  else ({ d with flt.registrarLost := true } : Dev).raise .registrarLost (Src.foot 0)

/-! ## Containment (Table 18.3) -/

/-- The reaction after the substitutions of Table 18.3: contain where nothing can be withdrawn acts as interrupt, and of a wing as the
safe state. A type whose chapter defines its own containment keeps it (R118, Table 3.6). -/
def substituted (t source channel reaction : Nat) : Nat :=
  let i := source % 256
  if reaction ≠ 2 ∨ t = FaultType.rowActOffender.code ∨ 2 ≤ channel then reaction
  else match source / 256 with
    | 0x0 => if i < 2 then 2 else 1
    | 0x5 => 2
    | 0x6 => 2
    | 0x7 => 2
    | 0x8 => if i < 4 then 3 else if (16 ≤ i ∧ i < 40) ∨ (48 ≤ i ∧ i < 56) ∨ (64 ≤ i ∧ i < 96) then 2 else 1
    | 0x9 => 2
    | 0xA => 2
    | 0xD => if 144 ≤ i ∧ i < 148 then 3 else 2
    | _ => 1

/-- A port contained: every link DISABLED, ENABLE 0, reason 0x29. -/
def State.containPort (s : State) (p : Nat) : State :=
  ((List.range 4).foldl (fun s k => s.toDisabled (4 * p + k)) s).withDev fun d =>
    d.wrs [(F.PORT_CTL_ENABLE p, 0), (F.PORT_REASON_CODE p, 0x29)]

/-- A bay contained (R38, R41). A twin that has to be woken for it is woken; one under a spot check is taken out of it. -/
def State.containBayNow (s : State) (b : Nat) (lost : List Nat) : State :=
  let s := s.contain b lost
  let t := twinOf b
  if ¬ s.dev.rescue.contains t then s
  else if s.dev.slicing ∧ s.dev.rd F.TEST_SLICE_STATUS_DOMAIN = Dom.bay t then
    let (v, d) := s.dev.fresh
    { s with dev := d.sliceStop 3 (v.toNat % 2 ^ 16) }
  else s.wakeStart (Dom.bay t)

/-- A registrar contained: the active one by takeover, the standby by leaving it without power. -/
def State.containRegistrar (s : State) (i : Nat) : State :=
  if i = s.dev.rd F.DEV_REG_ACTIVE then s.withDev Dev.takeoverTrigger
  else (s.withDev fun d => (d.domainOff (Dom.registrar i)).wr F.DEV_REG_STANDBY_READY 0).domainEmptied (Dom.registrar i)

/-- A concourse slice contained: its eight ports, and the slice is withdrawn. -/
def State.containConcourse (s : State) (c : Nat) : State :=
  ((List.range 8).foldl (fun s i => s.containPort (8 * c + i)) s).containGate (Dom.concourse c)

/-- A power domain contained: the unit it powers leaves service, and the domain is held OFF. -/
def State.containDomain (s : State) (i : Nat) : State :=
  if i < 64 then (s.containPort i).containGate i
  else if i < 128 then (s.containBayNow (i - 64) []).containGate i
  else if 148 ≤ i ∧ i < 156 then s.containConcourse (i - 148)
  else if i = 172 ∨ i = 173 then s.containRegistrar (i - 172)
  else if i < 248 then s.containGate i else s

/-- Containment by source (Table 18.3). -/
def State.containSource (s : State) (source : Nat) (lost : List Nat) : State :=
  let i := source % 256
  match source / 256 with
  | 0x0 => s.containRegistrar i
  | 0x5 => s.containPort i
  | 0x6 => s.toDetect i false
  | 0x7 => s.containConcourse i
  | 0x8 =>
    if i < 32 then s.containGate (Dom.roomSlice (i - 16))
    else if i < 40 then s.containGate (Dom.sealSlice (i - 32))
    else if i < 56 then s.containGate (Dom.trolleyGroup (i - 48))
    else s.withDev fun d => d.withdrawTrolley (i - 64)
  | 0x9 => s.containBayNow i lost
  | 0xA => (s.withDev fun d => { d with sparingWanted := d.sparingWanted.filter (· ≠ i) ++ [i] }).spareAuto i
  | _ => s.containDomain i

/-- A foot reset begins (R418). -/
def Dev.footResetBegin (d : Dev) : Dev := ({ d with footInReset := true } : Dev).raise .footReset (Src.foot 0)

/-- Contain carried out: the containment of the fault type's own chapter, or that of the source. -/
def State.containFault (s : State) (f : RaisedFault) (lost : List Nat) : State :=
  if f.type = FaultType.rowActOffender.code then s.withDev fun d => d.clampPatron (f.detail % 4096)
  else match f.channel with
    | 2 => s.withDev fun d => { d with unreachable := d.unreachable.filter (· ≠ f.source) ++ [f.source] }
    | 3 => s.withDev Dev.takeoverTrigger
    | 4 => s.withDev Dev.footResetBegin
    | _ => s.containSource f.source lost

/-! ## One event (R439, R443) -/

/-- A classified source: its record, and its reaction. -/
def State.classify (s : State) (f : RaisedFault) (lost : List Nat) : State :=
  let r := substituted f.type f.source f.channel (s.dev.rd (F.FAULT_TYPE_CFG_REACTION f.type))
  let s := s.withDev fun d =>
    let d := d.openRecord f.type f.source f.detail r
    if 1 ≤ r then (d.houseInterrupt 2).alert F.FOOT_I3C_ALERT_FAULT else d
  let s := if r = 2 then s.containFault f lost else s
  if r = 3 then s.safeEnter else s

/-- One event: added to its open record, or counted, and classified when its count reaches N. -/
def State.faultEvent (s : State) (f : RaisedFault) (lost : List Nat) : State :=
  if s.dev.flt.records.any (fun r => r.source = f.source && r.type = f.type) then
    s.withDev fun d => { d with flt.records := d.flt.records.map (fun r =>
      if r.source = f.source ∧ r.type = f.type then r.again d.time else r) }
  else
    let (hit, d) := s.dev.countFault f.type f.source
    let s : State := { s with dev := d }
    if hit then s.classify f lost else s

/-- Whether events wait with the wardens: before the registrar runs (Table 21.2, Step 4), during a takeover (R448), and in CLOSED. -/
def Dev.faultsHeld (d : Dev) : Bool :=
  d.flt.takeover || d.pow.closed || (d.rd F.DEV_STATUS_STATE = 0 && decide (d.rd F.DEV_START_STATUS_PHASE < 4))

/-- The first event that waits taken by the registrar. -/
def State.takeRaised (s : State) : State :=
  match s.dev.raised with
  | [] => s
  | f :: rest => if s.dev.faultsHeld then s else ({ s with dev := { s.dev with raised := rest } } : State).faultEvent f []

/-- FAULT_EVENT (R439): the event named is taken from those that wait, or is one that a unit raises now. -/
def execFaultEvent (type : BitVec 8) (source : BitVec 12) (detail : BitVec 64) (lost : List Nat) (s : State) :
    Host.Outcome State Fault Refusal :=
  .next <|
    let f : RaisedFault := { type := type.toNat, source := source.toNat, detail := detail.toNat }
    match s.dev.raised.find? (fun x => x.type = f.type && x.source = f.source) with
    | some x =>
      if s.dev.faultsHeld then s else ({ s with dev := { s.dev with raised := s.dev.raised.erase x } } : State).faultEvent x lost
    | none =>
      if s.dev.faultsHeld then s.withDev fun d => { d with raised := d.raised ++ [f] } else s.faultEvent f lost

/-- HANDSHAKE_STALL (R66): raised at the receiving unit; its containment is that of the channel. -/
def execHandshakeStall (channel : StallChannel) (lost : List Nat) (s : State) : Host.Outcome State Fault Refusal :=
  .next <|
    let t := FaultType.handshakeStall.code
    let f : RaisedFault := match channel with
      | .datapath x => { type := t, source := x.toNat, channel := 1 }
      | .registryLine x => { type := t, source := x.toNat, channel := 2 }
      | .registrarInternal => { type := t, source := s.dev.rd F.DEV_REG_ACTIVE, channel := 3 }
      | .footInternal => { type := t, source := Src.foot 0, channel := 4 }
    if s.dev.faultsHeld ∧ f.channel ≠ 3 then s.withDev fun d => { d with raised := d.raised ++ [f] } else s.faultEvent f lost

/-- TICK_COLUMN_FAULT (R22, R23): a die goes on by the majority with one column failed; a second failed column takes the device to the
safe state. -/
def execTickColumnFault (die : Fin 18) (column : Fin 3) (s : State) : Host.Outcome State Fault Refusal :=
  .next <|
    let m := SMap.get 0 s.dev.tickFailed die
    let m' := m ||| 2 ^ column.val
    let s := s.withDev fun d => ({ d with tickFailed := SMap.put 0 d.tickFailed die m' } : Dev).wr F.DEV_STACK_TICK_DEGRADED 1
    if m' ≠ m ∧ m ≠ 0 then s.safeEnter else s

/-- The chatter latch goes once its record is cleared and SAFE_N has stayed high for 1 ms (R434). -/
def Dev.chatterDone (d : Dev) : Dev :=
  if d.pow.safeHigh ∧ ¬ d.flt.records.any (fun r => r.type = FaultType.safeNChatter.code) then
    d.wrs [(F.SAFE_STATUS_CHATTER, 0), (F.POWER_PINS_SAFE_LATCHED, 0)]
  else d

/-- A SEQ written to FAULT_CLEAR (R446): other values are ignored. -/
def Dev.faultClear (d : Dev) (seq : Nat) : Dev :=
  ({ d with flt.records := d.flt.records.filter (fun r => r.seq % 2 ^ 32 ≠ seq) } : Dev).showFaults.chatterDone

/-- FAULT_CLEAR (R446). -/
def execFaultClear (seq : Word) (s : State) : Host.Outcome State Fault Refusal := s.next fun d => d.faultClear seq.toNat

/-- OVERFLOW written 1 (R446): no effect while the queue is full. -/
def Dev.overflowClear (d : Dev) : Dev :=
  if d.flt.records.length < 256 then (d.wr F.FAULT_STATUS_OVERFLOW 0).showFaults else d

/-- FAULT_OVERFLOW_CLEAR (R446). -/
def execFaultOverflowClear (s : State) : Host.Outcome State Fault Refusal := s.next Dev.overflowClear

/-- EVENT_LOG_BATCH (R445): seven records wait, or the first has waited 100 ms. -/
def execEventLogBatch (s : State) : Host.Outcome State Fault Refusal := s.next Dev.logBatch

/-- ENTER written (R449): SAFE_ORDERED is classified against the registrar. -/
def State.safeOrder (s : State) : State :=
  let f : RaisedFault := { type := FaultType.safeOrdered.code, source := Src.device }
  if s.dev.flt.records.any (fun r => r.source = f.source && r.type = f.type) then s.faultEvent f [] else s.classify f []

/-- SAFE_ENTER (R449). -/
def execSafeEnter (s : State) : Host.Outcome State Fault Refusal := .next s.safeOrder

/-- RESUME written (R450): refused with 0x0B while a holding cause stands. -/
def State.safeResume (s : State) : State :=
  let (ok, d) := s.dev.checked .resume 0 [F.SAFE_STATUS_REASON] F.SAFE_CTL_RESUME [(s.dev.holding, 0x0B)]
  let s : State := { s with dev := d.wr F.SAFE_CTL_RESUME 0 }
  if ok then s.safeExit else s

/-- SAFE_RESUME (R450). -/
def execSafeResume (s : State) : Host.Outcome State Fault Refusal := .next s.safeResume

/-! ## Takeover (Table 20.6) -/

/-- SWAP written (R489). -/
def Dev.regSwap (d : Dev) : Dev := if d.flag F.DEV_REG_STANDBY_READY then d.takeoverTrigger else d

/-- DEV_REG_SWAP (R489). -/
def execDevRegSwap (s : State) : Host.Outcome State Fault Refusal := s.next Dev.regSwap

/-- STANDBY_SELF_TEST_DONE (R490): the old active is the standby again, or its domain is contained. -/
def execStandbySelfTestDone (pass : Bool) (s : State) : Host.Outcome State Fault Refusal :=
  .next <|
    if ¬ s.dev.flt.testing then s
    else
      let s := s.withDev fun d => { d with flt.testing := false }
      if pass then s.withDev fun d => d.wr F.DEV_REG_STANDBY_READY 1 else s.containRegistrar (1 - s.dev.rd F.DEV_REG_ACTIVE)

end Sys2Proof.Machine
end

