-- ==== Sys2Proof/Machine/Supply.lean ====
section
/-!
DEFINITION. Rail monitors, PGOOD, RESET_N, SAFE_N and the foot's reset (R414 to R418, R434).
-/

namespace Sys2Proof.Machine

open Sys2Proof

/-! ## Losing power, and cold resets (R416, R417, R504) -/

/-- Every state but the ledger is lost (R416). -/
def State.powerLost (s : State) : State :=
  { s with mem := [], layout := {}, dev := { s.fuses.dev with freeCount := s.dev.freeCount } }

/-- A cold reset: the always-on record, the levels of the pins and the rails stay. -/
def State.coldReset (s : State) (pow : PowerSt) : State :=
  let d := s.dev
  let kept := [F.POWER_PINS_SAFE_N, F.POWER_PINS_PGOOD, F.POWER_PINS_LINK, F.FOOT_I3C_ALERT_WAKE] ++
    (List.range 7).flatMap (fun r => [F.POWER_RAIL_VOLT r, F.POWER_RAIL_LOW r, F.POWER_RAIL_INHIBIT r, F.POWER_RAIL_BROWN r])
  let s := s.powerLost
  s.withDev fun n => ({ n with pow := pow } : Dev).wrs (kept.map fun f => (f, d.rd f))

/-- Whether a cold start runs. -/
def Dev.starting (d : Dev) : Bool := d.start.begun && d.rd F.DEV_STATUS_STATE = 0

/-- The cold start begun again from its anchor (Table 21.3). -/
def State.restart (s : State) : State :=
  s.coldReset { record := s.dev.pow.record, wakeLevel := s.dev.pow.wakeLevel, closedMs := s.dev.pow.closedMs }

/-- RESET_PIN (R417): a cold reset at any moment; in CLOSED it is what a cold start waits for (R427). -/
def execResetPin (s : State) : Host.Outcome State Fault Refusal :=
  .next <|
    let p := s.dev.pow
    if p.closed then s.withDev fun d => { d with pow.record := some 1, pow.latched := some (1, 0) }
    else s.coldReset { record := some 1, wakeLevel := p.wakeLevel }

/-! ## Rails (R414 to R416, Table 17.1) -/

/-- The Low threshold of a rail in mV. -/
def railLow : Nat → Nat
  | 0 => 1740 | 1 => 810 | 2 => 1140 | 3 => 1000 | 4 => 2380 | 5 => 1150 | _ => 1700

/-- The ledger-inhibit threshold, 0 where a rail has none. -/
def railInhibit : Nat → Nat
  | 0 => 1700 | 5 => 1120 | _ => 0

/-- The brown-out threshold, 0 where a rail has none. -/
def railBrown : Nat → Nat
  | 3 => 970 | 5 => 1050 | _ => 0

/-- Whether a rail is below a threshold, with the 20 mV of hysteresis. -/
def railBelow (was : Bool) (mv threshold : Nat) : Bool := decide (mv < threshold) || (was && decide (mv < threshold + 20))

/-- The WAKE record's payload (Table 21.1). -/
def Dev.wakePayload (d : Dev) (record : Nat) : List Nat := bytesOfNat 4 (d.rd F.DEV_START_COUNT_COUNT) ++ bytesOfNat 4 record

/-- A rail at a voltage that crosses thresholds (R414, R415, R416). -/
def State.railCrossing (s : State) (r mv : Nat) : State :=
  let d := s.dev
  if d.footInReset ∧ 4 ≤ r then s
  else if r = 5 ∧ mv < 900 then s.powerLost
  else if d.pow.closed then s
  else
    let wasLow := d.flag (F.POWER_RAIL_LOW r)
    let wasInhibited := d.flag F.LEDGER_STATUS_INHIBITED
    let wasBrown := d.flag (F.POWER_RAIL_BROWN r)
    let low := railBelow wasLow mv (railLow r)
    let brown := decide (railBrown r ≠ 0) && railBelow wasBrown mv (railBrown r)
    let inhibit := decide (railInhibit r ≠ 0) && railBelow (d.flag (F.POWER_RAIL_INHIBIT r)) mv (railInhibit r)
    let d := d.wrs [(F.POWER_RAIL_VOLT r, mv), (F.POWER_RAIL_LOW r, low.toNat), (F.POWER_RAIL_INHIBIT r, inhibit.toNat),
      (F.POWER_RAIL_BROWN r, brown.toNat)]
    let d := if low ∧ ¬ wasLow then ((d.bump (F.POWER_RAIL_SAGS r)).count 0x0806 r).raise .supplyLow (Src.foot (1 + r)) else d
    let d := d.put F.LEDGER_STATUS_INHIBITED (d.flag (F.POWER_RAIL_INHIBIT 0) || d.flag (F.POWER_RAIL_INHIBIT 5))
    let d := d.raiseIf (d.flag F.LEDGER_STATUS_INHIBITED && !wasInhibited) .ledgerInhibited (Src.foot 0)
    let d := d.put F.SAFE_STATUS_BROWN (d.flag (F.POWER_RAIL_BROWN 3) || d.flag (F.POWER_RAIL_BROWN 5))
    if ¬ brown ∨ wasBrown then { s with dev := d }
    else
      let s : State := { s with dev := d.raise .brownOut (Src.foot (1 + r)) }
      let s := if r = 5 ∧ ¬ d.pow.shutdown then { s with ledger := s.ledger.writeNow (recordNo 0x13 0) (d.wakePayload 5) } else s
      if s.dev.starting then s.restart else s

/-- RAIL_CROSSING (R414). -/
def execRailCrossing (rail : Fin 7) (mv : BitVec 12) (s : State) : Host.Outcome State Fault Refusal := .next (s.railCrossing rail mv.toNat)

/-- PGOOD_LOST (R417): ignored in CLOSED; a cold start begins again. -/
def execPgoodLost (s : State) : Host.Outcome State Fault Refusal :=
  .next <|
    let s := s.withDev fun d => d.wr F.POWER_PINS_PGOOD 0
    if s.dev.pow.closed then s
    else if s.dev.starting then s.restart
    else s.withDev fun d => d.raise .pgoodLost (Src.foot 9)

/-! ## SAFE_N (R434) -/

/-- Whether SAFE_N is sampled: not in CLOSED, during thermal shutdown, or while the foot is in reset. -/
def Dev.safeSampled (d : Dev) : Bool := !d.pow.closed && !d.pow.shutdown && !d.footInReset

/-- SAFE_N (R434): low for 1 µs, or chattering. -/
def execSafeN (chatter : Bool) (s : State) : Host.Outcome State Fault Refusal :=
  s.next fun d =>
    if ¬ d.safeSampled then d
    else
      let d : Dev := { d with pow.safeHigh := false }
      if chatter then (d.wrs [(F.SAFE_STATUS_CHATTER, 1), (F.POWER_PINS_SAFE_LATCHED, 1)]).raise .safeNChatter (Src.foot 8)
      else (d.wrs [(F.POWER_PINS_SAFE_N, 0), (F.SAFE_STATUS_SAFE_N, 1)]).raise .safeRequest (Src.foot 8)

/-- SAFE_N_RELEASE (R434). -/
def execSafeNRelease (s : State) : Host.Outcome State Fault Refusal :=
  s.next fun d => if d.safeSampled then d.wrs [(F.POWER_PINS_SAFE_N, 1), (F.SAFE_STATUS_SAFE_N, 0)] else d

/-- SAFE_N_HIGH_TIMER (R434): SAFE_N has stayed high for 1 ms. -/
def execSafeNHighTimer (s : State) : Host.Outcome State Fault Refusal :=
  s.next fun d =>
    if d.safeSampled ∧ d.flag F.POWER_PINS_SAFE_N then ({ d with pow.safeHigh := true } : Dev).chatterDone else d

/-! ## Foot reset (R418) -/

/-- FOOT_RESET (R418): steps 1 and 2 of a cold start begin again (Table 21.3). -/
def execFootReset (s : State) : Host.Outcome State Fault Refusal :=
  s.next fun d =>
    let d := if d.footInReset then d else d.footResetBegin
    if d.starting ∧ d.rd F.DEV_START_STATUS_PHASE < 2 then d.wr F.DEV_START_STATUS_PHASE 0 else d

/-- FOOT_RESET_END (R418): the wake sources are sampled afresh. -/
def execFootResetEnd (pins link : BitVec 4) (s : State) : Host.Outcome State Fault Refusal :=
  .next <|
    if ¬ s.dev.footInReset then s
    else
      let old := s.dev
      let s := s.withDev fun d => 
        ({ d with footInReset := false, pow.wakeLevel := pins.toNat, pow.thermLow := d.pow.thermLow || d.pow.shutdown } : Dev).wr F.POWER_PINS_LINK link.toNat
      s.wakeResample old

end Sys2Proof.Machine
end

