-- ==== Sys2Proof/Machine/Thermal.lean ====
section
/-!
DEFINITION. Temperature sensing, the stack model, SUSPECT levels and thermal shutdown (R120 to R122, R400 to R411), and the refresh
window and activation grant that follow (R104, R105, R111). Temperatures are in units of 0.25 °C.
-/

namespace Sys2Proof.Machine

open Sys2Proof

/-! ## Sensors (R400, R401, Table 16.2) -/

/-- The zone of a sensor (Table 16.1). -/
def sensorZone (i : Nat) : Nat := if i < 80 then i / 5 else if i < 216 then 16 + (i - 80) / 8 else 33

/-- The sensors of a zone. -/
def zoneSensors (z : Nat) : List Nat :=
  if z < 16 then (List.range 5).map (5 * z + ·) else if z < 33 then (List.range 8).map (80 + 8 * (z - 16) + ·) else [216, 217]

/-- What the health tests keep of a sensor. -/
def Dev.sensor (d : Dev) (i : Nat) : SensorSt := SMap.get {} d.therm.sensors i

/-- It changed. -/
def Dev.setSensor (d : Dev) (i : Nat) (f : SensorSt → SensorSt) : Dev :=
  { d with therm.sensors := SMap.modify {} d.therm.sensors i f }

/-- A sensor's last reading. -/
def Dev.reading (d : Dev) (i : Nat) : Int := ofField 11 (d.rd (F.THERM_SENSOR_TEMP i))

/-- A sensor's state: 0 HEALTHY, 1 SUSPECT, 2 BROKEN. -/
def Dev.sensorState (d : Dev) (i : Nat) : Nat := d.rd (F.THERM_SENSOR_STATE i)

/-- The greatest of some readings. -/
def highest : List Int → Option Int
  | [] => none
  | x :: rest => some (rest.foldl max x)

/-- The least of some readings. -/
def lowest : List Int → Option Int
  | [] => none
  | x :: rest => some (rest.foldl min x)

/-- The sensors of a zone that have been sampled and are HEALTHY. -/
def Dev.healthy (d : Dev) (z : Nat) : List Nat :=
  (zoneSensors z).filter (fun i => d.sensorState i = 0 && (d.sensor i).last.isSome)

/-- One reading taken: the range, step and reference tests. -/
def Dev.sample (d : Dev) (i : Nat) (r : SensorReading) : Dev :=
  let old := d.sensor i
  let d := (d.wr (F.THERM_SENSOR_TEMP i) (toField 11 r.temp)).count 0x0810 (sensorZone i)
  let same := old.last.isSome && old.raw = r.raw
  let d := d.setSensor i fun x =>
    { x with last := some r.temp, raw := r.raw, same := if same then x.same + 1 else 1, others := if same then x.others else none }
  let step := match old.last with
    | some t => decide (32 < (r.temp - t).natAbs)
    | none => false
  if r.temp < -80 ∨ 600 < r.temp then d.sensorBroken i 1
  else if step then d.sensorBroken i 2
  else if r.refBad then d.sensorBroken i 3 else d

/-- The stuck test of a sensor, after its zone has been sampled. -/
def Dev.stuckTest (d : Dev) (i : Nat) : Dev :=
  let x := d.sensor i
  let now := ((zoneSensors (sensorZone i)).filter (fun j => j ≠ i && (d.sensor j).last.isSome)).map d.reading
  match lowest now, highest now with
  | some lo, some hi =>
    let span := match x.others with
      | some (a, b) => (min a lo, max b hi)
      | none => (lo, hi)
    let d := d.setSensor i fun x => { x with others := some span }
    if 65536 ≤ x.same ∧ 8 ≤ span.2 - span.1 then d.sensorBroken i 4 else d
  | _, _ => d

/-- Twice the median of some readings. -/
def median2 (l : List Int) : Option Int :=
  let l := l.mergeSort
  if l = [] then none else some (l.getD (l.length / 2) 0 + l.getD ((l.length - 1) / 2) 0)

/-- The outlier test: more than 10 °C from the reference reading, doubled, for 1 s. -/
def Dev.outlierTest (d : Dev) (i : Nat) (ref : Option Int) : Dev :=
  match ref with
  | some m =>
    if (2 * d.reading i - m).natAbs ≤ 80 then d.setSensor i fun x => { x with outSince := none }
    else match (d.sensor i).outSince with
      | none => d.setSensor i fun x => { x with outSince := some d.time }
      | some t => if t + 1000000000 ≤ d.time then d.sensorBroken i 5 else d
  | none => d

/-! ## Levels (R28, R122, R401) -/

/-- What the level warden keeps of a level. -/
def Dev.levelTherm (d : Dev) (l : Nat) : LevelTherm := SMap.get {} d.therm.levels l

/-- It changed. -/
def Dev.setLevelTherm (d : Dev) (l : Nat) (f : LevelTherm → LevelTherm) : Dev :=
  { d with therm.levels := SMap.modify {} d.therm.levels l f }

/-- Whether a level is SUSPECT. -/
def Dev.suspect (d : Dev) (l : Nat) : Bool := d.flag (F.THERM_LEVEL_SUSPECT l)

/-- The retention-implied temperature of a level (R122): the highest VALID value among its last four samples. A sample is kept as 0
where it is not VALID, else as its value plus one. -/
def Dev.implied (d : Dev) (l : Nat) : Option Int :=
  match (SMap.get [] d.hygroLast l).foldl max 0 with
  | 0 => none
  | n + 1 => some n

/-- The level's own reading in the comparisons of R403: of its HEALTHY sensors, or while it is SUSPECT of those not BROKEN. -/
def Dev.ownReading (d : Dev) (l : Nat) : Option Int :=
  highest (((zoneSensors (16 + l)).filter (fun i => (d.sensor i).last.isSome &&
    (if d.suspect l then d.sensorState i ≠ 2 else d.sensorState i = 0))).map d.reading)

/-- A stack-model estimate, kept in millionths of a degree, in units of 0.25 °C, rounded to the nearest. -/
def modelQuarters (e : Int) : Int := (e + 125000) / 250000

/-- The hottest trusted reading of a level (R401). -/
def Dev.trustedLevel (d : Dev) (l : Nat) : Option Int :=
  if d.suspect l then
    let e := (d.levelTherm l).model.map modelQuarters
    match d.implied l, e with
    | some a, some b => some (max a b)
    | some a, none => if e.isSome then e else some a
    | none, e => e
  else highest ((d.healthy (16 + l)).map d.reading)

/-- The hottest trusted reading of a zone. -/
def Dev.trusted (d : Dev) (z : Nat) : Option Int :=
  if 16 ≤ z ∧ z < 33 then d.trustedLevel (z - 16) else highest ((d.healthy z).map d.reading)

/-! ## Refresh window and grant (R104, R105, R111) -/

/-- Whether a level's window is held at the 110 °C value. -/
def Dev.forced110 (d : Dev) (l : Nat) : Bool := d.suspect l || (zoneSensors (16 + l)).all (fun i => d.sensorState i = 2)

/-- The throttle factor of a level in four-hundredths. -/
def Dev.levelThrottle (d : Dev) (l : Nat) : Nat :=
  if d.suspect l then 200 else throttle400 (d.rd (F.REFRESH_STATUS_TEMP l))

/-- The grant that a level's shelf ports take at the next boundary; a change is announced in the next reports (R90). -/
def Dev.setGrant (d : Dev) (l : Nat) : Dev :=
  let g := actGrant d.period (d.levelThrottle l)
  if SMap.get (d.portGrant l) d.grantNext l = g then d
  else (List.range 64).foldl (fun d n => d.setShelf (shelfKey n l) fun p => { p with grantChanged := true })
    { d with grantNext := SMap.insert l g d.grantNext }

/-- Window, throttle and grant of a level recomputed by its steward. -/
def Dev.levelWindow (d : Dev) (l : Nat) : Dev :=
  let forced := d.forced110 l
  let t := if forced then some 440 else d.trustedLevel l
  match t with
  | none => d
  | some t =>
    let q := (max 0 t).toNat
    let w := if forced then 5657 else refreshWindow t
    let d := d.wrs [(F.REFRESH_STATUS_WINDOW l, w), (F.REFRESH_STATUS_TEMP l, q), (F.REFRESH_STATUS_FORCED_110 l, forced.toNat),
      (F.ACT_GRANT_SUSPECT_CLAMP l, (d.suspect l).toNat)]
    (d.wr (F.ACT_GRANT_THROTTLE l) (d.levelThrottle l / 4)).setGrant l

/-! ## Zones and excursions (R406) -/

/-- THERM_ZONE, THERM_LEVEL.TRUSTED and the excursions of a zone. -/
def Dev.zoneStatus (d : Dev) (z : Nat) : Dev :=
  let t := d.trusted z
  let level := decide (16 ≤ z) && decide (z < 33)
  let q := toField 10 (t.getD 0)
  let d := d.wrs [(F.THERM_ZONE_HOTTEST z, q), (F.THERM_ZONE_HEALTHY z, (d.healthy z).length),
    (F.THERM_ZONE_BLIND z, (t.isNone && !(level && (d.implied (z - 16)).isSome)).toNat)]
  let d := if level then d.wr (F.THERM_LEVEL_TRUSTED (z - 16)) q else d
  match t with
  | none => d
  | some t =>
    let w : Int := 4 * (clampNat 60 100 (d.rd F.THERM_CFG_WARN) : Nat)
    let d := match slotAt d.therm.warm z with
      | some c => if t ≤ c - 8 then { d with therm.warm := SMap.erase z d.therm.warm } else d
      | none =>
        if w ≤ t then (({ d with therm.warm := SMap.insert z w d.therm.warm } : Dev).count 0x0814 z).raise .thermWarn (Src.zone z) else d
    if z = 33 then d
    else if d.therm.hot.contains z then (if t ≤ 392 then { d with therm.hot := d.therm.hot.filter (· ≠ z) } else d)
    else if 400 ≤ t then (({ d with therm.hot := d.therm.hot ++ [z] } : Dev).count 0x0815 z).raise .thermOverLimit (Src.zone z)
    else d

/-- THERM_STATUS. -/
def Dev.thermStatus (d : Dev) : Dev :=
  let best := (List.range 34).foldl (fun b z => match b, d.trusted z with
    | some (_, t), some u => if t < u then some (z, u) else b
    | none, some u => some (z, u)
    | b, none => b) (none : Option (Nat × Int))
  let d := d.wrs [(F.THERM_STATUS_WARN, (!d.therm.warm.isEmpty).toNat), (F.THERM_STATUS_OVER_LIMIT, (!d.therm.hot.isEmpty).toNat)]
  match best with
  | some (z, t) => d.wrs [(F.THERM_STATUS_HOTTEST_ZONE, z), (F.THERM_STATUS_HOTTEST, toField 10 t)]
  | none => d

/-! ## Thermal shutdown (R407 to R409) -/

/-- A trip (Table 16.3, Steps 1 to 5): no register or setting delays it. A further zone is only counted. -/
def State.trip (s : State) (z sensor : Nat) (t : Int) : State :=
  let p := s.dev.pow
  if p.closed then s
  else if p.shutdown then
    (if p.trip.map (·.1) = some z then s else s.withDev fun d => { d with pow.trips := d.pow.trips + 1 })
  else
    let s := s.withDev fun d =>
      ({ d with pow.shutdown := true, pow.trip := some (z, sensor, t), pow.trips := 1, pow.thermLow := !d.footInReset,
                pow.latched := none } : Dev).wr F.POWER_STATUS_CLOSING 0
    let f : RaisedFault := { type := FaultType.thermalShutdown.code, source := Src.zone z, detail := packDetail [(sensor, 8)] }
    (s.classify f []).safeEnter

/-- The trips that the readings of a zone's sensors bring: a HEALTHY sensor at 110 °C, or a crown or foot zone without a trusted source. -/
def State.zoneTrips (s : State) (z : Nat) : State :=
  let s := (s.dev.healthy z).foldl (fun s i => if 440 ≤ s.dev.reading i then s.trip z i (s.dev.reading i) else s) s
  if (16 ≤ z ∧ z < 33) ∨ ¬ (zoneSensors z).all (fun i => s.dev.sensorState i = 2) then s
  else s.trip z ((zoneSensors z).headD 0) (s.dev.reading ((zoneSensors z).headD 0))

/-! ## SUSPECT (R403 to R405) -/

/-- A level marked SUSPECT with its cause: window, throttle, feasibility, and the sparing it causes. -/
def State.markSuspect (s : State) (l cause : Nat) : State :=
  if s.dev.suspect l then s
  else
    let s := s.withDev fun d =>
      let d := d.wrs [(F.THERM_LEVEL_SUSPECT l, 1), (F.THERM_LEVEL_CAUSE l, cause)]
      let d := (zoneSensors (16 + l)).foldl (fun d i => if d.sensorState i = 0 then d.wr (F.THERM_SENSOR_STATE i) 1 else d) d
      let d := ({ d with recheck := true } : Dev).raise .levelSuspect (Src.level l) [(cause, 4)]
      d.levelWindow l
    if s.dev.role l = 1 then
      if s.dev.rd F.SPARE_STATUS_STATE ≠ 0 then s.withDev fun d => d.spareAbandoned 4
      else s.withDev fun d => ((d.wr F.DEV_STACK_CURRENT_RESERVE 31).retireLevel l).recordRoles
    else if s.dev.role l = 0 ∧ s.dev.flag F.REPAIR_CFG_AUTO_SPARE then
      (s.withDev fun d => { d with sparingWanted := d.sparingWanted.filter (· ≠ l) ++ [l] }).spareAuto l
    else s

/-- One comparison of R403 with a level's own reading: the length of the run of those beyond 5 °C. -/
def Dev.comparedLevel (d : Dev) (l : Nat) (far : Bool) : Dev :=
  if far then d.setLevelTherm l fun x => { x with beyond := d.time + 1 } else d

/-- CLEAR written (R405). -/
def Dev.thermClear (d : Dev) (l : Nat) : Dev :=
  let ok := (zoneSensors (16 + l)).all (fun i => d.sensorState i ≠ 2) &&
    ((d.levelTherm l).beyond = 0 || decide ((d.levelTherm l).beyond + 1000000000 ≤ d.time + 1))
  if ¬ d.suspect l ∨ ¬ ok then d
  else
    let d := d.wrs [(F.THERM_LEVEL_SUSPECT l, 0), (F.THERM_LEVEL_CAUSE l, 0)]
    let d := (zoneSensors (16 + l)).foldl (fun d i => d.wr (F.THERM_SENSOR_STATE i) 0) d
    let d := { d.setLevelTherm l (fun x => { x with witRun := 0, modelRun := 0 }) with recheck := true }
    (d.levelWindow l).zoneStatus (16 + l)

/-- THERM_CLEAR (R405). -/
def execThermClear (level : Fin 17) (s : State) : Host.Outcome State Fault Refusal := s.next fun d => d.thermClear level

/-! ## Samples -/

/-- The samples of some zones, in the order of their sensors, with the tests that follow. -/
def State.sampleZones (s : State) (zones : List Nat) (readings : List SensorReading) (outliers : Dev → Nat → Option (Option Int)) : State :=
  let ids := zones.flatMap zoneSensors
  let s := s.withDev fun d =>
    let d := (ids.zip readings).foldl (fun d x => d.sample x.1 x.2) d
    let d := (ids.take readings.length).foldl (fun d i => d.stuckTest i) d
    (ids.take readings.length).foldl (fun d i => match outliers d (sensorZone i) with
      | some ref => d.outlierTest i ref
      | none => d) d
  let s := s.withDev fun d => (zones.foldl (fun d z => d.zoneStatus z) d).thermStatus
  zones.foldl (fun s z => s.zoneTrips z) s

/-- CROWN_SENSOR_SAMPLE (R400): every 20 µs. -/
def execCrownSensorSample (readings : List SensorReading) (s : State) : Host.Outcome State Fault Refusal :=
  .next (s.sampleZones (List.range 16) readings fun d z => some (median2 ((d.healthy z).map d.reading)))

/-- FOOT_SENSOR_SAMPLE (R400): every 100 µs; its sensors pause while the foot is in reset. -/
def execFootSensorSample (readings : List SensorReading) (s : State) : Host.Outcome State Fault Refusal :=
  .next (if s.dev.footInReset then s else s.sampleZones [33] readings fun d _ => some ((d.trustedLevel 0).map (2 * ·)))

/-- A level's sensors sampled by its steward (R104): health, SUSPECT, and the window, throttle and grant. -/
def State.levelSample (s : State) (l : Nat) (readings : List SensorReading) : State :=
  let s := s.sampleZones [16 + l] readings fun _ _ => none
  let s := if (zoneSensors (16 + l)).any (fun i => s.dev.sensorState i = 2) then s.markSuspect l 3 else s
  s.withDev fun d => ((d.levelWindow l).zoneStatus (16 + l)).thermStatus

/-- LEVEL_SENSOR_SAMPLE (R104): every 100 µs; readings pause while the steward is reset. -/
def execLevelSensorSample (level : Fin 17) (readings : List SensorReading) (s : State) : Host.Outcome State Fault Refusal :=
  .next (if s.dev.flag (F.LEVEL_RESET_RECOVERING level) then s else s.levelSample level readings)

/-- Steps 4 and 5 of Table 5.2: the local count is loaded, hygrometer sampling starts afresh, the recovering shelf ports are READY, and
every port of the level announces its grant anew. -/
def Dev.stewardReady (d : Dev) (level : Nat) : Dev :=
  let d := { d.loadLocal [level] with hygroLast := SMap.put [] d.hygroLast level [] }
  let d := d.wrs [(F.LEVEL_RESET_REQ level, 0), (F.LEVEL_RESET_RECOVERING level, 0)]
  (List.range 64).foldl (fun d n => d.setShelf (shelfKey n level) fun p =>
    { p with st := if p.st = .recovering then .ready else p.st, grantChanged := true }) d

/-- What goes on once a level's shelves are READY again (R124): the bays' bank states, the merge buffers, the flush and the requests held
for a shaft. -/
def State.levelReopened (s : State) (level : Nat) : State :=
  let s := (List.range 64).foldl (fun s n => (s.withDev fun d => d.rebuildBay n level).pumpMerge n) s
  s.pumpFlush.releaseAll fun h => match h with
    | .shaft _ => true
    | _ => false

/-- STEWARD_RESET_DONE (R123): Steps 3 to 5 of Table 5.2: sensors are read, the local count is loaded, hygrometer sampling starts
afresh, the shelf ports are READY again, and requests held for them go on (R124). -/
def execStewardResetDone (level : Fin 17) (readings : List SensorReading) (s : State) : Host.Outcome State Fault Refusal :=
  .next (if ¬ s.dev.flag (F.LEVEL_RESET_RECOVERING level) then s
    else ((s.levelSample level readings).withDev fun d => d.stewardReady level).levelReopened level)

/-! ## Hygrometer rows (R120 to R122) -/

/-- The retention-implied temperature of a fail count between two points of a curve, 2^k and 2^(k+1) ms: 85 + 10 × (k + x − 4) °C,
rounded to the nearest 0.25 °C. -/
def hygroTemp (k f lo hi : Nat) : Nat :=
  let m := ((List.range 41).filter (fun m => m = 0 || decide (hi ^ (2 * m - 1) * lo ^ 80 ≤ f ^ 80 * lo ^ (2 * m - 1)))).foldl max 0
  180 + 40 * k + m

/-- A witness sample (R121): TEMP, VALID, BELOW_RANGE, ABOVE_RANGE and the VALID reading it counts as. -/
def hygroSample (c : List Nat) (f seed : Nat) : Nat × Bool × Bool × Bool × Option Nat :=
  if f < c.getD 0 0 then (180, false, true, false, none)
  else if c.getD 10 0 ≤ f then (580, true, false, true, some 500)
  else match (List.range 10).find? (fun k => decide (c.getD k 0 ≤ f) && decide (f < c.getD (k + 1) 0)) with
    | none => (0, false, false, false, none)
    | some k =>
      let t := if c.getD k 0 = 0 then (Config.hygroOpen seed).toNat else hygroTemp k f (c.getD k 0) (c.getD (k + 1) 0)
      (t, true, false, false, some (min t 500))

/-- The witness comparison of R403. -/
def State.witnessCompare (s : State) (l : Nat) : State :=
  match s.dev.implied l, s.dev.ownReading l with
  | some w, some t =>
    let far := decide (20 < (w - t).natAbs)
    let s := s.withDev fun d =>
      ((if far then d.count 0x0813 l else d).comparedLevel l far).setLevelTherm l fun x => { x with witRun := if far then x.witRun + 1 else 0 }
    if 4 ≤ (s.dev.levelTherm l).witRun then s.markSuspect l 1 else s
  | _, _ => s

/-- HYGRO_SAMPLE (R121): no sample comes from a gated quadrant, from an array whose curve is unusable, or while the steward is reset. -/
def execHygroSample (level : Fin 17) (quadrant : Fin 4) (fails : Nat) (s : State) : Host.Outcome State Fault Refusal :=
  .next <|
    if ¬ s.dev.domainOn (Dom.quadrant level quadrant) ∨ s.dev.flag (F.LEVEL_RESET_RECOVERING level) then s
    else
      let key := 4 * level.val + quadrant
      let put := fun (d : Dev) (t : Nat) (v b a : Bool) (f : Nat) =>
        d.wrs [(F.HYGRO_TEMP level quadrant, t), (F.HYGRO_VALID level quadrant, v.toNat), (F.HYGRO_BELOW_RANGE level quadrant, b.toNat),
          (F.HYGRO_ABOVE_RANGE level quadrant, a.toNat), (F.HYGRO_FAILS level quadrant, f)]
      match (s.ledger.curve level quadrant).filter curveUsable with
      | none =>
        s.withDev fun d =>
          let d := put d 0 false false false 0
          if d.therm.curveBad.contains key then d
          else ({ d with therm.curveBad := d.therm.curveBad ++ [key] } : Dev).raise .hygroRange (Src.level level)
      | some c =>
        let (t, v, b, a, n) := hygroSample c fails s.dev.freeCount
        let s := s.withDev fun d =>
          let d := put d t v b a fails
          let last := (n.map (· + 1)).getD 0 :: (SMap.get [] d.hygroLast level).take 3
          ({ d with hygroLast := SMap.put [] d.hygroLast level last, freeCount := d.freeCount + 1 } : Dev).raiseIf (b || a) .hygroRange
            (Src.level level)
        let s := s.witnessCompare level
        let s := s.withDev fun d => ((d.levelWindow level).zoneStatus (16 + level)).thermStatus
        match n with
        | some q => if s.dev.suspect level ∧ 440 ≤ q then s.trip (16 + level) (80 + 8 * level) q else s
        | none => s

/-! ## The stack model (R402, R403) -/

/-- The neighbour readings of a level, doubled where a mean of sixteen is taken: t_below and t_above, in millionths of a degree. -/
def Dev.neighbours (d : Dev) (l : Nat) : Option (Int × Int) :=
  let below := if l = 0 then d.trusted 33 else d.trustedLevel (l - 1)
  let crown := (List.range 16).filterMap d.trusted
  let above : Option Int := if l = 16 then (if crown = [] then none else some (crown.foldl (· + ·) (0 : Int) * 250000 / (crown.length : Int)))
    else (d.trustedLevel (l + 1)).map (· * (250000 : Int))
  match below, above with
  | some b, some a => some (b * 250000, a)
  | _, _ => none

/-- One level's evaluation. -/
def State.modelLevel (s : State) (l heat : Nat) : State :=
  match s.dev.neighbours l with
  | none => s
  | some (b, a) =>
    let e := (b + a) / 2 + heat
    let own := s.dev.ownReading l
    let inputs := [b, a, (heat : Int), (own.getD 0) * 250000]
    let moved := match (s.dev.levelTherm l).inputs with
      | some old => (inputs.zip old).any (fun x => decide (2000000 < (x.1 - x.2).natAbs))
      | none => false
    let far := match own with
      | some t => decide (5000000 < (e - t * 250000).natAbs)
      | none => false
    let s := s.withDev fun d =>
      let d := (d.count 0x0811 l).wr (F.THERM_LEVEL_MODEL l) (toField 10 (modelQuarters e))
      ((if far then d.count 0x0812 l else d).comparedLevel l far).setLevelTherm l fun x =>
        { x with model := some e, inputs := some inputs, modelRun := if moved then 0 else if far then x.modelRun + 1 else 0 }
    let s := if 10 ≤ (s.dev.levelTherm l).modelRun then s.markSuspect l 2 else s
    let s := s.withDev fun d => (d.levelWindow l).zoneStatus (16 + l)
    let off := (levelQuadrants l).all (fun q => !s.dev.domainOn q)
    if (s.dev.role l = 2 ∨ off) ∧ 110000000 ≤ e then s.trip (16 + l) (80 + 8 * l) (modelQuarters e) else s

/-- STACK_MODEL_EVAL (R402): every 10 ms; the power of each level in mW is what LW estimates. -/
def execStackModelEval (power : List Nat) (s : State) : Host.Outcome State Fault Refusal :=
  .next (((List.range 17).foldl (fun s l => s.modelLevel l (s.fuses.selfHeat.getD l 0 * power.getD l 0)) s).withDev Dev.thermStatus)

/-- WITNESS_TIMEOUT (R407): no VALID witness sample for 64 ms from a level whose sensors are all BROKEN or SUSPECT. -/
def execWitnessTimeout (level : Fin 17) (s : State) : Host.Outcome State Fault Refusal :=
  .next <|
    let off := (levelQuadrants level).all (fun q => !s.dev.domainOn q)
    if s.dev.role level ≠ 2 ∧ ¬ off ∧ (zoneSensors (16 + level)).all (fun i => s.dev.sensorState i ≠ 0) then
      s.trip (16 + level) (80 + 8 * level) (s.dev.reading (80 + 8 * level))
    else s

end Sys2Proof.Machine
end

