-- ==== Sys2Proof/Machine/Start.lean ====
section
/-!
DEFINITION. The cold start from the foot alone to READY (R427, R498 to R504).
-/

namespace Sys2Proof.Machine

open Sys2Proof

/-! ## Errata applied (Table 21.2, Step 9; the records are those of Table 11.9) -/

/-- LEVEL_ROLES. -/
def Dev.applyRoles (d : Dev) (p : List Nat) : Dev :=
  let d := (List.range 17).foldl (fun d l => d.wrs [(F.LEVEL_ROLE_ROLE l, p.getD l 0), (F.LEVEL_ROLE_SHELF l, p.getD l 0 / 4)]) d
  d.wrs [(F.DEV_STACK_CURRENT_RESERVE, p.getD 17 0), (F.SPARE_STATUS_RETIRED, p.getD 18 0)]

/-- COLUMNS of a shaft. -/
def Dev.applyColumns (d : Dev) (shaft : Nat) (p : List Nat) : Dev :=
  (List.range 10).foldl (fun d g =>
    let used := (List.range 2).filter (fun sp => p.getD (2 * g + sp) 0xFF ≠ 0xFF)
    let d := used.foldl (fun d sp => { d with columns := SMap.insert (columnKey shaft g sp) (p.getD (2 * g + sp) 0 + 1) d.columns }) d
    if used = [] then d else d.bump F.DEV_STACK_GROUPS_SPARED) d

/-- ERASURES of a bay. -/
def Dev.applyErasures (d : Dev) (bay : Nat) (p : List Nat) : Dev :=
  d.setErasures bay (((List.range 8).map fun i => payloadNum p (4 * i) 4).filter (fun w => decide (2 ^ 31 ≤ w)) |>.map
    fun w => (w % 2 ^ 7, w / 2 ^ 7 % 2 ^ 17))

/-- ROW_MAP of a bank. -/
def Dev.applyRowMap (d : Dev) (index : Nat) (p : List Nat) : Dev :=
  let shaft := index / 16 % 64
  let level := index / 1024
  let bank := index % 16
  (List.range 64).foldl (fun d j =>
    let w := payloadNum p (2 * j) 2
    if w = 0x1FFF then d
    else
      let k := bankKey shaft level bank
      let d : Dev := { d with spareUsed := SMap.put 0 d.spareUsed k (d.sparesUsed k ||| 2 ^ j) }
      if w % 2 ^ 13 = 0x1FFF then d else { d with rowMap := SMap.put 0 d.rowMap (rowKey shaft level bank (w % 2 ^ 13)) (j + 1) }) d

/-- LANES of a port. -/
def Dev.applyLanes (d : Dev) (p : Nat) (b : List Nat) : Dev :=
  [false, true].foldl (fun d recv =>
    let base := if recv then 4 else 0
    let d := [false, true].foldl (fun d sp =>
      let (a, u, _) := mapField recv sp p
      let v := b.getD (base + sp.toNat) 0
      d.wrs [(a, v % 32), (u, v / 32)]) d
    d.wr (failedField recv p) (payloadNum b (base + 2) 2)) d

/-- A bay out of service from the first command: its twin adopts its shaft (R153, R295). -/
def Dev.adoptedAtStart (d : Dev) (b : Nat) : Dev :=
  d.wrs [(F.TWIN_STATUS_MODE b, 1), (F.TWIN_STATUS_CAUSE b, 3), (F.TWIN_STATUS_MODE (twinOf b), 2)]

/-- Every errata record applied. -/
def State.applyErrata (s : State) : State :=
  let l := s.ledger
  s.withDev fun d =>
    let d := l.records.foldl (fun d kv => match kv.1 / 2 ^ 16, l.read kv.1 with
      | 0x03, some p => d.applyRoles p
      | 0x04, some p => d.applyColumns (kv.1 % 64) p
      | 0x05, some p => d.applyErasures (kv.1 % 64) p
      | 0x06, some p => d.applyRowMap (kv.1 % 2 ^ 16) p
      | 0x07, some p => { d with withdrawnBays := (List.range 64).filter (payloadNum p 0 8).testBit }
      | 0x08, some p => d.applyLanes (kv.1 % 64) p
      | 0x09, some p => d.wrs [(F.EVAC_STATUS_REQUIRED, p.getD 0 0), (F.EVAC_STATUS_CAUSE, p.getD 1 0)]
      | 0x20, some p => ({ d with life.hours := payloadNum p 0 4, life.crown := payloadNum p 4 8, life.levels := payloadNum p 12 8 } : Dev).showLife
      | _, _ => d) d
    (List.range 17).foldl (fun d l => if d.role l = 2 then d.gateLevel l else d) d

/-! ## Quick or full (R500) -/

/-- Whether a record falls back to its older copy (R301). -/
def LedgerRec.fallsBack (r : LedgerRec) : Bool := (r.a.valid && !r.b.valid && r.b ≠ 0) || (r.b.valid && !r.a.valid && r.a ≠ 0)

/-- Whether an errata record falls back, or has no copy left. -/
def Ledger.errataFallback (l : Ledger) : Bool :=
  l.records.any (fun kv => decide (1 ≤ kv.1 / 2 ^ 16) && decide (kv.1 / 2 ^ 16 ≤ 9) && (kv.2.fallsBack || kv.2.newest.isNone))

/-- FULL_CAUSE (R500): the first condition that fails; 0 for a quick start. `count` is COUNT before this start. -/
def State.fullCause (s : State) (count cause ms : Nat) (forced : Bool) : Nat :=
  match s.ledger.read (recordNo 0x11 0) with
  | none => if s.ledger.isLost (recordNo 0x11 0) then 6 else 1
  | some p =>
    if p.getD 4 0 ≠ 2 then 2
    else if payloadNum p 0 4 ≠ count ∨ p.getD 5 0 % 2 ≠ 1 then 3
    else if cause ≠ 1 ∧ cause ≠ 2 ∧ cause ≠ 3 then 3
    else if 2540160000 < ms then 4
    else if forced then 5
    else if s.ledger.errataFallback then 6 else 0

/-- The wake record that LAST_WAKE reports (R416, R435): the always-on one while it has survived; else BROWN_OUT where the WAKE record
holds it with the START_COUNT of the session that ended; else POWER_ON. -/
def State.wakeCause (s : State) (count : Nat) : Nat :=
  match s.dev.pow.record with
  | some r => r
  | none =>
    match s.ledger.read (recordNo 0x13 0) with
    | some p => if payloadNum p 0 4 = count ∧ payloadNum p 4 4 % 16 = 5 then 5 else 0
    | none => 0

/-- LAST_WAKE and LAST_WAKE_MS of a wake record (R435). -/
def Dev.showWake (d : Dev) (w : Nat) : Dev :=
  d.wrs [(F.LAST_WAKE_CAUSE, w), (F.LAST_WAKE_FLAG, w / 2 ^ 4), (F.LAST_WAKE_SOURCE, w / 2 ^ 5), (F.LAST_WAKE_ZONE, w / 2 ^ 7),
    (F.LAST_WAKE_MS_CLOSED_MS, d.pow.closedMs)]

/-- Step 2 of Table 21.2. -/
def State.startTwo (s : State) : State :=
  let count := match s.ledger.read (recordNo 0x12 0) with
    | some p => payloadNum p 0 4
    | none => 0
  let w := s.wakeCause count
  let ms := s.dev.pow.closedMs
  let start := (s.ledger.read (recordNo 0x10 0)).getD []
  let forced := (start.getD 0 0).testBit 7
  let cause := s.fullCause count (w % 16) ms forced
  let now := (count + 1) % 2 ^ 32
  let logs := (s.ledger.records.filter (fun kv => kv.1 / 2 ^ 16 = 0x30)).length
  let s := { s with ledger := s.ledger.writeNow (recordNo 0x12 0) (bytesOfNat 4 now) }
  s.withDev fun d =>
    let d : Dev := { d.showWake w with start.full := decide (cause ≠ 0), pow.record := some w, flt.logNext := logs % 8192 }
    let d := d.wrs [(F.DEV_START_COUNT_COUNT, now), (F.DEV_START_STATUS_QUICK, if cause = 0 then 1 else 0), (F.DEV_START_STATUS_FULL_CAUSE, cause),
      (F.DEV_START_CFG_FORCE_FULL, forced.toNat)]
    (List.range 3).foldl (fun d k => if d.pll (64 + k) = 0 then d.setPll (64 + k) 1 else d) d

/-! ## Ports of the START record (Step 12) -/

/-- START (Table 21.1): the ports enabled, DEV_KEEPER and FORCE_FULL. -/
def State.startPayload (s : State) : List Nat :=
  (s.layout.keeperPort % 64 + 64 * s.layout.keeperValid.toNat + 128 * s.dev.rd F.DEV_START_CFG_FORCE_FULL) ::
    (List.range 64).map (fun p =>
      if s.dev.flag (F.PORT_CTL_ENABLE p) then
        1 + 2 * s.dev.rd (F.PORT_CTL_MODE p) + 8 * s.dev.rd (F.PORT_CTL_MAX_STEP p) + 64 * s.dev.rd (F.PORT_CTL_SPARE_EN p) +
          128 * s.dev.rd (F.PORT_CTL_DEGRADE_EN p)
      else 0)

/-- Step 12: every port with EN is enabled with its recorded fields, and DEV_KEEPER is set. -/
def State.startPorts (s : State) : State :=
  if s.dev.start.enabled then s
  else
    let s := s.withDev fun d => { d with start.enabled := true }
    match s.ledger.read (recordNo 0x10 0) with
    | none => s
    | some r =>
      let k := r.getD 0 0
      let s : State := { s with layout := { s.layout with keeperPort := k % 64, keeperValid := k.testBit 6 } }
      let ports := (List.range 64).filter (fun p => (r.getD (p + 1) 0).testBit 0)
      let s := ports.foldl (fun s p =>
        let v := r.getD (p + 1) 0
        (s.withDev fun d => d.wrs [(F.PORT_CTL_MODE p, v / 2), (F.PORT_CTL_MAX_STEP p, v / 8), (F.PORT_CTL_SPARE_EN p, v / 64),
          (F.PORT_CTL_DEGRADE_EN p, v / 128)]).portEnable p) s
      s.withDev fun d =>
        ({ d with start.ports := ports.filter (fun p => d.flag (F.PORT_CTL_ENABLE p)) } : Dev).wr F.DEV_START_CFG_APPLIED 1

/-- Whether every link that a port's MODE gives it is UP. -/
def Dev.portUp (d : Dev) (p : Nat) : Bool := (List.range 4).all (fun k => !d.linkInMode p k || d.linkUp (4 * p + k))

/-! ## The steps -/

/-- FAILED with its cause. -/
def Dev.startFailed (d : Dev) (cause : Nat) : Dev := d.wrs [(F.DEV_STATUS_STATE, 3), (F.DEV_START_STATUS_FAIL_CAUSE, cause)]

/-- A step of Table 21.2 completed. -/
def State.phase (s : State) (n : Nat) : State := s.withDev fun d => d.wr F.DEV_START_STATUS_PHASE n

/-- Step 4: the registrars' boot self-tests. -/
def State.startRegistrars (s : State) (o : StartOutcome) : State :=
  let ok := fun (i : Nat) => o.registrars.getLsbD i
  if ¬ ok 0 ∧ ¬ ok 1 then s.withDev fun d => ({ d with flt.registrarLost := true } : Dev).startFailed 1
  else
    let s := s.withDev fun d =>
      (d.wrs [(F.DEV_REG_ACTIVE, if ok 0 then 0 else 1), (F.DEV_REG_STANDBY_READY, (ok 0 && ok 1).toNat), (F.DEV_REG_PATCH, o.patch.toNat)]).ledgerRequest
        { record := recordNo 0x13 0, payload := d.wakePayload (d.pow.record.getD 0) }
    let s := ([0, 1].filter (fun i => !ok i)).foldl (fun s i => s.containRegistrar i) s
    s.phase 4

/-- Step 8: every domain but the fused ones is woken; PLLs of ports and HP3 acquire. -/
def State.startDomains (s : State) (o : StartOutcome) : State :=
  let failed := o.wakeFails.map (·.val)
  let s := (List.range 248).foldl (fun s i =>
    if s.fused i then s
    else
      let s := s.withDev fun d => d.wrs [(F.POWER_DOMAIN_STATE i, 0), (F.POWER_DOMAIN_ALIVE i, 1), (F.POWER_DOMAIN_WAKE_FLAG i, 1)]
      let s := match domainPll i with
        | some k => if s.dev.pll k = 0 then s.pllTo k 1 else s
        | none => s
      if failed.contains i then
        (s.withDev fun d => (d.wrs [(F.POWER_DOMAIN_STATE i, 3), (F.POWER_DOMAIN_ALIVE i, 0)]).raise .domainWakeFail (Src.domain i)).domainEmptied i
      else s) s
  ((s.withDev fun d => { d with keks := [], vault := [], nextKeys := [] }).phase 8)

/-- Step 9: errata applied, bays whose checker failed or that are withdrawn left to their twins, every shaft calibrated; a pair with
both twins out is LOST and the start fails (Table 21.3). -/
def State.startErrata (s : State) (o : StartOutcome) : State :=
  let s := s.applyErrata
  let bad := o.checkerFails.map (·.val)
  let s := s.withDev fun d => bad.foldl (fun d b => d.raise .checkerFail (Src.bay b)) d
  let out := (bad ++ s.dev.withdrawnBays).eraseDups
  if out.any (fun b => out.contains (twinOf b)) then
    s.withDev fun d =>
      let lost := out.filter (fun b => out.contains (twinOf b))
      lost.foldl (fun d b => d.wr (F.TWIN_STATUS_MODE b) 3) ((d.startFailed 3).wr F.EVAC_STATUS_REQUIRED 1)
  else
    let s := s.withDev fun d =>
      let d := out.foldl Dev.adoptedAtStart d
      (List.range 64).foldl (fun d n => d.wrs [(F.SHAFT_STATUS_CALIBRATED n, 1), (F.SHAFT_STATUS_CAL_RUNNING n, 0)]) d
    let s := s.phase 9
    if s.dev.start.full then s else s.startPorts

/-- The order of the start tests (R502). -/
def startTests : List Nat := [1, 2, 3, 6, 4, 5]

/-- The reserve level to self-refresh (R106). -/
def Dev.restReserve (d : Dev) : Dev :=
  (List.range 17).foldl (fun d l => if d.resting l then
      (List.range 64).foldl (fun d n => d.setShelf (shelfKey n l) fun p => { p with st := .selfRefresh, baySt := .selfRefresh }) d
    else d) d

/-- One phase of start tests (R502), whose repairs the inventory's registers do not count. -/
def State.startTest (s : State) (o : StartOutcome) : State :=
  let k := startTests.getD s.dev.start.tests 5
  let repairs := s.dev.rd F.INVENTORY_STATUS_REPAIRS
  let s := (s.testPhase k o.test).withDev fun d =>
    ({ d with test.failPhase := 0, start.tests := d.start.tests + 1 } : Dev).wr F.INVENTORY_STATUS_REPAIRS repairs
  let s := if k = 1 then s.startPorts else s
  if s.dev.start.tests < 6 then s else (s.withDev Dev.restReserve).phase 10

/-- Whether the references and the PLLs let Step 3 complete (R386, R392). -/
def Dev.clocked (d : Dev) : Bool := (d.refState 0 = 1 || d.refState 1 = 1) && (List.range 3).all (fun k => d.pll (64 + k) = 2)

/-- Whether a trusted reading holds Step 6 (R410). -/
def Dev.tooHot (d : Dev) : Bool := (List.range 16 ++ [33]).any (fun z => match d.trusted z with
  | some t => decide (420 ≤ t)
  | none => false)

/-- READY (R501, R503): the pending power request starts. -/
def State.ready (s : State) : State :=
  ((s.phase 13).withDev fun d => d.wrs [(F.DEV_STATUS_STATE, 1), (F.DEV_START_STATUS_READY_MS, min 65535 (d.time / 1000000))]).powerPump

/-- START_PHASE_DONE (R501): the next step of Table 21.2; the start holds in the safe state and while the foot is in reset. -/
def execStartPhaseDone (outcome : StartOutcome) (s : State) : Host.Outcome State Fault Refusal :=
  .next <|
    if ¬ s.dev.starting ∨ s.dev.flag F.SAFE_STATUS_ACTIVE ∨ s.dev.footInReset ∨ s.dev.pow.shutdown then s
    else
      match s.dev.rd F.DEV_START_STATUS_PHASE with
      | 0 => s.phase 1
      | 1 => if outcome.directory then s.startTwo.phase 2 else s.withDev fun d => d.startFailed 2
      | 2 => if s.dev.clocked then s.phase 3 else s
      | 3 => s.startRegistrars outcome
      | 4 => s.phase 5
      | 5 => if s.dev.tooHot then s else s.phase 6
      | 6 => (s.withDev fun d => d.loadLocal (List.range 18)).phase 7
      | 7 => s.startDomains outcome
      | 8 => s.startErrata outcome
      | 9 =>
        if s.dev.start.full then s.startTest outcome
        else (({ s with mem := [], dev := { s.dev with rowCounts := [] } } : State).withDev Dev.restReserve).phase 11
      | _ => if s.dev.start.ports.all s.dev.portUp then s.ready else s

/-- COLD_START (R427, R501): R427 holds, and the start begins at its anchor; LAST_WAKE takes an always-on record that has survived
(R435). -/
def execColdStart (closedMs : Word) (s : State) : Host.Outcome State Fault Refusal :=
  .next <|
    let p := s.dev.pow
    if s.dev.start.begun ∨ (p.closed ∧ p.latched.isNone) ∨ s.dev.flag (F.POWER_RAIL_BROWN 5) ∨ s.dev.footInReset then s
    else
      let s := s.coldReset { record := p.record, wakeLevel := p.wakeLevel, closedMs := if p.closed then closedMs.toNat else p.closedMs }
      s.withDev fun d =>
        let d := ({ d with start.begun := true } : Dev).wr F.POWER_PINS_PGOOD 1
        match p.record with
        | some w => d.showWake w
        | none => d

/-- PORT_READY_TIMEOUT (R503): the port is released; its links go on training. -/
def execPortReadyTimeout (port : Fin 64) (s : State) : Host.Outcome State Fault Refusal :=
  s.next fun d => if d.portUp port then d else { d with start.ports := d.start.ports.filter (· ≠ port.val) }

/-- SAVE written (Table 21.5): the START record is written; SAVE reads 1 until it is. -/
def State.startSave (s : State) : State :=
  s.withDev fun d => (d.wr F.DEV_START_CFG_SAVE 1).ledgerRequest { record := recordNo 0x10 0, payload := s.startPayload }

/-- START_CFG_SAVE (R498). -/
def execStartCfgSave (s : State) : Host.Outcome State Fault Refusal := .next s.startSave

end Sys2Proof.Machine
end

