-- ==== Sys2Proof/Machine/Boundary.lean ====
section
/-!
DEFINITION. The lending-period boundary (R44, R69, R70, R90, R155, R203 to R208, R212, R213, R226): steps, misses, commits, tokens,
grants, urgency, and every order that takes effect there.
-/

namespace Sys2Proof.Machine

open Sys2Proof

/-! ## The period that ends (R226, R229) -/

/-- The group and bay a held request waits at, where it waits at a bay. -/
def State.waitsAt (s : State) (h : Held) : Option (Nat × Nat) :=
  match h.why with
  | .tokens b => some (b, s.dev.rd (F.PATRON_GROUP_GROUP h.req.msg.patron))
  | .shaft n => some (n, s.dev.rd (F.PATRON_GROUP_GROUP h.req.msg.patron))
  | _ => none

/-- A group and bay in which a request has waited since the period's start, once each, with the patron of the oldest such
request. -/
def State.backlog (s : State) (start : Nat) : List ((Nat × Nat) × Nat) :=
  s.dev.held.foldl (fun l h =>
    match s.waitsAt h with
    | some k => if h.req.arrived ≤ start ∧ ¬ l.any (fun x => x.1 = k) then l ++ [(k, h.req.msg.patron)] else l
    | none => l) []

/-- Whether a group's tokens at a bay make a waiting request a slot miss (R226): unspent A0 tokens, or fewer than t(g). -/
def Dev.missedSlot (d : Dev) (bay g : Nat) : Bool :=
  decide (d.spentOf bay 0 g < d.a0Tokens bay g) || decide (d.a0Tokens bay g < (d.group g).t)

/-- A slot miss of a group at a bay (R226), counted to the patron whose request was the oldest (Table 19.6). -/
def Dev.slotMiss (d : Dev) (bay g patron : Nat) : Dev :=
  (((d.bump (F.MISS_SLOTS_COUNT g)).count 0x0509 bay (some patron)).circulate patron
    fun c => { c with misses := c.misses + 1 }).windowMiss g

/-- The slot misses of the period that ends, and the bays that shed in it. -/
def State.closePeriod (s : State) (start : Nat) : State :=
  let misses := (s.backlog start).filter (fun x => s.dev.missedSlot x.1.1 x.1.2)
  s.withDev fun d =>
    let d := misses.foldl (fun d x => d.slotMiss x.1.1 x.1.2 x.2) d
    ((List.range 64).filter (fun b => (d.bayTokens b).step ≠ 0)).foldl (fun d b => d.count 0x050E b) d

/-! ## Settings (R207, R208, R227) -/

/-- The settings of a change of period: windows in force close, and the grants are those of the new length (R227, R89). -/
def Dev.newPeriod (d : Dev) (code : Nat) : Dev :=
  let d : Dev := { d with periodCode := code, missCount := [], grantNext := [] }
  (List.range 17).foldl (fun d l =>
    let g := actGrant d.period (d.levelThrottle l)
    (List.range 64).foldl (fun d n => d.setShelf (shelfKey n l) fun p => { p with grantBay := g, grantBayNext := g })
      (d.wr (F.ACT_GRANT_GRANT l) g)) d

/-- An accepted commit in force (R207): at least 2 µs after acceptance, and at a multiple of 8,000 ns where PERIOD changes. -/
def Dev.commitBoundary (d : Dev) : Dev :=
  match d.commit with
  | none => d
  | some (a, t) =>
    if d.past2 t ∧ (a.period = d.inForce.period ∨ d.time % 8000 = 0) then
      let changed := a.period ≠ d.inForce.period
      let d := ({ d with inForce := a, commit := none } : Dev).wr F.ALLOW_CTL_COMMIT 0
      (if changed then d.newPeriod a.period else d).showInForce
    else d

/-- The settings that are not staged, as the registers hold them now. -/
def Dev.looseNow (d : Dev) : LooseSet :=
  { reshelve := d.rd F.ALLOW_BG_RESHELVE, crit := d.rd F.ALLOW_BG_RESHELVE_CRIT, floor := d.rd F.ALLOW_BG_RESHELVE_FLOOR,
    spot := d.rd F.ALLOW_BG_SPOT, dwell := d.rd F.ALLOW_URGENCY_DWELL,
    missN := (List.range 256).foldl (fun m g => SMap.put 16 m g (d.rd (F.MISS_CFG_MISS_N g))) [],
    missW := (List.range 256).foldl (fun m g => SMap.put 10 m g (d.rd (F.MISS_CFG_MISS_W g))) [] }

/-- A write of such a setting noted, to take effect at a boundary (R207). -/
def Dev.looseWritten (d : Dev) : Dev := { d with looseNext := d.looseNext ++ [(d.time, d.looseNow)] }

/-- The settings that are not staged taken where they were written at least 2 µs before; a group whose MISS_W changes has its
window closed (R227). -/
def Dev.looseBoundary (d : Dev) : Dev :=
  match (d.looseNext.filter (fun x => d.past2 x.1)).getLast? with
  | none => d
  | some (_, l) =>
    let same := fun g => SMap.get 10 l.missW g = SMap.get 10 d.loose.missW g
    { d with loose := l, looseNext := d.looseNext.filter (fun x => !d.past2 x.1),
             missCount := d.missCount.filter (fun kv => same kv.1) }

/-- The result of a feasibility check loaded (R221, R44): at least 2 µs after it completed, and not before the commit it was made
for. A sparing that waits for its slots begins to copy (Table 11.5, Step 3). -/
def Dev.tokenBoundary (d : Dev) : Dev :=
  match d.nextTokens with
  | none => d
  | some (t, m) =>
    if d.past2 t ∧ ∀ c ∈ d.commit, t < c.2 then
      let d := ({ d with nextTokens := none } : Dev).loadTokens m
      if d.rd F.SPARE_STATUS_STATE = 1 then d.wr F.SPARE_STATUS_STATE 2 else d
    else d

/-! ## Grants (R90 to R92) -/

/-- The activation tokens of the new period: the level steward's next grant, and the one each bay has read. -/
def Dev.grantBoundary (d : Dev) : Dev :=
  let d := d.grantNext.foldl (fun d lg => d.wr (F.ACT_GRANT_GRANT lg.1) lg.2) { d with grantNext := [] }
  { d with shelves := d.shelves.map (fun kp => (kp.1, { kp.2 with acts := 0, bayActs := 0, grantBay := kp.2.grantBayNext })) }

/-! ## Urgency (R212, R213) -/

/-- The applied level of one link for the new period. -/
def Dev.urgencyLink (d : Dev) (link : Nat) : Dev :=
  let p := link / 4
  let k := link % 4
  let cur := d.appliedLevel link
  let rec' := if d.linkUp link then SMap.get 0 d.urgency link else 0
  let clamped := (d.rd (F.PORT_URGENCY_CLAMPED p)).testBit k
  let run := if cur = 3 then SMap.get 0 d.dwell link + 1 else 0
  let clampNow := !clamped && decide (atLeastOne d.loose.dwell < run)
  let lift := clamped && decide (rec' < 3)
  let level := if clampNow ∨ (clamped ∧ ¬ lift) then 2 else rec'
  let d := { d with dwell := SMap.put 0 d.dwell link (if clampNow then 0 else run), urgency := SMap.put 0 d.urgency link 0 }
  let levels := d.rd (F.PORT_URGENCY_LEVELS p)
  let d := if level = cur then d else d.wr (F.PORT_URGENCY_LEVELS p) (levels - cur * 4 ^ k + level * 4 ^ k)
  let clamps := d.rd (F.PORT_URGENCY_CLAMPED p)
  if clampNow then
    (((d.wr (F.PORT_URGENCY_CLAMPED p) (clamps + 2 ^ k)).bump (F.PORT_URGENCY_DWELLS p)).count 0x050D p).raise .urgencyDwell (Src.link p k)
  else if lift then d.wr (F.PORT_URGENCY_CLAMPED p) (clamps - 2 ^ k)
  else d

/-! ## Shelf-reading (R155) -/

/-- The lag of a bay's pass in lines: what a steady rate would have read, less what has been read. -/
def Dev.shelfLag (d : Dev) (bay : Nat) : Int :=
  let ns := SMap.get 1440 d.passMinutes bay * 60000000000
  (d.passLines * (d.time - SMap.get 0 d.passStart bay) / ns : Nat) - (d.rd (F.SHELF_READ_STATUS_LINES_DONE bay) : Int)

/-- BEHIND of a bay: set above a sixteenth of the pass, cleared below a thirty-second. -/
def Dev.lagBoundary (d : Dev) (bay : Nat) : Dev :=
  if ¬ d.flag F.INTEG_CTL_SHELF_READ_EN then d
  else if (d.passLines : Int) < 16 * d.shelfLag bay then d.wr (F.SHELF_READ_STATUS_BEHIND bay) 1
  else if 32 * d.shelfLag bay < (d.passLines : Int) then d.wr (F.SHELF_READ_STATUS_BEHIND bay) 0
  else d

/-! ## Calibration, and the boundary itself -/

/-- A full calibration pass scheduled by CAL_START begins (R94). -/
def Dev.calBoundary (d : Dev) (bay : Nat) : Dev :=
  if d.flag (F.SHAFT_CTL_CAL_START bay) then
    d.wrs [(F.SHAFT_CTL_CAL_START bay, 0), (F.SHAFT_STATUS_CAL_RUNNING bay, 1)]
  else d

/-- What every bay and link takes at a boundary. -/
def Dev.boundaryOrders (d : Dev) : Dev :=
  let d := d.loadLocal d.localReload
  let d := ({ d with localReload := [], spent := [] } : Dev).commitBoundary.looseBoundary.tokenBoundary.grantBoundary
  let d := (List.range 256).foldl Dev.urgencyLink d
  let d := (List.range 64).foldl (fun d b => (d.lagBoundary b).calBoundary b) d
  let d := match d.coll.samplingNext with
    | some b => ({ d with coll.samplingNext := none } : Dev).put F.COLL_STATUS_SAMPLING b
    | none => d
  d.repairBoundary

/-- Work that waits for nothing but its turn: repairs, jobs, catalogue commands, the evacuation, power requests, recalls, writes held
at the wing. -/
def State.pump (s : State) : State :=
  let s := s.dev.mergeWaits.foldl (fun s kv => s.pumpMerge kv.1) s
  let s := s.pumpRepair.pumpJobs.catRetry.pumpEvac.powerPump
  s.withDev fun d => (List.range 8).foldl Dev.orderRecall d

/-- A lending-period boundary (R69). The period that ends is judged first, then a step of the time base is applied (R70), and every
unit takes its orders. -/
def State.boundary (s : State) : State :=
  if s.dev.pow.closed then s
  else
    let start := s.dev.lastBoundary
    let s := s.withDev fun d => { d with time := nextMark d.period d.time d.lastBoundary }
    let s := s.closePeriod start
    let s := s.withDev fun d => (let d := d.applyStep; { d with lastBoundary := d.time }).boundaryOrders
    let s := (List.range 64).foldl State.writebackBoundary s
    (s.releaseAll fun h => match h with
      | .tokens _ => true
      | .shaft _ => true
      | _ => false).pump

/-- LENDING_BOUNDARY (R69). -/
def execLendingBoundary (s : State) : Host.Outcome State Fault Refusal := .next s.boundary

/-- What the block does when no command waits (log entry 1): the registrar takes the first fault event that waits; with none to take, a
nanosecond passes and the work that waits for nothing but its turn goes on. -/
def State.idle (s : State) : State :=
  if s.dev.raised ≠ [] ∧ ¬ s.dev.faultsHeld then s.takeRaised
  else (s.withDev fun d => { d with time := d.time + 1 }).pump

end Sys2Proof.Machine
end

