-- ==== Sys2Proof/Machine/Regs.lean ====
section
/-!
DEFINITION. Register accesses (R9 to R11, R476 to R478, R494, R495): what a read of each register returns, what a write of each does,
and which path may write which.
-/

namespace Sys2Proof.Machine

open Sys2Proof

/-! ## Access codes (R11, Table 0.7) -/

/-- The bits of a field in a written word. -/
def Field.of (f : Field) (v : Nat) : Nat := v / 2 ^ f.lo % 2 ^ f.width

/-- One field of a written word by its access code; the fields that a W1S bit or a lock governs have writes of their own. -/
def Dev.writeField (v : Nat) (d : Dev) (f : Field) : Dev :=
  match f.acc with
  | .rw => d.wr f (f.of v)
  | .wo => d.wr f (f.of v)
  | .w1c => if f.of v = 0 then d else d.wr f 0
  | _ => d

/-- The fields of a register written, but for some. -/
def Dev.writeBut (d : Dev) (r : RegName) (i j v : Nat) (but : List Field) : Dev :=
  ((r.fields i j).filter (fun f => !but.contains f)).foldl (Dev.writeField v) d

/-- The fields of a register written (R11). -/
def Dev.writePlain (d : Dev) (r : RegName) (i j v : Nat) : Dev := d.writeBut r i j v []

/-- A word of some fields with their values. -/
def wordOf (l : List (Field × Nat)) : Nat := l.foldl (fun n fv => n + fv.2 % 2 ^ fv.1.width * 2 ^ fv.1.lo) 0

/-! ## Absent registers (R2, R3) -/

/-- Whether an address lies in a port or patron that the HJ-1664S-W does not have. -/
def State.absentAt (s : State) (a : Nat) : Bool :=
  (decide (0x100000 ≤ a) && decide (a < 0x140000) && !s.portExists ((a - 0x100000) / 0x1000)) ||
    (decide (0x1000000 ≤ a) && !s.patronExists ((a - 0x1000000) / 0x100))

/-! ## Reads -/

/-- CMD_STATUS.STATE of a level (Table 4.20). -/
def Dev.levelState (d : Dev) (l : Nat) : Nat :=
  let asleep := fun n => decide ((d.shelf (shelfKey n l)).st = .selfRefresh)
  if (List.range 64).all asleep then 2
  else if (List.range 64).any asleep then 3
  else if (List.range 64).any (fun n => decide ((d.shelf (shelfKey n l)).st = .recovering)) then 1
  else 0

/-- TROLLEY_GROUP[g].STATUS (Table 10.11). -/
def Dev.groupStatus (d : Dev) (g : Nat) : Nat :=
  let partner := g ^^^ 1
  let away := !d.domainOn (Dom.trolleyGroup partner)
  wordOf [(F.TROLLEY_GROUP_STATUS_RUNNING g, ((List.range 4).filter (fun k => (d.work (4 * g + k)).isSome)).length),
    (F.TROLLEY_GROUP_STATUS_RECALLED g, (d.groupOf g).recalled.length),
    (F.TROLLEY_GROUP_STATUS_FETCHED g, (d.groupOf g).fetched.length),
    (F.TROLLEY_GROUP_STATUS_SERVING_PARTNER g, (away && d.domainOn (Dom.trolleyGroup g)).toNat),
    (F.TROLLEY_GROUP_STATUS_GATED g, (!d.domainOn (Dom.trolleyGroup g)).toNat),
    (F.TROLLEY_GROUP_STATUS_RECALLS g, d.rd (F.TROLLEY_GROUP_STATUS_RECALLS g))]

/-- TROLLEY[t].STATUS (Table 10.12). -/
def Dev.trolleyStatus (d : Dev) (t : Nat) : Nat :=
  match d.work t with
  | none => wordOf [(F.TROLLEY_STATUS_STATE t, if d.withdrawnTrolleys.contains t then 3 else 0)]
  | some w =>
    wordOf [(F.TROLLEY_STATUS_STATE t, if d.withdrawnTrolleys.contains t then 3 else if w.stop.isSome then 2 else 1),
      (F.TROLLEY_STATUS_PATRON t, w.desc.patron), (F.TROLLEY_STATUS_RING t, w.desc.ring),
      (F.TROLLEY_STATUS_OPCODE t, w.desc.opcode), (F.TROLLEY_STATUS_IN_FLIGHT t, w.inFlight)]

/-- REKEY_REC[s] (Table 10.13). -/
def Dev.rekeyWord (d : Dev) (k : Nat) : Nat :=
  match d.rekeys[k]? with
  | none => 0
  | some r => wordOf [(F.REKEY_REC_PATRON k, r.patron), (F.REKEY_REC_OPEN k, 1), (F.REKEY_REC_SEGMENT k, r.segment),
      (F.REKEY_REC_LINES_DONE k, popCount r.map 1024)]

/-- RESHELVE_STATUS (Table 11.13). -/
def Dev.reshelveWord (d : Dev) : Nat :=
  let j := d.job (d.rd F.RESHELVE_JOB_JOB)
  wordOf [(F.RESHELVE_STATUS_BUSY, d.rd F.RESHELVE_STATUS_BUSY), (F.RESHELVE_STATUS_RESULT, d.rd F.RESHELVE_STATUS_RESULT),
    (F.RESHELVE_STATUS_STATE, (j.map (·.st.code)).getD 0), (F.RESHELVE_STATUS_END, (j.map (·.ended)).getD 0),
    (F.RESHELVE_STATUS_ACTIVE, (d.jobs.filter (fun kv => kv.2.active)).length)]

/-- PERF_SEL of a counter (Table 19.2). -/
def Perf.sel (p : Perf) (c : Nat) : Nat :=
  wordOf [(F.PERF_SEL_EVENT c, p.event), (F.PERF_SEL_EN c, p.en.toNat), (F.PERF_SEL_PATRON_EN c, p.patronEn.toNat),
    (F.PERF_SEL_CHAIN c, p.chain.toNat), (F.PERF_SEL_LEAF c, p.leaf.toNat), (F.PERF_SEL_OVF c, p.ovf.toNat)]

/-- PERF_FILTER of a counter (Table 19.2). -/
def Perf.filterWord (p : Perf) (c : Nat) : Nat :=
  wordOf [(F.PERF_FILTER_UNIT c, p.unit), (F.PERF_FILTER_UNIT_MASK c, p.unitMask), (F.PERF_FILTER_PATRON c, p.patron)]

/-- Whether the foot serves the ledger (Table 11.15): from Step 2 of a cold start, but not in reset nor in CLOSED. -/
def Dev.ledgerServed (d : Dev) : Bool :=
  d.start.begun && decide (2 ≤ d.rd F.DEV_START_STATUS_PHASE) && !d.footInReset && !d.pow.closed

/-- What a read of a register returns. -/
def State.regValue (s : State) (r : RegName) (i j : Nat) : Nat :=
  let d := s.dev
  let w := d.regWord r i j
  match r with
  | .DEV_LAYOUT => wordOf [(F.DEV_LAYOUT_SHAFT_HASH, s.layout.shaftHash.toNat), (F.DEV_LAYOUT_LOCK, s.layout.locked.toNat)]
  | .DEV_KEEPER => wordOf [(F.DEV_KEEPER_PORT, s.layout.keeperPort), (F.DEV_KEEPER_VALID, s.layout.keeperValid.toNat),
      (F.DEV_KEEPER_LOCK, s.layout.locked.toNat)]
  | .CAT_RESERVE => wordOf [(F.CAT_RESERVE_SIZE, s.layout.reserve), (F.CAT_RESERVE_LOCK, s.layout.locked.toNat)]
  | .TB_TIME_LO => d.time % 2 ^ 32
  | .COLL_STATUS => w ||| wordOf [(F.COLL_STATUS_POSITION, s.fuses.position)]
  | .COLL_DIGEST => natOfBytes ((d.digest.drop (4 * i)).take 4)
  | .POWER_PINS => (w &&& (0xFFFFFFFF - 60)) ||| wordOf [(F.POWER_PINS_WAKE, d.wakeActive)]
  | .FAULT_QUEUE => ((d.flt.records[d.rd F.FAULT_QUEUE_SEL_POSITION]?).map (fun x => x.bits / 2 ^ (32 * i) % 2 ^ 32)).getD 0
  | .EVAC_STATUS => (w &&& 0xF) ||| wordOf [(F.EVAC_STATUS_EMPTY, (decide (d.allLeaves = 0)).toNat),
      (F.EVAC_STATUS_LEAVES, min d.allLeaves (2 ^ 24 - 1))]
  | .RESHELVE_STATUS => d.reshelveWord
  | .TROLLEY_GROUP_STATUS => d.groupStatus i
  | .TROLLEY_STATUS => d.trolleyStatus i
  | .TROLLEY_PROGRESS => ((d.work i).map (fun x => x.p % 2 ^ 32)).getD 0
  | .REKEY_REC => d.rekeyWord i
  | .PORT_BIND => wordOf [(F.PORT_BIND_PATRON i, d.rd (F.PORT_BIND_PATRON i)),
      (F.PORT_BIND_LINKS i, SMap.get 0 d.binding (i * 4096 + d.rd (F.PORT_BIND_PATRON i)))]
  | .LEDGER_STATUS => (w &&& (0xFFFFFFFF - 3)) |||
      wordOf [(F.LEDGER_STATUS_AVAILABLE, d.ledgerServed.toNat), (F.LEDGER_STATUS_INHIBITED, d.ledgerHeld.toNat)]
  | .PERF_SEL => (d.perfOf i).sel i
  | .PERF_FILTER => (d.perfOf i).filterWord i
  | .PERF_VALUE_LO => (d.perfOf i).value % 2 ^ 32
  | .PERF_VALUE_HI => (d.perfOf i).capHi
  | .ROW_ACT_QUERY => wordOf [(F.ROW_ACT_QUERY_PATRON, d.rd F.ROW_ACT_QUERY_PATRON),
      (F.ROW_ACT_QUERY_COUNT, min 65535 (SMap.get 0 d.triggers (d.rd F.ROW_ACT_QUERY_PATRON)))]
  | .CMD_STATUS => (w &&& 0xFFFFFF) ||| wordOf [(F.CMD_STATUS_STATE i, d.levelState i)]
  | .SEAL_DATA => 0
  | .SEAL_CMD => 0
  | .FAULT_CLEAR => 0
  | .INJ_UNLOCK => d.rd (F.INJ_UNLOCK_NONCE i)
  | _ => w

/-- What a read of a register changes: captures (R65, R463, R470), counts cleared (R11), a fresh NONCE (R357). -/
def State.regRead (s : State) (r : RegName) (i j : Nat) : State :=
  match r with
  | .TB_TIME_LO => s.withDev fun d => d.wr F.TB_TIME_HI_TIME (d.time / 2 ^ 32)
  | .PERF_VALUE_LO => s.withDev fun d => d.setPerf i fun p => { p with capHi := p.value / 2 ^ 32, loStage := p.value % 2 ^ 32 }
  | .PATRON_CIRC => if j = 0 then s.circCapture i else s
  | .TF_COUNT => s.withDev fun d => d.wr (F.TF_COUNT_COUNT i j) 0
  | .INJ_UNLOCK => s.withDev fun d => d.injectNonce i
  | _ => s

/-- A read of an address: its word, and the state it leaves. An address without a register, or of an absent unit, reads 0 (R477, R2,
R3). TF_COUNT is cleared after it is read; CIRC and NONCE are taken before. -/
def State.readAddr (s : State) (a : Word) : Nat × State :=
  match regAt a with
  | none => (0, s)
  | some (r, i, j) =>
    if s.absentAt a.toNat then (0, s)
    else
      let t := s.regRead r i j
      ((if r = .TF_COUNT then s else t).regValue r i j, t)

/-! ## Writes of one register -/

/-- Whether a rising or falling edge of an enable bit is written. -/
def rises (d : Dev) (f : Field) (v : Nat) : Bool := decide (f.of v = 1) && !d.flag f
def falls (d : Dev) (f : Field) (v : Nat) : Bool := decide (f.of v = 0) && d.flag f

/-- REACTION of a fault type as a write may leave it (R442). -/
def reactionMay (t new : Nat) : Bool :=
  let is := fun (l : List FaultType) => l.any (fun x => x.code = t)
  !is [.paceCollapse, .timebasePllLost, .brownOut, .safeRequest, .safeNChatter, .safeOrdered, .registrarLost, .thermalShutdown] &&
    !(is [.rrTagLost, .handshakeStall] && decide (new < 2)) && !(is [.rowActOffender, .evacuationRequired] && decide (new = 3))

/-- The checks of DEV_CTL.OPEN (Table 20.8). -/
def State.openChecks (s : State) : List (Bool × Nat) :=
  [(decide (s.dev.rd F.DEV_STATUS_STATE ≠ 1), 0x01),
   (!s.layout.keeperValid || !s.dev.flag (F.PORT_CTL_ENABLE s.layout.keeperPort), 0x02)]

/-- DEV_CTL.OPEN written 1 (R494, Table 20.8): an accepted OPEN locks the layout and takes patron 0 from every port but the keeper's
(R165). -/
def State.openDevice (s : State) : State :=
  if s.dev.flag F.DEV_CTL_OPEN then s
  else
    let (ok, d) := s.dev.checked .opened 0 [] F.DEV_CTL_OPEN s.openChecks
    if ¬ ok then { s with dev := d }
    else
      let k := s.layout.keeperPort
      { s with layout := { s.layout with locked := true },
               dev := { d.wr F.DEV_STATUS_STATE 2 with
                          binding := d.binding.filter (fun kv => kv.1 % 4096 ≠ 0 || kv.1 / 4096 = k) } }

/-- SPARE_CTL (Table 11.14). -/
def State.writeSpare (s : State) (v : Nat) : State :=
  let level := F.SPARE_CTL_LEVEL.of v
  match F.SPARE_CTL_GO.of v, F.SPARE_CTL_OP.of v with
  | 1, 0 => s.spareOrder level
  | 1, 1 => s.withDev fun d => d.levelRetire level
  | 1, 2 => s.withDev fun d => (d.wr F.SPARE_CTL_LEVEL level).spareAbandon
  | _, op => s.withDev fun d => d.spareCtl level op

/-- CAT_CMD (Table 7.16): no effect while BUSY. -/
def State.writeCat (s : State) (v : Nat) : State :=
  let f := fun (x : Field) => x.of v
  if s.dev.flag F.CAT_STATUS_BUSY then s
  else if f F.CAT_CMD_GO = 1 then
    s.catGo (f F.CAT_CMD_OP) (f F.CAT_CMD_PATRON) (f F.CAT_CMD_LEVEL) (f F.CAT_CMD_FENCE_ALL = 1)
  else s.withDev fun d => d.writePlain .CAT_CMD 0 0 v

/-- RESHELVE_CMD (Table 11.13): no effect while BUSY. -/
def State.writeReshelve (s : State) (v : Nat) : State :=
  if s.dev.flag F.RESHELVE_STATUS_BUSY then s
  else
    let s := s.withDev fun d => d.writePlain .RESHELVE_CMD 0 0 v
    if F.RESHELVE_CMD_GO.of v = 0 then s
    else
      match F.RESHELVE_CMD_OP.of v with
      | 0 => s.reshelveStart (F.RESHELVE_CMD_PATRON.of v)
      | 1 => s.reshelveCancel
      | 2 => s.withDev Dev.reshelveQuery
      | _ => s.withDev Dev.reshelveRelease

/-- SEAL_CMD (Table 7.26). -/
def State.writeSeal (s : State) (v : Nat) : State :=
  let p := F.SEAL_CMD_PATRON.of v
  let k := F.SEAL_CMD_KEK.of v
  if F.SEAL_CMD_GO.of v = 0 then s
  else s.withDev fun d =>
    match F.SEAL_CMD_OP.of v with
    | 0 => d.loadKek k
    | 1 => d.loadKey (s.patronExists p) p k
    | 2 => d.loadNext (s.patronExists p) p k
    | 3 => d.dropNext (s.patronExists p) p
    | 4 => d.clearKek k
    | _ => d.clearSealData

/-- PERF_SEL and PERF_FILTER (Table 19.2). -/
def Dev.writePerf (d : Dev) (c v : Nat) (sel : Bool) : Dev :=
  d.setPerf c fun p =>
    if sel then
      { p with event := (F.PERF_SEL_EVENT c).of v, en := v.testBit (F.PERF_SEL_EN c).lo, patronEn := v.testBit (F.PERF_SEL_PATRON_EN c).lo,
               chain := v.testBit (F.PERF_SEL_CHAIN c).lo, leaf := v.testBit (F.PERF_SEL_LEAF c).lo,
               ovf := p.ovf && !v.testBit (F.PERF_SEL_OVF c).lo }
    else
      { p with unit := (F.PERF_FILTER_UNIT c).of v, unitMask := (F.PERF_FILTER_UNIT_MASK c).of v, patron := (F.PERF_FILTER_PATRON c).of v }

/-- PORT[p].CTL (Table 12.8): MODE and LOOPBACK are fixed while ENABLE is 1; RETRAIN acts after the other fields. -/
def State.writePort (s : State) (p v : Nat) : State :=
  let en := F.PORT_CTL_ENABLE p
  let loop := F.PORT_CTL_LOOPBACK p
  let on := s.dev.flag en
  let s := s.withDev fun d => d.writeBut .PORT_CTL p 0 v (if on then [en, F.PORT_CTL_MODE p, loop] else [en, loop])
  let s := if on ∨ loop.of v = s.dev.rd loop then s else s.withDev fun d => d.loopback p (loop.of v = 1)
  let s := if rises s.dev en v then s.portEnable p else if falls s.dev en v then s.portDisable p else s
  if (F.PORT_CTL_RETRAIN p).of v = 1 then s.portRetrain p else s

/-- PATRON[p].CTL (Table 7.8): SEALED is fixed while ENABLE or DISABLING is 1 and 0 for patron 0, TEST while ENABLE is 1 (R164,
R190). -/
def State.writePatron (s : State) (p v : Nat) : State :=
  let d := s.dev
  let en := F.PATRON_CTL_ENABLE p
  let sealedFixed := d.flag en || d.flag (F.PATRON_STATUS_DISABLING p) || p = 0
  let but := [en] ++ (if sealedFixed then [F.PATRON_CTL_SEALED p] else []) ++ (if d.flag en then [F.PATRON_CTL_TEST p] else [])
  let firm := F.PATRON_CTL_FIRM p
  let s := s.withDev fun d =>
    let e := d.writeBut .PATRON_CTL p 0 v but
    if d.rd firm ≠ e.rd firm ∧ d.flag (F.PATRON_STATUS_ACTIVE p) then { e with recheck := true } else e
  let s := s.injectGuard
  if rises s.dev en v then s.patronEnable p else if falls s.dev en v then s.withDev fun d => d.patronDisable p else s

/-- RING CTL (Table 9.2): SIZE is fixed unless DISABLED (R234); INT_ALL is reserved in RING[0–3]. -/
def Dev.writeRing (d : Dev) (p i v : Nat) : Dev :=
  let en := F.RING_CTL_ENABLE p i
  let but := [en] ++ (if d.ringState p i ≠ ringDisabled then [F.RING_CTL_SIZE p i] else []) ++
    (if i < 4 then [F.RING_CTL_INT_ALL p i] else [])
  let d := d.writeBut .RING_CTL p i v but
  if rises d en v then d.ringEnable p i else if falls d en v then d.ringDisable p i else d

/-- HOUSE_RING CTL (R250, R234). -/
def State.writeHouse (s : State) (r v : Nat) : State :=
  let en := F.HOUSE_RING_CTL_ENABLE r
  let but := [en] ++ (if s.dev.rd (F.HOUSE_RING_STATUS_STATE r) ≠ ringDisabled then [F.HOUSE_RING_CTL_SIZE r] else [])
  let s := s.withDev fun d => d.writeBut .HOUSE_RING_CTL r 0 v but
  if rises s.dev en v then s.houseEnable r else if falls s.dev en v then s.withDev fun d => d.houseDisable r else s

/-- COLL_CTL (Table 14.9). -/
def State.writeColl (s : State) (v : Nat) : State :=
  let found := F.COLL_CTL_FOUND.of v
  if F.COLL_CTL_JOIN.of v = 1 then
    if s.dev.flag F.COLL_CTL_JOIN then s.withDev fun d => d.wr F.COLL_CTL_FOUND found else s.collJoin (found = 1)
  else (s.withDev fun d => d.wr F.COLL_CTL_FOUND found).collLeave

/-- ALLOW_CTL (Table 8.8). -/
def Dev.writeAllow (d : Dev) (v : Nat) : Dev :=
  let d := d.writePlain .ALLOW_CTL 0 0 v
  if F.ALLOW_CTL_COMMIT.of v = 1 then d.allowCommit else d

/-- INJ_CTL (R357): its other fields are fixed while ENABLE is 1. -/
def State.writeInject (s : State) (p v : Nat) : State :=
  let en := F.INJ_CTL_ENABLE p
  let s := if s.dev.flag en then s else s.withDev fun d => d.writeBut .INJ_CTL p 0 v [en]
  if rises s.dev en v then s.injectEnable p else if en.of v = 0 then s.withDev fun d => d.injectDisable p else s

/-- TEST_SLICE (Table 18.9): STOP before START. -/
def State.writeSlice (s : State) (v : Nat) : State :=
  let s := if F.TEST_SLICE_STOP.of v = 1 then
      (let (x, d) := s.dev.fresh
       { s with dev := d.sliceStop 3 (x.toNat % 2 ^ 16) })
    else s
  if F.TEST_SLICE_START.of v = 1 then s.sliceStart (F.TEST_SLICE_DOMAIN.of v) else s.withDev fun d => d.writePlain .TEST_SLICE 0 0 v

/-- The layout registers, until they are locked (R36, R173, R482). -/
def State.writeLayout (s : State) (r : RegName) (v : Nat) : State :=
  if s.layout.locked then s
  else
    match r with
    | .DEV_LAYOUT => { s with layout := { s.layout with shaftHash := v.testBit 0 } }
    | .DEV_KEEPER => { s with layout := { s.layout with keeperPort := F.DEV_KEEPER_PORT.of v, keeperValid := v.testBit 6 } }
    | .CAT_RESERVE => { s with layout := { s.layout with reserve := F.CAT_RESERVE_SIZE.of v } }
    | _ => s

/-- Whether every ring of a patron is DISABLED (Table 9.3). -/
def Dev.ringsDisabled (d : Dev) (p : Nat) : Bool := (List.range 6).all (fun i => d.ringState p i = ringDisabled)

/-- Whether a patron's context is in use: enabled, or between its disable and its end. -/
def Dev.patronBusy (d : Dev) (p : Nat) : Bool := d.flag (F.PATRON_CTL_ENABLE p) || d.flag (F.PATRON_STATUS_DISABLING p)

/-- What a write of a register does. `mbox` performs the request of the mailbox. -/
def State.writeReg (s : State) (mbox : State → State) (r : RegName) (i j v : Nat) : State :=
  let plain := s.withDev fun d => d.writePlain r i j v
  let bit := fun (f : Field) => f.of v = 1
  let keepIf := fun (c : Bool) => if c then s else plain
  match r with
  | .DEV_CTL => if bit F.DEV_CTL_OPEN then s.openDevice else s
  | .DEV_LAYOUT => s.writeLayout r v
  | .DEV_KEEPER => s.writeLayout r v
  | .CAT_RESERVE => s.writeLayout r v
  | .DEV_REG => if bit F.DEV_REG_SWAP then s.withDev Dev.regSwap else s
  | .DEV_START_CFG => if bit F.DEV_START_CFG_SAVE then plain.startSave else plain
  | .SPARE_CTL => s.writeSpare v
  | .EVAC_CTL =>
    s.withDev fun d =>
      let d := if bit F.EVAC_CTL_START then d.wr F.EVAC_STATUS_EVACUATING 1 else d
      if bit F.EVAC_CTL_STOP then d.wr F.EVAC_STATUS_EVACUATING 0 else d
  | .DEV_MBOX_CTL =>
    if bit F.DEV_MBOX_CTL_GO ∧ ¬ plain.dev.flag F.DEV_MBOX_CTL_DONE then mbox plain else plain
  | .POWER_CTL => if bit F.POWER_CTL_GO then s.powerGo (F.POWER_CTL_OP.of v) (F.POWER_CTL_DOMAIN.of v) else plain
  | .POWER_WAKE_CFG => plain.wakeResample s.dev
  | .CLK_REF_CTL =>
    if plain.dev.rd F.CLK_REF_CTL_SELECT = s.dev.rd F.CLK_REF_CTL_SELECT then s else plain.refSelect
  | .CLK_HP3_CTL => s.hp3Freq (F.CLK_HP3_CTL_FREQ.of v)
  | .THERM_LEVEL => if bit (F.THERM_LEVEL_CLEAR i) then s.withDev fun d => d.thermClear i else s
  | .FAULT_STATUS => if bit F.FAULT_STATUS_OVERFLOW then s.withDev Dev.overflowClear else s
  | .FAULT_CLEAR => s.withDev fun d => d.faultClear v
  | .SAFE_CTL =>
    let s := if bit F.SAFE_CTL_ENTER then s.safeOrder else s
    if bit F.SAFE_CTL_RESUME then s.safeResume else s
  | .FAULT_TYPE_CFG =>
    s.withDev fun d => d.writeBut r i j v
      (if reactionMay i ((F.FAULT_TYPE_CFG_REACTION i).of v) then [] else [F.FAULT_TYPE_CFG_REACTION i])
  | .TEST_SLICE => s.writeSlice v
  | .INVENTORY_CTL => if bit F.INVENTORY_CTL_START then s.inventoryStart else s
  | .PERF_SEL => s.withDev fun d => d.writePerf i v true
  | .PERF_FILTER => s.withDev fun d => d.writePerf i v false
  | .PERF_VALUE_LO => s.withDev fun d => d.perfWriteLo i v
  | .PERF_VALUE_HI => s.withDev fun d => d.perfWriteHi i v
  | .PERF_CTL => if bit F.PERF_CTL_CLEAR then plain.withDev Dev.perfClear else plain
  | .TRACE_CTL => if rises s.dev F.TRACE_CTL_EN v then plain.withDev Dev.traceLoad else plain
  | .LEDGER_RD_CTL =>
    if bit F.LEDGER_RD_CTL_GO then plain.ledgerRead else plain
  | .PORT_CTL => s.writePort i v
  | .PORT_BIND => s.bindWrite i v
  | .INJ_CTL => s.writeInject i v
  | .INJ_UNLOCK => s.withDev fun d => d.injectKey i (v / 2 ^ 16 % 2 ^ 16)
  | .SHAFT_CTL => if bit (F.SHAFT_CTL_CAL_START i) then plain.withDev fun d => d.wr (F.SHAFT_CTL_CAL_START i) 1 else plain
  | .LEVEL_RESET => if bit (F.LEVEL_RESET_REQ i) then s.withDev fun d => d.wr (F.LEVEL_RESET_REQ i) 1 else s
  | .FOOT_TAP_GATE => if plain.dev.flag F.FOOT_TAP_GATE_ALLOW then plain else plain.endUnlock
  | .ALLOW_CTL => s.withDev fun d => d.writeAllow v
  | .ALLOW_BG => plain.withDev Dev.looseWritten
  | .ALLOW_URGENCY => plain.withDev Dev.looseWritten
  | .MISS_CFG => plain.withDev Dev.looseWritten
  | .CAT_CMD => s.writeCat v
  | .RESHELVE_CMD => s.writeReshelve v
  | .HOUSE_RING_BASE_LO => keepIf (s.dev.rd (F.HOUSE_RING_STATUS_STATE i) ≠ ringDisabled)
  | .HOUSE_RING_BASE_HI => keepIf (s.dev.rd (F.HOUSE_RING_STATUS_STATE i) ≠ ringDisabled)
  | .HOUSE_RING_CTL => s.writeHouse i v
  | .HOUSE_LINK => keepIf ((List.range 4).any (fun k => s.dev.rd (F.HOUSE_RING_STATUS_STATE k) ≠ ringDisabled))
  | .SEAL_CMD => s.writeSeal v
  | .SEAL_CTL => if bit F.SEAL_CTL_KEK_LOCK then s.withDev fun d => d.wr F.SEAL_CTL_KEK_LOCK 1 else s
  | .COLL_CTL => s.writeColl v
  | .COLL_DIM => keepIf (s.dev.flag F.COLL_CTL_JOIN)
  | .COLL_CFG => keepIf (s.dev.flag F.COLL_CTL_JOIN)
  | .COLL_CAT =>
    s.withDev fun d => d.writeBut r i j v (if d.rd F.COLL_STATUS_STATE = 3 then [] else [F.COLL_CAT_PROPAGATE])
  | .RR_FLUSH_CTL => if bit F.RR_FLUSH_CTL_START then s.flushStart v else plain
  | .PATRON_CTL => s.writePatron i v
  | .PATRON_GROUP => keepIf (s.dev.patronBusy i)
  | .PATRON_ROOT => keepIf (s.dev.patronBusy i)
  | .PATRON_HOST_LINK => keepIf (s.dev.flag (F.PATRON_CTL_ENABLE i))
  | .RING_BASE_LO => keepIf (s.dev.ringState i j ≠ ringDisabled)
  | .RING_BASE_HI => keepIf (s.dev.ringState i j ≠ ringDisabled)
  | .RING_CTL => s.withDev fun d => d.writeRing i j v
  | .BELL_ADDR_LO => keepIf (!s.dev.ringsDisabled i)
  | .BELL_ADDR_HI => keepIf (!s.dev.ringsDisabled i)
  | .INT_ADDR_LO => keepIf (!s.dev.ringsDisabled i)
  | .INT_ADDR_HI => keepIf (!s.dev.ringsDisabled i)
  | .INT_DATA => keepIf (!s.dev.ringsDisabled i)
  | _ => plain

/-- What a write to an absent unit still does: an ENABLE is checked, and refused (R2, R3). -/
def State.writeAbsent (s : State) (r : RegName) (i v : Nat) : State :=
  match r with
  | .PORT_CTL =>
    if (F.PORT_CTL_ENABLE i).of v = 1 then
      s.withDev fun d => d.reason .port i (firstCode (d.commonChecks .port ++ s.portChecks i)) []
    else s
  | .PATRON_CTL => if (F.PATRON_CTL_ENABLE i).of v = 1 then s.patronEnable i else s
  | _ => s

/-- A write to an address. An address without a register ignores it (R477). -/
def State.writeAddr (s : State) (mbox : State → State) (a : Word) (v : Nat) : State :=
  match regAt a with
  | none => s
  | some (r, i, j) => if s.absentAt a.toNat then s.writeAbsent r i v else s.writeReg mbox r i j v

/-! ## Which path may write (R478) -/

/-- Whether a write is accepted only from Flaud on the keeper port. -/
def State.reserved (s : State) (a : Word) : Bool :=
  match regAt a with
  | some (.SEAL_DATA, _, _) => true
  | some (.SEAL_CMD, _, _) => true
  | some (.SEAL_STATUS, _, _) => true
  | some (.SEAL_CTL, _, _) => true
  | some (.INJ_CTL, _, _) => true
  | some (.INJ_SEED, _, _) => true
  | some (.INJ_UNLOCK, _, _) => true
  | some (.FOOT_TAP_GATE, _, _) => s.dev.flag F.DEV_CTL_OPEN
  | _ => false

/-- DEV_OPEN (R494, Table 20.8). -/
def execDevOpen (s : State) : Host.Outcome State Fault Refusal := .next s.openDevice

/-- TF_COUNT_READ (R11): the read returns the count and clears it. -/
def execTfCountRead (patron : Fin 4096) (i : Fin 8) (s : State) : Host.Outcome State Fault Refusal :=
  .next (if ¬ s.patronExists patron then s
    else (s.withDev fun d => { d with mgmt.word := d.rd (F.TF_COUNT_COUNT patron i) }).regRead .TF_COUNT patron i)

end Sys2Proof.Machine
end

