-- ==== Sys2Proof/Machine/Mgmt.lean ====
section
/-!
DEFINITION. Management (R476 to R491): Flaud, the mailbox, the I3C target, test access, and the end of a registrar takeover.
-/

namespace Sys2Proof.Machine

open Sys2Proof

/-! ## A write with a path's rights (R478) -/

/-- How a write ended: the reason code of a refused enable, 0 for none; no register; or reserved for another path. -/
inductive WriteEnd where
  | done (refused : Nat)
  | noRegister
  | denied
  deriving DecidableEq, Repr

/-- A write with the rights of Flaud on the keeper port, or without. Whether a check refused it is read off DEV_REASON, which the
write is given outside its width beforehand. -/
def State.writeWith (s : State) (flaud : Bool) (mbox : State → State) (a : Word) (v : Nat) : WriteEnd × State :=
  if (regAt a).isNone then (.noRegister, s)
  else if ¬ flaud ∧ s.reserved a then (.denied, s.withDev fun d => d.bump F.FOOT_I3C_STATUS_DENIED)
  else
    let f := F.DEV_REASON_CODE
    let old := s.dev.rd f
    let set := fun (d : Dev) (n : Nat) => { d with fields := SMap.put f.reset d.fields f.key n }
    let t := (s.withDev fun d => set d 256).writeAddr mbox a v
    if t.dev.rd f = 256 then (.done 0, t.withDev fun d => set d old) else (.done (t.dev.rd f), t)

/-! ## Flaud (R483, R484, Table 20.3) -/

/-- A Flaud operation on its way: the state, its STATUS, REASON and DONE, and the DATA places that hold a result. -/
structure FlaudRun where
  s      : State
  status : Nat := 0
  reason : Nat := 0
  done   : Nat := 0
  out    : SMap Nat := []

/-- One word read into a DATA place; no register stops the operation. -/
def FlaudRun.read (x : FlaudRun) (a : Word) (place : Nat) : FlaudRun :=
  if x.status ≠ 0 then x
  else if (regAt a).isNone then { x with status := 2 }
  else
    let r := x.s.readAddr a
    { x with s := r.2, done := x.done + 1, out := SMap.insert place r.1 x.out }

/-- One word written and read back; a refused enable counts and stops the operation. -/
def FlaudRun.write (x : FlaudRun) (flaud : Bool) (mbox : State → State) (a : Word) (v place : Nat) : FlaudRun :=
  if x.status ≠ 0 then x
  else
    match x.s.writeWith flaud mbox a v with
    | (.noRegister, t) => { x with s := t, status := 2 }
    | (.denied, t) => { x with s := t, status := 4 }
    | (.done c, t) =>
      let r := t.readAddr a
      { s := r.2, status := if c = 0 then 0 else 1, reason := c, done := x.done + 1, out := SMap.insert place r.1 x.out }

/-- MODIFY of one register: the old value into place 0, the new one into place 1. -/
def FlaudRun.modify (x : FlaudRun) (flaud : Bool) (mbox : State → State) (a : Word) (value mask : Nat) : FlaudRun :=
  if (regAt a).isNone then { x with status := 2 }
  else
    let r := x.s.readAddr a
    match r.2.writeWith flaud mbox a ((r.1 &&& (2 ^ 32 - 1 - mask)) ||| (value &&& mask)) with
    | (.done c, t) =>
      let new := match regAt a with
        | some (n, i, j) => if t.absentAt a.toNat then 0 else t.regValue n i j
        | none => 0
      { s := t, status := if c = 0 then 0 else 1, reason := c, done := 1, out := [(0, r.1), (1, new)] }
    | (.denied, t) => { x with s := t, status := 4, out := [(0, r.1)] }
    | (.noRegister, t) => { x with s := t, status := 2 }

/-- Whether a request body is malformed (R483): nothing of it is performed. -/
def flaudBad (b : List Nat) : Bool :=
  let at_ := fun (k : Nat) => b.getD k 0
  let n := at_ 1
  (match at_ 0 with
   | 1 => decide (n < 1 ∨ 12 < n)
   | 2 => decide (n < 1 ∨ 12 < n)
   | 3 => n ≠ 1
   | 4 => decide (12 < n)
   | _ => true) ||
  at_ 8 % 4 ≠ 0 || [4, 5, 6, 7, 12, 13, 14, 15].any (fun k => at_ k ≠ 0)

/-- A request body performed. -/
def State.flaudRun (s : State) (flaud : Bool) (mbox : State → State) (b : List Nat) : FlaudRun :=
  let n := b.getD 1 0
  let addr := natOfBytes ((b.drop 8).take 4)
  let a := fun (k : Nat) => BitVec.ofNat 32 (addr + 4 * k)
  let word := fun (k : Nat) => natOfBytes ((b.drop (16 + 4 * k)).take 4)
  let x : FlaudRun := { s := s }
  if flaudBad b then { x with status := 3 }
  else
    match b.getD 0 0 with
    | 1 => (List.range n).foldl (fun x k => x.read (a k) k) x
    | 2 => (List.range n).foldl (fun x k => x.write flaud mbox (a k) (word k) k) x
    | 3 => x.modify flaud mbox (a 0) (word 0) (word 1)
    | _ => { x with done := n, out := (List.range 12).map (fun k => (k, word k)) }

/-- The reply body and the state after a request (Table 20.3). A DATA place without a result holds a free value: the spec states none. -/
def State.flaudPerform (s : State) (flaud : Bool) (mbox : State → State) (body : LineData) (tag : Nat) : LineData × State :=
  let b := bytesOfNat 64 body.toNat
  let x := s.flaudRun flaud mbox b
  let (v, d) := x.s.dev.fresh
  let (w, d) := d.fresh
  let open_ := v.toNat + 2 ^ 256 * w.toNat
  let out := (List.range 12).flatMap (fun k => bytesOfNat 4 (SMap.get (open_ / 2 ^ (32 * k) % 2 ^ 32) x.out k))
  let r := [(b.getD 0 0 + 0x80) % 256, b.getD 1 0, b.getD 2 0, b.getD 3 0, x.status, x.reason] ++ bytesOfNat 2 tag ++
    (b.drop 8).take 4 ++ [x.done, 0, 0, 0] ++ out
  (BitVec.ofNat 512 (natOfBytes r), { x.s with dev := d })

/-! ## The mailbox (R485) -/

/-- The request of DEV_MBOX_REQ performed with I3C's rights; a GO that it writes has no effect. -/
def State.mailbox (s : State) : State :=
  let body := BitVec.ofNat 512 ((List.range 16).foldr (fun i n => s.dev.rd (F.DEV_MBOX_REQ_BODY i) + 2 ^ 32 * n) 0)
  let (r, t) := s.flaudPerform false id body 0
  t.withDev fun d =>
    ((List.range 16).foldl (fun d i => d.wr (F.DEV_MBOX_RSP_BODY i) (r.toNat / 2 ^ (32 * i))) d).wr F.DEV_MBOX_CTL_DONE 1

/-- DEV_MBOX_GO (R485): no effect until DONE has been cleared. -/
def execDevMboxGo (s : State) : Host.Outcome State Fault Refusal :=
  .next (if s.dev.flag F.DEV_MBOX_CTL_DONE then s else s.mailbox)

/-! ## Flaud over a link (R351, R482) -/

/-- Whether Flaud on a link has the keeper's rights (R478). -/
def State.keeperLink (s : State) (link : Nat) : Bool := s.layout.keeperValid && s.layout.keeperPort = link / 4

/-- A Flaud request performed and its reply given to house ring 3, or to its link (R351). -/
def State.flaudGo (s : State) (link : Nat) (m : Msg) : State :=
  let (r, t) := s.flaudPerform (s.keeperLink link) State.mailbox m.data m.tag
  t.withDev fun d => d.houseRecord 3 r link

/-- A FLAUD_REQ (R166, R348, R351); a takeover holds it (R490). -/
def State.flaudReq (s : State) (link : Nat) (m : Msg) : State :=
  let p := m.patron
  let rsp := fun (st : Nat) => s.withDev fun d => d.reply link { op := 0x13, status := st, tag := m.tag }
  if ¬ s.dev.linkUp link then s
  else if s.dev.peerPort (link / 4) then s.withDev fun d => d.badMessage link 0
  else if ¬ s.bound link p then
    (rsp 1).withDev fun d => ((d.wr (F.PATRON_STATUS_LAST_TF p) 1).count 0x0407 (p % 8 / 2) (some p)).raise .patronNotBound
      (Src.link (link / 4) (link % 4))
  else if ¬ s.dev.flag (F.PATRON_STATUS_ACTIVE p) then
    (rsp 2).withDev fun d => ((d.bump (F.TF_COUNT_COUNT p 0)).wr (F.PATRON_STATUS_LAST_TF p) 2).count 0x0407 (p % 8 / 2) (some p)
  else if m.reserved || m.addr ≠ 0 || m.arg ≠ 0 then rsp 0x12
  else if p ≠ 0 then rsp 0x13
  else if s.dev.flt.takeover then s.withDev fun d => { d with mgmt.heldFlaud := d.mgmt.heldFlaud ++ [(link, m)] }
  else s.flaudGo link m

/-- A body with its operation. -/
def withOp (body : LineData) (op : Nat) : LineData := (body >>> 8 <<< 8) ||| BitVec.ofNat 512 op

/-- FLAUD_READ (R484). -/
def execFlaudRead (link : Fin 256) (tag : BitVec 12) (body : LineData) (s : State) : Host.Outcome State Fault Refusal :=
  .next (s.flaudReq link { op := 0x07, tag := tag.toNat, data := withOp body 1 })

/-- FLAUD_WRITE (R484). -/
def execFlaudWrite (link : Fin 256) (tag : BitVec 12) (body : LineData) (s : State) : Host.Outcome State Fault Refusal :=
  .next (s.flaudReq link { op := 0x07, tag := tag.toNat, data := withOp body 2 })

/-- FLAUD_MODIFY (R484). -/
def execFlaudModify (link : Fin 256) (tag : BitVec 12) (body : LineData) (s : State) : Host.Outcome State Fault Refusal :=
  .next (s.flaudReq link { op := 0x07, tag := tag.toNat, data := withOp body 3 })

/-- FLAUD_ECHO (R484). -/
def execFlaudEcho (link : Fin 256) (tag : BitVec 12) (body : LineData) (s : State) : Host.Outcome State Fault Refusal :=
  .next (s.flaudReq link { op := 0x07, tag := tag.toNat, data := withOp body 4 })

/-! ## The I3C target (R479 to R481) -/

/-- Whether the foot's I3C target is there at all: its domain is ON, the foot is not in reset, the device not in CLOSED (R427). -/
def Dev.i3cThere (d : Dev) : Bool := d.domainOn Dom.i3c && !d.footInReset && !d.pow.closed

/-- Whether the target takes a private transfer: it has its address, and no takeover holds accesses (R480, R490). -/
def Dev.i3cTakes (d : Dev) : Bool := d.i3cThere && d.flag F.FOOT_I3C_STATUS_ADDR_VALID && !d.flt.takeover

/-- Whether the target answers for a register: all of them in service; before Step 4 of a start, and once no registrar is left, the
few that the foot itself serves (R503, R491). -/
def Dev.i3cServes (d : Dev) (a : Word) : Bool :=
  let foot := (decide (0x480000 ≤ a.toNat) && decide (a.toNat < 0x490000)) || a.toNat = F.LAST_WAKE_CAUSE.addr
  if d.flt.registrarLost ∨ (d.rd F.DEV_STATUS_STATE = 3 ∧ d.start.failed.length = 2) then foot
  else if d.rd F.DEV_STATUS_STATE = 0 ∧ d.rd F.DEV_START_STATUS_PHASE < 4 then
    foot || a.toNat = F.DEV_ID_PART.addr || a.toNat = F.DEV_STATUS_STATE.addr || a.toNat = F.DEV_START_STATUS_QUICK.addr
  else true

/-- What the target sends back, and that it acknowledged. -/
def Dev.i3cOut (d : Dev) (bytes : List Nat) : Dev := { d with mgmt.out := bytes, mgmt.nack := false }

/-- A transfer that the target does not acknowledge. -/
def Dev.i3cNack (d : Dev) : Dev := { d with mgmt.out := [], mgmt.nack := true }

/-- A word written over I3C. -/
def State.i3cWord (s : State) (a : Word) (v : Nat) : State :=
  if s.dev.i3cServes a then (s.writeWith false State.mailbox a v).2 else s

/-- I3C_PRIVATE_WRITE (R480). -/
def execI3cPrivateWrite (bytes : List (BitVec 8)) (s : State) : Host.Outcome State Fault Refusal :=
  .next <|
    if ¬ s.dev.i3cTakes then s.withDev Dev.i3cNack
    else
      let b := bytes.map (·.toNat)
      let addr := natOfBytes (b.take 4)
      let n := (b.length - 4) / 4
      let s := s.withDev fun d =>
        let d := d.i3cOut []
        if b.length % 4 ≠ 0 ∨ (4 ≤ b.length ∧ addr % 4 ≠ 0) then d.wr F.FOOT_I3C_STATUS_FRAME_ERROR 1 else d
      if b.length < 4 ∨ addr % 4 ≠ 0 then s
      else if n = 0 then s.withDev fun d => { d with mgmt.readAddr := addr }
      else
        (List.range n).foldl (fun s k =>
          s.i3cWord (BitVec.ofNat 32 (addr + 4 * k)) (natOfBytes ((b.drop (4 + 4 * k)).take 4))) s

/-- The words of a private read, one by one: a register that the target does not serve ends the read. -/
def State.i3cRead (s : State) : Nat → List Nat → List Nat × State
  | 0, out => (out, s)
  | n + 1, out =>
    let a : Word := BitVec.ofNat 32 s.dev.mgmt.readAddr
    if ¬ s.dev.i3cServes a then (out, s)
    else
      let r := s.readAddr a
      (r.2.withDev fun d => { d with mgmt.readAddr := (a.toNat + 4) % 2 ^ 32 }).i3cRead n (out ++ bytesOfNat 4 r.1)

/-- I3C_PRIVATE_READ (R480). -/
def execI3cPrivateRead (words : BitVec 7) (s : State) : Host.Outcome State Fault Refusal :=
  .next <|
    if ¬ s.dev.i3cTakes ∨ ¬ s.dev.i3cServes (BitVec.ofNat 32 s.dev.mgmt.readAddr) then s.withDev Dev.i3cNack
    else
      let (out, t) := s.i3cRead words.toNat []
      t.withDev fun d => d.i3cOut out

/-- The provisional ID of R479, most significant byte first. -/
def State.pid (s : State) : List Nat :=
  (bytesOfNat 6 (Config.oxtosMipi.toNat * 2 ^ 33 + 0x1664 * 2 ^ 16 + s.fuses.position % 64 * 2 ^ 10 + s.fuses.variantS.toNat)).reverse

/-- A CCC sent to every target. -/
def State.broadcast (s : State) (f : Dev → Dev) : State := if s.dev.i3cThere then s.withDev fun d => f (d.i3cOut []) else s

/-- A CCC sent to the target's own address: its answer. -/
def State.direct (s : State) (f : Dev → Dev) : State :=
  s.withDev fun d => if d.i3cThere ∧ d.flag F.FOOT_I3C_STATUS_ADDR_VALID then f (d.i3cOut []) else d.i3cNack

/-- ENTDAA (R479): a target without an address sends its ID, BCR and DCR and takes the address. -/
def execEntdaa (address : BitVec 7) (s : State) : Host.Outcome State Fault Refusal :=
  .next (s.broadcast fun d =>
    if d.flag F.FOOT_I3C_STATUS_ADDR_VALID then d
    else (d.wrs [(F.FOOT_I3C_STATUS_DYN_ADDR, address.toNat), (F.FOOT_I3C_STATUS_ADDR_VALID, 1)]).i3cOut (s.pid ++ [6, 0]))

/-- SETNEWDA (R479). -/
def execSetnewda (address : BitVec 7) (s : State) : Host.Outcome State Fault Refusal :=
  .next (s.direct fun d => d.wr F.FOOT_I3C_STATUS_DYN_ADDR address.toNat)

/-- RSTDAA (R479). -/
def execRstdaa (s : State) : Host.Outcome State Fault Refusal :=
  .next (s.broadcast fun d => d.wrs [(F.FOOT_I3C_STATUS_DYN_ADDR, 0), (F.FOOT_I3C_STATUS_ADDR_VALID, 0)])

/-- ENEC (R481): bit 0 enables IBIs. -/
def execEnec (events : BitVec 8) (s : State) : Host.Outcome State Fault Refusal :=
  .next (s.broadcast fun d => if events.getLsbD 0 then d.wr F.FOOT_I3C_STATUS_IBI_EN 1 else d)

/-- DISEC (R481): bit 0 disables IBIs. -/
def execDisec (events : BitVec 8) (s : State) : Host.Outcome State Fault Refusal :=
  .next (s.broadcast fun d => if events.getLsbD 0 then d.wr F.FOOT_I3C_STATUS_IBI_EN 0 else d)

/-- GETPID (R479). -/
def execGetpid (s : State) : Host.Outcome State Fault Refusal := .next (s.direct fun d => d.i3cOut s.pid)

/-- GETBCR (R479). -/
def execGetbcr (s : State) : Host.Outcome State Fault Refusal := .next (s.direct fun d => d.i3cOut [0x06])

/-- GETDCR (R479). -/
def execGetdcr (s : State) : Host.Outcome State Fault Refusal := .next (s.direct fun d => d.i3cOut [0x00])

/-- An answer of two bytes that the spec does not give. -/
def Dev.i3cOpen (d : Dev) : Dev :=
  let (v, d) := d.fresh
  d.i3cOut (bytesOfNat 2 (v.toNat % 2 ^ 16))

/-- GETSTATUS (R479): the spec names it and gives no format; a free value. -/
def execGetstatus (s : State) : Host.Outcome State Fault Refusal := .next (s.direct Dev.i3cOpen)

/-- GETMXDS (R479): likewise a free value. -/
def execGetmxds (s : State) : Host.Outcome State Fault Refusal := .next (s.direct Dev.i3cOpen)

/-- SETMRL (R479): from 8 to 256 bytes. -/
def execSetmrl (length : BitVec 16) (s : State) : Host.Outcome State Fault Refusal :=
  .next (s.broadcast fun d =>
    if 8 ≤ length.toNat ∧ length.toNat ≤ 256 then { d with mgmt.mrl := length.toNat } else d)

/-- GETMRL (R479). -/
def execGetmrl (s : State) : Host.Outcome State Fault Refusal :=
  .next (s.direct fun d => d.i3cOut (bytesOfNat 2 d.mgmt.mrl).reverse)

/-- SETMWL (R479): from 8 to 256 bytes. -/
def execSetmwl (length : BitVec 16) (s : State) : Host.Outcome State Fault Refusal :=
  .next (s.broadcast fun d =>
    if 8 ≤ length.toNat ∧ length.toNat ≤ 256 then { d with mgmt.mwl := length.toNat } else d)

/-- GETMWL (R479). -/
def execGetmwl (s : State) : Host.Outcome State Fault Refusal :=
  .next (s.direct fun d => d.i3cOut (bytesOfNat 2 d.mgmt.mwl).reverse)

/-- RSTACT (R479). -/
def execRstact (action : BitVec 8) (s : State) : Host.Outcome State Fault Refusal :=
  .next (s.broadcast fun d => { d with mgmt.resetAction := action.toNat })

/-! ## A register write (R11, R476 to R478) -/

/-- REGISTER_WRITE (R11): one access of a path that has reached its register. -/
def execRegisterWrite (path : MgmtPath) (addr value : Word) (s : State) : Host.Outcome State Fault Refusal :=
  .next <| match path with
    | .flaud link => (s.writeWith (s.keeperLink link) State.mailbox addr value.toNat).2
    | .i3c => if s.dev.i3cTakes then s.i3cWord addr value.toNat else s
    | .mailbox => (s.writeWith false id addr value.toNat).2

/-! ## Test access (R486 to R488) -/

/-- Whether the TAP works: its domain is ON and the device not in CLOSED. -/
def Dev.tapThere (d : Dev) : Bool := d.domainOn Dom.testAccess && !d.pow.closed

/-- An instruction selected, with what its register shifts out; only EXTEST drives the pads. -/
def Dev.select (d : Dev) (ir out : Nat) : Dev := { d with mgmt.ir := ir, mgmt.tdo := out, mgmt.drives := decide (ir = 0) }

/-- An instruction of a scope: BYPASS where the scope is not unlocked. A wider scope includes the narrower ones. -/
def State.scoped (s : State) (scope : Nat) (f : State → State) : State :=
  if ¬ s.dev.tapThere then s
  else if s.dev.rd F.FOOT_TAP_STATUS_SCOPE < scope then s.withDev fun d => d.select 0xFF 0
  else f s

/-- A value that test logic shifts out, which the spec does not give. -/
def Dev.testOut (d : Dev) (ir : Nat) : Dev :=
  let (v, d) := d.fresh
  d.select ir v.toNat

/-- BYPASS (Table 20.4). -/
def execBypass (s : State) : Host.Outcome State Fault Refusal := .next (s.scoped 0 fun s => s.withDev fun d => d.select 0xFF 0)

/-- IDCODE (Table 20.4). -/
def execIdcode (s : State) : Host.Outcome State Fault Refusal :=
  .next (s.scoped 0 fun s => s.withDev fun d =>
    d.select 0x01 (s.fuses.stepping % 16 * 2 ^ 28 + 0x1664 * 2 ^ 12 + Config.oxtosJep106.toNat * 2 + 1))

/-- SAMPLE/PRELOAD (Table 20.4): the pads as they stand, and a new content of the boundary register. -/
def execSamplePreload (pins preload : Nat) (s : State) : Host.Outcome State Fault Refusal :=
  .next (s.scoped 0 fun s => s.withDev fun d => ({ d with mgmt.boundary := preload } : Dev).select 0x02 pins)

/-- CHALLENGE (Table 20.4): the scope asked for, and a fresh nonce of 16 bytes in bits [135:8]. -/
def execChallenge (scope : BitVec 8) (s : State) : Host.Outcome State Fault Refusal :=
  .next (s.scoped 0 fun s => s.withDev fun d =>
    let (v, d) := d.fresh
    let n := v.toNat % 2 ^ 128
    ({ d with mgmt.nonce := some (n, scope.toNat, d.time) } : Dev).select 0x10 (n * 2 ^ 8))

/-- The response that a nonce and scope call for (R487). -/
def Fuses.response (f : Fuses) (nonce scope : Nat) : BitVec 128 :=
  BitVec.ofNat 128 (natOfBytes ((hmacSha256 (bytesOfNat 32 f.unlockKey.toNat) (bytesOfNat 16 nonce ++ [scope % 256])).take 16))

/-- Whether a response unlocks its scope (R487). -/
def State.unlocks (s : State) (r : BitVec 128) : Option Nat :=
  match s.dev.mgmt.nonce with
  | none => none
  | some (n, scope, t) =>
    if r = s.fuses.response n scope ∧ s.dev.time ≤ t + 1000000000 ∧ s.dev.flag F.FOOT_TAP_GATE_ALLOW ∧ 1 ≤ scope ∧ scope ≤ 3 ∧
        (scope = 1 → s.dev.rd F.DEV_STATUS_STATE ≠ 2) ∧ (2 ≤ scope → ¬ s.dev.patronsOn) then some scope
    else none

/-- The secrets cleared before a WRAPPER or FULL unlock (R453): KEK slots, vault and next-key slots; KEY_LOST for every sealed
patron. -/
def Dev.clearSecrets (d : Dev) : Dev :=
  let d : Dev := { d with keks := [], vault := [], nextKeys := [] }
  let d := (List.range 4096).foldl (fun d p =>
    if d.flag (F.PATRON_CTL_SEALED p) then
      d.wrs [(F.PATRON_STATUS_KEY_LOST p, 1), (F.PATRON_STATUS_KEY_LOADED p, 0), (F.PATRON_STATUS_NEXT_KEY_LOADED p, 0)]
    else d) d
  d.wr F.SEAL_STATUS_NEXT_FREE 16

/-- RESPONSE (R487). A response that unlocks nothing has failed; after three, every later one is refused. -/
def execResponse (response : BitVec 128) (s : State) : Host.Outcome State Fault Refusal :=
  .next (s.scoped 0 fun s =>
    let s := s.withDev fun d => d.select 0x11 0
    if s.dev.flag F.FOOT_TAP_STATUS_LOCKED_OUT then s
    else
      match s.unlocks response with
      | some scope =>
        s.withDev fun d =>
          let d := if 2 ≤ scope then d.clearSecrets else d
          ((d.bump F.FOOT_TAP_STATUS_UNLOCKS).wrs [(F.FOOT_TAP_STATUS_SCOPE, scope), (F.DEV_STATUS_TEST_UNLOCKED, 1)]).raise
            .testAccessUnlocked (Src.foot 0) [(scope, 2)]
      | none =>
        s.withDev fun d =>
          let d := d.bump F.FOOT_TAP_STATUS_FAILS
          if d.rd F.FOOT_TAP_STATUS_FAILS = 3 then (d.wr F.FOOT_TAP_STATUS_LOCKED_OUT 1).raise .testUnlockFail (Src.foot 0) else d)

/-- EXTEST (Table 20.4): the boundary register drives the pads; what they read is the outside world's. -/
def execExtest (s : State) : Host.Outcome State Fault Refusal := .next (s.scoped 1 fun s => s.withDev fun d => d.testOut 0)

/-- WRAPPER (Table 20.4): the wrappers in series, with the domain that their selection names. -/
def execWrapper (domain : Fin 248) (s : State) : Host.Outcome State Fault Refusal :=
  .next (s.scoped 2 fun s => s.withDev fun d => ({ d with mgmt.selected := domain } : Dev).testOut 0x20)

/-- The selected domain opened to scan or memory self-test: a reading-room slice is flushed and invalidated first (R453); the end of the
unlock resets the domain (R488). -/
def State.scanned (s : State) (ir : Nat) : State :=
  let i := s.dev.mgmt.selected
  let s := if 128 ≤ i ∧ i < 144 then s.emptySlice (i - 128) else s
  s.withDev fun d => ({ d with mgmt.scanned := d.mgmt.scanned.filter (· ≠ i) ++ [i] } : Dev).testOut ir

/-- SCAN (Table 20.4). -/
def execScan (s : State) : Host.Outcome State Fault Refusal := .next (s.scoped 3 fun s => s.scanned 0x30)

/-- MEMTEST (Table 20.4). -/
def execMemtest (s : State) : Host.Outcome State Fault Refusal := .next (s.scoped 3 fun s => s.scanned 0x31)

/-- TAP_RESET (R486, R488): IDCODE selected, and every unlock ends. -/
def execTapReset (s : State) : Host.Outcome State Fault Refusal :=
  .next (if ¬ s.dev.tapThere then s
    else (s.withDev fun d => ({ d with mgmt.nonce := none } : Dev).select 0x01 0).endUnlock)

/-! ## The end of a takeover (R490, Table 20.6) -/

/-- TAKEOVER_COMPLETE (R490): the standby is the active registrar; commands in progress are run again; held events are classified and
held accesses performed in the order they came; REGISTRAR_TAKEOVER is raised. -/
def execTakeoverComplete (s : State) : Host.Outcome State Fault Refusal :=
  .next <|
    if ¬ s.dev.flt.takeover then s
    else
      let new := 1 - s.dev.rd F.DEV_REG_ACTIVE
      let s := s.withDev fun d =>
        ((({ d with flt.takeover := false, flt.testing := true } : Dev).bump F.DEV_REG_TAKEOVERS).wrs
          [(F.DEV_REG_ACTIVE, new), (F.DEV_REG_STANDBY_READY, 0)]).alert F.FOOT_I3C_ALERT_TAKEOVER
      let s := s.catRetry.pumpJobs
      let s := (List.range s.dev.raised.length).foldl (fun s _ => s.takeRaised) s
      let held := s.dev.mgmt.heldFlaud
      let s := held.foldl (fun s x => s.flaudGo x.1 x.2) (s.withDev fun d => { d with mgmt.heldFlaud := [] })
      s.withDev fun d => d.raise .registrarTakeover (Src.registrar new)

end Sys2Proof.Machine
end

