-- ==== Sys2Proof/Machine/Receive.lean ====
section
/-!
DEFINITION. The link's receiver (R331 to R338, R341, R343, R356, R363 to R365): the checks of a flit, sequence and answers, credits,
transit, and the messages of its slots.
-/

namespace Sys2Proof.Machine

open Sys2Proof

/-- The state after an outcome; a command that does not go on leaves it. -/
def State.after (s : State) (o : Host.Outcome State Fault Refusal) : State :=
  match o with
  | .next t => t
  | _ => s

/-! ## Messages (R335, R344) -/

/-- Whether an OPCODE may arrive on a link (Table 13.3, Table 14.2). -/
def Dev.takesOp (d : Dev) (l op : Nat) : Bool := if d.peerPort (l / 4) then knownOp op true else fromHost op

/-- A message handed to the unit that performs it; a memory request meets the fabric as `env` says. -/
def State.deliver (s : State) (link : Fin 256) (m : Msg) (env : AccessEnv) : State :=
  match m.op with
  | 0x01 | 0x02 | 0x03 | 0x04 => s.request link m env
  | 0x05 => s.fence link m
  | 0x06 => s.after (execBell link m s)
  | 0x07 => s.flaudReq link m
  | 0x10 => s.hostRsp link m
  | 0x14 => s.hostData link m
  | 0x40 | 0x41 | 0x42 => s.forwarded link m env
  | 0x43 | 0x44 => s.relay link m false
  | 0x45 => s.after (execXcopy link m s)
  | 0x46 => s.after (execCardSet link m s)
  | 0x47 => s.after (execCardAck link m s)
  | 0x48 => s.after (execRollCall link m s)
  | 0x49 => s.after (execRollAnswer link m s)
  | 0x4A => s.after (execTimeReq link m s)
  | 0x4B => s.after (execTimeRsp link m s)
  | 0x4C => s.after (execJoinReq link m s)
  | 0x4D => s.after (execJoinRsp link m s)
  | _ => s

/-- Whether a message is a memory request, which takes the next of the flit's environments. -/
def takesEnv (op : Nat) : Bool := [0x01, 0x02, 0x03, 0x04, 0x40, 0x41, 0x42].contains op

/-- The credit class of a message of a link: LOCAL on a peer link (Table 14.1). -/
def Dev.classOn (d : Dev) (l op : Nat) : Nat := if d.peerPort (l / 4) then 0 else opClass op

/-- Slots of a receive buffer that are free. -/
def LinkSt.room (x : LinkSt) (c : Nat) : Nat := (x.freed.getD c 0 + 1024 - x.arrived.getD c 0) % 1024

/-- Slots put into a receive buffer. -/
def Dev.arrive (d : Dev) (l c n : Nat) : Dev := d.setLinkSt l fun x => { x with arrived := addAt x.arrived c n }

/-- Slots that leave a receive buffer (R341). -/
def Dev.depart (d : Dev) (l c n : Nat) : Dev := d.setLinkSt l fun x => { x with freed := addAt x.freed c n }

/-- The credits of discarded slots returned (R335): the messages among them that can be told by their OPCODE. -/
def Dev.returnCredits (l : Nat) : Nat → List Nat → Dev → Dev
  | 0, _, d => d
  | fuel + 1, b, d =>
    match b with
    | [] => d
    | op :: _ =>
      if ¬ d.takesOp l op then Dev.returnCredits l fuel (b.drop 16) d
      else
        let n := opSlots op
        Dev.returnCredits l fuel (b.drop (16 * n)) ((d.arrive l (d.classOn l op) n).depart l (d.classOn l op) n)

/-- The slots of an accepted flit, in order (R335, R354): EMPTY ones are passed over; a reserved OPCODE, or a message that would cross
the end of the flit or breaks the layout of a peer message, discards the rest; a message without buffer space is discarded and the link
returns to DETECT (R341). -/
def State.slots (link : Fin 256) (dest : Nat) : Nat → Nat → List Nat → List AccessEnv → State → State
  | 0, _, _, _, s => s
  | fuel + 1, slot, b, envs, s =>
    match b with
    | [] => s
    | op :: _ =>
      if op = 0 then State.slots link dest fuel (slot + 1) (b.drop 16) envs s
      else
        let l := link.val
        let n := opSlots op
        let m := Msg.ofBytes (b.take (16 * n))
        if ¬ s.dev.takesOp l op ∨ 15 < slot + n ∨ (0x46 ≤ op ∧ m.reserved) then
          s.withDev fun d => Dev.returnCredits l 15 b (d.badMessage l slot)
        else
          let c := s.dev.classOn l op
          if (s.dev.linkSt l).room c < n then (s.withDev fun d => d.badMessage l slot).toDetect l false
          else
            let t := ((s.withDev fun d => d.arrive l c n).deliver link { m with home := dest } (envs.headD cleanEnv)).withDev
              fun d => if d.lst l = 7 then d.depart l c n else d
            if t.dev.lst l ≠ 7 then t
            else State.slots link dest fuel (slot + n) (b.drop (16 * n)) (if takesEnv op then envs.drop 1 else envs) t

/-! ## Transit (R364, R365) -/

/-- The step of a link (Table 12.5). -/
def Dev.stepOf (d : Dev) (l : Nat) : Nat := d.rd (F.PORT_LINK_STEP (l / 4) (l % 4))

/-- A flit for another member: it takes fifteen slots of DOWN or UP buffer and waits for the onward link. Event 0x0110 counts it where
it may go on by cut-through, 0x0111 where it is stored first. -/
def State.transit (s : State) (l dest : Nat) (f : BitVec 2048) : State :=
  let c := transitClass s.fuses.position dest
  if (s.dev.linkSt l).room c < 15 then (s.withDev fun d => d.badMessage l 0).toDetect l false
  else
    match s.peerLink dest with
    | none => s.withDev fun d => (d.arrive l c 15).depart l c 15
    | some o => s.withDev fun d =>
      let fast := d.lst o = 7 && decide (15 ≤ (d.linkSt o).may (transitClass (s.farPosition o) dest)) && decide (d.stepOf l ≤ d.stepOf o)
      ((d.arrive l c 15).setLinkSt o fun x => { x with transit := x.transit ++ [(l, f)] }).count (if fast then 0x0110 else 0x0111)
        (l / 4 / 8)

/-! ## Answers (R336, R338) -/

/-- A NAK asked for, once in an episode (R336). -/
def Dev.nakRule (d : Dev) (l : Nat) : Dev :=
  if d.flag (F.FLIT_STATUS_NAK_PENDING (l / 4) (l % 4)) then d
  else (d.wr (F.FLIT_STATUS_NAK_PENDING (l / 4) (l % 4)) 1).setLinkSt l fun x => { x with sendNak := true }

/-- A fault of a flit's header or answer (R332, R338, R358): slot 15. -/
def Dev.badHeader (d : Dev) (l : Nat) : Dev := d.raise .linkProtocol (srcOf l) [(15, 4)]

/-- The answer of a flit: the entries up to ACK_SEQ are freed; one outside the range asks for recovery; a NAK replays what is left
(R338). -/
def State.answered (s : State) (l : Nat) (h : Header) : State :=
  if ¬ h.ackValid then s
  else
    let x := s.dev.linkSt l
    let n := x.replay.length
    let first := s.dev.rd (F.FLIT_STATUS_TX_SEQ (l / 4) (l % 4)) + 2048 - n
    let k := (h.ackSeq + 2048 + 1 - first % 1024) % 1024
    if n < k then (s.withDev fun d => d.badHeader l).recover l
    else
      let s := s.withDev fun d => d.setLinkSt l fun x =>
        { x with replay := x.replay.drop k, replayAt := if n ≤ k then none else x.replayAt.map (· - k) }
      if h.nak then (s.withDev fun d => d.count 0x0905 l).replayFrom l 0 else s

/-! ## FLIT_RECEIVE -/

/-- A DATA flit that has arrived intact (R336): accepted in order, and then taken apart or re-driven; a duplicate; or out of order. -/
def State.dataFlit (s : State) (link : Fin 256) (f : BitVec 2048) (bad : Bool) (envs : List AccessEnv) : State :=
  let l := link.val
  let h := flitHeader f
  let expected := s.dev.rd (F.FLIT_STATUS_EXPECTED (l / 4) (l % 4))
  if h.seq = expected then
    let s := s.withDev fun d =>
      ((d.wrs [(F.FLIT_STATUS_EXPECTED (l / 4) (l % 4), (expected + 1) % 1024), (F.FLIT_STATUS_NAK_PENDING (l / 4) (l % 4), 0)]).setLinkSt l
        fun x => { x with accepted := true }).count 0x0901 l
    if bad then s.withDev fun d => Dev.returnCredits l 15 (flitPayload f) d
    else if s.dev.peerPort (l / 4) ∧ h.dest ≠ s.fuses.position then s.transit l h.dest f
    else State.slots link h.dest 15 0 (flitPayload f) envs s
  else if (expected + 1024 - h.seq) % 1024 ≤ 64 then s
  else s.withDev fun d => d.nakRule l

/-- A flit whose CRC field holds the right value. -/
def State.goodFlit (s : State) (link : Fin 256) (f : BitVec 2048) (deleted : Bool) (envs : List AccessEnv) : State :=
  let l := link.val
  let s := s.withDev fun d => d.setLinkSt l fun x => { x with crcRun := 0 }
  let h := flitHeader f
  let high := f.toNat % 2 ^ 64 / 2 ^ (if s.dev.peerPort (l / 4) then 47 else 41)
  if high ≠ 0 ∨ ¬ (1 ≤ h.kind ∧ h.kind ≤ 4) then
    let s := s.withDev fun d => (d.badHeader l).count 0x090A l
    if h.kind = 1 then s.dataFlit link f true envs else s
  else
    let s := s.withDev fun d =>
      let d := if d.peerPort (l / 4) then d else { d with urgency := SMap.put 0 d.urgency l h.urgency }
      d.setLinkSt l fun x => { x with farFreed := x.farFreed.mapIdx (fun i v => if i = h.crClass then some h.crCount else v) }
    let s := s.answered l h
    if s.dev.lst l ≠ 7 then s
    else if h.kind = 4 then s.toDetect l false
    else if h.kind = 3 then s.withDev fun d => if deleted then d.count 0x0005 (l / 4) else d
    else if h.kind = 1 then s.dataFlit link f false envs else s

/-- A flit whose CRC fails (R325, R336): eight in a row ask for recovery. -/
def State.crcFailed (s : State) (l : Nat) : State :=
  let s := s.withDev fun d =>
    let d := ((d.bump (F.FLIT_ERRORS_CRC_FAILS (l / 4) (l % 4))).count 0x0903 l).raise .flitCrc (srcOf l)
    (d.setLinkSt l fun x => { x with crcRun := x.crcRun + 1 }).nakRule l
  if 8 ≤ (s.dev.linkSt l).crcRun then s.recover l else s

/-- A flit checked (R333): stomped, failed or good. -/
def State.checkFlit (s : State) (link : Fin 256) (f : BitVec 2048) (deleted : Bool) (envs : List AccessEnv) : State :=
  let bytes := bytesOfNat 256 f.toNat
  let c := crc64 (bytes.take 248)
  let got := f.toNat / 2 ^ 1984
  if got = c then s.goodFlit link f deleted envs
  else if got = 2 ^ 64 - 1 - c then s.withDev fun d => d.count 0x0907 link
  else s.crcFailed link

/-- The messages of a flit's payload, as the injector looks through them. -/
def messagesOf : Nat → Nat → List Nat → List (Nat × Msg)
  | 0, _, _ => []
  | fuel + 1, l, b =>
    match b with
    | [] => []
    | op :: _ => (l, Msg.ofBytes (b.take (16 * opSlots op))) :: messagesOf fuel l (b.drop (16 * opSlots op))

/-- A flit as the injector leaves it to the receiver (R356): dropped as if its CRC had failed, a bit flipped, or kept until the next
DATA flit has been received. -/
def State.injectReceive (s : State) (link : Fin 256) (f : BitVec 2048) (deleted : Bool) (envs : List AccessEnv) : State :=
  let l := link.val
  if (flitHeader f).kind ≠ 1 then s.checkFlit link f deleted envs
  else
    let (hit, d) := s.dev.injects l true
    let s := { s with dev := d }
    let mode := d.rd (F.INJ_CTL_MODE (l / 4))
    let kept := (d.linkSt l).keptRx
    let (v, d') := d.fresh
    if hit ∧ mode = 0 then ({ s with dev := d'.injected l } : State).crcFailed l
    else if hit ∧ mode = 1 then
      match d.testData (messagesOf 15 l (flitPayload f)) 0 with
      | some off =>
        ({ s with dev := d'.injected l } : State).checkFlit link (f ^^^ BitVec.ofNat 2048 (2 ^ (64 + 8 * off + v.toNat % 512))) deleted envs
      | none => s.checkFlit link f deleted envs
    else if hit ∧ mode = 2 then
      ({ s with dev := d'.injected l } : State).checkFlit link (f ^^^ BitVec.ofNat 2048 (2 ^ (v.toNat % 2048))) deleted envs
    else if hit ∧ mode = 3 ∧ kept.isNone then
      s.withDev fun d => (d.injected l).setLinkSt l fun x => { x with keptRx := some f }
    else
      let t := s.checkFlit link f deleted envs
      match kept with
      | some k => (t.withDev fun d => d.setLinkSt l fun x => { x with keptRx := none }).checkFlit link k deleted []
      | none => t

/-- FLIT_RECEIVE (R336): the columns of a flit have arrived on an UP link. With its receive FIFO full it is dropped (R63); `deleted`
says whether the elastic buffer deletes it, should it be a FILL (R318). -/
def State.flitReceive (s : State) (link : Fin 256) (columns : List Nat) (full deleted : Bool) (envs : List AccessEnv) : State :=
  let l := link.val
  if s.dev.lst l ≠ 7 then s
  else
    let (flit, bad, ls) := stuffReceive (s.dev.widthNow l) columns (s.dev.rxStuff l)
    let s := s.withDev fun d => d.setRxStuff l ls bad
    match flit with
    | none => s
    | some n =>
      let t := if full then s.withDev fun d => (d.raise .boundaryOverrun (Src.port (l / 4))).nakRule l
        else s.injectReceive link (BitVec.ofNat 2048 n) deleted envs
      if t.dev.lst l = 7 then t.withDev fun d => d.showFlits l else t

/-- FLIT_RECEIVE (R336). -/
def execFlitReceive (link : Fin 256) (columns : List Nat) (full deleted : Bool) (envs : List AccessEnv) (s : State) :
    Host.Outcome State Fault Refusal :=
  .next (s.flitReceive link columns full deleted envs)

end Sys2Proof.Machine
end

