-- ==== Sys2Proof/Machine/Dispatch.lean ====
section
/-!
DEFINITION. The dispatch: one arm per command, each one direct call of its meaning.
-/

namespace Sys2Proof.Machine

open Sys2Proof

def exec (i : Instr) (s : State) : Host.Outcome State Fault Refusal :=
  match i with
  | .registerWrite path addr value => Sys2Proof.Machine.execRegisterWrite path addr value s
  | .tickColumnFault die column => Sys2Proof.Machine.execTickColumnFault die column s
  | .paceWindow counts => Sys2Proof.Machine.execPaceWindow counts s
  | .handshakeStall channel lost => Sys2Proof.Machine.execHandshakeStall channel lost s
  | .localTimeCheck counts => Sys2Proof.Machine.execLocalTimeCheck counts s
  | .tbTimeLoRead => Sys2Proof.Machine.execTbTimeLoRead s
  | .lendingBoundary => Sys2Proof.Machine.execLendingBoundary s
  | .twinTakeover bay cause lost => Sys2Proof.Machine.execTwinTakeover bay cause lost s
  | .takeoverDrainComplete bay => Sys2Proof.Machine.execTakeoverDrainComplete bay s
  | .twinHandback bay => Sys2Proof.Machine.execTwinHandback bay s
  | .rrFlushStart value => Sys2Proof.Machine.execRrFlushStart value s
  | .act shaft level bank row patron countBad noise => Sys2Proof.Machine.execAct shaft level bank row patron countBad noise s
  | .ping shaft level noise => Sys2Proof.Machine.execPing shaft level noise s
  | .rd shaft level bank line ap cls grp patron scrub noise => Sys2Proof.Machine.execRd shaft level bank line ap cls grp patron scrub noise s
  | .wr shaft level bank line ap cls grp noise => Sys2Proof.Machine.execWr shaft level bank line ap cls grp noise s
  | .pre shaft level bank all noise => Sys2Proof.Machine.execPre shaft level bank all noise s
  | .ref shaft level bank noise => Sys2Proof.Machine.execRef shaft level bank noise s
  | .tref shaft level claim noise => Sys2Proof.Machine.execTref shaft level claim noise s
  | .srefEnter shaft level noise => Sys2Proof.Machine.execSrefEnter shaft level noise s
  | .srefExit shaft level noise => Sys2Proof.Machine.execSrefExit shaft level noise s
  | .srr shaft level word noise => Sys2Proof.Machine.execSrr shaft level word noise s
  | .srw shaft level word data noise => Sys2Proof.Machine.execSrw shaft level word data noise s
  | .calEcho shaft level dead noise => Sys2Proof.Machine.execCalEcho shaft level dead noise s
  | .calWritePattern shaft level noise => Sys2Proof.Machine.execCalWritePattern shaft level noise s
  | .calReadPattern shaft level noise => Sys2Proof.Machine.execCalReadPattern shaft level noise s
  | .sync shaft level noise => Sys2Proof.Machine.execSync shaft level noise s
  | .lineTransfer shaft wire illegal => Sys2Proof.Machine.execLineTransfer shaft wire illegal s
  | .activationComplete shaft level bank ns => Sys2Proof.Machine.execActivationComplete shaft level bank ns s
  | .prechargeComplete shaft level bank ns => Sys2Proof.Machine.execPrechargeComplete shaft level bank ns s
  | .refreshComplete shaft level bank ns => Sys2Proof.Machine.execRefreshComplete shaft level bank ns s
  | .completionForced shaft level bank => Sys2Proof.Machine.execCompletionForced shaft level bank s
  | .completionLate shaft level bank => Sys2Proof.Machine.execCompletionLate shaft level bank s
  | .cmdStall shaft level atFall => Sys2Proof.Machine.execCmdStall shaft level atFall s
  | .beatStall shaft => Sys2Proof.Machine.execBeatStall shaft s
  | .readStartTimeout shaft => Sys2Proof.Machine.execReadStartTimeout shaft s
  | .attnPoll shaft => Sys2Proof.Machine.execAttnPoll shaft s
  | .busyBankPoll shaft level => Sys2Proof.Machine.execBusyBankPoll shaft level s
  | .calFullPass shaft smallest beatRate twinSmallest => Sys2Proof.Machine.execCalFullPass shaft smallest beatRate twinSmallest s
  | .calStart bay => Sys2Proof.Machine.execCalStart bay s
  | .calTrackingPass shaft results => Sys2Proof.Machine.execCalTrackingPass shaft results s
  | .refreshPacerStep shaft level bank => Sys2Proof.Machine.execRefreshPacerStep shaft level bank s
  | .levelSensorSample level readings => Sys2Proof.Machine.execLevelSensorSample level readings s
  | .trefDeadline shaft level slot => Sys2Proof.Machine.execTrefDeadline shaft level slot s
  | .trefLate shaft level slot => Sys2Proof.Machine.execTrefLate shaft level slot s
  | .rowActWindow => Sys2Proof.Machine.execRowActWindow s
  | .rowActClampClear clamp => Sys2Proof.Machine.execRowActClampClear clamp s
  | .hygroSample level quadrant fails => Sys2Proof.Machine.execHygroSample level quadrant fails s
  | .levelStewardReset level => Sys2Proof.Machine.execLevelStewardReset level s
  | .levelResetReq level => Sys2Proof.Machine.execLevelResetReq level s
  | .stewardResetDone level readings => Sys2Proof.Machine.execStewardResetDone level readings s
  | .recoveringRefTimer shaft level => Sys2Proof.Machine.execRecoveringRefTimer shaft level s
  | .a3Recompute => Sys2Proof.Machine.execA3Recompute s
  | .mergeWrite write => Sys2Proof.Machine.execMergeWrite write s
  | .mergeGatherExpiry bay => Sys2Proof.Machine.execMergeGatherExpiry bay s
  | .shelfReadDeadline bay => Sys2Proof.Machine.execShelfReadDeadline bay s
  | .portBind port value => Sys2Proof.Machine.execPortBind port value s
  | .patronEnable patron => Sys2Proof.Machine.execPatronEnable patron s
  | .patronDisable patron => Sys2Proof.Machine.execPatronDisable patron s
  | .patronDisableComplete patron => Sys2Proof.Machine.execPatronDisableComplete patron s
  | .cardLineRead wing walk env => Sys2Proof.Machine.execCardLineRead wing walk env s
  | .materialiseZeroDone => Sys2Proof.Machine.execMaterialiseZeroDone s
  | .materialisingPoll => Sys2Proof.Machine.execMaterialisingPoll s
  | .catRead patron level => Sys2Proof.Machine.execCatRead patron level s
  | .catWrite patron level => Sys2Proof.Machine.execCatWrite patron level s
  | .catCas patron level => Sys2Proof.Machine.execCatCas patron level s
  | .catFence patron all => Sys2Proof.Machine.execCatFence patron all s
  | .catFenceComplete => Sys2Proof.Machine.execCatFenceComplete s
  | .loadKek slot => Sys2Proof.Machine.execLoadKek slot s
  | .loadKey patron kek => Sys2Proof.Machine.execLoadKey patron kek s
  | .loadNext patron kek => Sys2Proof.Machine.execLoadNext patron kek s
  | .dropNext patron => Sys2Proof.Machine.execDropNext patron s
  | .clearKek slot => Sys2Proof.Machine.execClearKek slot s
  | .sealReservedOp => Sys2Proof.Machine.execSealReservedOp s
  | .kekLock => Sys2Proof.Machine.execKekLock s
  | .allowCommit => Sys2Proof.Machine.execAllowCommit s
  | .feasibilityCheckDone => Sys2Proof.Machine.execFeasibilityCheckDone s
  | .missWindow group => Sys2Proof.Machine.execMissWindow group s
  | .ringEnable patron ring => Sys2Proof.Machine.execRingEnable patron ring s
  | .ringDisable patron ring => Sys2Proof.Machine.execRingDisable patron ring s
  | .bell link msg => Sys2Proof.Machine.execBell link msg s
  | .bellRecordReturn patron line => Sys2Proof.Machine.execBellRecordReturn patron line s
  | .bellRereadTimer patron => Sys2Proof.Machine.execBellRereadTimer patron s
  | .descriptorReturn patron ring first lines => Sys2Proof.Machine.execDescriptorReturn patron ring first lines s
  | .interruptHoldoffEnd k => Sys2Proof.Machine.execInterruptHoldoffEnd k s
  | .hostReadTimeout tag => Sys2Proof.Machine.execHostReadTimeout tag s
  | .hostReadRetry tag => Sys2Proof.Machine.execHostReadRetry tag s
  | .hostWriteTimeout tag => Sys2Proof.Machine.execHostWriteTimeout tag s
  | .houseRingEnable ring => Sys2Proof.Machine.execHouseRingEnable ring s
  | .houseHeaderReread ring => Sys2Proof.Machine.execHouseHeaderReread ring s
  | .houseHeaderReturn ring header => Sys2Proof.Machine.execHouseHeaderReturn ring header s
  | .descriptorStart trolley => Sys2Proof.Machine.execDescriptorStart trolley s
  | .gatherListReturn trolley lines => Sys2Proof.Machine.execGatherListReturn trolley lines s
  | .steppedLineComplete trolley slot env ue => Sys2Proof.Machine.execSteppedLineComplete trolley slot env ue s
  | .recallDrainComplete trolley => Sys2Proof.Machine.execRecallDrainComplete trolley s
  | .recallLate trolley => Sys2Proof.Machine.execRecallLate trolley s
  | .rekeyCardPoll trolley env => Sys2Proof.Machine.execRekeyCardPoll trolley env s
  | .reshelveStart patron => Sys2Proof.Machine.execReshelveStart patron s
  | .reshelveCancel => Sys2Proof.Machine.execReshelveCancel s
  | .reshelveQuery => Sys2Proof.Machine.execReshelveQuery s
  | .reshelveRelease => Sys2Proof.Machine.execReshelveRelease s
  | .jobActivate => Sys2Proof.Machine.execJobActivate s
  | .jobStartingDone job => Sys2Proof.Machine.execJobStartingDone job s
  | .reshelveLineCopy shaft job wire => Sys2Proof.Machine.execReshelveLineCopy shaft job wire s
  | .levelSpare level => Sys2Proof.Machine.execLevelSpare level s
  | .levelRetire level => Sys2Proof.Machine.execLevelRetire level s
  | .spareAbandon => Sys2Proof.Machine.execSpareAbandon s
  | .rowWithdrawCopy shaft level => Sys2Proof.Machine.execRowWithdrawCopy shaft level s
  | .bayRestoreAttempt bay pass => Sys2Proof.Machine.execBayRestoreAttempt bay pass s
  | .ledgerSlotWrite => Sys2Proof.Machine.execLedgerSlotWrite s
  | .ledgerWriteDone ok => Sys2Proof.Machine.execLedgerWriteDone ok s
  | .ledgerRead => Sys2Proof.Machine.execLedgerRead s
  | .evacStart => Sys2Proof.Machine.execEvacStart s
  | .evacStop => Sys2Proof.Machine.execEvacStop s
  | .lifeRecord crown levels => Sys2Proof.Machine.execLifeRecord crown levels s
  | .portEnable port => Sys2Proof.Machine.execPortEnable port s
  | .portDisable port => Sys2Proof.Machine.execPortDisable port s
  | .portRetrain port => Sys2Proof.Machine.execPortRetrain port s
  | .loopback port on => Sys2Proof.Machine.execLoopback port on s
  | .signalDetect link lanes => Sys2Proof.Machine.execSignalDetect link lanes s
  | .tsBlock port lane payload adapt => Sys2Proof.Machine.execTsBlock port lane payload adapt s
  | .seedBlock port lane payload => Sys2Proof.Machine.execSeedBlock port lane payload s
  | .ccBlock port lane payload => Sys2Proof.Machine.execCcBlock port lane payload s
  | .dataBlock port lane header payload => Sys2Proof.Machine.execDataBlock port lane header payload s
  | .trainingPhaseTimeout link => Sys2Proof.Machine.execTrainingPhaseTimeout link s
  | .stepChangeIdle link => Sys2Proof.Machine.execStepChangeIdle link s
  | .recoveryTrigger link => Sys2Proof.Machine.execRecoveryTrigger link s
  | .exitPattern link => Sys2Proof.Machine.execExitPattern link s
  | .laneFailure port lane unstable => Sys2Proof.Machine.execLaneFailure port lane unstable s
  | .recoveryTimeout link => Sys2Proof.Machine.execRecoveryTimeout link s
  | .flitReceive link columns full deleted envs => Sys2Proof.Machine.execFlitReceive link columns full deleted envs s
  | .flitSend link starved => Sys2Proof.Machine.execFlitSend link starved s
  | .answerTimeout link => Sys2Proof.Machine.execAnswerTimeout link s
  | .load link msg env => Sys2Proof.Machine.execLoad link msg env s
  | .store link msg env => Sys2Proof.Machine.execStore link msg env s
  | .storeMasked link msg env => Sys2Proof.Machine.execStoreMasked link msg env s
  | .atomic link msg env => Sys2Proof.Machine.execAtomic link msg env s
  | .fence link msg => Sys2Proof.Machine.execFence link msg s
  | .rsp link msg => Sys2Proof.Machine.execRsp link msg s
  | .hostData link msg => Sys2Proof.Machine.execHostData link msg s
  | .halt link => Sys2Proof.Machine.execHalt link s
  | .injEnable port => Sys2Proof.Machine.execInjEnable port s
  | .injUnlockRead port => Sys2Proof.Machine.execInjUnlockRead port s
  | .injUnlockKey port key => Sys2Proof.Machine.execInjUnlockKey port key s
  | .collJoin => Sys2Proof.Machine.execCollJoin s
  | .collFound => Sys2Proof.Machine.execCollFound s
  | .collLeave => Sys2Proof.Machine.execCollLeave s
  | .fwdLoad link msg env => Sys2Proof.Machine.execFwdLoad link msg env s
  | .fwdStore link msg env => Sys2Proof.Machine.execFwdStore link msg env s
  | .fwdAtomic link msg env => Sys2Proof.Machine.execFwdAtomic link msg env s
  | .fwdRsp link msg late => Sys2Proof.Machine.execFwdRsp link msg late s
  | .fwdData link msg late => Sys2Proof.Machine.execFwdData link msg late s
  | .xcopy link msg => Sys2Proof.Machine.execXcopy link msg s
  | .cardSet link msg => Sys2Proof.Machine.execCardSet link msg s
  | .cardAck link msg => Sys2Proof.Machine.execCardAck link msg s
  | .rollCall link msg => Sys2Proof.Machine.execRollCall link msg s
  | .rollAnswer link msg => Sys2Proof.Machine.execRollAnswer link msg s
  | .timeReq link msg => Sys2Proof.Machine.execTimeReq link msg s
  | .timeRsp link msg => Sys2Proof.Machine.execTimeRsp link msg s
  | .joinReq link msg => Sys2Proof.Machine.execJoinReq link msg s
  | .joinRsp link msg => Sys2Proof.Machine.execJoinRsp link msg s
  | .fwdTimeout tag => Sys2Proof.Machine.execFwdTimeout tag s
  | .rollCallTimer => Sys2Proof.Machine.execRollCallTimer s
  | .timeExchangeTimer => Sys2Proof.Machine.execTimeExchangeTimer s
  | .tsyncPulse => Sys2Proof.Machine.execTsyncPulse s
  | .headLost reach evac => Sys2Proof.Machine.execHeadLost reach evac s
  | .joinTimeout => Sys2Proof.Machine.execJoinTimeout s
  | .evacListRead line => Sys2Proof.Machine.execEvacListRead line s
  | .refQualify input errors => Sys2Proof.Machine.execRefQualify input errors s
  | .refLost input errors => Sys2Proof.Machine.execRefLost input errors s
  | .refWindow input ppm errors => Sys2Proof.Machine.execRefWindow input ppm errors s
  | .refReturnHold errors => Sys2Proof.Machine.execRefReturnHold errors s
  | .pllLockDetect pll clamps => Sys2Proof.Machine.execPllLockDetect pll clamps s
  | .pllWindowCheck pll pass => Sys2Proof.Machine.execPllWindowCheck pll pass s
  | .pllAcquireTimeout pll => Sys2Proof.Machine.execPllAcquireTimeout pll s
  | .pllLockLost pll => Sys2Proof.Machine.execPllLockLost pll s
  | .pllSlewDone pll => Sys2Proof.Machine.execPllSlewDone pll s
  | .holdoverLong => Sys2Proof.Machine.execHoldoverLong s
  | .clkHp3Freq freq => Sys2Proof.Machine.execClkHp3Freq freq s
  | .crownSensorSample readings => Sys2Proof.Machine.execCrownSensorSample readings s
  | .footSensorSample readings => Sys2Proof.Machine.execFootSensorSample readings s
  | .stackModelEval power => Sys2Proof.Machine.execStackModelEval power s
  | .witnessTimeout level => Sys2Proof.Machine.execWitnessTimeout level s
  | .thermClear level => Sys2Proof.Machine.execThermClear level s
  | .railCrossing rail mv => Sys2Proof.Machine.execRailCrossing rail mv s
  | .pgoodLost => Sys2Proof.Machine.execPgoodLost s
  | .resetPin => Sys2Proof.Machine.execResetPin s
  | .footReset => Sys2Proof.Machine.execFootReset s
  | .footResetEnd pins link => Sys2Proof.Machine.execFootResetEnd pins link s
  | .powerGate domain => Sys2Proof.Machine.execPowerGate domain s
  | .powerWake domain => Sys2Proof.Machine.execPowerWake domain s
  | .powerClose => Sys2Proof.Machine.execPowerClose s
  | .powerOpInvalid domain => Sys2Proof.Machine.execPowerOpInvalid domain s
  | .domainDrainComplete domain => Sys2Proof.Machine.execDomainDrainComplete domain s
  | .domainSupplyGood domain => Sys2Proof.Machine.execDomainSupplyGood domain s
  | .domainWakeCheckDone domain pass => Sys2Proof.Machine.execDomainWakeCheckDone domain pass s
  | .closeCommit => Sys2Proof.Machine.execCloseCommit s
  | .closedReached => Sys2Proof.Machine.execClosedReached s
  | .wakePin pin level => Sys2Proof.Machine.execWakePin pin level s
  | .linkWake port signal => Sys2Proof.Machine.execLinkWake port signal s
  | .coldStart closedMs => Sys2Proof.Machine.execColdStart closedMs s
  | .startPhaseDone outcome => Sys2Proof.Machine.execStartPhaseDone outcome s
  | .portReadyTimeout port => Sys2Proof.Machine.execPortReadyTimeout port s
  | .startCfgSave => Sys2Proof.Machine.execStartCfgSave s
  | .safeN chatter => Sys2Proof.Machine.execSafeN chatter s
  | .safeNRelease => Sys2Proof.Machine.execSafeNRelease s
  | .safeNHighTimer => Sys2Proof.Machine.execSafeNHighTimer s
  | .faultEvent type source detail lost => Sys2Proof.Machine.execFaultEvent type source detail lost s
  | .faultClear seq => Sys2Proof.Machine.execFaultClear seq s
  | .faultOverflowClear => Sys2Proof.Machine.execFaultOverflowClear s
  | .eventLogBatch => Sys2Proof.Machine.execEventLogBatch s
  | .safeEnter => Sys2Proof.Machine.execSafeEnter s
  | .safeResume => Sys2Proof.Machine.execSafeResume s
  | .sliceStart domain => Sys2Proof.Machine.execSliceStart domain s
  | .sliceStop patterns => Sys2Proof.Machine.execSliceStop patterns s
  | .sliceSchedule => Sys2Proof.Machine.execSliceSchedule s
  | .slicePrepared => Sys2Proof.Machine.execSlicePrepared s
  | .sliceTestDone outcome => Sys2Proof.Machine.execSliceTestDone outcome s
  | .sliceRestored pass => Sys2Proof.Machine.execSliceRestored pass s
  | .sliceUrgentStop patterns => Sys2Proof.Machine.execSliceUrgentStop patterns s
  | .sliceHp3Timeout patterns => Sys2Proof.Machine.execSliceHp3Timeout patterns s
  | .inventoryStart => Sys2Proof.Machine.execInventoryStart s
  | .inventoryPhaseDone outcome => Sys2Proof.Machine.execInventoryPhaseDone outcome s
  | .perfValueLoRead counter => Sys2Proof.Machine.execPerfValueLoRead counter s
  | .perfValueHiWrite counter value => Sys2Proof.Machine.execPerfValueHiWrite counter value s
  | .perfFreeze freeze => Sys2Proof.Machine.execPerfFreeze freeze s
  | .perfClear => Sys2Proof.Machine.execPerfClear s
  | .traceEnable => Sys2Proof.Machine.execTraceEnable s
  | .leafMsMark => Sys2Proof.Machine.execLeafMsMark s
  | .statementBoundary => Sys2Proof.Machine.execStatementBoundary s
  | .patronCircRead patron => Sys2Proof.Machine.execPatronCircRead patron s
  | .i3cPrivateWrite bytes => Sys2Proof.Machine.execI3cPrivateWrite bytes s
  | .i3cPrivateRead words => Sys2Proof.Machine.execI3cPrivateRead words s
  | .entdaa address => Sys2Proof.Machine.execEntdaa address s
  | .setnewda address => Sys2Proof.Machine.execSetnewda address s
  | .rstdaa => Sys2Proof.Machine.execRstdaa s
  | .enec events => Sys2Proof.Machine.execEnec events s
  | .disec events => Sys2Proof.Machine.execDisec events s
  | .getpid => Sys2Proof.Machine.execGetpid s
  | .getbcr => Sys2Proof.Machine.execGetbcr s
  | .getdcr => Sys2Proof.Machine.execGetdcr s
  | .getstatus => Sys2Proof.Machine.execGetstatus s
  | .setmrl length => Sys2Proof.Machine.execSetmrl length s
  | .getmrl => Sys2Proof.Machine.execGetmrl s
  | .setmwl length => Sys2Proof.Machine.execSetmwl length s
  | .getmwl => Sys2Proof.Machine.execGetmwl s
  | .getmxds => Sys2Proof.Machine.execGetmxds s
  | .rstact action => Sys2Proof.Machine.execRstact action s
  | .flaudRead link tag body => Sys2Proof.Machine.execFlaudRead link tag body s
  | .flaudWrite link tag body => Sys2Proof.Machine.execFlaudWrite link tag body s
  | .flaudModify link tag body => Sys2Proof.Machine.execFlaudModify link tag body s
  | .flaudEcho link tag body => Sys2Proof.Machine.execFlaudEcho link tag body s
  | .devMboxGo => Sys2Proof.Machine.execDevMboxGo s
  | .bypass => Sys2Proof.Machine.execBypass s
  | .idcode => Sys2Proof.Machine.execIdcode s
  | .samplePreload pins preload => Sys2Proof.Machine.execSamplePreload pins preload s
  | .challenge scope => Sys2Proof.Machine.execChallenge scope s
  | .response response => Sys2Proof.Machine.execResponse response s
  | .extest => Sys2Proof.Machine.execExtest s
  | .wrapper domain => Sys2Proof.Machine.execWrapper domain s
  | .scan => Sys2Proof.Machine.execScan s
  | .memtest => Sys2Proof.Machine.execMemtest s
  | .tapReset => Sys2Proof.Machine.execTapReset s
  | .devRegSwap => Sys2Proof.Machine.execDevRegSwap s
  | .takeoverComplete => Sys2Proof.Machine.execTakeoverComplete s
  | .standbySelfTestDone pass => Sys2Proof.Machine.execStandbySelfTestDone pass s
  | .devOpen => Sys2Proof.Machine.execDevOpen s
  | .tbSlewComplete => Sys2Proof.Machine.execTbSlewComplete s
  | .acquireLaneMissing link lane => Sys2Proof.Machine.execAcquireLaneMissing link lane s
  | .tfCountRead patron entry => Sys2Proof.Machine.execTfCountRead patron entry s

end Sys2Proof.Machine
end

