-- ==== Sys2Proof/Safety.lean ====
section
/-!
DEFINITION. What a safe run keeps: the canonical form of the maps a command changes, and the settings that OPEN locks.
-/

namespace Sys2Proof.Machine

open Sys2Proof

/-- The DRAM is in its canonical form: addresses strictly rising, no symbol listed that equals what an unlisted one reads as. -/
def Memory.wf (m : List Host.Cell) : Bool := SMap.wf memDefault m

/-- A state whose DRAM is in its canonical form. -/
def State.memWf (s : State) : Prop := Memory.wf s.mem = true

/-- What final test and the board fix, and the queue of commands, stand as they were (R2, R3, R24, R360, R402, R487). -/
def State.sameOutside (s t : State) : Prop := t.fuses = s.fuses ∧ t.pending = s.pending

/-- No event counter is enabled, so that no event counts (R461). -/
def Dev.countersOff (d : Dev) : Bool := d.perf.all fun cp => !cp.2.en

/-- A shelf port hears its bay: the bay drives the shaft (R41), the port is powered (R419) and READY (R82). -/
def Dev.portReady (d : Dev) (shaft level : Nat) : Bool :=
  d.shaftDriven shaft && d.portPowered shaft level && (d.shelf (shelfKey shaft level)).st = .ready

/-- No request, write, flush or fence waits at the device for its turn. -/
def Dev.quiet (d : Dev) : Bool := d.held = [] && d.mergeWaits = [] && d.flushWait = [] && d.fences = []

/-- No fault injector runs at any port (R357). -/
def Dev.noInjector (d : Dev) : Bool := (List.range 64).all fun p => d.rd (F.INJ_STATUS_RUNNING p) = 0

/-- The registers whose writes do more, or less, than their fields' access codes say (each by the rule that gives it its effect). -/
def ownWrites : List RegName :=
  [.DEV_CTL, .DEV_LAYOUT, .DEV_KEEPER, .CAT_RESERVE, .DEV_REG, .DEV_START_CFG, .SPARE_CTL, .EVAC_CTL, .DEV_MBOX_CTL,
    .POWER_CTL, .POWER_WAKE_CFG, .CLK_REF_CTL, .CLK_HP3_CTL, .THERM_LEVEL, .FAULT_STATUS, .FAULT_CLEAR, .SAFE_CTL,
    .FAULT_TYPE_CFG, .TEST_SLICE, .INVENTORY_CTL, .PERF_SEL, .PERF_FILTER, .PERF_VALUE_LO, .PERF_VALUE_HI, .PERF_CTL,
    .TRACE_CTL, .LEDGER_RD_CTL, .PORT_CTL, .PORT_BIND, .INJ_CTL, .INJ_UNLOCK, .SHAFT_CTL, .LEVEL_RESET, .FOOT_TAP_GATE,
    .ALLOW_CTL, .ALLOW_BG, .ALLOW_URGENCY, .MISS_CFG, .CAT_CMD, .RESHELVE_CMD, .HOUSE_RING_BASE_LO, .HOUSE_RING_BASE_HI,
    .HOUSE_RING_CTL, .HOUSE_LINK, .SEAL_CMD, .SEAL_CTL, .COLL_CTL, .COLL_DIM, .COLL_CFG, .COLL_CAT, .RR_FLUSH_CTL,
    .PATRON_CTL, .PATRON_GROUP, .PATRON_ROOT, .PATRON_HOST_LINK, .RING_BASE_LO, .RING_BASE_HI, .RING_CTL, .BELL_ADDR_LO,
    .BELL_ADDR_HI, .INT_ADDR_LO, .INT_ADDR_HI, .INT_DATA]

/-- Whether a write of a register is that of its fields and nothing more (R11). -/
def RegName.takesPlain (r : RegName) : Bool := !ownWrites.contains r

/-- The frame of a command: it changes nothing but the device's volatile state, and of the registers nothing but the listed fields.
Fuses, layout, every symbol of DRAM, the ledger, the queue and every other register field stand as they were. -/
def State.frame (s t : State) (l : List Field) : Prop :=
  t.fuses = s.fuses ∧ t.layout = s.layout ∧ (∀ a, t.readSym a = s.readSym a) ∧ t.ledger = s.ledger ∧ t.pending = s.pending ∧
    ∀ f : Field, f.key ∉ l.map Field.key → t.dev.rd f = s.dev.rd f

/-- The frame of a command that stores: as `State.frame`, and of the DRAM nothing but the symbols whose address is `stored`. -/
def State.frameBut (s t : State) (stored : Nat → Prop) (l : List Field) : Prop :=
  t.fuses = s.fuses ∧ t.layout = s.layout ∧ (∀ a, ¬ stored a → t.readSym a = s.readSym a) ∧ t.ledger = s.ledger ∧
    t.pending = s.pending ∧ ∀ f : Field, f.key ∉ l.map Field.key → t.dev.rd f = s.dev.rd f

/-- The commands that store no symbol of DRAM, whatever they meet. -/
def storesNothing : Instr → Bool
  | .paceWindow .. | .localTimeCheck .. | .tbTimeLoRead | .act .. | .ping .. | .rd .. | .wr .. | .pre .. | .ref .. | .tref ..
  | .srefEnter .. | .srefExit .. | .srr .. | .srw .. | .calEcho .. | .calWritePattern .. | .calReadPattern .. | .sync ..
  | .activationComplete .. | .prechargeComplete .. | .refreshComplete .. | .completionForced .. | .completionLate .. | .cmdStall ..
  | .attnPoll .. | .busyBankPoll .. | .calFullPass .. | .calStart .. | .calTrackingPass .. | .refreshPacerStep ..
  | .trefDeadline .. | .trefLate .. | .rowActWindow | .rowActClampClear .. | .levelStewardReset .. | .levelResetReq ..
  | .recoveringRefTimer .. | .a3Recompute | .mergeGatherExpiry .. | .shelfReadDeadline .. | .portBind .. | .patronEnable ..
  | .patronDisable .. | .catFenceComplete | .loadKek .. | .loadKey .. | .loadNext .. | .dropNext .. | .clearKek ..
  | .sealReservedOp | .kekLock | .allowCommit | .feasibilityCheckDone | .missWindow .. | .ringEnable .. | .ringDisable ..
  | .bell .. | .bellRecordReturn .. | .bellRereadTimer .. | .descriptorReturn .. | .interruptHoldoffEnd .. | .hostReadTimeout ..
  | .hostReadRetry .. | .hostWriteTimeout .. | .houseRingEnable .. | .houseHeaderReread .. | .houseHeaderReturn ..
  | .descriptorStart .. | .gatherListReturn .. | .recallDrainComplete .. | .recallLate .. | .reshelveQuery | .reshelveRelease
  | .levelRetire .. | .spareAbandon | .ledgerSlotWrite | .ledgerWriteDone .. | .ledgerRead | .evacStart | .evacStop
  | .lifeRecord .. | .loopback .. | .signalDetect .. | .stepChangeIdle .. | .flitSend .. | .fence .. | .rsp .. | .injEnable ..
  | .injUnlockRead .. | .injUnlockKey .. | .rollAnswer .. | .timeReq .. | .timeRsp .. | .joinReq .. | .joinRsp .. | .fwdTimeout ..
  | .timeExchangeTimer | .tsyncPulse | .pllLockDetect .. | .holdoverLong | .thermClear .. | .footReset | .portReadyTimeout ..
  | .startCfgSave | .safeN .. | .safeNRelease | .safeNHighTimer | .faultClear .. | .faultOverflowClear | .eventLogBatch
  | .sliceStop .. | .slicePrepared | .sliceTestDone .. | .sliceUrgentStop .. | .sliceHp3Timeout .. | .inventoryStart
  | .perfValueLoRead .. | .perfValueHiWrite .. | .perfFreeze .. | .perfClear | .traceEnable | .leafMsMark | .statementBoundary
  | .patronCircRead .. | .i3cPrivateRead .. | .entdaa .. | .setnewda .. | .rstdaa | .enec .. | .disec .. | .getpid | .getbcr
  | .getdcr | .getstatus | .setmrl .. | .getmrl | .setmwl .. | .getmwl | .getmxds | .rstact .. | .bypass | .idcode
  | .samplePreload .. | .challenge .. | .response .. | .extest | .wrapper .. | .devRegSwap | .devOpen | .tbSlewComplete
  | .acquireLaneMissing .. | .tfCountRead .. => true
  | _ => false

/-- The commands that may write the ledger: the foot's own slot writes, the records that are written at once, and the starts. -/
def writesLedger : Instr → Bool
  | .ledgerSlotWrite | .ledgerWriteDone .. | .railCrossing .. | .closeCommit | .startPhaseDone .. | .inventoryPhaseDone .. => true
  | _ => false

/-- The commands that may begin a cold start, or end in CLOSED, and so give the layout settings their reset values (R36, R173, R482). -/
def restarts : Instr → Bool
  | .railCrossing .. | .pgoodLost | .resetPin | .closedReached | .coldStart .. | .startPhaseDone .. => true
  | _ => false

end Sys2Proof.Machine
end

