-- ==== Sys2Proof/Certificates/Slice0/Obligations.lean ====
section
/-!
DEFINITION. The statements for the provers: what a step is, what every command keeps, and what each command does.
-/

open Sys2Proof Sys2Proof.Machine

/-- A step runs the command at the front of the queue on the state with the rest of it. Every command answers a next state: the block reports
what goes wrong in its own registers and records, and stops at nothing. With no command waiting the block does its own work, which is the
model's choice (log entry 1). The model's choices that this rests on: log entry 1. -/
def Obligations.StepRunsFrontCommand : Prop :=
  (∀ (s : State) (c : Instr), step { s with pending := c :: s.pending } = exec c s) ∧
  (∀ (s : State) (c : Instr) (rest : List Instr), s.pending = c :: rest → step s = exec c { s with pending := rest }) ∧
  (∀ s : State, s.pending = [] → step s = .next s.idle) ∧
  ∀ (c : Instr) (s : State), ∃ t, exec c s = .next t

/-- The machine at reset: no command waits; every symbol of DRAM reads 0 (R149, log entry 2) and the DRAM is in its canonical form; the ledger
holds no record; the layout is unlocked with the shaft hash on (R36, Table 2.4) and 4 units reserved (Table 7.12); LV16 is the factory
reserve and the other levels hold the shelves in ascending order (R24); no port and no patron is enabled, every ring DISABLED, every link
DISABLED; the device is STARTING at phase 0 (Table 21.2). The model's choices that this rests on: log entries 2, 108. -/
def Obligations.ResetLeavesTheMachine : Prop :=
  State.reset.memWf ∧ State.reset.pending = [] ∧ (∀ a, State.reset.readSym a = 0) ∧ State.reset.ledger.records = [] ∧
    State.reset.layout.shaftHash = true ∧ State.reset.layout.locked = false ∧ State.reset.layout.reserve = 4 ∧
    State.reset.dev.rd F.DEV_STACK_FACTORY_RESERVE = 16 ∧ State.reset.dev.rd (F.LEVEL_ROLE_ROLE 16) = 1 ∧
    (∀ l < 16, State.reset.dev.rd (F.LEVEL_ROLE_ROLE l) = 0 ∧ State.reset.dev.rd (F.LEVEL_ROLE_SHELF l) = l) ∧
    (∀ p : Fin 64, State.reset.dev.rd (F.PORT_CTL_ENABLE p) = 0 ∧ ∀ k : Fin 4, State.reset.dev.lst (4 * p.val + k) = 0) ∧
    (∀ p : Fin 4096, State.reset.dev.rd (F.PATRON_CTL_ENABLE p) = 0 ∧ ∀ i : Fin 6, State.reset.dev.ringState p i = ringDisabled) ∧
    State.reset.dev.rd F.DEV_STATUS_STATE = 0 ∧ State.reset.dev.rd F.DEV_START_STATUS_PHASE = 0

/-- The places of a line (R34, R35, R46, R137). The shaft of a DPA is computed as R35 gives it; every DPA lies on a logical row of a shelf;
shaft, shelf, bank, row and line put together again give the line of the DPA, and every place of a DATA shelf is the place of exactly the
DPA that names it. Formalises R35. -/
def Obligations.LinesHavePlaces : Prop :=
  (∀ dpa, dpa < dpaEnd → dpaShaft false dpa = dpa / 2 ^ 8 % 64 ∧
    (let row := dpa / 2 ^ 25
     let fold := (row % 16) ^^^ (row / 16 % 16) ^^^ (row / 256 % 16) ^^^ (row / 4096)
     dpaShaft true dpa = dpa / 2 ^ 12 % 4 * 16 + (dpa / 2 ^ 8 % 16 ^^^ fold)) ∧
    ∀ hash, dpaShaft hash dpa < 64 ∧ dpaRow dpa < 6144 ∧ dpaLineInRow dpa < 32 ∧ roomSlice (dpaShaft hash dpa) < 16 ∧
      roomSet (dpaShaft hash dpa) dpa < 8192 ∧
      dpaOf hash (dpaShaft hash dpa) (dpaShelf dpa) (dpaBank dpa) (dpaRow dpa) (dpaLineInRow dpa) = dpa / 64 * 64) ∧
  ∀ hash shaft shelf bank row line, shaft < 64 → shelf < 16 → bank < 16 → row < 6144 → line < 32 →
    let dpa := dpaOf hash shaft shelf bank row line
    dpa < dpaEnd ∧ dpaShaft hash dpa = shaft ∧ dpaShelf dpa = shelf ∧ dpaBank dpa = bank ∧ dpaRow dpa = row ∧ dpaLineInRow dpa = line

/-- Every step keeps the DRAM in its canonical form: from any state whose list of symbols is strictly rising and lists nothing that an
unlisted symbol reads as, whatever command is at the front of the queue, and with none. -/
def Obligations.StepKeepsMemoryCanonical : Prop :=
  ∀ s t : State, s.memWf → step s = .next t → t.memWf

/-- No step changes what final test and the board fix (R2, R3, R24, R360, R402, R487), and a step takes exactly the front command off the
queue. -/
def Obligations.StepsLeaveFusesAndQueue : Prop :=
  ∀ s t : State, step s = .next t → t.fuses = s.fuses ∧ t.pending = s.pending.tail

/-- Once OPEN has locked the layout (R36, R173, R482), no command but those that may begin a cold start or end in CLOSED changes the shaft
hash, the reserve, the keeper port or the lock, and the block's own work does not. -/
def Obligations.LockedLayoutStays : Prop :=
  ∀ s t : State, s.layout.locked = true → (∀ c, s.pending.head? = some c → restarts c = false) → step s = .next t → t.layout = s.layout

/-- The frame of DRAM and ledger: a command that stores nothing leaves every symbol of DRAM as it was, and the ledger is changed by none but
the foot's own writes (R302), the records that are written at once (R408, R416, R499), and the start (R498); every other command leaves
every block of it as it was, as does the block's own work. The model's choices that this rests on: log entries 1, 9. -/
def Obligations.StoresAndLedgerWritesAreNamed : Prop :=
  (∀ (s t : State) (c : Instr), storesNothing c = true → exec c s = .next t → ∀ a, t.readSym a = s.readSym a) ∧
  (∀ (s t : State) (c : Instr), writesLedger c = false → exec c s = .next t → t.ledger = s.ledger) ∧
  ∀ s : State, s.idle.ledger = s.ledger

/-- Words of the shaft taken apart are the words put together (R77, R78, Tables 4.4 and 4.5): every command word has even parity, and its
level, bank, row or opcode and operand come out as they went in, for every value the fields admit. -/
def Obligations.ShaftWordsComeApart : Prop :=
  ∀ level bank : Nat, level < 32 → bank < 16 →
    (∀ row, row < 8192 →
      oddParity (actWord level bank row) = false ∧ (cmdFields (actWord level bank row)).isAct = true ∧
      (cmdFields (actWord level bank row)).level = level ∧ (cmdFields (actWord level bank row)).bank = bank ∧
      (cmdFields (actWord level bank row)).row = row) ∧
    (∀ op operand, op < 16 → operand < 512 →
      oddParity (cmdWord level bank op operand) = false ∧
      (cmdFields (cmdWord level bank op operand)).isAct = false ∧
      (cmdFields (cmdWord level bank op operand)).level = level ∧ (cmdFields (cmdWord level bank op operand)).bank = bank ∧
      (cmdFields (cmdWord level bank op operand)).op = op ∧ (cmdFields (cmdWord level bank op operand)).operand = operand)

/-- ACT (R78, R81, R91, R112, R117). A bay that holds a token for the level activates a row of an IDLE bank, a logical row or the spare row of
the open withdrawal: the bank is ACTIVATING with that row, both ends count the activation, the row's count rises by 1, and the history
gains the activation. Without a token, or where no bay drives the shaft, nothing happens. The 512th activation of a row (R113, R114): the
row's count starts again at 0, a targeted-refresh claim of the row takes the first empty slot, and ROW_ACT_TRIGGERS of the level counts
it, saturating. The model's choices that this rests on: log entry 3. -/
def Obligations.ActivationsOpenRows : Prop :=
  (∀ (s : State) (shaft : Fin 64) (level : Fin 17) (bank : Fin 16) (row : BitVec 13) (patron : Fin 4096),
     let sh := shelfKey shaft level
     let k := bankKey shaft level bank
     let rk := rowKey shaft level bank (s.dev.physRow shaft level bank row.toNat)
     (s.dev.portReady shaft level = true → s.dev.actAllowed shaft level patron = true → (s.dev.bank k).st = .idle →
       (row.toNat < 6144 ∨ row.toNat < 6208 ∧ (s.dev.shelf sh).wdOpen = true ∧ (s.dev.shelf sh).wdBank = bank.val) →
       s.dev.openClaims sh < 32 → (s.dev.shelf sh).acts < s.dev.portGrant level + 2 → SMap.get 0 s.dev.rowCounts rk < 511 →
       ∃ t, exec (.act shaft level bank row patron false { down := 0, up := 0 }) s = .next t ∧ s.frame t [] ∧
         t.dev.bank k = { st := .activating, row := row.toNat, written := false, op := .act } ∧
         (∀ j, j ≠ k → t.dev.bank j = s.dev.bank j) ∧
         (t.dev.shelf sh).acts = (s.dev.shelf sh).acts + 1 ∧ (t.dev.shelf sh).bayActs = (s.dev.shelf sh).bayActs + 1 ∧
         SMap.get 0 t.dev.rowCounts rk = SMap.get 0 s.dev.rowCounts rk + 1 ∧
         (∀ j, j ≠ rk → SMap.get 0 t.dev.rowCounts j = SMap.get 0 s.dev.rowCounts j) ∧
         (t.dev.shaft shaft).hist =
           ({ level := level, bank := bank, row := row.toNat, patron := patron } :: (s.dev.shaft shaft).hist).take 512 ∧
         t.dev.raised = s.dev.raised) ∧
     (∀ bad noise, (s.dev.shaftDriven shaft && s.dev.actAllowed shaft level patron) = false →
       exec (.act shaft level bank row patron bad noise) s = .next s)) ∧
  (∀ (s : State) (shaft : Fin 64) (level : Fin 17) (bank : Fin 16) (row : BitVec 13) (patron : Fin 4096) (i : Nat),
     let sh := shelfKey shaft level
     let rk := rowKey shaft level bank (s.dev.physRow shaft level bank row.toNat)
     s.dev.portReady shaft level = true → s.dev.actAllowed shaft level patron = true →
     (s.dev.bank (bankKey shaft level bank)).st = .idle → row.toNat < 6144 → s.dev.openClaims sh < 32 →
     (s.dev.shelf sh).acts < s.dev.portGrant level + 2 → SMap.get 0 s.dev.rowCounts rk = 511 → s.dev.freeClaim sh = some i →
     ∃ t, exec (.act shaft level bank row patron false { down := 0, up := 0 }) s = .next t ∧ s.frame t [F.ROW_ACT_TRIGGERS level] ∧
       SMap.get 0 t.dev.rowCounts rk = 0 ∧
       (∃ c, t.dev.claimAt (sh * 32 + i) = some c ∧ c.bank = bank.val ∧ c.row = row.toNat) ∧
       t.dev.rd (F.ROW_ACT_TRIGGERS level) = min (s.dev.rd (F.ROW_ACT_TRIGGERS level) + 1) (2 ^ 32 - 1))

/-- RD, WR, SRR, SRW and CAL modes 1 and 2 (R73, Table 4.5): where a READY port accepts the command and the transfer order has room, the
command takes the last place of the shaft's transfer order, with the row that the bank holds open, AP where the word or CLOSED_PAGE asks
for it, and the word SRW writes; no bank changes. -/
def Obligations.DataMovesJoinTheOrder : Prop :=
  ∀ (s : State) (shaft : Fin 64) (level : Fin 17), s.dev.portReady shaft level = true → s.dev.orderRoom shaft = true →
    s.dev.countersOff = true →
    let joins := fun (c : Instr) (x : Xfer) => ∃ t, exec c s = .next t ∧ s.frame t [] ∧ t.dev.banks = s.dev.banks ∧
      (t.dev.shaft shaft).order = (s.dev.shaft shaft).order ++ [x]
    (∀ (bank : Fin 16) (line : Fin 32) (ap : Bool) (cls : Fin 8) (grp : Fin 256),
      (s.dev.bank (bankKey shaft level bank)).st = .opened →
      (∀ (patron : Fin 4096) scrub, joins (.rd shaft level bank line ap cls grp patron scrub { down := 0, up := 0 })
        { level := level, bank := bank, row := (s.dev.bank (bankKey shaft level bank)).row, line := line, kind := .read,
          ap := ap || s.dev.flag (F.SHAFT_CTL_CLOSED_PAGE shaft), cls := cls, grp := grp, patron := patron, scrub := scrub }) ∧
      joins (.wr shaft level bank line ap cls grp { down := 0, up := 0 })
        { level := level, bank := bank, row := (s.dev.bank (bankKey shaft level bank)).row, line := line, kind := .write,
          ap := ap || s.dev.flag (F.SHAFT_CTL_CLOSED_PAGE shaft), cls := cls, grp := grp }) ∧
    (∀ word : BitVec 9, joins (.srr shaft level word { down := 0, up := 0 })
      { level := level, bank := 0, row := 0, line := 0, kind := .srr, word := word.toNat }) ∧
    (∀ data : Word, joins (.srw shaft level 288 data { down := 0, up := 0 })
      { level := level, bank := 0, row := 0, line := 0, kind := .srw, word := 288, data := data }) ∧
    joins (.calWritePattern shaft level { down := 0, up := 0 })
      { level := level, bank := 0, row := 0, line := 0, kind := .calWrite, cls := 7 } ∧
    joins (.calReadPattern shaft level { down := 0, up := 0 })
      { level := level, bank := 0, row := 0, line := 0, kind := .calRead, cls := 7 }

/-- PRE, REF, TREF and SREF (R81, R82, R107, R108, R114, R125): where a READY port accepts the command, PRE puts its OPEN bank (or, in its
form for all banks, every OPEN bank) into PRECHARGING, REF its IDLE bank into REFRESHING with OWED one lower, not below -8, and the
refresh counter four rows on, TREF closes its claim and refreshes the claim's bank, SREF enter puts an all-IDLE shelf into SELF_REFRESH
without claims; SREF exit makes it READY with OWED 0 in every bank. The ends of a bank's operation (R81, R83, R84): an ACTIVATING bank
becomes OPEN with its row, a PRECHARGING or REFRESHING bank IDLE, each with its DONE bit; COMPLETION_FORCED ends any of them IDLE with the
port's FAULT set; COMPLETION_LATE raises its fault while the bay still waits. A completion below its floor raises COMPLETION_EARLY, an
activation above 40 ns ACT_SLOW. The model's choices that this rests on: log entry 5. -/
def Obligations.BankOperationsStartAndEnd : Prop :=
  (∀ (s : State) (shaft : Fin 64) (level : Fin 17), s.dev.countersOff = true →
     let sh := shelfKey shaft level
     let key := bankKey shaft level
     (s.dev.portReady shaft level = true →
       (∀ bank : Fin 16, (s.dev.bank (key bank)).st = .opened →
         ∃ t, exec (.pre shaft level bank false { down := 0, up := 0 }) s = .next t ∧ s.frame t [] ∧
           t.dev.bank (key bank) = { s.dev.bank (key bank) with st := .precharging, op := .pre } ∧
           ∀ j, j ≠ key bank → t.dev.bank j = s.dev.bank j) ∧
       (∀ bank : Fin 16, ∃ t, exec (.pre shaft level bank true { down := 0, up := 0 }) s = .next t ∧ s.frame t [] ∧
         ∀ j, t.dev.bank j =
           if j / 16 = sh ∧ (s.dev.bank j).st = .opened then { s.dev.bank j with st := .precharging, op := .pre } else s.dev.bank j) ∧
       (∀ bank : Fin 16, (s.dev.bank (key bank)).st = .idle →
         ∃ t, exec (.ref shaft level bank { down := 0, up := 0 }) s = .next t ∧ s.frame t [] ∧
           t.dev.bank (key bank) = { s.dev.bank (key bank) with st := .refreshing, op := .ref } ∧
           (∀ j, j ≠ key bank → t.dev.bank j = s.dev.bank j) ∧
           t.dev.owedOf (key bank) = max (-8) (s.dev.owedOf (key bank) - 1) ∧
           SMap.get 0 t.dev.refreshCtr (key bank) = (SMap.get 0 s.dev.refreshCtr (key bank) + 4) % 6208) ∧
       (∀ (claim : Fin 32) (c : Claim), s.dev.claimAt (sh * 32 + claim) = some c → c.bank < 16 → (s.dev.bank (key c.bank)).st = .idle →
         ∃ t, exec (.tref shaft level (BitVec.ofNat 9 claim) { down := 0, up := 0 }) s = .next t ∧ s.frame t [] ∧
           t.dev.claimAt (sh * 32 + claim) = none ∧ (∀ j, j ≠ sh * 32 + claim → t.dev.claimAt j = s.dev.claimAt j) ∧
           t.dev.bank (key c.bank) = { s.dev.bank (key c.bank) with st := .refreshing, op := .tref } ∧
           ∀ j, j ≠ key c.bank → t.dev.bank j = s.dev.bank j) ∧
       ((∀ i < 16, (s.dev.bank (key i)).st = .idle) →
         ∃ t, exec (.srefEnter shaft level { down := 0, up := 0 }) s = .next t ∧ s.frame t [] ∧
           (t.dev.shelf sh).st = .selfRefresh ∧ (∀ j, t.dev.claimAt j = if j / 32 = sh then none else s.dev.claimAt j) ∧
           t.dev.banks = s.dev.banks)) ∧
     (s.dev.shaftDriven shaft = true → s.dev.portPowered shaft level = true → (s.dev.shelf sh).st = .selfRefresh →
       ∃ t, exec (.srefExit shaft level { down := 0, up := 0 }) s = .next t ∧ s.frame t [] ∧
         (t.dev.shelf sh).st = .ready ∧ (∀ i < 16, t.dev.owedOf (key i) = 0) ∧ t.dev.banks = s.dev.banks)) ∧
  (∀ (s : State) (shaft : Fin 64) (level : Fin 17) (bank : Fin 16) (ns : Nat),
     let sh := shelfKey shaft level
     let k := bankKey shaft level bank
     let idle : Bank := { st := .idle, row := 0, written := false, op := .none }
     let ends := fun (c : Instr) (b : Bank) (faults : List FaultType) => ∃ t, exec c s = .next t ∧ s.frame t [] ∧ t.dev.bank k = b ∧
       (∀ j, j ≠ k → t.dev.bank j = s.dev.bank j) ∧ (t.dev.shelf sh).done = (s.dev.shelf sh).done ||| (1#16 <<< bank.val) ∧
       t.dev.raised.map (·.type) = s.dev.raised.map (·.type) ++ faults.map FaultType.code
     ((s.dev.bank k).st = .activating → ends (.activationComplete shaft level bank ns) { s.dev.bank k with st := .opened, op := .none }
       ((if ns < 8 then [.completionEarly] else []) ++ (if 40 < ns then [.actSlow] else []))) ∧
     ((s.dev.bank k).st = .precharging → ends (.prechargeComplete shaft level bank ns) idle
       (if ns < (if (s.dev.bank k).written then 6 else 4) then [.completionEarly] else [])) ∧
     ((s.dev.bank k).st = .refreshing → ends (.refreshComplete shaft level bank ns) idle
       (if ns < (if (s.dev.bank k).op = .tref then 12 else 24) then [.completionEarly] else [])) ∧
     ([BankSt.activating, .precharging, .refreshing].contains (s.dev.bank k).st = true →
       ends (.completionForced shaft level bank) idle [] ∧
       ∃ t, exec (.completionForced shaft level bank) s = .next t ∧ (t.dev.shelf sh).fault = true ∧ (t.dev.shelf sh).faultBank = bank.val) ∧
     ([BankSt.activating, .precharging, .refreshing].contains (s.dev.bayBank k) = true →
       exec (.completionLate shaft level bank) s = .next (s.withDev fun d => d.raise .completionLate (Src.bay shaft))) ∧
     ([BankSt.activating, .precharging, .refreshing].contains (s.dev.bayBank k) = false →
       exec (.completionLate shaft level bank) s = .next s))

/-- PING, SYNC, CAL mode 0 and the polls (R79, R80, R85, R86, R94): the report of a powered port comes up and is delivered, with the DONE bits
taken over into the bay's own bank states; no bank changes. SYNC also empties the shaft's transfer order of the level's entries, and a
failing column of group 9 that CAL mode 0 finds is passed on. ATTN_POLL does so for every powered READY level while ATTN is high,
BUSY_BANK_POLL while the bay holds a bank of the shelf busy; otherwise they change nothing. An ALERTed command of the general form
executes nothing (R76, R81, R82, Table 4.10): the port keeps the cause, the bay counts the ALERT in SHAFT_ALERTS, and banks, claims, OWED
and the transfer order stand as they were. The causes that no counter of the level counts are 2, 3, 5 and 6. The model's choices that this
rests on: log entry 7. -/
def Obligations.ReportsAndAlertsComeUp : Prop :=
  (∀ (s : State) (shaft : Fin 64) (level : Fin 17),
     let sh := shelfKey shaft level
     let delivered := fun (t : State) => s.frame t [] ∧ t.dev.banks = s.dev.banks ∧ (t.dev.shelf sh).done = 0 ∧
       (t.dev.shelf sh).fault = false ∧ (t.dev.shelf sh).baySt = .ready ∧
       ∀ i < 16, t.dev.bayBank (bankKey shaft level i) =
         if (s.dev.shelf sh).done.getLsbD i then (s.dev.bayBank (bankKey shaft level i)).afterDone
         else s.dev.bayBank (bankKey shaft level i)
     (s.dev.portReady shaft level = true →
       (∃ t, exec (.ping shaft level { down := 0, up := 0 }) s = .next t ∧ delivered t ∧
         (t.dev.shaft shaft).order = (s.dev.shaft shaft).order) ∧
       (∃ t, exec (.sync shaft level { down := 0, up := 0 }) s = .next t ∧ delivered t ∧
         (t.dev.shaft shaft).order = (s.dev.shaft shaft).order.filter (fun e => e.level ≠ level.val)) ∧
       (∀ dead, ∃ t, exec (.calEcho shaft level dead { down := 0, up := 0 }) s = .next t ∧ delivered t ∧
         t.dev.viaWanted = s.dev.viaWanted ++ (dead.map fun c => (shaft.val, 288 + c.val, level.val)).toList)) ∧
     (s.dev.portReady shaft level = true → ∀ i < 16, [BankSt.activating, .precharging, .refreshing].contains (s.dev.bayBank (bankKey shaft level i)) = true →
       ∃ t, exec (.busyBankPoll shaft level) s = .next t ∧ delivered t) ∧
     ((∀ i < 16, [BankSt.activating, .precharging, .refreshing].contains (s.dev.bayBank (bankKey shaft level i)) = false) →
       exec (.busyBankPoll shaft level) s = .next s) ∧
     (s.dev.portReady shaft level = true → s.dev.attn shaft = true →
       ∃ t, exec (.attnPoll shaft) s = .next t ∧ delivered t) ∧
     (s.dev.attn shaft = false → exec (.attnPoll shaft) s = .next s)) ∧
  (∀ (s : State) (shaft : Fin 64) (level : Fin 17) (bank : Fin 16) (cause : Nat),
     let sh := shelfKey shaft level
     let alerts := fun (c : Instr) (w : BitVec 24) =>
       s.dev.portCause shaft level (cmdFields w) = cause → [2, 3, 5, 6].contains cause = true →
       ∃ t, exec c s = .next t ∧ s.frame t [F.SHAFT_ALERTS_ALERTS shaft] ∧ (t.dev.shelf sh).alertCause = cause ∧
         t.dev.rd (F.SHAFT_ALERTS_ALERTS shaft) = min (s.dev.rd (F.SHAFT_ALERTS_ALERTS shaft) + 1) (2 ^ 16 - 1) ∧
         t.dev.banks = s.dev.banks ∧ t.dev.claims = s.dev.claims ∧ t.dev.owed = s.dev.owed ∧
         (t.dev.shaft shaft).order = (s.dev.shaft shaft).order
     s.dev.shaftDriven shaft = true → s.dev.portPowered shaft level = true →
     alerts (.pre shaft level bank false { down := 0, up := 0 }) (cmdWord level bank 0x3 0) ∧
     alerts (.ref shaft level bank { down := 0, up := 0 }) (cmdWord level bank 0x4 0) ∧
     alerts (.srefEnter shaft level { down := 0, up := 0 }) (cmdWord level 0 0x6 1) ∧
     alerts (.srefExit shaft level { down := 0, up := 0 }) (cmdWord level 0 0x6 0))

/-- The handshake and transfer watchdogs (R57, R86, R87). CMD_STALL raises its fault at the bay, and at the second stall on the same level
also at the level. A stalled transfer is counted in SHAFT_ALERTS, raised, and the shelf's entries are re-issued, marked, behind those of
the other levels; READ_START_TIMEOUT does the same where the head is a read. An illegal dual-rail word moves nothing. -/
def Obligations.StallsAreReissued : Prop :=
  ∀ (s : State) (shaft : Fin 64) (level : Fin 17),
    (∀ first, (s.dev.shaft shaft).stalled = first → ∃ t, exec (.cmdStall shaft level false) s = .next t ∧ s.frame t [] ∧
      (t.dev.shaft shaft).stalled = (if first = some level.val then none else some level.val) ∧
      (t.dev.shaft shaft).order = (s.dev.shaft shaft).order ∧
      t.dev.raised = s.dev.raised ++ ({ type := FaultType.cmdStall.code, source := Src.bay shaft, detail := 0 } ::
        if first = some level.val then [{ type := FaultType.cmdStall.code, source := Src.level level, detail := 0 }] else [])) ∧
    (∀ x rest, (s.dev.shaft shaft).order = x :: rest →
      let again := fun (c : Instr) => ∃ t, exec c s = .next t ∧ s.frame t [F.SHAFT_ALERTS_BEAT_STALLS shaft] ∧
        t.dev.rd (F.SHAFT_ALERTS_BEAT_STALLS shaft) = min (s.dev.rd (F.SHAFT_ALERTS_BEAT_STALLS shaft) + 1) (2 ^ 8 - 1) ∧
        (t.dev.shaft shaft).order = (x :: rest).filter (fun e => e.level ≠ x.level) ++
          ((x :: rest).filter (fun e => e.level = x.level)).map (fun e => { e with retried := true })
      (x.retried = false → again (.beatStall shaft)) ∧
      (x.retried = false → [XferKind.read, .srr, .calRead].contains x.kind = true → again (.readStartTimeout shaft)) ∧
      ([XferKind.read, .srr, .calRead].contains x.kind = false → exec (.readStartTimeout shaft) s = .next s) ∧
      ∀ wire, ∃ src, exec (.lineTransfer shaft wire true) s = .next (s.withDev fun d => d.raise .dualRailIllegal src) ∧
        (src = Src.bay shaft ∨ src = Src.level x.level)) ∧
    ((s.dev.shaft shaft).order = [] → exec (.beatStall shaft) s = .next s ∧ exec (.readStartTimeout shaft) s = .next s ∧
      ∀ wire illegal, exec (.lineTransfer shaft wire illegal) s = .next s)

/-- LINE_TRANSFER (R72, R73, R134, R142, Table 6.5): the transfer at the head of a shaft's order is done and leaves it. A read of a line that
the merge buffer holds is served from there; any other read delivers what the decoder makes of the stored line and the wires; a steward
read delivers its block; a write stores its ISSUED entry's coded line as the wires carried it, also in the copied spare row of an open
withdrawal, and nothing else in DRAM changes. Stated where no event counter is enabled and no write or flush waits for the shaft. The
model's choices that this rests on: log entry 115. -/
def Obligations.LineTransferMovesTheLine : Prop :=
  ∀ (s : State) (shaft : Fin 64) (x : Xfer) (rest : List Xfer) (wire : CodeWord),
    let bay := s.dev.drivingBay shaft
    let loc := s.dev.xferLoc shaft x
    (s.dev.shaft shaft).order = x :: rest → x.scrub = false → s.dev.mergeWaits = [] → s.dev.flushWait = [] →
    s.dev.countersOff = true →
    let delivers := fun (data : LineData) (poison : Bool) => ∃ t, exec (.lineTransfer shaft wire false) s = .next t ∧ s.frame t [] ∧
      (t.dev.shaft shaft).order = rest ∧ (t.dev.shaft shaft).lastData = data ∧ (t.dev.shaft shaft).lastPoison = poison
    (x.kind = .read → ∀ e, s.dev.mergeNewest bay loc = some e → delivers e.data e.poison) ∧
    (x.kind = .read → s.dev.mergeNewest bay loc = none →
      (s.dev.mergeOf bay).any (fun e => e.loc = loc && e.st = .filling) = false →
      ∀ r, decodeLine (readLine s.mem loc ^^^ wire) (s.dev.erasures (locShaft loc) (locLevel loc)) = r → r.outcome = .clean →
      delivers r.data r.poison) ∧
    (x.kind = .srr → s.dev.openClaims (shelfKey shaft x.level) = 0 → ∀ r, decodeLine (encodeLine (s.dev.stewardBlock shaft x.level x.word) false ^^^ wire)
        (s.dev.erasures shaft x.level) = r → r.outcome = .clean → delivers r.data false) ∧
    (x.kind = .write → ∀ e, s.dev.mergeIssued bay loc = some e → e.room = false →
      ∃ t, exec (.lineTransfer shaft wire false) s = .next t ∧
        s.frameBut t (fun a => a / 72 = loc ∨ ∃ c, s.dev.withdrawnCopy loc = some c ∧ a / 72 = c) [F.MERGE_STATUS_OCCUPANCY bay] ∧
        (∀ j < 72, t.readSym (loc * 72 + j) = BitVec.ofNat 8 (CodeWord.sym (encodeLine e.data e.poison ^^^ wire) j)) ∧
        (t.dev.shaft shaft).order = rest ∧ (t.dev.bank (bankKey shaft x.level x.bank)).written = true)

/-- A full calibration pass, its start, and a tracking pass (R93, R94, R95, R96). The pass sets every delay code of the shaft from its
smallest passing code, 1.20 times it rounded up plus one, 63 from 52 on; CALIBRATED and BEAT_RATE are set, BELOW_FLOOR below 3,200 MT/s.
The start bit reads 1 until the pass begins. A tracking pass moves one tested code by at most one step; a failing code rises by four and
is counted as a slip. -/
def Obligations.CalibrationSetsCodes : Prop :=
  ∀ (s : State) (shaft : Fin 64), s.dev.countersOff = true →
    (∀ smallest rate twin, ∃ t, exec (.calFullPass shaft smallest rate twin) s = .next t ∧
      s.frame t [F.SHAFT_STATUS_CALIBRATED shaft, F.SHAFT_STATUS_CAL_RUNNING shaft, F.SHAFT_STATUS_BEAT_RATE shaft,
        F.SHAFT_CTL_CAL_START shaft, F.SHAFT_STATUS_BELOW_FLOOR shaft] ∧
      (∀ i < 53, SMap.get 63 t.dev.calCodes (calKey shaft i) =
        if 52 ≤ smallest.getD i 63 then 63 else (6 * smallest.getD i 63 + 4) / 5 + 1) ∧
      t.dev.rd (F.SHAFT_STATUS_CALIBRATED shaft) = 1 ∧ t.dev.rd (F.SHAFT_STATUS_CAL_RUNNING shaft) = 0 ∧
      t.dev.rd (F.SHAFT_STATUS_BEAT_RATE shaft) = min rate 4095 ∧ t.dev.rd (F.SHAFT_CTL_CAL_START shaft) = 0 ∧
      t.dev.rd (F.SHAFT_STATUS_BELOW_FLOOR shaft) = if rate < 3200 then 1 else 0) ∧
    (∃ t, exec (.calStart shaft) s = .next t ∧ s.frame t [F.SHAFT_CTL_CAL_START shaft] ∧ t.dev.rd (F.SHAFT_CTL_CAL_START shaft) = 1) ∧
    (∀ i r, i < 53 → ∃ t, exec (.calTrackingPass shaft [(i, r)]) s = .next t ∧
      s.frame t [F.SHAFT_STATUS_CAL_SLIPS shaft, F.SHAFT_STATUS_CAL_RUNNING shaft] ∧
      (let c := SMap.get 63 s.dev.calCodes (calKey shaft i)
       SMap.get 63 t.dev.calCodes (calKey shaft i) = match r with
         | .down => c - 1 | .hold => c | .up => min 63 (c + 1) | .failed => min 63 (c + 4)) ∧
      (∀ j, j ≠ calKey shaft i → SMap.get 63 t.dev.calCodes j = SMap.get 63 s.dev.calCodes j) ∧
      (r ≠ .failed → t.dev.fields = s.dev.fields) ∧ (r = .failed → t.dev.rd (F.SHAFT_STATUS_CAL_RUNNING shaft) = 1))

/-- REFRESH_PACER_STEP (R106, R108, R110, R125): OWED of a bank rises by 1 up to 16; reaching 12 counts REFRESH_LATE, reaching 16 raises
REFRESH_MISSED, and further steps are counted; in self-refresh the port refreshes four rows itself; a RETIRED level or an unpowered port
takes no step. Targeted-refresh claims and row-activity clamps (R116, R118, R119): TREF_DEADLINE marks an open claim, TREF_LATE counts and
raises it, neither while the shelf recovers nor for an empty slot; ROW_ACT_WINDOW starts every patron's trigger count again; a clamp that
software clears is no longer ACTIVE. A3_RECOMPUTE (R127, R221): a bay whose reserved tokens differ from the need computed anew asks for a
feasibility check; where none differs nothing happens. The model's choices that this rests on: log entries 5, 70. -/
def Obligations.RefreshIsOwedAndClaimed : Prop :=
  (∀ (s : State) (shaft : Fin 64) (level : Fin 17) (bank : Fin 16),
     let k := bankKey shaft level bank
     let o := s.dev.owedOf k
     let step := Instr.refreshPacerStep shaft level bank
     ((s.dev.role level = 2 ∨ s.dev.portPowered shaft level = false) → exec step s = .next s) ∧
     (s.dev.role level ≠ 2 → s.dev.portPowered shaft level = true →
       ((s.dev.shelf (shelfKey shaft level)).st = .selfRefresh → ∃ t, exec step s = .next t ∧ s.frame t [] ∧ t.dev.owed = s.dev.owed ∧
         SMap.get 0 t.dev.refreshCtr k = (SMap.get 0 s.dev.refreshCtr k + 4) % 6208 ∧
         ∀ i < 4, SMap.get 0 t.dev.rowCounts (rowKey shaft level bank ((SMap.get 0 s.dev.refreshCtr k + i) % 6208)) = 0) ∧
       ((s.dev.shelf (shelfKey shaft level)).st ≠ .selfRefresh →
         (o < 16 → ∃ t, exec step s = .next t ∧ s.frame t [F.REFRESH_FAULTS_LATE level] ∧ t.dev.owedOf k = o + 1 ∧
           (∀ j, j ≠ k → t.dev.owedOf j = s.dev.owedOf j) ∧
           t.dev.rd (F.REFRESH_FAULTS_LATE level) =
             (if o = 11 then min (s.dev.rd (F.REFRESH_FAULTS_LATE level) + 1) (2 ^ 8 - 1) else s.dev.rd (F.REFRESH_FAULTS_LATE level)) ∧
           t.dev.raised.map (·.type) = s.dev.raised.map (·.type) ++
             (if o = 11 then [FaultType.refreshLate.code] else if o = 15 then [FaultType.refreshMissed.code] else [])) ∧
         (16 ≤ o → ∃ t, exec step s = .next t ∧ s.frame t [F.REFRESH_FAULTS_MISSED level] ∧ t.dev.owed = s.dev.owed ∧
           t.dev.rd (F.REFRESH_FAULTS_MISSED level) = min (s.dev.rd (F.REFRESH_FAULTS_MISSED level) + 1) (2 ^ 8 - 1))))) ∧
  (∀ (s : State) (shaft : Fin 64) (level : Fin 17) (slot : Fin 32) (clamp : Fin 16),
     let sh := shelfKey shaft level
     let k := sh * 32 + slot
     (∀ c, s.dev.claimAt k = some c → (s.dev.shelf sh).st ≠ .recovering →
       (∃ t, exec (.trefDeadline shaft level slot) s = .next t ∧ s.frame t [] ∧ t.dev.claimAt k = some { c with deadline := true } ∧
         ∀ j, j ≠ k → t.dev.claimAt j = s.dev.claimAt j) ∧
       ∃ t, exec (.trefLate shaft level slot) s = .next t ∧ s.frame t [F.REFRESH_FAULTS_TREF_LATE level] ∧
         t.dev.rd (F.REFRESH_FAULTS_TREF_LATE level) = min (s.dev.rd (F.REFRESH_FAULTS_TREF_LATE level) + 1) (2 ^ 8 - 1) ∧
         t.dev.raised = s.dev.raised ++ [{ type := FaultType.trefLate.code, source := Src.bay (s.dev.drivingBay shaft), detail := 0 }]) ∧
     ((s.dev.claimAt k = none ∨ (s.dev.shelf sh).st = .recovering) →
       exec (.trefDeadline shaft level slot) s = .next s ∧ exec (.trefLate shaft level slot) s = .next s) ∧
     (∃ t, exec .rowActWindow s = .next t ∧ s.frame t [] ∧ t.dev.triggers = [] ∧ t.dev.offended = []) ∧
     (∃ t, exec (.rowActClampClear clamp) s = .next t ∧ s.frame t [F.ROW_ACT_CLAMP_ACTIVE clamp] ∧
       t.dev.rd (F.ROW_ACT_CLAMP_ACTIVE clamp) = 0)) ∧
  (∀ s : State,
     (∀ b, b < 64 → (s.dev.bayTokens b).a3 ≠ s.dev.a3Need → ∃ t, exec .a3Recompute s = .next t ∧ s.frame t [] ∧ t.dev.recheck = true) ∧
     ((∀ b, b < 64 → (s.dev.bayTokens b).a3 = s.dev.a3Need) → exec .a3Recompute s = .next s))

/-- Resets of a level's steward (R123, R124, Table 5.2): the reset counts, raises STEWARD_RESET, sets REQ and RECOVERING, puts every shelf of
the level that is not in self-refresh into RECOVERING with all its banks IDLE, and leaves other levels' banks alone; LEVEL_RESET_REQ only
sets REQ; the REFs of RECOVERING_REF_TIMER reach only a RECOVERING shelf; STEWARD_RESET_DONE samples the sensors, loads the local count,
clears REQ and RECOVERING, makes the RECOVERING shelves READY, and lets what waited go on; without a reset under way it changes nothing.
The model's choices that this rests on: log entries 5, 113. -/
def Obligations.StewardResetRecovers : Prop :=
  ∀ (s : State) (level : Fin 17),
    (∃ t, exec (.levelStewardReset level) s = .next t ∧
      s.frame t [F.LEVEL_RESET_REQ level, F.LEVEL_RESET_RECOVERING level, F.LEVEL_RESET_RESETS level] ∧
      t.dev.rd (F.LEVEL_RESET_REQ level) = 1 ∧ t.dev.rd (F.LEVEL_RESET_RECOVERING level) = 1 ∧
      t.dev.rd (F.LEVEL_RESET_RESETS level) = min (s.dev.rd (F.LEVEL_RESET_RESETS level) + 1) (2 ^ 8 - 1) ∧
      t.dev.raised = s.dev.raised ++ [{ type := FaultType.stewardReset.code, source := Src.level level, detail := 0 }] ∧
      (∀ n < 64, (t.dev.shelf (shelfKey n level)).st =
        if (s.dev.shelf (shelfKey n level)).st = .selfRefresh then .selfRefresh else .recovering) ∧
      (∀ n < 64, (s.dev.shelf (shelfKey n level)).st ≠ .selfRefresh → ∀ i < 16, (t.dev.bank (bankKey n level i)).st = .idle) ∧
      ∀ n l i, l < 17 → i < 16 → l ≠ level.val → t.dev.bank (bankKey n l i) = s.dev.bank (bankKey n l i)) ∧
    (∃ t, exec (.levelResetReq level) s = .next t ∧ s.frame t [F.LEVEL_RESET_REQ level] ∧ t.dev.rd (F.LEVEL_RESET_REQ level) = 1) ∧
    (∀ shaft : Fin 64, ((s.dev.shelf (shelfKey shaft level)).st ≠ .recovering → exec (.recoveringRefTimer shaft level) s = .next s) ∧
      ((s.dev.shelf (shelfKey shaft level)).st = .recovering → s.dev.shaftDriven shaft = true → s.dev.portPowered shaft level = true →
        s.dev.countersOff = true → (∀ i < 16, (s.dev.bank (bankKey shaft level i)).st = .idle) →
        ∃ t, exec (.recoveringRefTimer shaft level) s = .next t ∧ s.frame t [] ∧
          ∀ i < 16, (t.dev.bank (bankKey shaft level i)).st = .refreshing ∧
            t.dev.owedOf (bankKey shaft level i) = max (-8) (s.dev.owedOf (bankKey shaft level i) - 1))) ∧
    (∀ readings, s.dev.rd (F.LEVEL_RESET_RECOVERING level) = 0 → exec (.stewardResetDone level readings) s = .next s) ∧
    (∀ readings, s.dev.rd (F.LEVEL_RESET_RECOVERING level) ≠ 0 →
      exec (.stewardResetDone level readings) s =
        .next (((s.levelSample level readings).withDev fun d => d.stewardReady level).levelReopened level)) ∧
    ∀ d : Dev, (d.stewardReady level).rd (F.LEVEL_RESET_REQ level) = 0 ∧ (d.stewardReady level).rd (F.LEVEL_RESET_RECOVERING level) = 0 ∧
      SMap.get 0 (d.stewardReady level).localCount level = d.time ∧
      ∀ n < 64, (d.shelf (shelfKey n level)).st = .recovering → ((d.stewardReady level).shelf (shelfKey n level)).st = .ready

/-- A register written takes each of its fields by the field's access code (R11, Table 0.7): RW and WO fields take the bits written, a one
written to a W1C field clears it, every other field stands; no field of another register changes. -/
def Obligations.AccessCodesRuleWrites : Prop :=
  ∀ (d : Dev) (r : RegName) (i j v : Nat),
    (∀ f ∈ r.fields i j, (d.writePlain r i j v).rd f = match f.acc with
      | .rw | .wo => v / 2 ^ f.lo % 2 ^ f.width
      | .w1c => if v / 2 ^ f.lo % 2 ^ f.width = 0 then d.rd f else 0
      | _ => d.rd f) ∧
    ∀ g : Field, g.key ∉ (r.fields i j).map Field.key → (d.writePlain r i j v).rd g = d.rd g

/-- REGISTER_WRITE (R11, R477, R478). At an address without a register nothing changes; a write that only the keeper port may make is refused
to another path and counted in DENIED; a register of plain fields takes them by their access codes and nothing else changes. The model's
choices that this rests on: log entry 97. -/
def Obligations.RegisterWriteCompletes : Prop :=
  ∀ (s : State) (addr value : Word),
    (regAt addr = none → exec (.registerWrite .mailbox addr value) s = .next s) ∧
    ((regAt addr).isSome = true → s.reserved addr = true →
      ∃ t, exec (.registerWrite .mailbox addr value) s = .next t ∧ s.frame t [F.FOOT_I3C_STATUS_DENIED] ∧
        t.dev.rd F.FOOT_I3C_STATUS_DENIED = min (s.dev.rd F.FOOT_I3C_STATUS_DENIED + 1) (2 ^ F.FOOT_I3C_STATUS_DENIED.width - 1)) ∧
    (∀ r i j, regAt addr = some (r, i, j) → s.reserved addr = false → s.absentAt addr.toNat = false → r.takesPlain = true →
      ∃ t, exec (.registerWrite .mailbox addr value) s = .next t ∧
        s.frame t (F.DEV_REASON_CODE :: r.fields i j) ∧ (t.dev.rd F.DEV_REASON_CODE = s.dev.rd F.DEV_REASON_CODE) ∧
        ∀ f ∈ r.fields i j, t.dev.rd f = (s.dev.writePlain r i j value.toNat).rd f)

/-- Reads with an effect and the time base (R11, R67, R68, R70). A read of TB_TIME_LO captures the upper half of the time base into
TB_TIME_HI; LO reads the lower half, and HI, read at any time, what is held from the last read of LO; a read of a translation-fault count
returns it and clears it; LOCAL_TIME_CHECK notes every die's count and marks for reload exactly those more than 8 ns off; TB_SLEW_COMPLETE
moves the time base by what was left to slew, and SLEWING ends. Formalises R68. -/
def Obligations.TimeIsReadAndCorrected : Prop :=
  ∀ s : State,
    (exec .tbTimeLoRead s = .next (s.withDev fun d => d.wr F.TB_TIME_HI_TIME (s.dev.time / 2 ^ 32))) ∧
    (s.regValue .TB_TIME_LO 0 0 = s.dev.time % 2 ^ 32 ∧ s.regValue .TB_TIME_HI 0 0 = s.dev.rd F.TB_TIME_HI_TIME) ∧
    (∃ t, exec .tbTimeLoRead s = .next t ∧ t.regValue .TB_TIME_LO 0 0 + 2 ^ 32 * t.regValue .TB_TIME_HI 0 0 = s.dev.time % 2 ^ 64) ∧
    (∀ (patron : Fin 4096) (i : Fin 8), s.patronExists patron = true →
      ∃ t, exec (.tfCountRead patron i) s = .next t ∧ s.frame t [F.TF_COUNT_COUNT patron i] ∧
        t.dev.mgmt.word = s.dev.rd (F.TF_COUNT_COUNT patron i) ∧ t.dev.rd (F.TF_COUNT_COUNT patron i) = 0) ∧
    (∀ (patron : Fin 4096) (i : Fin 8), s.patronExists patron = false → exec (.tfCountRead patron i) s = .next s) ∧
    (∀ counts, ∃ t, exec (.localTimeCheck counts) s = .next t ∧ s.frame t [] ∧
      ∀ die < 18, (∃ n, n = counts.getD die s.dev.time ∧ SMap.get 0 t.dev.localCount die = n ∧
        (die ∈ t.dev.localReload ↔ die ∈ s.dev.localReload ∨ n + 8 < s.dev.time ∨ s.dev.time + 8 < n))) ∧
    (∃ t, exec .tbSlewComplete s = .next t ∧ t.dev.rd F.TB_STATUS_SLEWING = 0 ∧ t.dev.slewRest = 0 ∧
      (s.dev.slewRest < 0 → t.dev.time = ((s.dev.time : Int) + s.dev.slewRest).toNat ∧ s.frame t [F.TB_STATUS_SLEWING]))

/-- PACE_WINDOW (R58, R59, R60, R393). For every zone, PACE takes the lowest of its four monitors, saturating at 4,095; VOLT goes up by two
steps, to at most 60, below 3,360, and down by one, to at least 4, in the eighth window running at 3,680 or above; GUARD says whether PACE
is below 3,360. While HP2's gate is closed VOLT holds. No register but the zones' own and SAFE_STATUS.PACE changes. Tick columns and
handshake stalls (R22, R23, R66). A die's first failed tick column sets TICK_DEGRADED and nothing else; a second one takes the device to
the safe state (log entry 21). A stall of any channel is queued with its channel while faults wait, but one inside the registrar is taken
at once, as every stall is where none wait. A lending-period boundary (R69, R90, R203). In CLOSED nothing happens. Otherwise the period
that ends is closed at the next mark of the time base, a step is applied, and every unit takes its orders: all spent counts start again,
every local count that was to be reloaded holds the time base, every activation count of a shelf starts again, and a calibration pass
asked for runs. The model's choices that this rests on: log entries 5, 21, 70, 87. -/
def Obligations.PacePeriodsAndTicks : Prop :=
  (∀ (s : State) (counts : List Nat),
     ∃ t, exec (.paceWindow counts) s = .next t ∧
       s.frame t (F.SAFE_STATUS_PACE :: (List.range 16).flatMap fun z =>
         [F.PACE_ZONE_PACE z, F.PACE_ZONE_VOLT z, F.PACE_ZONE_GUARD z, F.PACE_ZONE_BELOW_FLOOR z, F.PACE_ZONE_AT_CEILING z]) ∧
       ∀ z < 16,
         let p := min 4095 (min (min (counts.getD (4 * z) 0) (counts.getD (4 * z + 1) 0))
           (min (counts.getD (4 * z + 2) 0) (counts.getD (4 * z + 3) 0)))
         let volt := s.dev.rd (F.PACE_ZONE_VOLT z)
         let high := if 3680 ≤ p then (s.dev.paceRuns z).highRun + 1 else 0
         t.dev.rd (F.PACE_ZONE_PACE z) = p ∧ t.dev.rd (F.PACE_ZONE_GUARD z) = (if p < 3360 then 1 else 0) ∧
         (s.dev.rd (F.CLK_PLL_STATUS_GATE_OPEN 2) ≠ 0 → volt ≤ 60 →
           t.dev.rd (F.PACE_ZONE_VOLT z) = if p < 3360 then min 60 (volt + 2) else if high = 8 then max 4 (volt - 1) else volt) ∧
         (s.dev.rd (F.CLK_PLL_STATUS_GATE_OPEN 2) = 0 → volt ≤ 60 → t.dev.rd (F.PACE_ZONE_VOLT z) = volt)) ∧
  (∀ s : State,
     (∀ (die : Fin 18) (column : Fin 3),
       (SMap.get 0 s.dev.tickFailed die = 0 → ∃ t, exec (.tickColumnFault die column) s = .next t ∧
         s.frame t [F.DEV_STACK_TICK_DEGRADED] ∧ t.dev.rd F.DEV_STACK_TICK_DEGRADED = 1 ∧
         SMap.get 0 t.dev.tickFailed die = 2 ^ column.val) ∧
       (∀ other : Fin 3, other ≠ column → SMap.get 0 s.dev.tickFailed die = 2 ^ other.val →
         ∃ u : State, exec (.tickColumnFault die column) s = .next u.safeEnter ∧ s.frame u [F.DEV_STACK_TICK_DEGRADED] ∧
           u.dev.rd F.DEV_STACK_TICK_DEGRADED = 1 ∧ SMap.get 0 u.dev.tickFailed die = 2 ^ column.val + 2 ^ other.val)) ∧
     (∀ (channel : StallChannel) (lost : List Nat),
       let source := match channel with
         | .datapath x => x.toNat
         | .registryLine x => x.toNat
         | .registrarInternal => s.dev.rd F.DEV_REG_ACTIVE
         | .footInternal => Src.foot 0
       let code := match channel with
         | .datapath _ => 1
         | .registryLine _ => 2
         | .registrarInternal => 3
         | .footInternal => 4
       let f : RaisedFault := { type := FaultType.handshakeStall.code, source := source, channel := code }
       (s.dev.faultsHeld = true → channel ≠ .registrarInternal →
         ∃ t, exec (.handshakeStall channel lost) s = .next t ∧ s.frame t [] ∧ t.dev.raised = s.dev.raised ++ [f]) ∧
       ((s.dev.faultsHeld = false ∨ channel = .registrarInternal) →
         exec (.handshakeStall channel lost) s = .next (s.faultEvent f lost)))) ∧
  ((∀ s : State, s.dev.pow.closed = true → exec .lendingBoundary s = .next s) ∧
   (∀ s : State, s.dev.pow.closed = false → exec .lendingBoundary s = .next s.boundary) ∧
   (∀ d : Dev, d.boundaryOrders.spent = [] ∧ d.boundaryOrders.localReload = []) ∧
   (∀ (d : Dev) (die : Nat), die ∈ d.localReload → SMap.get 0 d.boundaryOrders.localCount die = d.time) ∧
   (∀ (d : Dev) (sh : Nat), (d.grantBoundary.shelf sh).acts = 0 ∧ (d.grantBoundary.shelf sh).bayActs = 0 ∧
     (d.grantBoundary.shelf sh).grantBay = (d.shelf sh).grantBayNext) ∧
   (∀ (d : Dev) (b : Fin 64), d.rd (F.SHAFT_CTL_CAL_START b) ≠ 0 →
     (d.calBoundary b).rd (F.SHAFT_CTL_CAL_START b) = 0 ∧ (d.calBoundary b).rd (F.SHAFT_STATUS_CAL_RUNNING b) = 1))

/-- Takeover and hand-back of a shaft (R38, R40, Table 2.6). For gating or a spot check, with both bays OWN, the withdrawn bay reads ADOPTED
with its cause and SWITCHING, its twin ADOPTING, and a feasibility check is asked for; where one of the two is not OWN nothing happens. A
contained fault's takeover is that of the containment. A hand-back makes both OWN again while the shaft switches; a bay that is not
ADOPTED ignores it. TAKEOVER_DRAIN_COMPLETE (R40, R41): while nothing switches, or the twin is still being woken, nothing happens; once
the buffer of the other bay holds nothing of the shaft, SWITCHING reads 0 and, with nothing waiting for the shaft, no other register
changes. The model's choices that this rests on: log entries 74, 113. -/
def Obligations.TwinBaysSwitch : Prop :=
  (∀ (s : State) (bay : Fin 64) (lost : List Nat),
     let twin := twinOf bay
     (∀ cause, cause ≠ .contained → s.dev.rd (F.TWIN_STATUS_MODE bay) = 0 → s.dev.rd (F.TWIN_STATUS_MODE twin) = 0 →
       ∃ t, exec (.twinTakeover bay cause lost) s = .next t ∧ t.dev.rd (F.TWIN_STATUS_MODE bay) = 1 ∧
         t.dev.rd (F.TWIN_STATUS_MODE twin) = 2 ∧ t.dev.rd (F.TWIN_STATUS_CAUSE bay) = (if cause = .gated then 1 else 2) ∧
         t.dev.rd (F.TWIN_STATUS_SWITCHING bay) = 1 ∧ t.dev.recheck = true) ∧
     (∀ cause, cause ≠ .contained → (s.dev.rd (F.TWIN_STATUS_MODE bay) ≠ 0 ∨ s.dev.rd (F.TWIN_STATUS_MODE twin) ≠ 0) →
       exec (.twinTakeover bay cause lost) s = .next s) ∧
     exec (.twinTakeover bay .contained lost) s = .next (s.contain bay lost) ∧
     (s.dev.rd (F.TWIN_STATUS_MODE bay) = 1 → s.dev.domainOn (Dom.bay bay) = true → s.dev.withdrawnBays.contains bay.val = false →
       s.dev.rescue.contains bay.val = false →
       ∃ t, exec (.twinHandback bay) s = .next t ∧ t.dev.rd (F.TWIN_STATUS_MODE bay) = 0 ∧ t.dev.rd (F.TWIN_STATUS_MODE twin) = 0 ∧
         t.dev.rd (F.TWIN_STATUS_CAUSE bay) = 0 ∧ t.dev.rd (F.TWIN_STATUS_SWITCHING bay) = 1 ∧ t.dev.recheck = true) ∧
     (s.dev.rd (F.TWIN_STATUS_MODE bay) ≠ 1 → exec (.twinHandback bay) s = .next s)) ∧
  (∀ (s : State) (bay : Fin 64),
     (s.dev.rd (F.TWIN_STATUS_SWITCHING bay) = 0 → exec (.takeoverDrainComplete bay) s = .next s) ∧
     (s.dev.rescue.contains (twinOf bay) = true → exec (.takeoverDrainComplete bay) s = .next s) ∧
     (s.dev.rd (F.TWIN_STATUS_SWITCHING bay) ≠ 0 → s.dev.rescue.contains bay.val = false → s.dev.rescue.contains (twinOf bay) = false →
       s.dev.mergeFor (if s.dev.rd (F.TWIN_STATUS_MODE bay) = 1 then bay.val else twinOf bay) bay = [] → s.dev.quiet = true →
       ∃ t, exec (.takeoverDrainComplete bay) s = .next t ∧ s.frame t [F.TWIN_STATUS_SWITCHING bay] ∧
         t.dev.rd (F.TWIN_STATUS_SWITCHING bay) = 0))

/-- RR_FLUSH_START (R52, Table 2.9): no effect while a flush runs or a disabled patron's lines are flushed; otherwise the written fields set
the scope. With no dirty line in scope the flush is DONE at once, with LINES_WRITTEN 0; in the safe state, where no line moves, it stays
BUSY with the dirty lines of its scope waiting. Clean lines in scope are dropped where INVALIDATE is set, and no other line. The merge
buffer's commands and the shelf-reading deadline (R142, R143, R145, R156). A full write of a line that no entry holds takes a place of its
own, HELD, while the buffer has room below 48 entries and gathers; in the safe state, or while the shaft switches, it waits at the wing.
The expiry of the gather window issues the oldest HELD entry that may be issued, but none in the safe state. A shelf-reading pass not
complete at its deadline is marked LATE and raised once. The model's choices that this rests on: log entries 24, 42, 91. -/
def Obligations.RoomAndMergeBufferWrite : Prop :=
  (∀ (s : State) (value : Word),
     let ordered := s.dev.wrs [(F.RR_FLUSH_CTL_INVALIDATE, value.toNat / 2), (F.RR_FLUSH_CTL_SCOPE, value.toNat / 4),
       (F.RR_FLUSH_CTL_SLICE, value.toNat / 16), (F.RR_FLUSH_CTL_GROUP, value.toNat / 256)]
     let f := ordered.scopeSet
     let dirty := (s.dev.room.filter (fun kl => f.covers kl.1 kl.2 && kl.2.st ≠ .clean)).map (·.2.tag)
     let fields := [F.RR_FLUSH_CTL_INVALIDATE, F.RR_FLUSH_CTL_SCOPE, F.RR_FLUSH_CTL_SLICE, F.RR_FLUSH_CTL_GROUP,
       F.RR_FLUSH_CTL_START, F.RR_FLUSH_STATUS_BUSY, F.RR_FLUSH_STATUS_DONE, F.RR_FLUSH_STATUS_LINES_WRITTEN]
     let kept := if f.invalidate then s.dev.room.filter (fun kl => !(f.covers kl.1 kl.2 && kl.2.st = .clean)) else s.dev.room
     ((s.dev.flushing = true ∨ s.dev.disableFlush.isSome = true) → exec (.rrFlushStart value) s = .next s) ∧
     (s.dev.flushing = false → s.dev.disableFlush = none → dirty = [] →
       ∃ t, exec (.rrFlushStart value) s = .next t ∧ s.frame t fields ∧ t.dev.rd F.RR_FLUSH_STATUS_BUSY = 0 ∧
         t.dev.rd F.RR_FLUSH_STATUS_DONE = 1 ∧ t.dev.rd F.RR_FLUSH_STATUS_LINES_WRITTEN = 0 ∧ t.dev.room = kept) ∧
     (s.dev.flushing = false → s.dev.disableFlush = none → dirty ≠ [] → s.dev.rd F.SAFE_STATUS_ACTIVE ≠ 0 →
       ∃ t, exec (.rrFlushStart value) s = .next t ∧ s.frame t fields ∧ t.dev.rd F.RR_FLUSH_STATUS_BUSY = 1 ∧
         t.dev.rd F.RR_FLUSH_STATUS_LINES_WRITTEN = 0 ∧ t.dev.flushWait = dirty ∧ t.dev.room = kept)) ∧
  (∀ (s : State) (write : MergeReq) (bay : Fin 64),
     let dpa := write.dpaLine.toNat * 64
     let n := s.shaftOf dpa
     ((s.dev.rd (F.TWIN_STATUS_SWITCHING n) ≠ 0 ∨ s.dev.rd F.SAFE_STATUS_ACTIVE ≠ 0) →
       ∃ t, exec (.mergeWrite write) s = .next t ∧ s.frame t [] ∧
         SMap.get [] t.dev.mergeWaits n = SMap.get [] s.dev.mergeWaits n ++ [write] ∧ t.dev.merge = s.dev.merge) ∧
     (∀ loc, s.dev.rd (F.TWIN_STATUS_SWITCHING n) = 0 → s.dev.rd F.SAFE_STATUS_ACTIVE = 0 → s.home dpa = .dram loc →
       s.sparedCopy dpa = none → SMap.get [] s.dev.writebacks (s.dev.drivingBay (locShaft loc)) = [] →
       (s.dev.mergeOf (s.dev.drivingBay (locShaft loc))).any (fun e => e.loc = loc && e.st ≠ .issued) = false →
       (s.dev.mergeOf (s.dev.drivingBay (locShaft loc))).length < 47 → s.dev.rd F.INTEG_CTL_GATHER ≠ 0 →
       write.mask = BitVec.allOnes 64 →
       ∃ t, exec (.mergeWrite write) s = .next t ∧ s.frame t [F.MERGE_STATUS_OCCUPANCY (s.dev.drivingBay (locShaft loc))] ∧
         t.dev.mergeOf (s.dev.drivingBay (locShaft loc)) = s.dev.mergeOf (s.dev.drivingBay (locShaft loc)) ++
           [{ loc := loc, dpaLine := write.dpaLine.toNat, data := write.data, mask := write.mask, poison := write.poison,
              cls := write.cls, grp := write.grp, st := .held, born := s.dev.time, room := false }] ∧
         t.dev.rd (F.MERGE_STATUS_OCCUPANCY (s.dev.drivingBay (locShaft loc))) =
           (s.dev.mergeOf (s.dev.drivingBay (locShaft loc))).length + 1) ∧
     (s.dev.rd F.SAFE_STATUS_ACTIVE ≠ 0 → exec (.mergeGatherExpiry bay) s = .next s) ∧
     (s.dev.rd F.SAFE_STATUS_ACTIVE = 0 → ∃ t, exec (.mergeGatherExpiry bay) s = .next t ∧
       s.frame t [F.MERGE_STATUS_OCCUPANCY bay] ∧ t.dev.mergeOf bay = issueOldest (s.dev.mergeOf bay)) ∧
     (s.dev.rd F.INTEG_CTL_SHELF_READ_EN ≠ 0 → s.dev.rd (F.SHELF_READ_STATUS_LATE bay) = 0 →
       ∃ t, exec (.shelfReadDeadline bay) s = .next t ∧ s.frame t [F.SHELF_READ_STATUS_LATE bay] ∧
         t.dev.rd (F.SHELF_READ_STATUS_LATE bay) = 1 ∧
         t.dev.raised = s.dev.raised ++ [{ type := FaultType.shelfReadLate.code, source := Src.bay bay, detail := 0 }]) ∧
     ((s.dev.rd F.INTEG_CTL_SHELF_READ_EN = 0 ∨ s.dev.rd (F.SHELF_READ_STATUS_LATE bay) ≠ 0) →
       exec (.shelfReadDeadline bay) s = .next s))

/-- PORT_BIND and the enabling and disabling of patrons (R165, R167, R168, R12). A bind write notes its patron and, with SET, binds it to the
links of the written map that exist in the port's MODE; patron 0 stays with the keeper's port once the layout is locked. An enable whose
checks all pass sets ENABLE and ACTIVE, its reason reads 0; a failing check leaves ENABLE 0 and gives its code. A disable is refused with
0x47 while a ring is enabled, else it clears ENABLE and ACTIVE and sets DISABLING. An unsealed patron without requests ends: its keys and
index entries are gone and DISABLING reads 0. Stated where no injector runs. The model's choices that this rests on: log entry 17. -/
def Obligations.PatronsComeAndGo : Prop :=
  ∀ (s : State) (port : Fin 64) (p : Fin 4096), s.dev.noInjector = true →
    let reasons := [F.DEV_REASON_CODE, F.DEV_REASON_TRIGGER, F.DEV_REASON_DETAIL, F.PATRON_REASON_CODE p]
    (∀ value : Word, s.portExists port = true →
      let who := value.toNat % 4096
      let refused := value.toNat.testBit 31 = false ∨ s.patronExists who = false ∨
        (who = 0 ∧ s.layout.locked = true ∧ s.layout.keeperPort ≠ port.val)
      ∃ t, exec (.portBind port value) s = .next t ∧ s.frame t [F.PORT_BIND_PATRON port] ∧ t.dev.rd (F.PORT_BIND_PATRON port) = who ∧
        (refused → t.dev.binding = s.dev.binding) ∧
        (¬ refused → SMap.get 0 t.dev.binding (port * 4096 + who) = (value.toNat / 2 ^ 12 % 16 &&& s.dev.modeLinks port))) ∧
    (s.patronExists p = true → s.dev.rd (F.PATRON_CTL_ENABLE p) = 0 →
      let code := firstCode (s.dev.commonChecks .patron ++ s.patronChecks p)
      (code = 0 → ∃ t, exec (.patronEnable p) s = .next t ∧
        s.frame t (F.PATRON_CTL_ENABLE p :: F.PATRON_STATUS_ACTIVE p :: reasons) ∧ t.dev.rd (F.PATRON_CTL_ENABLE p) = 1 ∧
        t.dev.rd (F.PATRON_STATUS_ACTIVE p) = 1 ∧ t.dev.rd F.DEV_REASON_CODE = 0 ∧ t.dev.rd (F.PATRON_REASON_CODE p) = 0) ∧
      (code ≠ 0 → code < 256 → ∃ t, exec (.patronEnable p) s = .next t ∧
        s.frame t (F.PATRON_CTL_ENABLE p :: F.ALLOW_REASON_CODE :: F.ALLOW_REASON_BAY :: F.ALLOW_REASON_CLASS ::
          F.ALLOW_REASON_GROUP :: reasons) ∧ t.dev.rd (F.PATRON_CTL_ENABLE p) = 0 ∧ t.dev.rd F.DEV_REASON_CODE = code ∧
        t.dev.rd (F.PATRON_REASON_CODE p) = code)) ∧
    (s.dev.rd (F.PATRON_CTL_ENABLE p) ≠ 0 →
      let busy := (List.range 6).any (fun i => s.dev.ringState p i ≠ ringDisabled)
      (busy = false → ∃ t, exec (.patronDisable p) s = .next t ∧
        s.frame t (F.PATRON_CTL_ENABLE p :: F.PATRON_STATUS_ACTIVE p :: F.PATRON_STATUS_DISABLING p :: reasons) ∧
        t.dev.rd (F.PATRON_CTL_ENABLE p) = 0 ∧ t.dev.rd (F.PATRON_STATUS_ACTIVE p) = 0 ∧ t.dev.rd (F.PATRON_STATUS_DISABLING p) = 1) ∧
      (busy = true → ∃ t, exec (.patronDisable p) s = .next t ∧ s.frame t (F.PATRON_CTL_ENABLE p :: reasons) ∧
        t.dev.rd (F.PATRON_CTL_ENABLE p) = 1 ∧ t.dev.rd F.DEV_REASON_CODE = 0x47)) ∧
    (s.dev.rd (F.PATRON_STATUS_DISABLING p) ≠ 0 → s.dev.requestsOf p = false → s.dev.rd (F.PATRON_CTL_SEALED p) = 0 →
      ∃ t, exec (.patronDisableComplete p) s = .next t ∧
        s.frame t [F.PATRON_STATUS_KEY_LOADED p, F.PATRON_STATUS_NEXT_KEY_LOADED p, F.SEAL_STATUS_NEXT_FREE, F.PATRON_STATUS_DISABLING p] ∧
        t.dev.rd (F.PATRON_STATUS_DISABLING p) = 0 ∧ t.dev.rd (F.PATRON_STATUS_KEY_LOADED p) = 0 ∧
        t.dev.vault.find? (fun kv => kv.1 = p.val) = none ∧ ∀ kv ∈ t.dev.index, ∀ e ∈ kv.2, e.patron ≠ p.val)

/-- The SEAL commands (R194, R195, R196, R197). LOAD_KEK stores the first 32 bytes of SEAL_DATA in its slot unless KEK_LOCK is set (RESULT 5);
CLEAR_KEK always empties its slot; LOAD_KEY and LOAD_NEXT put the unwrapped key into the vault of their patron, or its next key, where
their conditions hold; DROP_NEXT drops the next key while no rekey of the patron runs; KEK_LOCK sets its bit for good. Every command but a
reserved one sets RESULT, and after every one SEAL_DATA reads 0. Formalises R196. -/
def Obligations.SealCommandsMoveKeys : Prop :=
  ∀ (s : State) (slot : Fin 16) (p : Fin 4096) (kek : Fin 16),
    let data := (List.range 18).map F.SEAL_DATA_DATA
    let done := fun (t : State) (result : Nat) => t.dev.rd F.SEAL_STATUS_RESULT = result ∧ ∀ f ∈ data, t.dev.rd f = 0
    let fields := F.SEAL_STATUS_RESULT :: F.SEAL_STATUS_NEXT_FREE :: data
    (s.dev.rd F.SEAL_CTL_KEK_LOCK = 0 → ∃ t, exec (.loadKek slot) s = .next t ∧ s.frame t fields ∧ done t 0 ∧
      slotAt t.dev.keks slot = some (BitVec.ofNat 256 (natOfBytes (s.dev.sealData.take 32))) ∧ t.dev.vault = s.dev.vault) ∧
    (s.dev.rd F.SEAL_CTL_KEK_LOCK ≠ 0 → ∃ t, exec (.loadKek slot) s = .next t ∧ s.frame t fields ∧ done t 5 ∧
      t.dev.keks = s.dev.keks) ∧
    (∃ t, exec (.clearKek slot) s = .next t ∧ s.frame t fields ∧ done t 0 ∧ slotAt t.dev.keks slot = none ∧
      t.dev.vault = s.dev.vault) ∧
    (∃ t, exec .sealReservedOp s = .next t ∧ s.frame t data ∧ (∀ f ∈ data, t.dev.rd f = 0) ∧ t.dev.keks = s.dev.keks ∧
      t.dev.vault = s.dev.vault) ∧
    (∃ t, exec .kekLock s = .next t ∧ s.frame t [F.SEAL_CTL_KEK_LOCK] ∧ t.dev.rd F.SEAL_CTL_KEK_LOCK = 1) ∧
    (∀ key, s.patronExists p = true → p ≠ 0 → s.dev.rd (F.PATRON_CTL_SEALED p) ≠ 0 → s.dev.unwrapSeal kek = .ok key →
      ((s.dev.rd (F.PATRON_CTL_ENABLE p) = 0 ∧ s.dev.rd (F.PATRON_STATUS_DISABLING p) = 0) ∨ s.dev.rd (F.PATRON_STATUS_KEY_LOST p) ≠ 0 →
        ∃ t, exec (.loadKey p kek) s = .next t ∧
          s.frame t (F.PATRON_STATUS_KEY_LOADED p :: F.PATRON_STATUS_KEY_LOST p :: F.PATRON_STATUS_KEY_EPOCH p :: fields) ∧ done t 0 ∧
          slotAt t.dev.vault p = some key ∧ t.dev.rd (F.PATRON_STATUS_KEY_LOADED p) = 1 ∧ t.dev.rd (F.PATRON_STATUS_KEY_LOST p) = 0 ∧
          t.dev.rd (F.PATRON_STATUS_KEY_EPOCH p) = 0) ∧
      (s.dev.rd (F.PATRON_CTL_ENABLE p) ≠ 0 → s.dev.nextKeys.length < 16 → slotAt s.dev.nextKeys p = none →
        ∃ t, exec (.loadNext p kek) s = .next t ∧ s.frame t (F.PATRON_STATUS_NEXT_KEY_LOADED p :: fields) ∧ done t 0 ∧
          slotAt t.dev.nextKeys p = some key ∧ t.dev.rd (F.PATRON_STATUS_NEXT_KEY_LOADED p) = 1)) ∧
    ((p = 0 ∨ s.patronExists p = false ∨ s.dev.rd (F.PATRON_CTL_SEALED p) = 0) →
      (∃ t, exec (.loadKey p kek) s = .next t ∧ s.frame t fields ∧ done t 6 ∧ t.dev.vault = s.dev.vault) ∧
      (s.dev.nextKeys.length < 16 → slotAt s.dev.nextKeys p = none →
        ∃ t, exec (.loadNext p kek) s = .next t ∧ s.frame t fields ∧ done t 6 ∧ t.dev.nextKeys = s.dev.nextKeys) ∧
      ∃ t, exec (.dropNext p) s = .next t ∧ s.frame t fields ∧ done t 6 ∧ t.dev.nextKeys = s.dev.nextKeys) ∧
    (s.patronExists p = true → p ≠ 0 → s.dev.rd (F.PATRON_CTL_SEALED p) ≠ 0 → s.dev.rekeying.contains p.val = false →
      ∃ t, exec (.dropNext p) s = .next t ∧ s.frame t (F.PATRON_STATUS_NEXT_KEY_LOADED p :: fields) ∧ done t 0 ∧
        slotAt t.dev.nextKeys p = none)

/-- Allowance commits, feasibility checks and miss windows (R207, R219, R221, R227). A commit whose checks pass leaves COMMIT reading 1, holds
the staged settings with the time of acceptance, and asks for a feasibility check; a failing check gives its code and leaves COMMIT 0;
while COMMIT reads 1 another has no effect. The end of an asked-for check keeps its plan for a boundary and is counted. A window's end
starts its group's misses again. The model's choices that this rests on: log entry 49. -/
def Obligations.CommitsAndChecks : Prop :=
  ∀ (s : State) (group : Fin 256),
    let fields := [F.DEV_REASON_CODE, F.DEV_REASON_TRIGGER, F.DEV_REASON_DETAIL, F.ALLOW_REASON_CODE, F.ALLOW_REASON_BAY,
      F.ALLOW_REASON_CLASS, F.ALLOW_REASON_GROUP, F.ALLOW_CTL_COMMIT]
    let checks := (s.dev.commonChecks .commit).map (fun c => (c.1, c.2, 0, 0, 0)) ++ s.dev.commitChecks s.dev.staged
    (s.dev.rd F.ALLOW_CTL_COMMIT ≠ 0 → exec .allowCommit s = .next s) ∧
    (s.dev.rd F.ALLOW_CTL_COMMIT = 0 → checks.find? (·.1) = none →
      ∃ t, exec .allowCommit s = .next t ∧ s.frame t fields ∧ t.dev.rd F.ALLOW_CTL_COMMIT = 1 ∧ t.dev.rd F.DEV_REASON_CODE = 0 ∧
        t.dev.commit = some (s.dev.staged, s.dev.time) ∧ t.dev.recheck = true ∧ t.dev.inForce = s.dev.inForce) ∧
    (∀ b code bay cls g, s.dev.rd F.ALLOW_CTL_COMMIT = 0 → checks.find? (·.1) = some (b, code, bay, cls, g) → code < 256 →
      ∃ t, exec .allowCommit s = .next t ∧ s.frame t fields ∧ t.dev.rd F.ALLOW_CTL_COMMIT = 0 ∧ t.dev.rd F.DEV_REASON_CODE = code ∧
        t.dev.rd F.ALLOW_REASON_CODE = code ∧ t.dev.commit = s.dev.commit ∧ t.dev.inForce = s.dev.inForce) ∧
    (s.dev.recheck = true → ∃ t, exec .feasibilityCheckDone s = .next t ∧ s.frame t [F.ALLOW_STATUS_RECHECKS] ∧
      t.dev.recheck = false ∧ t.dev.nextTokens = some (s.dev.time, s.dev.plan) ∧ t.dev.tokens = s.dev.tokens) ∧
    (s.dev.recheck = false → exec .feasibilityCheckDone s = .next s) ∧
    (∃ t, exec (.missWindow group) s = .next t ∧ s.frame t [] ∧ SMap.get 0 t.dev.missCount group = 0 ∧
      ∀ g, g ≠ group.val → SMap.get 0 t.dev.missCount g = SMap.get 0 s.dev.missCount g)

/-- CAT_READ, CAT_WRITE and CAT_CAS (R175, R186). While BUSY they have no effect. Otherwise the command's fields show it, BUSY reads 1, and
the command with the written address, new and expected cards goes one step; a command that no other card must hear ends with the RESULT of
its card operation, BUSY 0, and the old card shown. CAT_FENCE and its end (R187): a fence of a patron that this variant does not have ends
at once with RESULT 6; any other is BUSY with the requests it waits for, those past their translation of the patron or of all; it ends
with RESULT 0 once none of them remains, and not before. The model's choices that this rests on: log entries 22, 56. -/
def Obligations.CatalogueCommandsRunAndFence : Prop :=
  ((∀ (s : State) (p : Fin 4096) (level : Fin 4), s.dev.rd F.CAT_STATUS_BUSY ≠ 0 →
     exec (.catRead p level) s = .next s ∧ exec (.catWrite p level) s = .next s ∧ exec (.catCas p level) s = .next s) ∧
   (∀ (s : State) (p : Fin 4096) (level : Fin 4) (op : Fin 3), s.dev.rd F.CAT_STATUS_BUSY = 0 →
     let i := if op = 0 then Instr.catRead p level else if op = 1 then .catWrite p level else .catCas p level
     ∃ (u : State) (c : CatCmd), exec i s = .next u.catStep ∧
       s.frame u [F.CAT_CMD_PATRON, F.CAT_CMD_LEVEL, F.CAT_CMD_OP, F.CAT_CMD_FENCE_ALL, F.CAT_STATUS_BUSY] ∧
       u.dev.rd F.CAT_STATUS_BUSY = 1 ∧ u.dev.rd F.CAT_CMD_PATRON = p.val ∧ u.dev.rd F.CAT_CMD_LEVEL = level.val ∧
       u.dev.rd F.CAT_CMD_OP = op.val ∧ u.dev.cat = some c ∧ c.op = op.val ∧ c.patron = p.val ∧ c.level = level + 1 ∧
       c.pa = (s.dev.rd (F.CAT_ADDR_VALUE 0) + 2 ^ 32 * s.dev.rd (F.CAT_ADDR_VALUE 1)) % 2 ^ 48 ∧
       c.new = BitVec.ofNat 64 (s.dev.rd (F.CAT_NEW_VALUE 0) + 2 ^ 32 * s.dev.rd (F.CAT_NEW_VALUE 1)) ∧ c.phase = 0 ∧
       c.spread = (s.dev.propagates && decide (op ≠ 0))) ∧
   ∀ (u v : State) (c : CatCmd) (r : Nat) (old : Option Card), u.dev.cat = some c → c.op ≠ 3 → c.phase = 0 → c.spread = false → r < 8 →
     u.cardOp c.patron c.level c.pa (if c.op = 0 then none else some (c.new, c.expected)) = (some (r, old), v) →
     u.catStep = v.withDev (fun d => (d.showOld old).catEnd r) ∧ u.catStep.dev.rd F.CAT_STATUS_BUSY = 0 ∧
       u.catStep.dev.rd F.CAT_STATUS_RESULT = r ∧ u.catStep.dev.cat = none) ∧
  (∀ (s : State) (p : Fin 4096) (all : Bool),
     let fields := [F.CAT_CMD_PATRON, F.CAT_CMD_LEVEL, F.CAT_CMD_OP, F.CAT_CMD_FENCE_ALL, F.CAT_STATUS_BUSY, F.CAT_STATUS_RESULT]
     (s.dev.rd F.CAT_STATUS_BUSY ≠ 0 → exec (.catFence p all) s = .next s) ∧
     (s.dev.rd F.CAT_STATUS_BUSY = 0 → all = false → s.patronExists p = false →
       ∃ t, exec (.catFence p all) s = .next t ∧ s.frame t fields ∧ t.dev.rd F.CAT_STATUS_BUSY = 0 ∧ t.dev.rd F.CAT_STATUS_RESULT = 6) ∧
     (s.dev.rd F.CAT_STATUS_BUSY = 0 → (all = true ∨ s.patronExists p = true) →
       ∃ t c, exec (.catFence p all) s = .next t ∧ s.frame t fields ∧ t.dev.rd F.CAT_STATUS_BUSY = 1 ∧ t.dev.cat = some c ∧ c.op = 3 ∧
         c.fence = s.dev.translated (if all then none else some p.val)) ∧
     (∀ c, s.dev.cat = some c → c.op = 3 →
       ((∀ k ∈ s.dev.translated none, k ∉ c.fence) → ∃ t, exec .catFenceComplete s = .next t ∧
         s.frame t [F.CAT_STATUS_BUSY, F.CAT_STATUS_RESULT] ∧ t.dev.cat = none ∧ t.dev.rd F.CAT_STATUS_BUSY = 0 ∧
         t.dev.rd F.CAT_STATUS_RESULT = 0) ∧
       (∀ k ∈ s.dev.translated none, k ∈ c.fence → exec .catFenceComplete s = .next s)))

/-- Walks and materialisation (R176, R177, R178, R184). The line of a walk that does not exist brings nothing; one that has been read lets
every request of the walk take its step, and a poisoned, invalid or malformed card ends the request with its code. The oldest
materialisation whose zero writes are done and whose card still stands makes a LEAF and is counted in LEAVES; one whose zero writes wait
stays. The poll lets the requests held at cards go on, and with none held changes nothing. The model's choices that this rests on: log
entries 48, 51. -/
def Obligations.WalksAndMaterialisation : Prop :=
  (∀ (s : State) (wing : Fin 4) (walk : Fin 64) env,
    (slotAt s.dev.walks (wing * 64 + walk) = none → exec (.cardLineRead wing walk env) s = .next s) ∧
    (∀ k data poison hit v, slotAt s.dev.walks (wing * 64 + walk) = some k →
      s.fetch { cls := k.cls, grp := k.grp, patron := k.patron } (k.line * 64) env true = (.line data poison hit, v) →
      exec (.cardLineRead wing walk env) s = .next
        ((k.reqs.foldl (fun s q => s.walkStep { cls := k.cls, grp := k.grp, patron := k.patron } q k.level k.line data poison)
          (v.withDev fun d => ({ d with walks := SMap.erase (wing * 64 + walk) d.walks } : Dev).count 0x0403 wing (some k.patron))).releaseAll
            fun h => h = .wing wing))) ∧
  (∀ (s : State) w q level line data,
    let cd := line * 64 + cardIndex q.msg.addr.toNat level * 8 % 64
    s.walkStep w q level line data true = s.fail q 7 level cd {} ∧
    (cardState (cardIn data cd) = 0 → s.walkStep w q level line data false = s.fail q 3 level cd {}) ∧
    (cardState (cardIn data cd) ≠ 0 → s.malformed w.patron level (cardIn data cd) = true →
      s.walkStep w q level line data false = s.fail q 6 level cd {})) ∧
  (∀ s : State, s.dev.materialising = [] → exec .materialiseZeroDone s = .next s) ∧
  (∀ (s u : State) m rest, s.dev.materialising = m :: rest →
    s.dev.mergeWaits = [] → s.swapCard (s.dev.whoOf m.patron 1) m.cardDpa m.card (setCard m.card 0 4 3) cleanEnv = (.done, u) →
    u.dev.held = [] → u.dev.fences = [] → u.dev.countersOff = true →
    ∃ t, exec .materialiseZeroDone s = .next t ∧ u.frame t [F.PATRON_LEAVES_COUNT m.patron] ∧ t.dev.materialising = rest ∧
      t.dev.rd (F.PATRON_LEAVES_COUNT m.patron) = min (u.dev.rd (F.PATRON_LEAVES_COUNT m.patron) + 1) (2 ^ 32 - 1)) ∧
  (∀ s : State, s.dev.held = [] → s.dev.fences = [] → exec .materialisingPoll s = .next s) ∧
  ∀ s : State, exec .materialisingPoll s = .next (s.releaseAll fun h => match h with
    | .card _ => true
    | _ => false)

/-- RING_ENABLE and RING_DISABLE (R235, R236, R238, Table 9.4, Table 9.5). An enable whose checks pass makes the ring ACTIVE with index 0 and
clears the reasons; a failing check leaves ENABLE 0 and gives its code; an enabled ring ignores it. CRING and FRING are disabled only
while RING[0-3] are (0x89), and at once; a PAUSED submission ring keeps its state until the safe state ends; any other stops. The house
rings (R250, R251). An enable whose checks pass makes the ring ACTIVE with both indices 0; a failing check gives its code; an enabled ring
ignores it. A full ACTIVE ring reads its header again, one that is not full does not. A header that was asked for brings the consumer
index. The model's choices that this rests on: log entries 17, 18, 25, 26. -/
def Obligations.AllRingsStartAndStop : Prop :=
  (∀ (s : State) (p : Fin 4096) (i : Fin 6),
     let reasons := [F.DEV_REASON_CODE, F.DEV_REASON_TRIGGER, F.DEV_REASON_DETAIL, F.RING_STATUS_REASON p i]
     let code := firstCode (s.dev.commonChecks .ring ++ s.dev.ringChecks p i)
     let busy := (List.range 4).any (fun j => s.dev.ringState p j ≠ ringDisabled)
     (s.dev.rd (F.RING_CTL_ENABLE p i) ≠ 0 → exec (.ringEnable p i) s = .next s) ∧
     (s.dev.rd (F.RING_CTL_ENABLE p i) = 0 → code = 0 → ∃ t, exec (.ringEnable p i) s = .next t ∧
       s.frame t (F.RING_CTL_ENABLE p i :: F.RING_STATUS_STATE p i :: F.RING_STATUS_INDEX p i :: reasons) ∧
       t.dev.rd (F.RING_CTL_ENABLE p i) = 1 ∧ t.dev.rd (F.RING_STATUS_STATE p i) = 1 ∧ t.dev.rd (F.RING_STATUS_INDEX p i) = 0 ∧
       t.dev.rd F.DEV_REASON_CODE = 0) ∧
     (s.dev.rd (F.RING_CTL_ENABLE p i) = 0 → code ≠ 0 → code < 256 → ∃ t, exec (.ringEnable p i) s = .next t ∧
       s.frame t (F.RING_CTL_ENABLE p i :: reasons) ∧ t.dev.rd (F.RING_CTL_ENABLE p i) = 0 ∧ t.dev.rd F.DEV_REASON_CODE = code ∧
       t.dev.rd (F.RING_STATUS_REASON p i) = code) ∧
     (s.dev.rd (F.RING_CTL_ENABLE p i) = 0 → exec (.ringDisable p i) s = .next s) ∧
     (s.dev.rd (F.RING_CTL_ENABLE p i) ≠ 0 → 4 ≤ i.val → busy = false → s.dev.ringState p i ≠ ringPaused →
       ∃ t, exec (.ringDisable p i) s = .next t ∧ s.frame t (F.RING_CTL_ENABLE p i :: F.RING_STATUS_STATE p i :: reasons) ∧
         t.dev.rd (F.RING_CTL_ENABLE p i) = 0 ∧ t.dev.rd (F.RING_STATUS_STATE p i) = 0 ∧ t.dev.rd F.DEV_REASON_CODE = 0) ∧
     (s.dev.rd (F.RING_CTL_ENABLE p i) ≠ 0 → 4 ≤ i.val → busy = true →
       ∃ t, exec (.ringDisable p i) s = .next t ∧ s.frame t (F.RING_CTL_ENABLE p i :: reasons) ∧
         t.dev.rd (F.RING_CTL_ENABLE p i) = 1 ∧ t.dev.rd F.DEV_REASON_CODE = 0x89) ∧
     (s.dev.rd (F.RING_CTL_ENABLE p i) ≠ 0 → i.val < 4 →
       exec (.ringDisable p i) s = .next (s.withDev fun d =>
         if s.dev.ringState p i = ringPaused then d.wr (F.RING_CTL_ENABLE p i) 0 else (d.wr (F.RING_CTL_ENABLE p i) 0).ringStop p i))) ∧
  (∀ (s : State) (r : Fin 4),
     let reasons := [F.DEV_REASON_CODE, F.DEV_REASON_TRIGGER, F.DEV_REASON_DETAIL, F.HOUSE_RING_STATUS_REASON r]
     let code := firstCode (s.dev.commonChecks .ring ++ s.houseChecks r)
     (s.dev.rd (F.HOUSE_RING_CTL_ENABLE r) ≠ 0 → exec (.houseRingEnable r) s = .next s) ∧
     (s.dev.rd (F.HOUSE_RING_CTL_ENABLE r) = 0 → code = 0 → r ≠ 0 → ∃ t, exec (.houseRingEnable r) s = .next t ∧
       s.frame t (F.HOUSE_RING_CTL_ENABLE r :: F.HOUSE_RING_STATUS_STATE r :: F.HOUSE_RING_STATUS_INDEX r :: reasons) ∧
       t.dev.rd (F.HOUSE_RING_CTL_ENABLE r) = 1 ∧ t.dev.rd (F.HOUSE_RING_STATUS_STATE r) = 1 ∧
       t.dev.rd (F.HOUSE_RING_STATUS_INDEX r) = 0 ∧ (t.dev.houseRing r).ci = 0) ∧
     (s.dev.rd (F.HOUSE_RING_CTL_ENABLE r) = 0 → code ≠ 0 → code < 256 → ∃ t, exec (.houseRingEnable r) s = .next t ∧
       s.frame t (F.HOUSE_RING_CTL_ENABLE r :: reasons) ∧ t.dev.rd (F.HOUSE_RING_CTL_ENABLE r) = 0 ∧ t.dev.rd F.DEV_REASON_CODE = code) ∧
     (s.dev.houseFull r = false → exec (.houseHeaderReread r) s = .next s) ∧
     (s.dev.houseFull r = true → s.dev.rd (F.HOUSE_RING_STATUS_STATE r) = 1 → (s.dev.houseRing r).reading = false →
       ∃ t, exec (.houseHeaderReread r) s = .next t ∧ s.frame t [] ∧ (t.dev.houseRing r).reading = true ∧
         t.dev.out = s.dev.out ++
           [(s.dev.houseLink, { op := 0x20, arg := 0, tag := s.dev.hostTag, addr := BitVec.ofNat 64 (s.dev.houseBase r) })]) ∧
     (∀ header, s.dev.hostOps.any (fun o => o.purpose = .header r && !o.waiting) = false →
       exec (.houseHeaderReturn r header) s = .next s) ∧
     (∀ header, s.dev.hostOps.any (fun o => o.purpose = .header r && !o.waiting) = true → r ≠ 0 → (s.dev.houseRing r).held = [] →
       ∃ t, exec (.houseHeaderReturn r header) s = .next t ∧ s.frame t [] ∧ (t.dev.houseRing r).reading = false ∧
         (t.dev.houseRing r).ci = header.toNat / 2 ^ 16 % 2 ^ 16 ∧ ∀ o ∈ t.dev.hostOps, o.purpose ≠ .header r))

/-- BELL, its record and its timer (R166, R239, R240, R241). A bell of a patron that is not bound to its link sets LAST_TF 1 and raises
PATRON_NOT_BOUND; a proper bell of an ACTIVE patron for a ring that is neither DISABLED nor in ERROR reads the bell record, or marks that
one more read is due where one is outstanding. A record that nobody asked for changes nothing; one that was asked for is taken. The timer
reads the record again only while a completion waits at an ACTIVE CRING and no read is outstanding. The model's choices that this rests
on: log entries 26, 111. -/
def Obligations.BellsReadTheRecord : Prop :=
  ∀ (s : State) (link : Fin 256) (msg : Msg) (p : Fin 4096), s.dev.countersOff = true →
    let outstanding := fun (q : Nat) => s.dev.hostOps.any (fun o => o.patron = q && o.purpose = .bell)
    let read := fun (q : Nat) =>
      ({ op := 0x20, arg := 0, tag := s.dev.hostTag, patron := q, addr := BitVec.ofNat 64 (s.dev.bellAddr q / 64 * 64) } : Msg)
    let reads := fun (t : State) (q : Nat) => s.frame t [] ∧ t.dev.out = s.dev.out ++ [(s.dev.patronLink q, read q)] ∧
      t.dev.hostTag = (s.dev.hostTag + 1) % 4096 ∧ t.dev.hostOps.length = s.dev.hostOps.length + 1
    (s.dev.linkUp link = false → exec (.bell link msg) s = .next s) ∧
    (s.dev.linkUp link = true → s.dev.peerPort (link / 4) = false → s.bound link msg.patron = false →
      ∃ t, exec (.bell link msg) s = .next t ∧ s.frame t [F.PATRON_STATUS_LAST_TF msg.patron] ∧
        t.dev.rd (F.PATRON_STATUS_LAST_TF msg.patron) = 1 ∧ t.dev.out = s.dev.out ∧
        t.dev.raised.map (·.type) = s.dev.raised.map (·.type) ++ [FaultType.patronNotBound.code]) ∧
    (s.dev.linkUp link = true → s.dev.peerPort (link / 4) = false → s.bound link msg.patron = true →
      s.dev.rd (F.PATRON_STATUS_ACTIVE msg.patron) ≠ 0 → msg.reserved = false → msg.arg < 4 → msg.addr = 0 → msg.tag = 0 →
      s.dev.ringState msg.patron msg.arg ≠ ringDisabled → s.dev.ringState msg.patron msg.arg ≠ ringError →
      (outstanding msg.patron = false → ∃ t, exec (.bell link msg) s = .next t ∧ reads t msg.patron) ∧
      (outstanding msg.patron = true → ∃ t, exec (.bell link msg) s = .next t ∧ s.frame t [] ∧ t.dev.out = s.dev.out ∧
        (t.dev.ringSide msg.patron).pending = true)) ∧
    (∀ line, s.dev.hostOps.any (fun o => o.patron = p && o.purpose = .bell && !o.waiting) = false →
      exec (.bellRecordReturn p line) s = .next s) ∧
    (∀ line, s.dev.hostOps.any (fun o => o.patron = p && o.purpose = .bell && !o.waiting) = true →
      exec (.bellRecordReturn p line) s = .next (s.withDev fun d => d.bellReturn p line)) ∧
    (((s.dev.ringSide p).waiting = [] ∨ s.dev.ringState p 4 ≠ ringActive ∨ outstanding p = true) →
      exec (.bellRereadTimer p) s = .next s) ∧
    ((s.dev.ringSide p).waiting ≠ [] → s.dev.ringState p 4 = ringActive → outstanding p = false →
      ∃ t, exec (.bellRereadTimer p) s = .next t ∧ reads t p)

/-- Host reads and writes in time, and interrupts (R243, R246, R248, R249). A read without an answer in time waits to be repeated; not in the
safe state, and not where none of its tag runs; its one repetition is marked and sent; a write that fails while its link stays UP is
dropped. Returned descriptors are kept with their read and taken in ring order. An idle HOLDOFF's end changes nothing; one without
gathered causes only ends. The model's choices that this rests on: log entries 14, 26, 49. -/
def Obligations.HostOperationsTimeOut : Prop :=
  ∀ (s : State) (tag : Fin 4096),
    let late := s.dev.hostOps.find? (fun o => decide (o.tag = tag.val) && o.lines ≠ 0 && !o.waiting && o.got.length ≠ o.lines)
    let due := s.dev.hostOps.find? (fun o => decide (o.tag = tag.val) && o.lines ≠ 0 && o.waiting && !o.repeated)
    let write := s.dev.hostOps.find? (fun o => decide (o.tag = tag.val) && o.lines = 0)
    (late = none → exec (.hostReadTimeout tag) s = .next s) ∧ (due = none → exec (.hostReadRetry tag) s = .next s) ∧
    (write = none → exec (.hostWriteTimeout tag) s = .next s) ∧
    (s.dev.rd F.SAFE_STATUS_ACTIVE ≠ 0 → exec (.hostReadTimeout tag) s = .next s ∧ exec (.hostReadRetry tag) s = .next s) ∧
    (∀ o, late = some o → s.dev.rd F.SAFE_STATUS_ACTIVE = 0 → o.repeated = false → (∀ i first, o.purpose ≠ .desc i first) →
      ∃ t, exec (.hostReadTimeout tag) s = .next t ∧ s.frame t [] ∧
        t.dev.hostOps = s.dev.hostOps.map (fun x => if x = o then { x with waiting := true, got := [] } else x)) ∧
    (∀ o, due = some o → s.dev.rd F.SAFE_STATUS_ACTIVE = 0 → exec (.hostReadRetry tag) s = .next (s.withDev fun d => d.readAgain o)) ∧
    (∀ o, write = some o → s.dev.linkUp o.link = true → exec (.hostWriteTimeout tag) s = .next (s.withDev fun d => d.writeFailed o)) ∧
    (∀ o, write = some o → s.dev.linkUp o.link = false → exec (.hostWriteTimeout tag) s = .next s) ∧
    (∀ (p : Fin 4096) (ring : Fin 4) (first : BitVec 16) lines,
      exec (.descriptorReturn p ring first lines) s = .next (s.withDev fun d =>
        ({ d with hostOps := d.hostOps.map (fun o =>
            if o.patron = p.val ∧ o.purpose = .desc ring first.toNat ∧ ¬ o.waiting ∧ o.lines = lines.length then
              { o with got := lines.mapIdx (fun k l => (k, l, false)) }
            else o) } : Dev).pumpReturns p ring 16)) ∧
    (∀ k : Fin 4097, (SMap.get (α := IntSide) {} s.dev.ints k).running = false → exec (.interruptHoldoffEnd k) s = .next s) ∧
    (∀ k : Fin 4097, (SMap.get (α := IntSide) {} s.dev.ints k).running = true → (SMap.get (α := IntSide) {} s.dev.ints k).causes = 0 →
      ∃ t, exec (.interruptHoldoffEnd k) s = .next t ∧ s.frame t [] ∧ t.dev.out = s.dev.out ∧
        (SMap.get (α := IntSide) {} t.dev.ints k).running = false)

/-- The trolleys (R255, R257, R259, R264, R266, R267, R274). A trolley that is not free takes nothing; a recalled descriptor that the group
chooses goes on from its record on a free trolley. A list that comes for a GATHER or SCATTER that waits for it goes through its checks. A
line step is done only by a working trolley outside the safe state, for a line of its window that may be stepped. A drained recall puts
the descriptor into its group's record store; a late one raises its fault against the group. The model's choices that this rests on: log
entries 26, 55, 100. -/
def Obligations.TrolleysWork : Prop :=
  ∀ (s : State) (t : Fin 32),
    (∀ d : Dev, d.trolleyFree t = false → d.startOn t = d) ∧
    (∀ (d : Dev) w, d.trolleyFree t = true → d.choose (t / 4) = some (.recalled w) → w.desc.opcode ≠ 9 → d.countersOff = true →
      (d.startOn t).work t = some { w with stop := none, started := d.time, order := d.serial } ∧
      ((d.startOn t).groupOf (t / 4)).recalled = (d.groupOf (t / 4)).recalled.filter (· ≠ w)) ∧
    exec (.descriptorStart t) s = .next (s.withDev fun d => (d.startOn t).pumpNops (t / 4) 64) ∧
    (s.dev.trolleyFree t = false → ((s.dev.groupOf (t / 4)).fetched.any (fun x => x.opcode = 0 && s.dev.descReady x)) = false →
      exec (.descriptorStart t) s = .next s) ∧
    (s.dev.work t = none → (∀ lines, exec (.gatherListReturn t lines) s = .next s) ∧
      (∀ slot env ue, exec (.steppedLineComplete t slot env ue) s = .next s) ∧ exec (.recallDrainComplete t) s = .next s ∧
      ∀ env, exec (.rekeyCardPoll t env) s = .next s) ∧
    (∀ w lines, s.dev.work t = some w → usesArg2 w.desc.opcode = true → w.list = none → w.ending = none →
      exec (.gatherListReturn t lines) s = .next (s.withDev fun d =>
        ({ d with hostOps := d.hostOps.filter (fun o => o.purpose ≠ .list w.desc.serial) } : Dev).listReturn t w (w.desc.entries lines))) ∧
    (s.dev.rd F.SAFE_STATUS_ACTIVE ≠ 0 → (∀ slot env ue, exec (.steppedLineComplete t slot env ue) s = .next s) ∧
      ∀ env, exec (.rekeyCardPoll t env) s = .next s) ∧
    (∀ w (slot : Fin 64) env ue, s.dev.work t = some w → s.dev.rd F.SAFE_STATUS_ACTIVE = 0 → w.desc.opcode ≠ 11 →
      let i := if w.desc.opcode = 6 ∨ w.desc.overlapping = true then w.done else w.done + slot
      exec (.steppedLineComplete t slot env ue) s = .next
        (if w.desc.lines ≤ i ∨ w.map.contains i = true ∨ w.mayStep i = false then s
         else (s.stepLine t w i env ue).withDev fun d => match d.work t with
           | some w => d.issueReads w
           | none => d.pumpNops (t / 4) 64)) ∧
    (∀ w env, s.dev.work t = some w → w.desc.opcode = 11 → s.dev.rd F.SAFE_STATUS_ACTIVE = 0 → w.mayStep w.done = true →
      exec (.rekeyCardPoll t env) s = .next (s.stepRekey t w env) ∧
      ∀ slot ue, exec (.steppedLineComplete t slot env ue) s = .next (s.stepRekey t w env)) ∧
    (∀ w, s.dev.work t = some w → w.stop = some .recall →
      exec (.recallDrainComplete t) s = .next (s.withDev fun d => (d.toRecalled t w).startOn t) ∧
      ((s.dev.toRecalled t w).groupOf (t / 4)).recalled = (s.dev.groupOf (t / 4)).recalled ++ [{ w with stop := none }] ∧
      (s.dev.toRecalled t w).work t = none) ∧
    exec (.recallLate t) s = .next (s.withDev fun d => d.raise .recallLate (Src.trolleyGroup (t / 4)))

/-- Reshelving by command (R279, R280, R281, Table 11.13). While BUSY the commands have no effect. A START that is settled shows its RESULT
and job number with BUSY 0, one that is not stays BUSY; CANCEL and QUERY of a number without a job, and RELEASE of a job that has not
ended, give NO_SUCH_JOB; CANCEL ends a queued job with cause 2; RELEASE frees an ended one. The model's choices that this rests on: log
entries 59, 95. -/
def Obligations.ReshelvingIsCommanded : Prop :=
  ∀ (s : State) (p : Fin 4096),
    let n := s.dev.rd F.RESHELVE_JOB_JOB
    let fields := [F.RESHELVE_CMD_PATRON, F.RESHELVE_CMD_OP, F.RESHELVE_STATUS_RESULT, F.RESHELVE_STATUS_STATE,
      F.RESHELVE_STATUS_END, F.RESHELVE_STATUS_BUSY, F.RESHELVE_JOB_JOB]
    (s.dev.rd F.RESHELVE_STATUS_BUSY ≠ 0 → exec (.reshelveStart p) s = .next s ∧ exec .reshelveCancel s = .next s ∧
      exec .reshelveQuery s = .next s ∧ exec .reshelveRelease s = .next s) ∧
    (s.dev.rd F.RESHELVE_STATUS_BUSY = 0 →
      (∀ r m u, r < 8 → m < 4096 →
        let member := if s.dev.flag F.COLL_XDST_VALID then some (s.dev.rd F.COLL_XDST_MEMBER) else none
        (s.withDev fun d => d.wrs [(F.RESHELVE_CMD_PATRON, p.val), (F.RESHELVE_CMD_OP, 0)]).jobStart p
          (s.dev.rd F.RESHELVE_ADDR_LO_ADDR + 2 ^ 32 * s.dev.rd F.RESHELVE_ADDR_HI_ADDR) (s.dev.rd F.RESHELVE_DST_DPA * 2 ^ 16) member
          = (some (r, some m), u) →
        ∃ t, exec (.reshelveStart p) s = .next t ∧ u.frame t fields ∧ t.dev.rd F.RESHELVE_STATUS_BUSY = 0 ∧
          t.dev.rd F.RESHELVE_STATUS_RESULT = r ∧ t.dev.rd F.RESHELVE_JOB_JOB = m) ∧
      (s.dev.job n = none →
        (∃ t, exec .reshelveCancel s = .next t ∧ s.frame t fields ∧ t.dev.rd F.RESHELVE_STATUS_RESULT = 5 ∧ t.dev.jobs = s.dev.jobs) ∧
        (∃ t, exec .reshelveQuery s = .next t ∧ s.frame t fields ∧ t.dev.rd F.RESHELVE_STATUS_RESULT = 5 ∧ t.dev.jobs = s.dev.jobs) ∧
        ∃ t, exec .reshelveRelease s = .next t ∧ s.frame t fields ∧ t.dev.rd F.RESHELVE_STATUS_RESULT = 5 ∧ t.dev.jobs = s.dev.jobs) ∧
      (∀ j, s.dev.job n = some j →
        (∃ t, exec .reshelveQuery s = .next t ∧ s.frame t fields ∧ t.dev.rd F.RESHELVE_STATUS_RESULT = 0 ∧ t.dev.jobs = s.dev.jobs) ∧
        (j.st = .queued → s.dev.countersOff = true → ∃ t, exec .reshelveCancel s = .next t ∧ s.frame t fields ∧
          t.dev.rd F.RESHELVE_STATUS_RESULT = 0 ∧ t.dev.job n = some { j with st := .ended, ended := 2 }) ∧
        (j.st = .ended → ∃ t, exec .reshelveRelease s = .next t ∧ s.frame t fields ∧ t.dev.rd F.RESHELVE_STATUS_RESULT = 0 ∧
          t.dev.job n = none) ∧
        (j.st ≠ .ended → ∃ t, exec .reshelveRelease s = .next t ∧ s.frame t fields ∧ t.dev.rd F.RESHELVE_STATUS_RESULT = 5 ∧
          t.dev.jobs = s.dev.jobs)))

/-- Jobs and copies (R280, R281, R283, R286, R292). With no job queued, with 256 active, or in the safe state, none is activated; otherwise
the job that was started first has its card swapped to RESHELVING and becomes STARTING. A STARTING job whose lines have left the reading
room becomes COPYING, with what was held for it. In the safe state nothing is copied; elsewhere a COPYING job, the running sparing, or the
open withdrawal copies its next lines. The model's choices that this rests on: log entries 58, 60. -/
def Obligations.JobsCopyLines : Prop :=
  ∀ (s : State),
    (s.dev.jobs.filter (fun kj => kj.2.st = .queued) = [] → exec .jobActivate s = .next s) ∧
    (∀ n j u, s.dev.jobs.filter (fun kj => kj.2.st = .queued) = [(n, j)] → (s.dev.jobs.filter (fun kj => kj.2.active)).length < 256 →
      s.dev.rd F.SAFE_STATUS_ACTIVE = 0 → cardState j.former ≠ 2 →
      s.swapJob j.patron j.cardDpa j.former (fun c => reshelving n c) = (.done, u) →
      exec .jobActivate s = .next ((u.withDev fun d => d.setJob n { j with st := .starting }).jobClear j).2) ∧
    (s.dev.rd F.SAFE_STATUS_ACTIVE ≠ 0 → exec .jobActivate s = .next s ∧
      (∀ shaft job wire, exec (.reshelveLineCopy shaft job wire) s = .next s) ∧
      ∀ shaft level, exec (.rowWithdrawCopy shaft level) s = .next s) ∧
    (∀ (n : Fin 4096), (s.dev.job n = none ∨ ∃ j, s.dev.job n = some j ∧ j.st ≠ .starting) → exec (.jobStartingDone n) s = .next s) ∧
    (∀ (n : Fin 4096) j u, s.dev.job n = some j → j.st = .starting → s.jobClear j = (true, u) → u.dev.held = [] → u.dev.fences = [] →
      ∃ t, exec (.jobStartingDone n) s = .next t ∧ u.frame t [] ∧ t.dev.job n = some { j with st := .copying }) ∧
    (∀ (n : Fin 4096) j u, s.dev.job n = some j → j.st = .starting → s.jobClear j = (false, u) →
      exec (.jobStartingDone n) s = .next u) ∧
    (s.dev.rd F.SAFE_STATUS_ACTIVE = 0 → ∀ (shaft : Fin 64) wire,
      exec (.reshelveLineCopy shaft none wire) s = .next (s.spareCopy shaft wire) ∧
      (∀ (n : Fin 4096) j, s.dev.job n = some j → exec (.reshelveLineCopy shaft (some n) wire) s =
        .next (if j.st = .copying then s.jobCopy n j shaft wire else s)) ∧
      ∀ level : Fin 17, exec (.rowWithdrawCopy shaft level) s = .next (s.withdrawCopy shaft level) ∧
        ((s.dev.shelf (shelfKey shaft level)).wdOpen = false → exec (.rowWithdrawCopy shaft level) s = .next s))

/-- Sparing, retirement and restored bays (R285, R288, R295, Table 11.14). OP SPARE gives its RESULT and, where it is 0, begins; OP RETIRE of
anything but a DATA level that is not being retired gives 2, during a sparing 3, else it is accepted with RESULT 0. OP ABANDON ends a
sparing that is waking or copying. A restore attempt of a bay that is not adopted for containment does nothing; a pass hands its shaft
back and notes the time, a failure withdraws it. The model's choices that this rests on: log entries 27, 113. -/
def Obligations.LevelsAndBaysAreRepaired : Prop :=
  ∀ (s : State) (level : Fin 32) (bay : Fin 64),
    let fields := [F.SPARE_CTL_LEVEL, F.SPARE_CTL_OP, F.SPARE_STATUS_RESULT]
    (s.dev.spareCheck level ≠ 0 → s.dev.spareCheck level < 4 → ∃ t, exec (.levelSpare level) s = .next t ∧ s.frame t fields ∧
      t.dev.rd F.SPARE_STATUS_RESULT = s.dev.spareCheck level) ∧
    (s.dev.spareCheck level = 0 → ∃ u : State, exec (.levelSpare level) s = .next (u.spareBegin level) ∧ s.frame u fields ∧
      u.dev.rd F.SPARE_STATUS_RESULT = 0) ∧
    ((17 ≤ level.val ∨ s.dev.role level ≠ 0) → ∃ t, exec (.levelRetire level) s = .next t ∧ s.frame t fields ∧
      t.dev.rd F.SPARE_STATUS_RESULT = 2) ∧
    (level.val < 17 → s.dev.role level = 0 → s.dev.retiring = [] → s.dev.rd F.SPARE_STATUS_STATE ≠ 0 →
      ∃ t, exec (.levelRetire level) s = .next t ∧ s.frame t fields ∧ t.dev.rd F.SPARE_STATUS_RESULT = 3) ∧
    (level.val < 17 → s.dev.role level = 0 → s.dev.retiring = [] → s.dev.rd F.SPARE_STATUS_STATE = 0 →
      ∃ t, exec (.levelRetire level) s = .next t ∧ t.dev.rd F.SPARE_STATUS_RESULT = 0 ∧ t.dev.retiring = [(level.val, none)] ∧
        t.mem = s.mem) ∧
    ((s.dev.rd F.SPARE_STATUS_STATE = 1 ∨ s.dev.rd F.SPARE_STATUS_STATE = 2) → ∃ t, exec .spareAbandon s = .next t ∧
      t.dev.rd F.SPARE_STATUS_RESULT = 0 ∧ t.dev.rd F.SPARE_STATUS_STATE = 0 ∧ t.dev.rd F.DEV_STACK_CURRENT_RESERVE = 31 ∧
      t.mem = s.mem) ∧
    (s.dev.rd F.SPARE_STATUS_STATE = 0 → ∃ t, exec .spareAbandon s = .next t ∧ s.frame t fields) ∧
    (∀ pass, (s.dev.rd (F.TWIN_STATUS_MODE bay) ≠ 1 ∨ s.dev.rd (F.TWIN_STATUS_CAUSE bay) ≠ 3 ∨ s.dev.withdrawnBays.contains bay.val = true) →
      exec (.bayRestoreAttempt bay pass) s = .next s) ∧
    (s.dev.rd (F.TWIN_STATUS_MODE bay) = 1 → s.dev.rd (F.TWIN_STATUS_CAUSE bay) = 3 → s.dev.withdrawnBays.contains bay.val = false →
      (∃ t, exec (.bayRestoreAttempt bay true) s = .next t ∧ t.dev.rd (F.TWIN_STATUS_MODE bay) = 0 ∧
        t.dev.rd (F.TWIN_STATUS_CAUSE bay) = 0 ∧ t.dev.rd (F.TWIN_STATUS_SWITCHING bay) = 1 ∧
        slotAt t.dev.restored bay = some t.dev.time) ∧
      ∃ t, exec (.bayRestoreAttempt bay false) s = .next t ∧ bay.val ∈ t.dev.withdrawnBays ∧ t.mem = s.mem)

/-- A record survives its own writing (R301). While a slot is being written, the record reads as it did (where it read at all), so that a
write cut short loses nothing; when the write is done, the record reads as what was written, the first 236 bytes of it. Every other record
reads as before throughout. The model's choices that this rests on: log entries 8, 9. -/
def Obligations.LedgerWritesSurvive : Prop :=
  ∀ (l : Ledger) (req : LedgerReq), (∀ b ∈ req.payload, b < 256) →
    let begun := l.beginWrite req
    let ended := begun.1.endWrite req begun.2
    (∀ p, l.read req.record = some p → begun.1.read req.record = some p) ∧
    ended.read req.record = some (req.payload.take 236) ∧
    ∀ n, n ≠ req.record → begun.1.read n = l.read n ∧ ended.read n = l.read n

/-- The foot's ledger commands (R301, R302, R303, Table 11.15). A slot write is begun for the first queued request unless one is being written
or new writes are held off; its completion stores the slot and leaves the foot free, and a failed one retires the block into the pool and
is written again. A read copies the newest valid slot with RESULT 0, gives 1 for an absent record and 2 for a lost one. Life and
evacuation (R305, R306). An hour of life is added and shown, and asks for its record in the ledger; an evacuation starts and stops with
its bit, and REQUIRED is not changed by it. The model's choices that this rests on: log entries 9, 28, 94. -/
def Obligations.LedgerAndLifeAreKept : Prop :=
  (∀ (s : State),
     ((s.dev.ledgerQueue = [] ∨ s.dev.ledgerWriting ≠ none) → exec .ledgerSlotWrite s = .next s) ∧
     (s.dev.ledgerHeld = true → s.dev.countersOff = true → exec .ledgerSlotWrite s = .next s) ∧
     (∀ req rest, s.dev.ledgerQueue = req :: rest → s.dev.ledgerWriting = none → s.dev.ledgerHeld = false →
       ∃ t, exec .ledgerSlotWrite s = .next t ∧ t.ledger = (s.ledger.beginWrite req).1 ∧
         t.dev.ledgerWriting = some (req, (s.ledger.beginWrite req).2) ∧ t.mem = s.mem ∧ t.fuses = s.fuses ∧ t.layout = s.layout ∧
         t.pending = s.pending ∧ ∀ f : Field, f.key ≠ F.LEDGER_STATUS_QUEUED.key → t.dev.rd f = s.dev.rd f) ∧
     (s.dev.ledgerWriting = none → ∀ ok, exec (.ledgerWriteDone ok) s = .next s) ∧
     (∀ req second, s.dev.ledgerWriting = some (req, second) →
       let n := recordBlock req.record + second.toNat
       let free := s.dev.rd F.LEDGER_STATUS_SPARE_BLOCKS
       (∃ t, exec (.ledgerWriteDone true) s = .next t ∧ t.ledger = s.ledger.endWrite req second ∧ t.dev.ledgerWriting = none ∧
         t.mem = s.mem) ∧
       (free = 0 → exec (.ledgerWriteDone false) s = .next s) ∧
       (free ≠ 0 → free ≤ 5760 → ∃ t, exec (.ledgerWriteDone false) s = .next t ∧
         t.ledger.physical n = s.ledger.physical (59776 + (5760 - free)) ∧ t.ledger.records = s.ledger.records ∧
         t.dev.ledgerWriting = some (req, second) ∧ t.dev.rd F.LEDGER_STATUS_SPARE_BLOCKS = free - 1 ∧ t.mem = s.mem ∧
         ∀ f : Field, f.key ≠ F.LEDGER_STATUS_SPARE_BLOCKS.key → t.dev.rd f = s.dev.rd f)) ∧
     (let n := s.dev.rd F.LEDGER_RD_CTL_RECORD;
       (s.ledger.records.find? (fun kv => kv.1 = n) = none → ∃ t, exec .ledgerRead s = .next t ∧
         s.frame t [F.LEDGER_RD_STATUS_RESULT, F.LEDGER_RD_STATUS_BUSY] ∧ t.dev.rd F.LEDGER_RD_STATUS_RESULT = 1 ∧
         t.dev.rd F.LEDGER_RD_STATUS_BUSY = 0) ∧
       ∀ kv, s.ledger.records.find? (fun kv => kv.1 = n) = some kv →
         (∀ x, kv.2.newest = some x → ∃ t, exec .ledgerRead s = .next t ∧
           s.frame t (F.LEDGER_RD_STATUS_RESULT :: F.LEDGER_RD_STATUS_BUSY :: F.LEDGER_ERRORS_SLOTS_BAD ::
             (List.range 64).map F.LEDGER_RD_DATA_DATA) ∧
           t.dev.rd F.LEDGER_RD_STATUS_RESULT = 0 ∧ t.dev.rd F.LEDGER_RD_STATUS_BUSY = 0 ∧
           ∀ i : Fin 64, t.dev.rd (F.LEDGER_RD_DATA_DATA i) = x.toNat / 2 ^ (32 * i.val) % 2 ^ 32) ∧
         (kv.2.newest = none → ∃ t, exec .ledgerRead s = .next t ∧
           s.frame t [F.LEDGER_RD_STATUS_RESULT, F.LEDGER_RD_STATUS_BUSY, F.LEDGER_ERRORS_SLOTS_BAD, F.LEDGER_ERRORS_LOST] ∧
           t.dev.rd F.LEDGER_RD_STATUS_RESULT = 2 ∧ t.dev.rd F.LEDGER_RD_STATUS_BUSY = 0))) ∧
  (∀ (s : State) (crown levels : Int),
     (∃ t, exec (.lifeRecord crown levels) s = .next t ∧ s.frame t [F.LIFE_HOURS_HOURS, F.LIFE_CROWN_WEIGHTED, F.LIFE_LEVELS_WEIGHTED,
         F.LIFE_USED_CROWN, F.LIFE_USED_LEVELS, F.LEDGER_STATUS_QUEUED] ∧
       t.dev.life.hours = s.dev.life.hours + 1 ∧ t.dev.rd F.LIFE_HOURS_HOURS = (s.dev.life.hours + 1) % 2 ^ 32 ∧
       t.dev.life.crown = s.dev.life.crown + lifeWeight (crown - 320) ∧ t.dev.life.levels = s.dev.life.levels + lifeWeight (levels - 340) ∧
       (s.dev.ledgerQueue.length < 64 → ∃ r ∈ t.dev.ledgerQueue, r.record = 0x200000 ∧
         (payloadNum r.payload 0 4 = (s.dev.life.hours + 1) % 2 ^ 32))) ∧
     (∃ t, exec .evacStart s = .next t ∧ s.frame t [F.EVAC_STATUS_EVACUATING] ∧ t.dev.rd F.EVAC_STATUS_EVACUATING = 1) ∧
     ∃ t, exec .evacStop s = .next t ∧ s.frame t [F.EVAC_STATUS_EVACUATING] ∧ t.dev.rd F.EVAC_STATUS_EVACUATING = 0)

/-- Ports and the injector are switched (R12, R320, R328, R329, R357, Tables 12.3, 12.8). An enable whose checks pass sets ENABLE, its reason
reads 0 and every link of the MODE is in DETECT; a failing one leaves ENABLE 0 and gives its code. A disable leaves every link DISABLED; a
retrain brings every link that is neither DISABLED nor HALTED to DETECT. LOOPBACK is ignored while ENABLE is 1. The injector is enabled by
its own checks; a read of INJ_UNLOCK draws a nonce, and only the last one written back unlocks. Link states stated outside a collection.
The model's choices that this rests on: log entries 17, 109. -/
def Obligations.PortsAreSwitched : Prop :=
  ∀ (s : State) (p : Fin 64),
    let reasons := [F.DEV_REASON_CODE, F.DEV_REASON_TRIGGER, F.DEV_REASON_DETAIL]
    let code := firstCode (s.dev.commonChecks .port ++ s.portChecks p)
    let inj := firstCode (s.dev.commonChecks .inject ++ s.injectChecks p)
    (s.dev.rd (F.PORT_CTL_ENABLE p) ≠ 0 → exec (.portEnable p) s = .next s ∧ ∀ on, exec (.loopback p on) s = .next s) ∧
    (s.dev.rd (F.PORT_CTL_ENABLE p) = 0 →
      exec (.portDisable p) s = .next s ∧
      (code ≠ 0 → code < 256 → ∃ t, exec (.portEnable p) s = .next t ∧
        s.frame t (F.PORT_CTL_ENABLE p :: F.PORT_REASON_CODE p :: reasons) ∧ t.dev.rd (F.PORT_CTL_ENABLE p) = 0 ∧
        t.dev.rd F.DEV_REASON_CODE = code ∧ t.dev.rd (F.PORT_REASON_CODE p) = code ∧ t.dev.links = s.dev.links) ∧
      (code = 0 → s.dev.inCollection = false → s.dev.countersOff = true → ∃ t, exec (.portEnable p) s = .next t ∧ t.dev.rd (F.PORT_CTL_ENABLE p) = 1 ∧
        t.dev.rd F.DEV_REASON_CODE = 0 ∧ t.dev.rd (F.PORT_REASON_CODE p) = 0 ∧ t.mem = s.mem ∧
        ∀ k : Fin 4, s.dev.linkInMode p k = true → t.dev.lst (4 * p.val + k) = 1) ∧
      ∀ on, ∃ t, exec (.loopback p on) s = .next t ∧ s.frame t [F.PORT_CTL_LOOPBACK p] ∧ t.dev.rd (F.PORT_CTL_LOOPBACK p) = on.toNat) ∧
    (s.dev.inCollection = false → s.dev.hostOps = [] → s.dev.countersOff = true →
      (s.dev.rd (F.PORT_CTL_ENABLE p) ≠ 0 → ∃ t, exec (.portDisable p) s = .next t ∧ t.dev.rd (F.PORT_CTL_ENABLE p) = 0 ∧ t.mem = s.mem ∧
        ∀ k : Fin 4, t.dev.lst (4 * p.val + k) = 0) ∧
      ∃ t, exec (.portRetrain p) s = .next t ∧ t.mem = s.mem ∧ ∀ k : Fin 4, t.dev.lst (4 * p.val + k) =
        (if s.dev.lst (4 * p.val + k) = 0 ∨ s.dev.lst (4 * p.val + k) = 9 then s.dev.lst (4 * p.val + k) else 1)) ∧
    (s.dev.rd (F.INJ_CTL_ENABLE p) ≠ 0 → exec (.injEnable p) s = .next s) ∧
    (s.dev.rd (F.INJ_CTL_ENABLE p) = 0 →
      (inj ≠ 0 → inj < 256 → ∃ t, exec (.injEnable p) s = .next t ∧ s.frame t (F.INJ_CTL_ENABLE p :: reasons) ∧
        t.dev.rd (F.INJ_CTL_ENABLE p) = 0 ∧ t.dev.rd F.DEV_REASON_CODE = inj) ∧
      (inj = 0 → ∃ t, exec (.injEnable p) s = .next t ∧ s.frame t (F.INJ_CTL_ENABLE p :: F.INJ_STATUS_RUNNING p :: reasons) ∧
        t.dev.rd (F.INJ_CTL_ENABLE p) = 1 ∧ t.dev.rd (F.INJ_STATUS_RUNNING p) = 1 ∧
        slotAt t.dev.injLfsr p = some (atLeastOne (s.dev.rd (F.INJ_SEED_SEED p))))) ∧
    (∃ t, exec (.injUnlockRead p) s = .next t ∧ s.frame t [F.INJ_UNLOCK_NONCE p] ∧
      t.dev.rd (F.INJ_UNLOCK_NONCE p) = (Config.freeBits s.dev.freeCount).toNat % 2 ^ 16 ∧ t.dev.freeCount = s.dev.freeCount + 1) ∧
    ∀ key : BitVec 16,
      (key.toNat ≠ s.dev.rd (F.INJ_UNLOCK_NONCE p) → exec (.injUnlockKey p key) s = .next s) ∧
      (key.toNat = s.dev.rd (F.INJ_UNLOCK_NONCE p) → ∃ t, exec (.injUnlockKey p key) s = .next t ∧
        s.frame t [F.INJ_STATUS_UNLOCKED p] ∧ t.dev.rd (F.INJ_STATUS_UNLOCKED p) = 1)

/-- The events of training and recovery (R320, R321, R322, R325, R326, R355, Table 12.3). Signal on every logical lane takes a link of DETECT
to ACQUIRE at Step 0; a phase that has not ended at a step above 0 is tried once more, then the step below is acquired and noted; the idle
of a CHANGE whose lanes have counted acquires the next step. A recovery trigger takes an UP link to RECOVER, the fourth within 10 ms to
DETECT; a recovery too long and a HALT end in DETECT. A missing lane asks for a move where a spare stands by, else it is noted missing; a
failed spare is only marked. The model's choices that this rests on: log entries 29, 68. -/
def Obligations.LinksTrain : Prop :=
  ∀ (s : State) (l : Fin 256),
    let p := l.val / 4
    let k := l.val % 4
    let st := s.dev.lst l
    let n := s.dev.rd (F.PORT_LINK_STEP p k)
    let locks := (List.range 18).map (F.LANE_ERR_LOCKED p)
    let recent := (s.dev.tr l).recoveries.filter (fun t => decide (s.dev.time < t + 10000000))
    (∀ lanes, st ≠ 1 → exec (.signalDetect l lanes) s = .next s) ∧
    (∀ lanes, st = 1 → s.dev.linkInMode p k = true → (∀ j : Fin 16, j.val < s.dev.fullWidth l → lanes.getLsbD j = true) → ∃ t, exec (.signalDetect l lanes) s = .next t ∧
      s.frame t (F.PORT_LINK_STATE p k :: F.PORT_LINK_STEP p k :: locks) ∧ t.dev.lst l = 2 ∧ t.dev.rd (F.PORT_LINK_STEP p k) = 0) ∧
    ([2, 3, 4, 5].contains st = false → exec (.trainingPhaseTimeout l) s = .next s) ∧
    ([2, 3, 4, 5].contains st = true →
      (n = 0 → exec (.trainingPhaseTimeout l) s = .next (s.trainFail l (if (s.dev.tr l).modeBad then 0 else 2))) ∧
      (0 < n → n < 8 → s.dev.linkInMode p k = true → (s.dev.tr l).tries = 0 → ∃ t, exec (.trainingPhaseTimeout l) s = .next t ∧
        s.frame t (F.PORT_LINK_STATE p k :: locks) ∧ t.dev.lst l = 2 ∧ (t.dev.tr l).tries = 1) ∧
      (0 < n → n < 8 → s.dev.linkInMode p k = true → (s.dev.tr l).tries ≠ 0 → ∃ t, exec (.trainingPhaseTimeout l) s = .next t ∧
        s.frame t (F.PORT_LINK_STATE p k :: F.PORT_LINK_STEP p k :: F.PORT_LINK_FAILED_STEP p k :: locks) ∧ t.dev.lst l = 2 ∧
        t.dev.rd (F.PORT_LINK_STEP p k) = n - 1 ∧ t.dev.rd (F.PORT_LINK_FAILED_STEP p k) = n ∧ (t.dev.tr l).limit = n - 1)) ∧
    (let go := st = 5 ∧ s.dev.everyLane l (fun r => decide (8 ≤ r.run)) = true;
      (¬ go → exec (.stepChangeIdle l) s = .next s) ∧
      (go → n < 7 → s.dev.linkInMode p k = true → ∃ t, exec (.stepChangeIdle l) s = .next t ∧ s.frame t (F.PORT_LINK_STATE p k :: F.PORT_LINK_STEP p k :: locks) ∧
        t.dev.lst l = 2 ∧ t.dev.rd (F.PORT_LINK_STEP p k) = n + 1)) ∧
    (st ≠ 7 → exec (.recoveryTrigger l) s = .next s ∧ exec (.exitPattern l) s = .next s) ∧
    (st = 7 → s.dev.linkInMode p k = true → s.dev.countersOff = true → recent.length < 3 → ∃ t, exec (.recoveryTrigger l) s = .next t ∧ exec (.exitPattern l) s = .next t ∧
      s.frame t (F.PORT_LINK_STATE p k :: F.PORT_LINK_RECOVERIES p k :: locks) ∧ t.dev.lst l = 8 ∧
      t.dev.rd (F.PORT_LINK_RECOVERIES p k) = min (s.dev.rd (F.PORT_LINK_RECOVERIES p k) + 1) 65535 ∧
      (t.dev.linkSt l).replay = (s.dev.linkSt l).replay) ∧
    (st = 7 → s.dev.inCollection = false → s.dev.hostOps = [] → s.dev.countersOff = true → 3 ≤ recent.length → ∃ t, exec (.recoveryTrigger l) s = .next t ∧
      exec (.exitPattern l) s = .next t ∧ t.dev.lst l = 1 ∧ (t.dev.linkSt l).replay = [] ∧ t.mem = s.mem) ∧
    (st ≠ 8 → exec (.recoveryTimeout l) s = .next s) ∧
    (st = 8 → exec (.recoveryTimeout l) s = .next (s.toDetect l true)) ∧
    (exec (.halt l) s = .next (if st = 7 ∨ st = 8 then s.toDetect l false else s)) ∧
    (∀ retrain, st ≠ 0 → st ≠ 9 → s.dev.inCollection = false → s.dev.hostOps = [] → s.dev.countersOff = true →
      let t := s.toDetect l retrain
      t.dev.lst l = 1 ∧ t.dev.rd (F.PORT_LINK_STEP p k) = 0 ∧ t.dev.rd (F.PORT_LINK_WIDTH p k) = 3 ∧
        t.dev.rd (F.PORT_LINK_FAILED_STEP p k) = 7 ∧ t.mem = s.mem ∧ (st = 7 ∨ st = 8 → (t.dev.linkSt l).replay = [])) ∧
    (∀ lane : Fin 16,
      ((st ≠ 2 ∨ n ≠ 0 ∨ s.dev.fullWidth l ≤ lane.val) → exec (.acquireLaneMissing l lane) s = .next s) ∧
      (st = 2 → n = 0 → lane.val < s.dev.fullWidth l → s.dev.standby true p = none → ∃ t, exec (.acquireLaneMissing l lane) s = .next t ∧
        s.frame t [] ∧ lane.val ∈ (t.dev.tr l).missing) ∧
      (st = 2 → n = 0 → lane.val < s.dev.fullWidth l → s.dev.standby true p ≠ none → (s.dev.tr l).move = none →
        ∃ t, exec (.acquireLaneMissing l lane) s = .next t ∧ s.frame t [] ∧ (t.dev.tr l).move = some lane.val)) ∧
    ∀ (port : Fin 64) (lane : Fin 18),
      (16 ≤ lane.val → let used := (mapField true (lane = 17) port).2.1; let failed := (mapField true (lane = 17) port).2.2;
        s.dev.rd used = 0 → ∃ t, exec (.laneFailure port lane false) s = .next t ∧ s.frame t [failed] ∧ t.dev.rd failed = 1) ∧
      (lane.val < 16 → let on := s.dev.laneLink port lane none;
        exec (.laneFailure port lane false) s =
          .next (if [0, 1, 9].contains (s.dev.lst on) then s else s.askMove on (s.dev.rd (F.LANE_ERR_LOGICAL port lane)))) ∧
      (let u := s.withDev fun d => (d.bump (F.LANE_ERR_UNSTABLE port lane)).raise .laneUnstable (Src.port port) [(lane, 5), (1, 1)];
        exec (.laneFailure port lane true) s = exec (.laneFailure port lane false) u)

/-- Blocks on a lane (R311, R312, R313, R317, R319, Table 12.3). A lane that hears no blocks takes none of them. A header that is neither data
nor control is a lane error, and so is a control block that is no ordered block; a CC block changes nothing but the lane's history and
lock. A TS or SEED block is taken by its own rules; at the switch point of SEED the link comes UP where every lane has four agreeing
seeds, and returns to DETECT where one has not. The model's choices that this rests on: log entries 29, 71. -/
def Obligations.BlocksAreHeard : Prop :=
  ∀ (s : State) (p : Fin 64) (lane : Fin 18) (payload : BitVec 64) (adapt : Adapt),
    let quiet := s.dev.laneHears p lane = false
    let x := (descramble (s.dev.rx p lane).hist (s.dev.polar p lane payload.toNat)).1
    let u := s.withDev fun d => (d.setRx p lane fun r =>
      { r with hist := (descramble (s.dev.rx p lane).hist (s.dev.polar p lane payload.toNat)).2 }).header p lane false
    (quiet → exec (.tsBlock p lane payload adapt) s = .next s ∧ exec (.seedBlock p lane payload) s = .next s ∧
      exec (.ccBlock p lane payload) s = .next s ∧ ∀ header, exec (.dataBlock p lane header payload) s = .next s) ∧
    (¬ quiet →
      (∀ header : BitVec 2, (header = 0 ∨ header = 3) → s.dev.countersOff = true → ∃ t, exec (.dataBlock p lane header payload) s = .next t ∧
        s.frame t [F.LANE_ERR_ERRORS p lane, F.LANE_ERR_LOCKED p lane] ∧
        t.dev.rd (F.LANE_ERR_ERRORS p lane) = min (s.dev.rd (F.LANE_ERR_ERRORS p lane) + 1) 65535) ∧
      (s.dev.rd (F.LANE_ERR_INVERTED p lane) = 0 → exec (.dataBlock p lane 2 payload) s = .next (s.withDev fun d => d.dataBlock p lane payload.toNat)) ∧
      (ordered x = false → s.dev.lst (s.dev.laneLink p lane none) ≠ 6 → ∃ t, exec (.ccBlock p lane payload) s = .next t ∧
        exec (.tsBlock p lane payload adapt) s = .next t ∧ s.frame t [F.LANE_ERR_ERRORS p lane, F.LANE_ERR_LOCKED p lane] ∧
        t.dev.rd (F.LANE_ERR_ERRORS p lane) = min (s.dev.rd (F.LANE_ERR_ERRORS p lane) + 1) 65535) ∧
      (ordered x = true → x % 256 = 0x66 → ∃ t, exec (.ccBlock p lane payload) s = .next t ∧ s.frame t [F.LANE_ERR_LOCKED p lane] ∧
        (t.dev.rx p lane).hist = (descramble (s.dev.rx p lane).hist (s.dev.polar p lane payload.toNat)).2 ∧
        t.dev.links = s.dev.links ∧ t.dev.training = s.dev.training) ∧
      (ordered x = true → x % 256 = 0x1E → exec (.tsBlock p lane payload adapt) s = .next (u.tsReceived p lane x adapt)) ∧
      (ordered x = true → x % 256 = 0x33 → exec (.seedBlock p lane payload) s = .next
        (if s.dev.linkUp (linkNo p 0) then u.seedReceived p lane (some x) else (u.seedReceived p lane (some x)).rejoin (linkNo p 0)))) ∧
    ∀ l : Fin 256, s.dev.lst l = 6 → s.dev.everyLane l (fun r => decide (8 ≤ r.seedPos)) = true →
      (s.dev.everyLane l (fun r => decide (4 ≤ r.seedGood) && r.seed ≠ 0) = true → (s.seedSwitch l).dev.lst l = 7 ∧
        (s.seedSwitch l).mem = s.mem) ∧
      (s.dev.everyLane l (fun r => decide (4 ≤ r.seedGood) && r.seed ≠ 0) = false → s.seedSwitch l = s.toDetect l true)

/-- Flits (R318, R332, R333, R336, R337, R338, R341). A link that is not UP neither sends nor takes flits. A received flit with the
complemented CRC is dropped in silence; a DATA flit in order raises EXPECTED by one, a duplicate changes nothing. A transmitter sends a
FILL after 4,095 flits or in place of one whose FIFO ran empty, with its replay buffer full nothing new, and new messages in a DATA flit
that takes the next SEQ and is held for replay. An answer that does not come begins the replay at the oldest flit, unless the replay limit
asks for recovery. The model's choices that this rests on: log entries 63, 65, 67. -/
def Obligations.FlitsAreExchanged : Prop :=
  ∀ (s : State) (l : Fin 256),
    let p := l.val / 4
    let k := l.val % 4
    let x := s.dev.linkSt l
    let seq := s.dev.rd (F.FLIT_STATUS_TX_SEQ p k)
    (s.dev.lst l ≠ 7 → (∀ columns full deleted envs, exec (.flitReceive l columns full deleted envs) s = .next s) ∧
      (∀ starved, exec (.flitSend l starved) s = .next s) ∧ exec (.answerTimeout l) s = .next s) ∧
    (s.dev.lst l = 7 →
      (∀ columns full deleted envs bad ls, stuffReceive (s.dev.widthNow l) columns (s.dev.rxStuff l) = (none, bad, ls) →
        exec (.flitReceive l columns full deleted envs) s = .next (s.withDev fun d => d.setRxStuff l ls bad)) ∧
      (∀ columns deleted envs n bad ls, stuffReceive (s.dev.widthNow l) columns (s.dev.rxStuff l) = (some n, bad, ls) →
        let t := (s.withDev fun d => d.setRxStuff l ls bad).injectReceive l (BitVec.ofNat 2048 n) deleted envs
        exec (.flitReceive l columns false deleted envs) s = .next (if t.dev.lst l = 7 then t.withDev fun d => d.showFlits l else t)) ∧
      (∀ (f : BitVec 2048) deleted envs, f.toNat / 2 ^ 1984 = 2 ^ 64 - 1 - crc64 ((bytesOfNat 256 f.toNat).take 248) →
        s.dev.countersOff = true → s.checkFlit l f deleted envs = s) ∧
      (∀ (f : BitVec 2048) bad envs, (flitHeader f).seq = s.dev.rd (F.FLIT_STATUS_EXPECTED p k) → bad = true → s.dev.countersOff = true →
        (s.dataFlit l f bad envs).dev.rd (F.FLIT_STATUS_EXPECTED p k) = (s.dev.rd (F.FLIT_STATUS_EXPECTED p k) + 1) % 1024) ∧
      (∀ (f : BitVec 2048) bad envs, (flitHeader f).seq ≠ s.dev.rd (F.FLIT_STATUS_EXPECTED p k) →
        (s.dev.rd (F.FLIT_STATUS_EXPECTED p k) + 1024 - (flitHeader f).seq) % 1024 ≤ 64 → s.dataFlit l f bad envs = s) ∧
      (exec (.flitSend l true) s = .next (s.sendEmpty l 3)) ∧
      (4095 ≤ x.sinceFill → exec (.flitSend l false) s = .next (s.sendEmpty l 3)) ∧
      ((s.sendEmpty l 3).dev.linkSt l).sinceFill = 0 ∧
      (x.sinceFill < 4095 → x.replayAt = none → 64 ≤ x.replay.length → exec (.flitSend l false) s = .next (s.sendEmpty l 2)) ∧
      (x.sinceFill < 4095 → x.replayAt = none → x.replay.length < 64 → x.transit = [] → s.dev.countersOff = true → (s.pack l).1.stuck = [] → (s.pack l).1.taken ≠ [] →
        ∃ t, exec (.flitSend l false) s = .next t ∧ t.dev.rd (F.FLIT_STATUS_TX_SEQ p k) = (seq + 1) % 1024 ∧
          (∃ f, (t.dev.linkSt l).replay = x.replay ++ [{ seq := seq, flit := f }]) ∧ t.mem = s.mem) ∧
      (x.replay = [] → exec (.answerTimeout l) s = .next s) ∧
      (x.replay ≠ [] → s.dev.replayLimit l = false → ∃ t, exec (.answerTimeout l) s = .next t ∧ t.mem = s.mem ∧
        t.dev.rd (F.FLIT_ERRORS_TIMEOUTS p k) = min (s.dev.rd (F.FLIT_ERRORS_TIMEOUTS p k) + 1) 255 ∧
        t.dev.rd (F.FLIT_ERRORS_REPLAYS p k) = min (s.dev.rd (F.FLIT_ERRORS_REPLAYS p k) + 1) 255 ∧
        (t.dev.linkSt l).replayAt = some 0))

/-- LOAD, STORE, STORE_MASKED and ATOMIC at their port, and FENCE (R166, R348, R349, R350, R335, Table 7.16). On a link that is not UP nothing
is answered; on a peer link the message is discarded with LINK_PROTOCOL; a patron that is not bound gets TF_UNBOUND, an inactive one
TF_INACTIVE, bad fields STATUS 0x12; any other request enters translation with the applied level of its link. A fence is checked the same
way, and answered at once when no earlier request of its patron waits. Stated with no event counter enabled and no answer late. The
model's choices that this rests on: log entry 51. -/
def Obligations.RequestsAreChecked : Prop :=
  ∀ (s : State) (link : Fin 256) (msg : Msg) (env : AccessEnv), s.dev.countersOff = true → env.late = false →
    let p := msg.patron
    let up := s.dev.linkUp link
    let peer := s.dev.peerPort (link / 4)
    let bound := s.bound link p
    let active := s.dev.flag (F.PATRON_STATUS_ACTIVE p)
    let u := s.withDev fun d => { d with serial := d.serial + 1 }
    (∀ op : Fin 4,
      let i := if op = 0 then Instr.load link msg env else if op = 1 then .store link msg env
        else if op = 2 then .storeMasked link msg env else .atomic link msg env
      let m := { msg with op := op.val + 1 }
      let q : Req := { serial := s.dev.serial, link := link, msg := m, env := env, level := s.dev.appliedLevel link, arrived := s.dev.time }
      let answered := fun (t : State) (st : Nat) => t.dev.out = s.dev.out ++ [(link.val, q.replyMsg st 0 0 s.fuses.position)]
      (up = false → exec i s = .next u) ∧
      (up = true → peer = true → ∃ t, exec i s = .next t ∧ s.frame t [] ∧ t.dev.out = s.dev.out ∧
        t.dev.raised.length = s.dev.raised.length + 1) ∧
      (up = true → peer = false → bound = false → ∃ t, exec i s = .next t ∧ s.frame t [F.PATRON_STATUS_LAST_TF p] ∧ answered t 1 ∧
        t.dev.rd (F.PATRON_STATUS_LAST_TF p) = 1) ∧
      (up = true → peer = false → bound = true → active = false → ∃ t, exec i s = .next t ∧
        s.frame t [F.PATRON_STATUS_LAST_TF p, F.TF_COUNT_COUNT p 0] ∧ answered t 2 ∧ t.dev.rd (F.PATRON_STATUS_LAST_TF p) = 2 ∧
        t.dev.rd (F.TF_COUNT_COUNT p 0) = min (s.dev.rd (F.TF_COUNT_COUNT p 0) + 1) (2 ^ 32 - 1)) ∧
      (up = true → peer = false → bound = true → active = true → fieldsBad m = true → s.dev.rd F.TRACE_CTL_EN = 0 →
        ∃ t, exec i s = .next t ∧ s.frame t [] ∧ answered t 0x12) ∧
      (up = true → peer = false → bound = true → active = true → fieldsBad m = false → s.dev.rd F.TRACE_CTL_EN = 0 →
        exec i s = .next (u.enter q))) ∧
    (let fenced := fun (t : State) (st : Nat) => t.dev.out = s.dev.out ++ [(link.val, { op := 0x10, status := st, tag := msg.tag })];
      (up = false → exec (.fence link msg) s = .next s) ∧
      (up = true → peer = true → ∃ t, exec (.fence link msg) s = .next t ∧ s.frame t [] ∧ t.dev.out = s.dev.out ∧
        t.dev.raised.length = s.dev.raised.length + 1) ∧
      (up = true → peer = false → bound = false → ∃ t, exec (.fence link msg) s = .next t ∧ s.frame t [F.PATRON_STATUS_LAST_TF p] ∧
        fenced t 1) ∧
      (up = true → peer = false → bound = true → active = false → ∃ t, exec (.fence link msg) s = .next t ∧
        s.frame t [F.PATRON_STATUS_LAST_TF p, F.TF_COUNT_COUNT p 0] ∧ fenced t 2) ∧
      (up = true → peer = false → bound = true → active = true → (msg.reserved = true ∨ msg.addr ≠ 0 ∨ msg.arg ≠ 0) →
        ∃ t, exec (.fence link msg) s = .next t ∧ s.frame t [] ∧ fenced t 0x12) ∧
      (up = true → peer = false → bound = true → active = true → msg.reserved = false → msg.addr = 0 → msg.arg = 0 → s.dev.waiting = [] →
        s.dev.fences = [] → ∃ t, exec (.fence link msg) s = .next t ∧ s.frame t [] ∧ fenced t 0 ∧ t.dev.fences = []))

/-- The rights and states of a card (R174, R176, R188, Table 7.16). An access without the right its kind needs fails with TF_PERMISSION, a
write to a volume with TF_READ_ONLY; a REMOTE card sends it to its member, a MATERIALISING one makes it wait; a read of BLANK answers
zeros. A host request through such a card is answered so: the data of a read, STATUS 0x11 for poison, the fault's code with LAST_TF. The
model's choices that this rests on: log entries 51, 99. -/
def Obligations.CardsDecideAccesses : Prop :=
  (∀ (s : State) (a : Access) (c : Card) (cd level : Nat), cardState c ≠ 8 →
    let need := a.kind.need
    (cardPermits c need a.trolley = false → s.access a c cd level = (.fault 4 level, {}, s)) ∧
    (cardPermits c need a.trolley = true →
      (cardState c = 7 → s.access a c cd level = (.remote (cardMember c), {}, s)) ∧
      (cardState c = 9 → s.access a c cd level = (.wait (.card cd), {}, s)) ∧
      (cardState c = 4 → need ≠ 1 → s.access a c cd level = (.fault 5 level, {}, s)) ∧
      (cardState c = 2 → need = 1 → s.dev.countersOff = true → (s.access a c cd level).1 = .read 0 false ∧ (s.access a c cd level).2.2 = s))) ∧
  (∀ (s : State) (q : Req) (c : Card) (cd level : Nat), s.dev.flag (F.PATRON_CTL_SEALED q.msg.patron) = false → q.source = none → q.link < 256 →
    (∀ data poison info v, s.access q.access c cd level = (.read data poison, info, v) → v.dev.linkUp q.link = true →
      ∃ t, (s.useCard q c cd level).1 = some t ∧
        (q.link, q.replyMsg (if poison then 0x11 else 0) data 0 s.fuses.position) ∈ t.dev.out) ∧
    (∀ target info v, s.access q.access c cd level = (.written target, info, v) → v.dev.linkUp q.link = true →
      ∃ t, (s.useCard q c cd level).1 = some t ∧
        (q.link, q.replyMsg (if target then 0x10 else 0) 0 0 s.fuses.position) ∈ t.dev.out) ∧
    ∀ code lv info v, s.access q.access c cd level = (.fault code lv, info, v) →
      (s.useCard q c cd level).1 = some (v.fail q code lv cd info))

/-- Messages between devices and answers of hosts (R340, R352, R353, R361, R366, R367, R368, R383). None is taken on a link that is not UP,
and one that came by the wrong kind of link is discarded with LINK_PROTOCOL. A forwarded request enters translation for its source, a
retried atomic whose outcome is kept is answered from it; a reply to a forwarded request is relayed and frees its place, one without a
request changes nothing; a forwarded request without its reply is sent once more, never twice. A copied line past the last DPA is dropped.
The model's choices that this rests on: log entries 13, 64. -/
def Obligations.PeersAndHostsAreHeard : Prop :=
  ∀ (s : State) (link : Fin 256) (msg : Msg) (env : AccessEnv) (late : Bool),
    let up := s.dev.linkUp link
    let peer := s.dev.peerPort (link / 4)
    let u := s.withDev fun d => { d with serial := d.serial + 1 }
    let copied : MergeReq := { dpaLine := BitVec.ofNat 32 (msg.addr.toNat / 64), data := msg.data, mask := fullMask, poison := msg.value.getLsbD 0, cls := 5, grp := 0 }
    let dropped := fun (t : State) => s.frame t [] ∧ t.dev.raised.length = s.dev.raised.length + 1
    (up = false → exec (.rsp link msg) s = .next s ∧ exec (.hostData link msg) s = .next s ∧ exec (.fwdLoad link msg env) s = .next s ∧
      exec (.fwdStore link msg env) s = .next s ∧ exec (.fwdAtomic link msg env) s = .next s ∧ exec (.fwdRsp link msg late) s = .next s ∧
      exec (.fwdData link msg late) s = .next s ∧ exec (.xcopy link msg) s = .next s) ∧
    (up = true → peer = false → s.dev.countersOff = true →
      (∃ t, exec (.fwdLoad link msg env) s = .next t ∧ dropped t) ∧ (∃ t, exec (.fwdStore link msg env) s = .next t ∧ dropped t) ∧
      (∃ t, exec (.fwdAtomic link msg env) s = .next t ∧ dropped t) ∧ (∃ t, exec (.fwdRsp link msg late) s = .next t ∧ dropped t) ∧
      (∃ t, exec (.fwdData link msg late) s = .next t ∧ dropped t) ∧ ∃ t, exec (.xcopy link msg) s = .next t ∧ dropped t) ∧
    (up = true → (peer = true ∨ msg.reserved = true) → s.dev.countersOff = true →
      (∃ t, exec (.rsp link msg) s = .next t ∧ dropped t) ∧ ∃ t, exec (.hostData link msg) s = .next t ∧ dropped t) ∧
    (up = true → peer = false → msg.reserved = false →
      exec (.rsp link msg) s = .next (s.withDev fun d => (d.hostRsp link msg).2) ∧
      (s.dev.hostOps = [] → s.dev.countersOff = true → exec (.rsp link msg) s = .next s ∧ exec (.hostData link msg) s = .next s) ∧
      (∀ o d, s.dev.hostData link msg = (some o, d) → o.purpose ≠ .evac → exec (.hostData link msg) s = .next { s with dev := d })) ∧
    (up = true → peer = true →
      (∀ op : Fin 3,
        let i := if op = 0 then Instr.fwdLoad link msg env else if op = 1 then .fwdStore link msg env else .fwdAtomic link msg env
        let q : Req := { serial := s.dev.serial, link := link, msg := { msg with op := 0x40 + op.val }, env := env, level := msg.hops % 4, arrived := s.dev.time, source := some msg.member }
        ((op ≠ 2 ∨ msg.hops.testBit 2 = false) → exec i s = .next (u.enter q)) ∧
        (∀ a, op = 2 → msg.hops.testBit 2 = true →
          s.dev.atomicsDone.find? (fun a => a.source = msg.member && a.tag = msg.tag) = some a →
          exec i s = .next (u.sendPeer msg.member (q.replyMsg a.status 0 a.value s.fuses.position)))) ∧
      (s.dev.forwards.find? (fun f => f.tag = msg.tag) = none →
        exec (.fwdRsp link msg late) s = .next s ∧ exec (.fwdData link msg late) s = .next s) ∧
      (∀ f, s.dev.forwards.find? (fun f => f.tag = msg.tag) = some f →
        let q := { f.req with env := { f.req.env with late := late } }
        let v := s.withDev fun d => { d with forwards := d.forwards.filter (fun x => x ≠ f) };
        exec (.fwdRsp link msg late) s = .next ((v.answer q msg.status msg.data msg.value {} true).releaseAll fun h => h = .holder f.holder) ∧
        exec (.fwdData link msg late) s = exec (.fwdRsp link msg late) s) ∧
      (msg.reserved = false → dpaEnd ≤ msg.addr.toNat → exec (.xcopy link msg) s = .next s) ∧
      (msg.reserved = false → msg.addr.toNat < dpaEnd → exec (.xcopy link msg) s = exec (.mergeWrite copied) s)) ∧
    ∀ tag : Fin 4096,
      (s.dev.forwards.find? (fun f => f.tag = tag.val && !f.retried) = none → exec (.fwdTimeout tag) s = .next s) ∧
      (∀ f, s.dev.forwards.find? (fun f => f.tag = tag.val && !f.retried) = some f → s.dev.countersOff = true →
        ∃ t, exec (.fwdTimeout tag) s = .next t ∧ s.frame t [] ∧
          t.dev.forwards = s.dev.forwards.map (fun x => if x = f then { x with retried := true } else x) ∧
          (∀ l, s.peerLink f.holder = some l → ∃ m, t.dev.out = s.dev.out ++ [(l, m)] ∧ m.tag = f.tag ∧ m.home = f.holder))

/-- Joining, founding and leaving (R367, R374, R375, R376, R379, R380, Tables 14.3, 14.4). JOIN that reads 1 takes no further write of 1; a
failing check leaves JOIN 0 and gives its code; a join that passes is JOINING and asks every peer that is UP; a founding join without one
makes the device HEAD of a collection of its own. The head answers a JOIN_REQ with its code, entering the position where it is 0; a
refusal ends the join, an acceptance names the head. JOIN written 0 is refused while leaves stand, waits for the roll call in a
collection, and ends at once outside one. Only a join that waits times out; only a member loses its head. The model's choices that this
rests on: log entries 17, 30, 31, 32. -/
def Obligations.CollectionsForm : Prop :=
  ∀ (s : State) (link : Fin 256) (msg : Msg),
    let me := s.fuses.position
    let reasons := [F.DEV_REASON_CODE, F.DEV_REASON_TRIGGER, F.DEV_REASON_DETAIL, F.COLL_REASON_CODE, F.COLL_CTL_JOIN]
    let dropped := fun (t : State) => s.frame t [] ∧ t.dev.raised.length = s.dev.raised.length + 1
    let open_ := s.dev.linkUp link = true ∧ s.dev.peerPort (link / 4) = true ∧ msg.reserved = false
    let st := s.dev.rd F.COLL_STATUS_STATE
    (s.dev.rd F.COLL_CTL_JOIN ≠ 0 → exec .collJoin s = .next s ∧ exec .collFound s = .next s) ∧
    (∀ found : Bool, s.dev.rd F.COLL_CTL_JOIN = 0 →
      let i := if found then Instr.collFound else .collJoin
      let u := s.withDev fun d => d.put F.COLL_CTL_FOUND found
      let code := firstCode (u.dev.commonChecks .join ++ u.joinChecks found)
      (code ≠ 0 → code < 256 → ∃ t, exec i s = .next t ∧ s.frame t (F.COLL_CTL_FOUND :: reasons) ∧ t.dev.rd F.COLL_CTL_JOIN = 0 ∧
        t.dev.rd F.COLL_REASON_CODE = code ∧ t.dev.rd F.DEV_REASON_CODE = code) ∧
      (code = 0 → s.dev.peerUp = true → s.dev.coll.headKnown = false → ∃ t, exec i s = .next t ∧
        s.frame t (F.COLL_CTL_FOUND :: F.COLL_STATUS_STATE :: reasons) ∧ t.dev.rd F.COLL_CTL_JOIN = 1 ∧ t.dev.rd F.COLL_STATUS_STATE = 1 ∧
        t.dev.rd F.COLL_CTL_FOUND = found.toNat ∧ t.dev.rd F.COLL_REASON_CODE = 0 ∧
        ∀ k ∈ s.dev.peerLinks, s.dev.linkUp (linkNo (s.dev.rd (F.COLL_DIM_PORT k)) 0) = true →
          ∃ m, (linkNo (s.dev.rd (F.COLL_DIM_PORT k)) 0, m) ∈ t.dev.out ∧ m.op = 0x4C ∧ m.arg = me) ∧
      (code = 0 → found = true → s.dev.peerUp = false → s.dev.map = 0 → me < 64 → ∃ t, exec i s = .next t ∧ t.dev.rd F.COLL_CTL_JOIN = 1 ∧
        t.dev.rd F.COLL_STATUS_STATE = 3 ∧ t.dev.rd F.COLL_STATUS_HEAD = me ∧ t.dev.map = 2 ^ me ∧ t.dev.lostMap = 0 ∧ t.mem = s.mem)) ∧
    (s.dev.linkUp link = false → exec (.joinReq link msg) s = .next s ∧ exec (.joinRsp link msg) s = .next s) ∧
    (s.dev.linkUp link = true → (s.dev.peerPort (link / 4) = false ∨ msg.reserved = true) → s.dev.countersOff = true →
      (∃ t, exec (.joinReq link msg) s = .next t ∧ dropped t) ∧ ∃ t, exec (.joinRsp link msg) s = .next t ∧ dropped t) ∧
    (open_ →
      (st ≠ 3 → s.dev.inCollection = false → exec (.joinReq link msg) s = .next s) ∧
      (st = 3 → s.joinCode msg ≠ 0 → ∃ t, exec (.joinReq link msg) s = .next t ∧ s.frame t [] ∧ t.dev.coll = s.dev.coll ∧
        ∀ l, s.peerLink msg.arg = some l → ∃ m, t.dev.out = s.dev.out ++ [(l, m)] ∧ m.op = 0x4D ∧ m.arg = s.joinCode msg ∧ m.status = me) ∧
      (st = 3 → s.joinCode msg = 0 → s.dev.journal = [] → ∃ t, exec (.joinReq link msg) s = .next t ∧ s.frame t [] ∧
        (msg.arg, msg.line) ∈ t.dev.coll.joins ∧
        ∀ l, s.peerLink msg.arg = some l → ∃ m, t.dev.out = s.dev.out ++ [(l, m)] ∧ m.op = 0x4D ∧ m.arg = 0) ∧
      (s.dev.joinWaits = false → exec (.joinRsp link msg) s = .next s) ∧
      (s.dev.joinWaits = true → msg.arg ≠ 0 → exec (.joinRsp link msg) s = .next (s.joinRefused msg.arg)) ∧
      (s.dev.joinWaits = true → msg.arg = 0 → (s.dev.rd F.COLL_CTL_FOUND = 0 ∨ s.dev.coll.rejoining = true) → msg.status < 64 →
        ∃ t, exec (.joinRsp link msg) s = .next t ∧
          s.frame t [F.COLL_STATUS_HEAD, F.COLL_VERSION_RUN_LEVEL, F.TB_STATUS_SLEWING] ∧ t.dev.rd F.COLL_STATUS_HEAD = msg.status ∧
          t.dev.coll.joinAccepted = true)) ∧
    (∀ code, code < 256 →
      (s.joinRefused code).dev.rd F.COLL_REASON_CODE = code ∧
      (s.dev.coll.rejoining = false → (s.joinRefused code).dev.rd F.COLL_CTL_JOIN = 0 ∧ (s.joinRefused code).dev.rd F.COLL_STATUS_STATE = 0) ∧
      (s.dev.coll.rejoining = true → (s.joinRefused code).dev.rd F.COLL_STATUS_STATE = st)) ∧
    (s.dev.rd F.COLL_CTL_JOIN = 0 → exec .collLeave s = .next s) ∧
    (s.dev.rd F.COLL_CTL_JOIN ≠ 0 →
      (s.dev.allLeaves ≠ 0 → ∃ t, exec .collLeave s = .next t ∧ s.frame t reasons ∧ t.dev.rd F.COLL_CTL_JOIN = 1 ∧
        t.dev.rd F.COLL_REASON_CODE = 0xA8) ∧
      (s.dev.allLeaves = 0 → s.dev.inCollection = true → ∃ t, exec .collLeave s = .next t ∧ s.frame t reasons ∧
        t.dev.rd F.COLL_CTL_JOIN = 0 ∧ t.dev.coll.leaving = true ∧ t.dev.rd F.COLL_STATUS_STATE = st) ∧
      (s.dev.allLeaves = 0 → s.dev.inCollection = false → s.dev.map = 0 → ∃ t, exec .collLeave s = .next t ∧
        t.dev.rd F.COLL_CTL_JOIN = 0 ∧ t.dev.rd F.COLL_STATUS_STATE = 0 ∧ t.mem = s.mem)) ∧
    (exec .joinTimeout s = .next (if s.dev.joinWaits = false then s
      else if s.dev.rd F.COLL_CTL_FOUND ≠ 0 ∧ s.dev.coll.rejoining = false then s.found else s.joinRefused 0xAA)) ∧
    ∀ reach evac, (st ≠ 2 → exec (.headLost reach evac) s = .next s) ∧
      (st = 2 → s.dev.peerLinks = [] → exec (.headLost reach evac) s = .next s.isolate)

/-- A collection's life (R361, R371, R372, R377, R378, R382). Its messages are taken on UP peer links alone. A roll call means nothing to a
device that is ALONE, an answer nothing to one that is not HEAD; the head records the answer of a member. The head answers a TIME_REQ with
its time base, a member measures its offset from the answer, or from a pulse where TSYNC is set: the offset is shown, corrected, and
OUT_OF_STEP set above 100 ns. A CARD_SET is applied or waits; a CARD_ACK of a member that no command waits for changes nothing; the timer
of the roll call acts at the head alone. The model's choices that this rests on: log entries 32, 57, 114. -/
def Obligations.CollectionsAgree : Prop :=
  ∀ (s : State) (link : Fin 256) (msg : Msg),
    let dropped := fun (t : State) => s.frame t [] ∧ t.dev.raised.length = s.dev.raised.length + 1
    let open_ := s.dev.linkUp link = true ∧ s.dev.peerPort (link / 4) = true ∧ msg.reserved = false
    let st := s.dev.rd F.COLL_STATUS_STATE
    let clock := [F.COLL_OFFSET_OFFSET, F.TB_STATUS_SLEWING, F.COLL_STATUS_OUT_OF_STEP]
    let measured := fun (t : State) (off : Int) => s.frame t clock ∧ t.dev.rd F.COLL_OFFSET_OFFSET = (off % 2 ^ 32).toNat ∧
      (100 < off.natAbs → t.dev.rd F.COLL_STATUS_OUT_OF_STEP = 1) ∧
      (off.natAbs ≤ 100 → 7 ≤ s.dev.coll.inStep → t.dev.rd F.COLL_STATUS_OUT_OF_STEP = 0) ∧
      (off.natAbs ≤ 100 → s.dev.coll.inStep < 7 → t.dev.rd F.COLL_STATUS_OUT_OF_STEP = s.dev.rd F.COLL_STATUS_OUT_OF_STEP)
    (∀ i ∈ [Instr.cardSet link msg, .cardAck link msg, .rollCall link msg, .rollAnswer link msg, .timeReq link msg, .timeRsp link msg],
      (s.dev.linkUp link = false → exec i s = .next s) ∧
      (s.dev.linkUp link = true → (s.dev.peerPort (link / 4) = false ∨ msg.reserved = true) → s.dev.countersOff = true →
        ∃ t, exec i s = .next t ∧ dropped t)) ∧
    (open_ →
      ((s.fuses.variantS = true ∨ st = 0) → exec (.rollCall link msg) s = .next s) ∧
      (exec (.rollCall link msg) s = .next (s.rollCall msg)) ∧
      ((st ≠ 3 ∨ s.dev.map.testBit msg.arg = false) → exec (.rollAnswer link msg) s = .next s) ∧
      (st = 3 → s.dev.map.testBit msg.arg = true → s.dev.rd F.COLL_CAT_SEQ_SEQ ≤ msg.tag → ∃ t, exec (.rollAnswer link msg) s = .next t ∧
        s.frame t [] ∧ (t.dev.memberInfo msg.arg).answered = true ∧ (t.dev.memberInfo msg.arg).missed = 0 ∧
        (t.dev.memberInfo msg.arg).state = msg.status % 8 ∧ (t.dev.memberInfo msg.arg).time = msg.cmp.toNat) ∧
      (st ≠ 3 → exec (.timeReq link msg) s = .next s) ∧
      (st = 3 → ∃ t, exec (.timeReq link msg) s = .next t ∧ s.frame t [] ∧
        ∀ l, s.peerLink msg.arg = some l → ∃ m, t.dev.out = s.dev.out ++ [(l, m)] ∧ m.op = 0x4B ∧ m.addr = msg.addr ∧
          m.value = BitVec.ofNat 64 s.dev.time) ∧
      (st ≠ 2 → exec (.timeRsp link msg) s = .next s) ∧
      (st = 2 → ∃ t, exec (.timeRsp link msg) s = .next t ∧
        measured t ((((msg.value.toNat : Int) - msg.addr.toNat) - ((s.dev.time : Int) - msg.cmp.toNat)) / 2)) ∧
      (let found := s.cardOp msg.patron (msg.arg % 4 + 1) (msg.addr.toNat % 2 ^ 48)
          (some (msg.value, if msg.arg.testBit 2 then some msg.cmp else none));
        (∀ u, found = (none, u) → exec (.cardSet link msg) s =
          .next (u.withDev fun d => { d with cardWaits := d.cardWaits ++ [msg] })) ∧
        ∀ r old u l, found = (some (r, old), u) → r ≠ 0 → u.peerLink (u.dev.rd F.COLL_STATUS_HEAD) = some l →
          ∃ t m, exec (.cardSet link msg) s = .next t ∧ u.frame t [] ∧ t.dev.out = u.dev.out ++ [(l, m)] ∧ m.op = 0x47 ∧ m.status = r) ∧
      (s.dev.jobCat = none → (s.dev.cat = none ∨ ∃ c, s.dev.cat = some c ∧ c.waits.contains msg.arg = false) →
        exec (.cardAck link msg) s = .next s) ∧
      (∀ c, s.dev.jobCat = none → s.dev.cat = some c → c.waits = [msg.arg] → c.phase ≠ 1 → msg.status < 8 → c.result = 0 →
        ∃ t, exec (.cardAck link msg) s = .next t ∧ t.dev.cat = none ∧ t.dev.rd F.CAT_STATUS_BUSY = 0 ∧
          t.dev.rd F.CAT_STATUS_RESULT = msg.status)) ∧
    (st ≠ 3 → exec .rollCallTimer s = .next s) ∧
    (st = 3 → s.fuses.position < 64 → s.dev.map = 2 ^ s.fuses.position → s.dev.lostMap = 0 → s.dev.coll.joins = [] → s.dev.coll.leaves = [] →
      s.dev.coll.leaving = false → s.dev.rd F.EVAC_STATUS_EVACUATING = 0 → ∃ t, exec .rollCallTimer s = .next t ∧
        s.frame t [F.COLL_MEMBERS_MAP 0, F.COLL_MEMBERS_MAP 1, F.COLL_LOST_MAP 0, F.COLL_LOST_MAP 1, F.COLL_STATUS_MEMBERS,
          F.COLL_VERSION_RUN_LEVEL] ∧ t.dev.rd F.COLL_STATUS_MEMBERS = 1 ∧ t.dev.map = s.dev.map ∧ t.dev.out = s.dev.out) ∧
    ((st ≠ 2 ∨ s.dev.rd F.COLL_CFG_TSYNC ≠ 0) → exec .timeExchangeTimer s = .next s) ∧
    (st = 2 → s.dev.rd F.COLL_CFG_TSYNC = 0 → ∃ t, exec .timeExchangeTimer s = .next t ∧ s.frame t [] ∧
      ∀ l, s.peerLink (s.dev.rd F.COLL_STATUS_HEAD) = some l → ∃ m, t.dev.out = s.dev.out ++ [(l, m)] ∧ m.op = 0x4A ∧
        m.arg = s.fuses.position) ∧
    ((st ≠ 2 ∨ s.dev.rd F.COLL_CFG_TSYNC = 0) → exec .tsyncPulse s = .next s) ∧
    (st = 2 → s.dev.rd F.COLL_CFG_TSYNC ≠ 0 → ∃ t, exec .tsyncPulse s = .next t ∧
      (let late := (s.dev.time : Int) - s.dev.rd F.COLL_CFG_TSYNC_DELAY;
        measured t ((late + 500000) / 1000000 * 1000000 - late))) ∧
    ∀ line, exec (.evacListRead line) s = .next
      (((s.withDev fun d => { d with hostOps := d.hostOps.filter (fun o => o.purpose ≠ .evac) }).evacLine line).pumpEvac)

/-- The PLLs (R391, R392, R396, R397, Tables 15.2, 15.4). A PLL moved to a state is in it with its gate open from LOCKED on. In ACQUIRE a lock
detector that reads LOCKED_IN lets the window check run, whose pass locks the PLL; a time-out starts ACQUIRE again and is counted as an
unlock; a locked PLL that loses lock on a QUALIFIED reference acquires again; a slew ends in LOCKED. A new frequency of HP3 relocks it, in
HOLDOVER once it is locked. A holdover of 10 s is raised once. Stated with no counter enabled, outside a collection, without host
operations. The model's choices that this rests on: log entry 83. -/
def Obligations.PllsLock : Prop :=
  ∀ (s : State) (i : Fin 68), s.dev.countersOff = true → s.dev.inCollection = false → s.dev.hostOps = [] →
    let st := s.dev.pll i
    let gate := fun (t : State) => if i.val < 64 then t.dev.rd (F.CLK_PORT_PLL_GATE_OPEN i) else t.dev.rd (F.CLK_PLL_STATUS_GATE_OPEN (i - 64))
    let unlocks := if i.val < 64 then F.CLK_PORT_PLL_UNLOCKS i else F.CLK_PLL_STATUS_UNLOCKS (i - 64)
    let more := fun (t : State) => t.dev.rd unlocks = min (s.dev.rd unlocks + 1) (2 ^ unlocks.width - 1)
    (∀ to_ : Fin 5, (i = 67 → to_ = 2 → s.dev.clk.freqPending = false) →
      (s.pllTo i to_).dev.pll i = to_.val ∧ gate (s.pllTo i to_) = (if 2 ≤ to_.val then 1 else 0) ∧ (s.pllTo i to_).mem = s.mem) ∧
    (∀ clamps, (st ≠ 1 → exec (.pllLockDetect i clamps) s = .next s) ∧
      (st = 1 → ∃ t, exec (.pllLockDetect i clamps) s = .next t ∧
        s.frame t (if i.val < 64 then [] else [F.CLK_PLL_STATUS_CLAMPS (i - 64)]) ∧ i.val ∈ t.dev.clk.lockedIn ∧
        t.dev.raised.length = s.dev.raised.length + clamps)) ∧
    (∀ pass, (st ≠ 1 ∨ s.dev.clk.lockedIn.contains i.val = false) → exec (.pllWindowCheck i pass) s = .next s) ∧
    (st = 1 → s.dev.clk.lockedIn.contains i.val = true →
      exec (.pllWindowCheck i true) s = .next (s.pllTo i 2) ∧
      ∃ t, exec (.pllWindowCheck i false) s = .next t ∧ s.frame t [] ∧ t.dev.clk.lockedIn.contains i.val = false) ∧
    (st ≠ 1 → exec (.pllAcquireTimeout i) s = .next s) ∧
    (st = 1 → ∃ t, exec (.pllAcquireTimeout i) s = .next t ∧ t.dev.pll i = 1 ∧ more t ∧ t.mem = s.mem) ∧
    (((st ≠ 2 ∧ st ≠ 4) ∨ s.dev.refState (s.dev.rd F.CLK_REF_STATUS_FOLLOWING_B) ≠ 1) → exec (.pllLockLost i) s = .next s) ∧
    ((st = 2 ∨ st = 4) → s.dev.refState (s.dev.rd F.CLK_REF_STATUS_FOLLOWING_B) = 1 →
      ∃ t, exec (.pllLockLost i) s = .next t ∧ t.dev.pll i = 1 ∧ gate t = 0 ∧ more t ∧ t.mem = s.mem) ∧
    (st ≠ 4 → exec (.pllSlewDone i) s = .next s) ∧
    (st = 4 → exec (.pllSlewDone i) s = .next (s.pllTo i 2)) ∧
    ((s.dev.clk.longRaised = true ∨ ∀ j < 68, s.dev.pll j ≠ 3) → exec .holdoverLong s = .next s) ∧
    (∀ j < 68, s.dev.pll j = 3 → s.dev.clk.longRaised = false → ∃ t, exec .holdoverLong s = .next t ∧ s.frame t [] ∧
      t.dev.clk.longRaised = true ∧ t.dev.raised.length = s.dev.raised.length + 1) ∧
    ∀ freq : BitVec 4,
      (s.dev.pll 67 = 0 → ∃ t, exec (.clkHp3Freq freq) s = .next t ∧ s.frame t [F.CLK_HP3_CTL_FREQ] ∧
        t.dev.rd F.CLK_HP3_CTL_FREQ = freq.toNat) ∧
      (s.dev.pll 67 = 3 → ∃ t, exec (.clkHp3Freq freq) s = .next t ∧ s.frame t [F.CLK_HP3_CTL_FREQ] ∧
        t.dev.rd F.CLK_HP3_CTL_FREQ = freq.toNat ∧ t.dev.clk.freqPending = true) ∧
      (s.dev.pll 67 ≠ 0 → s.dev.pll 67 ≠ 3 → ∃ t, exec (.clkHp3Freq freq) s = .next t ∧
        s.frame t [F.CLK_HP3_CTL_FREQ, F.CLK_PLL_STATUS_STATE 3, F.CLK_PLL_STATUS_GATE_OPEN 3, F.CLK_PLL_STATUS_SLEWING 3] ∧
        t.dev.rd F.CLK_HP3_CTL_FREQ = freq.toNat ∧ t.dev.pll 67 = 1)

/-- The reference inputs (R386, R387, R396, R397). An input that qualifies is QUALIFIED, and the PLLs follow the choice of R387; a QUALIFIED
input without edges is LOST and one beyond 1,000 ppm BAD, each raised, and neither happens to an input that is not QUALIFIED; A_PPM shows
every window of REFCLK_A. When the followed input is lost and the other is not QUALIFIED, every locked PLL goes into HOLDOVER. REFCLK_A
back for 100 ms is followed under AUTO alone. The model's choices that this rests on: log entry 83. -/
def Obligations.ReferencesAreFollowed : Prop :=
  ∀ (s : State) (input : Fin 2) (errors : List Int) (ppm : Int), s.dev.countersOff = true →
    let states := [F.CLK_REF_STATUS_A_STATE, F.CLK_REF_STATUS_B_STATE, F.CLK_REF_STATUS_FOLLOWING_B]
    let off := ∀ j < 68, s.dev.pll j < 2
    let one := s.dev.refState input = 1
    let far := 10000 < ppm.natAbs
    (off → ∃ t, exec (.refQualify input errors) s = .next t ∧ s.frame t states ∧ t.dev.refState input = 1) ∧
    (let u := s.withDev fun d => d.setRef input 1;
      exec (.refQualify input errors) s = .next (u.follow u.dev.refChoice errors)) ∧
    (¬ one → exec (.refLost input errors) s = .next s) ∧
    (one → off → ∃ t, exec (.refLost input errors) s = .next t ∧ s.frame t states ∧ t.dev.refState input = 2 ∧
      t.dev.raised.length = s.dev.raised.length + 1) ∧
    (one → s.dev.rd F.CLK_REF_STATUS_FOLLOWING_B = input.val → s.dev.rd F.CLK_REF_CTL_SELECT = 0 → s.dev.refState (1 - input) ≠ 1 →
      ∃ t, exec (.refLost input errors) s = .next t ∧ t.dev.refState input = 2 ∧
        ∀ j < 68, t.dev.pll j = if s.dev.pll j = 2 ∨ s.dev.pll j = 4 then 3 else s.dev.pll j) ∧
    ((¬ one ∨ ¬ far) → ∃ t, exec (.refWindow input ppm errors) s = .next t ∧
      s.frame t (if input = 0 then [F.CLK_REF_STATUS_A_PPM] else []) ∧
      (input = 0 → t.dev.rd F.CLK_REF_STATUS_A_PPM = (ppm % 2 ^ 16).toNat)) ∧
    (one → far → off → ∃ t, exec (.refWindow input ppm errors) s = .next t ∧ s.frame t (F.CLK_REF_STATUS_A_PPM :: states) ∧
      t.dev.refState input = 3 ∧ t.dev.raised.length = s.dev.raised.length + 1) ∧
    ((s.dev.rd F.CLK_REF_CTL_SELECT = 1 ∨ s.dev.rd F.CLK_REF_CTL_SELECT = 2 ∨ s.dev.refState 0 ≠ 1) →
      exec (.refReturnHold errors) s = .next s) ∧
    (s.dev.rd F.CLK_REF_CTL_SELECT = 0 → s.dev.refState 0 = 1 → off → ∃ t, exec (.refReturnHold errors) s = .next t ∧ s.frame t states ∧
      t.dev.rd F.CLK_REF_STATUS_FOLLOWING_B = 0)

/-- Temperatures are sampled (R104, R121, R400, R401, R402, R405, R407, Tables 16.1, 16.2). A reading is stored for its sensor; one outside
−20 °C to 150 °C makes the sensor BROKEN, cause 1. A level's window is that of its trusted temperature, or 5,657 µs while it is held at
110 °C. Readings pause while the steward, or the foot, is reset. A hygrometer of a gated quadrant gives no sample, one without a usable
curve reads zeros, any other the sample of R121. The stack model estimates a level from its neighbours and its own heat. CLEAR ends
SUSPECT where no sensor is BROKEN and the last second saw no comparison beyond 5 °C. The model's choices that this rests on: log entries
33, 34, 35, 80. -/
def Obligations.TemperaturesAreRead : Prop :=
  ∀ (s : State) (level : Fin 17) (readings : List SensorReading), s.dev.countersOff = true →
    let zone := 16 + level.val
    (s.dev.rd (F.LEVEL_RESET_RECOVERING level) ≠ 0 → exec (.levelSensorSample level readings) s = .next s ∧
      ∀ quadrant fails, exec (.hygroSample level quadrant fails) s = .next s) ∧
    (s.dev.rd (F.LEVEL_RESET_RECOVERING level) = 0 → exec (.levelSensorSample level readings) s = .next (s.levelSample level readings)) ∧
    (exec (.crownSensorSample readings) s = .next (s.sampleZones (List.range 16) readings fun d z => some (median2 ((d.healthy z).map d.reading)))) ∧
    (s.dev.footInReset = true → exec (.footSensorSample readings) s = .next s) ∧
    (s.dev.footInReset = false → exec (.footSensorSample readings) s =
      .next (s.sampleZones [33] readings fun d _ => some ((d.trustedLevel 0).map (2 * ·)))) ∧
    (∀ (i : Fin 218) (r : SensorReading),
      let d := s.dev.sample i r
      d.rd (F.THERM_SENSOR_TEMP i) = (r.temp % 2 ^ 11).toNat ∧
      ((r.temp < -80 ∨ 600 < r.temp) → s.dev.sensorState i ≠ 2 → d.sensorState i = 2 ∧ d.rd (F.THERM_SENSOR_CAUSE i) = 1) ∧
      (-80 ≤ r.temp → r.temp ≤ 600 → (s.dev.sensor i).last = none → r.refBad = false → d.sensorState i = s.dev.sensorState i) ∧
      (∀ t, -80 ≤ r.temp → r.temp ≤ 600 → (s.dev.sensor i).last = some t → 32 < (r.temp - t).natAbs → s.dev.sensorState i ≠ 2 →
        d.sensorState i = 2 ∧ d.rd (F.THERM_SENSOR_CAUSE i) = 2)) ∧
    (s.dev.forced110 level = true → (s.dev.levelWindow level).rd (F.REFRESH_STATUS_WINDOW level) = 5657 ∧
      (s.dev.levelWindow level).rd (F.REFRESH_STATUS_FORCED_110 level) = 1) ∧
    (∀ t, s.dev.forced110 level = false → s.dev.trustedLevel level = some t → t < 1024 →
      (s.dev.levelWindow level).rd (F.REFRESH_STATUS_WINDOW level) = refreshWindow t ∧
      (s.dev.levelWindow level).rd (F.REFRESH_STATUS_TEMP level) = t.toNat ∧
      (s.dev.levelWindow level).rd (F.REFRESH_STATUS_FORCED_110 level) = 0) ∧
    (s.dev.rd (F.LEVEL_RESET_RECOVERING level) = 0 → ∀ (quadrant : Fin 4) (fails : Nat),
      let fields := [F.HYGRO_TEMP level quadrant, F.HYGRO_VALID level quadrant, F.HYGRO_BELOW_RANGE level quadrant,
        F.HYGRO_ABOVE_RANGE level quadrant, F.HYGRO_FAILS level quadrant]
      (s.dev.domainOn (Dom.quadrant level quadrant) = false → exec (.hygroSample level quadrant fails) s = .next s) ∧
      (s.dev.domainOn (Dom.quadrant level quadrant) = true →
        ((s.ledger.curve level quadrant).filter curveUsable = none → ∃ t, exec (.hygroSample level quadrant fails) s = .next t ∧
          s.frame t fields ∧ ∀ f ∈ fields, t.dev.rd f = 0) ∧
        (∀ c, (s.ledger.curve level quadrant).filter curveUsable = some c → s.dev.ownReading level = none → s.dev.suspect level = false →
          fails < 2 ^ 16 →
          let x := hygroSample c fails s.dev.freeCount
          ∃ t, exec (.hygroSample level quadrant fails) s = .next t ∧ t.mem = s.mem ∧
            t.dev.rd (F.HYGRO_TEMP level quadrant) = x.1 % 2 ^ 10 ∧ t.dev.rd (F.HYGRO_VALID level quadrant) = x.2.1.toNat ∧
            t.dev.rd (F.HYGRO_BELOW_RANGE level quadrant) = x.2.2.1.toNat ∧
            t.dev.rd (F.HYGRO_ABOVE_RANGE level quadrant) = x.2.2.2.1.toNat ∧ t.dev.rd (F.HYGRO_FAILS level quadrant) = fails))) ∧
    (∀ power, exec (.stackModelEval power) s = .next (((List.range 17).foldl (fun s l =>
      s.modelLevel l (s.fuses.selfHeat.getD l 0 * power.getD l 0)) s).withDev Dev.thermStatus)) ∧
    (∀ heat, s.dev.neighbours level = none → s.modelLevel level heat = s) ∧
    (∀ heat b a, s.dev.neighbours level = some (b, a) → s.dev.ownReading level = none → s.dev.role level ≠ 2 →
      (levelQuadrants level).all (fun q => !s.dev.domainOn q) = false →
      (s.modelLevel level heat).dev.rd (F.THERM_LEVEL_MODEL level) = (modelQuarters ((b + a) / 2 + heat) % 2 ^ 10).toNat ∧
        (s.modelLevel level heat).mem = s.mem) ∧
    (let blind := s.dev.role level ≠ 2 ∧ (levelQuadrants level).all (fun q => !s.dev.domainOn q) = false ∧
        (zoneSensors zone).all (fun i => s.dev.sensorState i ≠ 0) = true;
      (¬ blind → exec (.witnessTimeout level) s = .next s) ∧
      (blind → exec (.witnessTimeout level) s = .next (s.trip zone (80 + 8 * level) (s.dev.reading (80 + 8 * level))))) ∧
    (let ok := (zoneSensors zone).all (fun i => s.dev.sensorState i ≠ 2) = true ∧
        ((s.dev.levelTherm level).beyond = 0 ∨ (s.dev.levelTherm level).beyond + 1000000000 ≤ s.dev.time + 1);
      ((s.dev.suspect level = false ∨ ¬ ok) → exec (.thermClear level) s = .next s) ∧
      (s.dev.suspect level = true → ok → ∃ t, exec (.thermClear level) s = .next t ∧ t.dev.rd (F.THERM_LEVEL_SUSPECT level) = 0 ∧
        t.dev.rd (F.THERM_LEVEL_CAUSE level) = 0 ∧ (∀ i ∈ zoneSensors zone, t.dev.sensorState i = 0) ∧ t.dev.recheck = true ∧
        t.mem = s.mem))

/-- Power requests and domains (R420, R421, R424, R436, Tables 17.3, 17.4, 17.15). A request that a check turns away gives its code and
changes no domain; one that is done as it stands gets RESULT 0; one while another is carried out waits in the slot; else it starts: a wake
takes an OFF domain to WAKING, a gate takes it to DRAINING. A drained domain is OFF; good supply takes a WAKING domain to CHECKING with
ALIVE 1; the wake check ends ON, or OFF with DOMAIN_WAKE_FAIL. Each of these events has no effect in another state. The model's choices
that this rests on: log entries 36, 84. -/
def Obligations.PowerDomainsAreSwitched : Prop :=
  ∀ (s : State) (domain : BitVec 8) (i : Fin 248),
    let n := domain.toNat
    let asked := [F.POWER_CTL_DOMAIN, F.POWER_CTL_OP, F.POWER_CTL_GO, F.DEV_REASON_CODE, F.DEV_REASON_TRIGGER, F.DEV_REASON_DETAIL, F.POWER_STATUS_REASON]
    let st := s.dev.rd (F.POWER_DOMAIN_STATE i)
    (∃ t, exec (.powerOpInvalid domain) s = .next t ∧ s.frame t asked ∧
      t.dev.rd F.POWER_STATUS_REASON = firstCode (s.dev.commonChecks .power ++ [(true, 0xC2)])) ∧
    (s.dev.patronsOn = true → ∃ t, exec .powerClose s = .next t ∧ s.frame t asked ∧ t.dev.rd F.POWER_STATUS_REASON = 0xC6) ∧
    (∀ op : Fin 2,
      let c := if op = 0 then Instr.powerGate domain else .powerWake domain
      let u := s.withDev fun d => d.wrs [(F.POWER_CTL_DOMAIN, n), (F.POWER_CTL_OP, op.val)]
      let code := firstCode (u.dev.commonChecks .power ++ [(decide (u.powerCode op n ≠ 0), u.powerCode op n)])
      (code ≠ 0 → code < 256 → ∃ t, exec c s = .next t ∧ s.frame t asked ∧ t.dev.rd F.POWER_STATUS_REASON = code ∧
        t.dev.rd F.DEV_REASON_CODE = code) ∧
      (code = 0 → s.powerDone op n = true → ∃ t, exec c s = .next t ∧ s.frame t (F.POWER_STATUS_RESULT :: asked) ∧
        t.dev.rd F.POWER_STATUS_RESULT = 0 ∧ t.dev.rd F.POWER_STATUS_REASON = 0) ∧
      (∀ r, code = 0 → s.powerDone op n = false → s.dev.pow.cur = some r → r.op ≠ 0 → s.dev.pow.pend = none →
        ∃ t, exec c s = .next t ∧ s.frame t (F.POWER_STATUS_PENDING :: asked) ∧ t.dev.rd F.POWER_STATUS_PENDING = 1 ∧
          t.dev.pow.pend = some { op := op.val, domain := n } ∧ t.dev.pow.cur = some r) ∧
      (code = 0 → s.powerDone op n = false → s.dev.powerMay { op := op.val, domain := n } = true → s.dev.pow.pend = none →
        let started := F.POWER_STATUS_BUSY :: F.POWER_STATUS_CUR_DOMAIN :: F.POWER_STATUS_CUR_OP :: F.POWER_DOMAIN_STATE n :: asked
        (op = 1 → s.dev.rd (F.POWER_DOMAIN_STATE n) = 3 → ∃ t, exec c s = .next t ∧ s.frame t started ∧
          t.dev.rd (F.POWER_DOMAIN_STATE n) = 4 ∧ t.dev.rd F.POWER_STATUS_BUSY = 1 ∧ t.dev.rd F.POWER_STATUS_CUR_DOMAIN = n ∧
          t.dev.rd F.POWER_STATUS_CUR_OP = 1) ∧
        (op = 0 → (n < 64 ∨ 144 ≤ n ∧ n < 156 ∨ 164 ≤ n) → ∃ t, exec c s = .next t ∧ s.frame t started ∧
          t.dev.rd (F.POWER_DOMAIN_STATE n) = 1 ∧ t.dev.rd F.POWER_STATUS_BUSY = 1 ∧ t.dev.rd F.POWER_STATUS_CUR_DOMAIN = n ∧
          t.dev.rd F.POWER_STATUS_CUR_OP = 0))) ∧
    (st ≠ 1 → st ≠ 3 → exec (.domainDrainComplete i) s = .next s) ∧
    (st = 1 → 144 ≤ i.val → i.val < 148 → s.dev.countersOff = true → ∃ t, exec (.domainDrainComplete i) s = .next t ∧
      (s.dev.pow.pend = none → t.dev.rd (F.POWER_DOMAIN_STATE i) = 3 ∧ SMap.get [] t.dev.index (i.val - 144) = [] ∧ t.mem = s.mem ∧
        (s.dev.pow.cur = some { op := 0, domain := i.val } → t.dev.rd F.POWER_STATUS_BUSY = 0 ∧ t.dev.rd F.POWER_STATUS_RESULT = 0 ∧
          t.dev.pow.cur = none))) ∧
    (st ≠ 4 → exec (.domainSupplyGood i) s = .next s) ∧
    (st = 4 → domainPll i = none → ∃ t, exec (.domainSupplyGood i) s = .next t ∧
      s.frame t [F.POWER_DOMAIN_STATE i, F.POWER_DOMAIN_ALIVE i] ∧ t.dev.rd (F.POWER_DOMAIN_STATE i) = 5 ∧
      t.dev.rd (F.POWER_DOMAIN_ALIVE i) = 1) ∧
    (∀ k, st = 4 → domainPll i = some k → s.dev.pll k = 0 → exec (.domainSupplyGood i) s =
      .next ((s.withDev fun d => d.wrs [(F.POWER_DOMAIN_STATE i, 5), (F.POWER_DOMAIN_ALIVE i, 1)]).pllTo k 1)) ∧
    (∀ pass, st ≠ 5 → exec (.domainWakeCheckDone i pass) s = .next s) ∧
    (st = 5 → s.dev.pow.pend = none → s.dev.countersOff = true →
      ((i.val < 64 ∨ 144 ≤ i.val ∧ i.val < 156) → ∃ t, exec (.domainWakeCheckDone i true) s = .next t ∧
        t.dev.rd (F.POWER_DOMAIN_STATE i) = 0 ∧ t.dev.rd (F.POWER_DOMAIN_WAKE_FLAG i) = 1 ∧ t.mem = s.mem ∧
        (s.dev.pow.cur = some { op := 1, domain := i.val } → t.dev.rd F.POWER_STATUS_RESULT = 0 ∧ t.dev.pow.cur = none)) ∧
      (144 ≤ i.val → i.val < 156 → ∃ t, exec (.domainWakeCheckDone i false) s = .next t ∧ t.dev.rd (F.POWER_DOMAIN_STATE i) = 3 ∧
        t.dev.rd (F.POWER_DOMAIN_ALIVE i) = 0 ∧ t.mem = s.mem ∧ t.dev.raised.length = s.dev.raised.length + 1))

/-- CLOSED and its wake sources (R408, R425, R426, R430, R431, R432, R433, Table 17.5). A CLOSE with an asserted wake source ends at once with
RESULT 4; any other begins with BUSY 1 and sets CLOSING. The commit point of a CLOSE in progress loses the DRAM and isolates every domain;
CLOSED then loses everything but the always-on record, as a thermal shutdown does with its own record. A wake source is sampled unless the
foot is in reset. In CLOSED the first wake is latched and a link sets the alert; before the commit point a wake abandons the entry; during
a thermal shutdown it is ignored. The model's choices that this rests on: log entries 2, 86, 103, 104. -/
def Obligations.ClosedIsEnteredAndLeft : Prop :=
  ∀ (s : State),
    (s.dev.patronsOn = false → s.dev.powerMay { op := 2, domain := s.dev.rd F.POWER_CTL_DOMAIN } = true → s.dev.pow.pend = none →
      s.dev.rd F.POWER_CTL_DOMAIN < 256 →
      let fields := [F.POWER_CTL_DOMAIN, F.POWER_CTL_OP, F.POWER_CTL_GO, F.DEV_REASON_CODE, F.DEV_REASON_TRIGGER, F.DEV_REASON_DETAIL, F.POWER_STATUS_REASON, F.POWER_STATUS_BUSY, F.POWER_STATUS_CUR_DOMAIN, F.POWER_STATUS_CUR_OP, F.POWER_STATUS_RESULT]
      (s.dev.wakeAsserted = true → ∃ t, exec .powerClose s = .next t ∧ s.frame t fields ∧ t.dev.rd F.POWER_STATUS_RESULT = 4 ∧
        t.dev.rd F.POWER_STATUS_BUSY = 0 ∧ t.dev.pow.cur = none) ∧
      (s.dev.wakeAsserted = false → ∃ u : State, exec .powerClose s = .next u.closeBegin.powerPump ∧ s.frame u fields ∧
        u.dev.rd F.POWER_STATUS_BUSY = 1 ∧ u.dev.pow.cur = some { op := 2, domain := s.dev.rd F.POWER_CTL_DOMAIN } ∧
        ∃ v : State, u.closeBegin = (v.withDev fun d => d.wr F.POWER_STATUS_CLOSING 1).endUnlock)) ∧
    ((s.dev.closing = false ∨ s.dev.footInReset = true) → exec .closeCommit s = .next s) ∧
    (s.dev.closing = true → s.dev.footInReset = false → ∃ t, exec .closeCommit s = .next t ∧ t.mem = [] ∧ t.dev.pow.committed = true ∧
      t.dev.rd F.POWER_STATUS_CLOSING = 0 ∧ t.layout = s.layout ∧ (s.dev.pow.cleanClose = false → t.ledger = s.ledger) ∧
      ∀ i : Fin 248, t.dev.rd (F.POWER_DOMAIN_STATE i) = if s.dev.rd (F.POWER_DOMAIN_STATE i) = 3 then 3 else 2) ∧
    (s.dev.pow.shutdown = false → s.dev.pow.committed = false → exec .closedReached s = .next s) ∧
    (s.dev.pow.shutdown = true ∨ s.dev.pow.committed = true → ∃ t, exec .closedReached s = .next t ∧ t.mem = [] ∧ t.layout = {} ∧
      t.ledger = s.ledger ∧ t.fuses = s.fuses ∧ t.dev.pow.closed = true ∧ t.dev.keks = [] ∧ t.dev.vault = [] ∧
      (s.dev.pow.shutdown = true → t.dev.pow.record = some (tripRecord s.dev.pow) ∧ t.dev.pow.latched = none) ∧
      (s.dev.pow.shutdown = false → t.dev.pow.record = some (wakeRecord s.dev.pow.latched) ∧ t.dev.pow.latched = s.dev.pow.latched)) ∧
    (∀ (cause source : Nat),
      ((s.dev.pow.shutdown = true ∨ s.dev.pow.thermLow = true) → s.wake cause source = s) ∧
      (s.dev.pow.shutdown = false → s.dev.pow.thermLow = false →
        (s.dev.pow.closed = true → s.dev.pow.latched ≠ none → s.wake cause source = s) ∧
        (s.dev.pow.closed = true → s.dev.pow.latched = none → s.frame (s.wake cause source) [F.FOOT_I3C_ALERT_WAKE] ∧
          (s.wake cause source).dev.pow.latched = some (cause, source) ∧
          (cause = 3 → (s.wake cause source).dev.rd F.FOOT_I3C_ALERT_WAKE = 1)) ∧
        (s.dev.pow.closed = false → s.dev.pow.committed = false → s.dev.closing = true → s.wake cause source = s.closeAbandon) ∧
        (s.dev.pow.closed = false → s.dev.pow.committed = false → s.dev.closing = false → s.dev.countersOff = true →
          s.wake cause source = s))) ∧
    (s.dev.footInReset = true → (∀ pin level, exec (.wakePin pin level) s = .next s) ∧ ∀ port signal, exec (.linkWake port signal) s = .next s) ∧
    (s.dev.footInReset = false → ∀ (pin port : Fin 4) (level signal : Bool),
      ((level ≠ (s.dev.rd F.POWER_WAKE_CFG_PIN_HIGH).testBit pin ∨ (s.dev.rd F.POWER_WAKE_CFG_PIN_EN).testBit pin = false) → ∃ t, exec (.wakePin pin level) s = .next t ∧ s.frame t [] ∧
        t.dev.pow.wakeLevel.testBit pin = level) ∧
      (level = (s.dev.rd F.POWER_WAKE_CFG_PIN_HIGH).testBit pin → (s.dev.rd F.POWER_WAKE_CFG_PIN_EN).testBit pin = true →
        ∃ u : State, exec (.wakePin pin level) s = .next (u.wake 2 pin) ∧ s.frame u [] ∧ u.dev.pow.wakeLevel.testBit pin = level) ∧
      ((signal = false ∨ (s.dev.rd F.POWER_WAKE_CFG_LINK_EN).testBit port = false) → ∃ t, exec (.linkWake port signal) s = .next t ∧
        s.frame t [F.POWER_PINS_LINK] ∧ (t.dev.rd F.POWER_PINS_LINK).testBit port = signal) ∧
      (signal = true → (s.dev.rd F.POWER_WAKE_CFG_LINK_EN).testBit port = true → ∃ u : State,
        exec (.linkWake port signal) s = .next (u.wake 3 port) ∧ s.frame u [F.POWER_PINS_LINK] ∧
        (u.dev.rd F.POWER_PINS_LINK).testBit port = true))

/-- Rails, pins and the foot's reset (R414, R415, R416, R417, R418, R434, Tables 17.1, 17.2). VAO below 0.90 V loses everything but the
ledger; another reading is shown with the Low, inhibit and brown-out states its thresholds give, the last raised at its onset. PGOOD lost
is raised when READY; RESET_N is a cold reset with its wake record, latched in CLOSED. A foot reset is raised once, ends with its wake
sources sampled afresh, and hides the low-voltage rails. SAFE_N is taken while it is sampled: low requests the safe state, chatter is
latched. The model's choices that this rests on: log entries 37, 38, 78, 79. -/
def Obligations.SupplyAndPinsAreWatched : Prop :=
  ∀ (s : State) (r : Fin 7) (mv : BitVec 12), s.dev.countersOff = true →
    let v := mv.toNat
    let low := railBelow (s.dev.flag (F.POWER_RAIL_LOW r)) v (railLow r)
    let inhibit := decide (railInhibit r ≠ 0) && railBelow (s.dev.flag (F.POWER_RAIL_INHIBIT r)) v (railInhibit r)
    let brown := decide (railBrown r ≠ 0) && railBelow (s.dev.flag (F.POWER_RAIL_BROWN r)) v (railBrown r)
    let hidden := s.dev.footInReset = true ∧ 4 ≤ r.val
    let lost := r = 5 ∧ v < 900
    let rails := [F.POWER_RAIL_VOLT r, F.POWER_RAIL_LOW r, F.POWER_RAIL_INHIBIT r, F.POWER_RAIL_BROWN r, F.POWER_RAIL_SAGS r,
      F.LEDGER_STATUS_INHIBITED, F.SAFE_STATUS_BROWN]
    let sampled := s.dev.safeSampled = true
    (hidden → exec (.railCrossing r mv) s = .next s) ∧
    (¬ hidden → lost → ∃ t, exec (.railCrossing r mv) s = .next t ∧ t.mem = [] ∧ t.layout = {} ∧ t.ledger = s.ledger ∧ t.fuses = s.fuses ∧
      t.dev = { s.fuses.dev with freeCount := s.dev.freeCount }) ∧
    (¬ hidden → ¬ lost → s.dev.pow.closed = true → exec (.railCrossing r mv) s = .next s) ∧
    (¬ hidden → ¬ lost → s.dev.pow.closed = false → s.dev.starting = false →
      ((brown = false ∨ s.dev.flag (F.POWER_RAIL_BROWN r) = true ∨ r ≠ 5) → ∃ t, exec (.railCrossing r mv) s = .next t ∧ s.frame t rails ∧
        t.dev.rd (F.POWER_RAIL_VOLT r) = v ∧ t.dev.rd (F.POWER_RAIL_LOW r) = low.toNat ∧ t.dev.rd (F.POWER_RAIL_INHIBIT r) = inhibit.toNat ∧
        t.dev.rd (F.POWER_RAIL_BROWN r) = brown.toNat) ∧
      (r = 5 → brown = true → s.dev.flag (F.POWER_RAIL_BROWN r) = false → s.dev.pow.shutdown = false →
        ∃ t, exec (.railCrossing r mv) s = .next t ∧ t.mem = s.mem ∧ t.dev.rd F.SAFE_STATUS_BROWN = 1 ∧
          t.ledger = s.ledger.writeNow 0x130000 (s.dev.wakePayload 5))) ∧
    (s.dev.pow.closed = true → ∃ t, exec .pgoodLost s = .next t ∧ s.frame t [F.POWER_PINS_PGOOD] ∧ t.dev.rd F.POWER_PINS_PGOOD = 0 ∧
      t.dev.raised = s.dev.raised) ∧
    (s.dev.pow.closed = false → s.dev.starting = false → ∃ t, exec .pgoodLost s = .next t ∧ s.frame t [F.POWER_PINS_PGOOD] ∧
      t.dev.rd F.POWER_PINS_PGOOD = 0 ∧ t.dev.raised.length = s.dev.raised.length + 1) ∧
    (s.dev.pow.closed = false → s.dev.starting = true → ∃ t, exec .pgoodLost s = .next t ∧ t.mem = [] ∧ t.ledger = s.ledger ∧
      t.dev.start.begun = false) ∧
    (s.dev.pow.closed = true → ∃ t, exec .resetPin s = .next t ∧ s.frame t [] ∧ t.dev.pow.latched = some (1, 0) ∧ t.dev.pow.record = some 1) ∧
    (s.dev.pow.closed = false → ∃ t, exec .resetPin s = .next t ∧ t.mem = [] ∧ t.layout = {} ∧ t.ledger = s.ledger ∧ t.fuses = s.fuses ∧
      t.dev.pow.record = some 1 ∧ t.dev.start.begun = false ∧ t.dev.keks = [] ∧ t.dev.vault = [] ∧
      t.dev.rd F.POWER_PINS_SAFE_N = s.dev.rd F.POWER_PINS_SAFE_N % 2) ∧
    (∃ t, exec .footReset s = .next t ∧ s.frame t [F.DEV_START_STATUS_PHASE] ∧ t.dev.footInReset = true ∧
      t.dev.raised.length = s.dev.raised.length + (if s.dev.footInReset = true then 0 else 1)) ∧
    (∀ pins link, (s.dev.footInReset = false → exec (.footResetEnd pins link) s = .next s) ∧
      (s.dev.footInReset = true → ∃ u : State, exec (.footResetEnd pins link) s = .next (u.wakeResample s.dev) ∧
        s.frame u [F.POWER_PINS_LINK] ∧ u.dev.footInReset = false ∧ u.dev.pow.wakeLevel = pins.toNat ∧
        u.dev.rd F.POWER_PINS_LINK = link.toNat)) ∧
    (¬ sampled → (∀ chatter, exec (.safeN chatter) s = .next s) ∧ exec .safeNRelease s = .next s ∧ exec .safeNHighTimer s = .next s) ∧
    (sampled →
      (∃ t, exec (.safeN true) s = .next t ∧ s.frame t [F.SAFE_STATUS_CHATTER, F.POWER_PINS_SAFE_LATCHED] ∧
        t.dev.rd F.SAFE_STATUS_CHATTER = 1 ∧ t.dev.rd F.POWER_PINS_SAFE_LATCHED = 1 ∧ t.dev.raised.length = s.dev.raised.length + 1) ∧
      (∃ t, exec (.safeN false) s = .next t ∧ s.frame t [F.POWER_PINS_SAFE_N, F.SAFE_STATUS_SAFE_N] ∧ t.dev.rd F.POWER_PINS_SAFE_N = 0 ∧
        t.dev.rd F.SAFE_STATUS_SAFE_N = 1 ∧ t.dev.raised.length = s.dev.raised.length + 1) ∧
      (∃ t, exec .safeNRelease s = .next t ∧ s.frame t [F.POWER_PINS_SAFE_N, F.SAFE_STATUS_SAFE_N] ∧ t.dev.rd F.POWER_PINS_SAFE_N = 1 ∧
        t.dev.rd F.SAFE_STATUS_SAFE_N = 0) ∧
      (s.dev.rd F.POWER_PINS_SAFE_N = 0 → exec .safeNHighTimer s = .next s) ∧
      (s.dev.rd F.POWER_PINS_SAFE_N ≠ 0 → ∃ t, exec .safeNHighTimer s = .next t ∧
        s.frame t [F.SAFE_STATUS_CHATTER, F.POWER_PINS_SAFE_LATCHED] ∧
        ((∀ x ∈ s.dev.flt.records, x.type ≠ FaultType.safeNChatter.code) → t.dev.rd F.SAFE_STATUS_CHATTER = 0 ∧
          t.dev.rd F.POWER_PINS_SAFE_LATCHED = 0)))

/-- The cold start (R427, R498, R501, R502, R503, Tables 21.2, 21.3). It begins once, with the DRAM lost and the ledger kept, where R427
holds. Its steps complete one by one and only while it runs outside the safe state, foot reset and thermal shutdown: an invalid directory
and two failed registrars end it FAILED with causes 2 and 1, clocks and heat hold it, a quick start leaves the DRAM zero, and the device
is READY when its ports are UP, one that is not in time being released. SAVE asks for the START record. The model's choices that this
rests on: log entries 2, 39, 40, 81. -/
def Obligations.ColdStartRuns : Prop :=
  ∀ (s : State) (o : StartOutcome) (closedMs : Word) (port : Fin 64),
    let p := s.dev.pow
    let phase := s.dev.rd F.DEV_START_STATUS_PHASE
    let barred := s.dev.start.begun = true ∨ (p.closed = true ∧ p.latched = none) ∨ s.dev.flag (F.POWER_RAIL_BROWN 5) = true ∨
      s.dev.footInReset = true
    let holds := s.dev.starting = false ∨ s.dev.flag F.SAFE_STATUS_ACTIVE = true ∨ s.dev.footInReset = true ∨ p.shutdown = true
    let to_ := fun (n : Nat) => ∃ t, exec (.startPhaseDone o) s = .next t ∧ s.frame t [F.DEV_START_STATUS_PHASE] ∧
      t.dev.rd F.DEV_START_STATUS_PHASE = n
    let failed := fun (n : Nat) => ∃ t, exec (.startPhaseDone o) s = .next t ∧ s.frame t [F.DEV_STATUS_STATE, F.DEV_START_STATUS_FAIL_CAUSE] ∧
      t.dev.rd F.DEV_STATUS_STATE = 3 ∧ t.dev.rd F.DEV_START_STATUS_FAIL_CAUSE = n
    (barred → exec (.coldStart closedMs) s = .next s) ∧
    (¬ barred → ∃ t, exec (.coldStart closedMs) s = .next t ∧ t.mem = [] ∧ t.layout = {} ∧ t.ledger = s.ledger ∧ t.fuses = s.fuses ∧
      t.dev.start.begun = true ∧ t.dev.pow.closed = false ∧ t.dev.rd F.POWER_PINS_PGOOD = 1 ∧
      ∀ w, p.record = some w → t.dev.rd F.LAST_WAKE_CAUSE = w % 16) ∧
    (holds → exec (.startPhaseDone o) s = .next s) ∧
    (¬ holds →
      (phase = 0 → to_ 1) ∧
      (phase = 1 → o.directory = false → failed 2) ∧
      (phase = 1 → o.directory = true → ∃ t, exec (.startPhaseDone o) s = .next t ∧ t.dev.rd F.DEV_START_STATUS_PHASE = 2 ∧ t.mem = s.mem ∧
        t.dev.rd F.DEV_START_COUNT_COUNT = (((s.ledger.read 0x120000).map fun r => payloadNum r 0 4).getD 0 + 1) % 2 ^ 32) ∧
      (phase = 2 → s.dev.clocked = true → to_ 3) ∧
      (phase = 2 → s.dev.clocked = false → exec (.startPhaseDone o) s = .next s) ∧
      (phase = 3 → o.registrars.getLsbD 0 = false → o.registrars.getLsbD 1 = false → failed 1) ∧
      (phase = 3 → o.registrars.getLsbD 0 = true → o.registrars.getLsbD 1 = true → ∃ t, exec (.startPhaseDone o) s = .next t ∧
        t.dev.rd F.DEV_START_STATUS_PHASE = 4 ∧ t.dev.rd F.DEV_REG_ACTIVE = 0 ∧ t.dev.rd F.DEV_REG_STANDBY_READY = 1 ∧ t.mem = s.mem) ∧
      (phase = 4 → to_ 5) ∧
      (phase = 5 → s.dev.tooHot = false → to_ 6) ∧
      (phase = 5 → s.dev.tooHot = true → exec (.startPhaseDone o) s = .next s) ∧
      (phase = 6 → ∃ t, exec (.startPhaseDone o) s = .next t ∧ s.frame t [F.DEV_START_STATUS_PHASE] ∧
        t.dev.rd F.DEV_START_STATUS_PHASE = 7 ∧ ∀ die < 18, slotAt t.dev.localCount die = some s.dev.time) ∧
      (phase = 7 → ∃ t, exec (.startPhaseDone o) s = .next t ∧ t.dev.rd F.DEV_START_STATUS_PHASE = 8 ∧ t.dev.keks = [] ∧ t.dev.vault = [] ∧
        t.dev.nextKeys = []) ∧
      (phase = 8 → exec (.startPhaseDone o) s = .next (s.startErrata o)) ∧
      (phase = 9 → s.dev.start.full = true → exec (.startPhaseDone o) s = .next (s.startTest o)) ∧
      (phase = 9 → s.dev.start.full = false → ∃ t, exec (.startPhaseDone o) s = .next t ∧ t.mem = [] ∧ t.dev.rowCounts = [] ∧
        t.dev.rd F.DEV_START_STATUS_PHASE = 11 ∧ t.ledger = s.ledger ∧ ∀ a, t.readSym a = memDefault) ∧
      (10 ≤ phase → s.dev.start.ports.all s.dev.portUp = false → exec (.startPhaseDone o) s = .next s) ∧
      (10 ≤ phase → s.dev.start.ports.all s.dev.portUp = true → p.cur = none → p.pend = none → ∃ t, exec (.startPhaseDone o) s = .next t ∧
        s.frame t [F.DEV_START_STATUS_PHASE, F.DEV_STATUS_STATE, F.DEV_START_STATUS_READY_MS] ∧ t.dev.rd F.DEV_START_STATUS_PHASE = 13 ∧
        t.dev.rd F.DEV_STATUS_STATE = 1 ∧ t.dev.rd F.DEV_START_STATUS_READY_MS = min 65535 (s.dev.time / 1000000))) ∧
    (s.dev.portUp port = true → exec (.portReadyTimeout port) s = .next s) ∧
    (s.dev.portUp port = false → ∃ t, exec (.portReadyTimeout port) s = .next t ∧ s.frame t [] ∧ port.val ∉ t.dev.start.ports ∧
      ∀ q, q ≠ port.val → (q ∈ t.dev.start.ports ↔ q ∈ s.dev.start.ports)) ∧
    (s.dev.ledgerQueue.length < 64 → ∃ t, exec .startCfgSave s = .next t ∧ s.frame t [F.DEV_START_CFG_SAVE, F.LEDGER_STATUS_QUEUED] ∧
      t.dev.rd F.DEV_START_CFG_SAVE = 1 ∧ ∃ q ∈ t.dev.ledgerQueue, q.record = 0x100000 ∧ q.payload = s.startPayload)

/-- Faults (R439, R440, R444, R445, R446, Tables 18.2, 18.4). An event waits while the registrar cannot take it; one of a source with an open
record only counts there; one below the count of its type opens no record; one that reaches it opens a record with the next SEQ, and with
256 records open is lost with OVERFLOW. A SEQ written to FAULT_CLEAR removes its record and no other; OVERFLOW is cleared unless the queue
is full; a batch passes up to seven records to the ledger. The model's choices that this rests on: log entries 5, 9, 73, 76. -/
def Obligations.FaultsAreRecorded : Prop :=
  ∀ (s : State) (type : BitVec 8) (source : BitVec 12) (detail : BitVec 64) (lost : List Nat), s.dev.countersOff = true →
    let f : RaisedFault := { type := type.toNat, source := source.toNat, detail := detail.toNat }
    let waits := fun (x : RaisedFault) => x.type = f.type && x.source = f.source
    let isOpen := s.dev.flt.records.any (fun r => r.source = f.source && r.type = f.type)
    let reaction := substituted f.type f.source f.channel (s.dev.rd (F.FAULT_TYPE_CFG_REACTION f.type))
    let c := exec (.faultEvent type source detail lost) s
    let shown := [F.FAULT_STATUS_OPEN, F.FAULT_STATUS_FAULT_N, F.SAFE_STATUS_RECORDS, F.SAFE_STATUS_CHATTER, F.POWER_PINS_SAFE_LATCHED]
    (∀ x, s.dev.raised.find? waits = some x → s.dev.faultsHeld = true → c = .next s) ∧
    (∀ x, s.dev.raised.find? waits = some x → s.dev.faultsHeld = false →
      c = .next ((s.withDev fun d => { d with raised := s.dev.raised.erase x }).faultEvent x lost)) ∧
    (s.dev.raised.find? waits = none → s.dev.faultsHeld = true → ∃ t, c = .next t ∧ s.frame t [] ∧ t.dev.raised = s.dev.raised ++ [f] ∧
      t.dev.flt = s.dev.flt) ∧
    (s.dev.raised.find? waits = none → s.dev.faultsHeld = false →
      (isOpen = true → ∃ t, c = .next t ∧ s.frame t [] ∧ t.dev.flt.records = s.dev.flt.records.map (fun r =>
        if r.source = f.source ∧ r.type = f.type then r.again s.dev.time else r)) ∧
      (isOpen = false → 1 < s.dev.rd (F.FAULT_TYPE_CFG_N f.type) → s.dev.flt.counts.find? (fun c => c.source = f.source && c.type = f.type) = none →
        ∃ t, c = .next t ∧ s.frame t [] ∧ t.dev.flt.records = s.dev.flt.records ∧
          (f.source, f.type, 1) ∈ t.dev.flt.counts.map (fun c => (c.source, c.type, c.n))) ∧
      (isOpen = false → s.dev.rd (F.FAULT_TYPE_CFG_N f.type) ≤ 1 → reaction ≤ 1 → s.dev.flt.records.length < 256 → s.dev.flt.logWait.length < 6 →
        ∃ t r, c = .next t ∧ t.mem = s.mem ∧ t.dev.flt.records = s.dev.flt.records ++ [r] ∧ t.dev.flt.logWait = s.dev.flt.logWait ++ [r] ∧
          r.seq = s.dev.flt.seq + 1 ∧ r.source = f.source ∧ r.type = f.type ∧ r.reaction = reaction ∧ r.first = s.dev.time ∧
          r.detail = f.detail ∧ r.count = 1 ∧ t.dev.flt.seq = s.dev.flt.seq + 1) ∧
      (isOpen = false → s.dev.rd (F.FAULT_TYPE_CFG_N f.type) ≤ 1 → reaction = 0 → 256 ≤ s.dev.flt.records.length →
        ∃ t, c = .next t ∧ t.mem = s.mem ∧ t.dev.flt.records = s.dev.flt.records ∧ t.dev.rd F.FAULT_STATUS_OVERFLOW = 1 ∧
          t.dev.rd F.FAULT_STATUS_LOST = min (s.dev.rd F.FAULT_STATUS_LOST + 1) 65535)) ∧
    (∀ seq : Word, ∃ t, exec (.faultClear seq) s = .next t ∧ s.frame t shown ∧
      t.dev.flt.records = s.dev.flt.records.filter (fun r => r.seq % 2 ^ 32 ≠ seq.toNat) ∧
      (t.dev.flt.records.length < 512 → t.dev.rd F.FAULT_STATUS_OPEN = t.dev.flt.records.length)) ∧
    (256 ≤ s.dev.flt.records.length → exec .faultOverflowClear s = .next s) ∧
    (s.dev.flt.records.length < 256 → ∃ t, exec .faultOverflowClear s = .next t ∧ s.frame t (F.FAULT_STATUS_OVERFLOW :: shown) ∧
      t.dev.rd F.FAULT_STATUS_OVERFLOW = 0 ∧ t.dev.flt.records = s.dev.flt.records) ∧
    ((s.dev.flt.logWait = [] ∨ s.dev.ledgerHeld = true) → exec .eventLogBatch s = .next s) ∧
    (s.dev.flt.logWait ≠ [] → s.dev.ledgerHeld = false → s.dev.ledgerQueue.length < 64 → s.dev.flt.logNext < 8192 →
      ∃ t, exec .eventLogBatch s = .next t ∧ s.frame t [F.LEDGER_STATUS_QUEUED] ∧ t.dev.flt.logWait = s.dev.flt.logWait.drop 7 ∧
        t.dev.flt.logNext = (s.dev.flt.logNext + 1) % 8192 ∧
        ∃ q ∈ t.dev.ledgerQueue, q.record = recordNo 0x30 s.dev.flt.logNext ∧
          q.payload = (s.dev.flt.logWait.take 7).flatMap fun r => bytesOfNat 32 r.bits)

/-- The safe state (R447, R449, R450, Tables 18.5, 18.6). An order enters it through its own fault, whose fixed reaction it is; entry sets
ACTIVE, counts the entry and raises the alert, and changes nothing where it is ACTIVE already. RESUME is refused with 0x0B while a holding
cause stands, else it ends the safe state; a CLOSED entry in progress keeps its shafts asleep. The model's choices that this rests on: log
entries 43, 75, 77. -/
def Obligations.SafeStateIsEnteredAndLeft : Prop :=
  ∀ (s : State),
    let f : RaisedFault := { type := FaultType.safeOrdered.code, source := Src.device }
    let isOpen := s.dev.flt.records.any (fun r => r.source = f.source && r.type = f.type)
    let code := firstCode (s.dev.commonChecks .resume ++ [(s.dev.holding, 0x0B)])
    let fields := [F.DEV_REASON_CODE, F.DEV_REASON_TRIGGER, F.DEV_REASON_DETAIL, F.SAFE_STATUS_REASON, F.SAFE_CTL_RESUME]
    (s.safeEnter.dev.flag F.SAFE_STATUS_ACTIVE = true) ∧
    (s.dev.flag F.SAFE_STATUS_ACTIVE = true → s.safeEnter = s) ∧
    (s.dev.flag F.SAFE_STATUS_ACTIVE = false → s.safeEnter.dev.rd F.DEV_STATUS_SAFE = 1 ∧ s.safeEnter.dev.flag F.FOOT_I3C_ALERT_SAFE = true) ∧
    (isOpen = false → s.dev.rd (F.FAULT_TYPE_CFG_REACTION f.type) = 3 → ∃ t, exec .safeEnter s = .next t ∧
      t.dev.flag F.SAFE_STATUS_ACTIVE = true) ∧
    (isOpen = true → ∃ t, exec .safeEnter s = .next t ∧ s.frame t [] ∧ t.dev.flt.records = s.dev.flt.records.map (fun r =>
        if r.source = f.source ∧ r.type = f.type then r.again s.dev.time else r)) ∧
    (code ≠ 0 → ∃ t, exec .safeResume s = .next t ∧ s.frame t fields ∧ t.dev.rd F.SAFE_STATUS_REASON = code % 256 ∧
      t.dev.rd F.SAFE_CTL_RESUME = 0) ∧
    (s.dev.holding = true → code ≠ 0) ∧
    (code = 0 → s.dev.flag F.SAFE_STATUS_ACTIVE = false → ∃ t, exec .safeResume s = .next t ∧ s.frame t fields ∧
      t.dev.rd F.SAFE_STATUS_REASON = 0 ∧ t.dev.rd F.SAFE_CTL_RESUME = 0) ∧
    (code = 0 → s.dev.flag F.SAFE_STATUS_ACTIVE = true → ∃ u : State, exec .safeResume s = .next u.safeExit ∧ s.frame u fields ∧
      u.dev.rd F.SAFE_STATUS_REASON = 0) ∧
    (s.dev.flag F.SAFE_STATUS_ACTIVE = true → s.dev.closing = true → s.frame s.safeExit [F.SAFE_STATUS_ACTIVE, F.DEV_STATUS_SAFE] ∧
      s.safeExit.dev.rd F.SAFE_STATUS_ACTIVE = 0 ∧ s.safeExit.dev.rd F.DEV_STATUS_SAFE = 0) ∧
    (s.dev.flag F.SAFE_STATUS_ACTIVE = true → s.dev.closing = false → s.safeExit = (State.startHalted (State.goOn
      ((s.withDev fun d => d.wrs [(F.SAFE_STATUS_ACTIVE, 0), (F.DEV_STATUS_SAFE, 0)]).withDev Dev.allAwake))).powerPump)

/-- Spot checks and the closing inventory (R452, R453, R454, R455, R457, R458, R459, Tables 18.9, 18.10, 18.14). A start that a check turns
away gives its code and begins nothing; one that passes is PREPARING with its domain isolated. A prepared slice runs, its test compares
and goes to RESTORING with FAIL where anything differed; a stop goes there ABORTED with the patterns done, an urgent one INCOMPLETE for a
wing or sealing slice alone; a restored slice is IDLE with its RESULT, a failed wake check making it FAIL. Each has no effect in another
state. The inventory takes its phases in order and ends PASSED where none failed and nothing was skipped. The model's choices that this
rests on: log entries 44, 85. -/
def Obligations.TestsRun : Prop :=
  ∀ (s : State) (domain : BitVec 8) (patterns : BitVec 16) (pass : Bool) (o : SliceOutcome) (ph : PhaseOutcome),
    let i := s.dev.rd F.TEST_SLICE_STATUS_DOMAIN
    let st := s.dev.rd F.TEST_SLICE_STATUS_STATE
    let reasons := [F.DEV_REASON_CODE, F.DEV_REASON_TRIGGER, F.DEV_REASON_DETAIL]
    let stopFields := [F.TEST_SLICE_STATUS_STATE, F.TEST_SLICE_STATUS_PATTERNS_DONE]
    let stops := fun (c : Instr) (result : Nat) => ∃ t, exec c s = .next t ∧ s.frame t stopFields ∧ t.dev.test.result = result ∧
      t.dev.rd F.TEST_SLICE_STATUS_STATE = 5 ∧ t.dev.rd F.TEST_SLICE_STATUS_PATTERNS_DONE = (if st = 3 then patterns.toNat else 0)
    (let u := s.withDev fun d => d.wr F.TEST_SLICE_DOMAIN domain.toNat;
      let code := firstCode (u.dev.commonChecks .slice ++ u.sliceChecks domain.toNat);
      (code ≠ 0 → code < 256 → s.dev.rd F.TEST_SLICE_START < 2 → ∃ t, exec (.sliceStart domain) s = .next t ∧
        s.frame t (F.TEST_SLICE_DOMAIN :: F.TEST_SLICE_START :: F.TEST_REASON_CODE :: reasons) ∧ t.dev.rd F.TEST_REASON_CODE = code ∧
        t.dev.rd F.TEST_SLICE_START = s.dev.rd F.TEST_SLICE_START) ∧
      (code = 0 → (domain.toNat < 64 ∨ 144 ≤ domain.toNat ∧ domain.toNat < 156 ∨ 164 ≤ domain.toNat ∧ domain.toNat < 172) →
        s.dev.rd (F.POWER_DOMAIN_STATE 177) ≠ 3 → ∃ t, exec (.sliceStart domain) s = .next t ∧
          s.frame t (F.TEST_SLICE_DOMAIN :: F.TEST_SLICE_START :: F.TEST_REASON_CODE :: F.TEST_SLICE_STATUS_DOMAIN ::
            F.POWER_DOMAIN_ALIVE domain.toNat :: (stopFields ++ reasons)) ∧
          t.dev.rd F.TEST_SLICE_STATUS_STATE = 1 ∧ t.dev.rd F.TEST_SLICE_STATUS_DOMAIN = domain.toNat ∧
          t.dev.rd (F.POWER_DOMAIN_ALIVE domain.toNat) = 0 ∧ t.dev.rd F.TEST_REASON_CODE = 0)) ∧
    ((s.dev.rd F.TEST_SCHED_EN = 0 ∨ s.dev.inventoried = true) → exec .sliceSchedule s = .next s) ∧
    (s.dev.rd F.TEST_SCHED_EN ≠ 0 → s.dev.inventoried = false → s.dev.test.next < 248 →
      (∀ j < 248, firstCode (s.sliceChecks j) ≠ 0) → exec .sliceSchedule s = .next s) ∧
    (s.dev.rd F.TEST_SCHED_EN ≠ 0 → s.dev.inventoried = false → s.dev.test.next < 248 → firstCode (s.sliceChecks s.dev.test.next) = 0 →
      exec .sliceSchedule s = .next ((s.withDev fun d => { d with test.next := (s.dev.test.next + 1) % 248 }).sliceBegin s.dev.test.next)) ∧
    (st ≠ 1 → exec .slicePrepared s = .next s) ∧
    (st = 1 → s.drained i = true → ∃ t, exec .slicePrepared s = .next t ∧ s.frame t [F.TEST_SLICE_STATUS_STATE] ∧
      t.dev.rd F.TEST_SLICE_STATUS_STATE = 3) ∧
    ((st = 0 ∨ 4 ≤ st) → exec (.sliceStop patterns) s = .next s ∧ exec (.sliceHp3Timeout patterns) s = .next s ∧
      exec (.sliceUrgentStop patterns) s = .next s) ∧
    (st ≠ 0 → st < 4 → stops (.sliceStop patterns) 3 ∧ stops (.sliceHp3Timeout patterns) 3 ∧
      ((144 ≤ i ∧ i < 148 ∨ 164 ≤ i ∧ i < 172) → stops (.sliceUrgentStop patterns) 2)) ∧
    (¬ (144 ≤ i ∧ i < 148 ∨ 164 ≤ i ∧ i < 172) → exec (.sliceUrgentStop patterns) s = .next s) ∧
    (st ≠ 3 → exec (.sliceTestDone o) s = .next s) ∧
    (st = 3 → ∃ t, exec (.sliceTestDone o) s = .next t ∧
      s.frame t (stopFields ++ [F.TEST_RESULT_ARRAY, F.TEST_RESULT_LOGIC_FAIL, F.TEST_RESULT_MEM_FAIL, F.TEST_RESULT_FAILURES,
        F.TEST_FAIL_ADDR_ADDR, F.TEST_FAIL_BITS_BITS 0, F.TEST_FAIL_BITS_BITS 1]) ∧ t.dev.rd F.TEST_SLICE_STATUS_STATE = 5 ∧
      t.dev.test.result = (if o.logicFail = true ∨ o.failures ≠ 0 then 1 else 0) ∧ t.dev.rd F.TEST_RESULT_LOGIC_FAIL = o.logicFail.toNat ∧
      t.dev.rd F.TEST_RESULT_MEM_FAIL = (if o.failures = 0 then 0 else 1) ∧
      t.dev.rd F.TEST_RESULT_FAILURES = min o.failures 4194303) ∧
    (st ≠ 5 → exec (.sliceRestored pass) s = .next s) ∧
    (st = 5 → 144 ≤ i → i < 156 → s.dev.held = [] → s.dev.fences = [] → s.dev.test.result < 4 →
      ∃ t, exec (.sliceRestored pass) s = .next t ∧
        s.frame t [F.TEST_SLICE_STATUS_STATE, F.TEST_SLICE_STATUS_RESULT, F.TEST_SLICE_START, F.POWER_DOMAIN_ALIVE i] ∧
        t.dev.rd F.TEST_SLICE_STATUS_STATE = 0 ∧ t.dev.rd F.TEST_SLICE_STATUS_RESULT = (if pass then s.dev.test.result else 1) ∧
        t.dev.rd (F.POWER_DOMAIN_ALIVE i) = 1) ∧
    (let code := firstCode (s.dev.commonChecks .inventory ++
        [(s.dev.flag F.SAFE_STATUS_ACTIVE, 0xE8), (s.dev.slicing || s.dev.taking, 0xE1), (s.dev.patronsOn, 0xE6)]);
      let fields := F.INVENTORY_CTL_START :: F.INVENTORY_STATUS_REASON :: reasons;
      (code ≠ 0 → code < 256 → ∃ t, exec .inventoryStart s = .next t ∧ s.frame t fields ∧ t.dev.rd F.INVENTORY_STATUS_REASON = code ∧
        t.dev.taking = s.dev.taking) ∧
      (code = 0 → ∃ t, exec .inventoryStart s = .next t ∧ s.frame t (F.INVENTORY_STATUS_STATE :: F.INVENTORY_STATUS_PHASE ::
          F.INVENTORY_STATUS_CLOSE_ONLY :: F.INVENTORY_STATUS_REPAIRS :: fields) ∧ t.dev.rd F.INVENTORY_STATUS_STATE = 1 ∧
        t.dev.rd F.INVENTORY_STATUS_PHASE = 1 ∧ t.dev.rd F.INVENTORY_STATUS_CLOSE_ONLY = 1 ∧ t.dev.rd F.INVENTORY_STATUS_REPAIRS = 0)) ∧
    (s.dev.taking = false → exec (.inventoryPhaseDone ph) s = .next s) ∧
    (s.dev.taking = true →
      (s.dev.rd F.INVENTORY_STATUS_PHASE < 6 → ∃ t, exec (.inventoryPhaseDone ph) s = .next t ∧
        t.dev.rd F.INVENTORY_STATUS_PHASE = s.dev.rd F.INVENTORY_STATUS_PHASE + 1 ∧
        (s.dev.rd F.INVENTORY_STATUS_PHASE = 4 → t.mem = []) ∧ (s.dev.rd F.INVENTORY_STATUS_PHASE ≠ 4 → t.mem = s.mem)) ∧
      (s.dev.rd F.INVENTORY_STATUS_PHASE = 6 → ph.sensors = [] → ph.other = false → ∃ t, exec (.inventoryPhaseDone ph) s = .next t ∧
        s.frame t [F.INVENTORY_STATUS_STATE, F.INVENTORY_CTL_START, F.LEDGER_STATUS_QUEUED, F.LEDGER_ERRORS_DROPPED] ∧
        t.dev.rd F.INVENTORY_STATUS_STATE = (if s.dev.test.failPhase = 0 ∧ s.dev.test.skipped = false then 2 else 3)))

/-- Counters and statements (R463, R464, R467, R469, R470, R471, R472, Table 19.6). A read of VALUE_LO captures the upper part; a write of
VALUE_HI loads both halves of a counter that is not enabled and none of one that is; FREEZE and CLEAR act on all; enabling the tracer
loads every port's LFSR from SEED, never with 0. A leaf mark adds each patron's leaves to its LEAF_MS; a statement boundary buffers a
record for every patron that was enabled; a read of CIRC captures the live record. The model's choices that this rests on: log entries 12,
90. -/
def Obligations.CountersCount : Prop :=
  ∀ (s : State) (c : Fin 512) (value : Word) (freeze : Bool) (p : Fin 4096),
    let q := s.dev.perfOf c
    (∃ t, exec (.perfValueLoRead c) s = .next t ∧ s.frame t [] ∧
      t.dev.perfOf c = { q with capHi := q.value / 2 ^ 32, loStage := q.value % 2 ^ 32 } ∧
      ∀ k, k ≠ c.val → t.dev.perfOf k = s.dev.perfOf k) ∧
    (∃ t, exec (.perfValueHiWrite c value) s = .next t ∧ s.frame t [] ∧
      t.dev.perfOf c = (if q.en = true then q else
        { q with value := value.toNat % 2 ^ 16 * 2 ^ 32 + q.loStage, capHi := value.toNat % 2 ^ 16 }) ∧
      ∀ k, k ≠ c.val → t.dev.perfOf k = s.dev.perfOf k) ∧
    (∃ t, exec (.perfFreeze freeze) s = .next t ∧ s.frame t [F.PERF_CTL_FREEZE] ∧ t.dev.rd F.PERF_CTL_FREEZE = freeze.toNat ∧
      t.dev.perf = s.dev.perf) ∧
    (∃ t, exec .perfClear s = .next t ∧ s.frame t [] ∧ ∀ k, (t.dev.perfOf k).value = 0 ∧ (t.dev.perfOf k).ovf = false ∧
      (t.dev.perfOf k).en = (s.dev.perfOf k).en ∧ (t.dev.perfOf k).event = (s.dev.perfOf k).event) ∧
    (∃ t, exec .traceEnable s = .next t ∧ s.frame t [F.TRACE_CTL_EN] ∧ t.dev.rd F.TRACE_CTL_EN = 1 ∧
      ∀ port < 64, slotAt t.dev.lfsr port = some (if (s.dev.rd F.TRACE_SEED_SEED + port) % 2 ^ 32 = 0 then 1
        else (s.dev.rd F.TRACE_SEED_SEED + port) % 2 ^ 32)) ∧
    (∃ t, exec .leafMsMark s = .next t ∧ s.frame t [] ∧ t.dev.lastMs = nextMark 1000000 s.dev.time s.dev.lastMs ∧
      t.dev.time = max s.dev.time t.dev.lastMs ∧
      (t.dev.circOf p).leafMs = (s.dev.circOf p).leafMs + s.dev.rd (F.PATRON_LEAVES_COUNT p)) ∧
    (∃ t, exec .statementBoundary s = .next t ∧ t.mem = s.mem ∧ t.ledger = s.ledger ∧ t.layout = s.layout ∧
      t.dev.stmt.start = nextMark s.dev.stmtNs s.dev.time s.dev.stmt.start ∧ t.dev.stmt.enabled = [] ∧
      t.dev.time = max s.dev.time t.dev.stmt.start ∧
      (s.dev.rd (F.HOUSE_RING_STATUS_STATE 0) ≠ 1 → s.fuses.position < 64 → s.dev.stmt.buffer = [] → s.dev.flag (F.PATRON_STATUS_ACTIVE p) = true →
        ∃ r, slotAt t.dev.stmt.buffer p = some r ∧ r.toNat % 2 ^ 12 = p.val ∧ r.toNat / 2 ^ 64 % 2 ^ 64 = t.dev.stmt.start % 2 ^ 64 ∧
          r.toNat / 2 ^ 128 % 2 ^ 64 = (s.dev.circOf p).bytesRead % 2 ^ 64)) ∧
    ∃ t, exec (.patronCircRead p) s = .next t ∧ s.frame t ((List.range 16).map (F.PATRON_CIRC_DATA p)) ∧
      ∀ i < 16, t.dev.rd (F.PATRON_CIRC_DATA p i) = (s.liveRecord p).toNat / 2 ^ (32 * i) % 2 ^ 32

/-- The I3C target (R479, R480, R481). A target that is not there hears no broadcast and acknowledges nothing; one without an address
acknowledges no transfer and no direct command. ENTDAA gives an address to a target without one and reads its ID, BCR and DCR; ENEC and
DISEC switch IBIs by bit 0; lengths from 8 to 256 are taken and read back; GETSTATUS and GETMXDS answer two bytes that the spec leaves
open (log entry 19). A transfer whose length is no multiple of 4 sets FRAME_ERROR; a write of an address alone sets where a read begins.
The model's choices that this rests on: log entries 19, 23, 45, 96. -/
def Obligations.I3cTargetAnswers : Prop :=
  ∀ (s : State) (address : BitVec 7) (events action : BitVec 8) (length : BitVec 16) (words : BitVec 7) (bytes : List (BitVec 8)),
    let there := s.dev.i3cThere = true
    let has := s.dev.rd F.FOOT_I3C_STATUS_ADDR_VALID ≠ 0
    let addr := [F.FOOT_I3C_STATUS_DYN_ADDR, F.FOOT_I3C_STATUS_ADDR_VALID]
    let sends := fun (t : State) (b : List Nat) => t.dev.mgmt.out = b ∧ t.dev.mgmt.nack = false
    let nacks := fun (c : Instr) => ∃ t, exec c s = .next t ∧ s.frame t [] ∧ t.dev.mgmt.out = [] ∧ t.dev.mgmt.nack = true
    let answers := fun (c : Instr) (b : List Nat) => ∃ t, exec c s = .next t ∧ s.frame t [] ∧ sends t b
    (¬ there → ∀ c ∈ [Instr.entdaa address, .rstdaa, .enec events, .disec events, .setmrl length, .setmwl length, .rstact action],
      exec c s = .next s) ∧
    ((¬ there ∨ ¬ has) → ∀ c ∈ [Instr.setnewda address, .getpid, .getbcr, .getdcr, .getstatus, .getmrl, .getmwl, .getmxds], nacks c) ∧
    (there →
      (¬ has → ∃ t, exec (.entdaa address) s = .next t ∧ s.frame t addr ∧ t.dev.rd F.FOOT_I3C_STATUS_DYN_ADDR = address.toNat ∧
        t.dev.rd F.FOOT_I3C_STATUS_ADDR_VALID = 1 ∧ sends t (s.pid ++ [6, 0])) ∧
      (has → answers (.entdaa address) []) ∧
      (∃ t, exec .rstdaa s = .next t ∧ s.frame t addr ∧ t.dev.rd F.FOOT_I3C_STATUS_DYN_ADDR = 0 ∧
        t.dev.rd F.FOOT_I3C_STATUS_ADDR_VALID = 0) ∧
      (∃ t, exec (.enec events) s = .next t ∧ s.frame t [F.FOOT_I3C_STATUS_IBI_EN] ∧
        t.dev.rd F.FOOT_I3C_STATUS_IBI_EN = (if events.getLsbD 0 = true then 1 else s.dev.rd F.FOOT_I3C_STATUS_IBI_EN)) ∧
      (∃ t, exec (.disec events) s = .next t ∧ s.frame t [F.FOOT_I3C_STATUS_IBI_EN] ∧
        t.dev.rd F.FOOT_I3C_STATUS_IBI_EN = (if events.getLsbD 0 = true then 0 else s.dev.rd F.FOOT_I3C_STATUS_IBI_EN)) ∧
      (∃ t, exec (.setmrl length) s = .next t ∧ s.frame t [] ∧
        t.dev.mgmt.mrl = if 8 ≤ length.toNat ∧ length.toNat ≤ 256 then length.toNat else s.dev.mgmt.mrl) ∧
      (∃ t, exec (.setmwl length) s = .next t ∧ s.frame t [] ∧
        t.dev.mgmt.mwl = if 8 ≤ length.toNat ∧ length.toNat ≤ 256 then length.toNat else s.dev.mgmt.mwl) ∧
      (∃ t, exec (.rstact action) s = .next t ∧ s.frame t [] ∧ t.dev.mgmt.resetAction = action.toNat)) ∧
    (there → has →
      (∃ t, exec (.setnewda address) s = .next t ∧ s.frame t [F.FOOT_I3C_STATUS_DYN_ADDR] ∧
        t.dev.rd F.FOOT_I3C_STATUS_DYN_ADDR = address.toNat) ∧
      answers .getpid s.pid ∧ answers .getbcr [6] ∧ answers .getdcr [0] ∧
      answers .getmrl (bytesOfNat 2 s.dev.mgmt.mrl).reverse ∧ answers .getmwl (bytesOfNat 2 s.dev.mgmt.mwl).reverse ∧
      (∃ v, answers .getstatus (bytesOfNat 2 v)) ∧ ∃ v, answers .getmxds (bytesOfNat 2 v)) ∧
    (s.dev.i3cTakes = false → nacks (.i3cPrivateWrite bytes) ∧ nacks (.i3cPrivateRead words)) ∧
    (s.dev.i3cTakes = true →
      (bytes.length % 4 ≠ 0 → bytes.length < 4 → ∃ t, exec (.i3cPrivateWrite bytes) s = .next t ∧
        s.frame t [F.FOOT_I3C_STATUS_FRAME_ERROR] ∧ t.dev.rd F.FOOT_I3C_STATUS_FRAME_ERROR = 1) ∧
      (bytes.length = 4 → natOfBytes (bytes.map (·.toNat)) % 4 = 0 → ∃ t, exec (.i3cPrivateWrite bytes) s = .next t ∧ s.frame t [] ∧
        t.dev.mgmt.readAddr = natOfBytes (bytes.map (·.toNat))) ∧
      (s.dev.i3cServes (BitVec.ofNat 32 s.dev.mgmt.readAddr) = false → nacks (.i3cPrivateRead words)) ∧
      (s.dev.i3cServes (BitVec.ofNat 32 s.dev.mgmt.readAddr) = true → regAt (BitVec.ofNat 32 s.dev.mgmt.readAddr) = none →
        ∃ t, exec (.i3cPrivateRead 1) s = .next t ∧ s.frame t [] ∧ sends t [0, 0, 0, 0] ∧
          t.dev.mgmt.readAddr = (s.dev.mgmt.readAddr % 2 ^ 32 + 4) % 2 ^ 32))

/-- Flaud, the mailbox, OPEN and the registrar (R348, R351, R477, R482, R483, R484, R485, R489, R490, R494, Table 20.3). A Flaud request of
another patron than 0 gets STATUS 0x13, one while a takeover runs is held; any other is performed, and its reply goes to house ring 3. An
ECHO returns its words and changes no register, a malformed body performs nothing. GO has no effect until DONE has been cleared. OPEN is
refused with its code or locks the layout; SWAP needs a ready standby; a takeover that completes makes the standby the active registrar,
and its old one is tested. The model's choices that this rests on: log entries 72, 92. -/
def Obligations.FlaudIsPerformed : Prop :=
  ∀ (s : State) (link : Fin 256) (tag : BitVec 12) (body : LineData), s.dev.countersOff = true →
    let up := s.dev.linkUp link = true ∧ s.dev.peerPort (link / 4) = false
    let open0 := s.bound link 0 = true ∧ s.dev.flag (F.PATRON_STATUS_ACTIVE 0) = true
    let reasons := [F.DEV_REASON_CODE, F.DEV_REASON_TRIGGER, F.DEV_REASON_DETAIL]
    let code := firstCode (s.dev.commonChecks .opened ++ s.openChecks)
    (∀ op : Fin 4,
      let c := if op = 0 then Instr.flaudRead link tag body else if op = 1 then .flaudWrite link tag body
        else if op = 2 then .flaudModify link tag body else .flaudEcho link tag body
      let m : Msg := { op := 0x07, tag := tag.toNat, data := withOp body (op.val + 1) }
      (s.dev.linkUp link = false → exec c s = .next s) ∧
      (s.dev.linkUp link = true → s.dev.peerPort (link / 4) = true → ∃ t, exec c s = .next t ∧ s.frame t [] ∧ t.dev.out = s.dev.out ∧
        t.dev.raised.length = s.dev.raised.length + 1) ∧
      (up → s.bound link 0 = false → ∃ t, exec c s = .next t ∧ s.frame t [F.PATRON_STATUS_LAST_TF 0] ∧
        t.dev.out = s.dev.out ++ [(link.val, { op := 0x13, status := 1, tag := tag.toNat })]) ∧
      (up → open0 → s.dev.flt.takeover = true → ∃ t, exec c s = .next t ∧ s.frame t [] ∧
        t.dev.mgmt.heldFlaud = s.dev.mgmt.heldFlaud ++ [(link.val, m)]) ∧
      (up → open0 → s.dev.flt.takeover = false → exec c s =
        .next ((s.flaudPerform (s.keeperLink link) State.mailbox m.data m.tag).2.withDev fun d =>
          d.houseRecord 3 (s.flaudPerform (s.keeperLink link) State.mailbox m.data m.tag).1 link))) ∧
    (∀ flaud mbox (b : List Nat), flaudBad b = true → s.flaudRun flaud mbox b = { s := s, status := 3 }) ∧
    (∀ flaud mbox (b : List Nat), flaudBad b = false → b.getD 0 0 = 4 → (s.flaudRun flaud mbox b).s = s ∧
      (s.flaudRun flaud mbox b).status = 0 ∧ (s.flaudRun flaud mbox b).done = b.getD 1 0 ∧
      ∀ k < 12, slotAt (s.flaudRun flaud mbox b).out k = some (natOfBytes ((b.drop (16 + 4 * k)).take 4))) ∧
    (s.dev.rd F.DEV_MBOX_CTL_DONE ≠ 0 → exec .devMboxGo s = .next s) ∧
    (s.dev.rd F.DEV_MBOX_CTL_DONE = 0 → ∃ t, exec .devMboxGo s = .next t ∧ t.dev.rd F.DEV_MBOX_CTL_DONE = 1) ∧
    (s.dev.rd F.DEV_CTL_OPEN ≠ 0 → exec .devOpen s = .next s) ∧
    (s.dev.rd F.DEV_CTL_OPEN = 0 →
      (code ≠ 0 → code < 256 → ∃ t, exec .devOpen s = .next t ∧ s.frame t (F.DEV_CTL_OPEN :: reasons) ∧ t.dev.rd F.DEV_CTL_OPEN = 0 ∧
        t.dev.rd F.DEV_REASON_CODE = code) ∧
      (code = 0 → ∃ t, exec .devOpen s = .next t ∧ t.layout = { s.layout with locked := true } ∧ t.mem = s.mem ∧
        t.dev.rd F.DEV_CTL_OPEN = 1 ∧ t.dev.rd F.DEV_STATUS_STATE = 2 ∧
        (∀ f : Field, f.key ∉ (F.DEV_CTL_OPEN :: F.DEV_STATUS_STATE :: reasons).map Field.key → t.dev.rd f = s.dev.rd f) ∧
        ∀ kv ∈ t.dev.binding, kv.1 % 4096 = 0 → kv.1 / 4096 = s.layout.keeperPort)) ∧
    (s.dev.rd F.DEV_REG_STANDBY_READY = 0 → exec .devRegSwap s = .next s) ∧
    (s.dev.rd F.DEV_REG_STANDBY_READY ≠ 0 → exec .devRegSwap s = .next (s.withDev Dev.takeoverTrigger)) ∧
    (s.dev.flt.takeover = false → exec .takeoverComplete s = .next s) ∧
    (s.dev.flt.takeover = true → s.dev.cat = none → s.dev.cardWaits = [] → s.dev.jobCat = none → s.dev.jobs = [] → s.dev.raised = [] →
      s.dev.mgmt.heldFlaud = [] → s.dev.rd F.DEV_REG_ACTIVE ≤ 1 → s.dev.reshelvePending = none → s.dev.coll.evacJobs = [] →
      ∃ t, exec .takeoverComplete s = .next t ∧ t.dev.rd F.DEV_REG_ACTIVE = 1 - s.dev.rd F.DEV_REG_ACTIVE ∧ t.dev.flt.takeover = false ∧
        t.dev.flt.testing = true ∧ t.mem = s.mem) ∧
    (∀ pass, s.dev.flt.testing = false → exec (.standbySelfTestDone pass) s = .next s) ∧
    (s.dev.flt.testing = true →
      (∃ t, exec (.standbySelfTestDone true) s = .next t ∧ s.frame t [F.DEV_REG_STANDBY_READY] ∧ t.dev.rd F.DEV_REG_STANDBY_READY = 1 ∧
        t.dev.flt.testing = false) ∧
      exec (.standbySelfTestDone false) s = .next ((s.withDev fun d => { d with flt.testing := false }).containRegistrar
        (1 - s.dev.rd F.DEV_REG_ACTIVE)))

/-- Test access (R453, R486, R487, R488, Table 20.4). A TAP that is not there takes nothing. BYPASS, IDCODE, SAMPLE/PRELOAD, CHALLENGE and
RESPONSE work at once; EXTEST, WRAPPER and the scans only in their scope, and select BYPASS otherwise. A challenge draws a nonce; the
response that it calls for, within a second and with the gate open, unlocks its scope, a scope that reaches the domains clearing every
key; any other response fails, the third locking the TAP out, after which none is taken. TAP_RESET ends the unlock. The model's choices
that this rests on: log entries 46, 47, 98, 109, 110. -/
def Obligations.TestAccessIsLocked : Prop :=
  ∀ (s : State) (scope : BitVec 8) (domain : Fin 248) (pins preload : Nat) (r : BitVec 128),
    let held := s.dev.rd F.FOOT_TAP_STATUS_SCOPE
    let free := Config.freeBits s.dev.freeCount
    let selects := fun (c : Instr) (ir : Nat) => ∃ t, exec c s = .next t ∧ s.frame t [] ∧ t.dev.mgmt.ir = ir
    (s.dev.tapThere = false → ∀ c ∈ [Instr.bypass, .idcode, .samplePreload pins preload, .challenge scope, .response r, .extest,
      .wrapper domain, .scan, .memtest, .tapReset], exec c s = .next s) ∧
    (s.dev.tapThere = true →
      selects .bypass 0xFF ∧
      (∃ t, exec .idcode s = .next t ∧ s.frame t [] ∧ t.dev.mgmt.ir = 1 ∧
        t.dev.mgmt.tdo = s.fuses.stepping % 16 * 2 ^ 28 + 0x1664 * 2 ^ 12 + Config.oxtosJep106.toNat * 2 + 1) ∧
      (∃ t, exec (.samplePreload pins preload) s = .next t ∧ s.frame t [] ∧ t.dev.mgmt.tdo = pins ∧ t.dev.mgmt.boundary = preload ∧
        t.dev.mgmt.ir = 2) ∧
      (∃ t, exec (.challenge scope) s = .next t ∧ s.frame t [] ∧ t.dev.mgmt.ir = 0x10 ∧
        t.dev.mgmt.nonce = some (free.toNat % 2 ^ 128, scope.toNat, s.dev.time) ∧ t.dev.freeCount = s.dev.freeCount + 1) ∧
      (s.dev.rd F.FOOT_TAP_STATUS_LOCKED_OUT ≠ 0 → ∃ t, exec (.response r) s = .next t ∧ s.frame t [] ∧ t.dev.keks = s.dev.keks) ∧
      (s.dev.rd F.FOOT_TAP_STATUS_LOCKED_OUT = 0 → s.unlocks r = none → ∃ t, exec (.response r) s = .next t ∧
        s.frame t [F.FOOT_TAP_STATUS_FAILS, F.FOOT_TAP_STATUS_LOCKED_OUT] ∧ t.dev.keks = s.dev.keks ∧
        t.dev.rd F.FOOT_TAP_STATUS_FAILS = min (s.dev.rd F.FOOT_TAP_STATUS_FAILS + 1) 3 ∧
        t.dev.rd F.FOOT_TAP_STATUS_LOCKED_OUT = (if 2 ≤ s.dev.rd F.FOOT_TAP_STATUS_FAILS then 1 else 0)) ∧
      (∀ k, s.dev.rd F.FOOT_TAP_STATUS_LOCKED_OUT = 0 → s.unlocks r = some k → ∃ t, exec (.response r) s = .next t ∧
        t.dev.rd F.FOOT_TAP_STATUS_SCOPE = k ∧ t.dev.rd F.DEV_STATUS_TEST_UNLOCKED = 1 ∧ t.mem = s.mem ∧
        t.dev.raised.length = s.dev.raised.length + 1 ∧ (2 ≤ k → t.dev.keks = [] ∧ t.dev.vault = [] ∧ t.dev.nextKeys = []) ∧
        (k < 2 → t.dev.keks = s.dev.keks ∧ t.dev.vault = s.dev.vault)) ∧
      (∀ k, s.unlocks r = some k → 1 ≤ k ∧ k ≤ 3 ∧ s.dev.flag F.FOOT_TAP_GATE_ALLOW = true ∧ s.dev.mgmt.nonce ≠ none ∧
        (2 ≤ k → s.dev.patronsOn = false)) ∧
      (held < 1 → selects .extest 0xFF) ∧ (1 ≤ held → selects .extest 0) ∧
      (held < 2 → selects (.wrapper domain) 0xFF) ∧
      (2 ≤ held → ∃ t, exec (.wrapper domain) s = .next t ∧ s.frame t [] ∧ t.dev.mgmt.ir = 0x20 ∧ t.dev.mgmt.selected = domain.val) ∧
      (held < 3 → selects .scan 0xFF ∧ selects .memtest 0xFF) ∧
      (3 ≤ held → (s.dev.mgmt.selected < 128 ∨ 144 ≤ s.dev.mgmt.selected) →
        (∃ t, exec .scan s = .next t ∧ s.frame t [] ∧ t.dev.mgmt.ir = 0x30 ∧ s.dev.mgmt.selected ∈ t.dev.mgmt.scanned) ∧
        ∃ t, exec .memtest s = .next t ∧ s.frame t [] ∧ t.dev.mgmt.ir = 0x31 ∧ s.dev.mgmt.selected ∈ t.dev.mgmt.scanned) ∧
      (s.dev.mgmt.scanned = [] → ∃ t, exec .tapReset s = .next t ∧
        s.frame t [F.FOOT_TAP_STATUS_SCOPE, F.DEV_STATUS_TEST_UNLOCKED] ∧ t.dev.mgmt.ir = 1 ∧ t.dev.mgmt.nonce = none ∧
        t.dev.rd F.FOOT_TAP_STATUS_SCOPE = 0 ∧ t.dev.rd F.DEV_STATUS_TEST_UNLOCKED = 0))
end

