-- ==== Sys2Proof/Laws/SMap.lean ====
section
/-!
SUPPORT. Laws of the sparse maps: what is read after a write, and that every operation keeps the canonical form.
-/

namespace Sys2Proof.Machine

variable {α : Type}

theorem SMap.get_insert_same (d : α) (k : Nat) (v : α) (m : SMap α) : SMap.get d (SMap.insert k v m) k = v := by
  induction m with
  | nil => simp [SMap.insert, SMap.get]
  | cons x m ih =>
    obtain ⟨k', v'⟩ := x
    simp only [SMap.insert]
    split
    · simp [SMap.get]
    · split
      · simp [SMap.get]
      · rename_i h2
        simp [SMap.get, Ne.symm h2, ih]

theorem SMap.get_insert_ne (d : α) {k j : Nat} (h : j ≠ k) (v : α) (m : SMap α) :
    SMap.get d (SMap.insert k v m) j = SMap.get d m j := by
  induction m with
  | nil => simp [SMap.insert, SMap.get, Ne.symm h]
  | cons x m ih =>
    obtain ⟨k', v'⟩ := x
    simp only [SMap.insert]
    split
    · simp [SMap.get, Ne.symm h]
    · split
      · rename_i h2
        subst h2
        simp [SMap.get, Ne.symm h]
      · simp [SMap.get, ih]

theorem SMap.get_erase_same (d : α) (k : Nat) (m : SMap α) : SMap.get d (SMap.erase k m) k = d := by
  induction m with
  | nil => rfl
  | cons x m ih =>
    obtain ⟨k', v'⟩ := x
    simp only [SMap.erase]
    split
    · exact ih
    · rename_i h
      simp [SMap.get, h, ih]

theorem SMap.get_erase_ne (d : α) {k j : Nat} (h : j ≠ k) (m : SMap α) :
    SMap.get d (SMap.erase k m) j = SMap.get d m j := by
  induction m with
  | nil => rfl
  | cons x m ih =>
    obtain ⟨k', v'⟩ := x
    simp only [SMap.erase]
    split
    · rename_i h2
      simp [SMap.get, h2, Ne.symm h, ih]
    · simp [SMap.get, ih]

variable [DecidableEq α]

/-- A read of the key written gives the value written. -/
@[simp] theorem SMap.get_put_same (d : α) (m : SMap α) (k : Nat) (v : α) : SMap.get d (SMap.put d m k v) k = v := by
  simp only [SMap.put]
  split
  · rename_i h
    rw [SMap.get_erase_same, h]
  · exact SMap.get_insert_same d k v m

/-- A write leaves every other key alone, whatever an unlisted key reads as there. -/
theorem SMap.get_put_ne (d e : α) (m : SMap α) {k j : Nat} (h : j ≠ k) (v : α) :
    SMap.get d (SMap.put e m k v) j = SMap.get d m j := by
  simp only [SMap.put]
  split
  · exact SMap.get_erase_ne d h m
  · exact SMap.get_insert_ne d h v m

@[simp] theorem SMap.get_modify_same (d : α) (m : SMap α) (k : Nat) (f : α → α) :
    SMap.get d (SMap.modify d m k f) k = f (SMap.get d m k) := SMap.get_put_same d m k _

theorem SMap.get_modify_ne (d : α) (m : SMap α) {k j : Nat} (h : j ≠ k) (f : α → α) :
    SMap.get d (SMap.modify d m k f) j = SMap.get d m j := SMap.get_put_ne d d m h _

/-! ## The canonical form -/

/-- The canonical form of a longer list: its head, and the rest with no key at or below the head's. -/
theorem SMap.wf_cons (d : α) (k : Nat) (v : α) (m : SMap α) :
    SMap.wf d ((k, v) :: m) = true ↔ v ≠ d ∧ (∀ x ∈ m, k < x.1) ∧ SMap.wf d m = true := by
  induction m generalizing k v with
  | nil => simp [SMap.wf]
  | cons x m ih =>
    obtain ⟨k', v'⟩ := x
    simp only [SMap.wf, Bool.and_eq_true, decide_eq_true_eq, List.mem_cons, forall_eq_or_imp, and_assoc]
    constructor
    · rintro ⟨h1, h2, h3⟩
      refine ⟨h1, h2, fun x hx => ?_, h3⟩
      exact Nat.lt_trans h2 (((ih k' v').mp h3).2.1 x hx)
    · rintro ⟨h1, h2, -, h3⟩
      exact ⟨h1, h2, h3⟩

omit [DecidableEq α] in
theorem SMap.mem_insert {k : Nat} {v : α} {m : SMap α} {x : Nat × α} (h : x ∈ SMap.insert k v m) : x = (k, v) ∨ x ∈ m := by
  induction m with
  | nil => simpa [SMap.insert] using h
  | cons y m ih =>
    obtain ⟨k', v'⟩ := y
    simp only [SMap.insert] at h
    split at h
    · simpa using h
    · split at h
      · rcases List.mem_cons.mp h with h | h
        · exact .inl h
        · exact .inr (List.mem_cons_of_mem _ h)
      · rcases List.mem_cons.mp h with h | h
        · exact .inr (h ▸ List.mem_cons_self)
        · rcases ih h with h | h
          · exact .inl h
          · exact .inr (List.mem_cons_of_mem _ h)

omit [DecidableEq α] in
theorem SMap.mem_erase {k : Nat} {m : SMap α} {x : Nat × α} (h : x ∈ SMap.erase k m) : x ∈ m := by
  induction m with
  | nil => exact h
  | cons y m ih =>
    obtain ⟨k', v'⟩ := y
    simp only [SMap.erase] at h
    split at h
    · exact List.mem_cons_of_mem _ (ih h)
    · rcases List.mem_cons.mp h with h | h
      · exact h ▸ List.mem_cons_self
      · exact List.mem_cons_of_mem _ (ih h)

theorem SMap.wf_insert (d : α) {k : Nat} {v : α} (hv : v ≠ d) {m : SMap α} (h : SMap.wf d m = true) :
    SMap.wf d (SMap.insert k v m) = true := by
  induction m with
  | nil => simpa [SMap.insert, SMap.wf] using hv
  | cons x m ih =>
    obtain ⟨k', v'⟩ := x
    obtain ⟨h1, h2, h3⟩ := (SMap.wf_cons d k' v' m).mp h
    simp only [SMap.insert]
    split
    · rename_i hk
      refine (SMap.wf_cons d k v _).mpr ⟨hv, fun x hx => ?_, h⟩
      rcases List.mem_cons.mp hx with rfl | hx
      · exact hk
      · exact Nat.lt_trans hk (h2 x hx)
    · split
      · rename_i hk
        subst hk
        exact (SMap.wf_cons d k v m).mpr ⟨hv, h2, h3⟩
      · refine (SMap.wf_cons d k' v' _).mpr ⟨h1, fun x hx => ?_, ih h3⟩
        rcases SMap.mem_insert hx with rfl | hx
        · exact Nat.lt_of_le_of_ne (Nat.le_of_not_lt ‹_›) (Ne.symm ‹_›)
        · exact h2 x hx

theorem SMap.wf_erase (d : α) (k : Nat) {m : SMap α} (h : SMap.wf d m = true) : SMap.wf d (SMap.erase k m) = true := by
  induction m with
  | nil => exact h
  | cons x m ih =>
    obtain ⟨k', v'⟩ := x
    obtain ⟨h1, h2, h3⟩ := (SMap.wf_cons d k' v' m).mp h
    simp only [SMap.erase]
    split
    · exact ih h3
    · exact (SMap.wf_cons d k' v' _).mpr ⟨h1, fun x hx => h2 x (SMap.mem_erase hx), ih h3⟩

/-- A write keeps the canonical form. -/
theorem SMap.wf_put (d : α) (k : Nat) (v : α) {m : SMap α} (h : SMap.wf d m = true) : SMap.wf d (SMap.put d m k v) = true := by
  simp only [SMap.put]
  split
  · exact SMap.wf_erase d k h
  · exact SMap.wf_insert d ‹_› h

/-- Leaving entries out keeps the canonical form. -/
theorem SMap.wf_filter (d : α) (f : Nat × α → Bool) {m : SMap α} (h : SMap.wf d m = true) : SMap.wf d (m.filter f) = true := by
  induction m with
  | nil => exact h
  | cons x m ih =>
    obtain ⟨k', v'⟩ := x
    obtain ⟨h1, h2, h3⟩ := (SMap.wf_cons d k' v' m).mp h
    rw [List.filter_cons]
    split
    · exact (SMap.wf_cons d k' v' _).mpr ⟨h1, fun x hx => h2 x ((List.mem_filter.mp hx).1), ih h3⟩
    · exact ih h3

end Sys2Proof.Machine
end

