-- ==== Sys2Proof/Laws/State.lean ====
section
/-!
SUPPORT. One lemma per field per update of the state and of the device's volatile state.
-/

namespace Sys2Proof.Machine

open Sys2Proof

/-! ## The state -/

@[simp] theorem State.withDev_fuses (s : State) (f : Dev → Dev) : (s.withDev f).fuses = s.fuses := rfl
@[simp] theorem State.withDev_layout (s : State) (f : Dev → Dev) : (s.withDev f).layout = s.layout := rfl
@[simp] theorem State.withDev_mem (s : State) (f : Dev → Dev) : (s.withDev f).mem = s.mem := rfl
@[simp] theorem State.withDev_ledger (s : State) (f : Dev → Dev) : (s.withDev f).ledger = s.ledger := rfl
@[simp] theorem State.withDev_pending (s : State) (f : Dev → Dev) : (s.withDev f).pending = s.pending := rfl
@[simp] theorem State.withDev_dev (s : State) (f : Dev → Dev) : (s.withDev f).dev = f s.dev := rfl
@[simp] theorem State.withDev_id (s : State) : s.withDev (fun d => d) = s := rfl
@[simp] theorem State.withDev_withDev (s : State) (f g : Dev → Dev) : (s.withDev f).withDev g = s.withDev fun d => g (f d) := rfl

/-- A command that changes the device alone answers a next state. -/
theorem State.next_eq (s : State) (f : Dev → Dev) : s.next f = .next (s.withDev f) := rfl

/-! ## Register fields -/

/-- A field reads what was written to it, cut to its width. -/
@[simp] theorem Dev.rd_wr_same (d : Dev) (f : Field) (v : Nat) : (d.wr f v).rd f = v % 2 ^ f.width :=
  SMap.get_put_same _ _ _ _

/-- A write of a field leaves every other field alone. -/
theorem Dev.rd_wr_ne (d : Dev) {f g : Field} (h : g.key ≠ f.key) (v : Nat) : (d.wr f v).rd g = d.rd g :=
  SMap.get_put_ne _ _ _ h _

@[simp] theorem Dev.put_eq (d : Dev) (f : Field) (b : Bool) : d.put f b = d.wr f b.toNat := rfl
@[simp] theorem Dev.bump_eq (d : Dev) (f : Field) : d.bump f = d.wr f (min (d.rd f + 1) (2 ^ f.width - 1)) := rfl
@[simp] theorem Dev.bumpBy_eq (d : Dev) (f : Field) (n : Nat) : d.bumpBy f n = d.wr f (min (d.rd f + n) (2 ^ f.width - 1)) := rfl
@[simp] theorem Dev.wrs_nil (d : Dev) : d.wrs [] = d := rfl
@[simp] theorem Dev.wrs_cons (d : Dev) (x : Field × Nat) (l : List (Field × Nat)) : d.wrs (x :: l) = (d.wr x.1 x.2).wrs l := rfl
@[simp] theorem Dev.flag_eq (d : Dev) (f : Field) : d.flag f = decide (d.rd f ≠ 0) := rfl
@[simp] theorem Dev.raiseIf_true (d : Dev) (t : FaultType) (src : Nat) (l : List (Nat × Nat)) : d.raiseIf true t src l = d.raise t src l := rfl
@[simp] theorem Dev.raiseIf_false (d : Dev) (t : FaultType) (src : Nat) (l : List (Nat × Nat)) : d.raiseIf false t src l = d := rfl

@[simp] theorem Dev.wr_time (d : Dev) (f : Field) (v : Nat) : (d.wr f v).time = d.time := rfl
@[simp] theorem Dev.wr_raised (d : Dev) (f : Field) (v : Nat) : (d.wr f v).raised = d.raised := rfl
@[simp] theorem Dev.wr_freeCount (d : Dev) (f : Field) (v : Nat) : (d.wr f v).freeCount = d.freeCount := rfl
@[simp] theorem Dev.wr_pace (d : Dev) (f : Field) (v : Nat) : (d.wr f v).pace = d.pace := rfl
@[simp] theorem Dev.wr_localCount (d : Dev) (f : Field) (v : Nat) : (d.wr f v).localCount = d.localCount := rfl
@[simp] theorem Dev.wr_localReload (d : Dev) (f : Field) (v : Nat) : (d.wr f v).localReload = d.localReload := rfl
@[simp] theorem Dev.wr_tickFailed (d : Dev) (f : Field) (v : Nat) : (d.wr f v).tickFailed = d.tickFailed := rfl
@[simp] theorem Dev.wr_unreachable (d : Dev) (f : Field) (v : Nat) : (d.wr f v).unreachable = d.unreachable := rfl
@[simp] theorem Dev.wr_slewRest (d : Dev) (f : Field) (v : Nat) : (d.wr f v).slewRest = d.slewRest := rfl
@[simp] theorem Dev.wr_stepOrdered (d : Dev) (f : Field) (v : Nat) : (d.wr f v).stepOrdered = d.stepOrdered := rfl
@[simp] theorem Dev.wr_banks (d : Dev) (f : Field) (v : Nat) : (d.wr f v).banks = d.banks := rfl
@[simp] theorem Dev.wr_bayBanks (d : Dev) (f : Field) (v : Nat) : (d.wr f v).bayBanks = d.bayBanks := rfl
@[simp] theorem Dev.wr_shelves (d : Dev) (f : Field) (v : Nat) : (d.wr f v).shelves = d.shelves := rfl
@[simp] theorem Dev.wr_shafts (d : Dev) (f : Field) (v : Nat) : (d.wr f v).shafts = d.shafts := rfl
@[simp] theorem Dev.wr_claims (d : Dev) (f : Field) (v : Nat) : (d.wr f v).claims = d.claims := rfl
@[simp] theorem Dev.wr_owed (d : Dev) (f : Field) (v : Nat) : (d.wr f v).owed = d.owed := rfl
@[simp] theorem Dev.wr_refreshCtr (d : Dev) (f : Field) (v : Nat) : (d.wr f v).refreshCtr = d.refreshCtr := rfl
@[simp] theorem Dev.wr_rowCounts (d : Dev) (f : Field) (v : Nat) : (d.wr f v).rowCounts = d.rowCounts := rfl
@[simp] theorem Dev.wr_rowMap (d : Dev) (f : Field) (v : Nat) : (d.wr f v).rowMap = d.rowMap := rfl
@[simp] theorem Dev.wr_spareUsed (d : Dev) (f : Field) (v : Nat) : (d.wr f v).spareUsed = d.spareUsed := rfl
@[simp] theorem Dev.wr_calCodes (d : Dev) (f : Field) (v : Nat) : (d.wr f v).calCodes = d.calCodes := rfl
@[simp] theorem Dev.wr_grantNext (d : Dev) (f : Field) (v : Nat) : (d.wr f v).grantNext = d.grantNext := rfl
@[simp] theorem Dev.wr_spent (d : Dev) (f : Field) (v : Nat) : (d.wr f v).spent = d.spent := rfl
@[simp] theorem Dev.wr_periodCode (d : Dev) (f : Field) (v : Nat) : (d.wr f v).periodCode = d.periodCode := rfl
@[simp] theorem Dev.wr_triggers (d : Dev) (f : Field) (v : Nat) : (d.wr f v).triggers = d.triggers := rfl
@[simp] theorem Dev.wr_offended (d : Dev) (f : Field) (v : Nat) : (d.wr f v).offended = d.offended := rfl
@[simp] theorem Dev.wr_clampActs (d : Dev) (f : Field) (v : Nat) : (d.wr f v).clampActs = d.clampActs := rfl
@[simp] theorem Dev.wr_hygroLast (d : Dev) (f : Field) (v : Nat) : (d.wr f v).hygroLast = d.hygroLast := rfl
@[simp] theorem Dev.wr_writebacks (d : Dev) (f : Field) (v : Nat) : (d.wr f v).writebacks = d.writebacks := rfl
@[simp] theorem Dev.wr_reserveUsed (d : Dev) (f : Field) (v : Nat) : (d.wr f v).reserveUsed = d.reserveUsed := rfl
@[simp] theorem Dev.wr_symbolCount (d : Dev) (f : Field) (v : Nat) : (d.wr f v).symbolCount = d.symbolCount := rfl
@[simp] theorem Dev.wr_symbolWires (d : Dev) (f : Field) (v : Nat) : (d.wr f v).symbolWires = d.symbolWires := rfl
@[simp] theorem Dev.wr_viaWanted (d : Dev) (f : Field) (v : Nat) : (d.wr f v).viaWanted = d.viaWanted := rfl
@[simp] theorem Dev.wr_columns (d : Dev) (f : Field) (v : Nat) : (d.wr f v).columns = d.columns := rfl
@[simp] theorem Dev.wr_viaOrders (d : Dev) (f : Field) (v : Nat) : (d.wr f v).viaOrders = d.viaOrders := rfl
@[simp] theorem Dev.wr_erasureOrders (d : Dev) (f : Field) (v : Nat) : (d.wr f v).erasureOrders = d.erasureOrders := rfl
@[simp] theorem Dev.wr_rescue (d : Dev) (f : Field) (v : Nat) : (d.wr f v).rescue = d.rescue := rfl
@[simp] theorem Dev.wr_rowErrors (d : Dev) (f : Field) (v : Nat) : (d.wr f v).rowErrors = d.rowErrors := rfl
@[simp] theorem Dev.wr_proposals (d : Dev) (f : Field) (v : Nat) : (d.wr f v).proposals = d.proposals := rfl
@[simp] theorem Dev.wr_proposalsDropped (d : Dev) (f : Field) (v : Nat) : (d.wr f v).proposalsDropped = d.proposalsDropped := rfl
@[simp] theorem Dev.wr_passStart (d : Dev) (f : Field) (v : Nat) : (d.wr f v).passStart = d.passStart := rfl
@[simp] theorem Dev.wr_passMinutes (d : Dev) (f : Field) (v : Nat) : (d.wr f v).passMinutes = d.passMinutes := rfl
@[simp] theorem Dev.wr_merge (d : Dev) (f : Field) (v : Nat) : (d.wr f v).merge = d.merge := rfl
@[simp] theorem Dev.wr_room (d : Dev) (f : Field) (v : Nat) : (d.wr f v).room = d.room := rfl
@[simp] theorem Dev.wr_roomMru (d : Dev) (f : Field) (v : Nat) : (d.wr f v).roomMru = d.roomMru := rfl
@[simp] theorem Dev.wr_sparingWanted (d : Dev) (f : Field) (v : Nat) : (d.wr f v).sparingWanted = d.sparingWanted := rfl
@[simp] theorem Dev.wr_rolesDue (d : Dev) (f : Field) (v : Nat) : (d.wr f v).rolesDue = d.rolesDue := rfl
@[simp] theorem Dev.wr_retiring (d : Dev) (f : Field) (v : Nat) : (d.wr f v).retiring = d.retiring := rfl
@[simp] theorem Dev.wr_rowDue (d : Dev) (f : Field) (v : Nat) : (d.wr f v).rowDue = d.rowDue := rfl
@[simp] theorem Dev.wr_restored (d : Dev) (f : Field) (v : Nat) : (d.wr f v).restored = d.restored := rfl
@[simp] theorem Dev.wr_withdrawnBays (d : Dev) (f : Field) (v : Nat) : (d.wr f v).withdrawnBays = d.withdrawnBays := rfl
@[simp] theorem Dev.wr_mergeStatus (d : Dev) (f : Field) (v : Nat) : (d.wr f v).mergeStatus = d.mergeStatus := rfl
@[simp] theorem Dev.wr_mergeWaits (d : Dev) (f : Field) (v : Nat) : (d.wr f v).mergeWaits = d.mergeWaits := rfl
@[simp] theorem Dev.wr_perf (d : Dev) (f : Field) (v : Nat) : (d.wr f v).perf = d.perf := rfl
@[simp] theorem Dev.wr_house (d : Dev) (f : Field) (v : Nat) : (d.wr f v).house = d.house := rfl
@[simp] theorem Dev.wr_out (d : Dev) (f : Field) (v : Nat) : (d.wr f v).out = d.out := rfl
@[simp] theorem Dev.wr_hostTag (d : Dev) (f : Field) (v : Nat) : (d.wr f v).hostTag = d.hostTag := rfl
@[simp] theorem Dev.wr_ledgerQueue (d : Dev) (f : Field) (v : Nat) : (d.wr f v).ledgerQueue = d.ledgerQueue := rfl
@[simp] theorem Dev.wr_ledgerWait (d : Dev) (f : Field) (v : Nat) : (d.wr f v).ledgerWait = d.ledgerWait := rfl
@[simp] theorem Dev.wr_ledgerWriting (d : Dev) (f : Field) (v : Nat) : (d.wr f v).ledgerWriting = d.ledgerWriting := rfl
@[simp] theorem Dev.wr_footInReset (d : Dev) (f : Field) (v : Nat) : (d.wr f v).footInReset = d.footInReset := rfl
@[simp] theorem Dev.wr_keks (d : Dev) (f : Field) (v : Nat) : (d.wr f v).keks = d.keks := rfl
@[simp] theorem Dev.wr_vault (d : Dev) (f : Field) (v : Nat) : (d.wr f v).vault = d.vault := rfl
@[simp] theorem Dev.wr_nextKeys (d : Dev) (f : Field) (v : Nat) : (d.wr f v).nextKeys = d.nextKeys := rfl
@[simp] theorem Dev.wr_rekeying (d : Dev) (f : Field) (v : Nat) : (d.wr f v).rekeying = d.rekeying := rfl
@[simp] theorem Dev.wr_flushWait (d : Dev) (f : Field) (v : Nat) : (d.wr f v).flushWait = d.flushWait := rfl
@[simp] theorem Dev.wr_flushScope (d : Dev) (f : Field) (v : Nat) : (d.wr f v).flushScope = d.flushScope := rfl
@[simp] theorem Dev.wr_disableFlush (d : Dev) (f : Field) (v : Nat) : (d.wr f v).disableFlush = d.disableFlush := rfl
@[simp] theorem Dev.wr_circ (d : Dev) (f : Field) (v : Nat) : (d.wr f v).circ = d.circ := rfl
@[simp] theorem Dev.wr_inForce (d : Dev) (f : Field) (v : Nat) : (d.wr f v).inForce = d.inForce := rfl
@[simp] theorem Dev.wr_commit (d : Dev) (f : Field) (v : Nat) : (d.wr f v).commit = d.commit := rfl
@[simp] theorem Dev.wr_loose (d : Dev) (f : Field) (v : Nat) : (d.wr f v).loose = d.loose := rfl
@[simp] theorem Dev.wr_looseNext (d : Dev) (f : Field) (v : Nat) : (d.wr f v).looseNext = d.looseNext := rfl
@[simp] theorem Dev.wr_tokens (d : Dev) (f : Field) (v : Nat) : (d.wr f v).tokens = d.tokens := rfl
@[simp] theorem Dev.wr_nextTokens (d : Dev) (f : Field) (v : Nat) : (d.wr f v).nextTokens = d.nextTokens := rfl
@[simp] theorem Dev.wr_recheck (d : Dev) (f : Field) (v : Nat) : (d.wr f v).recheck = d.recheck := rfl
@[simp] theorem Dev.wr_spareCursor (d : Dev) (f : Field) (v : Nat) : (d.wr f v).spareCursor = d.spareCursor := rfl
@[simp] theorem Dev.wr_binding (d : Dev) (f : Field) (v : Nat) : (d.wr f v).binding = d.binding := rfl
@[simp] theorem Dev.wr_index (d : Dev) (f : Field) (v : Nat) : (d.wr f v).index = d.index := rfl
@[simp] theorem Dev.wr_walkCache (d : Dev) (f : Field) (v : Nat) : (d.wr f v).walkCache = d.walkCache := rfl
@[simp] theorem Dev.wr_walks (d : Dev) (f : Field) (v : Nat) : (d.wr f v).walks = d.walks := rfl
@[simp] theorem Dev.wr_held (d : Dev) (f : Field) (v : Nat) : (d.wr f v).held = d.held := rfl
@[simp] theorem Dev.wr_materialising (d : Dev) (f : Field) (v : Nat) : (d.wr f v).materialising = d.materialising := rfl
@[simp] theorem Dev.wr_fences (d : Dev) (f : Field) (v : Nat) : (d.wr f v).fences = d.fences := rfl
@[simp] theorem Dev.wr_forwards (d : Dev) (f : Field) (v : Nat) : (d.wr f v).forwards = d.forwards := rfl
@[simp] theorem Dev.wr_atomicsDone (d : Dev) (f : Field) (v : Nat) : (d.wr f v).atomicsDone = d.atomicsDone := rfl
@[simp] theorem Dev.wr_fwdTag (d : Dev) (f : Field) (v : Nat) : (d.wr f v).fwdTag = d.fwdTag := rfl
@[simp] theorem Dev.wr_cat (d : Dev) (f : Field) (v : Nat) : (d.wr f v).cat = d.cat := rfl
@[simp] theorem Dev.wr_journal (d : Dev) (f : Field) (v : Nat) : (d.wr f v).journal = d.journal := rfl
@[simp] theorem Dev.wr_cardWaits (d : Dev) (f : Field) (v : Nat) : (d.wr f v).cardWaits = d.cardWaits := rfl
@[simp] theorem Dev.wr_jobCat (d : Dev) (f : Field) (v : Nat) : (d.wr f v).jobCat = d.jobCat := rfl
@[simp] theorem Dev.wr_jobs (d : Dev) (f : Field) (v : Nat) : (d.wr f v).jobs = d.jobs := rfl
@[simp] theorem Dev.wr_reshelvePending (d : Dev) (f : Field) (v : Nat) : (d.wr f v).reshelvePending = d.reshelvePending := rfl
@[simp] theorem Dev.wr_lfsr (d : Dev) (f : Field) (v : Nat) : (d.wr f v).lfsr = d.lfsr := rfl
@[simp] theorem Dev.wr_hostOps (d : Dev) (f : Field) (v : Nat) : (d.wr f v).hostOps = d.hostOps := rfl
@[simp] theorem Dev.wr_rings (d : Dev) (f : Field) (v : Nat) : (d.wr f v).rings = d.rings := rfl
@[simp] theorem Dev.wr_ints (d : Dev) (f : Field) (v : Nat) : (d.wr f v).ints = d.ints := rfl
@[simp] theorem Dev.wr_trolleys (d : Dev) (f : Field) (v : Nat) : (d.wr f v).trolleys = d.trolleys := rfl
@[simp] theorem Dev.wr_withdrawnTrolleys (d : Dev) (f : Field) (v : Nat) : (d.wr f v).withdrawnTrolleys = d.withdrawnTrolleys := rfl
@[simp] theorem Dev.wr_groups (d : Dev) (f : Field) (v : Nat) : (d.wr f v).groups = d.groups := rfl
@[simp] theorem Dev.wr_serial (d : Dev) (f : Field) (v : Nat) : (d.wr f v).serial = d.serial := rfl
@[simp] theorem Dev.wr_rekeys (d : Dev) (f : Field) (v : Nat) : (d.wr f v).rekeys = d.rekeys := rfl
@[simp] theorem Dev.wr_missCount (d : Dev) (f : Field) (v : Nat) : (d.wr f v).missCount = d.missCount := rfl
@[simp] theorem Dev.wr_lastMs (d : Dev) (f : Field) (v : Nat) : (d.wr f v).lastMs = d.lastMs := rfl
@[simp] theorem Dev.wr_lastBoundary (d : Dev) (f : Field) (v : Nat) : (d.wr f v).lastBoundary = d.lastBoundary := rfl
@[simp] theorem Dev.wr_tbLost (d : Dev) (f : Field) (v : Nat) : (d.wr f v).tbLost = d.tbLost := rfl
@[simp] theorem Dev.wr_laneRx (d : Dev) (f : Field) (v : Nat) : (d.wr f v).laneRx = d.laneRx := rfl
@[simp] theorem Dev.wr_laneTx (d : Dev) (f : Field) (v : Nat) : (d.wr f v).laneTx = d.laneTx := rfl
@[simp] theorem Dev.wr_training (d : Dev) (f : Field) (v : Nat) : (d.wr f v).training = d.training := rfl
@[simp] theorem Dev.wr_links (d : Dev) (f : Field) (v : Nat) : (d.wr f v).links = d.links := rfl
@[simp] theorem Dev.wr_injLfsr (d : Dev) (f : Field) (v : Nat) : (d.wr f v).injLfsr = d.injLfsr := rfl
@[simp] theorem Dev.wr_urgency (d : Dev) (f : Field) (v : Nat) : (d.wr f v).urgency = d.urgency := rfl
@[simp] theorem Dev.wr_coll (d : Dev) (f : Field) (v : Nat) : (d.wr f v).coll = d.coll := rfl
@[simp] theorem Dev.wr_clk (d : Dev) (f : Field) (v : Nat) : (d.wr f v).clk = d.clk := rfl
@[simp] theorem Dev.wr_flt (d : Dev) (f : Field) (v : Nat) : (d.wr f v).flt = d.flt := rfl
@[simp] theorem Dev.wr_pow (d : Dev) (f : Field) (v : Nat) : (d.wr f v).pow = d.pow := rfl
@[simp] theorem Dev.wr_test (d : Dev) (f : Field) (v : Nat) : (d.wr f v).test = d.test := rfl
@[simp] theorem Dev.wr_therm (d : Dev) (f : Field) (v : Nat) : (d.wr f v).therm = d.therm := rfl
@[simp] theorem Dev.wr_start (d : Dev) (f : Field) (v : Nat) : (d.wr f v).start = d.start := rfl
@[simp] theorem Dev.wr_mgmt (d : Dev) (f : Field) (v : Nat) : (d.wr f v).mgmt = d.mgmt := rfl
@[simp] theorem Dev.wr_dwell (d : Dev) (f : Field) (v : Nat) : (d.wr f v).dwell = d.dwell := rfl
@[simp] theorem Dev.wr_stmt (d : Dev) (f : Field) (v : Nat) : (d.wr f v).stmt = d.stmt := rfl
@[simp] theorem Dev.wr_life (d : Dev) (f : Field) (v : Nat) : (d.wr f v).life = d.life := rfl

/-! ## Faults raised -/

@[simp] theorem Dev.raise_fields (d : Dev) (t : FaultType) (src : Nat) (l : List (Nat × Nat)) : (d.raise t src l).fields = d.fields := rfl
@[simp] theorem Dev.raise_time (d : Dev) (t : FaultType) (src : Nat) (l : List (Nat × Nat)) : (d.raise t src l).time = d.time := rfl
@[simp] theorem Dev.raise_freeCount (d : Dev) (t : FaultType) (src : Nat) (l : List (Nat × Nat)) : (d.raise t src l).freeCount = d.freeCount := rfl
@[simp] theorem Dev.raise_pace (d : Dev) (t : FaultType) (src : Nat) (l : List (Nat × Nat)) : (d.raise t src l).pace = d.pace := rfl
@[simp] theorem Dev.raise_localCount (d : Dev) (t : FaultType) (src : Nat) (l : List (Nat × Nat)) : (d.raise t src l).localCount = d.localCount := rfl
@[simp] theorem Dev.raise_localReload (d : Dev) (t : FaultType) (src : Nat) (l : List (Nat × Nat)) : (d.raise t src l).localReload = d.localReload := rfl
@[simp] theorem Dev.raise_tickFailed (d : Dev) (t : FaultType) (src : Nat) (l : List (Nat × Nat)) : (d.raise t src l).tickFailed = d.tickFailed := rfl
@[simp] theorem Dev.raise_unreachable (d : Dev) (t : FaultType) (src : Nat) (l : List (Nat × Nat)) : (d.raise t src l).unreachable = d.unreachable := rfl
@[simp] theorem Dev.raise_slewRest (d : Dev) (t : FaultType) (src : Nat) (l : List (Nat × Nat)) : (d.raise t src l).slewRest = d.slewRest := rfl
@[simp] theorem Dev.raise_stepOrdered (d : Dev) (t : FaultType) (src : Nat) (l : List (Nat × Nat)) : (d.raise t src l).stepOrdered = d.stepOrdered := rfl
@[simp] theorem Dev.raise_banks (d : Dev) (t : FaultType) (src : Nat) (l : List (Nat × Nat)) : (d.raise t src l).banks = d.banks := rfl
@[simp] theorem Dev.raise_bayBanks (d : Dev) (t : FaultType) (src : Nat) (l : List (Nat × Nat)) : (d.raise t src l).bayBanks = d.bayBanks := rfl
@[simp] theorem Dev.raise_shelves (d : Dev) (t : FaultType) (src : Nat) (l : List (Nat × Nat)) : (d.raise t src l).shelves = d.shelves := rfl
@[simp] theorem Dev.raise_shafts (d : Dev) (t : FaultType) (src : Nat) (l : List (Nat × Nat)) : (d.raise t src l).shafts = d.shafts := rfl
@[simp] theorem Dev.raise_claims (d : Dev) (t : FaultType) (src : Nat) (l : List (Nat × Nat)) : (d.raise t src l).claims = d.claims := rfl
@[simp] theorem Dev.raise_owed (d : Dev) (t : FaultType) (src : Nat) (l : List (Nat × Nat)) : (d.raise t src l).owed = d.owed := rfl
@[simp] theorem Dev.raise_refreshCtr (d : Dev) (t : FaultType) (src : Nat) (l : List (Nat × Nat)) : (d.raise t src l).refreshCtr = d.refreshCtr := rfl
@[simp] theorem Dev.raise_rowCounts (d : Dev) (t : FaultType) (src : Nat) (l : List (Nat × Nat)) : (d.raise t src l).rowCounts = d.rowCounts := rfl
@[simp] theorem Dev.raise_rowMap (d : Dev) (t : FaultType) (src : Nat) (l : List (Nat × Nat)) : (d.raise t src l).rowMap = d.rowMap := rfl
@[simp] theorem Dev.raise_spareUsed (d : Dev) (t : FaultType) (src : Nat) (l : List (Nat × Nat)) : (d.raise t src l).spareUsed = d.spareUsed := rfl
@[simp] theorem Dev.raise_calCodes (d : Dev) (t : FaultType) (src : Nat) (l : List (Nat × Nat)) : (d.raise t src l).calCodes = d.calCodes := rfl
@[simp] theorem Dev.raise_grantNext (d : Dev) (t : FaultType) (src : Nat) (l : List (Nat × Nat)) : (d.raise t src l).grantNext = d.grantNext := rfl
@[simp] theorem Dev.raise_spent (d : Dev) (t : FaultType) (src : Nat) (l : List (Nat × Nat)) : (d.raise t src l).spent = d.spent := rfl
@[simp] theorem Dev.raise_periodCode (d : Dev) (t : FaultType) (src : Nat) (l : List (Nat × Nat)) : (d.raise t src l).periodCode = d.periodCode := rfl
@[simp] theorem Dev.raise_triggers (d : Dev) (t : FaultType) (src : Nat) (l : List (Nat × Nat)) : (d.raise t src l).triggers = d.triggers := rfl
@[simp] theorem Dev.raise_offended (d : Dev) (t : FaultType) (src : Nat) (l : List (Nat × Nat)) : (d.raise t src l).offended = d.offended := rfl
@[simp] theorem Dev.raise_clampActs (d : Dev) (t : FaultType) (src : Nat) (l : List (Nat × Nat)) : (d.raise t src l).clampActs = d.clampActs := rfl
@[simp] theorem Dev.raise_hygroLast (d : Dev) (t : FaultType) (src : Nat) (l : List (Nat × Nat)) : (d.raise t src l).hygroLast = d.hygroLast := rfl
@[simp] theorem Dev.raise_writebacks (d : Dev) (t : FaultType) (src : Nat) (l : List (Nat × Nat)) : (d.raise t src l).writebacks = d.writebacks := rfl
@[simp] theorem Dev.raise_reserveUsed (d : Dev) (t : FaultType) (src : Nat) (l : List (Nat × Nat)) : (d.raise t src l).reserveUsed = d.reserveUsed := rfl
@[simp] theorem Dev.raise_symbolCount (d : Dev) (t : FaultType) (src : Nat) (l : List (Nat × Nat)) : (d.raise t src l).symbolCount = d.symbolCount := rfl
@[simp] theorem Dev.raise_symbolWires (d : Dev) (t : FaultType) (src : Nat) (l : List (Nat × Nat)) : (d.raise t src l).symbolWires = d.symbolWires := rfl
@[simp] theorem Dev.raise_viaWanted (d : Dev) (t : FaultType) (src : Nat) (l : List (Nat × Nat)) : (d.raise t src l).viaWanted = d.viaWanted := rfl
@[simp] theorem Dev.raise_columns (d : Dev) (t : FaultType) (src : Nat) (l : List (Nat × Nat)) : (d.raise t src l).columns = d.columns := rfl
@[simp] theorem Dev.raise_viaOrders (d : Dev) (t : FaultType) (src : Nat) (l : List (Nat × Nat)) : (d.raise t src l).viaOrders = d.viaOrders := rfl
@[simp] theorem Dev.raise_erasureOrders (d : Dev) (t : FaultType) (src : Nat) (l : List (Nat × Nat)) : (d.raise t src l).erasureOrders = d.erasureOrders := rfl
@[simp] theorem Dev.raise_rescue (d : Dev) (t : FaultType) (src : Nat) (l : List (Nat × Nat)) : (d.raise t src l).rescue = d.rescue := rfl
@[simp] theorem Dev.raise_rowErrors (d : Dev) (t : FaultType) (src : Nat) (l : List (Nat × Nat)) : (d.raise t src l).rowErrors = d.rowErrors := rfl
@[simp] theorem Dev.raise_proposals (d : Dev) (t : FaultType) (src : Nat) (l : List (Nat × Nat)) : (d.raise t src l).proposals = d.proposals := rfl
@[simp] theorem Dev.raise_proposalsDropped (d : Dev) (t : FaultType) (src : Nat) (l : List (Nat × Nat)) : (d.raise t src l).proposalsDropped = d.proposalsDropped := rfl
@[simp] theorem Dev.raise_passStart (d : Dev) (t : FaultType) (src : Nat) (l : List (Nat × Nat)) : (d.raise t src l).passStart = d.passStart := rfl
@[simp] theorem Dev.raise_passMinutes (d : Dev) (t : FaultType) (src : Nat) (l : List (Nat × Nat)) : (d.raise t src l).passMinutes = d.passMinutes := rfl
@[simp] theorem Dev.raise_merge (d : Dev) (t : FaultType) (src : Nat) (l : List (Nat × Nat)) : (d.raise t src l).merge = d.merge := rfl
@[simp] theorem Dev.raise_room (d : Dev) (t : FaultType) (src : Nat) (l : List (Nat × Nat)) : (d.raise t src l).room = d.room := rfl
@[simp] theorem Dev.raise_roomMru (d : Dev) (t : FaultType) (src : Nat) (l : List (Nat × Nat)) : (d.raise t src l).roomMru = d.roomMru := rfl
@[simp] theorem Dev.raise_sparingWanted (d : Dev) (t : FaultType) (src : Nat) (l : List (Nat × Nat)) : (d.raise t src l).sparingWanted = d.sparingWanted := rfl
@[simp] theorem Dev.raise_rolesDue (d : Dev) (t : FaultType) (src : Nat) (l : List (Nat × Nat)) : (d.raise t src l).rolesDue = d.rolesDue := rfl
@[simp] theorem Dev.raise_retiring (d : Dev) (t : FaultType) (src : Nat) (l : List (Nat × Nat)) : (d.raise t src l).retiring = d.retiring := rfl
@[simp] theorem Dev.raise_rowDue (d : Dev) (t : FaultType) (src : Nat) (l : List (Nat × Nat)) : (d.raise t src l).rowDue = d.rowDue := rfl
@[simp] theorem Dev.raise_restored (d : Dev) (t : FaultType) (src : Nat) (l : List (Nat × Nat)) : (d.raise t src l).restored = d.restored := rfl
@[simp] theorem Dev.raise_withdrawnBays (d : Dev) (t : FaultType) (src : Nat) (l : List (Nat × Nat)) : (d.raise t src l).withdrawnBays = d.withdrawnBays := rfl
@[simp] theorem Dev.raise_mergeStatus (d : Dev) (t : FaultType) (src : Nat) (l : List (Nat × Nat)) : (d.raise t src l).mergeStatus = d.mergeStatus := rfl
@[simp] theorem Dev.raise_mergeWaits (d : Dev) (t : FaultType) (src : Nat) (l : List (Nat × Nat)) : (d.raise t src l).mergeWaits = d.mergeWaits := rfl
@[simp] theorem Dev.raise_perf (d : Dev) (t : FaultType) (src : Nat) (l : List (Nat × Nat)) : (d.raise t src l).perf = d.perf := rfl
@[simp] theorem Dev.raise_house (d : Dev) (t : FaultType) (src : Nat) (l : List (Nat × Nat)) : (d.raise t src l).house = d.house := rfl
@[simp] theorem Dev.raise_out (d : Dev) (t : FaultType) (src : Nat) (l : List (Nat × Nat)) : (d.raise t src l).out = d.out := rfl
@[simp] theorem Dev.raise_hostTag (d : Dev) (t : FaultType) (src : Nat) (l : List (Nat × Nat)) : (d.raise t src l).hostTag = d.hostTag := rfl
@[simp] theorem Dev.raise_ledgerQueue (d : Dev) (t : FaultType) (src : Nat) (l : List (Nat × Nat)) : (d.raise t src l).ledgerQueue = d.ledgerQueue := rfl
@[simp] theorem Dev.raise_ledgerWait (d : Dev) (t : FaultType) (src : Nat) (l : List (Nat × Nat)) : (d.raise t src l).ledgerWait = d.ledgerWait := rfl
@[simp] theorem Dev.raise_ledgerWriting (d : Dev) (t : FaultType) (src : Nat) (l : List (Nat × Nat)) : (d.raise t src l).ledgerWriting = d.ledgerWriting := rfl
@[simp] theorem Dev.raise_footInReset (d : Dev) (t : FaultType) (src : Nat) (l : List (Nat × Nat)) : (d.raise t src l).footInReset = d.footInReset := rfl
@[simp] theorem Dev.raise_keks (d : Dev) (t : FaultType) (src : Nat) (l : List (Nat × Nat)) : (d.raise t src l).keks = d.keks := rfl
@[simp] theorem Dev.raise_vault (d : Dev) (t : FaultType) (src : Nat) (l : List (Nat × Nat)) : (d.raise t src l).vault = d.vault := rfl
@[simp] theorem Dev.raise_nextKeys (d : Dev) (t : FaultType) (src : Nat) (l : List (Nat × Nat)) : (d.raise t src l).nextKeys = d.nextKeys := rfl
@[simp] theorem Dev.raise_rekeying (d : Dev) (t : FaultType) (src : Nat) (l : List (Nat × Nat)) : (d.raise t src l).rekeying = d.rekeying := rfl
@[simp] theorem Dev.raise_flushWait (d : Dev) (t : FaultType) (src : Nat) (l : List (Nat × Nat)) : (d.raise t src l).flushWait = d.flushWait := rfl
@[simp] theorem Dev.raise_flushScope (d : Dev) (t : FaultType) (src : Nat) (l : List (Nat × Nat)) : (d.raise t src l).flushScope = d.flushScope := rfl
@[simp] theorem Dev.raise_disableFlush (d : Dev) (t : FaultType) (src : Nat) (l : List (Nat × Nat)) : (d.raise t src l).disableFlush = d.disableFlush := rfl
@[simp] theorem Dev.raise_circ (d : Dev) (t : FaultType) (src : Nat) (l : List (Nat × Nat)) : (d.raise t src l).circ = d.circ := rfl
@[simp] theorem Dev.raise_inForce (d : Dev) (t : FaultType) (src : Nat) (l : List (Nat × Nat)) : (d.raise t src l).inForce = d.inForce := rfl
@[simp] theorem Dev.raise_commit (d : Dev) (t : FaultType) (src : Nat) (l : List (Nat × Nat)) : (d.raise t src l).commit = d.commit := rfl
@[simp] theorem Dev.raise_loose (d : Dev) (t : FaultType) (src : Nat) (l : List (Nat × Nat)) : (d.raise t src l).loose = d.loose := rfl
@[simp] theorem Dev.raise_looseNext (d : Dev) (t : FaultType) (src : Nat) (l : List (Nat × Nat)) : (d.raise t src l).looseNext = d.looseNext := rfl
@[simp] theorem Dev.raise_tokens (d : Dev) (t : FaultType) (src : Nat) (l : List (Nat × Nat)) : (d.raise t src l).tokens = d.tokens := rfl
@[simp] theorem Dev.raise_nextTokens (d : Dev) (t : FaultType) (src : Nat) (l : List (Nat × Nat)) : (d.raise t src l).nextTokens = d.nextTokens := rfl
@[simp] theorem Dev.raise_recheck (d : Dev) (t : FaultType) (src : Nat) (l : List (Nat × Nat)) : (d.raise t src l).recheck = d.recheck := rfl
@[simp] theorem Dev.raise_spareCursor (d : Dev) (t : FaultType) (src : Nat) (l : List (Nat × Nat)) : (d.raise t src l).spareCursor = d.spareCursor := rfl
@[simp] theorem Dev.raise_binding (d : Dev) (t : FaultType) (src : Nat) (l : List (Nat × Nat)) : (d.raise t src l).binding = d.binding := rfl
@[simp] theorem Dev.raise_index (d : Dev) (t : FaultType) (src : Nat) (l : List (Nat × Nat)) : (d.raise t src l).index = d.index := rfl
@[simp] theorem Dev.raise_walkCache (d : Dev) (t : FaultType) (src : Nat) (l : List (Nat × Nat)) : (d.raise t src l).walkCache = d.walkCache := rfl
@[simp] theorem Dev.raise_walks (d : Dev) (t : FaultType) (src : Nat) (l : List (Nat × Nat)) : (d.raise t src l).walks = d.walks := rfl
@[simp] theorem Dev.raise_held (d : Dev) (t : FaultType) (src : Nat) (l : List (Nat × Nat)) : (d.raise t src l).held = d.held := rfl
@[simp] theorem Dev.raise_materialising (d : Dev) (t : FaultType) (src : Nat) (l : List (Nat × Nat)) : (d.raise t src l).materialising = d.materialising := rfl
@[simp] theorem Dev.raise_fences (d : Dev) (t : FaultType) (src : Nat) (l : List (Nat × Nat)) : (d.raise t src l).fences = d.fences := rfl
@[simp] theorem Dev.raise_forwards (d : Dev) (t : FaultType) (src : Nat) (l : List (Nat × Nat)) : (d.raise t src l).forwards = d.forwards := rfl
@[simp] theorem Dev.raise_atomicsDone (d : Dev) (t : FaultType) (src : Nat) (l : List (Nat × Nat)) : (d.raise t src l).atomicsDone = d.atomicsDone := rfl
@[simp] theorem Dev.raise_fwdTag (d : Dev) (t : FaultType) (src : Nat) (l : List (Nat × Nat)) : (d.raise t src l).fwdTag = d.fwdTag := rfl
@[simp] theorem Dev.raise_cat (d : Dev) (t : FaultType) (src : Nat) (l : List (Nat × Nat)) : (d.raise t src l).cat = d.cat := rfl
@[simp] theorem Dev.raise_journal (d : Dev) (t : FaultType) (src : Nat) (l : List (Nat × Nat)) : (d.raise t src l).journal = d.journal := rfl
@[simp] theorem Dev.raise_cardWaits (d : Dev) (t : FaultType) (src : Nat) (l : List (Nat × Nat)) : (d.raise t src l).cardWaits = d.cardWaits := rfl
@[simp] theorem Dev.raise_jobCat (d : Dev) (t : FaultType) (src : Nat) (l : List (Nat × Nat)) : (d.raise t src l).jobCat = d.jobCat := rfl
@[simp] theorem Dev.raise_jobs (d : Dev) (t : FaultType) (src : Nat) (l : List (Nat × Nat)) : (d.raise t src l).jobs = d.jobs := rfl
@[simp] theorem Dev.raise_reshelvePending (d : Dev) (t : FaultType) (src : Nat) (l : List (Nat × Nat)) : (d.raise t src l).reshelvePending = d.reshelvePending := rfl
@[simp] theorem Dev.raise_lfsr (d : Dev) (t : FaultType) (src : Nat) (l : List (Nat × Nat)) : (d.raise t src l).lfsr = d.lfsr := rfl
@[simp] theorem Dev.raise_hostOps (d : Dev) (t : FaultType) (src : Nat) (l : List (Nat × Nat)) : (d.raise t src l).hostOps = d.hostOps := rfl
@[simp] theorem Dev.raise_rings (d : Dev) (t : FaultType) (src : Nat) (l : List (Nat × Nat)) : (d.raise t src l).rings = d.rings := rfl
@[simp] theorem Dev.raise_ints (d : Dev) (t : FaultType) (src : Nat) (l : List (Nat × Nat)) : (d.raise t src l).ints = d.ints := rfl
@[simp] theorem Dev.raise_trolleys (d : Dev) (t : FaultType) (src : Nat) (l : List (Nat × Nat)) : (d.raise t src l).trolleys = d.trolleys := rfl
@[simp] theorem Dev.raise_withdrawnTrolleys (d : Dev) (t : FaultType) (src : Nat) (l : List (Nat × Nat)) : (d.raise t src l).withdrawnTrolleys = d.withdrawnTrolleys := rfl
@[simp] theorem Dev.raise_groups (d : Dev) (t : FaultType) (src : Nat) (l : List (Nat × Nat)) : (d.raise t src l).groups = d.groups := rfl
@[simp] theorem Dev.raise_serial (d : Dev) (t : FaultType) (src : Nat) (l : List (Nat × Nat)) : (d.raise t src l).serial = d.serial := rfl
@[simp] theorem Dev.raise_rekeys (d : Dev) (t : FaultType) (src : Nat) (l : List (Nat × Nat)) : (d.raise t src l).rekeys = d.rekeys := rfl
@[simp] theorem Dev.raise_missCount (d : Dev) (t : FaultType) (src : Nat) (l : List (Nat × Nat)) : (d.raise t src l).missCount = d.missCount := rfl
@[simp] theorem Dev.raise_lastMs (d : Dev) (t : FaultType) (src : Nat) (l : List (Nat × Nat)) : (d.raise t src l).lastMs = d.lastMs := rfl
@[simp] theorem Dev.raise_lastBoundary (d : Dev) (t : FaultType) (src : Nat) (l : List (Nat × Nat)) : (d.raise t src l).lastBoundary = d.lastBoundary := rfl
@[simp] theorem Dev.raise_tbLost (d : Dev) (t : FaultType) (src : Nat) (l : List (Nat × Nat)) : (d.raise t src l).tbLost = d.tbLost := rfl
@[simp] theorem Dev.raise_laneRx (d : Dev) (t : FaultType) (src : Nat) (l : List (Nat × Nat)) : (d.raise t src l).laneRx = d.laneRx := rfl
@[simp] theorem Dev.raise_laneTx (d : Dev) (t : FaultType) (src : Nat) (l : List (Nat × Nat)) : (d.raise t src l).laneTx = d.laneTx := rfl
@[simp] theorem Dev.raise_training (d : Dev) (t : FaultType) (src : Nat) (l : List (Nat × Nat)) : (d.raise t src l).training = d.training := rfl
@[simp] theorem Dev.raise_links (d : Dev) (t : FaultType) (src : Nat) (l : List (Nat × Nat)) : (d.raise t src l).links = d.links := rfl
@[simp] theorem Dev.raise_injLfsr (d : Dev) (t : FaultType) (src : Nat) (l : List (Nat × Nat)) : (d.raise t src l).injLfsr = d.injLfsr := rfl
@[simp] theorem Dev.raise_urgency (d : Dev) (t : FaultType) (src : Nat) (l : List (Nat × Nat)) : (d.raise t src l).urgency = d.urgency := rfl
@[simp] theorem Dev.raise_coll (d : Dev) (t : FaultType) (src : Nat) (l : List (Nat × Nat)) : (d.raise t src l).coll = d.coll := rfl
@[simp] theorem Dev.raise_clk (d : Dev) (t : FaultType) (src : Nat) (l : List (Nat × Nat)) : (d.raise t src l).clk = d.clk := rfl
@[simp] theorem Dev.raise_flt (d : Dev) (t : FaultType) (src : Nat) (l : List (Nat × Nat)) : (d.raise t src l).flt = d.flt := rfl
@[simp] theorem Dev.raise_pow (d : Dev) (t : FaultType) (src : Nat) (l : List (Nat × Nat)) : (d.raise t src l).pow = d.pow := rfl
@[simp] theorem Dev.raise_test (d : Dev) (t : FaultType) (src : Nat) (l : List (Nat × Nat)) : (d.raise t src l).test = d.test := rfl
@[simp] theorem Dev.raise_therm (d : Dev) (t : FaultType) (src : Nat) (l : List (Nat × Nat)) : (d.raise t src l).therm = d.therm := rfl
@[simp] theorem Dev.raise_start (d : Dev) (t : FaultType) (src : Nat) (l : List (Nat × Nat)) : (d.raise t src l).start = d.start := rfl
@[simp] theorem Dev.raise_mgmt (d : Dev) (t : FaultType) (src : Nat) (l : List (Nat × Nat)) : (d.raise t src l).mgmt = d.mgmt := rfl
@[simp] theorem Dev.raise_dwell (d : Dev) (t : FaultType) (src : Nat) (l : List (Nat × Nat)) : (d.raise t src l).dwell = d.dwell := rfl
@[simp] theorem Dev.raise_stmt (d : Dev) (t : FaultType) (src : Nat) (l : List (Nat × Nat)) : (d.raise t src l).stmt = d.stmt := rfl
@[simp] theorem Dev.raise_life (d : Dev) (t : FaultType) (src : Nat) (l : List (Nat × Nat)) : (d.raise t src l).life = d.life := rfl
@[simp] theorem Dev.raise_raised (d : Dev) (t : FaultType) (src : Nat) (l : List (Nat × Nat)) :
    (d.raise t src l).raised = d.raised ++ [{ type := t.code, source := src, detail := packDetail l }] := rfl
@[simp] theorem Dev.rd_raise (d : Dev) (t : FaultType) (src : Nat) (l : List (Nat × Nat)) (f : Field) : (d.raise t src l).rd f = d.rd f := rfl

/-! ## Records of the shafts -/

@[simp] theorem Dev.shelf_setShelf_same (d : Dev) (k : Nat) (f : Shelf → Shelf) : (d.setShelf k f).shelf k = f (d.shelf k) := SMap.get_modify_same _ _ _ _
theorem Dev.shelf_setShelf_ne (d : Dev) {k j : Nat} (h : j ≠ k) (f : Shelf → Shelf) : (d.setShelf k f).shelf j = d.shelf j := SMap.get_modify_ne _ _ h _
@[simp] theorem Dev.bank_setBank_same (d : Dev) (k : Nat) (f : Bank → Bank) : (d.setBank k f).bank k = f (d.bank k) := SMap.get_modify_same _ _ _ _
theorem Dev.bank_setBank_ne (d : Dev) {k j : Nat} (h : j ≠ k) (f : Bank → Bank) : (d.setBank k f).bank j = d.bank j := SMap.get_modify_ne _ _ h _
@[simp] theorem Dev.shaft_setShaft_same (d : Dev) (k : Nat) (f : Shaft → Shaft) : (d.setShaft k f).shaft k = f (d.shaft k) := SMap.get_modify_same _ _ _ _
theorem Dev.shaft_setShaft_ne (d : Dev) {k j : Nat} (h : j ≠ k) (f : Shaft → Shaft) : (d.setShaft k f).shaft j = d.shaft j := SMap.get_modify_ne _ _ h _
@[simp] theorem Dev.bayBank_setBayBank_same (d : Dev) (k : Nat) (st : BankSt) : (d.setBayBank k st).bayBank k = st := SMap.get_put_same _ _ _ _
theorem Dev.bayBank_setBayBank_ne (d : Dev) {k j : Nat} (h : j ≠ k) (st : BankSt) : (d.setBayBank k st).bayBank j = d.bayBank j :=
  SMap.get_put_ne _ _ _ h _
@[simp] theorem Dev.owedOf_setOwed_same (d : Dev) (k : Nat) (v : Int) : (d.setOwed k v).owedOf k = v := SMap.get_put_same _ _ _ _
theorem Dev.owedOf_setOwed_ne (d : Dev) {k j : Nat} (h : j ≠ k) (v : Int) : (d.setOwed k v).owedOf j = d.owedOf j :=
  SMap.get_put_ne _ _ _ h _

end Sys2Proof.Machine
end

