-- ==== Sys2Proof/Laws/Kept.lean ====
section
/-!
SUPPORT. Properties of the parts of the state that few operations write (fuses, layout, DRAM, ledger, queue): what a property must bear
so that every operation keeps it. Each operation's own lemma then says which of these it needs, which is which parts it can write.
-/

namespace Sys2Proof.Machine

open Sys2Proof

/-- A property that does not look at the device's volatile state. -/
def DevFree (P : State → Prop) : Prop := ∀ s d, P s → P { s with dev := d }

/-- A property that bears any change of the DRAM that keeps its canonical form. -/
def MemFree (P : State → Prop) : Prop := ∀ s m, (Memory.wf s.mem = true → Memory.wf m = true) → P s → P { s with mem := m }

/-- A property that does not look at the ledger. -/
def LedgerFree (P : State → Prop) : Prop := ∀ s l, P s → P { s with ledger := l }

/-- A property that bears a change of the layout while it is not locked. -/
def LayoutFree (P : State → Prop) : Prop := ∀ s l, s.layout.locked = false → P s → P { s with layout := l }

/-- A property that bears any change of the layout. -/
def ResetFree (P : State → Prop) : Prop := ∀ s l, P s → P { s with layout := l }

variable {P : State → Prop}

theorem dev_kept (hd : DevFree P) {s : State} (h : P s) (d : Dev) : P { s with dev := d } := hd s d h

theorem mem_kept (hm : MemFree P) {s : State} (h : P s) {m : List Host.Cell} (hw : Memory.wf s.mem = true → Memory.wf m = true) :
    P { s with mem := m } := hm s m hw h

theorem empty_kept (hd : DevFree P) (hm : MemFree P) {s : State} (h : P s) (d : Dev) : P { s with mem := [], dev := d } :=
  dev_kept hd (s := { s with mem := [] }) (mem_kept hm h fun _ => rfl) d

theorem reset_kept (hd : DevFree P) (hm : MemFree P) (hr : ResetFree P) {s : State} (h : P s) (d : Dev) :
    P { s with mem := [], layout := {}, dev := d } :=
  hr { s with mem := [], dev := d } {} (empty_kept hd hm h d)

theorem ledger_kept (hl : LedgerFree P) {s : State} (h : P s) (l : Ledger) : P { s with ledger := l } := hl s l h

theorem layout_kept (hr : ResetFree P) {s : State} (h : P s) (l : Layout) : P { s with layout := l } := hr s l h

theorem State.withDev_kept (hd : DevFree P) {s : State} (h : P s) (f : Dev → Dev) : P (s.withDev f) := hd s _ h

theorem after_kept {s : State} {o : Host.Outcome State Fault Refusal} (hs : P s) (ho : ∀ t, o = .next t → P t) : P (s.after o) := by
  cases o with
  | next t => exact ho t rfl
  | fault _ => exact hs
  | refused _ => exact hs

theorem foldl_kept {α : Type} {f : State → α → State} (hf : ∀ s, P s → ∀ a, P (f s a)) {s : State} (h : P s) (l : List α) :
    P (l.foldl f s) := by
  induction l generalizing s with
  | nil => exact h
  | cons a l ih => exact ih (hf s h a)

theorem snd_kept {α : Type} {x : α × State} {a : α} {t : State} (e : x = (a, t)) (h : P x.2) : P t := by
  subst e
  exact h

theorem snd2_kept {α β : Type} {x : α × β × State} {a : α} {b : β} {t : State} (e : x = (a, b, t)) (h : P x.2.2) : P t := by
  subst e
  exact h

theorem Memory.wf_writeLine {m : List Host.Cell} (h : Memory.wf m = true) (loc : Nat) (w : CodeWord) :
    Memory.wf (writeLine m loc w) = true := by
  have : ∀ (l : List Nat) (m : List Host.Cell), Memory.wf m = true →
      Memory.wf (l.foldl (fun m j => SMap.put memDefault m (symAddr loc + j) (BitVec.ofNat 8 (CodeWord.sym w j))) m) = true := by
    intro l
    induction l with
    | nil => exact fun m h => h
    | cons a l ih => exact fun m h => ih _ (SMap.wf_put _ _ _ h)
  exact this _ m h

theorem State.storeLine_kept (hm : MemFree P) {s : State} (h : P s) (loc : Nat) (w : CodeWord) : P (s.storeLine loc w) := by
  refine hm s _ (fun hw => ?_) h
  split
  · exact Memory.wf_writeLine (Memory.wf_writeLine hw _ _) _ _
  · exact Memory.wf_writeLine hw _ _

end Sys2Proof.Machine
end

