-- ==== Sys2Proof/Laws/KeptDram.lean ====
section
/-!
SUPPORT. What a change of State keeps, for the DRAM side: shafts, lines, ledger, refresh, sealing, room, transfers: a predicate P that
no change of the volatile state, of the stored lines, ... (as the hypotheses name them) can break holds after the operation.
One lemma per operation; it cites those of the operations it calls.
-/

namespace Sys2Proof.Machine

open Sys2Proof

variable {P : State → Prop}

/-! ## Shaft -/

theorem execAct_kept (hd : DevFree P) {s : State} (hs : P s) (shaft : Fin 64) (level : Fin 17) (bank : Fin 16) (row : BitVec 13) (patron : Fin 4096) (countBad : Bool) (noise : Noise) :
    ∀ t, execAct shaft level bank row patron countBad noise s = .next t → P t := by
  intro t e
  obtain rfl := Host.Outcome.next.inj e
  refine dev_kept hd ?_ _
  assumption

theorem execPing_kept (hd : DevFree P) {s : State} (hs : P s) (shaft : Fin 64) (level : Fin 17) (noise : Noise) :
    ∀ t, execPing shaft level noise s = .next t → P t := by
  intro t e
  obtain rfl := Host.Outcome.next.inj e
  refine dev_kept hd ?_ _
  assumption

theorem execRd_kept (hd : DevFree P) {s : State} (hs : P s) (shaft : Fin 64) (level : Fin 17) (bank : Fin 16) (line : Fin 32) (ap : Bool) (cls : Fin 8) (grp : Fin 256) (patron : Fin 4096) (scrub : Bool) (noise : Noise) :
    ∀ t, execRd shaft level bank line ap cls grp patron scrub noise s = .next t → P t := by
  intro t e
  obtain rfl := Host.Outcome.next.inj e
  refine dev_kept hd ?_ _
  assumption

theorem execWr_kept (hd : DevFree P) {s : State} (hs : P s) (shaft : Fin 64) (level : Fin 17) (bank : Fin 16) (line : Fin 32) (ap : Bool) (cls : Fin 8) (grp : Fin 256) (noise : Noise) :
    ∀ t, execWr shaft level bank line ap cls grp noise s = .next t → P t := by
  intro t e
  obtain rfl := Host.Outcome.next.inj e
  refine dev_kept hd ?_ _
  assumption

theorem execPre_kept (hd : DevFree P) {s : State} (hs : P s) (shaft : Fin 64) (level : Fin 17) (bank : Fin 16) (all : Bool) (noise : Noise) :
    ∀ t, execPre shaft level bank all noise s = .next t → P t := by
  intro t e
  obtain rfl := Host.Outcome.next.inj e
  refine dev_kept hd ?_ _
  assumption

theorem execRef_kept (hd : DevFree P) {s : State} (hs : P s) (shaft : Fin 64) (level : Fin 17) (bank : Fin 16) (noise : Noise) :
    ∀ t, execRef shaft level bank noise s = .next t → P t := by
  intro t e
  obtain rfl := Host.Outcome.next.inj e
  refine dev_kept hd ?_ _
  assumption

theorem execTref_kept (hd : DevFree P) {s : State} (hs : P s) (shaft : Fin 64) (level : Fin 17) (claim : BitVec 9) (noise : Noise) :
    ∀ t, execTref shaft level claim noise s = .next t → P t := by
  intro t e
  obtain rfl := Host.Outcome.next.inj e
  refine dev_kept hd ?_ _
  assumption

theorem execSrefEnter_kept (hd : DevFree P) {s : State} (hs : P s) (shaft : Fin 64) (level : Fin 17) (noise : Noise) :
    ∀ t, execSrefEnter shaft level noise s = .next t → P t := by
  intro t e
  obtain rfl := Host.Outcome.next.inj e
  refine dev_kept hd ?_ _
  assumption

theorem execSrefExit_kept (hd : DevFree P) {s : State} (hs : P s) (shaft : Fin 64) (level : Fin 17) (noise : Noise) :
    ∀ t, execSrefExit shaft level noise s = .next t → P t := by
  intro t e
  obtain rfl := Host.Outcome.next.inj e
  refine dev_kept hd ?_ _
  assumption

theorem execSrr_kept (hd : DevFree P) {s : State} (hs : P s) (shaft : Fin 64) (level : Fin 17) (word : BitVec 9) (noise : Noise) :
    ∀ t, execSrr shaft level word noise s = .next t → P t := by
  intro t e
  obtain rfl := Host.Outcome.next.inj e
  refine dev_kept hd ?_ _
  assumption

theorem execSrw_kept (hd : DevFree P) {s : State} (hs : P s) (shaft : Fin 64) (level : Fin 17) (word : BitVec 9) (data : Word) (noise : Noise) :
    ∀ t, execSrw shaft level word data noise s = .next t → P t := by
  intro t e
  obtain rfl := Host.Outcome.next.inj e
  refine dev_kept hd ?_ _
  assumption

theorem execCalEcho_kept (hd : DevFree P) {s : State} (hs : P s) (shaft : Fin 64) (level : Fin 17) (dead : Option (Fin 32)) (noise : Noise) :
    ∀ t, execCalEcho shaft level dead noise s = .next t → P t := by
  intro t e
  obtain rfl := Host.Outcome.next.inj e
  refine dev_kept hd ?_ _
  assumption

theorem execCalWritePattern_kept (hd : DevFree P) {s : State} (hs : P s) (shaft : Fin 64) (level : Fin 17) (noise : Noise) :
    ∀ t, execCalWritePattern shaft level noise s = .next t → P t := by
  intro t e
  obtain rfl := Host.Outcome.next.inj e
  refine dev_kept hd ?_ _
  assumption

theorem execCalReadPattern_kept (hd : DevFree P) {s : State} (hs : P s) (shaft : Fin 64) (level : Fin 17) (noise : Noise) :
    ∀ t, execCalReadPattern shaft level noise s = .next t → P t := by
  intro t e
  obtain rfl := Host.Outcome.next.inj e
  refine dev_kept hd ?_ _
  assumption

theorem execSync_kept (hd : DevFree P) {s : State} (hs : P s) (shaft : Fin 64) (level : Fin 17) (noise : Noise) :
    ∀ t, execSync shaft level noise s = .next t → P t := by
  intro t e
  obtain rfl := Host.Outcome.next.inj e
  refine dev_kept hd ?_ _
  assumption

theorem execActivationComplete_kept (hd : DevFree P) {s : State} (hs : P s) (shaft : Fin 64) (level : Fin 17) (bank : Fin 16) (ns : Nat) :
    ∀ t, execActivationComplete shaft level bank ns s = .next t → P t := by
  intro t e
  obtain rfl := Host.Outcome.next.inj e
  refine dev_kept hd ?_ _
  assumption

theorem execPrechargeComplete_kept (hd : DevFree P) {s : State} (hs : P s) (shaft : Fin 64) (level : Fin 17) (bank : Fin 16) (ns : Nat) :
    ∀ t, execPrechargeComplete shaft level bank ns s = .next t → P t := by
  intro t e
  obtain rfl := Host.Outcome.next.inj e
  refine dev_kept hd ?_ _
  assumption

theorem execRefreshComplete_kept (hd : DevFree P) {s : State} (hs : P s) (shaft : Fin 64) (level : Fin 17) (bank : Fin 16) (ns : Nat) :
    ∀ t, execRefreshComplete shaft level bank ns s = .next t → P t := by
  intro t e
  obtain rfl := Host.Outcome.next.inj e
  refine dev_kept hd ?_ _
  assumption

theorem execCompletionForced_kept (hd : DevFree P) {s : State} (hs : P s) (shaft : Fin 64) (level : Fin 17) (bank : Fin 16) :
    ∀ t, execCompletionForced shaft level bank s = .next t → P t := by
  intro t e
  obtain rfl := Host.Outcome.next.inj e
  refine dev_kept hd ?_ _
  assumption

theorem execCompletionLate_kept (hd : DevFree P) {s : State} (hs : P s) (shaft : Fin 64) (level : Fin 17) (bank : Fin 16) :
    ∀ t, execCompletionLate shaft level bank s = .next t → P t := by
  intro t e
  obtain rfl := Host.Outcome.next.inj e
  refine dev_kept hd ?_ _
  assumption

theorem execCmdStall_kept (hd : DevFree P) {s : State} (hs : P s) (shaft : Fin 64) (level : Fin 17) (atFall : Bool) :
    ∀ t, execCmdStall shaft level atFall s = .next t → P t := by
  intro t e
  obtain rfl := Host.Outcome.next.inj e
  refine dev_kept hd ?_ _
  assumption

theorem execAttnPoll_kept (hd : DevFree P) {s : State} (hs : P s) (shaft : Fin 64) :
    ∀ t, execAttnPoll shaft s = .next t → P t := by
  intro t e
  obtain rfl := Host.Outcome.next.inj e
  refine dev_kept hd ?_ _
  assumption

theorem execBusyBankPoll_kept (hd : DevFree P) {s : State} (hs : P s) (shaft : Fin 64) (level : Fin 17) :
    ∀ t, execBusyBankPoll shaft level s = .next t → P t := by
  intro t e
  obtain rfl := Host.Outcome.next.inj e
  refine dev_kept hd ?_ _
  assumption

theorem execCalFullPass_kept (hd : DevFree P) {s : State} (hs : P s) (shaft : Fin 64) (smallest : List Nat) (beatRate : Nat) (twinSmallest : List Nat) :
    ∀ t, execCalFullPass shaft smallest beatRate twinSmallest s = .next t → P t := by
  intro t e
  obtain rfl := Host.Outcome.next.inj e
  refine dev_kept hd ?_ _
  assumption

theorem execCalStart_kept (hd : DevFree P) {s : State} (hs : P s) (bay : Fin 64) :
    ∀ t, execCalStart bay s = .next t → P t := by
  intro t e
  obtain rfl := Host.Outcome.next.inj e
  refine dev_kept hd ?_ _
  assumption

theorem execCalTrackingPass_kept (hd : DevFree P) {s : State} (hs : P s) (shaft : Fin 64) (results : List (Nat × TrackResult)) :
    ∀ t, execCalTrackingPass shaft results s = .next t → P t := by
  intro t e
  obtain rfl := Host.Outcome.next.inj e
  refine dev_kept hd ?_ _
  assumption

/-! ## Line -/

theorem State.issueWriteback_kept (hd : DevFree P) (hm : MemFree P) {s : State} (hs : P s) (bay : Nat) (loc : Nat) (w : CodeWord) :
    P (s.issueWriteback bay loc w) := by
  unfold State.issueWriteback
  apply State.withDev_kept hd
  apply State.storeLine_kept hm
  assumption

theorem State.queueWriteback_kept (hd : DevFree P) (hm : MemFree P) {s : State} (hs : P s) (bay : Nat) (loc : Nat) (w : CodeWord) :
    P (s.queueWriteback bay loc w) := by
  unfold State.queueWriteback
  extract_lets v1 v2 s3
  have h4 : P s3 := by
    dsimp -zeta only [s3]
    apply State.withDev_kept hd
    assumption
  clear_value v1 v2 s3
  split
  · assumption
  · split
    · assumption
    · extract_lets s5
      have h6 : P s5 := by
        dsimp -zeta only [s5]
        apply State.withDev_kept hd
        assumption
      clear_value s5
      split
      · apply State.issueWriteback_kept hd hm
        assumption
      · apply State.withDev_kept hd
        assumption

theorem State.writebackBoundary_kept (hd : DevFree P) (hm : MemFree P) {s : State} (hs : P s) (bay : Nat) :
    P (s.writebackBoundary bay) := by
  unfold State.writebackBoundary
  extract_lets v1 v2 v3 s4
  have h5 : P s4 := by
    dsimp -zeta only [s4]
    apply State.withDev_kept hd
    assumption
  clear_value v1 v2 v3 s4
  refine foldl_kept (fun s6 h7 a8 => ?_) ?_ _
  · apply State.issueWriteback_kept hd hm
    assumption
  · assumption

theorem State.afterRead_kept (hd : DevFree P) (hm : MemFree P) {s : State} (hs : P s) (bay : Nat) (loc : Nat) (raw : CodeWord) (r : LineRead) (isFill : Bool) (patron : Option Nat) :
    P (s.afterRead bay loc raw r isFill patron) := by
  unfold State.afterRead
  extract_lets s1 s2 s3
  have h4 : P s1 := by
    dsimp -zeta only [s1]
    apply State.withDev_kept hd
    assumption
  have h5 : P s2 := by
    dsimp -zeta only [s2]
    apply State.withDev_kept hd
    assumption
  have h6 : P s3 := by
    dsimp -zeta only [s3]
    apply State.withDev_kept hd
    assumption
  clear_value s1 s2 s3
  split
  · assumption
  · assumption
  · assumption
  · split
    · assumption
    · apply State.queueWriteback_kept hd hm
      assumption
  · split
    · assumption
    · apply State.queueWriteback_kept hd hm
      assumption
  · split
    · assumption
    · split
      · apply State.withDev_kept hd
        assumption
      · apply State.queueWriteback_kept hd hm
        assumption

theorem State.bayRead_kept (hd : DevFree P) (hm : MemFree P) {s : State} (hs : P s) (bay : Nat) (loc : Nat) (wire : CodeWord) (isFill : Bool) (patron : Option Nat) :
    P (s.bayRead bay loc wire isFill patron).2 := by
  unfold State.bayRead
  extract_lets v1 v2
  clear_value v1 v2
  dsimp only
  apply State.afterRead_kept hd hm
  assumption

theorem State.mergeWrite_kept (hd : DevFree P) (hm : MemFree P) {s : State} (hs : P s) (bay : Nat) (loc : Nat) (dpaLine : Nat) (data : LineData) (mask : BitVec 64) (poison : Bool) (room : Bool) (cls : Nat) (grp : Nat) (wire : CodeWord) :
    P (s.mergeWrite bay loc dpaLine data mask poison room cls grp wire).2 := by
  unfold State.mergeWrite
  extract_lets s1 v2 v3 s4
  have h5 : P s1 := by
    dsimp -zeta only [s1]
    apply State.withDev_kept hd
    assumption
  have h6 : P s4 := by
    dsimp -zeta only [s4]
    apply State.withDev_kept hd
    assumption
  clear_value s1 v2 v3 s4
  split
  · extract_lets v7 v8 s9
    have h10 : P s9 := by
      dsimp -zeta only [s9]
      apply State.withDev_kept hd
      assumption
    clear_value v7 v8 s9
    assumption
  · split
    · dsimp only
      apply State.withDev_kept hd
      assumption
    · split
      · dsimp only
        apply State.withDev_kept hd
        assumption
      · split
        · extract_lets v11
          clear_value v11
          dsimp only
          apply State.withDev_kept hd
          assumption
        · split
          · split
            · rename_i x12 x13 x14 x15
              have h16 : P x14 := by
                refine snd_kept x15 ?_
                apply State.bayRead_kept hd hm
                assumption
              extract_lets v17
              clear_value v17
              dsimp only
              apply State.withDev_kept hd
              assumption
          · dsimp only
            apply State.withDev_kept hd
            assumption

theorem State.mergeComplete_kept (hd : DevFree P) (hm : MemFree P) {s : State} (hs : P s) (bay : Nat) (e : MergeEntry) :
    P (s.mergeComplete bay e) := by
  unfold State.mergeComplete
  apply State.withDev_kept hd
  apply State.storeLine_kept hm
  assumption

/-! ## Ledger -/

theorem State.ledgerStart_kept (hd : DevFree P) (hl : LedgerFree P) {s : State} (hs : P s) :
    P (s.ledgerStart) := by
  unfold State.ledgerStart
  split
  · split
    · apply State.withDev_kept hd
      assumption
    · split
      · apply State.withDev_kept hd
        refine ledger_kept hl ?_ _
        assumption
  · assumption

theorem execLedgerSlotWrite_kept (hd : DevFree P) (hl : LedgerFree P) {s : State} (hs : P s) :
    ∀ t, execLedgerSlotWrite s = .next t → P t := by
  intro t e
  obtain rfl := Host.Outcome.next.inj e
  apply State.ledgerStart_kept hd hl
  assumption

theorem State.ledgerRead_kept (hd : DevFree P) {s : State} (hs : P s) :
    P (s.ledgerRead) := by
  unfold State.ledgerRead
  apply State.withDev_kept hd
  assumption

theorem execLedgerRead_kept (hd : DevFree P) {s : State} (hs : P s) :
    ∀ t, execLedgerRead s = .next t → P t := by
  intro t e
  obtain rfl := Host.Outcome.next.inj e
  apply State.ledgerRead_kept hd
  assumption

/-! ## Refresh -/

theorem execRefreshPacerStep_kept (hd : DevFree P) {s : State} (hs : P s) (shaft : Fin 64) (level : Fin 17) (bank : Fin 16) :
    ∀ t, execRefreshPacerStep shaft level bank s = .next t → P t := by
  intro t e
  obtain rfl := Host.Outcome.next.inj e
  refine dev_kept hd ?_ _
  assumption

theorem execTrefDeadline_kept (hd : DevFree P) {s : State} (hs : P s) (shaft : Fin 64) (level : Fin 17) (slot : Fin 32) :
    ∀ t, execTrefDeadline shaft level slot s = .next t → P t := by
  intro t e
  obtain rfl := Host.Outcome.next.inj e
  refine dev_kept hd ?_ _
  assumption

theorem execTrefLate_kept (hd : DevFree P) {s : State} (hs : P s) (shaft : Fin 64) (level : Fin 17) (slot : Fin 32) :
    ∀ t, execTrefLate shaft level slot s = .next t → P t := by
  intro t e
  obtain rfl := Host.Outcome.next.inj e
  refine dev_kept hd ?_ _
  assumption

theorem execRowActWindow_kept (hd : DevFree P) {s : State} (hs : P s) :
    ∀ t, execRowActWindow s = .next t → P t := by
  intro t e
  obtain rfl := Host.Outcome.next.inj e
  refine dev_kept hd ?_ _
  assumption

theorem execRowActClampClear_kept (hd : DevFree P) {s : State} (hs : P s) (clamp : Fin 16) :
    ∀ t, execRowActClampClear clamp s = .next t → P t := by
  intro t e
  obtain rfl := Host.Outcome.next.inj e
  refine dev_kept hd ?_ _
  assumption

theorem execLevelStewardReset_kept (hd : DevFree P) {s : State} (hs : P s) (level : Fin 17) :
    ∀ t, execLevelStewardReset level s = .next t → P t := by
  intro t e
  obtain rfl := Host.Outcome.next.inj e
  refine dev_kept hd ?_ _
  assumption

theorem execLevelResetReq_kept (hd : DevFree P) {s : State} (hs : P s) (level : Fin 17) :
    ∀ t, execLevelResetReq level s = .next t → P t := by
  intro t e
  obtain rfl := Host.Outcome.next.inj e
  refine dev_kept hd ?_ _
  assumption

theorem execRecoveringRefTimer_kept (hd : DevFree P) {s : State} (hs : P s) (shaft : Fin 64) (level : Fin 17) :
    ∀ t, execRecoveringRefTimer shaft level s = .next t → P t := by
  intro t e
  obtain rfl := Host.Outcome.next.inj e
  refine dev_kept hd ?_ _
  assumption

/-! ## Seal -/

theorem execLoadKek_kept (hd : DevFree P) {s : State} (hs : P s) (slot : Fin 16) :
    ∀ t, execLoadKek slot s = .next t → P t := by
  intro t e
  obtain rfl := Host.Outcome.next.inj e
  refine dev_kept hd ?_ _
  assumption

theorem execLoadKey_kept (hd : DevFree P) {s : State} (hs : P s) (patron : Fin 4096) (kek : Fin 16) :
    ∀ t, execLoadKey patron kek s = .next t → P t := by
  intro t e
  obtain rfl := Host.Outcome.next.inj e
  refine dev_kept hd ?_ _
  assumption

theorem execLoadNext_kept (hd : DevFree P) {s : State} (hs : P s) (patron : Fin 4096) (kek : Fin 16) :
    ∀ t, execLoadNext patron kek s = .next t → P t := by
  intro t e
  obtain rfl := Host.Outcome.next.inj e
  refine dev_kept hd ?_ _
  assumption

theorem execDropNext_kept (hd : DevFree P) {s : State} (hs : P s) (patron : Fin 4096) :
    ∀ t, execDropNext patron s = .next t → P t := by
  intro t e
  obtain rfl := Host.Outcome.next.inj e
  refine dev_kept hd ?_ _
  assumption

theorem execClearKek_kept (hd : DevFree P) {s : State} (hs : P s) (slot : Fin 16) :
    ∀ t, execClearKek slot s = .next t → P t := by
  intro t e
  obtain rfl := Host.Outcome.next.inj e
  refine dev_kept hd ?_ _
  assumption

theorem execSealReservedOp_kept (hd : DevFree P) {s : State} (hs : P s) :
    ∀ t, execSealReservedOp s = .next t → P t := by
  intro t e
  obtain rfl := Host.Outcome.next.inj e
  refine dev_kept hd ?_ _
  assumption

theorem execKekLock_kept (hd : DevFree P) {s : State} (hs : P s) :
    ∀ t, execKekLock s = .next t → P t := by
  intro t e
  obtain rfl := Host.Outcome.next.inj e
  refine dev_kept hd ?_ _
  assumption

/-! ## Room -/

theorem State.completeLine_kept (hd : DevFree P) (hm : MemFree P) {s : State} (hs : P s) (bay : Nat) (loc : Nat) :
    P (s.completeLine bay loc) := by
  unfold State.completeLine
  extract_lets v1
  clear_value v1
  refine foldl_kept (fun s2 h3 a4 => ?_) ?_ _
  · extract_lets s5
    have h6 : P s5 := by
      dsimp -zeta only [s5]
      apply State.withDev_kept hd
      assumption
    clear_value s5
    apply State.withDev_kept hd
    apply State.mergeComplete_kept hd hm
    assumption
  · assumption

theorem State.shaftWrite_kept (hd : DevFree P) (hm : MemFree P) {s : State} (hs : P s) (dpa : Nat) (data : LineData) (mask : BitVec 64) (poison : Bool) (room : Bool) (cls : Nat) (grp : Nat) (wire : CodeWord) :
    P (s.shaftWrite dpa data mask poison room cls grp wire).2 := by
  unfold State.shaftWrite
  split
  · dsimp only
    apply State.withDev_kept hd
    assumption
  · assumption
  · extract_lets v1 s2
    have h3 : P s2 := by
      dsimp -zeta only [s2]
      split
      · apply State.withDev_kept hd
        apply State.mergeWrite_kept hd hm
        assumption
      · assumption
    clear_value v1 s2
    apply State.mergeWrite_kept hd hm
    assumption

theorem State.handBack_kept (hd : DevFree P) (hm : MemFree P) {s : State} (hs : P s) (key : Nat) (l : RoomLine) (cls : Nat) (grp : Nat) :
    P (s.handBack key l cls grp) := by
  unfold State.handBack
  extract_lets v1 v2 s3
  have h4 : P s3 := by
    dsimp -zeta only [s3]
    split
    · apply State.withDev_kept hd
      assumption
    · assumption
  clear_value v1 v2 s3
  split
  · rename_i x5 x6 x7 x8
    have h9 : P x7 := by
      refine snd_kept x8 ?_
      apply State.shaftWrite_kept hd hm
      assumption
    split
    · assumption
    · extract_lets s10
      have h11 : P s10 := by
        dsimp -zeta only [s10]
        apply State.withDev_kept hd
        assumption
      clear_value s10
      split
      · split
        · apply State.completeLine_kept hd hm
          assumption
        · assumption
      · apply State.withDev_kept hd
        assumption

theorem State.roomWay_kept (hd : DevFree P) (hm : MemFree P) {s : State} (hs : P s) (dpa : Nat) (grp : Nat) :
    P (s.roomWay dpa grp).2 := by
  unfold State.roomWay
  extract_lets v1 v2 v3 v4 v5 v6 s7
  have h8 : P s7 := by
    dsimp -zeta only [s7]
    apply State.withDev_kept hd
    assumption
  clear_value v1 v2 v3 v4 v5 v6 s7
  split
  · assumption
  · split
    · assumption
    · extract_lets v9
      clear_value v9
      split
      · assumption
      · extract_lets s10
        have h11 : P s10 := by
          dsimp -zeta only [s10]
          split
          · apply State.handBack_kept hd hm
            assumption
          · assumption
        clear_value s10
        split
        · split
          · dsimp only
            apply State.withDev_kept hd
            assumption
          · assumption
        · assumption

theorem State.roomPut_kept (hd : DevFree P) {s : State} (hs : P s) (key : Nat) (l : RoomLine) :
    P (s.roomPut key l) := by
  unfold State.roomPut
  apply State.withDev_kept hd
  assumption

theorem State.roomTouched_kept (hd : DevFree P) {s : State} (hs : P s) (key : Nat) (l : RoomLine) (err : RoomError) :
    P (s.roomTouched key l err).2 := by
  unfold State.roomTouched
  extract_lets v1 v2
  clear_value v1 v2
  split
  · assumption
  · dsimp only
    apply State.withDev_kept hd
    assumption
  · split
    · dsimp only
      apply State.withDev_kept hd
      assumption
    · dsimp only
      apply State.withDev_kept hd
      assumption
  · split
    · dsimp only
      apply State.withDev_kept hd
      assumption
    · dsimp only
      apply State.withDev_kept hd
      assumption

theorem State.flushLine_kept (hd : DevFree P) (hm : MemFree P) {s : State} (hs : P s) (tag : Nat) :
    P (s.flushLine tag) := by
  unfold State.flushLine
  split
  · apply State.withDev_kept hd
    assumption
  · split
    · apply State.withDev_kept hd
      assumption
    · apply State.handBack_kept hd hm
      assumption
    · split
      · split
        · apply State.completeLine_kept hd hm
          assumption
        · assumption
      · assumption

theorem State.pumpFlush_kept (hd : DevFree P) (hm : MemFree P) {s : State} (hs : P s) :
    P (s.pumpFlush) := by
  unfold State.pumpFlush
  split
  · assumption
  · refine foldl_kept (fun s1 h2 a3 => ?_) ?_ _
    · apply State.flushLine_kept hd hm
      assumption
    · assumption

theorem State.flush_kept (hd : DevFree P) (hm : MemFree P) {s : State} (hs : P s) (f : FlushScope) :
    P (s.flush f) := by
  unfold State.flush
  extract_lets v1 v2 v3 v4 v5 v6
  clear_value v1 v2 v3 v4 v5 v6
  split
  · refine dev_kept hd ?_ _
    assumption
  · apply State.pumpFlush_kept hd hm
    refine dev_kept hd ?_ _
    assumption

theorem State.flushStart_kept (hd : DevFree P) (hm : MemFree P) {s : State} (hs : P s) (value : Nat) :
    P (s.flushStart value) := by
  unfold State.flushStart
  split
  · assumption
  · extract_lets s1
    have h2 : P s1 := by
      dsimp -zeta only [s1]
      apply State.withDev_kept hd
      assumption
    clear_value s1
    apply State.flush_kept hd hm
    assumption

theorem execRrFlushStart_kept (hd : DevFree P) (hm : MemFree P) {s : State} (hs : P s) (value : Word) :
    ∀ t, execRrFlushStart value s = .next t → P t := by
  intro t e
  obtain rfl := Host.Outcome.next.inj e
  apply State.flushStart_kept hd hm
  assumption

theorem State.emptySlice_kept (hd : DevFree P) (hm : MemFree P) {s : State} (hs : P s) (slice : Nat) :
    P (s.emptySlice slice) := by
  unfold State.emptySlice
  extract_lets s1
  have h2 : P s1 := by
    dsimp -zeta only [s1]
    refine foldl_kept (fun s3 h4 a5 => ?_) ?_ _
    · apply State.handBack_kept hd hm
      assumption
    · assumption
  clear_value s1
  apply State.withDev_kept hd
  assumption

/-! ## Transfer -/

theorem State.mergeRequest_kept (hd : DevFree P) (hm : MemFree P) {s : State} (hs : P s) (r : MergeReq) :
    P (s.mergeRequest r) := by
  unfold State.mergeRequest
  extract_lets v1 v2 v3
  clear_value v1 v2
  split
  · dsimp -zeta only [v3]
    apply State.withDev_kept hd
    assumption
  · split
    · rename_i x4 x5 x6 x7
      have h8 : P x6 := by
        refine snd_kept x7 ?_
        apply State.shaftWrite_kept hd hm
        assumption
      split
      · dsimp -zeta only [v3]
        apply State.withDev_kept hd
        assumption
      · assumption
      · apply State.withDev_kept hd
        assumption

theorem State.pumpMerge_kept (hd : DevFree P) (hm : MemFree P) {s : State} (hs : P s) (shaft : Nat) :
    P (s.pumpMerge shaft) := by
  unfold State.pumpMerge
  extract_lets v1
  clear_value v1
  refine foldl_kept (fun s2 h3 a4 => ?_) ?_ _
  · apply State.mergeRequest_kept hd hm
    assumption
  · apply State.withDev_kept hd
    assumption

theorem execMergeWrite_kept (hd : DevFree P) (hm : MemFree P) {s : State} (hs : P s) (write : MergeReq) :
    ∀ t, execMergeWrite write s = .next t → P t := by
  intro t e
  obtain rfl := Host.Outcome.next.inj e
  apply State.mergeRequest_kept hd hm
  assumption

theorem execMergeGatherExpiry_kept (hd : DevFree P) {s : State} (hs : P s) (bay : Fin 64) :
    ∀ t, execMergeGatherExpiry bay s = .next t → P t := by
  intro t e
  obtain rfl := Host.Outcome.next.inj e
  refine dev_kept hd ?_ _
  assumption

theorem execShelfReadDeadline_kept (hd : DevFree P) {s : State} (hs : P s) (bay : Fin 64) :
    ∀ t, execShelfReadDeadline bay s = .next t → P t := by
  intro t e
  obtain rfl := Host.Outcome.next.inj e
  refine dev_kept hd ?_ _
  assumption

theorem State.readTransfer_kept (hd : DevFree P) (hm : MemFree P) {s : State} (hs : P s) (shaft : Nat) (a2 : Xfer) (wire : CodeWord) :
    P (s.readTransfer shaft a2 wire) := by
  unfold State.readTransfer
  extract_lets v1 v2 v3 s4
  have h5 : P s4 := by
    dsimp -zeta only [s4]
    split
    · split
      · apply State.bayRead_kept hd hm
        assumption
      · apply State.withDev_kept hd
        assumption
    · apply State.withDev_kept hd
      split
      · apply State.withDev_kept hd
        apply State.bayRead_kept hd hm
        assumption
      · apply State.bayRead_kept hd hm
        assumption
  clear_value v1 v2 v3 s4
  apply State.withDev_kept hd
  assumption

theorem State.writeTransfer_kept (hd : DevFree P) (hm : MemFree P) {s : State} (hs : P s) (shaft : Nat) (a2 : Xfer) (wire : CodeWord) :
    P (s.writeTransfer shaft a2 wire) := by
  unfold State.writeTransfer
  extract_lets v1 v2
  clear_value v1 v2
  split
  · assumption
  · extract_lets s3 s4
    have h5 : P s3 := by
      dsimp -zeta only [s3]
      apply State.mergeComplete_kept hd hm
      assumption
    have h6 : P s4 := by
      dsimp -zeta only [s4]
      apply State.storeLine_kept hm
      assumption
    clear_value s3 s4
    apply State.withDev_kept hd
    assumption

theorem State.transfer_kept (hd : DevFree P) (hm : MemFree P) {s : State} (hs : P s) (shaft : Nat) (a2 : Xfer) (rest : List Xfer) (wire : CodeWord) :
    P (s.transfer shaft a2 rest wire) := by
  unfold State.transfer
  extract_lets s1 s2
  have h3 : P s1 := by
    dsimp -zeta only [s1]
    apply State.withDev_kept hd
    assumption
  have h4 : P s2 := by
    dsimp -zeta only [s2]
    split
    · apply State.withDev_kept hd
      apply State.readTransfer_kept hd hm
      assumption
    · apply State.withDev_kept hd
      apply State.writeTransfer_kept hd hm
      assumption
    · apply State.withDev_kept hd
      assumption
  clear_value s1 s2
  apply State.pumpFlush_kept hd hm
  apply State.pumpMerge_kept hd hm
  assumption

theorem State.lineTransfer_kept (hd : DevFree P) (hm : MemFree P) {s : State} (hs : P s) (shaft : Nat) (wire : CodeWord) (illegal : Bool) :
    P (s.lineTransfer shaft wire illegal) := by
  unfold State.lineTransfer
  split
  · assumption
  · split
    · apply State.withDev_kept hd
      assumption
    · apply State.transfer_kept hd hm
      assumption

theorem State.stall_kept (hd : DevFree P) (hm : MemFree P) {s : State} (hs : P s) (shaft : Nat) (a2 : Xfer) (rest : List Xfer) :
    P (s.stall shaft a2 rest) := by
  unfold State.stall
  extract_lets s1 s2 v3 s4
  have h5 : P s1 := by
    dsimp -zeta only [s1]
    apply State.withDev_kept hd
    assumption
  have h6 : P s2 := by
    dsimp -zeta only [s2]
    apply State.withDev_kept hd
    assumption
  have h7 : P s4 := by
    dsimp -zeta only [s4]
    apply State.withDev_kept hd
    assumption
  clear_value s1 s2 v3 s4
  split
  · apply State.withDev_kept hd
    assumption
  · split
    · apply State.afterRead_kept hd hm
      assumption
    · assumption

theorem execBeatStall_kept (hd : DevFree P) (hm : MemFree P) {s : State} (hs : P s) (shaft : Fin 64) :
    ∀ t, execBeatStall shaft s = .next t → P t := by
  intro t e
  obtain rfl := Host.Outcome.next.inj e
  split
  · assumption
  · apply State.stall_kept hd hm
    assumption

theorem execReadStartTimeout_kept (hd : DevFree P) (hm : MemFree P) {s : State} (hs : P s) (shaft : Fin 64) :
    ∀ t, execReadStartTimeout shaft s = .next t → P t := by
  intro t e
  obtain rfl := Host.Outcome.next.inj e
  split
  · assumption
  · split
    · apply State.stall_kept hd hm
      assumption
    · assumption

end Sys2Proof.Machine
end

