-- ==== Sys2Proof/Laws/KeptHost.lean ====
section
/-!
SUPPORT. What a change of State keeps, for the catalogue, counters and requests: a predicate P that
no change of the volatile state, of the stored lines, ... (as the hypotheses name them) can break holds after the operation.
One lemma per operation; it cites those of the operations it calls.
-/

namespace Sys2Proof.Machine

open Sys2Proof

variable {P : State → Prop}

/-! ## Catalogue -/

theorem State.deliverPlain_kept (hd : DevFree P) {s : State} (hs : P s) (w : Who) (dpa : Nat) (data : LineData) (poison : Bool) :
    P (s.deliverPlain w dpa data poison).2 := by
  unfold State.deliverPlain
  split
  · assumption
  · split
    · assumption
    · dsimp only
      apply State.withDev_kept hd
      assumption

theorem State.bayFetch_kept (hd : DevFree P) (hm : MemFree P) {s : State} (hs : P s) (w : Who) (dpa : Nat) (wire : CodeWord) :
    P (s.bayFetch w dpa wire).2 := by
  unfold State.bayFetch
  split
  · dsimp only
    apply State.withDev_kept hd
    assumption
  · assumption
  · extract_lets v1 v2 s3
    have h4 : P s3 := by
      dsimp -zeta only [s3]
      apply State.withDev_kept hd
      assumption
    clear_value v1 v2 s3
    split
    · apply State.deliverPlain_kept hd
      assumption
    · split
      · assumption
      · split
        · rename_i x5 x6 x7 x8
          have h9 : P x7 := by
            refine snd_kept x8 ?_
            apply State.bayRead_kept hd hm
            assumption
          apply State.deliverPlain_kept hd
          assumption

theorem State.bypassLine_kept (hd : DevFree P) (hm : MemFree P) {s : State} (hs : P s) (dpa : Nat) :
    P (s.bypassLine dpa) := by
  unfold State.bypassLine
  split
  · split
    · apply State.handBack_kept hd hm
      assumption
    · assumption
  · assumption

theorem State.roomHit_kept (hd : DevFree P) (hm : MemFree P) {s : State} (hs : P s) (dpa : Nat) (grp : Nat) (err : RoomError) :
    P (s.roomHit dpa grp err).2 := by
  unfold State.roomHit
  split
  · dsimp only
    apply State.bypassLine_kept hd hm
    assumption
  · split
    · assumption
    · split
      · rename_i x1 x2 x3 x4
        have h5 : P x3 := by
          refine snd_kept x4 ?_
          apply State.roomTouched_kept hd
          assumption
        assumption
      · rename_i x6 x7 x8
        have h9 : P x7 := by
          refine snd_kept x8 ?_
          apply State.roomTouched_kept hd
          assumption
        assumption

theorem State.fetch_kept (hd : DevFree P) (hm : MemFree P) {s : State} (hs : P s) (w : Who) (dpa : Nat) (env : AccessEnv) (alloc : Bool) :
    P (s.fetch w dpa env alloc).2 := by
  unfold State.fetch
  split
  · rename_i x1 x2 x3 x4 x5
    have h6 : P x4 := by
      refine snd_kept x5 ?_
      apply State.roomHit_kept hd hm
      assumption
    dsimp only
    apply State.roomPut_kept hd
    assumption
  · rename_i x7 x8 x9
    have h10 : P x8 := by
      refine snd_kept x9 ?_
      apply State.roomHit_kept hd hm
      assumption
    split
    · rename_i x11 x12 x13 x14 x15 x16
      have h17 : P x15 := by
        refine snd_kept x16 ?_
        apply State.bayFetch_kept hd hm
        assumption
      split
      · assumption
      · split
        · rename_i x18 x19 x20 x21
          have h22 : P x20 := by
            refine snd_kept x21 ?_
            apply State.roomWay_kept hd hm
            assumption
          dsimp only
          apply State.roomPut_kept hd
          assumption
        · rename_i x23 x24 x25
          have h26 : P x24 := by
            refine snd_kept x25 ?_
            apply State.roomWay_kept hd hm
            assumption
          assumption
    · apply State.bayFetch_kept hd hm
      assumption

theorem State.roomMerge_kept (hd : DevFree P) {s : State} (hs : P s) (w : Who) (key : Nat) (l : RoomLine) (data : LineData) (mask : BitVec 64) (poison : Bool) :
    P (s.roomMerge w key l data mask poison).2 := by
  unfold State.roomMerge
  extract_lets v1 v2 v3 s4 s5
  have h6 : P s4 := by
    dsimp -zeta only [s4]
    apply State.roomPut_kept hd
    assumption
  have h7 : P s5 := by
    dsimp -zeta only [s5]
    split
    · apply State.withDev_kept hd
      assumption
    · assumption
  clear_value v2 v3 s4 s5
  assumption

theorem State.bayPut_kept (hd : DevFree P) (hm : MemFree P) {s : State} (hs : P s) (w : Who) (dpa : Nat) (data : LineData) (mask : BitVec 64) (poison : Bool) (wire : CodeWord) :
    P (s.bayPut w dpa data mask poison wire).2 := by
  unfold State.bayPut
  extract_lets v1 v2
  clear_value v1 v2
  split
  · assumption
  · split
    · split
      · assumption
      · split
        · rename_i x3 x4 x5 x6
          have h7 : P x5 := by
            refine snd_kept x6 ?_
            apply State.shaftWrite_kept hd hm
            assumption
          assumption
    · split
      · assumption
      · extract_lets v8
        split
        · dsimp -zeta only [v8]
          extract_lets s9
          have h10 : P s9 := by
            dsimp -zeta only [s9]
            apply State.withDev_kept hd
            assumption
          clear_value s9
          split
          · dsimp only
            apply State.shaftWrite_kept hd hm
            assumption
          · dsimp only
            apply State.shaftWrite_kept hd hm
            assumption
        · split
          · rename_i x11 x12 x13 x14 x15 x16
            have h17 : P x15 := by
              refine snd_kept x16 ?_
              apply State.bayFetch_kept hd hm
              assumption
            dsimp -zeta only [v8]
            extract_lets s18
            have h19 : P s18 := by
              dsimp -zeta only [s18]
              apply State.withDev_kept hd
              assumption
            clear_value s18
            split
            · dsimp only
              apply State.shaftWrite_kept hd hm
              assumption
            · dsimp only
              apply State.shaftWrite_kept hd hm
              assumption
          · rename_i x20 x21 x22 x23
            have h24 : P x22 := by
              refine snd_kept x23 ?_
              apply State.bayFetch_kept hd hm
              assumption
            assumption
          · rename_i x25 x26 x27
            have h28 : P x26 := by
              refine snd_kept x27 ?_
              apply State.bayFetch_kept hd hm
              assumption
            assumption

theorem State.storeMiss_kept (hd : DevFree P) (hm : MemFree P) {s : State} (hs : P s) (w : Who) (dpa : Nat) (data : LineData) (mask : BitVec 64) (poison : Bool) (env : AccessEnv) (alloc : Bool) :
    P (s.storeMiss w dpa data mask poison env alloc).2 := by
  unfold State.storeMiss
  split
  · apply State.bayPut_kept hd hm
    assumption
  · split
    · dsimp only
      apply State.withDev_kept hd
      assumption
    · split
      · rename_i x1 x2 x3
        have h4 : P x2 := by
          refine snd_kept x3 ?_
          apply State.roomWay_kept hd hm
          assumption
        apply State.bayPut_kept hd hm
        assumption
      · rename_i x5 x6 x7 x8
        have h9 : P x7 := by
          refine snd_kept x8 ?_
          apply State.roomWay_kept hd hm
          assumption
        split
        · dsimp only
          apply State.roomPut_kept hd
          assumption
        · split
          · rename_i x10 x11 x12 x13 x14 x15
            have h16 : P x14 := by
              refine snd_kept x15 ?_
              apply State.bayFetch_kept hd hm
              assumption
            dsimp only
            apply State.roomPut_kept hd
            assumption
          · rename_i x17 x18 x19 x20
            have h21 : P x19 := by
              refine snd_kept x20 ?_
              apply State.bayFetch_kept hd hm
              assumption
            assumption
          · rename_i x22 x23 x24
            have h25 : P x23 := by
              refine snd_kept x24 ?_
              apply State.bayFetch_kept hd hm
              assumption
            assumption

theorem State.dropReserveLine_kept (hd : DevFree P) {s : State} (hs : P s) (dpa : Nat) :
    P (s.dropReserveLine dpa) := by
  unfold State.dropReserveLine
  split
  · apply State.withDev_kept hd
    assumption
  · assumption

theorem State.store_kept (hd : DevFree P) (hm : MemFree P) {s : State} (hs : P s) (w : Who) (dpa : Nat) (data : LineData) (mask : BitVec 64) (poison : Bool) (env : AccessEnv) (alloc : Bool) :
    P (s.store w dpa data mask poison env alloc).2 := by
  unfold State.store
  extract_lets v1
  have h2 : P v1.2 := by
    dsimp -zeta only [v1]
    apply State.roomHit_kept hd hm
    apply State.dropReserveLine_kept hd
    assumption
  clear_value v1
  split
  · apply State.roomMerge_kept hd
    assumption
  · apply State.storeMiss_kept hd hm
    assumption

theorem State.swapCard_kept (hd : DevFree P) (hm : MemFree P) {s : State} (hs : P s) (w : Who) (cardDpa : Nat) (expect : Card) (new : Card) (env : AccessEnv) :
    P (s.swapCard w cardDpa expect new env).2 := by
  unfold State.swapCard
  split
  · rename_i x1 x2 x3 x4 x5 x6
    have h7 : P x5 := by
      refine snd_kept x6 ?_
      apply State.fetch_kept hd hm
      assumption
    split
    · assumption
    · split
      · assumption
      · split
        · rename_i x8 x9 x10 x11
          have h12 : P x10 := by
            refine snd_kept x11 ?_
            apply State.store_kept hd hm
            assumption
          assumption
        · rename_i x13 x14 x15 x16 x17
          have h18 : P x15 := by
            refine snd_kept x17 ?_
            apply State.store_kept hd hm
            assumption
          assumption
  · rename_i x19 x20 x21 x22
    have h23 : P x21 := by
      refine snd_kept x22 ?_
      apply State.fetch_kept hd hm
      assumption
    assumption
  · rename_i x24 x25 x26
    have h27 : P x25 := by
      refine snd_kept x26 ?_
      apply State.fetch_kept hd hm
      assumption
    assumption

theorem State.walkFrom_kept (hd : DevFree P) (hm : MemFree P) {s : State} (hs : P s) (w : Who) (pa stop : Nat) (env : AccessEnv) (fuel level table : Nat) :
    P (s.walkFrom w pa stop env fuel level table).2 := by
  induction fuel generalizing s env level table with
  | zero => exact hs
  | succ fuel ih =>
    simp only [State.walkFrom]
    split
    · rename_i e
      have h1 := snd_kept e (State.fetch_kept hd hm hs _ _ _ _)
      split
      · exact h1
      · split
        · exact h1
        · split
          · exact h1
          · split
            · exact h1
            · split
              · exact ih h1 _ _ _
              · exact h1
    · rename_i e
      exact snd_kept e (State.fetch_kept hd hm hs _ _ _ _)
    · rename_i e
      exact snd_kept e (State.fetch_kept hd hm hs _ _ _ _)

theorem State.walkRoot_kept (hd : DevFree P) (hm : MemFree P) {s : State} (hs : P s) (w : Who) (pa : Nat) (stop : Nat) (env : AccessEnv) :
    P (s.walkRoot w pa stop env).2 := by
  unfold State.walkRoot
  apply State.walkFrom_kept hd hm
  assumption

/-! ## Counters -/

theorem execPerfValueLoRead_kept (hd : DevFree P) {s : State} (hs : P s) (counter : Fin 512) :
    ∀ t, execPerfValueLoRead counter s = .next t → P t := by
  intro t e
  obtain rfl := Host.Outcome.next.inj e
  refine dev_kept hd ?_ _
  assumption

theorem execPerfValueHiWrite_kept (hd : DevFree P) {s : State} (hs : P s) (counter : Fin 512) (value : Word) :
    ∀ t, execPerfValueHiWrite counter value s = .next t → P t := by
  intro t e
  obtain rfl := Host.Outcome.next.inj e
  refine dev_kept hd ?_ _
  assumption

theorem execPerfFreeze_kept (hd : DevFree P) {s : State} (hs : P s) (freeze : Bool) :
    ∀ t, execPerfFreeze freeze s = .next t → P t := by
  intro t e
  obtain rfl := Host.Outcome.next.inj e
  refine dev_kept hd ?_ _
  assumption

theorem execPerfClear_kept (hd : DevFree P) {s : State} (hs : P s) :
    ∀ t, execPerfClear s = .next t → P t := by
  intro t e
  obtain rfl := Host.Outcome.next.inj e
  refine dev_kept hd ?_ _
  assumption

theorem execTraceEnable_kept (hd : DevFree P) {s : State} (hs : P s) :
    ∀ t, execTraceEnable s = .next t → P t := by
  intro t e
  obtain rfl := Host.Outcome.next.inj e
  refine dev_kept hd ?_ _
  assumption

theorem execLeafMsMark_kept (hd : DevFree P) {s : State} (hs : P s) :
    ∀ t, execLeafMsMark s = .next t → P t := by
  intro t e
  obtain rfl := Host.Outcome.next.inj e
  refine dev_kept hd ?_ _
  assumption

theorem execStatementBoundary_kept (hd : DevFree P) {s : State} (hs : P s) :
    ∀ t, execStatementBoundary s = .next t → P t := by
  intro t e
  obtain rfl := Host.Outcome.next.inj e
  extract_lets v1 v2 v3 v4 v5 v6 v7 v8 v9 v10
  clear_value v1 v2 v3 v4 v5 v6 v7 v8 v9 v10
  refine dev_kept hd ?_ _
  assumption

theorem State.circCapture_kept (hd : DevFree P) {s : State} (hs : P s) (p : Nat) :
    P (s.circCapture p) := by
  unfold State.circCapture
  extract_lets v1
  clear_value v1
  apply State.withDev_kept hd
  assumption

theorem execPatronCircRead_kept (hd : DevFree P) {s : State} (hs : P s) (patron : Fin 4096) :
    ∀ t, execPatronCircRead patron s = .next t → P t := by
  intro t e
  obtain rfl := Host.Outcome.next.inj e
  apply State.circCapture_kept hd
  assumption

/-! ## Peer -/

theorem State.sendPeer_kept (hd : DevFree P) {s : State} (hs : P s) (t : Nat) (m : Msg) :
    P (s.sendPeer t m) := by
  unfold State.sendPeer
  split
  · apply State.withDev_kept hd
    assumption
  · assumption

/-! ## Access -/

theorem State.countNoA2_kept (hd : DevFree P) {s : State} (hs : P s) (p : Nat) (dpa : Nat) (level : Nat) :
    P (s.countNoA2 p dpa level) := by
  unfold State.countNoA2
  extract_lets v1 v2
  clear_value v1 v2
  split
  · apply State.withDev_kept hd
    assumption
  · assumption

theorem State.keyCheck_kept (hd : DevFree P) {s : State} (hs : P s) (key : Option (Nat × Bool)) (vault : Bool) :
    P (s.keyCheck key vault).2 := by
  unfold State.keyCheck
  split
  · assumption
  · extract_lets s1
    have h2 : P s1 := by
      dsimp -zeta only [s1]
      split
      · apply State.withDev_kept hd
        assumption
      · assumption
    clear_value s1
    assumption

theorem State.poisonThrough_kept (hd : DevFree P) (hm : MemFree P) {s : State} (hs : P s) (w : Who) (c : Card) (cd : Nat) (pa : Nat) (dpa : Nat) (trolley : Bool) :
    P (s.poisonThrough w c cd pa dpa trolley) := by
  unfold State.poisonThrough
  extract_lets s1 v2
  have h3 : P s1 := by
    dsimp -zeta only [s1]
    apply State.withDev_kept hd
    assumption
  clear_value s1 v2
  split
  · assumption
  · split
    · rename_i x4 x5 x6
      have h7 : P x5 := by
        refine snd_kept x6 ?_
        apply State.swapCard_kept hd hm
        assumption
      extract_lets v8
      clear_value v8
      apply State.withDev_kept hd
      assumption
    · rename_i x9 x10 x11 x12 x13
      have h14 : P x11 := by
        refine snd_kept x13 ?_
        apply State.swapCard_kept hd hm
        assumption
      assumption

theorem State.lineAccess_kept (hd : DevFree P) (hm : MemFree P) {s : State} (hs : P s) (a : Access) (w : Who) (c : Card) (cd : Nat) (dpa : Nat) :
    P (s.lineAccess a w c cd dpa).2.2 := by
  unfold State.lineAccess
  extract_lets v1 v2 v3
  clear_value v1 v2 v3
  split
  · split
    · rename_i x4 x5 x6 x7 x8 x9
      have h10 : P x8 := by
        refine snd_kept x9 ?_
        apply State.fetch_kept hd hm
        assumption
      dsimp only
      split
      · apply State.poisonThrough_kept hd hm
        assumption
      · assumption
    · rename_i x11 x12 x13 x14
      have h15 : P x13 := by
        refine snd_kept x14 ?_
        apply State.fetch_kept hd hm
        assumption
      assumption
    · rename_i x16 x17 x18
      have h19 : P x17 := by
        refine snd_kept x18 ?_
        apply State.fetch_kept hd hm
        assumption
      assumption
  · split
    · rename_i x20 x21 x22 x23
      have h24 : P x22 := by
        refine snd_kept x23 ?_
        apply State.store_kept hd hm
        assumption
      assumption
  · split
    · rename_i x25 x26 x27 x28 x29 x30
      have h31 : P x29 := by
        refine snd_kept x30 ?_
        apply State.fetch_kept hd hm
        assumption
      extract_lets v32 v33 v34
      clear_value v32 v33 v34
      split
      · dsimp only
        apply State.poisonThrough_kept hd hm
        assumption
      · split
        · rename_i x35 x36 x37 x38
          have h39 : P x37 := by
            refine snd_kept x38 ?_
            apply State.store_kept hd hm
            assumption
          assumption
        · rename_i x40 x41 x42
          have h43 : P x41 := by
            refine snd_kept x42 ?_
            apply State.store_kept hd hm
            assumption
          assumption
        · rename_i x44 x45 x46 x47 x48 x49
          have h50 : P x46 := by
            refine snd_kept x49 ?_
            apply State.store_kept hd hm
            assumption
          assumption
    · rename_i x51 x52 x53 x54
      have h55 : P x53 := by
        refine snd_kept x54 ?_
        apply State.fetch_kept hd hm
        assumption
      assumption
    · rename_i x56 x57 x58
      have h59 : P x57 := by
        refine snd_kept x58 ?_
        apply State.fetch_kept hd hm
        assumption
      assumption

theorem State.sendXcopy_kept (hd : DevFree P) {s : State} (hs : P s) (m : Nat) (w : Who) (dpa : Nat) (data : LineData) (poison : Bool) :
    P (s.sendXcopy m w dpa data poison) := by
  unfold State.sendXcopy
  extract_lets v1
  clear_value v1
  apply State.sendPeer_kept hd
  assumption

theorem State.mirror_kept (hd : DevFree P) (hm : MemFree P) {s : State} (hs : P s) (j : Job) (w : Who) (off : Nat) (data : LineData) (mask : BitVec 64) (poison : Bool) :
    P (s.mirror j w off data mask poison) := by
  unfold State.mirror
  extract_lets v1 v2
  clear_value v1 v2
  split
  · apply State.bayPut_kept hd hm
    apply State.withDev_kept hd
    assumption
  · split
    · rename_i x3 x4 x5 x6 x7 x8
      have h9 : P x7 := by
        refine snd_kept x8 ?_
        apply State.bayFetch_kept hd hm
        assumption
      apply State.sendXcopy_kept hd
      apply State.withDev_kept hd
      assumption
    · rename_i x10 x11 x12 x13 x14
      have h15 : P x12 := by
        refine snd_kept x14 ?_
        apply State.bayFetch_kept hd hm
        assumption
      assumption

theorem State.jobRead_kept (hd : DevFree P) (hm : MemFree P) {s : State} (hs : P s) (j : Job) (w : Who) (off : Nat) (wire : CodeWord) :
    P (s.jobRead j w off wire).2 := by
  unfold State.jobRead
  split
  · split
    · rename_i x1 x2 x3 x4 x5
      have h6 : P x4 := by
        refine snd_kept x5 ?_
        apply State.bayFetch_kept hd hm
        assumption
      split
      · rename_i x7 x8 x9 x10 x11
        have h12 : P x10 := by
          refine snd_kept x11 ?_
          apply State.bayFetch_kept hd hm
          assumption
        extract_lets s13
        have h14 : P s13 := by
          dsimp -zeta only [s13]
          apply State.bayPut_kept hd hm
          assumption
        clear_value s13
        dsimp only
        apply State.withDev_kept hd
        assumption
      · rename_i x15 x16 x17 x18 x19
        have h20 : P x17 := by
          refine snd_kept x19 ?_
          apply State.bayFetch_kept hd hm
          assumption
        assumption
    · apply State.bayFetch_kept hd hm
      assumption
  · apply State.bayFetch_kept hd hm
    assumption

theorem State.jobAccess_kept (hd : DevFree P) (hm : MemFree P) {s : State} (hs : P s) (a : Access) (w : Who) (j : Job) (c : Card) (cd : Nat) (off : Nat) :
    P (s.jobAccess a w j c cd off).2.2 := by
  unfold State.jobAccess
  extract_lets v1 v2
  clear_value v1 v2
  split
  · split
    · rename_i x3 x4 x5 x6 x7 x8
      have h9 : P x7 := by
        refine snd_kept x8 ?_
        apply State.jobRead_kept hd hm
        assumption
      dsimp only
      split
      · apply State.poisonThrough_kept hd hm
        assumption
      · assumption
    · rename_i x10 x11 x12 x13
      have h14 : P x12 := by
        refine snd_kept x13 ?_
        apply State.jobRead_kept hd hm
        assumption
      assumption
    · rename_i x15 x16 x17
      have h18 : P x16 := by
        refine snd_kept x17 ?_
        apply State.jobRead_kept hd hm
        assumption
      assumption
  · split
    · rename_i x19 x20 x21 x22
      have h23 : P x21 := by
        refine snd_kept x22 ?_
        apply State.bayPut_kept hd hm
        assumption
      assumption
    · rename_i x24 x25 x26
      have h27 : P x25 := by
        refine snd_kept x26 ?_
        apply State.bayPut_kept hd hm
        assumption
      assumption
    · rename_i x28 x29 x30 x31 x32 x33
      have h34 : P x30 := by
        refine snd_kept x33 ?_
        apply State.bayPut_kept hd hm
        assumption
      dsimp only
      split
      · apply State.mirror_kept hd hm
        assumption
      · assumption
  · split
    · rename_i x35 x36 x37 x38 x39 x40
      have h41 : P x39 := by
        refine snd_kept x40 ?_
        apply State.jobRead_kept hd hm
        assumption
      extract_lets v42 v43
      clear_value v42 v43
      split
      · dsimp only
        apply State.poisonThrough_kept hd hm
        assumption
      · split
        · rename_i x44 x45 x46 x47
          have h48 : P x46 := by
            refine snd_kept x47 ?_
            apply State.bayPut_kept hd hm
            assumption
          assumption
        · rename_i x49 x50 x51
          have h52 : P x50 := by
            refine snd_kept x51 ?_
            apply State.bayPut_kept hd hm
            assumption
          assumption
        · rename_i x53 x54 x55 x56 x57 x58
          have h59 : P x55 := by
            refine snd_kept x58 ?_
            apply State.bayPut_kept hd hm
            assumption
          dsimp only
          split
          · apply State.mirror_kept hd hm
            assumption
          · assumption
    · rename_i x60 x61 x62 x63
      have h64 : P x62 := by
        refine snd_kept x63 ?_
        apply State.jobRead_kept hd hm
        assumption
      assumption
    · rename_i x65 x66 x67
      have h68 : P x66 := by
        refine snd_kept x67 ?_
        apply State.jobRead_kept hd hm
        assumption
      assumption

theorem State.zeroLine_kept (hd : DevFree P) (hm : MemFree P) {s : State} (hs : P s) (w : Who) (dpa : Nat) :
    P (s.zeroLine w dpa) := by
  unfold State.zeroLine
  split
  · rename_i x1 x2 x3 x4 x5
    have h6 : P x4 := by
      refine snd_kept x5 ?_
      apply State.roomHit_kept hd hm
      assumption
    apply State.roomMerge_kept hd
    assumption
  · rename_i x7 x8 x9
    have h10 : P x8 := by
      refine snd_kept x9 ?_
      apply State.roomHit_kept hd hm
      assumption
    extract_lets s11
    have h12 : P s11 := by
      dsimp -zeta only [s11]
      split
      · apply State.withDev_kept hd
        assumption
      · assumption
    clear_value s11
    apply State.mergeRequest_kept hd hm
    assumption

theorem State.materialise_kept (hd : DevFree P) (hm : MemFree P) {s : State} (hs : P s) (w : Who) (c : Card) (cd : Nat) (epoch : Bool) :
    P (s.materialise w c cd epoch).2 := by
  unfold State.materialise
  extract_lets v1 v2 v3
  clear_value v1 v2 v3
  split
  · rename_i x4 x5 x6
    have h7 : P x5 := by
      refine snd_kept x6 ?_
      apply State.swapCard_kept hd hm
      assumption
    extract_lets v8 s9
    have h10 : P s9 := by
      dsimp -zeta only [s9]
      split
      · assumption
      · refine foldl_kept (fun s11 h12 a13 => ?_) ?_ _
        · apply State.zeroLine_kept hd hm
          assumption
        · assumption
    clear_value v8 s9
    dsimp only
    apply State.withDev_kept hd
    assumption
  · rename_i x14 x15 x16 x17
    have h18 : P x16 := by
      refine snd_kept x17 ?_
      apply State.swapCard_kept hd hm
      assumption
    assumption
  · rename_i x19 x20 x21
    have h22 : P x20 := by
      refine snd_kept x21 ?_
      apply State.swapCard_kept hd hm
      assumption
    assumption
  · rename_i x23 x24 x25 x26
    have h27 : P x25 := by
      refine snd_kept x26 ?_
      apply State.swapCard_kept hd hm
      assumption
    assumption

theorem State.markWritten_kept (hd : DevFree P) (hm : MemFree P) {s : State} (hs : P s) (w : Who) (a : Access) (c : Card) (cd : Nat) :
    P (s.markWritten w a c cd).2 := by
  unfold State.markWritten
  split
  · assumption
  · extract_lets v1
    clear_value v1
    split
    · rename_i x2 x3 x4
      have h5 : P x3 := by
        refine snd_kept x4 ?_
        apply State.swapCard_kept hd hm
        assumption
      assumption
    · rename_i x6 x7 x8 x9
      have h10 : P x8 := by
        refine snd_kept x9 ?_
        apply State.swapCard_kept hd hm
        assumption
      assumption
    · rename_i x11 x12 x13
      have h14 : P x12 := by
        refine snd_kept x13 ?_
        apply State.swapCard_kept hd hm
        assumption
      assumption
    · rename_i x15 x16 x17 x18
      have h19 : P x17 := by
        refine snd_kept x18 ?_
        apply State.swapCard_kept hd hm
        assumption
      assumption

theorem State.dataAccess_kept (hd : DevFree P) (hm : MemFree P) {s : State} (hs : P s) (a : Access) (c : Card) (cd : Nat) :
    P (s.dataAccess a c cd).2.2 := by
  unfold State.dataAccess
  extract_lets v1 v2
  clear_value v1 v2
  split
  · rename_i x3 x4 x5 x6
    have h7 : P x5 := by
      refine snd_kept x6 ?_
      apply State.keyCheck_kept hd
      assumption
    split
    · assumption
    · split
      · dsimp only
        apply State.countNoA2_kept hd
        assumption
      · extract_lets s8 v9 v10
        have h11 : P s8 := by
          dsimp -zeta only [s8]
          split
          · assumption
          · apply State.countNoA2_kept hd
            assumption
        clear_value s8 v9 v10
        split
        · rename_i x12 x13 x14 x15
          have h16 : P x14 := by
            refine snd_kept x15 ?_
            apply State.markWritten_kept hd hm
            assumption
          assumption
        · rename_i x17 x18 x19 x20
          have h21 : P x19 := by
            refine snd_kept x20 ?_
            apply State.markWritten_kept hd hm
            assumption
          split
          · split
            · assumption
            · apply State.jobAccess_kept hd hm
              assumption
          · apply State.lineAccess_kept hd hm
            assumption

theorem State.access_kept (hd : DevFree P) (hm : MemFree P) {s : State} (hs : P s) (a : Access) (c : Card) (cd : Nat) (level : Nat) :
    P (s.access a c cd level).2.2 := by
  unfold State.access
  extract_lets v1 v2 v3 v4 v5 v6 v7
  clear_value v1 v2 v3 v4 v5 v6 v7
  split
  · split
    · assumption
    · assumption
  · split
    · assumption
    · split
      · assumption
      · split
        · assumption
        · split
          · assumption
          · split
            · split
              · dsimp only
                apply State.withDev_kept hd
                assumption
              · split
                · rename_i x8 x9 x10 x11
                  have h12 : P x10 := by
                    refine snd_kept x11 ?_
                    apply State.keyCheck_kept hd
                    assumption
                  split
                  · assumption
                  · split
                    · rename_i x13 x14 x15 x16
                      have h17 : P x15 := by
                        refine snd_kept x16 ?_
                        apply State.materialise_kept hd hm
                        assumption
                      assumption
            · split
              · rename_i x18 x19 x20 x21 x22
                have h23 : P x21 := by
                  refine snd2_kept x22 ?_
                  apply State.dataAccess_kept hd hm
                  assumption
                assumption
              · apply State.dataAccess_kept hd hm
                assumption

/-! ## Requests -/

theorem State.answer_kept (hd : DevFree P) {s : State} (hs : P s) (q : Req) (status : Nat) (data : LineData) (value : BitVec 64) (info : AccInfo) (forwarded : Bool) :
    P (s.answer q status data value info forwarded) := by
  unfold State.answer
  split
  · apply State.withDev_kept hd
    assumption
  · extract_lets v1 s2
    have h3 : P s2 := by
      dsimp -zeta only [s2]
      split
      · extract_lets s4
        have h5 : P s4 := by
          dsimp -zeta only [s4]
          split
          · apply State.withDev_kept hd
            assumption
          · assumption
        clear_value s4
        apply State.sendPeer_kept hd
        assumption
      · apply State.withDev_kept hd
        assumption
    clear_value v1 s2
    apply State.withDev_kept hd
    assumption

theorem State.fail_kept (hd : DevFree P) {s : State} (hs : P s) (q : Req) (code : Nat) (level : Nat) (cardDpa : Nat) (info : AccInfo) :
    P (s.fail q code level cardDpa info) := by
  unfold State.fail
  extract_lets s1
  have h2 : P s1 := by
    dsimp -zeta only [s1]
    split
    · assumption
    · apply State.withDev_kept hd
      assumption
  clear_value s1
  apply State.answer_kept hd
  assumption

theorem State.forward_kept (hd : DevFree P) {s : State} (hs : P s) (q : Req) (m : Nat) (card : Card × Nat × Nat) :
    P (s.forward q m card) := by
  unfold State.forward
  split
  · apply State.withDev_kept hd
    apply State.fail_kept hd
    assumption
  · split
    · apply State.fail_kept hd
      assumption
    · split
      · apply State.withDev_kept hd
        assumption
      · extract_lets v1 s2 v3
        have h4 : P s2 := by
          dsimp -zeta only [s2]
          apply State.withDev_kept hd
          assumption
        clear_value v1 s2 v3
        apply State.sendPeer_kept hd
        assumption

theorem State.useCard_kept (hd : DevFree P) (hm : MemFree P) {s : State} (hs : P s) (q : Req) (c : Card) (cd : Nat) (level : Nat) :
    (∀ t, (s.useCard q c cd level).1 = some t → P t) ∧ P (s.useCard q c cd level).2 := by
  unfold State.useCard
  split
  · exact ⟨fun t e => Option.some.inj e ▸ State.withDev_kept hd hs _, hs⟩
  · have h1 : P (s.access q.access c cd level).2.2 := State.access_kept hd hm hs _ _ _ _
    split <;> rename_i e <;> have h2 := snd2_kept e h1
    · exact ⟨fun t e => Option.some.inj e ▸ State.answer_kept hd h2 _ _ _ _ _ _, h2⟩
    · exact ⟨fun t e => Option.some.inj e ▸ State.answer_kept hd h2 _ _ _ _ _ _, h2⟩
    · exact ⟨fun t e => Option.some.inj e ▸ State.answer_kept hd h2 _ _ _ _ _ _, h2⟩
    · exact ⟨fun t e => Option.some.inj e ▸ State.fail_kept hd h2 _ _ _ _ _, h2⟩
    · exact ⟨fun t e => Option.some.inj e ▸ State.withDev_kept hd h2 _, h2⟩
    · exact ⟨fun t e => Option.some.inj e ▸ State.forward_kept hd h2 _ _ _, h2⟩
    · exact ⟨fun t e => (nomatch e), h2⟩

theorem State.walkOn_kept (hd : DevFree P) {s : State} (hs : P s) (q : Req) (level : Nat) (table : Nat) :
    P (s.walkOn q level table) := by
  unfold State.walkOn
  extract_lets v1 v2 v3 v4 v5 v6 v7
  clear_value v1 v2 v3 v4 v5 v6 v7
  split
  · apply State.withDev_kept hd
    assumption
  · split
    · apply State.withDev_kept hd
      assumption
    · apply State.withDev_kept hd
      assumption

theorem State.translate_kept (hd : DevFree P) (hm : MemFree P) {s : State} (hs : P s) (q : Req) (fuel : Nat) :
    P (s.translate q fuel) := by
  induction fuel generalizing s q with
  | zero => exact State.withDev_kept hd hs _
  | succ fuel ih =>
    simp only [State.translate]
    split
    · exact State.withDev_kept hd hs _
    · have h1 : P (s.withDev fun d => d.count 0x0400 q.wing (some q.msg.patron)) := State.withDev_kept hd hs _
      split
      · rename_i en he
        have h2 := State.useCard_kept hd hm h1 q en.card en.cardDpa en.level
        split
        · rename_i e
          exact h2.1 _ (by rw [e])
        · rename_i e
          exact ih (snd_kept e h2.2) q
      · split
        · exact State.walkOn_kept hd (State.withDev_kept hd (State.withDev_kept hd h1 _) _) _ _ _
        · exact State.walkOn_kept hd (State.withDev_kept hd h1 _) _ _ _

theorem State.tryCard_kept (hd : DevFree P) (hm : MemFree P) {s : State} (hs : P s) (q : Req) (c : Card) (cd : Nat) (level : Nat) :
    P (s.tryCard q c cd level) := by
  unfold State.tryCard
  have h1 := State.useCard_kept hd hm hs q c cd level
  split
  · rename_i e
    exact h1.1 _ (by rw [e])
  · rename_i e
    exact State.translate_kept hd hm (snd_kept e h1.2) q 2

theorem State.loadIndex_kept (hd : DevFree P) (hm : MemFree P) {s : State} (hs : P s) (w : Who) (pa : Nat) (wing : Nat) (c : Card) (cd : Nat) (level : Nat) :
    P (s.loadIndex w pa wing c cd level).2 := by
  unfold State.loadIndex
  extract_lets v1 v2 v3
  clear_value v2 v3
  split
  · dsimp only
    dsimp -zeta only [v1]
    apply State.withDev_kept hd
    assumption
  · split
    · rename_i x4 x5 x6
      have h7 : P x5 := by
        refine snd_kept x6 ?_
        apply State.swapCard_kept hd hm
        assumption
      dsimp only
      dsimp -zeta only [v1]
      apply State.withDev_kept hd
      assumption
    · rename_i x8 x9 x10 x11
      have h12 : P x10 := by
        refine snd_kept x11 ?_
        apply State.swapCard_kept hd hm
        assumption
      assumption
    · rename_i x13 x14 x15
      have h16 : P x14 := by
        refine snd_kept x15 ?_
        apply State.swapCard_kept hd hm
        assumption
      assumption
    · rename_i x17 x18 x19 x20
      have h21 : P x19 := by
        refine snd_kept x20 ?_
        apply State.swapCard_kept hd hm
        assumption
      assumption

theorem State.walkStep_kept (hd : DevFree P) (hm : MemFree P) {s : State} (hs : P s) (w : Who) (q : Req) (level : Nat) (line : Nat) (data : LineData) (poison : Bool) :
    P (s.walkStep w q level line data poison) := by
  unfold State.walkStep
  extract_lets v1 v2 v3 s4
  have h5 : P s4 := by
    dsimp -zeta only [s4]
    apply State.withDev_kept hd
    assumption
  clear_value v1 v2 v3 s4
  split
  · apply State.fail_kept hd
    assumption
  · split
    · apply State.fail_kept hd
      assumption
    · split
      · apply State.fail_kept hd
        assumption
      · split
        · apply State.walkOn_kept hd
          assumption
        · split
          · rename_i x6 x7 x8 x9
            have h10 : P x8 := by
              refine snd_kept x9 ?_
              apply State.loadIndex_kept hd hm
              assumption
            apply State.tryCard_kept hd hm
            assumption
          · rename_i x11 x12 x13 x14 x15
            have h16 : P x14 := by
              refine snd_kept x15 ?_
              apply State.loadIndex_kept hd hm
              assumption
            apply State.fail_kept hd
            assumption
          · rename_i x17 x18 x19 x20
            have h21 : P x19 := by
              refine snd_kept x20 ?_
              apply State.loadIndex_kept hd hm
              assumption
            apply State.withDev_kept hd
            assumption
          · rename_i x22 x23 x24 x25 x26 x27
            have h28 : P x24 := by
              refine snd_kept x27 ?_
              apply State.loadIndex_kept hd hm
              assumption
            apply State.translate_kept hd hm
            assumption

theorem State.resume_kept (hd : DevFree P) (hm : MemFree P) {s : State} (hs : P s) (h : Held) :
    P (s.resume h) := by
  unfold State.resume
  split
  · apply State.tryCard_kept hd hm
    assumption
  · apply State.translate_kept hd hm
    assumption

theorem State.release_kept (hd : DevFree P) (hm : MemFree P) {s : State} (hs : P s) (f : Hold → Bool) :
    P (s.release f) := by
  unfold State.release
  extract_lets v1
  clear_value v1
  refine foldl_kept (fun s2 h3 a4 => ?_) ?_ _
  · apply State.resume_kept hd hm
    assumption
  · apply State.withDev_kept hd
    assumption

theorem State.settle_kept (hd : DevFree P) (hm : MemFree P) (fuel : Nat) {s : State} (hs : P s) : P (State.settle fuel s) := by
  induction fuel generalizing s with
  | zero => exact State.withDev_kept hd hs _
  | succ fuel ih =>
    simp only [State.settle]
    split
    · exact State.withDev_kept hd hs _
    · exact ih (State.resume_kept hd hm (State.withDev_kept hd hs _) _)

theorem State.releaseAll_kept (hd : DevFree P) (hm : MemFree P) {s : State} (hs : P s) (f : Hold → Bool) :
    P (s.releaseAll f) := by
  unfold State.releaseAll
  extract_lets s1
  have h2 : P s1 := by
    dsimp -zeta only [s1]
    apply State.release_kept hd hm
    assumption
  clear_value s1
  apply State.settle_kept hd hm
  assumption

theorem State.enter_kept (hd : DevFree P) (hm : MemFree P) {s : State} (hs : P s) (q : Req) :
    P (s.enter q) := by
  unfold State.enter
  extract_lets v1 s2
  have h3 : P s2 := by
    dsimp -zeta only [s2]
    split
    · apply State.withDev_kept hd
      assumption
    · apply State.translate_kept hd hm
      assumption
  clear_value v1 s2
  apply State.settle_kept hd hm
  assumption

theorem State.request_kept (hd : DevFree P) (hm : MemFree P) {s : State} (hs : P s) (link : Nat) (m : Msg) (env : AccessEnv) :
    P (s.request link m env) := by
  unfold State.request
  extract_lets v1 v2 s3
  have h4 : P s3 := by
    dsimp -zeta only [s3]
    apply State.withDev_kept hd
    assumption
  clear_value v1 v2 s3
  split
  · assumption
  · split
    · apply State.withDev_kept hd
      assumption
    · split
      · apply State.withDev_kept hd
        apply State.fail_kept hd
        assumption
      · split
        · apply State.fail_kept hd
          assumption
        · split
          · extract_lets s5 v6
            have h7 : P s5 := by
              dsimp -zeta only [s5]
              refine dev_kept hd ?_ _
              assumption
            clear_value s5 v6
            split
            · apply State.answer_kept hd
              assumption
            · apply State.enter_kept hd hm
              assumption

theorem execLoad_kept (hd : DevFree P) (hm : MemFree P) {s : State} (hs : P s) (link : Fin 256) (msg : Msg) (env : AccessEnv) :
    ∀ t, execLoad link msg env s = .next t → P t := by
  intro t e
  obtain rfl := Host.Outcome.next.inj e
  apply State.request_kept hd hm
  assumption

theorem execStore_kept (hd : DevFree P) (hm : MemFree P) {s : State} (hs : P s) (link : Fin 256) (msg : Msg) (env : AccessEnv) :
    ∀ t, execStore link msg env s = .next t → P t := by
  intro t e
  obtain rfl := Host.Outcome.next.inj e
  apply State.request_kept hd hm
  assumption

theorem execStoreMasked_kept (hd : DevFree P) (hm : MemFree P) {s : State} (hs : P s) (link : Fin 256) (msg : Msg) (env : AccessEnv) :
    ∀ t, execStoreMasked link msg env s = .next t → P t := by
  intro t e
  obtain rfl := Host.Outcome.next.inj e
  apply State.request_kept hd hm
  assumption

theorem execAtomic_kept (hd : DevFree P) (hm : MemFree P) {s : State} (hs : P s) (link : Fin 256) (msg : Msg) (env : AccessEnv) :
    ∀ t, execAtomic link msg env s = .next t → P t := by
  intro t e
  obtain rfl := Host.Outcome.next.inj e
  apply State.request_kept hd hm
  assumption

theorem State.fence_kept (hd : DevFree P) {s : State} (hs : P s) (link : Nat) (m : Msg) :
    P (s.fence link m) := by
  unfold State.fence
  extract_lets v1 v2
  clear_value v1
  split
  · assumption
  · split
    · apply State.withDev_kept hd
      assumption
    · split
      · apply State.withDev_kept hd
        dsimp -zeta only [v2]
        apply State.withDev_kept hd
        assumption
      · split
        · apply State.withDev_kept hd
          dsimp -zeta only [v2]
          apply State.withDev_kept hd
          assumption
        · split
          · dsimp -zeta only [v2]
            apply State.withDev_kept hd
            assumption
          · apply State.withDev_kept hd
            assumption

theorem execFence_kept (hd : DevFree P) {s : State} (hs : P s) (link : Fin 256) (msg : Msg) :
    ∀ t, execFence link msg s = .next t → P t := by
  intro t e
  obtain rfl := Host.Outcome.next.inj e
  apply State.fence_kept hd
  assumption

theorem execCardLineRead_kept (hd : DevFree P) (hm : MemFree P) {s : State} (hs : P s) (wing : Fin 4) (walk : Fin 64) (env : AccessEnv) :
    ∀ t, execCardLineRead wing walk env s = .next t → P t := by
  intro t e
  obtain rfl := Host.Outcome.next.inj e
  split
  · assumption
  · extract_lets v1
    clear_value v1
    split
    · rename_i x2 x3 x4 x5 x6 x7
      have h8 : P x6 := by
        refine snd_kept x7 ?_
        apply State.fetch_kept hd hm
        assumption
      extract_lets s9 s10
      have h11 : P s9 := by
        dsimp -zeta only [s9]
        apply State.withDev_kept hd
        assumption
      have h12 : P s10 := by
        dsimp -zeta only [s10]
        refine foldl_kept (fun s13 h14 a15 => ?_) ?_ _
        · apply State.walkStep_kept hd hm
          assumption
        · assumption
      clear_value s9 s10
      apply State.releaseAll_kept hd hm
      assumption
    · rename_i x16 x17 x18 x19 x20
      have h21 : P x18 := by
        refine snd_kept x20 ?_
        apply State.fetch_kept hd hm
        assumption
      assumption

theorem execMaterialiseZeroDone_kept (hd : DevFree P) (hm : MemFree P) {s : State} (hs : P s) :
    ∀ t, execMaterialiseZeroDone s = .next t → P t := by
  intro t e
  obtain rfl := Host.Outcome.next.inj e
  split
  · assumption
  · extract_lets v1 v2
    clear_value v1
    split
    · assumption
    · split
      · rename_i x3 x4 x5
        have h6 : P x4 := by
          refine snd_kept x5 ?_
          apply State.swapCard_kept hd hm
          assumption
        dsimp -zeta only [v2]
        apply State.releaseAll_kept hd hm
        apply State.withDev_kept hd
        apply State.withDev_kept hd
        assumption
      · rename_i x7 x8 x9 x10
        have h11 : P x9 := by
          refine snd_kept x10 ?_
          apply State.swapCard_kept hd hm
          assumption
        assumption
      · rename_i x12 x13 x14 x15 x16 x17
        have h18 : P x14 := by
          refine snd_kept x17 ?_
          apply State.swapCard_kept hd hm
          assumption
        dsimp -zeta only [v2]
        apply State.releaseAll_kept hd hm
        apply State.withDev_kept hd
        assumption

theorem execMaterialisingPoll_kept (hd : DevFree P) (hm : MemFree P) {s : State} (hs : P s) :
    ∀ t, execMaterialisingPoll s = .next t → P t := by
  intro t e
  obtain rfl := Host.Outcome.next.inj e
  apply State.releaseAll_kept hd hm
  assumption

theorem State.forwarded_kept (hd : DevFree P) (hm : MemFree P) {s : State} (hs : P s) (link : Nat) (m : Msg) (env : AccessEnv) :
    P (s.forwarded link m env) := by
  unfold State.forwarded
  split
  · assumption
  · split
    · apply State.withDev_kept hd
      assumption
    · extract_lets v1 s2
      have h3 : P s2 := by
        dsimp -zeta only [s2]
        apply State.withDev_kept hd
        assumption
      clear_value v1 s2
      split
      · apply State.sendPeer_kept hd
        assumption
      · apply State.enter_kept hd hm
        assumption

theorem execFwdLoad_kept (hd : DevFree P) (hm : MemFree P) {s : State} (hs : P s) (link : Fin 256) (msg : Msg) (env : AccessEnv) :
    ∀ t, execFwdLoad link msg env s = .next t → P t := by
  intro t e
  obtain rfl := Host.Outcome.next.inj e
  apply State.forwarded_kept hd hm
  assumption

theorem execFwdStore_kept (hd : DevFree P) (hm : MemFree P) {s : State} (hs : P s) (link : Fin 256) (msg : Msg) (env : AccessEnv) :
    ∀ t, execFwdStore link msg env s = .next t → P t := by
  intro t e
  obtain rfl := Host.Outcome.next.inj e
  apply State.forwarded_kept hd hm
  assumption

theorem execFwdAtomic_kept (hd : DevFree P) (hm : MemFree P) {s : State} (hs : P s) (link : Fin 256) (msg : Msg) (env : AccessEnv) :
    ∀ t, execFwdAtomic link msg env s = .next t → P t := by
  intro t e
  obtain rfl := Host.Outcome.next.inj e
  apply State.forwarded_kept hd hm
  assumption

theorem State.relay_kept (hd : DevFree P) (hm : MemFree P) {s : State} (hs : P s) (link : Nat) (m : Msg) (late : Bool) :
    P (s.relay link m late) := by
  unfold State.relay
  split
  · assumption
  · split
    · apply State.withDev_kept hd
      assumption
    · split
      · assumption
      · extract_lets s1 v2 v3 v4
        have h5 : P s1 := by
          dsimp -zeta only [s1]
          apply State.withDev_kept hd
          assumption
        clear_value s1 v2 v3 v4
        apply State.releaseAll_kept hd hm
        apply State.answer_kept hd
        assumption

theorem execFwdRsp_kept (hd : DevFree P) (hm : MemFree P) {s : State} (hs : P s) (link : Fin 256) (msg : Msg) (late : Bool) :
    ∀ t, execFwdRsp link msg late s = .next t → P t := by
  intro t e
  obtain rfl := Host.Outcome.next.inj e
  apply State.relay_kept hd hm
  assumption

theorem execFwdData_kept (hd : DevFree P) (hm : MemFree P) {s : State} (hs : P s) (link : Fin 256) (msg : Msg) (late : Bool) :
    ∀ t, execFwdData link msg late s = .next t → P t := by
  intro t e
  obtain rfl := Host.Outcome.next.inj e
  apply State.relay_kept hd hm
  assumption

theorem execFwdTimeout_kept (hd : DevFree P) {s : State} (hs : P s) (tag : Fin 4096) :
    ∀ t, execFwdTimeout tag s = .next t → P t := by
  intro t e
  obtain rfl := Host.Outcome.next.inj e
  split
  · assumption
  · extract_lets s1 v2
    have h3 : P s1 := by
      dsimp -zeta only [s1]
      apply State.withDev_kept hd
      assumption
    clear_value s1 v2
    apply State.sendPeer_kept hd
    assumption

theorem State.dropForwards_kept (hd : DevFree P) (hm : MemFree P) {s : State} (hs : P s) (lost : Nat → Bool) :
    P (s.dropForwards lost) := by
  unfold State.dropForwards
  extract_lets v1 s2 s3
  have h4 : P s2 := by
    dsimp -zeta only [s2]
    apply State.withDev_kept hd
    assumption
  have h5 : P s3 := by
    dsimp -zeta only [s3]
    refine foldl_kept (fun s6 h7 a8 => ?_) ?_ _
    · apply State.withDev_kept hd
      apply State.fail_kept hd
      assumption
    · assumption
  clear_value v1 s2 s3
  apply State.releaseAll_kept hd hm
  assumption

theorem execLineTransfer_kept (hd : DevFree P) (hm : MemFree P) {s : State} (hs : P s) (shaft : Fin 64) (wire : CodeWord) (illegal : Bool) :
    ∀ t, execLineTransfer shaft wire illegal s = .next t → P t := by
  intro t e
  obtain rfl := Host.Outcome.next.inj e
  apply State.releaseAll_kept hd hm
  apply State.lineTransfer_kept hd hm
  assumption

end Sys2Proof.Machine
end

