-- ==== Sys2Proof/Laws/KeptRings.lean ====
section
/-!
SUPPORT. What a change of State keeps, for trolleys, rings, allowances and patrons: a predicate P that
no change of the volatile state, of the stored lines, ... (as the hypotheses name them) can break holds after the operation.
One lemma per operation; it cites those of the operations it calls.
-/

namespace Sys2Proof.Machine

open Sys2Proof

variable {P : State → Prop}

/-! ## Trolley -/

theorem State.trolleyUse_kept (hd : DevFree P) (hm : MemFree P) {s : State} (hs : P s) (w : Work) (a : Access)
    {again : State → AccEnd × Nat × State} (ha : ∀ s, P s → P (again s).2.2) (c : Card) (cd : Nat) (level : Nat) :
    P (s.trolleyUse w a again c cd level).2.2 := by
  unfold State.trolleyUse
  have h1 : P (s.access a c cd level).2.2 := State.access_kept hd hm hs _ _ _ _
  split
  · rename_i e
    have h2 := snd2_kept e h1
    dsimp only
    split
    · split
      · exact h2
      · split <;> exact h2
    · split
      · exact h2
      · split
        · exact h2
        · exact State.forward_kept hd h2 _ _ _
  · rename_i e
    exact ha _ (snd2_kept e h1)
  · rename_i e
    exact snd2_kept e h1

theorem State.trolleyAccess_kept (hd : DevFree P) (hm : MemFree P) {s : State} (hs : P s) (w : Work) (a : Access) (fuel : Nat) :
    P (s.trolleyAccess w a fuel).2.2 := by
  induction fuel generalizing s with
  | zero => exact hs
  | succ fuel ih =>
    simp only [State.trolleyAccess]
    have h1 : P (s.withDev fun d => d.count 0x0400 (a.pa / 4096 % 4) (some a.patron)) := State.withDev_kept hd hs _
    split
    · exact State.trolleyUse_kept hd hm h1 w a (fun _ h => ih h) _ _ _
    · have h2 := State.withDev_kept hd h1 fun d => d.count 0x0401 (a.pa / 4096 % 4) (some a.patron)
      split
      · rename_i e
        have h3 := snd_kept e (State.walkRoot_kept hd hm h2 _ _ _ _)
        split
        · rename_i e
          exact State.trolleyUse_kept hd hm (snd_kept e (State.loadIndex_kept hd hm h3 _ _ _ _ _ _)) w a (fun _ h => ih h) _ _ _
        · rename_i e
          exact ih (snd_kept e (State.loadIndex_kept hd hm h3 _ _ _ _ _ _))
        · rename_i e
          exact snd_kept e (State.loadIndex_kept hd hm h3 _ _ _ _ _ _)
      · rename_i e
        exact snd_kept e (State.walkRoot_kept hd hm h2 _ _ _ _)
      · rename_i e
        exact snd_kept e (State.walkRoot_kept hd hm h2 _ _ _ _)

theorem State.readPieces_kept (hd : DevFree P) (hm : MemFree P) {s : State} (hs : P s) (w : Work) (env : AccessEnv)
    (l : List (Nat × Nat)) : P (s.readPieces w env l).2 := by
  induction l generalizing s env with
  | nil => exact hs
  | cons x l ih =>
    simp only [State.readPieces]
    split
    · rename_i e
      have h1 := snd2_kept e (State.trolleyAccess_kept hd hm hs _ _ _)
      have h2 := ih h1 cleanEnv
      split
      · rename_i e
        exact snd_kept e h2
      · exact h2
    · rename_i e
      exact snd2_kept e (State.trolleyAccess_kept hd hm hs _ _ _)
    · rename_i e
      exact snd2_kept e (State.trolleyAccess_kept hd hm hs _ _ _)

theorem State.writePieces_kept (hd : DevFree P) (hm : MemFree P) {s : State} (hs : P s) (w : Work) (poison : Bool) (env : AccessEnv)
    (l : List (Nat × Nat)) (v : Nat) : P (s.writePieces w poison env l v).2 := by
  induction l generalizing s env v with
  | nil => exact hs
  | cons x l ih =>
    simp only [State.writePieces]
    split
    · rename_i e
      have h1 := snd2_kept e (State.trolleyAccess_kept hd hm hs _ _ _)
      have h2 := ih h1 cleanEnv (v / 2 ^ (8 * x.2))
      split
      · rename_i e
        exact snd_kept e h2
      · exact h2
    · rename_i e
      exact snd2_kept e (State.trolleyAccess_kept hd hm hs _ _ _)
    · rename_i e
      exact snd2_kept e (State.trolleyAccess_kept hd hm hs _ _ _)

theorem State.stepLine_kept (hd : DevFree P) (hm : MemFree P) {s : State} (hs : P s) (t : Nat) (w : Work) (i : Nat) (env : AccessEnv) (ue : Bool) :
    P (s.stepLine t w i env ue) := by
  unfold State.stepLine
  extract_lets v1 v2 v3 v4 v5
  clear_value v1 v2 v3 v4 v5
  split
  · assumption
  · split
    · rename_i x6 x7 x8
      have h9 : P x7 := by
        refine snd_kept x8 ?_
        apply State.readPieces_kept hd hm
        assumption
      assumption
    · rename_i x10 x11 x12 x13 x14 x15 x16 x17
      have h18 : P x16 := by
        refine snd_kept x17 ?_
        apply State.readPieces_kept hd hm
        assumption
      apply State.withDev_kept hd
      assumption
    · rename_i x19 x20 x21 x22 x23
      have h24 : P x22 := by
        refine snd_kept x23 ?_
        apply State.readPieces_kept hd hm
        assumption
      extract_lets v25 v26 s27 v28
      have h29 : P s27 := by
        dsimp -zeta only [s27]
        split
        · apply State.withDev_kept hd
          assumption
        · assumption
      clear_value v25 v26 s27 v28
      split
      · split
        · rename_i x30 x31 x32
          have h33 : P x31 := by
            refine snd_kept x32 ?_
            apply State.readPieces_kept hd hm
            assumption
          assumption
        · rename_i x34 x35 x36 x37 x38 x39 x40 x41
          have h42 : P x40 := by
            refine snd_kept x41 ?_
            apply State.readPieces_kept hd hm
            assumption
          apply State.withDev_kept hd
          assumption
        · rename_i x43 x44 x45 x46 x47
          have h48 : P x46 := by
            refine snd_kept x47 ?_
            apply State.readPieces_kept hd hm
            assumption
          extract_lets v49
          clear_value v49
          apply State.withDev_kept hd
          assumption
      · apply State.withDev_kept hd
        assumption
      · split
        · refine dev_kept hd ?_ _
          assumption
      · extract_lets v50
        clear_value v50
        split
        · rename_i x51 x52 x53
          have h54 : P x52 := by
            refine snd_kept x53 ?_
            apply State.writePieces_kept hd hm
            assumption
          assumption
        · rename_i x55 x56 x57 x58 x59 x60 x61 x62
          have h63 : P x61 := by
            refine snd_kept x62 ?_
            apply State.writePieces_kept hd hm
            assumption
          apply State.withDev_kept hd
          assumption
        · rename_i x64 x65 x66 x67 x68
          have h69 : P x67 := by
            refine snd_kept x68 ?_
            apply State.writePieces_kept hd hm
            assumption
          apply State.withDev_kept hd
          assumption

theorem State.rekeyEnd_kept (hd : DevFree P) {s : State} (hs : P s) (t : Nat) (w : Work) :
    P (s.rekeyEnd t w) := by
  unfold State.rekeyEnd
  extract_lets v1 v2
  clear_value v1 v2
  split
  · apply State.withDev_kept hd
    assumption
  · split
    · apply State.withDev_kept hd
      assumption
    · apply State.withDev_kept hd
      assumption

theorem State.rekeyStep_kept (hd : DevFree P) {s : State} (hs : P s) (t : Nat) (w : Work) (done : Nat) :
    P (s.rekeyStep t w done) := by
  unfold State.rekeyStep
  extract_lets v1
  clear_value v1
  split
  · apply State.rekeyEnd_kept hd
    assumption
  · apply State.withDev_kept hd
    assumption

theorem State.rekeyLine_kept (hd : DevFree P) (hm : MemFree P) {s : State} (hs : P s) (t : Nat) (w : Work) (r : Rekey) (k : Nat) (env : AccessEnv) :
    P (s.rekeyLine t w r k env) := by
  unfold State.rekeyLine
  extract_lets v1 v2 v3 v4 v5 v6
  clear_value v1 v2 v3 v4 v5
  split
  · split
    · assumption
    · dsimp -zeta only [v6]
      split
      · rename_i x7 x8 x9 x10
        have h11 : P x9 := by
          refine snd_kept x10 ?_
          apply State.bayPut_kept hd hm
          assumption
        assumption
      · rename_i x12 x13 x14
        have h15 : P x13 := by
          refine snd_kept x14 ?_
          apply State.bayPut_kept hd hm
          assumption
        apply State.withDev_kept hd
        assumption
      · rename_i x16 x17 x18 x19 x20 x21
        have h22 : P x18 := by
          refine snd_kept x21 ?_
          apply State.bayPut_kept hd hm
          assumption
        extract_lets s23 s24
        have h25 : P s23 := by
          dsimp -zeta only [s23]
          split
          · apply State.withDev_kept hd
            assumption
          · assumption
        have h26 : P s24 := by
          dsimp -zeta only [s24]
          apply State.withDev_kept hd
          assumption
        clear_value s23 s24
        apply State.rekeyStep_kept hd
        assumption
  · split
    · rename_i x27 x28 x29 x30 x31 x32
      have h33 : P x31 := by
        refine snd_kept x32 ?_
        apply State.bayFetch_kept hd hm
        assumption
      dsimp -zeta only [v6]
      split
      · rename_i x34 x35 x36 x37
        have h38 : P x36 := by
          refine snd_kept x37 ?_
          apply State.bayPut_kept hd hm
          assumption
        assumption
      · rename_i x39 x40 x41
        have h42 : P x40 := by
          refine snd_kept x41 ?_
          apply State.bayPut_kept hd hm
          assumption
        apply State.withDev_kept hd
        assumption
      · rename_i x43 x44 x45 x46 x47 x48
        have h49 : P x45 := by
          refine snd_kept x48 ?_
          apply State.bayPut_kept hd hm
          assumption
        extract_lets s50 s51
        have h52 : P s50 := by
          dsimp -zeta only [s50]
          split
          · apply State.withDev_kept hd
            assumption
          · assumption
        have h53 : P s51 := by
          dsimp -zeta only [s51]
          apply State.withDev_kept hd
          assumption
        clear_value s50 s51
        apply State.rekeyStep_kept hd
        assumption
    · rename_i x54 x55 x56 x57
      have h58 : P x56 := by
        refine snd_kept x57 ?_
        apply State.bayFetch_kept hd hm
        assumption
      assumption
    · rename_i x59 x60 x61
      have h62 : P x60 := by
        refine snd_kept x61 ?_
        apply State.bayFetch_kept hd hm
        assumption
      apply State.withDev_kept hd
      assumption

theorem State.rekeyClose_kept (hd : DevFree P) (hm : MemFree P) {s : State} (hs : P s) (r : Rekey) (found : Card) :
    P (s.rekeyClose r found) := by
  unfold State.rekeyClose
  extract_lets v1 v2
  split
  · apply State.withDev_kept hd
    dsimp -zeta only [v2]
    apply State.withDev_kept hd
    assumption
  · split
    · apply State.withDev_kept hd
      assumption
    · split
      · rename_i x3 x4 x5
        have h6 : P x4 := by
          refine snd_kept x5 ?_
          apply State.swapCard_kept hd hm
          assumption
        dsimp -zeta only [v2]
        apply State.withDev_kept hd
        assumption
      · rename_i x7 x8 x9 x10 x11
        have h12 : P x9 := by
          refine snd_kept x11 ?_
          apply State.swapCard_kept hd hm
          assumption
        assumption

theorem State.stepRekey_kept (hd : DevFree P) (hm : MemFree P) {s : State} (hs : P s) (t : Nat) (w : Work) (env : AccessEnv) :
    P (s.stepRekey t w env) := by
  unfold State.stepRekey
  extract_lets v1 v2 v3
  clear_value v1 v2
  split
  · apply State.rekeyEnd_kept hd
    assumption
  · split
    · rename_i x4 x5 x6 x7
      have h8 : P x6 := by
        refine snd_kept x7 ?_
        apply State.walkRoot_kept hd hm
        assumption
      assumption
    · rename_i x9 x10 x11 x12 x13 x14
      have h15 : P x13 := by
        refine snd_kept x14 ?_
        apply State.walkRoot_kept hd hm
        assumption
      dsimp -zeta only [v3]
      apply State.rekeyStep_kept hd
      assumption
    · rename_i x16 x17 x18 x19 x20 x21 x22 x23
      have h24 : P x21 := by
        refine snd_kept x23 ?_
        apply State.walkRoot_kept hd hm
        assumption
      apply State.withDev_kept hd
      assumption
    · rename_i x25 x26 x27 x28 x29 x30
      have h31 : P x29 := by
        refine snd_kept x30 ?_
        apply State.walkRoot_kept hd hm
        assumption
      extract_lets v32
      clear_value v32
      split
      · split
        · split
          · apply State.rekeyClose_kept hd hm
            assumption
          · apply State.rekeyLine_kept hd hm
            assumption
        · apply State.rekeyClose_kept hd hm
          assumption
      · split
        · assumption
        · split
          · dsimp -zeta only [v3]
            apply State.rekeyStep_kept hd
            assumption
          · apply State.withDev_kept hd
            assumption

theorem execDescriptorStart_kept (hd : DevFree P) {s : State} (hs : P s) (trolley : Fin 32) :
    ∀ t, execDescriptorStart trolley s = .next t → P t := by
  intro t e
  obtain rfl := Host.Outcome.next.inj e
  refine dev_kept hd ?_ _
  assumption

theorem execGatherListReturn_kept (hd : DevFree P) {s : State} (hs : P s) (trolley : Fin 32) (lines : List LineData) :
    ∀ t, execGatherListReturn trolley lines s = .next t → P t := by
  intro t e
  obtain rfl := Host.Outcome.next.inj e
  refine dev_kept hd ?_ _
  assumption

theorem execSteppedLineComplete_kept (hd : DevFree P) (hm : MemFree P) {s : State} (hs : P s) (trolley : Fin 32) (slot : Fin 64) (env : AccessEnv) (ue : Bool) :
    ∀ t, execSteppedLineComplete trolley slot env ue s = .next t → P t := by
  intro t e
  obtain rfl := Host.Outcome.next.inj e
  split
  · assumption
  · split
    · assumption
    · split
      · split
        · apply State.stepRekey_kept hd hm
          assumption
        · assumption
      · extract_lets v1 s2
        have h3 : P s2 := by
          dsimp -zeta only [s2]
          apply State.stepLine_kept hd hm
          assumption
        clear_value v1 s2
        split
        · assumption
        · apply State.withDev_kept hd
          assumption

theorem execRekeyCardPoll_kept (hd : DevFree P) (hm : MemFree P) {s : State} (hs : P s) (trolley : Fin 32) (env : AccessEnv) :
    ∀ t, execRekeyCardPoll trolley env s = .next t → P t := by
  intro t e
  obtain rfl := Host.Outcome.next.inj e
  split
  · split
    · apply State.stepRekey_kept hd hm
      assumption
    · assumption
  · assumption

theorem execRecallDrainComplete_kept (hd : DevFree P) {s : State} (hs : P s) (trolley : Fin 32) :
    ∀ t, execRecallDrainComplete trolley s = .next t → P t := by
  intro t e
  obtain rfl := Host.Outcome.next.inj e
  refine dev_kept hd ?_ _
  assumption

theorem execRecallLate_kept (hd : DevFree P) {s : State} (hs : P s) (trolley : Fin 32) :
    ∀ t, execRecallLate trolley s = .next t → P t := by
  intro t e
  obtain rfl := Host.Outcome.next.inj e
  refine dev_kept hd ?_ _
  assumption

/-! ## Rings -/

theorem execRingEnable_kept (hd : DevFree P) {s : State} (hs : P s) (patron : Fin 4096) (ring : Fin 6) :
    ∀ t, execRingEnable patron ring s = .next t → P t := by
  intro t e
  obtain rfl := Host.Outcome.next.inj e
  refine dev_kept hd ?_ _
  assumption

theorem execRingDisable_kept (hd : DevFree P) {s : State} (hs : P s) (patron : Fin 4096) (ring : Fin 6) :
    ∀ t, execRingDisable patron ring s = .next t → P t := by
  intro t e
  obtain rfl := Host.Outcome.next.inj e
  refine dev_kept hd ?_ _
  assumption

theorem execBell_kept (hd : DevFree P) {s : State} (hs : P s) (link : Fin 256) (msg : Msg) :
    ∀ t, execBell link msg s = .next t → P t := by
  intro t e
  obtain rfl := Host.Outcome.next.inj e
  extract_lets v1 v2
  clear_value v1
  split
  · assumption
  · split
    · apply State.withDev_kept hd
      assumption
    · split
      · apply State.withDev_kept hd
        dsimp -zeta only [v2]
        apply State.withDev_kept hd
        assumption
      · split
        · apply State.withDev_kept hd
          dsimp -zeta only [v2]
          apply State.withDev_kept hd
          assumption
        · split
          · dsimp -zeta only [v2]
            apply State.withDev_kept hd
            assumption
          · apply State.withDev_kept hd
            assumption

theorem execBellRecordReturn_kept (hd : DevFree P) {s : State} (hs : P s) (patron : Fin 4096) (line : LineData) :
    ∀ t, execBellRecordReturn patron line s = .next t → P t := by
  intro t e
  obtain rfl := Host.Outcome.next.inj e
  refine dev_kept hd ?_ _
  assumption

theorem execBellRereadTimer_kept (hd : DevFree P) {s : State} (hs : P s) (patron : Fin 4096) :
    ∀ t, execBellRereadTimer patron s = .next t → P t := by
  intro t e
  obtain rfl := Host.Outcome.next.inj e
  refine dev_kept hd ?_ _
  assumption

theorem execDescriptorReturn_kept (hd : DevFree P) {s : State} (hs : P s) (patron : Fin 4096) (ring : Fin 4) (first : BitVec 16) (lines : List LineData) :
    ∀ t, execDescriptorReturn patron ring first lines s = .next t → P t := by
  intro t e
  obtain rfl := Host.Outcome.next.inj e
  refine dev_kept hd ?_ _
  assumption

theorem execInterruptHoldoffEnd_kept (hd : DevFree P) {s : State} (hs : P s) (k : Fin 4097) :
    ∀ t, execInterruptHoldoffEnd k s = .next t → P t := by
  intro t e
  obtain rfl := Host.Outcome.next.inj e
  refine dev_kept hd ?_ _
  assumption

theorem State.houseEnable_kept (hd : DevFree P) {s : State} (hs : P s) (r : Nat) :
    P (s.houseEnable r) := by
  unfold State.houseEnable
  split
  · assumption
  · split
    · extract_lets v1
      clear_value v1
      refine dev_kept hd ?_ _
      assumption
    · refine dev_kept hd ?_ _
      assumption

theorem execHouseRingEnable_kept (hd : DevFree P) {s : State} (hs : P s) (ring : Fin 4) :
    ∀ t, execHouseRingEnable ring s = .next t → P t := by
  intro t e
  obtain rfl := Host.Outcome.next.inj e
  apply State.houseEnable_kept hd
  assumption

theorem execHouseHeaderReread_kept (hd : DevFree P) {s : State} (hs : P s) (ring : Fin 4) :
    ∀ t, execHouseHeaderReread ring s = .next t → P t := by
  intro t e
  obtain rfl := Host.Outcome.next.inj e
  refine dev_kept hd ?_ _
  assumption

theorem execHouseHeaderReturn_kept (hd : DevFree P) {s : State} (hs : P s) (ring : Fin 4) (header : LineData) :
    ∀ t, execHouseHeaderReturn ring header s = .next t → P t := by
  intro t e
  obtain rfl := Host.Outcome.next.inj e
  refine dev_kept hd ?_ _
  assumption

theorem execHostReadRetry_kept (hd : DevFree P) {s : State} (hs : P s) (tag : Fin 4096) :
    ∀ t, execHostReadRetry tag s = .next t → P t := by
  intro t e
  obtain rfl := Host.Outcome.next.inj e
  refine dev_kept hd ?_ _
  assumption

theorem execHostReadTimeout_kept (hd : DevFree P) {s : State} (hs : P s) (tag : Fin 4096) :
    ∀ t, execHostReadTimeout tag s = .next t → P t := by
  intro t e
  obtain rfl := Host.Outcome.next.inj e
  refine dev_kept hd ?_ _
  assumption

theorem execHostWriteTimeout_kept (hd : DevFree P) {s : State} (hs : P s) (tag : Fin 4096) :
    ∀ t, execHostWriteTimeout tag s = .next t → P t := by
  intro t e
  obtain rfl := Host.Outcome.next.inj e
  refine dev_kept hd ?_ _
  assumption

/-! ## Allow -/

theorem execAllowCommit_kept (hd : DevFree P) {s : State} (hs : P s) :
    ∀ t, execAllowCommit s = .next t → P t := by
  intro t e
  obtain rfl := Host.Outcome.next.inj e
  refine dev_kept hd ?_ _
  assumption

theorem execFeasibilityCheckDone_kept (hd : DevFree P) {s : State} (hs : P s) :
    ∀ t, execFeasibilityCheckDone s = .next t → P t := by
  intro t e
  obtain rfl := Host.Outcome.next.inj e
  refine dev_kept hd ?_ _
  assumption

theorem execA3Recompute_kept (hd : DevFree P) {s : State} (hs : P s) :
    ∀ t, execA3Recompute s = .next t → P t := by
  intro t e
  obtain rfl := Host.Outcome.next.inj e
  refine dev_kept hd ?_ _
  assumption

theorem execMissWindow_kept (hd : DevFree P) {s : State} (hs : P s) (group : Fin 256) :
    ∀ t, execMissWindow group s = .next t → P t := by
  intro t e
  obtain rfl := Host.Outcome.next.inj e
  refine dev_kept hd ?_ _
  assumption

/-! ## Patrons -/

theorem State.injectGuard_kept (hd : DevFree P) {s : State} (hs : P s) :
    P (s.injectGuard) := by
  unfold State.injectGuard
  refine foldl_kept (fun s1 h2 a3 => ?_) ?_ _
  · split
    · apply State.withDev_kept hd
      assumption
    · assumption
  · assumption

theorem State.bindWrite_kept (hd : DevFree P) {s : State} (hs : P s) (port : Nat) (value : Nat) :
    P (s.bindWrite port value) := by
  unfold State.bindWrite
  split
  · assumption
  · extract_lets v1 s2
    have h3 : P s2 := by
      dsimp -zeta only [s2]
      apply State.withDev_kept hd
      assumption
    clear_value v1 s2
    split
    · assumption
    · apply State.injectGuard_kept hd
      apply State.withDev_kept hd
      assumption

theorem execPortBind_kept (hd : DevFree P) {s : State} (hs : P s) (port : Fin 64) (value : Word) :
    ∀ t, execPortBind port value s = .next t → P t := by
  intro t e
  obtain rfl := Host.Outcome.next.inj e
  apply State.bindWrite_kept hd
  assumption

theorem State.patronEnable_kept (hd : DevFree P) {s : State} (hs : P s) (p : Nat) :
    P (s.patronEnable p) := by
  unfold State.patronEnable
  split
  · extract_lets v1
    clear_value v1
    apply State.withDev_kept hd
    assumption
  · split
    · assumption
    · split
      · apply State.injectGuard_kept hd
        refine dev_kept hd ?_ _
        assumption
      · extract_lets v2
        clear_value v2
        refine dev_kept hd ?_ _
        assumption

theorem execPatronEnable_kept (hd : DevFree P) {s : State} (hs : P s) (patron : Fin 4096) :
    ∀ t, execPatronEnable patron s = .next t → P t := by
  intro t e
  obtain rfl := Host.Outcome.next.inj e
  apply State.patronEnable_kept hd
  assumption

theorem execPatronDisable_kept (hd : DevFree P) {s : State} (hs : P s) (patron : Fin 4096) :
    ∀ t, execPatronDisable patron s = .next t → P t := by
  intro t e
  obtain rfl := Host.Outcome.next.inj e
  refine dev_kept hd ?_ _
  assumption

theorem State.disableFlushStart_kept (hd : DevFree P) (hm : MemFree P) {s : State} (hs : P s) (p : Nat) :
    P (s.disableFlushStart p) := by
  unfold State.disableFlushStart
  apply State.flush_kept hd hm
  apply State.withDev_kept hd
  assumption

theorem State.disableStep_kept (hd : DevFree P) (hm : MemFree P) {s : State} (hs : P s) (p : Nat) :
    P (s.disableStep p) := by
  unfold State.disableStep
  split
  · assumption
  · split
    · apply State.withDev_kept hd
      assumption
    · extract_lets v1
      split
      · split
        · dsimp -zeta only [v1]
          split
          · apply State.withDev_kept hd
            assumption
          · assumption
        · assumption
      · split
        · assumption
        · dsimp -zeta only [v1]
          split
          · apply State.withDev_kept hd
            apply State.disableFlushStart_kept hd hm
            assumption
          · apply State.disableFlushStart_kept hd hm
            assumption
      · split
        · assumption
        · split
          · apply State.withDev_kept hd
            assumption
          · dsimp -zeta only [v1]
            split
            · apply State.withDev_kept hd
              apply State.disableFlushStart_kept hd hm
              assumption
            · apply State.disableFlushStart_kept hd hm
              assumption

theorem execPatronDisableComplete_kept (hd : DevFree P) (hm : MemFree P) {s : State} (hs : P s) (patron : Fin 4096) :
    ∀ t, execPatronDisableComplete patron s = .next t → P t := by
  intro t e
  obtain rfl := Host.Outcome.next.inj e
  apply State.disableStep_kept hd hm
  assumption

end Sys2Proof.Machine
end

