-- ==== Sys2Proof/Laws/KeptJobs.lean ====
section
/-!
SUPPORT. What a change of State keeps, for card sequences, jobs, twins, repair and pace: a predicate P that
no change of the volatile state, of the stored lines, ... (as the hypotheses name them) can break holds after the operation.
One lemma per operation; it cites those of the operations it calls.
-/

namespace Sys2Proof.Machine

open Sys2Proof

variable {P : State → Prop}

/-! ## Cards -/

theorem State.cardOp_kept (hd : DevFree P) (hm : MemFree P) {s : State} (hs : P s) (p : Nat) (level : Nat) (pa : Nat) (new : Option (Card × Option Card)) :
    P (s.cardOp p level pa new).2 := by
  unfold State.cardOp
  split
  · assumption
  · extract_lets v1
    clear_value v1
    split
    · rename_i x2 x3 x4 x5
      have h6 : P x4 := by
        refine snd_kept x5 ?_
        apply State.walkRoot_kept hd hm
        assumption
      assumption
    · rename_i x7 x8 x9 x10 x11 x12
      have h13 : P x11 := by
        refine snd_kept x12 ?_
        apply State.walkRoot_kept hd hm
        assumption
      assumption
    · rename_i x14 x15 x16 x17 x18 x19
      have h20 : P x18 := by
        refine snd_kept x19 ?_
        apply State.walkRoot_kept hd hm
        assumption
      assumption
    · rename_i x21 x22 x23 x24 x25 x26 x27 x28 x29
      have h30 : P x26 := by
        refine snd_kept x29 ?_
        apply State.walkRoot_kept hd hm
        assumption
      assumption
    · rename_i x31 x32 x33 x34 x35 x36
      have h37 : P x35 := by
        refine snd_kept x36 ?_
        apply State.walkRoot_kept hd hm
        assumption
      split
      · assumption
      · split
        · assumption
        · split
          · assumption
          · split
            · assumption
            · split
              · assumption
              · split
                · rename_i x38 x39 x40
                  have h41 : P x39 := by
                    refine snd_kept x40 ?_
                    apply State.swapCard_kept hd hm
                    assumption
                  dsimp only
                  apply State.withDev_kept hd
                  assumption
                · rename_i x42 x43 x44 x45
                  have h46 : P x44 := by
                    refine snd_kept x45 ?_
                    apply State.swapCard_kept hd hm
                    assumption
                  assumption
                · rename_i x47 x48 x49
                  have h50 : P x48 := by
                    refine snd_kept x49 ?_
                    apply State.swapCard_kept hd hm
                    assumption
                  assumption
                · rename_i x51 x52 x53 x54
                  have h55 : P x53 := by
                    refine snd_kept x54 ?_
                    apply State.swapCard_kept hd hm
                    assumption
                  assumption

theorem State.sendCard_kept (hd : DevFree P) {s : State} (hs : P s) (m : Nat) (w : CardWrite) (expect : Option Card) :
    P (s.sendCard m w expect) := by
  unfold State.sendCard
  apply State.sendPeer_kept hd
  assumption

theorem State.spreadOthers_kept (hd : DevFree P) (hm : MemFree P) {s : State} (hs : P s) (c : CatCmd) :
    P (s.spreadOthers c).2 := by
  unfold State.spreadOthers
  extract_lets v1 s2 s3 v4
  have h5 : P s2 := by
    dsimp -zeta only [s2]
    apply State.withDev_kept hd
    assumption
  have h6 : P s3 := by
    dsimp -zeta only [s3]
    split
    · assumption
    · apply State.cardOp_kept hd hm
      assumption
  clear_value v1 s2 s3 v4
  dsimp only
  refine foldl_kept (fun s7 h8 a9 => ?_) ?_ _
  · apply State.sendCard_kept hd
    assumption
  · assumption

theorem State.catStep_kept (hd : DevFree P) (hm : MemFree P) {s : State} (hs : P s) :
    P (s.catStep) := by
  unfold State.catStep
  split
  · assumption
  · split
    · assumption
    · split
      · extract_lets v1 s2
        have h3 : P s2 := by
          dsimp -zeta only [s2]
          apply State.withDev_kept hd
          assumption
        clear_value v1 s2
        split
        · apply State.sendCard_kept hd
          assumption
        · split
          · rename_i x4 x5 x6
            have h7 : P x5 := by
              refine snd_kept x6 ?_
              split
              · assumption
              · apply State.cardOp_kept hd hm
                assumption
            assumption
          · rename_i x8 x9 x10 x11 x12
            have h13 : P x11 := by
              refine snd_kept x12 ?_
              split
              · assumption
              · apply State.cardOp_kept hd hm
                assumption
            extract_lets s14
            have h15 : P s14 := by
              dsimp -zeta only [s14]
              apply State.withDev_kept hd
              assumption
            clear_value s14
            split
            · apply State.withDev_kept hd
              assumption
            · split
              · rename_i x16 x17 x18 x19
                have h20 : P x18 := by
                  refine snd_kept x19 ?_
                  apply State.spreadOthers_kept hd hm
                  assumption
                split
                · apply State.withDev_kept hd
                  assumption
                · apply State.withDev_kept hd
                  assumption
      · assumption

theorem State.catGo_kept (hd : DevFree P) (hm : MemFree P) {s : State} (hs : P s) (op : Nat) (patron : Nat) (level : Nat) (all : Bool) :
    P (s.catGo op patron level all) := by
  unfold State.catGo
  split
  · assumption
  · extract_lets s1 v2 v3 v4 v5
    have h6 : P s1 := by
      dsimp -zeta only [s1]
      apply State.withDev_kept hd
      assumption
    clear_value s1 v2 v3 v4 v5
    split
    · apply State.withDev_kept hd
      assumption
    · apply State.catStep_kept hd hm
      apply State.withDev_kept hd
      assumption

theorem execCatRead_kept (hd : DevFree P) (hm : MemFree P) {s : State} (hs : P s) (patron : Fin 4096) (level : Fin 4) :
    ∀ t, execCatRead patron level s = .next t → P t := by
  intro t e
  obtain rfl := Host.Outcome.next.inj e
  apply State.catGo_kept hd hm
  assumption

theorem execCatWrite_kept (hd : DevFree P) (hm : MemFree P) {s : State} (hs : P s) (patron : Fin 4096) (level : Fin 4) :
    ∀ t, execCatWrite patron level s = .next t → P t := by
  intro t e
  obtain rfl := Host.Outcome.next.inj e
  apply State.catGo_kept hd hm
  assumption

theorem execCatCas_kept (hd : DevFree P) (hm : MemFree P) {s : State} (hs : P s) (patron : Fin 4096) (level : Fin 4) :
    ∀ t, execCatCas patron level s = .next t → P t := by
  intro t e
  obtain rfl := Host.Outcome.next.inj e
  apply State.catGo_kept hd hm
  assumption

theorem execCatFence_kept (hd : DevFree P) (hm : MemFree P) {s : State} (hs : P s) (patron : Fin 4096) (all : Bool) :
    ∀ t, execCatFence patron all s = .next t → P t := by
  intro t e
  obtain rfl := Host.Outcome.next.inj e
  apply State.catGo_kept hd hm
  assumption

theorem execCatFenceComplete_kept (hd : DevFree P) {s : State} (hs : P s) :
    ∀ t, execCatFenceComplete s = .next t → P t := by
  intro t e
  obtain rfl := Host.Outcome.next.inj e
  refine dev_kept hd ?_ _
  assumption

theorem State.peerMessage_kept (hd : DevFree P) {s : State} (hs : P s) (link : Nat) (m : Msg) (f : State → State) (hf : ∀ s, P s → P (f s)) :
    P (s.peerMessage link m f) := by
  unfold State.peerMessage
  split
  · assumption
  · split
    · apply State.withDev_kept hd
      assumption
    · apply hf
      assumption

theorem State.cardSet_kept (hd : DevFree P) (hm : MemFree P) {s : State} (hs : P s) (m : Msg) :
    P (s.cardSet m) := by
  unfold State.cardSet
  extract_lets v1 v2
  clear_value v1 v2
  split
  · rename_i x3 x4 x5
    have h6 : P x4 := by
      refine snd_kept x5 ?_
      apply State.cardOp_kept hd hm
      assumption
    apply State.withDev_kept hd
    assumption
  · rename_i x7 x8 x9 x10 x11
    have h12 : P x10 := by
      refine snd_kept x11 ?_
      apply State.cardOp_kept hd hm
      assumption
    extract_lets v13 s14
    have h15 : P s14 := by
      dsimp -zeta only [s14]
      split
      · apply State.withDev_kept hd
        assumption
      · assumption
    clear_value v13 s14
    apply State.sendPeer_kept hd
    assumption

theorem State.cardAck_kept (hd : DevFree P) (hm : MemFree P) {s : State} (hs : P s) (m : Msg) :
    P (s.cardAck m) := by
  unfold State.cardAck
  split
  · assumption
  · split
    · assumption
    · split
      · extract_lets s1
        have h2 : P s1 := by
          dsimp -zeta only [s1]
          apply State.withDev_kept hd
          assumption
        clear_value s1
        split
        · apply State.withDev_kept hd
          assumption
        · split
          · rename_i x3 x4 x5 x6
            have h7 : P x5 := by
              refine snd_kept x6 ?_
              apply State.spreadOthers_kept hd hm
              assumption
            split
            · apply State.withDev_kept hd
              assumption
            · apply State.withDev_kept hd
              assumption
      · extract_lets v8
        split
        · apply State.withDev_kept hd
          assumption
        · apply State.withDev_kept hd
          assumption

theorem State.catLost_kept (hd : DevFree P) (hm : MemFree P) {s : State} (hs : P s) (lost : Nat → Bool) :
    P (s.catLost lost) := by
  unfold State.catLost
  split
  · assumption
  · extract_lets v1
    clear_value v1
    split
    · apply State.withDev_kept hd
      assumption
    · split
      · split
        · rename_i x2 x3 x4 x5
          have h6 : P x4 := by
            refine snd_kept x5 ?_
            apply State.spreadOthers_kept hd hm
            assumption
          split
          · apply State.withDev_kept hd
            assumption
          · apply State.withDev_kept hd
            assumption
      · apply State.withDev_kept hd
        assumption

theorem State.catRetry_kept (hd : DevFree P) (hm : MemFree P) {s : State} (hs : P s) :
    P (s.catRetry) := by
  unfold State.catRetry
  extract_lets s1
  have h2 : P s1 := by
    dsimp -zeta only [s1]
    apply State.catStep_kept hd hm
    assumption
  clear_value s1
  refine foldl_kept (fun s3 h4 a5 => ?_) ?_ _
  · apply State.cardSet_kept hd hm
    assumption
  · apply State.withDev_kept hd
    assumption

theorem execCardSet_kept (hd : DevFree P) (hm : MemFree P) {s : State} (hs : P s) (link : Fin 256) (msg : Msg) :
    ∀ t, execCardSet link msg s = .next t → P t := by
  intro t e
  obtain rfl := Host.Outcome.next.inj e
  apply State.peerMessage_kept hd
  · assumption
  · intro a1
    intro a2
    apply State.cardSet_kept hd hm
    assumption

/-! ## Jobs -/

theorem State.swapJob_kept (hd : DevFree P) (hm : MemFree P) {s : State} (hs : P s) (p : Nat) (cardDpa : Nat) (expect : Card) (new : Card → Card) :
    P (s.swapJob p cardDpa expect new).2 := by
  unfold State.swapJob
  extract_lets v1
  clear_value v1
  split
  · rename_i x2 x3 x4 x5 x6 x7
    have h8 : P x6 := by
      refine snd_kept x7 ?_
      apply State.fetch_kept hd hm
      assumption
    extract_lets v9
    clear_value v9
    split
    · assumption
    · split
      · assumption
      · apply State.swapCard_kept hd hm
        assumption
  · rename_i x10 x11 x12 x13
    have h14 : P x12 := by
      refine snd_kept x13 ?_
      apply State.fetch_kept hd hm
      assumption
    assumption
  · rename_i x15 x16 x17
    have h18 : P x16 := by
      refine snd_kept x17 ?_
      apply State.fetch_kept hd hm
      assumption
    assumption

theorem State.jobStart_kept (hd : DevFree P) (hm : MemFree P) {s : State} (hs : P s) (p : Nat) (va : Nat) (dst : Nat) (member : Option Nat) :
    P (s.jobStart p va dst member).2 := by
  unfold State.jobStart
  split
  · assumption
  · split
    · rename_i x1 x2 x3 x4
      have h5 : P x3 := by
        refine snd_kept x4 ?_
        apply State.walkRoot_kept hd hm
        assumption
      assumption
    · rename_i x6 x7 x8 x9 x10 x11 x12
      have h13 : P x11 := by
        refine snd_kept x12 ?_
        apply State.walkRoot_kept hd hm
        assumption
      assumption
    · rename_i x14 x15 x16 x17 x18 x19
      have h20 : P x18 := by
        refine snd_kept x19 ?_
        apply State.walkRoot_kept hd hm
        assumption
      split
      · assumption
      · split
        · split
          · assumption
          · split
            · assumption
            · split
              · assumption
              · extract_lets v21
                clear_value v21
                dsimp only
                apply State.withDev_kept hd
                assumption
        · split
          · assumption
          · split
            · assumption
            · split
              · assumption
              · extract_lets v22
                clear_value v22
                dsimp only
                apply State.withDev_kept hd
                assumption

theorem State.reshelveStart_kept (hd : DevFree P) (hm : MemFree P) {s : State} (hs : P s) (p : Nat) :
    P (s.reshelveStart p) := by
  unfold State.reshelveStart
  extract_lets v1 v2
  clear_value v1 v2
  split
  · rename_i x3 x4 x5
    have h6 : P x4 := by
      refine snd_kept x5 ?_
      apply State.jobStart_kept hd hm
      assumption
    apply State.withDev_kept hd
    assumption
  · rename_i x7 x8 x9 x10 x11
    have h12 : P x10 := by
      refine snd_kept x11 ?_
      apply State.jobStart_kept hd hm
      assumption
    apply State.withDev_kept hd
    assumption

theorem execReshelveStart_kept (hd : DevFree P) (hm : MemFree P) {s : State} (hs : P s) (patron : Fin 4096) :
    ∀ t, execReshelveStart patron s = .next t → P t := by
  intro t e
  obtain rfl := Host.Outcome.next.inj e
  split
  · assumption
  · apply State.reshelveStart_kept hd hm
    apply State.withDev_kept hd
    assumption

theorem State.jobFence_kept (hd : DevFree P) {s : State} (hs : P s) (n : Nat) (j : Job) (cause : Nat) :
    P (s.jobFence n j cause) := by
  unfold State.jobFence
  extract_lets v1 v2
  clear_value v1 v2
  apply State.withDev_kept hd
  assumption

theorem State.jobAbandon_kept (hd : DevFree P) (hm : MemFree P) {s : State} (hs : P s) (n : Nat) (j : Job) (cause : Nat) :
    P (s.jobAbandon n j cause) := by
  unfold State.jobAbandon
  extract_lets v1
  clear_value v1
  split
  · apply State.jobFence_kept hd
    assumption
  · split
    · rename_i x2 x3 x4
      have h5 : P x3 := by
        refine snd_kept x4 ?_
        apply State.swapJob_kept hd hm
        assumption
      apply State.jobFence_kept hd
      assumption
    · rename_i x6 x7 x8 x9
      have h10 : P x8 := by
        refine snd_kept x9 ?_
        apply State.swapJob_kept hd hm
        assumption
      apply State.jobFence_kept hd
      apply State.withDev_kept hd
      assumption
    · rename_i x11 x12 x13
      have h14 : P x12 := by
        refine snd_kept x13 ?_
        apply State.swapJob_kept hd hm
        assumption
      apply State.withDev_kept hd
      assumption
    · rename_i x15 x16 x17 x18
      have h19 : P x17 := by
        refine snd_kept x18 ?_
        apply State.swapJob_kept hd hm
        assumption
      apply State.withDev_kept hd
      assumption

theorem State.jobAbandoned_kept (hd : DevFree P) (hm : MemFree P) {s : State} (hs : P s) (n : Nat) (j : Job) (cause : Nat) :
    P (s.jobAbandoned n j cause) := by
  unfold State.jobAbandoned
  apply State.jobAbandon_kept hd hm
  apply State.withDev_kept hd
  assumption

theorem State.jobPropagate_kept (hd : DevFree P) {s : State} (hs : P s) (n : Nat) (j : Job) (m : Nat) :
    P (s.jobPropagate n j m) := by
  unfold State.jobPropagate
  split
  · apply State.withDev_kept hd
    assumption
  · extract_lets v1
    clear_value v1
    apply State.sendCard_kept hd
    apply State.withDev_kept hd
    assumption

theorem State.jobFinish_kept (hd : DevFree P) (hm : MemFree P) {s : State} (hs : P s) (n : Nat) (j : Job) :
    P (s.jobFinish n j) := by
  unfold State.jobFinish
  extract_lets v1 v2
  clear_value v1 v2
  split
  · apply State.jobFence_kept hd
    assumption
  · split
    · rename_i x3 x4 x5
      have h6 : P x4 := by
        refine snd_kept x5 ?_
        apply State.swapJob_kept hd hm
        assumption
      apply State.jobFence_kept hd
      assumption
    · rename_i x7 x8 x9 x10
      have h11 : P x9 := by
        refine snd_kept x10 ?_
        apply State.swapJob_kept hd hm
        assumption
      apply State.jobFence_kept hd
      apply State.withDev_kept hd
      assumption
    · rename_i x12 x13 x14
      have h15 : P x13 := by
        refine snd_kept x14 ?_
        apply State.swapJob_kept hd hm
        assumption
      apply State.withDev_kept hd
      assumption
    · rename_i x16 x17 x18 x19
      have h20 : P x18 := by
        refine snd_kept x19 ?_
        apply State.swapJob_kept hd hm
        assumption
      apply State.withDev_kept hd
      assumption
  · split
    · apply State.jobPropagate_kept hd
      assumption
    · split
      · rename_i x21 x22 x23 x24 x25 x26
        have h27 : P x25 := by
          refine snd_kept x26 ?_
          apply State.walkRoot_kept hd hm
          assumption
        split
        · apply State.jobFence_kept hd
          assumption
        · apply State.withDev_kept hd
          assumption
      · rename_i x28 x29 x30 x31 x32
        have h33 : P x30 := by
          refine snd_kept x32 ?_
          apply State.walkRoot_kept hd hm
          assumption
        apply State.withDev_kept hd
        assumption

theorem State.jobOwnCard_kept (hd : DevFree P) (hm : MemFree P) {s : State} (hs : P s) (n : Nat) (j : Job) (m : Nat) :
    P (s.jobOwnCard n j m) := by
  unfold State.jobOwnCard
  extract_lets s1 v2
  have h3 : P s1 := by
    dsimp -zeta only [s1]
    apply State.withDev_kept hd
    assumption
  clear_value s1 v2
  split
  · rename_i x4 x5 x6
    have h7 : P x5 := by
      refine snd_kept x6 ?_
      apply State.swapJob_kept hd hm
      assumption
    apply State.jobFence_kept hd
    apply State.withDev_kept hd
    assumption
  · rename_i x8 x9 x10 x11
    have h12 : P x10 := by
      refine snd_kept x11 ?_
      apply State.swapJob_kept hd hm
      assumption
    apply State.jobFence_kept hd
    apply State.withDev_kept hd
    assumption
  · rename_i x13 x14 x15 x16 x17 x18
    have h19 : P x15 := by
      refine snd_kept x18 ?_
      apply State.swapJob_kept hd hm
      assumption
    apply State.withDev_kept hd
    assumption

theorem State.jobAck_kept (hd : DevFree P) (hm : MemFree P) {s : State} (hs : P s) (n : Nat) (c : CatCmd) (m : Msg) :
    P (s.jobAck n c m) := by
  unfold State.jobAck
  split
  · apply State.withDev_kept hd
    assumption
  · extract_lets v1
    split
    · split
      · apply State.jobAbandoned_kept hd hm
        apply State.withDev_kept hd
        assumption
      · split
        · rename_i x2 x3 x4 x5
          have h6 : P x4 := by
            refine snd_kept x5 ?_
            apply State.spreadOthers_kept hd hm
            assumption
          dsimp -zeta only [v1]
          split
          · apply State.jobOwnCard_kept hd hm
            assumption
          · apply State.withDev_kept hd
            assumption
    · dsimp -zeta only [v1]
      split
      · apply State.jobOwnCard_kept hd hm
        assumption
      · apply State.withDev_kept hd
        assumption

theorem execCardAck_kept (hd : DevFree P) (hm : MemFree P) {s : State} (hs : P s) (link : Fin 256) (msg : Msg) :
    ∀ t, execCardAck link msg s = .next t → P t := by
  intro t e
  obtain rfl := Host.Outcome.next.inj e
  apply State.peerMessage_kept hd
  · assumption
  · intro a1
    intro a2
    split
    · extract_lets v3
      clear_value v3
      split
      · apply State.jobAck_kept hd hm
        assumption
      · apply State.cardAck_kept hd hm
        assumption
    · apply State.cardAck_kept hd hm
      assumption

theorem State.jobClear_kept (hd : DevFree P) (hm : MemFree P) {s : State} (hs : P s) (j : Job) :
    P (s.jobClear j).2 := by
  unfold State.jobClear
  extract_lets v1 s2 s3
  have h4 : P s2 := by
    dsimp -zeta only [s2]
    refine foldl_kept (fun s5 h6 a7 => ?_) ?_ _
    · apply State.handBack_kept hd hm
      assumption
    · assumption
  have h8 : P s3 := by
    dsimp -zeta only [s3]
    apply State.withDev_kept hd
    assumption
  clear_value s2 s3
  assumption

theorem execJobActivate_kept (hd : DevFree P) (hm : MemFree P) {s : State} (hs : P s) :
    ∀ t, execJobActivate s = .next t → P t := by
  intro t e
  obtain rfl := Host.Outcome.next.inj e
  extract_lets v1 v2
  clear_value v1 v2
  split
  · assumption
  · split
    · assumption
    · split
      · apply State.jobFinish_kept hd hm
        assumption
      · split
        · rename_i x3 x4 x5
          have h6 : P x4 := by
            refine snd_kept x5 ?_
            apply State.swapJob_kept hd hm
            assumption
          apply State.jobClear_kept hd hm
          apply State.withDev_kept hd
          assumption
        · rename_i x7 x8 x9 x10
          have h11 : P x9 := by
            refine snd_kept x10 ?_
            apply State.swapJob_kept hd hm
            assumption
          apply State.withDev_kept hd
          assumption
        · rename_i x12 x13 x14
          have h15 : P x13 := by
            refine snd_kept x14 ?_
            apply State.swapJob_kept hd hm
            assumption
          apply State.withDev_kept hd
          assumption
        · rename_i x16 x17 x18 x19
          have h20 : P x18 := by
            refine snd_kept x19 ?_
            apply State.swapJob_kept hd hm
            assumption
          assumption

theorem execJobStartingDone_kept (hd : DevFree P) (hm : MemFree P) {s : State} (hs : P s) (job : Fin 4096) :
    ∀ t, execJobStartingDone job s = .next t → P t := by
  intro t e
  obtain rfl := Host.Outcome.next.inj e
  split
  · assumption
  · split
    · assumption
    · split
      · rename_i x1 x2 x3
        have h4 : P x2 := by
          refine snd_kept x3 ?_
          apply State.jobClear_kept hd hm
          assumption
        apply State.releaseAll_kept hd hm
        apply State.withDev_kept hd
        assumption
      · rename_i x5 x6 x7
        have h8 : P x6 := by
          refine snd_kept x7 ?_
          apply State.jobClear_kept hd hm
          assumption
        assumption

theorem State.jobCopy_kept (hd : DevFree P) (hm : MemFree P) {s : State} (hs : P s) (n : Nat) (j : Job) (shaft : Nat) (wire : CodeWord) :
    P (s.jobCopy n j shaft wire) := by
  unfold State.jobCopy
  extract_lets v1 v2 v3 v4
  clear_value v1 v2 v3 v4
  split
  · assumption
  · split
    · split
      · apply State.jobAbandoned_kept hd hm
        assumption
      · split
        · rename_i x5 x6 x7 x8 x9 x10
          have h11 : P x9 := by
            refine snd_kept x10 ?_
            apply State.bayFetch_kept hd hm
            assumption
          extract_lets v12 v13 s14
          have h15 : P v12.2 := by
            dsimp -zeta only [v12]
            apply State.sendXcopy_kept hd
            apply State.withDev_kept hd
            assumption
          have h16 : P s14 := by
            dsimp -zeta only [s14]
            apply State.withDev_kept hd
            assumption
          clear_value v12 v13 s14
          split
          · assumption
          · split
            · apply State.jobFinish_kept hd hm
              assumption
            · assumption
        · rename_i x17 x18 x19 x20 x21
          have h22 : P x19 := by
            refine snd_kept x21 ?_
            apply State.bayFetch_kept hd hm
            assumption
          assumption
    · split
      · apply State.jobAbandoned_kept hd hm
        assumption
      · split
        · rename_i x23 x24 x25 x26 x27 x28
          have h29 : P x27 := by
            refine snd_kept x28 ?_
            apply State.bayFetch_kept hd hm
            assumption
          extract_lets v30 v31 s32
          have h33 : P v30.2 := by
            dsimp -zeta only [v30]
            split
            · rename_i x34 x35 x36 x37
              have h38 : P x36 := by
                refine snd_kept x37 ?_
                apply State.bayPut_kept hd hm
                assumption
              assumption
            · rename_i x39 x40 x41
              have h42 : P x40 := by
                refine snd_kept x41 ?_
                apply State.bayPut_kept hd hm
                assumption
              assumption
            · rename_i x43 x44 x45 x46 x47 x48
              have h49 : P x45 := by
                refine snd_kept x48 ?_
                apply State.bayPut_kept hd hm
                assumption
              assumption
          have h50 : P s32 := by
            dsimp -zeta only [s32]
            apply State.withDev_kept hd
            assumption
          clear_value v30 v31 s32
          split
          · assumption
          · split
            · apply State.jobFinish_kept hd hm
              assumption
            · assumption
        · rename_i x51 x52 x53 x54 x55
          have h56 : P x53 := by
            refine snd_kept x55 ?_
            apply State.bayFetch_kept hd hm
            assumption
          assumption

theorem State.pumpJobs_kept (hd : DevFree P) (hm : MemFree P) {s : State} (hs : P s) :
    P (s.pumpJobs) := by
  unfold State.pumpJobs
  extract_lets s1
  have h2 : P s1 := by
    dsimp -zeta only [s1]
    split
    · apply State.reshelveStart_kept hd hm
      assumption
    · assumption
  clear_value s1
  refine foldl_kept (fun s3 h4 a5 => ?_) ?_ _
  · split
    · split
      · assumption
      · apply State.jobFinish_kept hd hm
        assumption
    · apply State.jobAbandon_kept hd hm
      assumption
    · assumption
  · assumption

theorem State.jobsLost_kept (hd : DevFree P) (hm : MemFree P) {s : State} (hs : P s) (f : Job → Bool) :
    P (s.jobsLost f) := by
  unfold State.jobsLost
  refine foldl_kept (fun s1 h2 a3 => ?_) ?_ _
  · split
    · split
      · apply State.withDev_kept hd
        assumption
      · apply State.jobAbandoned_kept hd hm
        assumption
    · assumption
  · assumption

theorem State.membersLost_kept (hd : DevFree P) (hm : MemFree P) {s : State} (hs : P s) (lost : Nat → Bool) :
    P (s.membersLost lost) := by
  unfold State.membersLost
  apply State.jobsLost_kept hd hm
  apply State.catLost_kept hd hm
  apply State.dropForwards_kept hd hm
  assumption

theorem State.isolate_kept (hd : DevFree P) (hm : MemFree P) {s : State} (hs : P s) :
    P (s.isolate) := by
  unfold State.isolate
  apply State.membersLost_kept hd hm
  apply State.withDev_kept hd
  assumption

theorem State.linkGone_kept (hd : DevFree P) (hm : MemFree P) {s : State} (hs : P s) (l : Nat) :
    P (s.linkGone l) := by
  unfold State.linkGone
  split
  · apply State.isolate_kept hd hm
    assumption
  · assumption

theorem State.reshelveCancel_kept (hd : DevFree P) (hm : MemFree P) {s : State} (hs : P s) :
    P (s.reshelveCancel) := by
  unfold State.reshelveCancel
  extract_lets v1 s2
  have h3 : P s2 := by
    dsimp -zeta only [s2]
    apply State.withDev_kept hd
    assumption
  clear_value v1 s2
  split
  · apply State.withDev_kept hd
    assumption
  · apply State.withDev_kept hd
    split
    · apply State.withDev_kept hd
      assumption
    · apply State.jobAbandoned_kept hd hm
      assumption
    · assumption

theorem execReshelveCancel_kept (hd : DevFree P) (hm : MemFree P) {s : State} (hs : P s) :
    ∀ t, execReshelveCancel s = .next t → P t := by
  intro t e
  obtain rfl := Host.Outcome.next.inj e
  split
  · assumption
  · apply State.reshelveCancel_kept hd hm
    assumption

theorem execReshelveQuery_kept (hd : DevFree P) {s : State} (hs : P s) :
    ∀ t, execReshelveQuery s = .next t → P t := by
  intro t e
  obtain rfl := Host.Outcome.next.inj e
  refine dev_kept hd ?_ _
  assumption

theorem execReshelveRelease_kept (hd : DevFree P) {s : State} (hs : P s) :
    ∀ t, execReshelveRelease s = .next t → P t := by
  intro t e
  obtain rfl := Host.Outcome.next.inj e
  refine dev_kept hd ?_ _
  assumption

theorem execXcopy_kept (hd : DevFree P) (hm : MemFree P) {s : State} (hs : P s) (link : Fin 256) (msg : Msg) :
    ∀ t, execXcopy link msg s = .next t → P t := by
  intro t e
  obtain rfl := Host.Outcome.next.inj e
  apply State.peerMessage_kept hd
  · assumption
  · intro a1
    intro a2
    split
    · assumption
    · apply State.mergeRequest_kept hd hm
      assumption

/-! ## Twin -/

theorem execEvacStart_kept (hd : DevFree P) {s : State} (hs : P s) :
    ∀ t, execEvacStart s = .next t → P t := by
  intro t e
  obtain rfl := Host.Outcome.next.inj e
  refine dev_kept hd ?_ _
  assumption

theorem execEvacStop_kept (hd : DevFree P) {s : State} (hs : P s) :
    ∀ t, execEvacStop s = .next t → P t := by
  intro t e
  obtain rfl := Host.Outcome.next.inj e
  refine dev_kept hd ?_ _
  assumption

theorem State.drainEntry_kept (hd : DevFree P) (hm : MemFree P) {s : State} (hs : P s) (bay : Nat) (loc : Nat) :
    P (s.drainEntry bay loc) := by
  unfold State.drainEntry
  split
  · assumption
  · extract_lets s1
    have h2 : P s1 := by
      dsimp -zeta only [s1]
      split
      · apply State.withDev_kept hd
        apply State.bayRead_kept hd hm
        assumption
      · assumption
    clear_value s1
    apply State.completeLine_kept hd hm
    assumption

theorem State.drainShaft_kept (hd : DevFree P) (hm : MemFree P) {s : State} (hs : P s) (bay : Nat) (shaft : Nat) :
    P (s.drainShaft bay shaft) := by
  unfold State.drainShaft
  refine foldl_kept (fun s1 h2 a3 => ?_) ?_ _
  · apply State.drainEntry_kept hd hm
    assumption
  · assumption

theorem State.drainOrder_kept (hd : DevFree P) (hm : MemFree P) {s : State} (hs : P s) (shaft fuel : Nat) :
    P (s.drainOrder shaft fuel) := by
  induction fuel generalizing s with
  | zero => exact hs
  | succ fuel ih =>
    unfold State.drainOrder
    split
    · exact hs
    · exact ih (State.lineTransfer_kept hd hm hs _ _ _)

theorem State.moveEntries_kept (hd : DevFree P) {s : State} (hs : P s) (src : Nat) (dst : Nat) (shaft : Nat) (lost : List Nat) :
    P (s.moveEntries src dst shaft lost) := by
  unfold State.moveEntries
  extract_lets v1 v2
  clear_value v1 v2
  apply State.withDev_kept hd
  assumption

theorem State.shaftLost_kept (hd : DevFree P) (hm : MemFree P) {s : State} (hs : P s) (shaft : Nat) :
    P (s.shaftLost shaft) := by
  unfold State.shaftLost
  extract_lets v1 s2
  have h3 : P s2 := by
    dsimp -zeta only [s2]
    apply State.withDev_kept hd
    assumption
  clear_value v1 s2
  apply State.releaseAll_kept hd hm
  apply State.pumpMerge_kept hd hm
  assumption

theorem State.pairLost_kept (hd : DevFree P) (hm : MemFree P) {s : State} (hs : P s) (bay : Nat) :
    P (s.pairLost bay) := by
  unfold State.pairLost
  extract_lets s1
  have h2 : P s1 := by
    dsimp -zeta only [s1]
    apply State.shaftLost_kept hd hm
    apply State.shaftLost_kept hd hm
    assumption
  clear_value s1
  apply State.withDev_kept hd
  apply State.jobsLost_kept hd hm
  assumption

theorem State.takeover_kept (hd : DevFree P) (hm : MemFree P) {s : State} (hs : P s) (bay : Nat) (cause : Nat) (lost : List Nat) :
    P (s.takeover bay cause lost) := by
  unfold State.takeover
  extract_lets v1 s2 s3 s4 s5 s6
  have h7 : P s2 := by
    dsimp -zeta only [s2]
    split
    · assumption
    · apply State.drainShaft_kept hd hm
      apply State.drainOrder_kept hd hm
      assumption
  have h8 : P s3 := by
    dsimp -zeta only [s3]
    apply State.withDev_kept hd
    assumption
  have h9 : P s4 := by
    dsimp -zeta only [s4]
    apply State.withDev_kept hd
    assumption
  have h10 : P s5 := by
    dsimp -zeta only [s5]
    apply State.withDev_kept hd
    assumption
  have h11 : P s6 := by
    dsimp -zeta only [s6]
    apply State.withDev_kept hd
    assumption
  clear_value v1 s2 s3 s4 s5 s6
  split
  · apply State.moveEntries_kept hd
    assumption
  · assumption

theorem State.containBay_kept (hd : DevFree P) (hm : MemFree P) {s : State} (hs : P s) (bay : Nat) (lost : List Nat) :
    P (s.containBay bay lost) := by
  unfold State.containBay
  extract_lets v1
  clear_value v1
  split
  · apply State.takeover_kept hd hm
    assumption
  · apply State.withDev_kept hd
    assumption
  · split
    · apply State.pairLost_kept hd hm
      assumption
    · apply State.withDev_kept hd
      assumption
  · assumption

theorem State.contain_kept (hd : DevFree P) (hm : MemFree P) {s : State} (hs : P s) (bay : Nat) (lost : List Nat) :
    P (s.contain bay lost) := by
  unfold State.contain
  extract_lets v1 s2
  have h3 : P s2 := by
    dsimp -zeta only [s2]
    apply State.containBay_kept hd hm
    assumption
  clear_value v1 s2
  split
  · apply State.withDev_kept hd
    assumption
  · assumption

theorem execTwinTakeover_kept (hd : DevFree P) (hm : MemFree P) {s : State} (hs : P s) (bay : Fin 64) (cause : TakeoverCause) (lost : List Nat) :
    ∀ t, execTwinTakeover bay cause lost s = .next t → P t := by
  intro t e
  obtain rfl := Host.Outcome.next.inj e
  split
  · apply State.contain_kept hd hm
    assumption
  · split
    · apply State.takeover_kept hd hm
      assumption
    · assumption

theorem State.switchDone_kept (hd : DevFree P) (hm : MemFree P) {s : State} (hs : P s) (shaft : Nat) :
    P (s.switchDone shaft) := by
  unfold State.switchDone
  extract_lets s1
  have h2 : P s1 := by
    dsimp -zeta only [s1]
    apply State.withDev_kept hd
    assumption
  clear_value s1
  apply State.releaseAll_kept hd hm
  apply State.pumpFlush_kept hd hm
  apply State.pumpMerge_kept hd hm
  assumption

theorem execTakeoverDrainComplete_kept (hd : DevFree P) (hm : MemFree P) {s : State} (hs : P s) (bay : Fin 64) :
    ∀ t, execTakeoverDrainComplete bay s = .next t → P t := by
  intro t e
  obtain rfl := Host.Outcome.next.inj e
  split
  · assumption
  · extract_lets v1 s2
    have h3 : P s2 := by
      dsimp -zeta only [s2]
      apply State.drainShaft_kept hd hm
      assumption
    clear_value v1 s2
    split
    · apply State.switchDone_kept hd hm
      assumption
    · assumption

theorem State.handback_kept (hd : DevFree P) (hm : MemFree P) {s : State} (hs : P s) (bay : Nat) :
    P (s.handback bay) := by
  unfold State.handback
  extract_lets v1 s2
  have h3 : P s2 := by
    dsimp -zeta only [s2]
    apply State.drainShaft_kept hd hm
    apply State.drainOrder_kept hd hm
    assumption
  clear_value v1 s2
  apply State.withDev_kept hd
  assumption

theorem execTwinHandback_kept (hd : DevFree P) (hm : MemFree P) {s : State} (hs : P s) (bay : Fin 64) :
    ∀ t, execTwinHandback bay s = .next t → P t := by
  intro t e
  obtain rfl := Host.Outcome.next.inj e
  split
  · apply State.handback_kept hd hm
    assumption
  · assumption

theorem State.rescueEnd_kept (hd : DevFree P) (hm : MemFree P) {s : State} (hs : P s) (twin : Nat) (pass : Bool) :
    P (s.rescueEnd twin pass) := by
  unfold State.rescueEnd
  split
  · assumption
  · extract_lets v1 s2
    have h3 : P s2 := by
      dsimp -zeta only [s2]
      apply State.withDev_kept hd
      assumption
    clear_value v1 s2
    split
    · apply State.pairLost_kept hd hm
      assumption
    · apply State.switchDone_kept hd hm
      apply State.takeover_kept hd hm
      apply State.switchDone_kept hd hm
      apply State.handback_kept hd hm
      assumption

theorem execBayRestoreAttempt_kept (hd : DevFree P) (hm : MemFree P) {s : State} (hs : P s) (bay : Fin 64) (pass : Bool) :
    ∀ t, execBayRestoreAttempt bay pass s = .next t → P t := by
  intro t e
  obtain rfl := Host.Outcome.next.inj e
  split
  · assumption
  · extract_lets s1
    have h2 : P s1 := by
      dsimp -zeta only [s1]
      apply State.withDev_kept hd
      assumption
    clear_value s1
    split
    · apply State.withDev_kept hd
      apply State.handback_kept hd hm
      assumption
    · apply State.withDev_kept hd
      assumption

/-! ## Repair -/

theorem State.spareBegin_kept (hd : DevFree P) (hm : MemFree P) {s : State} (hs : P s) (level : Nat) : P (s.spareBegin level) := by
  unfold State.spareBegin
  extract_lets v off s1
  refine State.withDev_kept hd ?_ _
  dsimp -zeta only [s1]
  split
  · exact hs
  · exact mem_kept hm hs fun h => SMap.wf_filter _ _ h

theorem State.spareOrder_kept (hd : DevFree P) (hm : MemFree P) {s : State} (hs : P s) (level : Nat) :
    P (s.spareOrder level) := by
  unfold State.spareOrder
  extract_lets s1
  have h2 : P s1 := by
    dsimp -zeta only [s1]
    apply State.withDev_kept hd
    assumption
  clear_value s1
  split
  · apply State.spareBegin_kept hd hm
    assumption
  · assumption

theorem execLevelSpare_kept (hd : DevFree P) (hm : MemFree P) {s : State} (hs : P s) (level : Fin 32) :
    ∀ t, execLevelSpare level s = .next t → P t := by
  intro t e
  obtain rfl := Host.Outcome.next.inj e
  apply State.spareOrder_kept hd hm
  assumption

theorem State.spareAuto_kept (hd : DevFree P) (hm : MemFree P) {s : State} (hs : P s) (level : Nat) :
    P (s.spareAuto level) := by
  unfold State.spareAuto
  extract_lets v1
  split
  · dsimp -zeta only [v1]
    apply State.withDev_kept hd
    assumption
  · split
    · assumption
    · split
      · apply State.withDev_kept hd
        dsimp -zeta only [v1]
        apply State.withDev_kept hd
        assumption
      · apply State.spareBegin_kept hd hm
        dsimp -zeta only [v1]
        apply State.withDev_kept hd
        assumption

theorem State.spareCopy_kept (hd : DevFree P) (hm : MemFree P) {s : State} (hs : P s) (shaft : Nat) (wire : CodeWord) :
    P (s.spareCopy shaft wire) := by
  unfold State.spareCopy
  extract_lets v1 v2 v3 v4 v5 v6 v7
  clear_value v1 v2 v3 v4 v5 v6 v7
  split
  · assumption
  · split
    · rename_i x8 x9 x10 x11 x12
      have h13 : P x11 := by
        refine snd2_kept x12 ?_
        split
        · assumption
        · split
          · rename_i x14 x15 x16 x17
            have h18 : P x16 := by
              refine snd_kept x17 ?_
              apply State.bayRead_kept hd hm
              assumption
            assumption
      split
      · rename_i x19 x20 x21
        have h22 : P x20 := by
          refine snd_kept x21 ?_
          apply State.mergeWrite_kept hd hm
          assumption
        assumption
      · rename_i x23 x24 x25 x26 x27
        have h28 : P x25 := by
          refine snd_kept x27 ?_
          apply State.mergeWrite_kept hd hm
          assumption
        apply State.withDev_kept hd
        assumption

theorem execReshelveLineCopy_kept (hd : DevFree P) (hm : MemFree P) {s : State} (hs : P s) (shaft : Fin 64) (job : Option (Fin 4096)) (wire : CodeWord) :
    ∀ t, execReshelveLineCopy shaft job wire s = .next t → P t := by
  intro t e
  obtain rfl := Host.Outcome.next.inj e
  split
  · assumption
  · split
    · apply State.spareCopy_kept hd hm
      assumption
    · split
      · split
        · apply State.jobCopy_kept hd hm
          assumption
        · assumption
      · assumption

theorem execSpareAbandon_kept (hd : DevFree P) {s : State} (hs : P s) :
    ∀ t, execSpareAbandon s = .next t → P t := by
  intro t e
  obtain rfl := Host.Outcome.next.inj e
  refine dev_kept hd ?_ _
  assumption

theorem execLevelRetire_kept (hd : DevFree P) {s : State} (hs : P s) (level : Fin 32) :
    ∀ t, execLevelRetire level s = .next t → P t := by
  intro t e
  obtain rfl := Host.Outcome.next.inj e
  refine dev_kept hd ?_ _
  assumption

theorem State.repairWire_kept (hd : DevFree P) (hm : MemFree P) {s : State} (hs : P s) (shaft : Nat) (wire : Nat) (level : Nat) :
    P (s.repairWire shaft wire level) := by
  unfold State.repairWire
  extract_lets v1 v2 v3 s4 v5 v6
  have h7 : P s4 := by
    dsimp -zeta only [s4]
    apply State.withDev_kept hd
    assumption
  clear_value v1 v2 v3 s4 v5 v6
  split
  · assumption
  · split
    · apply State.withDev_kept hd
      assumption
    · split
      · apply State.withDev_kept hd
        apply State.shaftLost_kept hd hm
        assumption
      · apply State.withDev_kept hd
        assumption

theorem State.withdrawCopy_kept (hd : DevFree P) (hm : MemFree P) {s : State} (hs : P s) (shaft : Nat) (level : Nat) :
    P (s.withdrawCopy shaft level) := by
  unfold State.withdrawCopy
  extract_lets v1 v2 v3 v4 s5
  have h6 : P s5 := by
    dsimp -zeta only [s5]
    refine foldl_kept (fun s7 h8 a9 => ?_) ?_ _
    · apply State.storeLine_kept hm
      apply State.bayRead_kept hd hm
      assumption
    · assumption
  clear_value v1 v2 v3 s5
  split
  · assumption
  · apply State.withDev_kept hd
    assumption

theorem execRowWithdrawCopy_kept (hd : DevFree P) (hm : MemFree P) {s : State} (hs : P s) (shaft : Fin 64) (level : Fin 17) :
    ∀ t, execRowWithdrawCopy shaft level s = .next t → P t := by
  intro t e
  obtain rfl := Host.Outcome.next.inj e
  split
  · assumption
  · apply State.withdrawCopy_kept hd hm
    assumption

theorem State.pumpRepair_kept (hd : DevFree P) (hm : MemFree P) {s : State} (hs : P s) :
    P (s.pumpRepair) := by
  unfold State.pumpRepair
  extract_lets v1 s2
  have h3 : P s2 := by
    dsimp -zeta only [s2]
    refine foldl_kept (fun s4 h5 a6 => ?_) ?_ _
    · apply State.repairWire_kept hd hm
      assumption
    · apply State.withDev_kept hd
      assumption
  clear_value v1 s2
  refine foldl_kept (fun s7 h8 a9 => ?_) ?_ _
  · apply State.spareAuto_kept hd hm
    assumption
  · assumption

theorem execLedgerWriteDone_kept (hd : DevFree P) (hl : LedgerFree P) {s : State} (hs : P s) (ok : Bool) :
    ∀ t, execLedgerWriteDone ok s = .next t → P t := by
  intro t e
  obtain rfl := Host.Outcome.next.inj e
  split
  · assumption
  · split
    · apply State.withDev_kept hd
      refine ledger_kept hl ?_ _
      assumption
    · extract_lets v1 v2 v3 v4 v5
      clear_value v1 v2 v3 v4 v5
      apply State.withDev_kept hd
      refine ledger_kept hl ?_ _
      assumption

theorem execLifeRecord_kept (hd : DevFree P) {s : State} (hs : P s) (crown : Int) (levels : Int) :
    ∀ t, execLifeRecord crown levels s = .next t → P t := by
  intro t e
  obtain rfl := Host.Outcome.next.inj e
  refine dev_kept hd ?_ _
  assumption

/-! ## Pace -/

theorem execPaceWindow_kept (hd : DevFree P) {s : State} (hs : P s) (counts : List Nat) :
    ∀ t, execPaceWindow counts s = .next t → P t := by
  intro t e
  obtain rfl := Host.Outcome.next.inj e
  refine dev_kept hd ?_ _
  assumption

theorem execLocalTimeCheck_kept (hd : DevFree P) {s : State} (hs : P s) (counts : List Nat) :
    ∀ t, execLocalTimeCheck counts s = .next t → P t := by
  intro t e
  obtain rfl := Host.Outcome.next.inj e
  refine dev_kept hd ?_ _
  assumption

theorem execTbTimeLoRead_kept (hd : DevFree P) {s : State} (hs : P s) :
    ∀ t, execTbTimeLoRead s = .next t → P t := by
  intro t e
  obtain rfl := Host.Outcome.next.inj e
  refine dev_kept hd ?_ _
  assumption

theorem execTbSlewComplete_kept (hd : DevFree P) {s : State} (hs : P s) :
    ∀ t, execTbSlewComplete s = .next t → P t := by
  intro t e
  obtain rfl := Host.Outcome.next.inj e
  refine dev_kept hd ?_ _
  assumption

end Sys2Proof.Machine
end

