-- ==== Sys2Proof/Laws/KeptLinks.lean ====
section
/-!
SUPPORT. What a change of State keeps, for lanes, links and collections: a predicate P that
no change of the volatile state, of the stored lines, ... (as the hypotheses name them) can break holds after the operation.
One lemma per operation; it cites those of the operations it calls.
-/

namespace Sys2Proof.Machine

open Sys2Proof

variable {P : State → Prop}

/-! ## Lanes -/

theorem State.linkLost_kept (hd : DevFree P) {s : State} (hs : P s) (l : Nat) :
    P (s.linkLost l) := by
  unfold State.linkLost
  apply State.withDev_kept hd
  assumption

theorem State.toDetect_kept (hd : DevFree P) (hm : MemFree P) {s : State} (hs : P s) (l : Nat) (retrain : Bool) :
    P (s.toDetect l retrain) := by
  unfold State.toDetect
  extract_lets v1 s2 v3 v4
  have h5 : P s2 := by
    dsimp -zeta only [s2]
    split
    · apply State.linkLost_kept hd
      assumption
    · assumption
  clear_value v1 s2 v3 v4
  split
  · assumption
  · apply State.linkGone_kept hd hm
    apply State.withDev_kept hd
    assumption

theorem State.toDisabled_kept (hd : DevFree P) (hm : MemFree P) {s : State} (hs : P s) (l : Nat) :
    P (s.toDisabled l) := by
  unfold State.toDisabled
  extract_lets v1 s2 v3 v4
  have h5 : P s2 := by
    dsimp -zeta only [s2]
    split
    · apply State.linkLost_kept hd
      assumption
    · assumption
  clear_value v1 s2 v3 v4
  apply State.linkGone_kept hd hm
  apply State.withDev_kept hd
  assumption

theorem State.toHalted_kept (hd : DevFree P) (hm : MemFree P) {s : State} (hs : P s) (l : Nat) :
    P (s.toHalted l) := by
  unfold State.toHalted
  extract_lets v1 s2
  have h3 : P s2 := by
    dsimp -zeta only [s2]
    split
    · apply State.linkLost_kept hd
      assumption
    · assumption
  clear_value v1 s2
  split
  · assumption
  · apply State.linkGone_kept hd hm
    apply State.withDev_kept hd
    assumption

theorem State.startLink_kept (hd : DevFree P) (hm : MemFree P) {s : State} (hs : P s) (l : Nat) :
    P (s.startLink l) := by
  unfold State.startLink
  apply State.toDetect_kept hd hm
  apply State.withDev_kept hd
  assumption

theorem State.trainFail_kept (hd : DevFree P) (hm : MemFree P) {s : State} (hs : P s) (l : Nat) (cause : Nat) :
    P (s.trainFail l cause) := by
  unfold State.trainFail
  apply State.toDetect_kept hd hm
  apply State.withDev_kept hd
  assumption

theorem State.phaseFailed_kept (hd : DevFree P) (hm : MemFree P) {s : State} (hs : P s) (l : Nat) :
    P (s.phaseFailed l) := by
  unfold State.phaseFailed
  extract_lets v1 v2
  clear_value v1 v2
  split
  · apply State.trainFail_kept hd hm
    assumption
  · split
    · apply State.withDev_kept hd
      assumption
    · apply State.withDev_kept hd
      assumption

theorem State.recover_kept (hd : DevFree P) (hm : MemFree P) {s : State} (hs : P s) (l : Nat) :
    P (s.recover l) := by
  unfold State.recover
  split
  · assumption
  · extract_lets v1 v2 s3
    have h4 : P s3 := by
      dsimp -zeta only [s3]
      apply State.withDev_kept hd
      assumption
    clear_value v1 v2 s3
    split
    · apply State.toDetect_kept hd hm
      apply State.withDev_kept hd
      assumption
    · apply State.withDev_kept hd
      assumption

theorem State.askMove_kept (hd : DevFree P) (hm : MemFree P) {s : State} (hs : P s) (l : Nat) (j : Nat) :
    P (s.askMove l j) := by
  unfold State.askMove
  extract_lets v1 s2
  have h3 : P s2 := by
    dsimp -zeta only [s2]
    apply State.toDetect_kept hd hm
    apply State.withDev_kept hd
    assumption
  clear_value v1 s2
  split
  · apply State.recover_kept hd hm
    apply State.withDev_kept hd
    assumption
  · apply State.withDev_kept hd
    assumption

theorem State.farMove_kept (hd : DevFree P) (hm : MemFree P) {s : State} (hs : P s) (l : Nat) (a2 : Nat) :
    P (s.farMove l a2) := by
  unfold State.farMove
  extract_lets v1 v2 v3 s4
  have h5 : P s4 := by
    dsimp -zeta only [s4]
    apply State.withDev_kept hd
    assumption
  clear_value v2 v3 s4
  split
  · apply State.withDev_kept hd
    assumption
  · split
    · assumption
    · split
      · apply State.withDev_kept hd
        assumption
      · apply State.toDetect_kept hd hm
        apply State.withDev_kept hd
        assumption

theorem State.acquireDone_kept (hd : DevFree P) (hm : MemFree P) {s : State} (hs : P s) (l : Nat) :
    P (s.acquireDone l) := by
  unfold State.acquireDone
  extract_lets v1 v2 v3
  clear_value v1 v2 v3
  split
  · split
    · assumption
    · apply State.trainFail_kept hd hm
      assumption
  · extract_lets v4 v5 v6
    clear_value v4 v5
    split
    · assumption
    · refine dev_kept hd ?_ _
      assumption

theorem State.tsProgress_kept (hd : DevFree P) (hm : MemFree P) {s : State} (hs : P s) (l : Nat) (a2 : Nat) :
    P (s.tsProgress l a2) := by
  unfold State.tsProgress
  extract_lets v1 v2 v3 v4 v5
  clear_value v1 v2 v3 v4 v5
  split
  · apply State.acquireDone_kept hd hm
    assumption
  · split
    · split
      · apply State.withDev_kept hd
        assumption
      · assumption
    · split
      · split
        · apply State.phaseFailed_kept hd hm
          assumption
        · split
          · split
            · apply State.withDev_kept hd
              assumption
            · apply State.withDev_kept hd
              assumption
          · assumption
      · split
        · split
          · apply State.withDev_kept hd
            assumption
          · assumption
        · assumption

theorem State.tsReceived_kept (hd : DevFree P) (hm : MemFree P) {s : State} (hs : P s) (p : Nat) (lane : Nat) (a3 : Nat) (a : Adapt) :
    P (s.tsReceived p lane a3 a) := by
  unfold State.tsReceived
  extract_lets v1 v2 v3 v4 s5 s6 s7
  have h8 : P s5 := by
    dsimp -zeta only [s5]
    apply State.withDev_kept hd
    assumption
  have h9 : P s6 := by
    dsimp -zeta only [s6]
    split
    · apply State.withDev_kept hd
      assumption
    · assumption
  have h10 : P s7 := by
    dsimp -zeta only [s7]
    split
    · apply State.withDev_kept hd
      assumption
    · assumption
  clear_value v1 v2 v3 v4 s5 s6 s7
  split
  · assumption
  · apply State.tsProgress_kept hd hm
    apply State.farMove_kept hd hm
    assumption

theorem State.seedSwitch_kept (hd : DevFree P) (hm : MemFree P) {s : State} (hs : P s) (l : Nat) :
    P (s.seedSwitch l) := by
  unfold State.seedSwitch
  extract_lets v1
  clear_value v1
  split
  · assumption
  · split
    · apply State.withDev_kept hd
      assumption
    · apply State.toDetect_kept hd hm
      assumption

theorem State.seedReceived_kept (hd : DevFree P) (hm : MemFree P) {s : State} (hs : P s) (p : Nat) (lane : Nat) (a3 : Option Nat) :
    P (s.seedReceived p lane a3) := by
  unfold State.seedReceived
  extract_lets v1
  clear_value v1
  split
  · assumption
  · apply State.seedSwitch_kept hd hm
    apply State.withDev_kept hd
    assumption

theorem State.controlBlock_kept (hd : DevFree P) (hm : MemFree P) {s : State} (hs : P s) (p : Nat) (lane : Nat) (payload : Nat) (a : Adapt) :
    P (s.controlBlock p lane payload a) := by
  unfold State.controlBlock
  split
  · extract_lets s1
    have h2 : P s1 := by
      dsimp -zeta only [s1]
      apply State.withDev_kept hd
      assumption
    clear_value s1
    split
    · apply State.seedReceived_kept hd hm
      apply State.withDev_kept hd
      assumption
    · split
      · apply State.tsReceived_kept hd hm
        assumption
      · split
        · apply State.seedReceived_kept hd hm
          assumption
        · assumption

theorem State.block_kept (hd : DevFree P) (hm : MemFree P) {s : State} (hs : P s) (p : Nat) (lane : Nat) (header : Nat) (payload : Nat) (a : Adapt) :
    P (s.block p lane header payload a) := by
  unfold State.block
  split
  · assumption
  · extract_lets v1
    clear_value v1
    split
    · apply State.controlBlock_kept hd hm
      assumption
    · split
      · apply State.withDev_kept hd
        assumption
      · apply State.withDev_kept hd
        assumption

theorem execTsBlock_kept (hd : DevFree P) (hm : MemFree P) {s : State} (hs : P s) (port : Fin 64) (lane : Fin 18) (payload : BitVec 64) (adapt : Adapt) :
    ∀ t, execTsBlock port lane payload adapt s = .next t → P t := by
  intro t e
  obtain rfl := Host.Outcome.next.inj e
  apply State.block_kept hd hm
  assumption

theorem execCcBlock_kept (hd : DevFree P) (hm : MemFree P) {s : State} (hs : P s) (port : Fin 64) (lane : Fin 18) (payload : BitVec 64) :
    ∀ t, execCcBlock port lane payload s = .next t → P t := by
  intro t e
  obtain rfl := Host.Outcome.next.inj e
  apply State.block_kept hd hm
  assumption

theorem execDataBlock_kept (hd : DevFree P) (hm : MemFree P) {s : State} (hs : P s) (port : Fin 64) (lane : Fin 18) (header : BitVec 2) (payload : BitVec 64) :
    ∀ t, execDataBlock port lane header payload s = .next t → P t := by
  intro t e
  obtain rfl := Host.Outcome.next.inj e
  apply State.block_kept hd hm
  assumption

theorem execSignalDetect_kept (hd : DevFree P) {s : State} (hs : P s) (link : Fin 256) (lanes : BitVec 16) :
    ∀ t, execSignalDetect link lanes s = .next t → P t := by
  intro t e
  obtain rfl := Host.Outcome.next.inj e
  refine dev_kept hd ?_ _
  assumption

theorem execTrainingPhaseTimeout_kept (hd : DevFree P) (hm : MemFree P) {s : State} (hs : P s) (link : Fin 256) :
    ∀ t, execTrainingPhaseTimeout link s = .next t → P t := by
  intro t e
  obtain rfl := Host.Outcome.next.inj e
  split
  · apply State.phaseFailed_kept hd hm
    assumption
  · assumption

theorem execStepChangeIdle_kept (hd : DevFree P) {s : State} (hs : P s) (link : Fin 256) :
    ∀ t, execStepChangeIdle link s = .next t → P t := by
  intro t e
  obtain rfl := Host.Outcome.next.inj e
  refine dev_kept hd ?_ _
  assumption

theorem execRecoveryTrigger_kept (hd : DevFree P) (hm : MemFree P) {s : State} (hs : P s) (link : Fin 256) :
    ∀ t, execRecoveryTrigger link s = .next t → P t := by
  intro t e
  obtain rfl := Host.Outcome.next.inj e
  apply State.recover_kept hd hm
  assumption

theorem execExitPattern_kept (hd : DevFree P) (hm : MemFree P) {s : State} (hs : P s) (link : Fin 256) :
    ∀ t, execExitPattern link s = .next t → P t := by
  intro t e
  obtain rfl := Host.Outcome.next.inj e
  apply State.recover_kept hd hm
  assumption

theorem execRecoveryTimeout_kept (hd : DevFree P) (hm : MemFree P) {s : State} (hs : P s) (link : Fin 256) :
    ∀ t, execRecoveryTimeout link s = .next t → P t := by
  intro t e
  obtain rfl := Host.Outcome.next.inj e
  split
  · apply State.toDetect_kept hd hm
    assumption
  · assumption

theorem execLaneFailure_kept (hd : DevFree P) (hm : MemFree P) {s : State} (hs : P s) (port : Fin 64) (lane : Fin 18) (unstable : Bool) :
    ∀ t, execLaneFailure port lane unstable s = .next t → P t := by
  intro t e
  obtain rfl := Host.Outcome.next.inj e
  extract_lets s1 v2
  have h3 : P s1 := by
    dsimp -zeta only [s1]
    split
    · apply State.withDev_kept hd
      assumption
    · assumption
  clear_value s1 v2
  split
  · split
    · apply State.withDev_kept hd
      assumption
    · split
      · assumption
      · apply State.askMove_kept hd hm
        assumption

theorem execAcquireLaneMissing_kept (hd : DevFree P) {s : State} (hs : P s) (link : Fin 256) (lane : Fin 16) :
    ∀ t, execAcquireLaneMissing link lane s = .next t → P t := by
  intro t e
  obtain rfl := Host.Outcome.next.inj e
  refine dev_kept hd ?_ _
  assumption

theorem execHalt_kept (hd : DevFree P) (hm : MemFree P) {s : State} (hs : P s) (link : Fin 256) :
    ∀ t, execHalt link s = .next t → P t := by
  intro t e
  obtain rfl := Host.Outcome.next.inj e
  split
  · apply State.toDetect_kept hd hm
    assumption
  · assumption

theorem State.portEnable_kept (hd : DevFree P) (hm : MemFree P) {s : State} (hs : P s) (p : Nat) :
    P (s.portEnable p) := by
  unfold State.portEnable
  split
  · assumption
  · split
    · extract_lets s1
      have h2 : P s1 := by
        dsimp -zeta only [s1]
        refine dev_kept hd ?_ _
        assumption
      clear_value s1
      split
      · assumption
      · refine foldl_kept (fun s3 h4 a5 => ?_) ?_ _
        · apply State.startLink_kept hd hm
          assumption
        · assumption

theorem execPortEnable_kept (hd : DevFree P) (hm : MemFree P) {s : State} (hs : P s) (port : Fin 64) :
    ∀ t, execPortEnable port s = .next t → P t := by
  intro t e
  obtain rfl := Host.Outcome.next.inj e
  apply State.portEnable_kept hd hm
  assumption

theorem State.portDisable_kept (hd : DevFree P) (hm : MemFree P) {s : State} (hs : P s) (p : Nat) :
    P (s.portDisable p) := by
  unfold State.portDisable
  split
  · assumption
  · split
    · refine foldl_kept (fun s1 h2 a3 => ?_) ?_ _
      · apply State.toDisabled_kept hd hm
        assumption
      · refine dev_kept hd ?_ _
        assumption

theorem execPortDisable_kept (hd : DevFree P) (hm : MemFree P) {s : State} (hs : P s) (port : Fin 64) :
    ∀ t, execPortDisable port s = .next t → P t := by
  intro t e
  obtain rfl := Host.Outcome.next.inj e
  apply State.portDisable_kept hd hm
  assumption

theorem State.portRetrain_kept (hd : DevFree P) (hm : MemFree P) {s : State} (hs : P s) (p : Nat) :
    P (s.portRetrain p) := by
  unfold State.portRetrain
  refine foldl_kept (fun s1 h2 a3 => ?_) ?_ _
  · apply State.toDetect_kept hd hm
    assumption
  · assumption

theorem execPortRetrain_kept (hd : DevFree P) (hm : MemFree P) {s : State} (hs : P s) (port : Fin 64) :
    ∀ t, execPortRetrain port s = .next t → P t := by
  intro t e
  obtain rfl := Host.Outcome.next.inj e
  apply State.portRetrain_kept hd hm
  assumption

theorem execLoopback_kept (hd : DevFree P) {s : State} (hs : P s) (port : Fin 64) (on : Bool) :
    ∀ t, execLoopback port on s = .next t → P t := by
  intro t e
  obtain rfl := Host.Outcome.next.inj e
  refine dev_kept hd ?_ _
  assumption

/-! ## Link -/

theorem State.replayFrom_kept (hd : DevFree P) (hm : MemFree P) {s : State} (hs : P s) (l : Nat) (i : Nat) :
    P (s.replayFrom l i) := by
  unfold State.replayFrom
  split
  · apply State.recover_kept hd hm
    apply State.withDev_kept hd
    assumption
  · apply State.withDev_kept hd
    assumption

theorem execAnswerTimeout_kept (hd : DevFree P) (hm : MemFree P) {s : State} (hs : P s) (link : Fin 256) :
    ∀ t, execAnswerTimeout link s = .next t → P t := by
  intro t e
  obtain rfl := Host.Outcome.next.inj e
  split
  · assumption
  · apply State.replayFrom_kept hd hm
    apply State.withDev_kept hd
    assumption

theorem State.sendEmpty_kept (hd : DevFree P) {s : State} (hs : P s) (l : Nat) (kind : Nat) :
    P (s.sendEmpty l kind) := by
  unfold State.sendEmpty
  split
  · extract_lets v1
    clear_value v1
    refine dev_kept hd ?_ _
    assumption

theorem State.sendReplay_kept (hd : DevFree P) {s : State} (hs : P s) (l : Nat) (i : Nat) :
    P (s.sendReplay l i) := by
  unfold State.sendReplay
  split
  · apply State.withDev_kept hd
    assumption
  · split
    · extract_lets v1 v2
      clear_value v1 v2
      refine dev_kept hd ?_ _
      assumption

theorem State.sendNew_kept (hd : DevFree P) {s : State} (hs : P s) (l : Nat) (dest : Nat) (payload : List Nat) (taken : List (Nat × Msg)) (spend : List Nat) :
    P (s.sendNew l dest payload taken spend) := by
  unfold State.sendNew
  extract_lets v1 v2 v3
  clear_value v1 v2 v3
  split
  · extract_lets v4 v5 v6
    clear_value v4 v5 v6
    refine dev_kept hd ?_ _
    assumption

theorem State.sendTransit_kept (hd : DevFree P) {s : State} (hs : P s) (l : Nat) {t : State} (e : s.sendTransit l = some t) : P t := by
  unfold State.sendTransit at e
  split at e
  · exact nomatch e
  · dsimp only at e
    split at e <;> split at e
    · exact nomatch e
    · obtain rfl := Option.some.inj e
      exact State.sendNew_kept hd (State.withDev_kept hd hs _) _ _ _ _ _
    · exact nomatch e
    · obtain rfl := Option.some.inj e
      exact State.sendNew_kept hd (State.withDev_kept hd hs _) _ _ _ _ _

theorem State.flitSend_kept (hd : DevFree P) {s : State} (hs : P s) (l : Nat) (starved : Bool) : P (s.flitSend l starved) := by
  unfold State.flitSend
  dsimp only
  split
  · exact hs
  · split
    · exact State.sendEmpty_kept hd hs _ _
    · split
      · exact State.sendReplay_kept hd hs _ _
      · split
        · exact State.sendEmpty_kept hd hs _ _
        · split
          · rename_i e
            exact State.sendTransit_kept hd hs _ e
          · have h1 : P (if (s.pack l).1.stuck ≠ [] ∧ (s.pack l).1.used < 15 then s.withDev fun d => d.count 0x0909 l else s) := by
              split
              · exact State.withDev_kept hd hs _
              · exact hs
            split
            · exact State.sendNew_kept hd h1 _ _ _ _ _
            · split
              · exact State.withDev_kept hd h1 _
              · exact State.sendEmpty_kept hd h1 _ _

theorem execFlitSend_kept (hd : DevFree P) {s : State} (hs : P s) (link : Fin 256) (starved : Bool) :
    ∀ t, execFlitSend link starved s = .next t → P t := by
  intro t e
  obtain rfl := Host.Outcome.next.inj e
  apply State.flitSend_kept hd
  assumption

theorem State.injectEnable_kept (hd : DevFree P) {s : State} (hs : P s) (p : Nat) :
    P (s.injectEnable p) := by
  unfold State.injectEnable
  split
  · assumption
  · split
    · split
      · refine dev_kept hd ?_ _
        assumption
      · refine dev_kept hd ?_ _
        assumption

theorem execInjEnable_kept (hd : DevFree P) {s : State} (hs : P s) (port : Fin 64) :
    ∀ t, execInjEnable port s = .next t → P t := by
  intro t e
  obtain rfl := Host.Outcome.next.inj e
  apply State.injectEnable_kept hd
  assumption

theorem execInjUnlockRead_kept (hd : DevFree P) {s : State} (hs : P s) (port : Fin 64) :
    ∀ t, execInjUnlockRead port s = .next t → P t := by
  intro t e
  obtain rfl := Host.Outcome.next.inj e
  refine dev_kept hd ?_ _
  assumption

theorem execInjUnlockKey_kept (hd : DevFree P) {s : State} (hs : P s) (port : Fin 64) (key : BitVec 16) :
    ∀ t, execInjUnlockKey port key s = .next t → P t := by
  intro t e
  obtain rfl := Host.Outcome.next.inj e
  refine dev_kept hd ?_ _
  assumption

/-! ## Coll -/

theorem State.setMaps_kept (hd : DevFree P) (hm : MemFree P) {s : State} (hs : P s) (map : Nat) (lost : Nat) :
    P (s.setMaps map lost) := by
  unfold State.setMaps
  extract_lets v1 v2 v3 s4
  have h5 : P s4 := by
    dsimp -zeta only [s4]
    apply State.withDev_kept hd
    assumption
  clear_value v3 s4
  split
  · apply State.membersLost_kept hd hm
    assumption
  · assumption

theorem State.alone_kept (hd : DevFree P) (hm : MemFree P) {s : State} (hs : P s) :
    P (s.alone) := by
  unfold State.alone
  extract_lets s1
  have h2 : P s1 := by
    dsimp -zeta only [s1]
    apply State.setMaps_kept hd hm
    assumption
  clear_value s1
  apply State.withDev_kept hd
  assumption

theorem State.sendJoin_kept (hd : DevFree P) {s : State} (hs : P s) :
    P (s.sendJoin) := by
  unfold State.sendJoin
  split
  · apply State.sendPeer_kept hd
    assumption
  · refine foldl_kept (fun s1 h2 a3 => ?_) ?_ _
    · apply State.withDev_kept hd
      assumption
    · assumption

theorem State.found_kept (hd : DevFree P) (hm : MemFree P) {s : State} (hs : P s) :
    P (s.found) := by
  unfold State.found
  extract_lets s1
  have h2 : P s1 := by
    dsimp -zeta only [s1]
    apply State.setMaps_kept hd hm
    assumption
  clear_value s1
  apply State.withDev_kept hd
  assumption

theorem State.collJoin_kept (hd : DevFree P) (hm : MemFree P) {s : State} (hs : P s) (found : Bool) :
    P (s.collJoin found) := by
  unfold State.collJoin
  split
  · assumption
  · extract_lets s1
    have h2 : P s1 := by
      dsimp -zeta only [s1]
      apply State.withDev_kept hd
      assumption
    clear_value s1
    split
    · extract_lets s3
      have h4 : P s3 := by
        dsimp -zeta only [s3]
        refine dev_kept hd ?_ _
        assumption
      clear_value s3
      split
      · assumption
      · split
        · apply State.found_kept hd hm
          assumption
        · apply State.sendJoin_kept hd
          apply State.withDev_kept hd
          assumption

theorem execCollJoin_kept (hd : DevFree P) (hm : MemFree P) {s : State} (hs : P s) :
    ∀ t, execCollJoin s = .next t → P t := by
  intro t e
  obtain rfl := Host.Outcome.next.inj e
  apply State.collJoin_kept hd hm
  assumption

theorem execCollFound_kept (hd : DevFree P) (hm : MemFree P) {s : State} (hs : P s) :
    ∀ t, execCollFound s = .next t → P t := by
  intro t e
  obtain rfl := Host.Outcome.next.inj e
  apply State.collJoin_kept hd hm
  assumption

theorem State.joinRefused_kept (hd : DevFree P) {s : State} (hs : P s) (code : Nat) :
    P (s.joinRefused code) := by
  unfold State.joinRefused
  extract_lets s1
  have h2 : P s1 := by
    dsimp -zeta only [s1]
    apply State.withDev_kept hd
    assumption
  clear_value s1
  split
  · apply State.withDev_kept hd
    assumption
  · apply State.withDev_kept hd
    assumption

theorem execJoinTimeout_kept (hd : DevFree P) (hm : MemFree P) {s : State} (hs : P s) :
    ∀ t, execJoinTimeout s = .next t → P t := by
  intro t e
  obtain rfl := Host.Outcome.next.inj e
  split
  · assumption
  · split
    · apply State.found_kept hd hm
      assumption
    · apply State.joinRefused_kept hd
      assumption

theorem State.sendMissing_kept (hd : DevFree P) {s : State} (hs : P s) (dst : Nat) (seq : Nat) :
    P (s.sendMissing dst seq) := by
  unfold State.sendMissing
  refine foldl_kept (fun s1 h2 a3 => ?_) ?_ _
  · apply State.sendCard_kept hd
    assumption
  · assumption

theorem State.joinReqIn_kept (hd : DevFree P) {s : State} (hs : P s) (m : Msg) :
    P (s.joinReqIn m) := by
  unfold State.joinReqIn
  split
  · extract_lets v1 v2 s3 s4
    have h5 : P s3 := by
      dsimp -zeta only [s3]
      split
      · apply State.withDev_kept hd
        assumption
      · assumption
    have h6 : P s4 := by
      dsimp -zeta only [s4]
      apply State.sendPeer_kept hd
      assumption
    clear_value v1 v2 s3 s4
    split
    · apply State.sendMissing_kept hd
      assumption
    · assumption
  · split
    · apply State.sendPeer_kept hd
      assumption
    · assumption

theorem execJoinReq_kept (hd : DevFree P) {s : State} (hs : P s) (link : Fin 256) (msg : Msg) :
    ∀ t, execJoinReq link msg s = .next t → P t := by
  intro t e
  obtain rfl := Host.Outcome.next.inj e
  apply State.peerMessage_kept hd
  · assumption
  · intro a1
    intro a2
    apply State.joinReqIn_kept hd
    assumption

theorem State.joinRspIn_kept (hd : DevFree P) {s : State} (hs : P s) (m : Msg) :
    P (s.joinRspIn m) := by
  unfold State.joinRspIn
  split
  · assumption
  · split
    · apply State.joinRefused_kept hd
      assumption
    · split
      · apply State.joinRefused_kept hd
        assumption
      · apply State.withDev_kept hd
        assumption

theorem execJoinRsp_kept (hd : DevFree P) {s : State} (hs : P s) (link : Fin 256) (msg : Msg) :
    ∀ t, execJoinRsp link msg s = .next t → P t := by
  intro t e
  obtain rfl := Host.Outcome.next.inj e
  apply State.peerMessage_kept hd
  · assumption
  · intro a1
    intro a2
    apply State.joinRspIn_kept hd
    assumption

theorem State.collLeave_kept (hd : DevFree P) (hm : MemFree P) {s : State} (hs : P s) :
    P (s.collLeave) := by
  unfold State.collLeave
  split
  · assumption
  · split
    · extract_lets s1
      have h2 : P s1 := by
        dsimp -zeta only [s1]
        refine dev_kept hd ?_ _
        assumption
      clear_value s1
      split
      · assumption
      · split
        · apply State.withDev_kept hd
          assumption
        · apply State.alone_kept hd hm
          assumption

theorem execCollLeave_kept (hd : DevFree P) (hm : MemFree P) {s : State} (hs : P s) :
    ∀ t, execCollLeave s = .next t → P t := by
  intro t e
  obtain rfl := Host.Outcome.next.inj e
  apply State.collLeave_kept hd hm
  assumption

theorem State.adoptCall_kept (hd : DevFree P) (hm : MemFree P) {s : State} (hs : P s) (m : Msg) :
    P (s.adoptCall m) := by
  unfold State.adoptCall
  extract_lets s1 s2 v3
  have h4 : P s1 := by
    dsimp -zeta only [s1]
    apply State.withDev_kept hd
    assumption
  have h5 : P s2 := by
    dsimp -zeta only [s2]
    apply State.setMaps_kept hd hm
    assumption
  clear_value s1 s2 v3
  apply State.withDev_kept hd
  assumption

theorem State.rollCall_kept (hd : DevFree P) (hm : MemFree P) {s : State} (hs : P s) (m : Msg) :
    P (s.rollCall m) := by
  unfold State.rollCall
  extract_lets v1 v2 v3 v4 s5 s6
  have h7 : P s5 := by
    dsimp -zeta only [s5]
    apply State.adoptCall_kept hd hm
    assumption
  have h8 : P s6 := by
    dsimp -zeta only [s6]
    apply State.sendPeer_kept hd
    assumption
  clear_value v1 v2 v3 v4 s5 s6
  split
  · assumption
  · split
    · assumption
    · split
      · apply State.alone_kept hd hm
        assumption
      · split
        · apply State.alone_kept hd hm
          apply State.withDev_kept hd
          assumption
        · split
          · assumption
          · split
            · apply State.sendMissing_kept hd
              assumption
            · assumption

theorem execRollCall_kept (hd : DevFree P) (hm : MemFree P) {s : State} (hs : P s) (link : Fin 256) (msg : Msg) :
    ∀ t, execRollCall link msg s = .next t → P t := by
  intro t e
  obtain rfl := Host.Outcome.next.inj e
  apply State.peerMessage_kept hd
  · assumption
  · intro a1
    intro a2
    apply State.rollCall_kept hd hm
    assumption

theorem State.rollAnswerIn_kept (hd : DevFree P) {s : State} (hs : P s) (m : Msg) :
    P (s.rollAnswerIn m) := by
  unfold State.rollAnswerIn
  split
  · assumption
  · extract_lets v1 v2 s3
    have h4 : P s3 := by
      dsimp -zeta only [s3]
      apply State.withDev_kept hd
      assumption
    clear_value v1 v2 s3
    split
    · apply State.sendMissing_kept hd
      assumption
    · assumption

theorem execRollAnswer_kept (hd : DevFree P) {s : State} (hs : P s) (link : Fin 256) (msg : Msg) :
    ∀ t, execRollAnswer link msg s = .next t → P t := by
  intro t e
  obtain rfl := Host.Outcome.next.inj e
  apply State.peerMessage_kept hd
  · assumption
  · intro a1
    intro a2
    apply State.rollAnswerIn_kept hd
    assumption

theorem State.rollTimer_kept (hd : DevFree P) (hm : MemFree P) {s : State} (hs : P s) :
    P (s.rollTimer) := by
  unfold State.rollTimer
  split
  · assumption
  · extract_lets v1 v2 s3 v4 s5 v6 v7 v8 v9 v10 v11 s12 s13 s14 v15 s16 v17 v18 v19 s20
    have h21 : P s3 := by
      dsimp -zeta only [s3]
      refine foldl_kept (fun s22 h23 a24 => ?_) ?_ _
      · apply State.withDev_kept hd
        assumption
      · assumption
    have h25 : P s5 := by
      dsimp -zeta only [s5]
      refine foldl_kept (fun s26 h27 a28 => ?_) ?_ _
      · apply State.withDev_kept hd
        assumption
      · assumption
    have h29 : P s12 := by
      dsimp -zeta only [s12]
      apply State.withDev_kept hd
      assumption
    have h30 : P s13 := by
      dsimp -zeta only [s13]
      refine foldl_kept (fun s31 h32 a33 => ?_) ?_ _
      · apply State.withDev_kept hd
        assumption
      · assumption
    have h34 : P s14 := by
      dsimp -zeta only [s14]
      apply State.setMaps_kept hd hm
      assumption
    have h35 : P s16 := by
      dsimp -zeta only [s16]
      apply State.withDev_kept hd
      assumption
    have h36 : P s20 := by
      dsimp -zeta only [s20]
      refine foldl_kept (fun s37 h38 a39 => ?_) ?_ _
      · apply State.sendPeer_kept hd
        apply State.withDev_kept hd
        assumption
      · assumption
    clear_value v1 v2 s3 v4 s5 v6 v7 v8 v9 v10 v11 s12 s13 s14 v15 s16 v17 v18 v19 s20
    split
    · apply State.alone_kept hd hm
      assumption
    · split
      · apply State.alone_kept hd hm
        assumption
      · split
        · assumption
        · apply State.withDev_kept hd
          assumption

theorem execRollCallTimer_kept (hd : DevFree P) (hm : MemFree P) {s : State} (hs : P s) :
    ∀ t, execRollCallTimer s = .next t → P t := by
  intro t e
  obtain rfl := Host.Outcome.next.inj e
  apply State.rollTimer_kept hd hm
  assumption

theorem State.headLost_kept (hd : DevFree P) (hm : MemFree P) {s : State} (hs : P s) (reach : Nat) (evac : Nat) :
    P (s.headLost reach evac) := by
  unfold State.headLost
  split
  · assumption
  · extract_lets v1 v2 v3 v4 v5 s6 s7
    have h8 : P s6 := by
      dsimp -zeta only [s6]
      apply State.withDev_kept hd
      assumption
    have h9 : P s7 := by
      dsimp -zeta only [s7]
      apply State.setMaps_kept hd hm
      assumption
    clear_value v1 v2 v3 v4 v5 s6 s7
    split
    · apply State.isolate_kept hd hm
      assumption
    · apply State.withDev_kept hd
      assumption

theorem execHeadLost_kept (hd : DevFree P) (hm : MemFree P) {s : State} (hs : P s) (reach : BitVec 64) (evac : BitVec 64) :
    ∀ t, execHeadLost reach evac s = .next t → P t := by
  intro t e
  obtain rfl := Host.Outcome.next.inj e
  apply State.headLost_kept hd hm
  assumption

theorem execTimeExchangeTimer_kept (hd : DevFree P) {s : State} (hs : P s) :
    ∀ t, execTimeExchangeTimer s = .next t → P t := by
  intro t e
  obtain rfl := Host.Outcome.next.inj e
  split
  · apply State.sendPeer_kept hd
    assumption
  · assumption

theorem State.timeReq_kept (hd : DevFree P) {s : State} (hs : P s) (m : Msg) :
    P (s.timeReq m) := by
  unfold State.timeReq
  split
  · apply State.sendPeer_kept hd
    assumption
  · assumption

theorem execTimeReq_kept (hd : DevFree P) {s : State} (hs : P s) (link : Fin 256) (msg : Msg) :
    ∀ t, execTimeReq link msg s = .next t → P t := by
  intro t e
  obtain rfl := Host.Outcome.next.inj e
  apply State.peerMessage_kept hd
  · assumption
  · intro a1
    intro a2
    apply State.timeReq_kept hd
    assumption

theorem State.timeRsp_kept (hd : DevFree P) {s : State} (hs : P s) (m : Msg) :
    P (s.timeRsp m) := by
  unfold State.timeRsp
  split
  · apply State.withDev_kept hd
    assumption
  · assumption

theorem execTimeRsp_kept (hd : DevFree P) {s : State} (hs : P s) (link : Fin 256) (msg : Msg) :
    ∀ t, execTimeRsp link msg s = .next t → P t := by
  intro t e
  obtain rfl := Host.Outcome.next.inj e
  apply State.peerMessage_kept hd
  · assumption
  · intro a1
    intro a2
    apply State.timeRsp_kept hd
    assumption

theorem execTsyncPulse_kept (hd : DevFree P) {s : State} (hs : P s) :
    ∀ t, execTsyncPulse s = .next t → P t := by
  intro t e
  obtain rfl := Host.Outcome.next.inj e
  split
  · apply State.withDev_kept hd
    assumption
  · assumption

theorem State.rejoin_kept (hd : DevFree P) {s : State} (hs : P s) (l : Nat) :
    P (s.rejoin l) := by
  unfold State.rejoin
  split
  · apply State.sendJoin_kept hd
    apply State.withDev_kept hd
    assumption
  · assumption

theorem execSeedBlock_kept (hd : DevFree P) (hm : MemFree P) {s : State} (hs : P s) (port : Fin 64) (lane : Fin 18) (payload : BitVec 64) :
    ∀ t, execSeedBlock port lane payload s = .next t → P t := by
  intro t e
  obtain rfl := Host.Outcome.next.inj e
  extract_lets v1 s2
  have h3 : P s2 := by
    dsimp -zeta only [s2]
    apply State.block_kept hd hm
    assumption
  clear_value v1 s2
  split
  · assumption
  · apply State.rejoin_kept hd
    assumption

theorem State.evacEntries_kept (hd : DevFree P) (hm : MemFree P) {s : State} (hs : P s) (l : List Nat) : P (s.evacEntries l) := by
  induction l generalizing s with
  | nil => exact hs
  | cons e l ih =>
    unfold State.evacEntries
    dsimp only
    have h1 := State.withDev_kept hd hs Dev.evacRelease
    split
    · exact h1
    · split
      · exact h1
      · split
        · exact ih (State.withDev_kept hd h1 _)
        · split
          · rename_i he
            exact snd_kept he (State.jobStart_kept hd hm h1 _ _ _ _)
          · rename_i he
            exact ih (State.withDev_kept hd (snd_kept he (State.jobStart_kept hd hm h1 _ _ _ _)) _)
          · rename_i he
            exact ih (State.withDev_kept hd (snd_kept he (State.jobStart_kept hd hm h1 _ _ _ _)) _)

theorem State.evacLine_kept (hd : DevFree P) (hm : MemFree P) {s : State} (hs : P s) (line : LineData) :
    P (s.evacLine line) := by
  unfold State.evacLine
  extract_lets v1
  clear_value v1
  apply State.evacEntries_kept hd hm
  assumption

theorem State.pumpEvac_kept (hd : DevFree P) {s : State} (hs : P s) :
    P (s.pumpEvac) := by
  unfold State.pumpEvac
  extract_lets s1 v2
  have h3 : P s1 := by
    dsimp -zeta only [s1]
    split
    · assumption
    · apply State.withDev_kept hd
      assumption
  clear_value s1 v2
  split
  · apply State.withDev_kept hd
    assumption
  · assumption

theorem execEvacListRead_kept (hd : DevFree P) (hm : MemFree P) {s : State} (hs : P s) (line : LineData) :
    ∀ t, execEvacListRead line s = .next t → P t := by
  intro t e
  obtain rfl := Host.Outcome.next.inj e
  extract_lets s1
  have h2 : P s1 := by
    dsimp -zeta only [s1]
    apply State.withDev_kept hd
    assumption
  clear_value s1
  apply State.pumpEvac_kept hd
  apply State.evacLine_kept hd hm
  assumption

theorem State.hostData_kept (hd : DevFree P) (hm : MemFree P) {s : State} (hs : P s) (l : Nat) (m : Msg) :
    P (s.hostData l m) := by
  unfold State.hostData
  split
  · assumption
  · split
    · apply State.withDev_kept hd
      assumption
    · split
      · extract_lets s1
        have h2 : P s1 := by
          dsimp -zeta only [s1]
          refine dev_kept hd ?_ _
          assumption
        clear_value s1
        split
        · split
          · apply State.evacLine_kept hd hm
            apply State.withDev_kept hd
            assumption
          · assumption
        · assumption

theorem execHostData_kept (hd : DevFree P) (hm : MemFree P) {s : State} (hs : P s) (link : Fin 256) (msg : Msg) :
    ∀ t, execHostData link msg s = .next t → P t := by
  intro t e
  obtain rfl := Host.Outcome.next.inj e
  apply State.hostData_kept hd hm
  assumption

theorem State.hostRsp_kept (hd : DevFree P) {s : State} (hs : P s) (l : Nat) (m : Msg) :
    P (s.hostRsp l m) := by
  unfold State.hostRsp
  split
  · assumption
  · split
    · apply State.withDev_kept hd
      assumption
    · refine dev_kept hd ?_ _
      assumption

theorem execRsp_kept (hd : DevFree P) {s : State} (hs : P s) (link : Fin 256) (msg : Msg) :
    ∀ t, execRsp link msg s = .next t → P t := by
  intro t e
  obtain rfl := Host.Outcome.next.inj e
  apply State.hostRsp_kept hd
  assumption

end Sys2Proof.Machine
end

