-- ==== Sys2Proof/Laws/KeptPower.lean ====
section
/-!
SUPPORT. What a change of State keeps, for clocks, domains, tests, power, reactions, supply and temperature: a predicate P that
no change of the volatile state, of the stored lines, ... (as the hypotheses name them) can break holds after the operation.
One lemma per operation; it cites those of the operations it calls.
-/

namespace Sys2Proof.Machine

open Sys2Proof

variable {P : State → Prop}

/-! ## Clocks -/

theorem State.pllTo_kept (hd : DevFree P) (hm : MemFree P) {s : State} (hs : P s) (i : Nat) (st : Nat) :
    P (s.pllTo i st) := by
  unfold State.pllTo
  extract_lets v1 s2 s3 s4
  have h5 : P s2 := by
    dsimp -zeta only [s2]
    apply State.withDev_kept hd
    assumption
  have h6 : P s3 := by
    dsimp -zeta only [s3]
    split
    · apply State.withDev_kept hd
      assumption
    · assumption
  have h7 : P s4 := by
    dsimp -zeta only [s4]
    split
    · refine foldl_kept (fun s8 h9 a10 => ?_) ?_ _
      · apply State.toDetect_kept hd hm
        assumption
      · assumption
    · assumption
  clear_value v1 s2 s3 s4
  split
  · apply State.withDev_kept hd
    assumption
  · assumption

theorem State.follow_kept (hd : DevFree P) (hm : MemFree P) {s : State} (hs : P s) (choice : Nat) (errors : List Int) :
    P (s.follow choice errors) := by
  unfold State.follow
  extract_lets v1 v2 s3 s4 s5
  have h6 : P s3 := by
    dsimp -zeta only [s3]
    split
    · assumption
    · refine foldl_kept (fun s7 h8 a9 => ?_) ?_ _
      · split
        · apply State.pllTo_kept hd hm
          assumption
        · assumption
      · assumption
  have h10 : P s4 := by
    dsimp -zeta only [s4]
    split
    · assumption
    · apply State.withDev_kept hd
      assumption
  have h11 : P s5 := by
    dsimp -zeta only [s5]
    refine foldl_kept (fun s12 h13 a14 => ?_) ?_ _
    · split
      · apply State.pllTo_kept hd hm
        assumption
      · assumption
    · assumption
  clear_value v1 v2 s3 s4 s5
  split
  · assumption
  · apply State.withDev_kept hd
    assumption

theorem execRefQualify_kept (hd : DevFree P) (hm : MemFree P) {s : State} (hs : P s) (input : Fin 2) (errors : List Int) :
    ∀ t, execRefQualify input errors s = .next t → P t := by
  intro t e
  obtain rfl := Host.Outcome.next.inj e
  extract_lets s1
  have h2 : P s1 := by
    dsimp -zeta only [s1]
    apply State.withDev_kept hd
    assumption
  clear_value s1
  apply State.follow_kept hd hm
  assumption

theorem execRefLost_kept (hd : DevFree P) (hm : MemFree P) {s : State} (hs : P s) (input : Fin 2) (errors : List Int) :
    ∀ t, execRefLost input errors s = .next t → P t := by
  intro t e
  obtain rfl := Host.Outcome.next.inj e
  split
  · assumption
  · extract_lets s1
    have h2 : P s1 := by
      dsimp -zeta only [s1]
      apply State.withDev_kept hd
      assumption
    clear_value s1
    apply State.follow_kept hd hm
    assumption

theorem execRefWindow_kept (hd : DevFree P) (hm : MemFree P) {s : State} (hs : P s) (input : Fin 2) (ppm : Int) (errors : List Int) :
    ∀ t, execRefWindow input ppm errors s = .next t → P t := by
  intro t e
  obtain rfl := Host.Outcome.next.inj e
  extract_lets s1 s2
  have h3 : P s1 := by
    dsimp -zeta only [s1]
    split
    · apply State.withDev_kept hd
      assumption
    · assumption
  have h4 : P s2 := by
    dsimp -zeta only [s2]
    apply State.withDev_kept hd
    assumption
  clear_value s1 s2
  split
  · assumption
  · apply State.follow_kept hd hm
    assumption

theorem execRefReturnHold_kept (hd : DevFree P) (hm : MemFree P) {s : State} (hs : P s) (errors : List Int) :
    ∀ t, execRefReturnHold errors s = .next t → P t := by
  intro t e
  obtain rfl := Host.Outcome.next.inj e
  extract_lets v1
  clear_value v1
  split
  · assumption
  · apply State.follow_kept hd hm
    assumption

theorem State.refSelect_kept (hd : DevFree P) (hm : MemFree P) {s : State} (hs : P s) :
    P (s.refSelect) := by
  unfold State.refSelect
  split
  · extract_lets s1
    have h2 : P s1 := by
      dsimp -zeta only [s1]
      refine dev_kept hd ?_ _
      assumption
    clear_value s1
    apply State.follow_kept hd hm
    assumption

theorem execPllLockDetect_kept (hd : DevFree P) {s : State} (hs : P s) (pll : Fin 68) (clamps : Nat) :
    ∀ t, execPllLockDetect pll clamps s = .next t → P t := by
  intro t e
  obtain rfl := Host.Outcome.next.inj e
  refine dev_kept hd ?_ _
  assumption

theorem execPllWindowCheck_kept (hd : DevFree P) (hm : MemFree P) {s : State} (hs : P s) (pll : Fin 68) (pass : Bool) :
    ∀ t, execPllWindowCheck pll pass s = .next t → P t := by
  intro t e
  obtain rfl := Host.Outcome.next.inj e
  split
  · assumption
  · split
    · apply State.pllTo_kept hd hm
      assumption
    · apply State.withDev_kept hd
      assumption

theorem execPllAcquireTimeout_kept (hd : DevFree P) (hm : MemFree P) {s : State} (hs : P s) (pll : Fin 68) :
    ∀ t, execPllAcquireTimeout pll s = .next t → P t := by
  intro t e
  obtain rfl := Host.Outcome.next.inj e
  split
  · assumption
  · apply State.withDev_kept hd
    apply State.pllTo_kept hd hm
    assumption

theorem execPllLockLost_kept (hd : DevFree P) (hm : MemFree P) {s : State} (hs : P s) (pll : Fin 68) :
    ∀ t, execPllLockLost pll s = .next t → P t := by
  intro t e
  obtain rfl := Host.Outcome.next.inj e
  split
  · assumption
  · apply State.pllTo_kept hd hm
    apply State.withDev_kept hd
    assumption

theorem execPllSlewDone_kept (hd : DevFree P) (hm : MemFree P) {s : State} (hs : P s) (pll : Fin 68) :
    ∀ t, execPllSlewDone pll s = .next t → P t := by
  intro t e
  obtain rfl := Host.Outcome.next.inj e
  split
  · assumption
  · apply State.pllTo_kept hd hm
    assumption

theorem execHoldoverLong_kept (hd : DevFree P) {s : State} (hs : P s) :
    ∀ t, execHoldoverLong s = .next t → P t := by
  intro t e
  obtain rfl := Host.Outcome.next.inj e
  refine dev_kept hd ?_ _
  assumption

theorem State.hp3Freq_kept (hd : DevFree P) (hm : MemFree P) {s : State} (hs : P s) (freq : Nat) :
    P (s.hp3Freq freq) := by
  unfold State.hp3Freq
  extract_lets s1
  have h2 : P s1 := by
    dsimp -zeta only [s1]
    apply State.withDev_kept hd
    assumption
  clear_value s1
  split
  · assumption
  · apply State.withDev_kept hd
    assumption
  · apply State.pllTo_kept hd hm
    assumption

theorem execClkHp3Freq_kept (hd : DevFree P) (hm : MemFree P) {s : State} (hs : P s) (freq : BitVec 4) :
    ∀ t, execClkHp3Freq freq s = .next t → P t := by
  intro t e
  obtain rfl := Host.Outcome.next.inj e
  apply State.hp3Freq_kept hd hm
  assumption

/-! ## Domain -/

theorem State.allAsleep_kept (hd : DevFree P) (hm : MemFree P) {s : State} (hs : P s) :
    P (s.allAsleep) := by
  unfold State.allAsleep
  refine foldl_kept (fun s1 h2 a3 => ?_) ?_ _
  · apply State.withDev_kept hd
    apply State.drainOrder_kept hd hm
    assumption
  · assumption

theorem State.domainEmptied_kept (hd : DevFree P) (hm : MemFree P) {s : State} (hs : P s) (i : Nat) :
    P (s.domainEmptied i) := by
  unfold State.domainEmptied
  extract_lets s1 v2 v3 v4 v5 v6
  have h7 : P s1 := by
    dsimp -zeta only [s1]
    split
    · apply State.pllTo_kept hd hm
      assumption
    · assumption
  clear_value s1 v2 v3 v4 v5 v6
  split
  · apply State.withDev_kept hd
    assumption
  · split
    · apply State.withDev_kept hd
      assumption
    · split
      · apply State.withDev_kept hd
        assumption
      · split
        · apply State.withDev_kept hd
          assumption
        · split
          · apply State.withDev_kept hd
            assumption
          · split
            · apply State.withDev_kept hd
              assumption
            · assumption

theorem State.gateDrain_kept (hd : DevFree P) (hm : MemFree P) {s : State} (hs : P s) (i : Nat) :
    P (s.gateDrain i) := by
  unfold State.gateDrain
  extract_lets s1 v2
  have h3 : P s1 := by
    dsimp -zeta only [s1]
    apply State.withDev_kept hd
    assumption
  clear_value s1 v2
  split
  · split
    · apply State.takeover_kept hd hm
      assumption
    · assumption
  · split
    · apply State.emptySlice_kept hd hm
      assumption
    · split
      · split
        · apply State.withDev_kept hd
          assumption
        · assumption
      · assumption

theorem State.domainDrained_kept (hd : DevFree P) (hm : MemFree P) {s : State} (hs : P s) (i : Nat) :
    P (s.domainDrained i) := by
  unfold State.domainDrained
  split
  · assumption
  · extract_lets s1
    have h2 : P s1 := by
      dsimp -zeta only [s1]
      split
      · apply State.withDev_kept hd
        assumption
      · split
        · apply State.emptySlice_kept hd hm
          assumption
        · assumption
    clear_value s1
    split
    · apply State.domainEmptied_kept hd hm
      apply State.withDev_kept hd
      assumption
    · assumption

theorem State.containGate_kept (hd : DevFree P) (hm : MemFree P) {s : State} (hs : P s) (i : Nat) :
    P (s.containGate i) := by
  unfold State.containGate
  split
  · assumption
  · apply State.gateDrain_kept hd hm
    assumption

theorem State.wakeStart_kept (hd : DevFree P) {s : State} (hs : P s) (i : Nat) :
    P (s.wakeStart i) := by
  unfold State.wakeStart
  split
  · apply State.withDev_kept hd
    assumption
  · assumption

theorem State.supplyGood_kept (hd : DevFree P) (hm : MemFree P) {s : State} (hs : P s) (i : Nat) :
    P (s.supplyGood i) := by
  unfold State.supplyGood
  split
  · assumption
  · extract_lets s1
    have h2 : P s1 := by
      dsimp -zeta only [s1]
      apply State.withDev_kept hd
      assumption
    clear_value s1
    split
    · split
      · apply State.pllTo_kept hd hm
        assumption
      · assumption
    · assumption

theorem State.wakeChecked_kept (hd : DevFree P) (hm : MemFree P) {s : State} (hs : P s) (i : Nat) (pass : Bool) :
    P (s.wakeChecked i pass) := by
  unfold State.wakeChecked
  split
  · assumption
  · split
    · extract_lets s1 v2 v3 v4
      have h5 : P s1 := by
        dsimp -zeta only [s1]
        apply State.withDev_kept hd
        assumption
      clear_value s1 v2 v3 v4
      split
      · split
        · apply State.rescueEnd_kept hd hm
          assumption
        · split
          · apply State.handback_kept hd hm
            assumption
          · assumption
      · split
        · apply State.withDev_kept hd
          assumption
        · split
          · split
            · apply State.withDev_kept hd
              assumption
            · assumption
          · assumption
    · extract_lets s6
      have h7 : P s6 := by
        dsimp -zeta only [s6]
        apply State.domainEmptied_kept hd hm
        apply State.withDev_kept hd
        assumption
      clear_value s6
      split
      · apply State.rescueEnd_kept hd hm
        assumption
      · assumption

/-! ## Test -/

theorem State.sliceBegin_kept (hd : DevFree P) (hm : MemFree P) {s : State} (hs : P s) (i : Nat) :
    P (s.sliceBegin i) := by
  unfold State.sliceBegin
  extract_lets s1 s2 s3
  have h4 : P s1 := by
    dsimp -zeta only [s1]
    apply State.withDev_kept hd
    assumption
  have h5 : P s2 := by
    dsimp -zeta only [s2]
    apply State.wakeStart_kept hd
    assumption
  have h6 : P s3 := by
    dsimp -zeta only [s3]
    split
    · apply State.takeover_kept hd hm
      assumption
    · split
      · apply State.emptySlice_kept hd hm
        assumption
      · split
        · apply State.withDev_kept hd
          assumption
        · assumption
  clear_value s1 s2 s3
  apply State.withDev_kept hd
  assumption

theorem State.sliceStart_kept (hd : DevFree P) (hm : MemFree P) {s : State} (hs : P s) (i : Nat) :
    P (s.sliceStart i) := by
  unfold State.sliceStart
  extract_lets s1 v2
  have h3 : P s1 := by
    dsimp -zeta only [s1]
    apply State.withDev_kept hd
    assumption
  clear_value s1 v2
  split
  · extract_lets s4
    have h5 : P s4 := by
      dsimp -zeta only [s4]
      refine dev_kept hd ?_ _
      assumption
    clear_value s4
    split
    · apply State.sliceBegin_kept hd hm
      assumption
    · apply State.withDev_kept hd
      assumption

theorem execSliceStart_kept (hd : DevFree P) (hm : MemFree P) {s : State} (hs : P s) (domain : BitVec 8) :
    ∀ t, execSliceStart domain s = .next t → P t := by
  intro t e
  obtain rfl := Host.Outcome.next.inj e
  apply State.sliceStart_kept hd hm
  assumption

theorem execSliceSchedule_kept (hd : DevFree P) (hm : MemFree P) {s : State} (hs : P s) :
    ∀ t, execSliceSchedule s = .next t → P t := by
  intro t e
  obtain rfl := Host.Outcome.next.inj e
  split
  · assumption
  · split
    · assumption
    · apply State.sliceBegin_kept hd hm
      refine dev_kept hd ?_ _
      assumption

theorem execSlicePrepared_kept (hd : DevFree P) {s : State} (hs : P s) :
    ∀ t, execSlicePrepared s = .next t → P t := by
  intro t e
  obtain rfl := Host.Outcome.next.inj e
  extract_lets v1 s2
  have h3 : P s2 := by
    dsimp -zeta only [s2]
    split
    · apply State.withDev_kept hd
      assumption
    · assumption
  clear_value v1 s2
  split
  · assumption
  · split
    · apply State.withDev_kept hd
      assumption
    · assumption

theorem execSliceStop_kept (hd : DevFree P) {s : State} (hs : P s) (patterns : BitVec 16) :
    ∀ t, execSliceStop patterns s = .next t → P t := by
  intro t e
  obtain rfl := Host.Outcome.next.inj e
  refine dev_kept hd ?_ _
  assumption

theorem execSliceHp3Timeout_kept (hd : DevFree P) {s : State} (hs : P s) (patterns : BitVec 16) :
    ∀ t, execSliceHp3Timeout patterns s = .next t → P t := by
  intro t e
  obtain rfl := Host.Outcome.next.inj e
  refine dev_kept hd ?_ _
  assumption

theorem execSliceUrgentStop_kept (hd : DevFree P) {s : State} (hs : P s) (patterns : BitVec 16) :
    ∀ t, execSliceUrgentStop patterns s = .next t → P t := by
  intro t e
  obtain rfl := Host.Outcome.next.inj e
  refine dev_kept hd ?_ _
  assumption

theorem execSliceTestDone_kept (hd : DevFree P) {s : State} (hs : P s) (outcome : SliceOutcome) :
    ∀ t, execSliceTestDone outcome s = .next t → P t := by
  intro t e
  obtain rfl := Host.Outcome.next.inj e
  refine dev_kept hd ?_ _
  assumption

theorem execSliceRestored_kept (hd : DevFree P) (hm : MemFree P) {s : State} (hs : P s) (pass : Bool) :
    ∀ t, execSliceRestored pass s = .next t → P t := by
  intro t e
  obtain rfl := Host.Outcome.next.inj e
  split
  · assumption
  · extract_lets v1 v2 s3 v4 s5
    have h6 : P s3 := by
      dsimp -zeta only [s3]
      apply State.withDev_kept hd
      assumption
    have h7 : P s5 := by
      dsimp -zeta only [s5]
      split
      · split
        · apply State.rescueEnd_kept hd hm
          assumption
        · split
          · apply State.handback_kept hd hm
            assumption
          · assumption
      · assumption
    clear_value v1 v2 s3 v4 s5
    apply State.releaseAll_kept hd hm
    assumption

theorem State.testPhase_kept (hd : DevFree P) (hm : MemFree P) (hl : LedgerFree P) {s : State} (hs : P s) (k : Nat) (o : PhaseOutcome) :
    P (s.testPhase k o) := by
  unfold State.testPhase
  extract_lets s1 v2 v3
  have h4 : P s1 := by
    dsimp -zeta only [s1]
    apply State.withDev_kept hd
    assumption
  clear_value s1 v2 v3
  split
  · refine empty_kept hd hm ?_ _
    assumption
  · split
    · refine ledger_kept hl ?_ _
      assumption
    · assumption

theorem State.inventoryStart_kept (hd : DevFree P) {s : State} (hs : P s) :
    P (s.inventoryStart) := by
  unfold State.inventoryStart
  extract_lets v1
  clear_value v1
  split
  · extract_lets s2
    have h3 : P s2 := by
      dsimp -zeta only [s2]
      refine dev_kept hd ?_ _
      assumption
    clear_value s2
    split
    · apply State.withDev_kept hd
      assumption
    · apply State.withDev_kept hd
      assumption

theorem execInventoryStart_kept (hd : DevFree P) {s : State} (hs : P s) :
    ∀ t, execInventoryStart s = .next t → P t := by
  intro t e
  obtain rfl := Host.Outcome.next.inj e
  apply State.inventoryStart_kept hd
  assumption

theorem execInventoryPhaseDone_kept (hd : DevFree P) (hm : MemFree P) (hl : LedgerFree P) {s : State} (hs : P s) (outcome : PhaseOutcome) :
    ∀ t, execInventoryPhaseDone outcome s = .next t → P t := by
  intro t e
  obtain rfl := Host.Outcome.next.inj e
  split
  · assumption
  · extract_lets v1 s2
    have h3 : P s2 := by
      dsimp -zeta only [s2]
      apply State.testPhase_kept hd hm hl
      assumption
    clear_value v1 s2
    split
    · apply State.withDev_kept hd
      assumption
    · apply State.withDev_kept hd
      assumption

/-! ## Power -/

theorem State.scanReset_kept (hd : DevFree P) (hm : MemFree P) {s : State} (hs : P s) (i : Nat) :
    P (s.scanReset i) := by
  unfold State.scanReset
  extract_lets s1
  have h2 : P s1 := by
    dsimp -zeta only [s1]
    apply State.domainEmptied_kept hd hm
    assumption
  clear_value s1
  split
  · split
    · apply State.pllTo_kept hd hm
      assumption
    · assumption
  · assumption

theorem State.endUnlock_kept (hd : DevFree P) (hm : MemFree P) {s : State} (hs : P s) :
    P (s.endUnlock) := by
  unfold State.endUnlock
  apply State.withDev_kept hd
  refine foldl_kept (fun s1 h2 a3 => ?_) ?_ _
  · apply State.scanReset_kept hd hm
    assumption
  · assumption

theorem State.haltLinks_kept (hd : DevFree P) (hm : MemFree P) {s : State} (hs : P s) :
    P (s.haltLinks) := by
  unfold State.haltLinks
  refine foldl_kept (fun s1 h2 a3 => ?_) ?_ _
  · apply State.toHalted_kept hd hm
    assumption
  · assumption

theorem State.startHalted_kept (hd : DevFree P) (hm : MemFree P) {s : State} (hs : P s) :
    P (s.startHalted) := by
  unfold State.startHalted
  refine foldl_kept (fun s1 h2 a3 => ?_) ?_ _
  · split
    · apply State.startLink_kept hd hm
      assumption
    · assumption
  · assumption

theorem State.closeBegin_kept (hd : DevFree P) (hm : MemFree P) {s : State} (hs : P s) :
    P (s.closeBegin) := by
  unfold State.closeBegin
  split
  · extract_lets s1
    have h2 : P s1 := by
      dsimp -zeta only [s1]
      refine dev_kept hd ?_ _
      assumption
    clear_value s1
    apply State.endUnlock_kept hd hm
    apply State.withDev_kept hd
    apply State.allAsleep_kept hd hm
    apply State.haltLinks_kept hd hm
    assumption

theorem State.powerCarry_kept (hd : DevFree P) (hm : MemFree P) {s : State} (hs : P s) (r : PowerReq) :
    P (s.powerCarry r) := by
  unfold State.powerCarry
  split
  · split
    · apply State.withDev_kept hd
      assumption
    · split
      · apply State.withDev_kept hd
        assumption
      · apply State.closeBegin_kept hd hm
        assumption
  · extract_lets v1
    clear_value v1
    split
    · apply State.withDev_kept hd
      assumption
    · split
      · apply State.withDev_kept hd
        assumption
      · split
        · split
          · assumption
          · apply State.gateDrain_kept hd hm
            assumption
        · apply State.wakeStart_kept hd
          assumption

theorem State.powerBegin_kept (hd : DevFree P) (hm : MemFree P) {s : State} (hs : P s) (r : PowerReq) :
    P (s.powerBegin r) := by
  unfold State.powerBegin
  apply State.powerCarry_kept hd hm
  apply State.withDev_kept hd
  assumption

theorem State.powerPump_kept (hd : DevFree P) (hm : MemFree P) {s : State} (hs : P s) :
    P (s.powerPump) := by
  unfold State.powerPump
  split
  · split
    · apply State.powerCarry_kept hd hm
      assumption
    · assumption
  · split
    · split
      · apply State.powerBegin_kept hd hm
        apply State.withDev_kept hd
        assumption
      · assumption
    · assumption

theorem State.powerGo_kept (hd : DevFree P) (hm : MemFree P) {s : State} (hs : P s) (op : Nat) (i : Nat) :
    P (s.powerGo op i) := by
  unfold State.powerGo
  extract_lets s1 v2 v3 v4 s5 v6 s7
  have h8 : P s1 := by
    dsimp -zeta only [s1]
    apply State.withDev_kept hd
    assumption
  have h9 : P s5 := by
    dsimp -zeta only [s5]
    apply State.withDev_kept hd
    assumption
  have h10 : P s7 := by
    dsimp -zeta only [s7]
    apply State.withDev_kept hd
    assumption
  clear_value s1 v2 v3 v4 s5 v6 s7
  split
  · apply State.withDev_kept hd
    assumption
  · split
    · apply State.withDev_kept hd
      assumption
    · split
      · apply State.powerPump_kept hd hm
        apply State.powerBegin_kept hd hm
        assumption
      · apply State.powerPump_kept hd hm
        apply State.withDev_kept hd
        assumption

theorem execPowerGate_kept (hd : DevFree P) (hm : MemFree P) {s : State} (hs : P s) (domain : BitVec 8) :
    ∀ t, execPowerGate domain s = .next t → P t := by
  intro t e
  obtain rfl := Host.Outcome.next.inj e
  apply State.powerGo_kept hd hm
  assumption

theorem execPowerWake_kept (hd : DevFree P) (hm : MemFree P) {s : State} (hs : P s) (domain : BitVec 8) :
    ∀ t, execPowerWake domain s = .next t → P t := by
  intro t e
  obtain rfl := Host.Outcome.next.inj e
  apply State.powerGo_kept hd hm
  assumption

theorem execPowerClose_kept (hd : DevFree P) (hm : MemFree P) {s : State} (hs : P s) :
    ∀ t, execPowerClose s = .next t → P t := by
  intro t e
  obtain rfl := Host.Outcome.next.inj e
  apply State.powerGo_kept hd hm
  assumption

theorem execPowerOpInvalid_kept (hd : DevFree P) (hm : MemFree P) {s : State} (hs : P s) (domain : BitVec 8) :
    ∀ t, execPowerOpInvalid domain s = .next t → P t := by
  intro t e
  obtain rfl := Host.Outcome.next.inj e
  apply State.powerGo_kept hd hm
  assumption

theorem State.powerReached_kept (hd : DevFree P) (hm : MemFree P) {s : State} (hs : P s) (op : Nat) (i : Nat) :
    P (s.powerReached op i) := by
  unfold State.powerReached
  split
  · apply State.powerPump_kept hd hm
    apply State.withDev_kept hd
    assumption
  · assumption

theorem execDomainDrainComplete_kept (hd : DevFree P) (hm : MemFree P) {s : State} (hs : P s) (domain : Fin 248) :
    ∀ t, execDomainDrainComplete domain s = .next t → P t := by
  intro t e
  obtain rfl := Host.Outcome.next.inj e
  extract_lets s1
  have h2 : P s1 := by
    dsimp -zeta only [s1]
    apply State.domainDrained_kept hd hm
    assumption
  clear_value s1
  split
  · apply State.powerReached_kept hd hm
    assumption
  · assumption

theorem execDomainSupplyGood_kept (hd : DevFree P) (hm : MemFree P) {s : State} (hs : P s) (domain : Fin 248) :
    ∀ t, execDomainSupplyGood domain s = .next t → P t := by
  intro t e
  obtain rfl := Host.Outcome.next.inj e
  apply State.supplyGood_kept hd hm
  assumption

theorem execDomainWakeCheckDone_kept (hd : DevFree P) (hm : MemFree P) {s : State} (hs : P s) (domain : Fin 248) (pass : Bool) :
    ∀ t, execDomainWakeCheckDone domain pass s = .next t → P t := by
  intro t e
  obtain rfl := Host.Outcome.next.inj e
  split
  · assumption
  · apply State.powerReached_kept hd hm
    apply State.wakeChecked_kept hd hm
    assumption

theorem State.markClean_kept (hd : DevFree P) (hl : LedgerFree P) {s : State} (hs : P s) :
    P (s.markClean) := by
  unfold State.markClean
  split
  · assumption
  · extract_lets v1
    clear_value v1
    refine ledger_kept hl ?_ _
    assumption

theorem execCloseCommit_kept (hd : DevFree P) (hm : MemFree P) (hl : LedgerFree P) {s : State} (hs : P s) :
    ∀ t, execCloseCommit s = .next t → P t := by
  intro t e
  obtain rfl := Host.Outcome.next.inj e
  split
  · assumption
  · extract_lets s1 v2 v3
    have h4 : P s1 := by
      dsimp -zeta only [s1]
      apply State.markClean_kept hd hl
      assumption
    clear_value s1 v2 v3
    refine empty_kept hd hm ?_ _
    assumption

theorem State.closedNow_kept (hd : DevFree P) (hm : MemFree P) (hr : ResetFree P) {s : State} (hs : P s) (record : Nat) (thermal : Bool) :
    P (s.closedNow record thermal) := by
  unfold State.closedNow
  extract_lets v1 v2 v3
  clear_value v1 v2 v3
  refine reset_kept hd hm hr ?_ _
  assumption

theorem execClosedReached_kept (hd : DevFree P) (hm : MemFree P) (hr : ResetFree P) {s : State} (hs : P s) :
    ∀ t, execClosedReached s = .next t → P t := by
  intro t e
  obtain rfl := Host.Outcome.next.inj e
  split
  · apply State.closedNow_kept hd hm hr
    assumption
  · split
    · apply State.closedNow_kept hd hm hr
      assumption
    · assumption

theorem State.closeAbandon_kept (hd : DevFree P) (hm : MemFree P) {s : State} (hs : P s) :
    P (s.closeAbandon) := by
  unfold State.closeAbandon
  extract_lets s1 s2
  have h3 : P s1 := by
    dsimp -zeta only [s1]
    apply State.withDev_kept hd
    assumption
  have h4 : P s2 := by
    dsimp -zeta only [s2]
    split
    · assumption
    · apply State.startHalted_kept hd hm
      apply State.withDev_kept hd
      assumption
  clear_value s1 s2
  apply State.powerPump_kept hd hm
  apply State.withDev_kept hd
  assumption

theorem State.wake_kept (hd : DevFree P) (hm : MemFree P) {s : State} (hs : P s) (cause : Nat) (source : Nat) :
    P (s.wake cause source) := by
  unfold State.wake
  extract_lets v1
  clear_value v1
  split
  · assumption
  · split
    · split
      · assumption
      · apply State.withDev_kept hd
        assumption
    · split
      · apply State.withDev_kept hd
        assumption
      · split
        · apply State.closeAbandon_kept hd hm
          assumption
        · apply State.withDev_kept hd
          assumption

theorem State.wakeResample_kept (hd : DevFree P) (hm : MemFree P) {s : State} (hs : P s) (old : Dev) :
    P (s.wakeResample old) := by
  unfold State.wakeResample
  extract_lets s1
  have h2 : P s1 := by
    dsimp -zeta only [s1]
    refine foldl_kept (fun s3 h4 a5 => ?_) ?_ _
    · split
      · apply State.wake_kept hd hm
        assumption
      · assumption
    · assumption
  clear_value s1
  refine foldl_kept (fun s6 h7 a8 => ?_) ?_ _
  · split
    · apply State.wake_kept hd hm
      assumption
    · assumption
  · assumption

theorem execWakePin_kept (hd : DevFree P) (hm : MemFree P) {s : State} (hs : P s) (pin : Fin 4) (level : Bool) :
    ∀ t, execWakePin pin level s = .next t → P t := by
  intro t e
  obtain rfl := Host.Outcome.next.inj e
  split
  · assumption
  · extract_lets s1
    have h2 : P s1 := by
      dsimp -zeta only [s1]
      apply State.withDev_kept hd
      assumption
    clear_value s1
    split
    · apply State.wake_kept hd hm
      assumption
    · assumption

theorem execLinkWake_kept (hd : DevFree P) (hm : MemFree P) {s : State} (hs : P s) (port : Fin 4) (signal : Bool) :
    ∀ t, execLinkWake port signal s = .next t → P t := by
  intro t e
  obtain rfl := Host.Outcome.next.inj e
  split
  · assumption
  · extract_lets s1
    have h2 : P s1 := by
      dsimp -zeta only [s1]
      apply State.withDev_kept hd
      assumption
    clear_value s1
    split
    · apply State.wake_kept hd hm
      assumption
    · assumption

/-! ## Reactions -/

theorem State.safeEnter_kept (hd : DevFree P) (hm : MemFree P) {s : State} (hs : P s) :
    P (s.safeEnter) := by
  unfold State.safeEnter
  split
  · assumption
  · split
    · extract_lets v1 s2
      have h3 : P s2 := by
        dsimp -zeta only [s2]
        apply State.allAsleep_kept hd hm
        apply State.haltLinks_kept hd hm
        apply State.endUnlock_kept hd hm
        refine dev_kept hd ?_ _
        assumption
      clear_value v1 s2
      apply State.withDev_kept hd
      assumption

theorem State.goOn_kept (hd : DevFree P) (hm : MemFree P) {s : State} (hs : P s) :
    P (s.goOn) := by
  unfold State.goOn
  extract_lets s1 s2 s3 s4 s5 s6 s7
  have h8 : P s1 := by
    dsimp -zeta only [s1]
    apply State.withDev_kept hd
    assumption
  have h9 : P s2 := by
    dsimp -zeta only [s2]
    apply State.withDev_kept hd
    assumption
  have h10 : P s3 := by
    dsimp -zeta only [s3]
    apply State.withDev_kept hd
    assumption
  have h11 : P s4 := by
    dsimp -zeta only [s4]
    refine foldl_kept (fun s12 h13 a14 => ?_) ?_ _
    · apply State.pumpMerge_kept hd hm
      assumption
    · assumption
  have h15 : P s5 := by
    dsimp -zeta only [s5]
    apply State.pumpFlush_kept hd hm
    assumption
  have h16 : P s6 := by
    dsimp -zeta only [s6]
    split
    · apply State.disableStep_kept hd hm
      assumption
    · assumption
  have h17 : P s7 := by
    dsimp -zeta only [s7]
    apply State.releaseAll_kept hd hm
    assumption
  clear_value s1 s2 s3 s4 s5 s6 s7
  apply State.catRetry_kept hd hm
  apply State.pumpJobs_kept hd hm
  assumption

theorem State.safeExit_kept (hd : DevFree P) (hm : MemFree P) {s : State} (hs : P s) :
    P (s.safeExit) := by
  unfold State.safeExit
  split
  · assumption
  · extract_lets s1
    have h2 : P s1 := by
      dsimp -zeta only [s1]
      apply State.withDev_kept hd
      assumption
    clear_value s1
    split
    · assumption
    · apply State.powerPump_kept hd hm
      apply State.startHalted_kept hd hm
      apply State.goOn_kept hd hm
      apply State.withDev_kept hd
      assumption

theorem State.containPort_kept (hd : DevFree P) (hm : MemFree P) {s : State} (hs : P s) (p : Nat) :
    P (s.containPort p) := by
  unfold State.containPort
  apply State.withDev_kept hd
  refine foldl_kept (fun s1 h2 a3 => ?_) ?_ _
  · apply State.toDisabled_kept hd hm
    assumption
  · assumption

theorem State.containBayNow_kept (hd : DevFree P) (hm : MemFree P) {s : State} (hs : P s) (b : Nat) (lost : List Nat) :
    P (s.containBayNow b lost) := by
  unfold State.containBayNow
  extract_lets s1 v2
  have h3 : P s1 := by
    dsimp -zeta only [s1]
    apply State.contain_kept hd hm
    assumption
  clear_value s1 v2
  split
  · assumption
  · split
    · split
      · refine dev_kept hd ?_ _
        assumption
    · apply State.wakeStart_kept hd
      assumption

theorem State.containRegistrar_kept (hd : DevFree P) (hm : MemFree P) {s : State} (hs : P s) (i : Nat) :
    P (s.containRegistrar i) := by
  unfold State.containRegistrar
  split
  · apply State.withDev_kept hd
    assumption
  · apply State.domainEmptied_kept hd hm
    apply State.withDev_kept hd
    assumption

theorem State.containConcourse_kept (hd : DevFree P) (hm : MemFree P) {s : State} (hs : P s) (c : Nat) :
    P (s.containConcourse c) := by
  unfold State.containConcourse
  apply State.containGate_kept hd hm
  refine foldl_kept (fun s1 h2 a3 => ?_) ?_ _
  · apply State.containPort_kept hd hm
    assumption
  · assumption

theorem State.containDomain_kept (hd : DevFree P) (hm : MemFree P) {s : State} (hs : P s) (i : Nat) :
    P (s.containDomain i) := by
  unfold State.containDomain
  split
  · apply State.containGate_kept hd hm
    apply State.containPort_kept hd hm
    assumption
  · split
    · apply State.containGate_kept hd hm
      apply State.containBayNow_kept hd hm
      assumption
    · split
      · apply State.containConcourse_kept hd hm
        assumption
      · split
        · apply State.containRegistrar_kept hd hm
          assumption
        · split
          · apply State.containGate_kept hd hm
            assumption
          · assumption

theorem State.containSource_kept (hd : DevFree P) (hm : MemFree P) {s : State} (hs : P s) (source : Nat) (lost : List Nat) :
    P (s.containSource source lost) := by
  unfold State.containSource
  extract_lets v1
  clear_value v1
  split
  · apply State.containRegistrar_kept hd hm
    assumption
  · apply State.containPort_kept hd hm
    assumption
  · apply State.toDetect_kept hd hm
    assumption
  · apply State.containConcourse_kept hd hm
    assumption
  · split
    · apply State.containGate_kept hd hm
      assumption
    · split
      · apply State.containGate_kept hd hm
        assumption
      · split
        · apply State.containGate_kept hd hm
          assumption
        · apply State.withDev_kept hd
          assumption
  · apply State.containBayNow_kept hd hm
    assumption
  · apply State.spareAuto_kept hd hm
    apply State.withDev_kept hd
    assumption
  · apply State.containDomain_kept hd hm
    assumption

theorem State.containFault_kept (hd : DevFree P) (hm : MemFree P) {s : State} (hs : P s) (f : RaisedFault) (lost : List Nat) :
    P (s.containFault f lost) := by
  unfold State.containFault
  split
  · apply State.withDev_kept hd
    assumption
  · split
    · apply State.withDev_kept hd
      assumption
    · apply State.withDev_kept hd
      assumption
    · apply State.withDev_kept hd
      assumption
    · apply State.containSource_kept hd hm
      assumption

theorem State.classify_kept (hd : DevFree P) (hm : MemFree P) {s : State} (hs : P s) (f : RaisedFault) (lost : List Nat) :
    P (s.classify f lost) := by
  unfold State.classify
  extract_lets v1 s2 s3
  have h4 : P s2 := by
    dsimp -zeta only [s2]
    apply State.withDev_kept hd
    assumption
  have h5 : P s3 := by
    dsimp -zeta only [s3]
    split
    · apply State.containFault_kept hd hm
      assumption
    · assumption
  clear_value v1 s2 s3
  split
  · apply State.safeEnter_kept hd hm
    assumption
  · assumption

theorem State.faultEvent_kept (hd : DevFree P) (hm : MemFree P) {s : State} (hs : P s) (f : RaisedFault) (lost : List Nat) :
    P (s.faultEvent f lost) := by
  unfold State.faultEvent
  split
  · apply State.withDev_kept hd
    assumption
  · split
    · extract_lets s1
      have h2 : P s1 := by
        dsimp -zeta only [s1]
        refine dev_kept hd ?_ _
        assumption
      clear_value s1
      split
      · apply State.classify_kept hd hm
        assumption
      · assumption

theorem State.takeRaised_kept (hd : DevFree P) (hm : MemFree P) {s : State} (hs : P s) :
    P (s.takeRaised) := by
  unfold State.takeRaised
  split
  · assumption
  · split
    · assumption
    · apply State.faultEvent_kept hd hm
      refine dev_kept hd ?_ _
      assumption

theorem execFaultEvent_kept (hd : DevFree P) (hm : MemFree P) {s : State} (hs : P s) (type : BitVec 8) (source : BitVec 12) (detail : BitVec 64) (lost : List Nat) :
    ∀ t, execFaultEvent type source detail lost s = .next t → P t := by
  intro t e
  obtain rfl := Host.Outcome.next.inj e
  extract_lets v1 v2
  clear_value v1 v2
  split
  · split
    · assumption
    · apply State.faultEvent_kept hd hm
      refine dev_kept hd ?_ _
      assumption
  · split
    · apply State.withDev_kept hd
      assumption
    · apply State.faultEvent_kept hd hm
      assumption

theorem execHandshakeStall_kept (hd : DevFree P) (hm : MemFree P) {s : State} (hs : P s) (channel : StallChannel) (lost : List Nat) :
    ∀ t, execHandshakeStall channel lost s = .next t → P t := by
  intro t e
  obtain rfl := Host.Outcome.next.inj e
  extract_lets v1 v2
  clear_value v1 v2
  split
  · apply State.withDev_kept hd
    assumption
  · apply State.faultEvent_kept hd hm
    assumption

theorem execTickColumnFault_kept (hd : DevFree P) (hm : MemFree P) {s : State} (hs : P s) (die : Fin 18) (column : Fin 3) :
    ∀ t, execTickColumnFault die column s = .next t → P t := by
  intro t e
  obtain rfl := Host.Outcome.next.inj e
  extract_lets v1 v2 s3
  have h4 : P s3 := by
    dsimp -zeta only [s3]
    apply State.withDev_kept hd
    assumption
  clear_value v1 v2 s3
  split
  · apply State.safeEnter_kept hd hm
    assumption
  · assumption

theorem execFaultClear_kept (hd : DevFree P) {s : State} (hs : P s) (seq : Word) :
    ∀ t, execFaultClear seq s = .next t → P t := by
  intro t e
  obtain rfl := Host.Outcome.next.inj e
  refine dev_kept hd ?_ _
  assumption

theorem execFaultOverflowClear_kept (hd : DevFree P) {s : State} (hs : P s) :
    ∀ t, execFaultOverflowClear s = .next t → P t := by
  intro t e
  obtain rfl := Host.Outcome.next.inj e
  refine dev_kept hd ?_ _
  assumption

theorem execEventLogBatch_kept (hd : DevFree P) {s : State} (hs : P s) :
    ∀ t, execEventLogBatch s = .next t → P t := by
  intro t e
  obtain rfl := Host.Outcome.next.inj e
  refine dev_kept hd ?_ _
  assumption

theorem State.safeOrder_kept (hd : DevFree P) (hm : MemFree P) {s : State} (hs : P s) :
    P (s.safeOrder) := by
  unfold State.safeOrder
  extract_lets v1
  clear_value v1
  split
  · apply State.faultEvent_kept hd hm
    assumption
  · apply State.classify_kept hd hm
    assumption

theorem execSafeEnter_kept (hd : DevFree P) (hm : MemFree P) {s : State} (hs : P s) :
    ∀ t, execSafeEnter s = .next t → P t := by
  intro t e
  obtain rfl := Host.Outcome.next.inj e
  apply State.safeOrder_kept hd hm
  assumption

theorem State.safeResume_kept (hd : DevFree P) (hm : MemFree P) {s : State} (hs : P s) :
    P (s.safeResume) := by
  unfold State.safeResume
  split
  · extract_lets s1
    have h2 : P s1 := by
      dsimp -zeta only [s1]
      refine dev_kept hd ?_ _
      assumption
    clear_value s1
    split
    · apply State.safeExit_kept hd hm
      assumption
    · assumption

theorem execSafeResume_kept (hd : DevFree P) (hm : MemFree P) {s : State} (hs : P s) :
    ∀ t, execSafeResume s = .next t → P t := by
  intro t e
  obtain rfl := Host.Outcome.next.inj e
  apply State.safeResume_kept hd hm
  assumption

theorem execDevRegSwap_kept (hd : DevFree P) {s : State} (hs : P s) :
    ∀ t, execDevRegSwap s = .next t → P t := by
  intro t e
  obtain rfl := Host.Outcome.next.inj e
  refine dev_kept hd ?_ _
  assumption

theorem execStandbySelfTestDone_kept (hd : DevFree P) (hm : MemFree P) {s : State} (hs : P s) (pass : Bool) :
    ∀ t, execStandbySelfTestDone pass s = .next t → P t := by
  intro t e
  obtain rfl := Host.Outcome.next.inj e
  split
  · assumption
  · extract_lets s1
    have h2 : P s1 := by
      dsimp -zeta only [s1]
      apply State.withDev_kept hd
      assumption
    clear_value s1
    split
    · apply State.withDev_kept hd
      assumption
    · apply State.containRegistrar_kept hd hm
      assumption

/-! ## Supply -/

theorem State.powerLost_kept (hd : DevFree P) (hm : MemFree P) (hr : ResetFree P) {s : State} (hs : P s) :
    P (s.powerLost) := by
  unfold State.powerLost
  refine reset_kept hd hm hr ?_ _
  assumption

theorem State.coldReset_kept (hd : DevFree P) (hm : MemFree P) (hr : ResetFree P) {s : State} (hs : P s) (pow : PowerSt) :
    P (s.coldReset pow) := by
  unfold State.coldReset
  extract_lets v1 v2 s3
  have h4 : P s3 := by
    dsimp -zeta only [s3]
    apply State.powerLost_kept hd hm hr
    assumption
  clear_value v1 v2 s3
  apply State.withDev_kept hd
  assumption

theorem State.restart_kept (hd : DevFree P) (hm : MemFree P) (hr : ResetFree P) {s : State} (hs : P s) :
    P (s.restart) := by
  unfold State.restart
  apply State.coldReset_kept hd hm hr
  assumption

theorem execResetPin_kept (hd : DevFree P) (hm : MemFree P) (hr : ResetFree P) {s : State} (hs : P s) :
    ∀ t, execResetPin s = .next t → P t := by
  intro t e
  obtain rfl := Host.Outcome.next.inj e
  extract_lets v1
  clear_value v1
  split
  · apply State.withDev_kept hd
    assumption
  · apply State.coldReset_kept hd hm hr
    assumption

theorem State.railCrossing_kept (hd : DevFree P) (hm : MemFree P) (hl : LedgerFree P) (hr : ResetFree P) {s : State} (hs : P s) (r : Nat) (mv : Nat) :
    P (s.railCrossing r mv) := by
  unfold State.railCrossing
  extract_lets v1 v2 v3 v4 v5 v6 v7 v8 v9 v10 v11 v12 s13 s14
  have h15 : P s13 := by
    dsimp -zeta only [s13]
    refine dev_kept hd ?_ _
    assumption
  have h16 : P s14 := by
    dsimp -zeta only [s14]
    split
    · refine ledger_kept hl ?_ _
      assumption
    · assumption
  clear_value v1 v2 v3 v4 v5 v6 v7 v8 v9 v10 v11 v12 s13 s14
  split
  · assumption
  · split
    · apply State.powerLost_kept hd hm hr
      assumption
    · split
      · assumption
      · split
        · refine dev_kept hd ?_ _
          assumption
        · split
          · apply State.restart_kept hd hm hr
            assumption
          · assumption

theorem execRailCrossing_kept (hd : DevFree P) (hm : MemFree P) (hl : LedgerFree P) (hr : ResetFree P) {s : State} (hs : P s) (rail : Fin 7) (mv : BitVec 12) :
    ∀ t, execRailCrossing rail mv s = .next t → P t := by
  intro t e
  obtain rfl := Host.Outcome.next.inj e
  apply State.railCrossing_kept hd hm hl hr
  assumption

theorem execPgoodLost_kept (hd : DevFree P) (hm : MemFree P) (hr : ResetFree P) {s : State} (hs : P s) :
    ∀ t, execPgoodLost s = .next t → P t := by
  intro t e
  obtain rfl := Host.Outcome.next.inj e
  extract_lets s1
  have h2 : P s1 := by
    dsimp -zeta only [s1]
    apply State.withDev_kept hd
    assumption
  clear_value s1
  split
  · assumption
  · split
    · apply State.restart_kept hd hm hr
      assumption
    · apply State.withDev_kept hd
      assumption

theorem execSafeN_kept (hd : DevFree P) {s : State} (hs : P s) (chatter : Bool) :
    ∀ t, execSafeN chatter s = .next t → P t := by
  intro t e
  obtain rfl := Host.Outcome.next.inj e
  refine dev_kept hd ?_ _
  assumption

theorem execSafeNRelease_kept (hd : DevFree P) {s : State} (hs : P s) :
    ∀ t, execSafeNRelease s = .next t → P t := by
  intro t e
  obtain rfl := Host.Outcome.next.inj e
  refine dev_kept hd ?_ _
  assumption

theorem execSafeNHighTimer_kept (hd : DevFree P) {s : State} (hs : P s) :
    ∀ t, execSafeNHighTimer s = .next t → P t := by
  intro t e
  obtain rfl := Host.Outcome.next.inj e
  refine dev_kept hd ?_ _
  assumption

theorem execFootReset_kept (hd : DevFree P) {s : State} (hs : P s) :
    ∀ t, execFootReset s = .next t → P t := by
  intro t e
  obtain rfl := Host.Outcome.next.inj e
  refine dev_kept hd ?_ _
  assumption

theorem execFootResetEnd_kept (hd : DevFree P) (hm : MemFree P) {s : State} (hs : P s) (pins : BitVec 4) (link : BitVec 4) :
    ∀ t, execFootResetEnd pins link s = .next t → P t := by
  intro t e
  obtain rfl := Host.Outcome.next.inj e
  split
  · assumption
  · extract_lets v1 s2
    have h3 : P s2 := by
      dsimp -zeta only [s2]
      apply State.withDev_kept hd
      assumption
    clear_value v1 s2
    apply State.wakeResample_kept hd hm
    assumption

/-! ## Thermal -/

theorem State.trip_kept (hd : DevFree P) (hm : MemFree P) {s : State} (hs : P s) (z : Nat) (sensor : Nat) (t : Int) :
    P (s.trip z sensor t) := by
  unfold State.trip
  extract_lets v1 s2 v3
  have h4 : P s2 := by
    dsimp -zeta only [s2]
    apply State.withDev_kept hd
    assumption
  clear_value v1 s2 v3
  split
  · assumption
  · split
    · split
      · assumption
      · apply State.withDev_kept hd
        assumption
    · apply State.safeEnter_kept hd hm
      apply State.classify_kept hd hm
      assumption

theorem State.zoneTrips_kept (hd : DevFree P) (hm : MemFree P) {s : State} (hs : P s) (z : Nat) :
    P (s.zoneTrips z) := by
  unfold State.zoneTrips
  extract_lets s1
  have h2 : P s1 := by
    dsimp -zeta only [s1]
    refine foldl_kept (fun s3 h4 a5 => ?_) ?_ _
    · split
      · apply State.trip_kept hd hm
        assumption
      · assumption
    · assumption
  clear_value s1
  split
  · assumption
  · apply State.trip_kept hd hm
    assumption

theorem State.markSuspect_kept (hd : DevFree P) (hm : MemFree P) {s : State} (hs : P s) (l : Nat) (cause : Nat) :
    P (s.markSuspect l cause) := by
  unfold State.markSuspect
  split
  · assumption
  · extract_lets s1
    have h2 : P s1 := by
      dsimp -zeta only [s1]
      apply State.withDev_kept hd
      assumption
    clear_value s1
    split
    · split
      · apply State.withDev_kept hd
        assumption
      · apply State.withDev_kept hd
        assumption
    · split
      · apply State.spareAuto_kept hd hm
        apply State.withDev_kept hd
        assumption
      · assumption

theorem execThermClear_kept (hd : DevFree P) {s : State} (hs : P s) (level : Fin 17) :
    ∀ t, execThermClear level s = .next t → P t := by
  intro t e
  obtain rfl := Host.Outcome.next.inj e
  refine dev_kept hd ?_ _
  assumption

theorem State.sampleZones_kept (hd : DevFree P) (hm : MemFree P) {s : State} (hs : P s) (zones : List Nat) (readings : List SensorReading) (outliers : Dev → Nat → Option (Option Int)) :
    P (s.sampleZones zones readings outliers) := by
  unfold State.sampleZones
  extract_lets v1 s2 s3
  have h4 : P s2 := by
    dsimp -zeta only [s2]
    apply State.withDev_kept hd
    assumption
  have h5 : P s3 := by
    dsimp -zeta only [s3]
    apply State.withDev_kept hd
    assumption
  clear_value v1 s2 s3
  refine foldl_kept (fun s6 h7 a8 => ?_) ?_ _
  · apply State.zoneTrips_kept hd hm
    assumption
  · assumption

theorem execCrownSensorSample_kept (hd : DevFree P) (hm : MemFree P) {s : State} (hs : P s) (readings : List SensorReading) :
    ∀ t, execCrownSensorSample readings s = .next t → P t := by
  intro t e
  obtain rfl := Host.Outcome.next.inj e
  apply State.sampleZones_kept hd hm
  assumption

theorem execFootSensorSample_kept (hd : DevFree P) (hm : MemFree P) {s : State} (hs : P s) (readings : List SensorReading) :
    ∀ t, execFootSensorSample readings s = .next t → P t := by
  intro t e
  obtain rfl := Host.Outcome.next.inj e
  split
  · assumption
  · apply State.sampleZones_kept hd hm
    assumption

theorem State.levelSample_kept (hd : DevFree P) (hm : MemFree P) {s : State} (hs : P s) (l : Nat) (readings : List SensorReading) :
    P (s.levelSample l readings) := by
  unfold State.levelSample
  extract_lets s1 s2
  have h3 : P s1 := by
    dsimp -zeta only [s1]
    apply State.sampleZones_kept hd hm
    assumption
  have h4 : P s2 := by
    dsimp -zeta only [s2]
    split
    · apply State.markSuspect_kept hd hm
      assumption
    · assumption
  clear_value s1 s2
  apply State.withDev_kept hd
  assumption

theorem execLevelSensorSample_kept (hd : DevFree P) (hm : MemFree P) {s : State} (hs : P s) (level : Fin 17) (readings : List SensorReading) :
    ∀ t, execLevelSensorSample level readings s = .next t → P t := by
  intro t e
  obtain rfl := Host.Outcome.next.inj e
  split
  · assumption
  · apply State.levelSample_kept hd hm
    assumption

theorem State.levelReopened_kept (hd : DevFree P) (hm : MemFree P) {s : State} (hs : P s) (level : Nat) :
    P (s.levelReopened level) := by
  unfold State.levelReopened
  extract_lets s1
  have h2 : P s1 := by
    dsimp -zeta only [s1]
    refine foldl_kept (fun s3 h4 a5 => ?_) ?_ _
    · apply State.pumpMerge_kept hd hm
      apply State.withDev_kept hd
      assumption
    · assumption
  clear_value s1
  apply State.releaseAll_kept hd hm
  apply State.pumpFlush_kept hd hm
  assumption

theorem execStewardResetDone_kept (hd : DevFree P) (hm : MemFree P) {s : State} (hs : P s) (level : Fin 17) (readings : List SensorReading) :
    ∀ t, execStewardResetDone level readings s = .next t → P t := by
  intro t e
  obtain rfl := Host.Outcome.next.inj e
  split
  · assumption
  · apply State.levelReopened_kept hd hm
    apply State.withDev_kept hd
    apply State.levelSample_kept hd hm
    assumption

theorem State.witnessCompare_kept (hd : DevFree P) (hm : MemFree P) {s : State} (hs : P s) (l : Nat) :
    P (s.witnessCompare l) := by
  unfold State.witnessCompare
  split
  · extract_lets v1 s2
    have h3 : P s2 := by
      dsimp -zeta only [s2]
      apply State.withDev_kept hd
      assumption
    clear_value v1 s2
    split
    · apply State.markSuspect_kept hd hm
      assumption
    · assumption
  · assumption

theorem execHygroSample_kept (hd : DevFree P) (hm : MemFree P) {s : State} (hs : P s) (level : Fin 17) (quadrant : Fin 4) (fails : Nat) :
    ∀ t, execHygroSample level quadrant fails s = .next t → P t := by
  intro t e
  obtain rfl := Host.Outcome.next.inj e
  split
  · assumption
  · extract_lets v1 v2
    clear_value v1
    split
    · apply State.withDev_kept hd
      assumption
    · split
      · extract_lets s3 s4 s5
        have h6 : P s3 := by
          dsimp -zeta only [s3]
          apply State.withDev_kept hd
          assumption
        have h7 : P s4 := by
          dsimp -zeta only [s4]
          apply State.witnessCompare_kept hd hm
          assumption
        have h8 : P s5 := by
          dsimp -zeta only [s5]
          apply State.withDev_kept hd
          assumption
        clear_value s3 s4 s5
        split
        · split
          · apply State.trip_kept hd hm
            assumption
          · assumption
        · assumption

theorem State.modelLevel_kept (hd : DevFree P) (hm : MemFree P) {s : State} (hs : P s) (l : Nat) (heat : Nat) :
    P (s.modelLevel l heat) := by
  unfold State.modelLevel
  split
  · assumption
  · extract_lets v1 v2 v3 v4 v5 s6 s7 s8 v9
    have h10 : P s6 := by
      dsimp -zeta only [s6]
      apply State.withDev_kept hd
      assumption
    have h11 : P s7 := by
      dsimp -zeta only [s7]
      split
      · apply State.markSuspect_kept hd hm
        assumption
      · assumption
    have h12 : P s8 := by
      dsimp -zeta only [s8]
      apply State.withDev_kept hd
      assumption
    clear_value v1 v2 v3 v4 v5 s6 s7 s8 v9
    split
    · apply State.trip_kept hd hm
      assumption
    · assumption

theorem execStackModelEval_kept (hd : DevFree P) (hm : MemFree P) {s : State} (hs : P s) (power : List Nat) :
    ∀ t, execStackModelEval power s = .next t → P t := by
  intro t e
  obtain rfl := Host.Outcome.next.inj e
  apply State.withDev_kept hd
  refine foldl_kept (fun s1 h2 a3 => ?_) ?_ _
  · apply State.modelLevel_kept hd hm
    assumption
  · assumption

theorem execWitnessTimeout_kept (hd : DevFree P) (hm : MemFree P) {s : State} (hs : P s) (level : Fin 17) :
    ∀ t, execWitnessTimeout level s = .next t → P t := by
  intro t e
  obtain rfl := Host.Outcome.next.inj e
  extract_lets v1
  clear_value v1
  split
  · apply State.trip_kept hd hm
    assumption
  · assumption

end Sys2Proof.Machine
end

