-- ==== Sys2Proof/Laws/KeptStart.lean ====
section
/-!
SUPPORT. What a change of State keeps, for start, boundaries and register effects: a predicate P that
no change of the volatile state, of the stored lines, ... (as the hypotheses name them) can break holds after the operation.
One lemma per operation; it cites those of the operations it calls.
-/

namespace Sys2Proof.Machine

open Sys2Proof

variable {P : State → Prop}

/-! ## Start -/

theorem State.applyErrata_kept (hd : DevFree P) {s : State} (hs : P s) :
    P (s.applyErrata) := by
  unfold State.applyErrata
  extract_lets v1
  clear_value v1
  apply State.withDev_kept hd
  assumption

theorem State.startTwo_kept (hd : DevFree P) (hl : LedgerFree P) {s : State} (hs : P s) :
    P (s.startTwo) := by
  unfold State.startTwo
  extract_lets v1 v2 v3 v4 v5 v6 v7 v8 s9
  have h10 : P s9 := by
    dsimp -zeta only [s9]
    refine ledger_kept hl ?_ _
    assumption
  clear_value v1 v2 v3 v4 v5 v6 v7 v8 s9
  apply State.withDev_kept hd
  assumption

theorem State.startPorts_kept (hd : DevFree P) (hm : MemFree P) (hr : ResetFree P) {s : State} (hs : P s) :
    P (s.startPorts) := by
  unfold State.startPorts
  split
  · assumption
  · extract_lets s1 v2
    have h3 : P s1 := by
      dsimp -zeta only [s1]
      apply State.withDev_kept hd
      assumption
    clear_value s1 v2
    split
    · assumption
    · extract_lets v4 s5 v6 s7
      have h8 : P s5 := by
        dsimp -zeta only [s5]
        refine layout_kept hr ?_ _
        assumption
      have h9 : P s7 := by
        dsimp -zeta only [s7]
        refine foldl_kept (fun s10 h11 a12 => ?_) ?_ _
        · extract_lets v13
          clear_value v13
          apply State.portEnable_kept hd hm
          apply State.withDev_kept hd
          assumption
        · assumption
      clear_value v4 s5 v6 s7
      apply State.withDev_kept hd
      assumption

theorem State.phase_kept (hd : DevFree P) {s : State} (hs : P s) (n : Nat) :
    P (s.phase n) := by
  unfold State.phase
  apply State.withDev_kept hd
  assumption

theorem State.startRegistrars_kept (hd : DevFree P) (hm : MemFree P) {s : State} (hs : P s) (o : StartOutcome) :
    P (s.startRegistrars o) := by
  unfold State.startRegistrars
  extract_lets v1 s2 s3
  have h4 : P s2 := by
    dsimp -zeta only [s2]
    apply State.withDev_kept hd
    assumption
  have h5 : P s3 := by
    dsimp -zeta only [s3]
    refine foldl_kept (fun s6 h7 a8 => ?_) ?_ _
    · apply State.containRegistrar_kept hd hm
      assumption
    · assumption
  clear_value s2 s3
  split
  · apply State.withDev_kept hd
    assumption
  · apply State.phase_kept hd
    assumption

theorem State.startDomains_kept (hd : DevFree P) (hm : MemFree P) {s : State} (hs : P s) (o : StartOutcome) :
    P (s.startDomains o) := by
  unfold State.startDomains
  extract_lets v1 s2
  have h3 : P s2 := by
    dsimp -zeta only [s2]
    refine foldl_kept (fun s4 h5 a6 => ?_) ?_ _
    · split
      · assumption
      · extract_lets s7 s8
        have h9 : P s7 := by
          dsimp -zeta only [s7]
          apply State.withDev_kept hd
          assumption
        have h10 : P s8 := by
          dsimp -zeta only [s8]
          split
          · split
            · apply State.pllTo_kept hd hm
              assumption
            · assumption
          · assumption
        clear_value s7 s8
        split
        · apply State.domainEmptied_kept hd hm
          apply State.withDev_kept hd
          assumption
        · assumption
    · assumption
  clear_value v1 s2
  apply State.phase_kept hd
  apply State.withDev_kept hd
  assumption

theorem State.startErrata_kept (hd : DevFree P) (hm : MemFree P) (hr : ResetFree P) {s : State} (hs : P s) (o : StartOutcome) :
    P (s.startErrata o) := by
  unfold State.startErrata
  extract_lets s1 v2 s3 v4 v5 s6 s7
  have h8 : P s1 := by
    dsimp -zeta only [s1]
    apply State.applyErrata_kept hd
    assumption
  have h9 : P s3 := by
    dsimp -zeta only [s3]
    apply State.withDev_kept hd
    assumption
  have h10 : P s6 := by
    dsimp -zeta only [s6]
    apply State.withDev_kept hd
    assumption
  have h11 : P s7 := by
    dsimp -zeta only [s7]
    apply State.phase_kept hd
    assumption
  clear_value s1 v2 s3 v4 v5 s6 s7
  split
  · apply State.withDev_kept hd
    assumption
  · split
    · assumption
    · apply State.startPorts_kept hd hm hr
      assumption

theorem State.startTest_kept (hd : DevFree P) (hm : MemFree P) (hl : LedgerFree P) (hr : ResetFree P) {s : State} (hs : P s) (o : StartOutcome) :
    P (s.startTest o) := by
  unfold State.startTest
  extract_lets v1 v2 s3 s4
  have h5 : P s3 := by
    dsimp -zeta only [s3]
    apply State.withDev_kept hd
    apply State.testPhase_kept hd hm hl
    assumption
  have h6 : P s4 := by
    dsimp -zeta only [s4]
    split
    · apply State.startPorts_kept hd hm hr
      assumption
    · assumption
  clear_value v1 v2 s3 s4
  split
  · assumption
  · apply State.phase_kept hd
    apply State.withDev_kept hd
    assumption

theorem State.ready_kept (hd : DevFree P) (hm : MemFree P) {s : State} (hs : P s) :
    P (s.ready) := by
  unfold State.ready
  apply State.powerPump_kept hd hm
  apply State.withDev_kept hd
  apply State.phase_kept hd
  assumption

theorem execStartPhaseDone_kept (hd : DevFree P) (hm : MemFree P) (hl : LedgerFree P) (hr : ResetFree P) {s : State} (hs : P s) (outcome : StartOutcome) :
    ∀ t, execStartPhaseDone outcome s = .next t → P t := by
  intro t e
  obtain rfl := Host.Outcome.next.inj e
  split
  · assumption
  · split
    · apply State.phase_kept hd
      assumption
    · split
      · apply State.phase_kept hd
        apply State.startTwo_kept hd hl
        assumption
      · apply State.withDev_kept hd
        assumption
    · split
      · apply State.phase_kept hd
        assumption
      · assumption
    · apply State.startRegistrars_kept hd hm
      assumption
    · apply State.phase_kept hd
      assumption
    · split
      · assumption
      · apply State.phase_kept hd
        assumption
    · apply State.phase_kept hd
      apply State.withDev_kept hd
      assumption
    · apply State.startDomains_kept hd hm
      assumption
    · apply State.startErrata_kept hd hm hr
      assumption
    · split
      · apply State.startTest_kept hd hm hl hr
        assumption
      · apply State.phase_kept hd
        apply State.withDev_kept hd
        refine empty_kept hd hm ?_ _
        assumption
    · split
      · apply State.ready_kept hd hm
        assumption
      · assumption

theorem execColdStart_kept (hd : DevFree P) (hm : MemFree P) (hr : ResetFree P) {s : State} (hs : P s) (closedMs : Word) :
    ∀ t, execColdStart closedMs s = .next t → P t := by
  intro t e
  obtain rfl := Host.Outcome.next.inj e
  extract_lets v1 s2
  have h3 : P s2 := by
    dsimp -zeta only [s2]
    apply State.coldReset_kept hd hm hr
    assumption
  clear_value v1 s2
  split
  · assumption
  · apply State.withDev_kept hd
    assumption

theorem execPortReadyTimeout_kept (hd : DevFree P) {s : State} (hs : P s) (port : Fin 64) :
    ∀ t, execPortReadyTimeout port s = .next t → P t := by
  intro t e
  obtain rfl := Host.Outcome.next.inj e
  refine dev_kept hd ?_ _
  assumption

theorem State.startSave_kept (hd : DevFree P) {s : State} (hs : P s) :
    P (s.startSave) := by
  unfold State.startSave
  apply State.withDev_kept hd
  assumption

theorem execStartCfgSave_kept (hd : DevFree P) {s : State} (hs : P s) :
    ∀ t, execStartCfgSave s = .next t → P t := by
  intro t e
  obtain rfl := Host.Outcome.next.inj e
  apply State.startSave_kept hd
  assumption

/-! ## Boundary -/

theorem State.closePeriod_kept (hd : DevFree P) {s : State} (hs : P s) (start : Nat) :
    P (s.closePeriod start) := by
  unfold State.closePeriod
  extract_lets v1
  clear_value v1
  apply State.withDev_kept hd
  assumption

theorem State.pump_kept (hd : DevFree P) (hm : MemFree P) {s : State} (hs : P s) :
    P (s.pump) := by
  unfold State.pump
  extract_lets s1 s2
  have h3 : P s1 := by
    dsimp -zeta only [s1]
    refine foldl_kept (fun s4 h5 a6 => ?_) ?_ _
    · apply State.pumpMerge_kept hd hm
      assumption
    · assumption
  have h7 : P s2 := by
    dsimp -zeta only [s2]
    apply State.powerPump_kept hd hm
    apply State.pumpEvac_kept hd
    apply State.catRetry_kept hd hm
    apply State.pumpJobs_kept hd hm
    apply State.pumpRepair_kept hd hm
    assumption
  clear_value s1 s2
  apply State.withDev_kept hd
  assumption

theorem State.boundary_kept (hd : DevFree P) (hm : MemFree P) {s : State} (hs : P s) :
    P (s.boundary) := by
  unfold State.boundary
  split
  · assumption
  · extract_lets v1 s2 s3 s4 s5
    have h6 : P s2 := by
      dsimp -zeta only [s2]
      apply State.withDev_kept hd
      assumption
    have h7 : P s3 := by
      dsimp -zeta only [s3]
      apply State.closePeriod_kept hd
      assumption
    have h8 : P s4 := by
      dsimp -zeta only [s4]
      apply State.withDev_kept hd
      assumption
    have h9 : P s5 := by
      dsimp -zeta only [s5]
      refine foldl_kept (fun s10 h11 a12 => ?_) ?_ _
      · apply State.writebackBoundary_kept hd hm
        assumption
      · assumption
    clear_value v1 s2 s3 s4 s5
    apply State.pump_kept hd hm
    apply State.releaseAll_kept hd hm
    assumption

theorem execLendingBoundary_kept (hd : DevFree P) (hm : MemFree P) {s : State} (hs : P s) :
    ∀ t, execLendingBoundary s = .next t → P t := by
  intro t e
  obtain rfl := Host.Outcome.next.inj e
  apply State.boundary_kept hd hm
  assumption

/-! ## Regs -/

theorem State.regRead_kept (hd : DevFree P) {s : State} (hs : P s) (r : RegName) (i : Nat) (j : Nat) :
    P (s.regRead r i j) := by
  unfold State.regRead
  split
  · apply State.withDev_kept hd
    assumption
  · apply State.withDev_kept hd
    assumption
  · split
    · apply State.circCapture_kept hd
      assumption
    · assumption
  · apply State.withDev_kept hd
    assumption
  · apply State.withDev_kept hd
    assumption
  · assumption

theorem State.readAddr_kept (hd : DevFree P) {s : State} (hs : P s) (a : Word) :
    P (s.readAddr a).2 := by
  unfold State.readAddr
  split
  · assumption
  · split
    · assumption
    · extract_lets s1
      have h2 : P s1 := by
        dsimp -zeta only [s1]
        apply State.regRead_kept hd
        assumption
      clear_value s1
      assumption

theorem State.openDevice_kept (hd : DevFree P) (hy : LayoutFree P) {s : State} (hs : P s) :
    P (s.openDevice) := by
  unfold State.openDevice
  split
  · exact hs
  · dsimp only
    split
    · exact dev_kept hd hs _
    · by_cases hl : s.layout.locked = true
      · have e : ({ s.layout with locked := true } : Layout) = s.layout := by
          rw [← hl]
        rw [e]
        exact dev_kept hd hs _
      · exact dev_kept hd (s := { s with layout := { s.layout with locked := true } }) (hy s _ (by simpa using hl) hs) _

theorem State.writeSpare_kept (hd : DevFree P) (hm : MemFree P) {s : State} (hs : P s) (v : Nat) :
    P (s.writeSpare v) := by
  unfold State.writeSpare
  extract_lets v1
  clear_value v1
  split
  · apply State.spareOrder_kept hd hm
    assumption
  · apply State.withDev_kept hd
    assumption
  · apply State.withDev_kept hd
    assumption
  · apply State.withDev_kept hd
    assumption

theorem State.writeCat_kept (hd : DevFree P) (hm : MemFree P) {s : State} (hs : P s) (v : Nat) :
    P (s.writeCat v) := by
  unfold State.writeCat
  extract_lets v1
  split
  · assumption
  · split
    · apply State.catGo_kept hd hm
      assumption
    · apply State.withDev_kept hd
      assumption

theorem State.writeReshelve_kept (hd : DevFree P) (hm : MemFree P) {s : State} (hs : P s) (v : Nat) :
    P (s.writeReshelve v) := by
  unfold State.writeReshelve
  split
  · assumption
  · extract_lets s1
    have h2 : P s1 := by
      dsimp -zeta only [s1]
      apply State.withDev_kept hd
      assumption
    clear_value s1
    split
    · assumption
    · split
      · apply State.reshelveStart_kept hd hm
        assumption
      · apply State.reshelveCancel_kept hd hm
        assumption
      · apply State.withDev_kept hd
        assumption
      · apply State.withDev_kept hd
        assumption

theorem State.writeSeal_kept (hd : DevFree P) {s : State} (hs : P s) (v : Nat) :
    P (s.writeSeal v) := by
  unfold State.writeSeal
  extract_lets v1 v2
  clear_value v1 v2
  split
  · assumption
  · apply State.withDev_kept hd
    assumption

theorem State.writePort_kept (hd : DevFree P) (hm : MemFree P) {s : State} (hs : P s) (p : Nat) (v : Nat) :
    P (s.writePort p v) := by
  unfold State.writePort
  extract_lets v1 v2 v3 s4 s5 s6
  have h7 : P s4 := by
    dsimp -zeta only [s4]
    apply State.withDev_kept hd
    assumption
  have h8 : P s5 := by
    dsimp -zeta only [s5]
    split
    · assumption
    · apply State.withDev_kept hd
      assumption
  have h9 : P s6 := by
    dsimp -zeta only [s6]
    split
    · apply State.portEnable_kept hd hm
      assumption
    · split
      · apply State.portDisable_kept hd hm
        assumption
      · assumption
  clear_value v1 v2 v3 s4 s5 s6
  split
  · apply State.portRetrain_kept hd hm
    assumption
  · assumption

theorem State.writePatron_kept (hd : DevFree P) {s : State} (hs : P s) (p : Nat) (v : Nat) :
    P (s.writePatron p v) := by
  unfold State.writePatron
  extract_lets v1 v2 v3 v4 v5 s6 s7
  have h8 : P s6 := by
    dsimp -zeta only [s6]
    apply State.withDev_kept hd
    assumption
  have h9 : P s7 := by
    dsimp -zeta only [s7]
    apply State.injectGuard_kept hd
    assumption
  clear_value v1 v2 v3 v4 v5 s6 s7
  split
  · apply State.patronEnable_kept hd
    assumption
  · split
    · apply State.withDev_kept hd
      assumption
    · assumption

theorem State.writeHouse_kept (hd : DevFree P) {s : State} (hs : P s) (r : Nat) (v : Nat) :
    P (s.writeHouse r v) := by
  unfold State.writeHouse
  extract_lets v1 v2 s3
  have h4 : P s3 := by
    dsimp -zeta only [s3]
    apply State.withDev_kept hd
    assumption
  clear_value v1 v2 s3
  split
  · apply State.houseEnable_kept hd
    assumption
  · split
    · apply State.withDev_kept hd
      assumption
    · assumption

theorem State.writeColl_kept (hd : DevFree P) (hm : MemFree P) {s : State} (hs : P s) (v : Nat) :
    P (s.writeColl v) := by
  unfold State.writeColl
  extract_lets v1
  clear_value v1
  split
  · split
    · apply State.withDev_kept hd
      assumption
    · apply State.collJoin_kept hd hm
      assumption
  · apply State.collLeave_kept hd hm
    apply State.withDev_kept hd
    assumption

theorem State.writeInject_kept (hd : DevFree P) {s : State} (hs : P s) (p : Nat) (v : Nat) :
    P (s.writeInject p v) := by
  unfold State.writeInject
  extract_lets v1 s2
  have h3 : P s2 := by
    dsimp -zeta only [s2]
    split
    · assumption
    · apply State.withDev_kept hd
      assumption
  clear_value v1 s2
  split
  · apply State.injectEnable_kept hd
    assumption
  · split
    · apply State.withDev_kept hd
      assumption
    · assumption

theorem State.writeSlice_kept (hd : DevFree P) (hm : MemFree P) {s : State} (hs : P s) (v : Nat) :
    P (s.writeSlice v) := by
  unfold State.writeSlice
  extract_lets s1
  have h2 : P s1 := by
    dsimp -zeta only [s1]
    split
    · refine dev_kept hd ?_ _
      assumption
    · assumption
  clear_value s1
  split
  · apply State.sliceStart_kept hd hm
    assumption
  · apply State.withDev_kept hd
    assumption

theorem State.writeLayout_kept (hd : DevFree P) (hy : LayoutFree P) {s : State} (hs : P s) (r : RegName) (v : Nat) :
    P (s.writeLayout r v) := by
  unfold State.writeLayout
  split
  · exact hs
  · rename_i hl
    have hl : s.layout.locked = false := by simpa using hl
    split
    · exact hy s _ hl hs
    · exact hy s _ hl hs
    · exact hy s _ hl hs
    · exact hs

theorem State.writeReg_kept (hd : DevFree P) (hm : MemFree P) (hy : LayoutFree P) {s : State} (hs : P s) (mbox : State → State) (r : RegName) (i : Nat) (j : Nat) (v : Nat) (hmbox : ∀ s, P s → P (mbox s)) :
    P (s.writeReg mbox r i j v) := by
  unfold State.writeReg
  extract_lets s1 v2 v3 s4
  have h5 : P s1 := by
    dsimp -zeta only [s1]
    apply State.withDev_kept hd
    assumption
  have h6 : P s4 := by
    dsimp -zeta only [s4]
    split
    · apply State.safeOrder_kept hd hm
      assumption
    · assumption
  clear_value s1 s4
  split
  · split
    · apply State.openDevice_kept hd hy
      assumption
    · assumption
  · apply State.writeLayout_kept hd hy
    assumption
  · apply State.writeLayout_kept hd hy
    assumption
  · apply State.writeLayout_kept hd hy
    assumption
  · split
    · apply State.withDev_kept hd
      assumption
    · assumption
  · split
    · apply State.startSave_kept hd
      assumption
    · assumption
  · apply State.writeSpare_kept hd hm
    assumption
  · apply State.withDev_kept hd
    assumption
  · split
    · apply hmbox
      assumption
    · assumption
  · split
    · apply State.powerGo_kept hd hm
      assumption
    · assumption
  · apply State.wakeResample_kept hd hm
    assumption
  · split
    · assumption
    · apply State.refSelect_kept hd hm
      assumption
  · apply State.hp3Freq_kept hd hm
    assumption
  · split
    · apply State.withDev_kept hd
      assumption
    · assumption
  · split
    · apply State.withDev_kept hd
      assumption
    · assumption
  · apply State.withDev_kept hd
    assumption
  · split
    · apply State.safeResume_kept hd hm
      assumption
    · assumption
  · apply State.withDev_kept hd
    assumption
  · apply State.writeSlice_kept hd hm
    assumption
  · split
    · apply State.inventoryStart_kept hd
      assumption
    · assumption
  · apply State.withDev_kept hd
    assumption
  · apply State.withDev_kept hd
    assumption
  · apply State.withDev_kept hd
    assumption
  · apply State.withDev_kept hd
    assumption
  · split
    · apply State.withDev_kept hd
      assumption
    · assumption
  · split
    · apply State.withDev_kept hd
      assumption
    · assumption
  · split
    · apply State.ledgerRead_kept hd
      assumption
    · assumption
  · apply State.writePort_kept hd hm
    assumption
  · apply State.bindWrite_kept hd
    assumption
  · apply State.writeInject_kept hd
    assumption
  · apply State.withDev_kept hd
    assumption
  · split
    · apply State.withDev_kept hd
      assumption
    · assumption
  · split
    · apply State.withDev_kept hd
      assumption
    · assumption
  · split
    · assumption
    · apply State.endUnlock_kept hd hm
      assumption
  · apply State.withDev_kept hd
    assumption
  · apply State.withDev_kept hd
    assumption
  · apply State.withDev_kept hd
    assumption
  · apply State.withDev_kept hd
    assumption
  · apply State.writeCat_kept hd hm
    assumption
  · apply State.writeReshelve_kept hd hm
    assumption
  · dsimp -zeta only [v3]
    split
    · assumption
    · assumption
  · dsimp -zeta only [v3]
    split
    · assumption
    · assumption
  · apply State.writeHouse_kept hd
    assumption
  · dsimp -zeta only [v3]
    split
    · assumption
    · assumption
  · apply State.writeSeal_kept hd
    assumption
  · split
    · apply State.withDev_kept hd
      assumption
    · assumption
  · apply State.writeColl_kept hd hm
    assumption
  · dsimp -zeta only [v3]
    split
    · assumption
    · assumption
  · dsimp -zeta only [v3]
    split
    · assumption
    · assumption
  · apply State.withDev_kept hd
    assumption
  · split
    · apply State.flushStart_kept hd hm
      assumption
    · assumption
  · apply State.writePatron_kept hd
    assumption
  · dsimp -zeta only [v3]
    split
    · assumption
    · assumption
  · dsimp -zeta only [v3]
    split
    · assumption
    · assumption
  · dsimp -zeta only [v3]
    split
    · assumption
    · assumption
  · dsimp -zeta only [v3]
    split
    · assumption
    · assumption
  · dsimp -zeta only [v3]
    split
    · assumption
    · assumption
  · apply State.withDev_kept hd
    assumption
  · dsimp -zeta only [v3]
    split
    · assumption
    · assumption
  · dsimp -zeta only [v3]
    split
    · assumption
    · assumption
  · dsimp -zeta only [v3]
    split
    · assumption
    · assumption
  · dsimp -zeta only [v3]
    split
    · assumption
    · assumption
  · dsimp -zeta only [v3]
    split
    · assumption
    · assumption
  · assumption

theorem State.writeAbsent_kept (hd : DevFree P) {s : State} (hs : P s) (r : RegName) (i : Nat) (v : Nat) :
    P (s.writeAbsent r i v) := by
  unfold State.writeAbsent
  split
  · split
    · apply State.withDev_kept hd
      assumption
    · assumption
  · split
    · apply State.patronEnable_kept hd
      assumption
    · assumption
  · assumption

theorem State.writeAddr_kept (hd : DevFree P) (hm : MemFree P) (hy : LayoutFree P) {s : State} (hs : P s) (mbox : State → State) (a : Word) (v : Nat) (hmbox : ∀ s, P s → P (mbox s)) :
    P (s.writeAddr mbox a v) := by
  unfold State.writeAddr
  split
  · assumption
  · split
    · apply State.writeAbsent_kept hd
      assumption
    · apply State.writeReg_kept hd hm hy
      · assumption
      · intro a1
        intro a2
        apply hmbox
        assumption

theorem execDevOpen_kept (hd : DevFree P) (hy : LayoutFree P) {s : State} (hs : P s) :
    ∀ t, execDevOpen s = .next t → P t := by
  intro t e
  obtain rfl := Host.Outcome.next.inj e
  apply State.openDevice_kept hd hy
  assumption

theorem execTfCountRead_kept (hd : DevFree P) {s : State} (hs : P s) (patron : Fin 4096) (i : Fin 8) :
    ∀ t, execTfCountRead patron i s = .next t → P t := by
  intro t e
  obtain rfl := Host.Outcome.next.inj e
  split
  · assumption
  · apply State.regRead_kept hd
    apply State.withDev_kept hd
    assumption

end Sys2Proof.Machine
end

