-- ==== Sys2Proof/Laws/KeptMgmt.lean ====
section
/-!
SUPPORT. What a change of State keeps, for the management ports and the flit receiver: a predicate P that
no change of the volatile state, of the stored lines, ... (as the hypotheses name them) can break holds after the operation.
One lemma per operation; it cites those of the operations it calls.
-/

namespace Sys2Proof.Machine

open Sys2Proof

variable {P : State → Prop}

/-! ## Mgmt -/

theorem State.writeWith_kept (hd : DevFree P) (hm : MemFree P) (hy : LayoutFree P) {s : State} (hs : P s) (flaud : Bool) (mbox : State → State) (a : Word) (v : Nat) (hmbox : ∀ s, P s → P (mbox s)) :
    P (s.writeWith flaud mbox a v).2 := by
  unfold State.writeWith
  split
  · assumption
  · split
    · dsimp only
      apply State.withDev_kept hd
      assumption
    · extract_lets v1 v2 v3 s4
      have h5 : P s4 := by
        dsimp -zeta only [s4]
        apply State.writeAddr_kept hd hm hy
        · apply State.withDev_kept hd
          assumption
        · intro a6
          intro a7
          apply hmbox
          assumption
      clear_value v1 v2 s4
      split
      · dsimp only
        apply State.withDev_kept hd
        assumption
      · assumption

theorem FlaudRun.read_kept (hd : DevFree P) {x : FlaudRun} (hx : P x.s) (a : Word) (place : Nat) : P (x.read a place).s := by
  unfold FlaudRun.read
  split
  · exact hx
  · split
    · exact hx
    · exact State.readAddr_kept hd hx _

theorem FlaudRun.write_kept (hd : DevFree P) (hm : MemFree P) (hy : LayoutFree P) {x : FlaudRun} (hx : P x.s) (flaud : Bool) {mbox : State → State}
    (hf : ∀ s, P s → P (mbox s)) (a : Word) (v place : Nat) : P (x.write flaud mbox a v place).s := by
  unfold FlaudRun.write
  split
  · exact hx
  · have h1 := State.writeWith_kept hd hm hy hx flaud mbox a v hf
    split
    · rename_i e
      exact snd_kept e h1
    · rename_i e
      exact snd_kept e h1
    · rename_i e
      exact State.readAddr_kept hd (snd_kept e h1) _

theorem FlaudRun.modify_kept (hd : DevFree P) (hm : MemFree P) (hy : LayoutFree P) {x : FlaudRun} (hx : P x.s) (flaud : Bool) {mbox : State → State}
    (hf : ∀ s, P s → P (mbox s)) (a : Word) (value mask : Nat) : P (x.modify flaud mbox a value mask).s := by
  unfold FlaudRun.modify
  split
  · exact hx
  · extract_lets r
    have h1 := State.writeWith_kept hd hm hy (State.readAddr_kept hd hx a) flaud mbox a
      ((r.1 &&& (2 ^ 32 - 1 - mask)) ||| (value &&& mask)) hf
    split
    · rename_i e
      exact snd_kept e h1
    · rename_i e
      exact snd_kept e h1
    · rename_i e
      exact snd_kept e h1

theorem State.flaudRun_kept (hd : DevFree P) (hm : MemFree P) (hy : LayoutFree P) {s : State} (hs : P s) (flaud : Bool) {mbox : State → State}
    (hf : ∀ s, P s → P (mbox s)) (b : List Nat) : P (s.flaudRun flaud mbox b).s := by
  have hl : ∀ (g : FlaudRun → Nat → FlaudRun), (∀ x k, P x.s → P (g x k).s) → ∀ (l : List Nat) (x : FlaudRun), P x.s →
      P (l.foldl g x).s := by
    intro g hg l
    induction l with
    | nil => exact fun x hx => hx
    | cons k l ih => exact fun x hx => ih _ (hg x k hx)
  unfold State.flaudRun
  dsimp only
  split
  · exact hs
  · split
    · exact hl _ (fun x k hx => FlaudRun.read_kept hd hx _ _) _ _ hs
    · exact hl _ (fun x k hx => FlaudRun.write_kept hd hm hy hx _ hf _ _ _) _ _ hs
    · exact FlaudRun.modify_kept hd hm hy hs _ hf _ _ _
    · exact hs

theorem State.flaudPerform_kept (hd : DevFree P) (hm : MemFree P) (hy : LayoutFree P) {s : State} (hs : P s) (flaud : Bool) {mbox : State → State}
    (hf : ∀ s, P s → P (mbox s)) (body : LineData) (tag : Nat) : P (s.flaudPerform flaud mbox body tag).2 := by
  have h1 := State.flaudRun_kept hd hm hy hs flaud hf (bytesOfNat 64 body.toNat)
  exact dev_kept hd h1 _

theorem State.mailbox_kept (hd : DevFree P) (hm : MemFree P) (hy : LayoutFree P) {s : State} (hs : P s) : P s.mailbox := by
  unfold State.mailbox
  extract_lets body
  have h1 : P (s.flaudPerform false id body 0).2 := State.flaudPerform_kept hd hm hy hs _ (fun _ h => h) _ _
  exact State.withDev_kept hd h1 _

theorem execDevMboxGo_kept (hd : DevFree P) (hm : MemFree P) (hy : LayoutFree P) {s : State} (hs : P s) :
    ∀ t, execDevMboxGo s = .next t → P t := by
  intro t e
  obtain rfl := Host.Outcome.next.inj e
  split
  · assumption
  · apply State.mailbox_kept hd hm hy
    assumption

theorem State.flaudGo_kept (hd : DevFree P) (hm : MemFree P) (hy : LayoutFree P) {s : State} (hs : P s) (link : Nat) (m : Msg) : P (s.flaudGo link m) := by
  have h1 : P (s.flaudPerform (s.keeperLink link) State.mailbox m.data m.tag).2 :=
    State.flaudPerform_kept hd hm hy hs _ (fun _ h => State.mailbox_kept hd hm hy h) _ _
  unfold State.flaudGo
  exact State.withDev_kept hd h1 _

theorem State.flaudReq_kept (hd : DevFree P) (hm : MemFree P) (hy : LayoutFree P) {s : State} (hs : P s) (link : Nat) (m : Msg) :
    P (s.flaudReq link m) := by
  unfold State.flaudReq
  extract_lets v1 v2
  clear_value v1
  split
  · assumption
  · split
    · apply State.withDev_kept hd
      assumption
    · split
      · apply State.withDev_kept hd
        dsimp -zeta only [v2]
        apply State.withDev_kept hd
        assumption
      · split
        · apply State.withDev_kept hd
          dsimp -zeta only [v2]
          apply State.withDev_kept hd
          assumption
        · split
          · dsimp -zeta only [v2]
            apply State.withDev_kept hd
            assumption
          · split
            · dsimp -zeta only [v2]
              apply State.withDev_kept hd
              assumption
            · split
              · apply State.withDev_kept hd
                assumption
              · apply State.flaudGo_kept hd hm hy
                assumption

theorem execFlaudRead_kept (hd : DevFree P) (hm : MemFree P) (hy : LayoutFree P) {s : State} (hs : P s) (link : Fin 256) (tag : BitVec 12) (body : LineData) :
    ∀ t, execFlaudRead link tag body s = .next t → P t := by
  intro t e
  obtain rfl := Host.Outcome.next.inj e
  apply State.flaudReq_kept hd hm hy
  assumption

theorem execFlaudWrite_kept (hd : DevFree P) (hm : MemFree P) (hy : LayoutFree P) {s : State} (hs : P s) (link : Fin 256) (tag : BitVec 12) (body : LineData) :
    ∀ t, execFlaudWrite link tag body s = .next t → P t := by
  intro t e
  obtain rfl := Host.Outcome.next.inj e
  apply State.flaudReq_kept hd hm hy
  assumption

theorem execFlaudModify_kept (hd : DevFree P) (hm : MemFree P) (hy : LayoutFree P) {s : State} (hs : P s) (link : Fin 256) (tag : BitVec 12) (body : LineData) :
    ∀ t, execFlaudModify link tag body s = .next t → P t := by
  intro t e
  obtain rfl := Host.Outcome.next.inj e
  apply State.flaudReq_kept hd hm hy
  assumption

theorem execFlaudEcho_kept (hd : DevFree P) (hm : MemFree P) (hy : LayoutFree P) {s : State} (hs : P s) (link : Fin 256) (tag : BitVec 12) (body : LineData) :
    ∀ t, execFlaudEcho link tag body s = .next t → P t := by
  intro t e
  obtain rfl := Host.Outcome.next.inj e
  apply State.flaudReq_kept hd hm hy
  assumption

theorem State.i3cWord_kept (hd : DevFree P) (hm : MemFree P) (hy : LayoutFree P) {s : State} (hs : P s) (a : Word) (v : Nat) :
    P (s.i3cWord a v) := by
  unfold State.i3cWord
  split
  · apply State.writeWith_kept hd hm hy
    · assumption
    · intro a1
      intro a2
      apply State.mailbox_kept hd hm hy
      assumption
  · assumption

theorem execI3cPrivateWrite_kept (hd : DevFree P) (hm : MemFree P) (hy : LayoutFree P) {s : State} (hs : P s) (bytes : List (BitVec 8)) :
    ∀ t, execI3cPrivateWrite bytes s = .next t → P t := by
  intro t e
  obtain rfl := Host.Outcome.next.inj e
  split
  · apply State.withDev_kept hd
    assumption
  · extract_lets v1 v2 v3 s4
    have h5 : P s4 := by
      dsimp -zeta only [s4]
      apply State.withDev_kept hd
      assumption
    clear_value v1 v2 v3 s4
    split
    · assumption
    · split
      · apply State.withDev_kept hd
        assumption
      · refine foldl_kept (fun s6 h7 a8 => ?_) ?_ _
        · apply State.i3cWord_kept hd hm hy
          assumption
        · assumption

theorem State.i3cRead_kept (hd : DevFree P) {s : State} (hs : P s) (n : Nat) (out : List Nat) : P (s.i3cRead n out).2 := by
  induction n generalizing s out with
  | zero => exact hs
  | succ n ih =>
    unfold State.i3cRead
    dsimp only
    split
    · exact hs
    · exact ih (State.withDev_kept hd (State.readAddr_kept hd hs _) _) _

theorem execI3cPrivateRead_kept (hd : DevFree P) {s : State} (hs : P s) (words : BitVec 7) :
    ∀ t, execI3cPrivateRead words s = .next t → P t := by
  intro t e
  obtain rfl := Host.Outcome.next.inj e
  split
  · apply State.withDev_kept hd
    assumption
  · split
    · rename_i x1 x2 x3 x4
      have h5 : P x3 := by
        refine snd_kept x4 ?_
        apply State.i3cRead_kept hd
        assumption
      apply State.withDev_kept hd
      assumption

theorem State.broadcast_kept (hd : DevFree P) {s : State} (hs : P s) (f : Dev → Dev) :
    P (s.broadcast f) := by
  unfold State.broadcast
  split
  · apply State.withDev_kept hd
    assumption
  · assumption

theorem State.direct_kept (hd : DevFree P) {s : State} (hs : P s) (f : Dev → Dev) :
    P (s.direct f) := by
  unfold State.direct
  apply State.withDev_kept hd
  assumption

theorem execEntdaa_kept (hd : DevFree P) {s : State} (hs : P s) (address : BitVec 7) :
    ∀ t, execEntdaa address s = .next t → P t := by
  intro t e
  obtain rfl := Host.Outcome.next.inj e
  apply State.broadcast_kept hd
  assumption

theorem execSetnewda_kept (hd : DevFree P) {s : State} (hs : P s) (address : BitVec 7) :
    ∀ t, execSetnewda address s = .next t → P t := by
  intro t e
  obtain rfl := Host.Outcome.next.inj e
  apply State.direct_kept hd
  assumption

theorem execRstdaa_kept (hd : DevFree P) {s : State} (hs : P s) :
    ∀ t, execRstdaa s = .next t → P t := by
  intro t e
  obtain rfl := Host.Outcome.next.inj e
  apply State.broadcast_kept hd
  assumption

theorem execEnec_kept (hd : DevFree P) {s : State} (hs : P s) (events : BitVec 8) :
    ∀ t, execEnec events s = .next t → P t := by
  intro t e
  obtain rfl := Host.Outcome.next.inj e
  apply State.broadcast_kept hd
  assumption

theorem execDisec_kept (hd : DevFree P) {s : State} (hs : P s) (events : BitVec 8) :
    ∀ t, execDisec events s = .next t → P t := by
  intro t e
  obtain rfl := Host.Outcome.next.inj e
  apply State.broadcast_kept hd
  assumption

theorem execGetpid_kept (hd : DevFree P) {s : State} (hs : P s) :
    ∀ t, execGetpid s = .next t → P t := by
  intro t e
  obtain rfl := Host.Outcome.next.inj e
  apply State.direct_kept hd
  assumption

theorem execGetbcr_kept (hd : DevFree P) {s : State} (hs : P s) :
    ∀ t, execGetbcr s = .next t → P t := by
  intro t e
  obtain rfl := Host.Outcome.next.inj e
  apply State.direct_kept hd
  assumption

theorem execGetdcr_kept (hd : DevFree P) {s : State} (hs : P s) :
    ∀ t, execGetdcr s = .next t → P t := by
  intro t e
  obtain rfl := Host.Outcome.next.inj e
  apply State.direct_kept hd
  assumption

theorem execGetstatus_kept (hd : DevFree P) {s : State} (hs : P s) :
    ∀ t, execGetstatus s = .next t → P t := by
  intro t e
  obtain rfl := Host.Outcome.next.inj e
  apply State.direct_kept hd
  assumption

theorem execGetmxds_kept (hd : DevFree P) {s : State} (hs : P s) :
    ∀ t, execGetmxds s = .next t → P t := by
  intro t e
  obtain rfl := Host.Outcome.next.inj e
  apply State.direct_kept hd
  assumption

theorem execSetmrl_kept (hd : DevFree P) {s : State} (hs : P s) (length : BitVec 16) :
    ∀ t, execSetmrl length s = .next t → P t := by
  intro t e
  obtain rfl := Host.Outcome.next.inj e
  apply State.broadcast_kept hd
  assumption

theorem execGetmrl_kept (hd : DevFree P) {s : State} (hs : P s) :
    ∀ t, execGetmrl s = .next t → P t := by
  intro t e
  obtain rfl := Host.Outcome.next.inj e
  apply State.direct_kept hd
  assumption

theorem execSetmwl_kept (hd : DevFree P) {s : State} (hs : P s) (length : BitVec 16) :
    ∀ t, execSetmwl length s = .next t → P t := by
  intro t e
  obtain rfl := Host.Outcome.next.inj e
  apply State.broadcast_kept hd
  assumption

theorem execGetmwl_kept (hd : DevFree P) {s : State} (hs : P s) :
    ∀ t, execGetmwl s = .next t → P t := by
  intro t e
  obtain rfl := Host.Outcome.next.inj e
  apply State.direct_kept hd
  assumption

theorem execRstact_kept (hd : DevFree P) {s : State} (hs : P s) (action : BitVec 8) :
    ∀ t, execRstact action s = .next t → P t := by
  intro t e
  obtain rfl := Host.Outcome.next.inj e
  apply State.broadcast_kept hd
  assumption

theorem execRegisterWrite_kept (hd : DevFree P) (hm : MemFree P) (hy : LayoutFree P) {s : State} (hs : P s) (path : MgmtPath) (addr : Word) (value : Word) :
    ∀ t, execRegisterWrite path addr value s = .next t → P t := by
  intro t e
  obtain rfl := Host.Outcome.next.inj e
  split
  · exact State.writeWith_kept hd hm hy hs _ _ _ _ fun _ h => State.mailbox_kept hd hm hy h
  · split
    · exact State.i3cWord_kept hd hm hy hs _ _
    · exact hs
  · exact State.writeWith_kept hd hm hy hs _ _ _ _ fun _ h => h

theorem State.scoped_kept (hd : DevFree P) {s : State} (hs : P s) (scope : Nat) (f : State → State) (hf : ∀ s, P s → P (f s)) :
    P (s.scoped scope f) := by
  unfold State.scoped
  split
  · assumption
  · split
    · apply State.withDev_kept hd
      assumption
    · apply hf
      assumption

theorem execBypass_kept (hd : DevFree P) {s : State} (hs : P s) :
    ∀ t, execBypass s = .next t → P t := by
  intro t e
  obtain rfl := Host.Outcome.next.inj e
  apply State.scoped_kept hd
  · assumption
  · intro a1
    intro a2
    apply State.withDev_kept hd
    assumption

theorem execIdcode_kept (hd : DevFree P) {s : State} (hs : P s) :
    ∀ t, execIdcode s = .next t → P t := by
  intro t e
  obtain rfl := Host.Outcome.next.inj e
  apply State.scoped_kept hd
  · assumption
  · intro a1
    intro a2
    apply State.withDev_kept hd
    assumption

theorem execSamplePreload_kept (hd : DevFree P) {s : State} (hs : P s) (pins : Nat) (preload : Nat) :
    ∀ t, execSamplePreload pins preload s = .next t → P t := by
  intro t e
  obtain rfl := Host.Outcome.next.inj e
  apply State.scoped_kept hd
  · assumption
  · intro a1
    intro a2
    apply State.withDev_kept hd
    assumption

theorem execChallenge_kept (hd : DevFree P) {s : State} (hs : P s) (scope : BitVec 8) :
    ∀ t, execChallenge scope s = .next t → P t := by
  intro t e
  obtain rfl := Host.Outcome.next.inj e
  apply State.scoped_kept hd
  · assumption
  · intro a1
    intro a2
    apply State.withDev_kept hd
    assumption

theorem execResponse_kept (hd : DevFree P) {s : State} (hs : P s) (response : BitVec 128) :
    ∀ t, execResponse response s = .next t → P t := by
  intro t e
  obtain rfl := Host.Outcome.next.inj e
  apply State.scoped_kept hd
  · assumption
  · intro a1
    intro a2
    extract_lets s3
    have h4 : P s3 := by
      dsimp -zeta only [s3]
      apply State.withDev_kept hd
      assumption
    clear_value s3
    split
    · assumption
    · split
      · apply State.withDev_kept hd
        assumption
      · apply State.withDev_kept hd
        assumption

theorem execExtest_kept (hd : DevFree P) {s : State} (hs : P s) :
    ∀ t, execExtest s = .next t → P t := by
  intro t e
  obtain rfl := Host.Outcome.next.inj e
  apply State.scoped_kept hd
  · assumption
  · intro a1
    intro a2
    apply State.withDev_kept hd
    assumption

theorem execWrapper_kept (hd : DevFree P) {s : State} (hs : P s) (domain : Fin 248) :
    ∀ t, execWrapper domain s = .next t → P t := by
  intro t e
  obtain rfl := Host.Outcome.next.inj e
  apply State.scoped_kept hd
  · assumption
  · intro a1
    intro a2
    apply State.withDev_kept hd
    assumption

theorem State.scanned_kept (hd : DevFree P) (hm : MemFree P) {s : State} (hs : P s) (ir : Nat) :
    P (s.scanned ir) := by
  unfold State.scanned
  extract_lets v1 s2
  have h3 : P s2 := by
    dsimp -zeta only [s2]
    split
    · apply State.emptySlice_kept hd hm
      assumption
    · assumption
  clear_value v1 s2
  apply State.withDev_kept hd
  assumption

theorem execScan_kept (hd : DevFree P) (hm : MemFree P) {s : State} (hs : P s) :
    ∀ t, execScan s = .next t → P t := by
  intro t e
  obtain rfl := Host.Outcome.next.inj e
  apply State.scoped_kept hd
  · assumption
  · intro a1
    intro a2
    apply State.scanned_kept hd hm
    assumption

theorem execMemtest_kept (hd : DevFree P) (hm : MemFree P) {s : State} (hs : P s) :
    ∀ t, execMemtest s = .next t → P t := by
  intro t e
  obtain rfl := Host.Outcome.next.inj e
  apply State.scoped_kept hd
  · assumption
  · intro a1
    intro a2
    apply State.scanned_kept hd hm
    assumption

theorem execTapReset_kept (hd : DevFree P) (hm : MemFree P) {s : State} (hs : P s) :
    ∀ t, execTapReset s = .next t → P t := by
  intro t e
  obtain rfl := Host.Outcome.next.inj e
  split
  · assumption
  · apply State.endUnlock_kept hd hm
    apply State.withDev_kept hd
    assumption

theorem execTakeoverComplete_kept (hd : DevFree P) (hm : MemFree P) (hy : LayoutFree P) {s : State} (hs : P s) :
    ∀ t, execTakeoverComplete s = .next t → P t := by
  intro t e
  obtain rfl := Host.Outcome.next.inj e
  split
  · assumption
  · extract_lets v1 s2 s3 s4 v5 s6
    have h7 : P s2 := by
      dsimp -zeta only [s2]
      apply State.withDev_kept hd
      assumption
    have h8 : P s3 := by
      dsimp -zeta only [s3]
      apply State.pumpJobs_kept hd hm
      apply State.catRetry_kept hd hm
      assumption
    have h9 : P s4 := by
      dsimp -zeta only [s4]
      refine foldl_kept (fun s10 h11 a12 => ?_) ?_ _
      · apply State.takeRaised_kept hd hm
        assumption
      · assumption
    have h13 : P s6 := by
      dsimp -zeta only [s6]
      refine foldl_kept (fun s14 h15 a16 => ?_) ?_ _
      · apply State.flaudGo_kept hd hm hy
        assumption
      · apply State.withDev_kept hd
        assumption
    clear_value v1 s2 s3 s4 v5 s6
    apply State.withDev_kept hd
    assumption

/-! ## Receive -/

theorem State.deliver_kept (hd : DevFree P) (hm : MemFree P) (hy : LayoutFree P) {s : State} (hs : P s) (link : Fin 256) (m : Msg) (env : AccessEnv) :
    P (s.deliver link m env) := by
  unfold State.deliver
  split
  · exact State.request_kept hd hm hs _ _ _
  · exact State.request_kept hd hm hs _ _ _
  · exact State.request_kept hd hm hs _ _ _
  · exact State.request_kept hd hm hs _ _ _
  · exact State.fence_kept hd hs _ _
  · exact after_kept hs (execBell_kept hd hs _ _)
  · exact State.flaudReq_kept hd hm hy hs _ _
  · exact State.hostRsp_kept hd hs _ _
  · exact State.hostData_kept hd hm hs _ _
  · exact State.forwarded_kept hd hm hs _ _ _
  · exact State.forwarded_kept hd hm hs _ _ _
  · exact State.forwarded_kept hd hm hs _ _ _
  · exact State.relay_kept hd hm hs _ _ _
  · exact State.relay_kept hd hm hs _ _ _
  · exact after_kept hs (execXcopy_kept hd hm hs _ _)
  · exact after_kept hs (execCardSet_kept hd hm hs _ _)
  · exact after_kept hs (execCardAck_kept hd hm hs _ _)
  · exact after_kept hs (execRollCall_kept hd hm hs _ _)
  · exact after_kept hs (execRollAnswer_kept hd hs _ _)
  · exact after_kept hs (execTimeReq_kept hd hs _ _)
  · exact after_kept hs (execTimeRsp_kept hd hs _ _)
  · exact after_kept hs (execJoinReq_kept hd hs _ _)
  · exact after_kept hs (execJoinRsp_kept hd hs _ _)
  · exact hs

theorem State.slots_kept (hd : DevFree P) (hm : MemFree P) (hy : LayoutFree P) {s : State} (hs : P s) (link : Fin 256) (dest : Nat)
    (fuel slot : Nat) (b : List Nat) (envs : List AccessEnv) : P (State.slots link dest fuel slot b envs s) := by
  induction fuel generalizing slot b envs s with
  | zero => exact hs
  | succ fuel ih =>
    unfold State.slots
    split
    · exact hs
    · split
      · exact ih hs _ _ _
      · extract_lets l n m c t
        split
        · exact State.withDev_kept hd hs _
        · split
          · exact State.toDetect_kept hd hm (State.withDev_kept hd hs _) _ _
          · have ht : P t := State.withDev_kept hd (State.deliver_kept hd hm hy (State.withDev_kept hd hs _) _ _ _) _
            split
            · exact ht
            · exact ih ht _ _ _

theorem State.transit_kept (hd : DevFree P) (hm : MemFree P) {s : State} (hs : P s) (l : Nat) (dest : Nat) (f : BitVec 2048) :
    P (s.transit l dest f) := by
  unfold State.transit
  extract_lets v1
  clear_value v1
  split
  · apply State.toDetect_kept hd hm
    apply State.withDev_kept hd
    assumption
  · split
    · apply State.withDev_kept hd
      assumption
    · apply State.withDev_kept hd
      assumption

theorem State.answered_kept (hd : DevFree P) (hm : MemFree P) {s : State} (hs : P s) (l : Nat) (h : Header) :
    P (s.answered l h) := by
  unfold State.answered
  split
  · assumption
  · extract_lets v1 v2 v3 v4 s5
    have h6 : P s5 := by
      dsimp -zeta only [s5]
      apply State.withDev_kept hd
      assumption
    clear_value v1 v2 v3 v4 s5
    split
    · apply State.recover_kept hd hm
      apply State.withDev_kept hd
      assumption
    · split
      · apply State.replayFrom_kept hd hm
        apply State.withDev_kept hd
        assumption
      · assumption

theorem State.dataFlit_kept (hd : DevFree P) (hm : MemFree P) (hy : LayoutFree P) {s : State} (hs : P s) (link : Fin 256) (f : BitVec 2048) (bad : Bool) (envs : List AccessEnv) :
    P (s.dataFlit link f bad envs) := by
  unfold State.dataFlit
  extract_lets v1 v2 v3 s4
  have h5 : P s4 := by
    dsimp -zeta only [s4]
    apply State.withDev_kept hd
    assumption
  clear_value v1 v2 v3 s4
  split
  · split
    · apply State.withDev_kept hd
      assumption
    · split
      · apply State.transit_kept hd hm
        assumption
      · apply State.slots_kept hd hm hy
        assumption
  · split
    · assumption
    · apply State.withDev_kept hd
      assumption

theorem State.goodFlit_kept (hd : DevFree P) (hm : MemFree P) (hy : LayoutFree P) {s : State} (hs : P s) (link : Fin 256) (f : BitVec 2048) (deleted : Bool) (envs : List AccessEnv) :
    P (s.goodFlit link f deleted envs) := by
  unfold State.goodFlit
  extract_lets v1 s2 v3 v4 s5 s6 s7
  have h8 : P s2 := by
    dsimp -zeta only [s2]
    apply State.withDev_kept hd
    assumption
  have h9 : P s5 := by
    dsimp -zeta only [s5]
    apply State.withDev_kept hd
    assumption
  have h10 : P s6 := by
    dsimp -zeta only [s6]
    apply State.withDev_kept hd
    assumption
  have h11 : P s7 := by
    dsimp -zeta only [s7]
    apply State.answered_kept hd hm
    assumption
  clear_value s5 s6 s7
  split
  · split
    · apply State.dataFlit_kept hd hm hy
      assumption
    · assumption
  · split
    · assumption
    · split
      · apply State.toDetect_kept hd hm
        assumption
      · split
        · apply State.withDev_kept hd
          assumption
        · split
          · apply State.dataFlit_kept hd hm hy
            assumption
          · assumption

theorem State.crcFailed_kept (hd : DevFree P) (hm : MemFree P) {s : State} (hs : P s) (l : Nat) :
    P (s.crcFailed l) := by
  unfold State.crcFailed
  extract_lets s1
  have h2 : P s1 := by
    dsimp -zeta only [s1]
    apply State.withDev_kept hd
    assumption
  clear_value s1
  split
  · apply State.recover_kept hd hm
    assumption
  · assumption

theorem State.checkFlit_kept (hd : DevFree P) (hm : MemFree P) (hy : LayoutFree P) {s : State} (hs : P s) (link : Fin 256) (f : BitVec 2048) (deleted : Bool) (envs : List AccessEnv) :
    P (s.checkFlit link f deleted envs) := by
  unfold State.checkFlit
  extract_lets v1 v2 v3
  clear_value v1 v2 v3
  split
  · apply State.goodFlit_kept hd hm hy
    assumption
  · split
    · apply State.withDev_kept hd
      assumption
    · apply State.crcFailed_kept hd hm
      assumption

theorem State.injectReceive_kept (hd : DevFree P) (hm : MemFree P) (hy : LayoutFree P) {s : State} (hs : P s) (link : Fin 256) (f : BitVec 2048) (deleted : Bool) (envs : List AccessEnv) :
    P (s.injectReceive link f deleted envs) := by
  unfold State.injectReceive
  extract_lets v1
  clear_value v1
  split
  · apply State.checkFlit_kept hd hm hy
    assumption
  · split
    · extract_lets s2 v3 v4 s5
      have h6 : P s2 := by
        dsimp -zeta only [s2]
        refine dev_kept hd ?_ _
        assumption
      have h7 : P s5 := by
        dsimp -zeta only [s5]
        apply State.checkFlit_kept hd hm hy
        assumption
      clear_value s2 v3 v4 s5
      split
      · split
        · apply State.crcFailed_kept hd hm
          refine dev_kept hd ?_ _
          assumption
        · split
          · split
            · apply State.checkFlit_kept hd hm hy
              refine dev_kept hd ?_ _
              assumption
            · apply State.checkFlit_kept hd hm hy
              assumption
          · split
            · apply State.checkFlit_kept hd hm hy
              refine dev_kept hd ?_ _
              assumption
            · split
              · apply State.withDev_kept hd
                assumption
              · split
                · apply State.checkFlit_kept hd hm hy
                  apply State.withDev_kept hd
                  assumption
                · assumption

theorem State.flitReceive_kept (hd : DevFree P) (hm : MemFree P) (hy : LayoutFree P) {s : State} (hs : P s) (link : Fin 256) (columns : List Nat) (full : Bool) (deleted : Bool) (envs : List AccessEnv) :
    P (s.flitReceive link columns full deleted envs) := by
  unfold State.flitReceive
  extract_lets v1
  clear_value v1
  split
  · assumption
  · split
    · extract_lets s2
      have h3 : P s2 := by
        dsimp -zeta only [s2]
        apply State.withDev_kept hd
        assumption
      clear_value s2
      split
      · assumption
      · extract_lets s4
        have h5 : P s4 := by
          dsimp -zeta only [s4]
          split
          · apply State.withDev_kept hd
            assumption
          · apply State.injectReceive_kept hd hm hy
            assumption
        clear_value s4
        split
        · apply State.withDev_kept hd
          assumption
        · assumption

theorem execFlitReceive_kept (hd : DevFree P) (hm : MemFree P) (hy : LayoutFree P) {s : State} (hs : P s) (link : Fin 256) (columns : List Nat) (full : Bool) (deleted : Bool) (envs : List AccessEnv) :
    ∀ t, execFlitReceive link columns full deleted envs s = .next t → P t := by
  intro t e
  obtain rfl := Host.Outcome.next.inj e
  apply State.flitReceive_kept hd hm hy
  assumption

end Sys2Proof.Machine
end

