-- ==== Sys2Proof/Laws/Step.lean ====
section
/-!
SUPPORT. What a step is, and what the block's own work keeps.
-/

namespace Sys2Proof.Machine

open Sys2Proof

variable {P : State → Prop}

/-- With a command at the front of the queue a step is that command on the state with the rest of the queue. -/
theorem step_cons (s : State) (c : Instr) (rest : List Instr) (h : s.pending = c :: rest) :
    step s = exec c { s with pending := rest } := by
  simp only [step, h]

/-- With no command waiting a step is the block's own work. -/
theorem step_nil (s : State) (h : s.pending = []) : step s = .next s.idle := by
  simp only [step, h]

/-- The block's own work changes the volatile state and the DRAM's lines, in its canonical form, and nothing else. -/
theorem State.idle_kept (hd : DevFree P) (hm : MemFree P) {s : State} (hs : P s) : P s.idle := by
  unfold State.idle
  split
  · exact State.takeRaised_kept hd hm hs
  · exact State.pump_kept hd hm (State.withDev_kept hd hs _)

end Sys2Proof.Machine
end

