-- ==== Sys2Proof/WellFormed.lean ====
section
/-!
DEFINITION. Which commands the outside world can send: the operands whose Lean type is wider than the spec's field or list.
-/

namespace Sys2Proof

/-- The fields of a message lie within the layouts of Tables 13.4 to 13.6, 14.2 and 14.2a. -/
def Msg.wf (m : Msg) : Bool :=
  decide (m.op < 256) && decide (m.arg < 256) && decide (m.status < 256) && decide (m.line < 256) && decide (m.patron < 4096) &&
    decide (m.tag < 2 ^ 32) && decide (m.member < 64) && decide (m.home < 64) && decide (m.hops < 8)

/-- One reading for each of `n` sensors, each raw code within its 12 bits (R400, Table 16.2). -/
def readingsWf (n : Nat) (l : List SensorReading) : Bool := decide (l.length = n) && l.all (fun r => decide (r.raw < 4096))

/-- The columns of a flit: at most 2,048 data bits a lane and one stuff bit in 31 of them (R314, R316), each of at most 16 lanes. -/
def columnsWf (l : List Nat) : Bool := decide (l.length ≤ 2 * 2048) && l.all (fun c => decide (c < 2 ^ 16))

/-- A command that the outside world can send. -/
def Instr.wf : Instr → Bool
  | .paceWindow counts => decide (counts.length = 64)
  | .localTimeCheck counts => decide (counts.length = 18)
  | .calFullPass _ smallest _ twin => decide (smallest.length ≤ 53) && decide (twin.length ≤ 53) && (smallest ++ twin).all (fun c => decide (c < 64))
  | .calTrackingPass _ results => results.all (fun r => decide (r.1 < 53))
  | .levelSensorSample _ readings => readingsWf 8 readings
  | .stewardResetDone _ readings => readingsWf 8 readings
  | .crownSensorSample readings => readingsWf 80 readings
  | .footSensorSample readings => readingsWf 2 readings
  | .stackModelEval power => decide (power.length = 17)
  | .descriptorReturn _ _ _ lines => decide (1 ≤ lines.length) && decide (lines.length ≤ 8)
  | .gatherListReturn _ lines => decide (1 ≤ lines.length)
  | .flitReceive _ columns _ _ envs => columnsWf columns && decide (envs.length ≤ 15)
  | .i3cPrivateWrite bytes => decide (bytes.length ≤ 68)
  | .bell _ m | .fence _ m | .rsp _ m | .hostData _ m | .xcopy _ m | .cardSet _ m | .cardAck _ m | .rollCall _ m | .rollAnswer _ m
  | .timeReq _ m | .timeRsp _ m | .joinReq _ m | .joinRsp _ m => m.wf
  | .load _ m _ | .store _ m _ | .storeMasked _ m _ | .atomic _ m _ | .fwdLoad _ m _ | .fwdStore _ m _ | .fwdAtomic _ m _ => m.wf
  | .fwdRsp _ m _ | .fwdData _ m _ => m.wf
  | _ => true

end Sys2Proof
end

section
/-!
The places of a line (R34, R35, R46). With the hash off or on, the bay within the wing is DPA[11:8] under an exclusive or with one fold of
the row, 0 when the hash is off. The exclusive or undoes itself, so the place names the DPA back; the other fields are digits of the DPA.
-/

namespace Sys2Proof.Machine

/-- The fold that the bay bits are hashed with: that of the row (R35), and nothing when the hash is off. -/
def shaftFold (hash : Bool) (row : Nat) : Nat := if hash then rowFold row else 0

/-- Folding the bay bits twice leaves them as they were. -/
theorem xor_shaftFold_xor (hash : Bool) (n row : Nat) : n ^^^ shaftFold hash row ^^^ shaftFold hash row = n := by
  rw [Nat.xor_assoc, Nat.xor_self, Nat.xor_zero]

theorem rowFold_lt {row : Nat} (h : row < 6144) : rowFold row < 16 := by
  have nibble (n : Nat) : n % 16 < 2 ^ 4 := Nat.mod_lt n (by decide)
  have top : row / 4096 < 2 ^ 4 := by omega
  exact Nat.xor_lt_two_pow (Nat.xor_lt_two_pow (Nat.xor_lt_two_pow (nibble _) (nibble _)) (nibble _)) top

theorem shaftFold_lt (hash : Bool) {row : Nat} (h : row < 6144) : shaftFold hash row < 16 := by
  cases hash with
  | false => exact Nat.zero_lt_succ 15
  | true => exact rowFold_lt h

/-- Folding keeps the bay bits four bits wide. -/
theorem mod_xor_shaftFold_lt (hash : Bool) (n : Nat) {row : Nat} (h : row < 6144) : n % 16 ^^^ shaftFold hash row < 16 :=
  Nat.xor_lt_two_pow (n := 4) (Nat.mod_lt n (by decide)) (shaftFold_lt hash h)

theorem dpaRow_lt {dpa : Nat} (h : dpa < dpaEnd) : dpaRow dpa < 6144 := by
  unfold dpaEnd at h
  unfold dpaRow
  omega

theorem dpaLineInRow_lt (dpa : Nat) : dpaLineInRow dpa < 32 := by
  unfold dpaLineInRow
  omega

/-- R35 for either setting of the hash. -/
theorem dpaShaft_eq (hash : Bool) {dpa : Nat} (h : dpaRow dpa < 6144) :
    dpaShaft hash dpa = dpa / 2 ^ 12 % 4 * 16 + (dpa / 2 ^ 8 % 16 ^^^ shaftFold hash (dpaRow dpa)) := by
  have hx := mod_xor_shaftFold_lt hash (dpa / 2 ^ 8) h
  cases hash with
  | false => simp [dpaShaft, shaftFold]
  | true => exact congrArg (dpa / 2 ^ 12 % 4 * 16 + ·) (Nat.mod_eq_of_lt hx)

theorem dpaShaft_div (hash : Bool) {dpa : Nat} (h : dpaRow dpa < 6144) : dpaShaft hash dpa / 16 = dpa / 2 ^ 12 % 4 := by
  have hx := mod_xor_shaftFold_lt hash (dpa / 2 ^ 8) h
  rw [dpaShaft_eq hash h]
  omega

theorem dpaShaft_mod (hash : Bool) {dpa : Nat} (h : dpaRow dpa < 6144) :
    dpaShaft hash dpa % 16 = dpa / 2 ^ 8 % 16 ^^^ shaftFold hash (dpaRow dpa) := by
  have hx := mod_xor_shaftFold_lt hash (dpa / 2 ^ 8) h
  rw [dpaShaft_eq hash h]
  omega

theorem dpaShaft_lt (hash : Bool) {dpa : Nat} (h : dpaRow dpa < 6144) : dpaShaft hash dpa < 64 := by
  have hd := dpaShaft_div hash h
  omega

/-- With the hash off the shaft is DPA[13:8] (R35). -/
theorem dpaShaft_off (dpa : Nat) : dpaShaft false dpa = dpa / 2 ^ 8 % 64 := by
  simp only [dpaShaft, Bool.false_eq_true, if_false]
  omega

theorem roomSlice_lt {shaft : Nat} (h : shaft < 64) : roomSlice shaft < 16 := by
  unfold roomSlice
  omega

theorem roomSet_lt (shaft : Nat) {dpa : Nat} (h : dpaRow dpa < 6144) : roomSet shaft dpa < 8192 := by
  have low : dpa / 2 ^ 14 % 512 * 16 + shaft % 4 * 4 + dpa / 2 ^ 6 % 4 < 2 ^ 13 := by omega
  exact Nat.xor_lt_two_pow low (Nat.lt_trans h (by decide))

/-- The fields of a place side by side (Table 2.3), the bay bits unfolded. -/
theorem dpaOf_eq (hash : Bool) (shaft shelf bank line : Nat) {row : Nat} (h : row < 6144) :
    dpaOf hash shaft shelf bank row line = row * 2 ^ 25 + shelf * 2 ^ 21 + bank * 2 ^ 17 + line / 4 * 2 ^ 14 + shaft / 16 * 2 ^ 12
      + (shaft % 16 ^^^ shaftFold hash row) * 2 ^ 8 + line % 4 * 2 ^ 6 := by
  have hx := mod_xor_shaftFold_lt hash shaft h
  cases hash with
  | false => simp [dpaOf, shaftFold]
  | true =>
    have hm : (shaft % 16 ^^^ rowFold row) % 16 = shaft % 16 ^^^ rowFold row := Nat.mod_eq_of_lt hx
    simp only [dpaOf, shaftFold, if_true, hm]

/-- A DPA's place put together is the first byte of its line: the bay bits, folded twice, are DPA[11:8] again. -/
theorem dpaOf_place (hash : Bool) {dpa : Nat} (h : dpaRow dpa < 6144) :
    dpaOf hash (dpaShaft hash dpa) (dpaShelf dpa) (dpaBank dpa) (dpaRow dpa) (dpaLineInRow dpa) = dpa / 64 * 64 := by
  rw [dpaOf_eq hash _ _ _ _ h, dpaShaft_div hash h, dpaShaft_mod hash h, xor_shaftFold_xor]
  simp only [dpaShelf, dpaBank, dpaRow, dpaLineInRow]
  omega

/-- Each field of a DPA that is put together from a place is the place's own; the bay bits come out folded. -/
theorem dpaOf_fields (hash : Bool) {shaft shelf bank row line : Nat} (hs : shaft < 64) (hf : shelf < 16) (hb : bank < 16) (hr : row < 6144)
    (hl : line < 32) :
    let dpa := dpaOf hash shaft shelf bank row line
    dpa < dpaEnd ∧ dpa / 2 ^ 12 % 4 = shaft / 16 ∧ dpa / 2 ^ 8 % 16 = shaft % 16 ^^^ shaftFold hash row ∧ dpaShelf dpa = shelf ∧
      dpaBank dpa = bank ∧ dpaRow dpa = row ∧ dpaLineInRow dpa = line := by
  have hx := mod_xor_shaftFold_lt hash shaft hr
  simp only [dpaShelf, dpaBank, dpaRow, dpaLineInRow, dpaEnd]
  have hd := dpaOf_eq hash shaft shelf bank line hr
  generalize dpaOf hash shaft shelf bank row line = dpa at hd ⊢
  generalize shaft % 16 ^^^ shaftFold hash row = bay at hx hd ⊢
  have above21 : dpa / 2 ^ 21 = row * 16 + shelf := by omega
  have above17 : dpa / 2 ^ 17 = (row * 16 + shelf) * 16 + bank := by omega
  have above14 : dpa / 2 ^ 14 = ((row * 16 + shelf) * 16 + bank) * 8 + line / 4 := by omega
  omega

/-- The shaft of a place's DPA is the place's shaft: folding the bay bits again undoes the fold. -/
theorem dpaShaft_dpaOf (hash : Bool) {shaft shelf bank row line : Nat} (hs : shaft < 64) (hf : shelf < 16) (hb : bank < 16) (hr : row < 6144)
    (hl : line < 32) : dpaShaft hash (dpaOf hash shaft shelf bank row line) = shaft := by
  obtain ⟨-, hwing, hbay, -, -, hrow, -⟩ := dpaOf_fields hash hs hf hb hr hl
  rw [dpaShaft_eq hash (Nat.lt_of_le_of_lt (Nat.le_of_eq hrow) hr), hwing, hbay, hrow, xor_shaftFold_xor]
  exact Nat.div_add_mod' shaft 16

/-- Settles O3: the fields are digits of the DPA, and the fold of the row undoes itself. -/
theorem linesHavePlaces : Obligations.LinesHavePlaces := by
  unfold Obligations.LinesHavePlaces
  constructor
  · intro dpa h
    have hr := dpaRow_lt h
    exact ⟨dpaShaft_off dpa, dpaShaft_eq true hr, fun hash =>
      ⟨dpaShaft_lt hash hr, hr, dpaLineInRow_lt dpa, roomSlice_lt (dpaShaft_lt hash hr), roomSet_lt _ hr, dpaOf_place hash hr⟩⟩
  · intro hash shaft shelf bank row line hs hf hb hr hl
    obtain ⟨hend, -, -, hshelf, hbank, hrow, hline⟩ := dpaOf_fields hash hs hf hb hr hl
    exact ⟨hend, dpaShaft_dpaOf hash hs hf hb hr hl, hshelf, hbank, hrow, hline⟩

end Sys2Proof.Machine
end

section
/-!
Reads with an effect and the time base (R11, R67, R68, R70). LOCAL_TIME_CHECK is a fold over the dies, so what it notes and marks is
stated for the fold over any list of dies. A slew moves the time and takes the marks it passes, and neither is a register field nor what
is left to slew.
-/

namespace Sys2Proof.Machine

open Sys2Proof

/-! ## Changes of the volatile state alone -/

/-- A change of the volatile state that leaves every field outside a list as it was keeps the frame of that list. -/
theorem State.frame_withDev {s : State} {f : Dev → Dev} {l : List Field}
    (h : ∀ g : Field, g.key ∉ l.map Field.key → (f s.dev).rd g = s.dev.rd g) : s.frame (s.withDev f) l :=
  ⟨rfl, rfl, fun _ => rfl, rfl, rfl, h⟩

/-- A write of one field, after a change of no field, leaves every other field alone. -/
theorem Dev.rd_wr_of_not_mem {d e : Dev} {f g : Field} (h : ∀ k : Field, e.rd k = d.rd k) (v : Nat)
    (hg : g.key ∉ [f].map Field.key) : (e.wr f v).rd g = d.rd g := by
  rw [Dev.rd_wr_ne e (List.ne_of_not_mem_cons hg), h g]

/-! ## The two halves of the time base (R68) -/

theorem State.regValue_tbTimeLo (s : State) : s.regValue .TB_TIME_LO 0 0 = s.dev.time % 2 ^ 32 := rfl

theorem State.regValue_tbTimeHi (s : State) : s.regValue .TB_TIME_HI 0 0 = s.dev.rd F.TB_TIME_HI_TIME := by
  change 0 + s.dev.rd F.TB_TIME_HI_TIME * 2 ^ 0 = s.dev.rd F.TB_TIME_HI_TIME
  omega

theorem exec_tbTimeLoRead (s : State) :
    exec .tbTimeLoRead s = .next (s.withDev fun d => d.wr F.TB_TIME_HI_TIME (s.dev.time / 2 ^ 32)) := rfl

/-! ## Counts cleared by their read (R11) -/

/-- The state that a read of a translation-fault count leaves. -/
def State.tfCountTaken (s : State) (patron : Fin 4096) (i : Fin 8) : State :=
  s.withDev fun d => ({ d with mgmt.word := d.rd (F.TF_COUNT_COUNT patron i) } : Dev).wr (F.TF_COUNT_COUNT patron i) 0

theorem exec_tfCountRead_of_exists {s : State} {patron : Fin 4096} (h : s.patronExists patron = true) (i : Fin 8) :
    exec (.tfCountRead patron i) s = .next (s.tfCountTaken patron i) :=
  congrArg Host.Outcome.next (if_neg fun habsent => habsent h)

theorem exec_tfCountRead_of_absent {s : State} {patron : Fin 4096} (h : s.patronExists patron = false) (i : Fin 8) :
    exec (.tfCountRead patron i) s = .next s :=
  congrArg Host.Outcome.next (if_pos (Bool.eq_false_iff.mp h))

theorem State.tfCountTaken_frame (s : State) (patron : Fin 4096) (i : Fin 8) :
    s.frame (s.tfCountTaken patron i) [F.TF_COUNT_COUNT patron i] :=
  State.frame_withDev fun _ hg => Dev.rd_wr_of_not_mem (fun _ => rfl) 0 hg

theorem State.tfCountTaken_rd (s : State) (patron : Fin 4096) (i : Fin 8) :
    (s.tfCountTaken patron i).dev.rd (F.TF_COUNT_COUNT patron i) = 0 := by
  simp [State.tfCountTaken]

/-! ## LOCAL_TIME_CHECK (R67) -/

/-- A local count more than 8 ns from the time base. -/
abbrev LocalOff (n time : Nat) : Prop := n + 8 < time ∨ time + 8 < n

/-- A die's local count noted. -/
def Dev.noteLocal (d : Dev) (die n : Nat) : Dev := { d with localCount := SMap.insert die n d.localCount }

/-- A die marked for a reload of its count, and its fault raised. -/
def Dev.markLocal (d : Dev) (die : Nat) : Dev :=
  ({ d with localReload := d.localReload.filter (· ≠ die) ++ [die] } : Dev).raise .localTimeMismatch (dieSource die)

/-- The dies marked after one more is. -/
theorem Dev.mem_markLocal_localReload (d : Dev) (die j : Nat) : j ∈ (d.markLocal die).localReload ↔ j ∈ d.localReload ∨ j = die := by
  simp only [Dev.markLocal, Dev.raise_localReload, List.mem_append, List.mem_filter, List.mem_singleton, decide_eq_true_eq]
  by_cases hj : j = die
  · simp only [hj, or_true]
  · exact or_congr_left (and_iff_left hj)

/-- The check of one die's local count. -/
def Dev.checkLocal (counts : List Nat) (d : Dev) (die : Nat) : Dev :=
  if LocalOff (counts.getD die d.time) d.time then (d.noteLocal die (counts.getD die d.time)).markLocal die
  else d.noteLocal die (counts.getD die d.time)

theorem exec_localTimeCheck (counts : List Nat) (s : State) :
    exec (.localTimeCheck counts) s = .next (s.withDev fun d => (List.range 18).foldl (Dev.checkLocal counts) d) := rfl

theorem Dev.checkLocal_time (counts : List Nat) (d : Dev) (die : Nat) : (d.checkLocal counts die).time = d.time := by
  unfold Dev.checkLocal
  split <;> rfl

theorem Dev.rd_checkLocal (counts : List Nat) (d : Dev) (die : Nat) (f : Field) : (d.checkLocal counts die).rd f = d.rd f := by
  unfold Dev.checkLocal
  split <;> rfl

theorem Dev.checkLocal_localCount (counts : List Nat) (d : Dev) (die : Nat) :
    (d.checkLocal counts die).localCount = SMap.insert die (counts.getD die d.time) d.localCount := by
  unfold Dev.checkLocal
  split <;> rfl

/-- The check of a die marks it exactly when its count is off, and unmarks none. -/
theorem Dev.mem_checkLocal_localReload (counts : List Nat) (d : Dev) (die j : Nat) :
    j ∈ (d.checkLocal counts die).localReload ↔ j ∈ d.localReload ∨ j = die ∧ LocalOff (counts.getD die d.time) d.time := by
  unfold Dev.checkLocal
  split
  case isTrue hoff => exact (Dev.mem_markLocal_localReload _ die j).trans (or_congr_right (and_iff_left hoff).symm)
  case isFalse hon => exact (or_iff_left fun ⟨_, hoff⟩ => hon hoff).symm

section Fold

variable (counts : List Nat) (l : List Nat) (d : Dev)

theorem Dev.foldl_checkLocal_time : (l.foldl (Dev.checkLocal counts) d).time = d.time :=
  List.foldlRecOn l _ (motive := fun e : Dev => e.time = d.time) rfl fun e he die _ => (e.checkLocal_time counts die).trans he

theorem Dev.rd_foldl_checkLocal (f : Field) : (l.foldl (Dev.checkLocal counts) d).rd f = d.rd f :=
  List.foldlRecOn l _ (motive := fun e : Dev => e.rd f = d.rd f) rfl fun e he die _ => (e.rd_checkLocal counts die f).trans he

/-- The noted count of a checked die is the one it sent; that of any other die stands. -/
theorem Dev.foldl_checkLocal_localCount (die : Nat) :
    SMap.get 0 (l.foldl (Dev.checkLocal counts) d).localCount die =
      if die ∈ l then counts.getD die d.time else SMap.get 0 d.localCount die := by
  induction l generalizing d with
  | nil => rfl
  | cons x l ih =>
    rw [List.foldl_cons, ih, Dev.checkLocal_time, Dev.checkLocal_localCount]
    by_cases hx : die = x
    · rw [hx, SMap.get_insert_same, if_pos List.mem_cons_self, ite_self]
    · simp only [SMap.get_insert_ne 0 hx, List.mem_cons, hx, false_or]

/-- The dies marked are those marked before and the checked ones whose count is off. -/
theorem Dev.mem_foldl_checkLocal_localReload (die : Nat) :
    die ∈ (l.foldl (Dev.checkLocal counts) d).localReload ↔
      die ∈ d.localReload ∨ die ∈ l ∧ LocalOff (counts.getD die d.time) d.time := by
  induction l generalizing d with
  | nil => exact (or_iff_left fun h => List.not_mem_nil h.1).symm
  | cons x l ih =>
    rw [List.foldl_cons, ih, Dev.checkLocal_time, Dev.mem_checkLocal_localReload, List.mem_cons, or_assoc, or_and_right]
    by_cases hx : die = x
    · rw [hx]
    · simp only [hx, false_and]

end Fold

/-! ## TB_SLEW_COMPLETE (R70) -/

theorem Dev.circulate_slewRest (d : Dev) (p : Nat) (f : Circ → Circ) : (d.circulate p f).slewRest = d.slewRest := rfl

theorem Dev.sampleLeaves_slewRest (d : Dev) : d.sampleLeaves.slewRest = d.slewRest := by
  refine List.foldlRecOn (List.range 4096) _ (motive := fun e : Dev => e.slewRest = d.slewRest) rfl fun e he p _ => ?_
  dsimp only
  split
  · exact he
  · rw [Dev.circulate_slewRest, he]

theorem Dev.leafMarks_slewRest (d : Dev) (fuel : Nat) : (d.leafMarks fuel).slewRest = d.slewRest := by
  induction fuel generalizing d with
  | zero => rfl
  | succ fuel ih =>
    rw [Dev.leafMarks]
    split
    · rw [ih, Dev.sampleLeaves_slewRest]
    · rfl

/-- A move of the time base leaves what is left to slew. -/
theorem Dev.moveTime_slewRest (d : Dev) (n : Int) : (d.moveTime n).slewRest = d.slewRest := by
  unfold Dev.moveTime
  dsimp only
  split
  · rfl
  · exact Dev.leafMarks_slewRest _ _

/-- A move back sets the time and the last mark taken, and nothing else. -/
theorem Dev.moveTime_of_neg (d : Dev) {n : Int} (h : n < 0) :
    d.moveTime n = { d with
      time := ((d.time : Int) + n).toNat, lastMs := min d.lastMs (((d.time : Int) + n).toNat / 1000000 * 1000000) } :=
  if_pos h

/-- The device after the remainder has been slewed out. -/
def Dev.slewed (d : Dev) : Dev := (({ d with slewRest := 0 } : Dev).moveTime d.slewRest).wr F.TB_STATUS_SLEWING 0

theorem exec_tbSlewComplete (s : State) : exec .tbSlewComplete s = .next (s.withDev Dev.slewed) := rfl

theorem Dev.slewed_slewing (d : Dev) : d.slewed.rd F.TB_STATUS_SLEWING = 0 := Dev.rd_wr_same _ _ _

theorem Dev.slewed_slewRest (d : Dev) : d.slewed.slewRest = 0 := Dev.moveTime_slewRest _ _

theorem Dev.slewed_time_of_neg {d : Dev} (h : d.slewRest < 0) : d.slewed.time = ((d.time : Int) + d.slewRest).toNat := by
  rw [Dev.slewed, Dev.wr_time, Dev.moveTime_of_neg _ h]

/-- A slew back changes no register field but SLEWING. -/
theorem Dev.rd_slewed_of_neg {d : Dev} (h : d.slewRest < 0) {g : Field} (hg : g.key ∉ [F.TB_STATUS_SLEWING].map Field.key) :
    d.slewed.rd g = d.rd g := by
  rw [Dev.slewed, Dev.moveTime_of_neg _ h]
  exact Dev.rd_wr_of_not_mem (fun _ => rfl) 0 hg

/-! ## The statement -/

/-- Settles O20: the upper half is captured at the time the lower is read, and the check of one die touches no other's count or mark. -/
theorem timeIsReadAndCorrected : Obligations.TimeIsReadAndCorrected := by
  unfold Obligations.TimeIsReadAndCorrected
  intro s
  refine ⟨exec_tbTimeLoRead s, ⟨s.regValue_tbTimeLo, s.regValue_tbTimeHi⟩, ⟨_, exec_tbTimeLoRead s, ?halvesAgree⟩,
    fun patron i h => ⟨_, exec_tfCountRead_of_exists h i, s.tfCountTaken_frame patron i, rfl, s.tfCountTaken_rd patron i⟩,
    fun patron i h => exec_tfCountRead_of_absent h i, fun counts => ⟨_, exec_localTimeCheck counts s, ?checkFrame, fun die hdie => ?checkedDie⟩,
    ⟨_, exec_tbSlewComplete s, Dev.slewed_slewing _, Dev.slewed_slewRest _, fun h => ⟨Dev.slewed_time_of_neg h, ?slewFrame⟩⟩⟩
  case halvesAgree =>
    rw [State.regValue_tbTimeLo, State.regValue_tbTimeHi, State.withDev_dev, Dev.rd_wr_same, Dev.wr_time]
    change s.dev.time % 2 ^ 32 + 2 ^ 32 * (s.dev.time / 2 ^ 32 % 2 ^ 32) = s.dev.time % 2 ^ 64
    omega
  case checkFrame => exact State.frame_withDev fun g _ => Dev.rd_foldl_checkLocal counts _ s.dev g
  case checkedDie =>
    have hmem : die ∈ List.range 18 := List.mem_range.mpr hdie
    refine ⟨_, rfl, (Dev.foldl_checkLocal_localCount counts _ s.dev die).trans (if_pos hmem), ?_⟩
    rw [State.withDev_dev, Dev.mem_foldl_checkLocal_localReload]
    exact or_congr_right (and_iff_right hmem)
  case slewFrame => exact State.frame_withDev fun _ hg => Dev.rd_slewed_of_neg h hg

end Sys2Proof.Machine
end

section
/-!
The SEAL commands (R194 to R197). Each ends in the same way: RESULT, and SEAL_DATA cleared. So what a command's end leaves of the fields is
said once, as a list of writes to fields of different keys, and each command is its keys' change and that end.
-/

namespace Sys2Proof.Machine

open Sys2Proof

/-! ## Slots of keys -/

theorem slotAt_cons {α : Type} (k' : Nat) (v : α) (m : SMap α) (k : Nat) :
    slotAt ((k', v) :: m) k = if k' = k then some v else slotAt m k := by
  by_cases h : k' = k <;> simp [slotAt, h]

/-- A slot holds what was put in it, in whatever order the others stand. -/
theorem slotAt_insert_same {α : Type} (k : Nat) (v : α) (m : SMap α) : slotAt (SMap.insert k v m) k = some v := by
  fun_induction SMap.insert k v m with
  | case1 => simp [slotAt_cons]
  | case2 => simp [slotAt_cons]
  | case3 => simp [slotAt_cons]
  | case4 k' v' m _ hne ih => rw [slotAt_cons, if_neg (Ne.symm hne), ih]

/-- A slot that was emptied holds nothing. -/
theorem slotAt_erase_same {α : Type} (k : Nat) (m : SMap α) : slotAt (SMap.erase k m) k = none := by
  fun_induction SMap.erase k m with
  | case1 => rfl
  | case2 v m ih => exact ih
  | case3 k' v m hne ih => rw [slotAt_cons, if_neg hne, ih]

/-! ## Several fields set -/

/-- Fields set in turn leave every other field alone. -/
theorem Dev.rd_wrs_of_not_mem {l : List (Field × Nat)} {g : Field} (d : Dev) (hg : g.key ∉ (l.map Prod.fst).map Field.key) :
    (d.wrs l).rd g = d.rd g := by
  induction l generalizing d with
  | nil => rfl
  | cons x l ih =>
    rw [Dev.wrs_cons, ih _ (List.not_mem_of_not_mem_cons hg), Dev.rd_wr_ne d (List.ne_of_not_mem_cons hg)]

/-- Of fields with different keys, set in turn, each reads its own value. -/
theorem Dev.rd_wrs_of_mem {l : List (Field × Nat)} {f : Field} {v : Nat} (d : Dev) (hl : ((l.map Prod.fst).map Field.key).Nodup)
    (hf : (f, v) ∈ l) : (d.wrs l).rd f = v % 2 ^ f.width := by
  induction l generalizing d with
  | nil => exact absurd hf List.not_mem_nil
  | cons x l ih =>
    obtain ⟨hx, hl⟩ := List.nodup_cons.mp hl
    rw [Dev.wrs_cons]
    rcases List.mem_cons.mp hf with rfl | hf
    · rw [Dev.rd_wrs_of_not_mem _ hx, Dev.rd_wr_same]
    · exact ih _ hl hf

@[simp] theorem Dev.wrs_keks (d : Dev) (l : List (Field × Nat)) : (d.wrs l).keks = d.keks :=
  List.foldlRecOn l _ (motive := fun e : Dev => e.keks = d.keks) rfl fun _ he _ _ => he

@[simp] theorem Dev.wrs_vault (d : Dev) (l : List (Field × Nat)) : (d.wrs l).vault = d.vault :=
  List.foldlRecOn l _ (motive := fun e : Dev => e.vault = d.vault) rfl fun _ he _ _ => he

@[simp] theorem Dev.wrs_nextKeys (d : Dev) (l : List (Field × Nat)) : (d.wrs l).nextKeys = d.nextKeys :=
  List.foldlRecOn l _ (motive := fun e : Dev => e.nextKeys = d.nextKeys) rfl fun _ he _ _ => he

/-! ## SEAL_DATA and the end of a command (R195) -/

/-- The fields of SEAL_DATA. -/
def sealDataFields : List Field := (List.range 18).map F.SEAL_DATA_DATA

/-- The fields that the end of a command sets. -/
def sealEndFields : List Field := F.SEAL_STATUS_RESULT :: F.SEAL_STATUS_NEXT_FREE :: sealDataFields

/-- The writes that clear SEAL_DATA. -/
def sealDataZeros : List (Field × Nat) := sealDataFields.map (·, 0)

/-- The writes of the end of a command with a RESULT and a number of free next-key slots. -/
def sealEndWrites (result free : Nat) : List (Field × Nat) :=
  (F.SEAL_STATUS_RESULT, result) :: (F.SEAL_STATUS_NEXT_FREE, free) :: sealDataZeros

theorem map_fst_sealDataZeros : sealDataZeros.map Prod.fst = sealDataFields := by
  simp [sealDataZeros, Function.comp_def]

theorem map_fst_sealEndWrites (result free : Nat) : (sealEndWrites result free).map Prod.fst = sealEndFields := by
  simp [sealEndWrites, sealEndFields, map_fst_sealDataZeros]

theorem nodup_sealEndFields_keys : (sealEndFields.map Field.key).Nodup := by decide

/-- The fields of SEAL lie below those of the patrons. -/
theorem key_lt_of_mem_sealEndFields : ∀ f ∈ sealEndFields, f.key < 0x1000000 * 32 := by decide

theorem Dev.clearSealData_eq_wrs (d : Dev) : d.clearSealData = d.wrs sealDataZeros := rfl

theorem Dev.sealEnd_eq_wrs (d : Dev) (r : Nat) : d.sealEnd r = d.wrs (sealEndWrites r (16 - d.nextKeys.length)) := rfl

theorem Dev.rd_clearSealData_of_not_mem (d : Dev) {g : Field} (hg : g.key ∉ sealDataFields.map Field.key) :
    d.clearSealData.rd g = d.rd g := by
  rw [Dev.clearSealData_eq_wrs, Dev.rd_wrs_of_not_mem]
  rwa [map_fst_sealDataZeros]

theorem Dev.rd_clearSealData_of_mem (d : Dev) {f : Field} (hf : f ∈ sealDataFields) : d.clearSealData.rd f = 0 := by
  have hmem : (f, 0) ∈ sealDataZeros := List.mem_map_of_mem hf
  rw [Dev.clearSealData_eq_wrs, Dev.rd_wrs_of_mem d _ hmem, Nat.zero_mod]
  rw [map_fst_sealDataZeros]
  exact nodup_sealEndFields_keys.of_cons.of_cons

theorem Dev.rd_sealEnd_of_not_mem (d : Dev) (r : Nat) {g : Field} (hg : g.key ∉ sealEndFields.map Field.key) :
    (d.sealEnd r).rd g = d.rd g := by
  rw [Dev.sealEnd_eq_wrs, Dev.rd_wrs_of_not_mem]
  rwa [map_fst_sealEndWrites]

theorem Dev.rd_sealEnd_result (d : Dev) {r : Nat} (h : r < 8) : (d.sealEnd r).rd F.SEAL_STATUS_RESULT = r := by
  have hmem : (F.SEAL_STATUS_RESULT, r) ∈ sealEndWrites r (16 - d.nextKeys.length) := List.mem_cons_self
  rw [Dev.sealEnd_eq_wrs, Dev.rd_wrs_of_mem d _ hmem]
  · exact Nat.mod_eq_of_lt h
  · rw [map_fst_sealEndWrites]
    exact nodup_sealEndFields_keys

theorem Dev.rd_sealEnd_data (d : Dev) (r : Nat) {f : Field} (hf : f ∈ sealDataFields) : (d.sealEnd r).rd f = 0 := by
  rw [Dev.sealEnd, Dev.rd_clearSealData_of_mem _ hf]

/-- The end of a command leaves a patron's fields alone. -/
theorem Dev.rd_sealEnd_of_patron (d : Dev) (r : Nat) {g : Field} (hg : 0x1000000 * 32 ≤ g.key) : (d.sealEnd r).rd g = d.rd g := by
  refine Dev.rd_sealEnd_of_not_mem d r fun hmem => ?_
  obtain ⟨f, hf, hkey⟩ := List.mem_map.mp hmem
  exact absurd (key_lt_of_mem_sealEndFields f hf) (Nat.not_lt.mpr (hkey ▸ hg))

@[simp] theorem Dev.clearSealData_keks (d : Dev) : d.clearSealData.keks = d.keks := by
  rw [Dev.clearSealData_eq_wrs, Dev.wrs_keks]

@[simp] theorem Dev.clearSealData_vault (d : Dev) : d.clearSealData.vault = d.vault := by
  rw [Dev.clearSealData_eq_wrs, Dev.wrs_vault]

@[simp] theorem Dev.sealEnd_keks (d : Dev) (r : Nat) : (d.sealEnd r).keks = d.keks := by rw [Dev.sealEnd_eq_wrs, Dev.wrs_keks]
@[simp] theorem Dev.sealEnd_vault (d : Dev) (r : Nat) : (d.sealEnd r).vault = d.vault := by rw [Dev.sealEnd_eq_wrs, Dev.wrs_vault]
@[simp] theorem Dev.sealEnd_nextKeys (d : Dev) (r : Nat) : (d.sealEnd r).nextKeys = d.nextKeys := by
  rw [Dev.sealEnd_eq_wrs, Dev.wrs_nextKeys]

/-- The state after a command that changed the device to `d` and ended with a RESULT. -/
def State.sealEnded (s : State) (d : Dev) (r : Nat) : State := s.withDev fun _ => d.sealEnd r

theorem State.sealEnded_dev (s : State) (d : Dev) (r : Nat) : (s.sealEnded d r).dev = d.sealEnd r := rfl

/-- A command that changed no field but those of a list changes no field but those and the ones that its end sets. -/
theorem State.sealEnded_frame {s : State} {d : Dev} (l : List Field) (r : Nat)
    (h : ∀ g : Field, g.key ∉ l.map Field.key → d.rd g = s.dev.rd g) : s.frame (s.sealEnded d r) (l ++ sealEndFields) :=
  State.frame_withDev fun g hg => by
    rw [List.map_append, List.mem_append, not_or] at hg
    rw [Dev.rd_sealEnd_of_not_mem d r hg.2, h g hg.1]

/-- The RESULT reads, and SEAL_DATA is clear. -/
theorem State.sealEnded_done (s : State) (d : Dev) {r : Nat} (h : r < 8) :
    (s.sealEnded d r).dev.rd F.SEAL_STATUS_RESULT = r ∧ ∀ f ∈ sealDataFields, (s.sealEnded d r).dev.rd f = 0 :=
  ⟨d.rd_sealEnd_result h, fun _ hf => d.rd_sealEnd_data r hf⟩

/-- A command whose change of the device ends with a RESULT. -/
theorem State.next_sealEnded {s : State} {f : Dev → Dev} {d : Dev} {r : Nat} (h : f s.dev = d.sealEnd r) :
    s.next f = .next (s.sealEnded d r) := by
  rw [State.next_eq, State.sealEnded, State.withDev, h, State.withDev]

/-! ## Keys in and out of their slots -/

/-- SEAL_DATA's first 32 bytes in a KEK slot. -/
def Dev.kekLoaded (d : Dev) (slot : Nat) : Dev :=
  { d with keks := SMap.insert slot (BitVec.ofNat 256 (natOfBytes (d.sealData.take 32))) d.keks }

/-- A KEK slot emptied. -/
def Dev.kekCleared (d : Dev) (slot : Nat) : Dev := { d with keks := SMap.erase slot d.keks }

/-- The bits of a patron that say its vault key is loaded, not lost, and of epoch 0. -/
def keyLoadedFields (p : Nat) : List Field :=
  [F.PATRON_STATUS_KEY_LOADED p, F.PATRON_STATUS_KEY_LOST p, F.PATRON_STATUS_KEY_EPOCH p]

/-- The writes of an accepted LOAD_KEY (R196). -/
def keyLoadedWrites (p : Nat) : List (Field × Nat) :=
  [(F.PATRON_STATUS_KEY_LOADED p, 1), (F.PATRON_STATUS_KEY_LOST p, 0), (F.PATRON_STATUS_KEY_EPOCH p, 0)]

/-- A key in a patron's vault slot. -/
def Dev.vaultSet (d : Dev) (p : Nat) (key : BitVec 512) : Dev := { d with vault := SMap.insert p key d.vault }

/-- A key in a patron's vault slot, and the bits that say so. -/
def Dev.keyLoaded (d : Dev) (p : Nat) (key : BitVec 512) : Dev := (d.vaultSet p key).wrs (keyLoadedWrites p)

/-- A key in a patron's next-key slot. -/
def Dev.nextLoaded (d : Dev) (p : Nat) (key : BitVec 512) : Dev :=
  ({ d with nextKeys := SMap.insert p key d.nextKeys } : Dev).wr (F.PATRON_STATUS_NEXT_KEY_LOADED p) 1

theorem map_fst_keyLoadedWrites (p : Nat) : (keyLoadedWrites p).map Prod.fst = keyLoadedFields p := rfl

theorem nodup_keyLoadedFields_keys (p : Nat) : ((keyLoadedFields p).map Field.key).Nodup := by
  simp [keyLoadedFields, Field.key, F.PATRON_STATUS_KEY_LOADED, F.PATRON_STATUS_KEY_LOST, F.PATRON_STATUS_KEY_EPOCH]

theorem patron_key_ge {p : Nat} {f : Field} (hf : f ∈ F.PATRON_STATUS_NEXT_KEY_LOADED p :: keyLoadedFields p) :
    0x1000000 * 32 ≤ f.key := by
  have hbase : 0x1000000 ≤ 0x1000004 + p * 0x100 := by omega
  simp only [keyLoadedFields, List.mem_cons, List.not_mem_nil, or_false] at hf
  rcases hf with rfl | rfl | rfl | rfl <;> exact Nat.le_add_right_of_le (Nat.mul_le_mul_right 32 hbase)

theorem Dev.rd_keyLoaded_of_not_mem (d : Dev) (p : Nat) (key : BitVec 512) {g : Field}
    (hg : g.key ∉ (keyLoadedFields p).map Field.key) : (d.keyLoaded p key).rd g = d.rd g := by
  rw [← map_fst_keyLoadedWrites] at hg
  rw [Dev.keyLoaded, Dev.rd_wrs_of_not_mem _ hg]
  rfl

theorem keyLoadedWrites_fit (p : Nat) : ∀ x ∈ keyLoadedWrites p, x.2 % 2 ^ x.1.width = x.2 := by
  simp [keyLoadedWrites, F.PATRON_STATUS_KEY_LOADED]

/-- After LOAD_KEY's end each of its patron's bits reads what was written (R196). -/
theorem Dev.rd_sealEnd_keyLoaded (d : Dev) (p : Nat) (key : BitVec 512) (r : Nat) {f : Field} {v : Nat} (hf : (f, v) ∈ keyLoadedWrites p) :
    ((d.keyLoaded p key).sealEnd r).rd f = v := by
  have hmem : f ∈ keyLoadedFields p := List.mem_map_of_mem (f := Prod.fst) hf
  rw [Dev.rd_sealEnd_of_patron _ r (patron_key_ge (List.mem_cons_of_mem _ hmem)), Dev.keyLoaded, Dev.rd_wrs_of_mem _ _ hf,
    keyLoadedWrites_fit p _ hf]
  rw [map_fst_keyLoadedWrites]
  exact nodup_keyLoadedFields_keys p

/-! ## What each command does -/

section Commands

variable {d : Dev} {present : Bool} {p : Nat}

theorem Dev.loadKek_of_unlocked (h : d.rd F.SEAL_CTL_KEK_LOCK = 0) (slot : Nat) : d.loadKek slot = (d.kekLoaded slot).sealEnd 0 :=
  if_neg (by simpa using h)

theorem Dev.loadKek_of_locked (h : d.rd F.SEAL_CTL_KEK_LOCK ≠ 0) (slot : Nat) : d.loadKek slot = d.sealEnd 5 :=
  if_pos (by simpa using h)

/-- A patron that may hold keys: it exists, is not patron 0, and is sealed. -/
def Dev.MayHoldKeys (d : Dev) (present : Bool) (p : Nat) : Prop := present = true ∧ p ≠ 0 ∧ d.rd (F.PATRON_CTL_SEALED p) ≠ 0

theorem Dev.not_mayHoldKeys_iff : ¬ d.MayHoldKeys present p ↔ !present ∨ p = 0 ∨ ¬ d.flag (F.PATRON_CTL_SEALED p) := by
  simp only [Dev.MayHoldKeys, Dev.flag_eq, Classical.not_and_iff_not_or_not, ne_eq, Decidable.not_not, decide_eq_true_eq, Bool.not_eq_true,
    Bool.not_eq_eq_eq_not, Bool.not_true]

theorem Dev.loadKey_of_not_mayHoldKeys (h : ¬ d.MayHoldKeys present p) (kek : Nat) : d.loadKey present p kek = d.sealEnd 6 :=
  if_pos (Dev.not_mayHoldKeys_iff.mp h)

theorem Dev.loadNext_of_not_mayHoldKeys (h : ¬ d.MayHoldKeys present p) (kek : Nat) : d.loadNext present p kek = d.sealEnd 6 :=
  if_pos ((Dev.not_mayHoldKeys_iff.mp h).imp_right (Or.imp_right .inl))

theorem Dev.dropNext_of_not_mayHoldKeys (h : ¬ d.MayHoldKeys present p) : d.dropNext present p = d.sealEnd 6 :=
  if_pos ((Dev.not_mayHoldKeys_iff.mp h).imp_right (Or.imp_right .inl))

/-- LOAD_KEY accepted (R195): the patron is disabled, or its key was lost. -/
theorem Dev.loadKey_of_accepted {kek : Nat} {key : BitVec 512} (h : d.MayHoldKeys present p)
    (hoff : (d.rd (F.PATRON_CTL_ENABLE p) = 0 ∧ d.rd (F.PATRON_STATUS_DISABLING p) = 0) ∨ d.rd (F.PATRON_STATUS_KEY_LOST p) ≠ 0)
    (hkey : d.unwrapSeal kek = .ok key) : d.loadKey present p kek = (d.keyLoaded p key).sealEnd 0 := by
  have hnotInUse : ¬ ((d.flag (F.PATRON_CTL_ENABLE p) ∨ d.flag (F.PATRON_STATUS_DISABLING p)) ∧ ¬ d.flag (F.PATRON_STATUS_KEY_LOST p)) := by
    simp only [Dev.flag_eq, decide_eq_true_eq]
    rintro ⟨hinUse, hkept⟩
    rcases hoff with ⟨hdisabled, hended⟩ | hlost
    · rcases hinUse with henabled | hdisabling
      · exact henabled hdisabled
      · exact hdisabling hended
    · exact hkept hlost
  rw [Dev.loadKey, if_neg (mt Dev.not_mayHoldKeys_iff.mpr (not_not_intro h)), if_neg hnotInUse, hkey]
  rfl

/-- LOAD_NEXT accepted (R197): the patron is enabled, a slot is free, and the patron has none yet. -/
theorem Dev.loadNext_of_accepted {kek : Nat} {key : BitVec 512} (h : d.MayHoldKeys present p) (hon : d.rd (F.PATRON_CTL_ENABLE p) ≠ 0)
    (hroom : d.nextKeys.length < 16) (hfree : slotAt d.nextKeys p = none) (hkey : d.unwrapSeal kek = .ok key) :
    d.loadNext present p kek = (d.nextLoaded p key).sealEnd 0 := by
  obtain ⟨hpresent, hp, hsealed⟩ := h
  rw [Dev.loadNext, if_neg (by simp [hpresent, hp, hsealed, hon]), if_neg (by simp [hroom, hfree]), hkey]
  rfl

/-- DROP_NEXT accepted (R197). -/
theorem Dev.dropNext_of_accepted (h : d.MayHoldKeys present p) (hrekey : d.rekeying.contains p = false) :
    d.dropNext present p = (d.freeNext p).sealEnd 0 := by
  obtain ⟨hpresent, hp, hsealed⟩ := h
  rw [Dev.dropNext, if_neg (by simp [-List.contains_eq_mem, hpresent, hp, hsealed, hrekey])]

end Commands

/-! ## The commands on the whole state -/

section Exec

variable {s : State} {p : Fin 4096} {kek : Fin 16}

theorem exec_loadKek (slot : Fin 16) : exec (.loadKek slot) s = s.next fun d => d.loadKek slot := rfl

theorem exec_clearKek (slot : Fin 16) : exec (.clearKek slot) s = .next (s.sealEnded (s.dev.kekCleared slot) 0) := rfl

theorem exec_sealReservedOp : exec .sealReservedOp s = .next (s.withDev Dev.clearSealData) := rfl

theorem exec_kekLock : exec .kekLock s = .next (s.withDev fun d => d.wr F.SEAL_CTL_KEK_LOCK 1) := rfl

theorem exec_loadKey : exec (.loadKey p kek) s = s.next fun d => d.loadKey (s.patronExists p) p kek := rfl

theorem exec_loadNext : exec (.loadNext p kek) s = s.next fun d => d.loadNext (s.patronExists p) p kek := rfl

theorem exec_dropNext : exec (.dropNext p) s = s.next fun d => d.dropNext (s.patronExists p) p := rfl

end Exec

/-! ## The statement -/

/-- Settles O25: each command is a change of its keys and the one end, which sets RESULT and clears SEAL_DATA. -/
theorem sealCommandsMoveKeys : Obligations.SealCommandsMoveKeys := by
  unfold Obligations.SealCommandsMoveKeys
  intro s slot p kek data done fields
  refine ⟨fun hunlocked => ?loadKek, fun hlocked => ?loadKekLocked, ?clearKek, ?reservedOp, ?kekLock,
    fun key hpresent hp hsealed hkey => ?keysIn, fun hnone => ?noKeys, fun hpresent hp hsealed hrekey => ?dropNext⟩
  case loadKek =>
    rw [exec_loadKek]
    refine ⟨_, State.next_sealEnded (Dev.loadKek_of_unlocked hunlocked slot), State.sealEnded_frame [] 0 fun _ _ => rfl,
      s.sealEnded_done _ (by decide), ?_, Dev.sealEnd_vault _ 0⟩
    rw [State.sealEnded_dev, Dev.sealEnd_keks]
    exact slotAt_insert_same _ _ _
  case loadKekLocked =>
    rw [exec_loadKek]
    exact ⟨_, State.next_sealEnded (Dev.loadKek_of_locked hlocked slot), State.sealEnded_frame [] 5 fun _ _ => rfl,
      s.sealEnded_done _ (by decide), Dev.sealEnd_keks _ 5⟩
  case clearKek =>
    refine ⟨_, exec_clearKek slot, State.sealEnded_frame [] 0 fun _ _ => rfl, s.sealEnded_done _ (by decide), ?_,
      Dev.sealEnd_vault _ 0⟩
    rw [State.sealEnded_dev, Dev.sealEnd_keks]
    exact slotAt_erase_same _ _
  case reservedOp =>
    exact ⟨_, exec_sealReservedOp, State.frame_withDev fun _ hg => s.dev.rd_clearSealData_of_not_mem hg,
      fun _ hf => s.dev.rd_clearSealData_of_mem hf, s.dev.clearSealData_keks, s.dev.clearSealData_vault⟩
  case kekLock =>
    exact ⟨_, exec_kekLock, State.frame_withDev fun _ hg => Dev.rd_wr_of_not_mem (fun _ => rfl) 1 hg, Dev.rd_wr_same _ _ _⟩
  case keysIn =>
    have hmay : s.dev.MayHoldKeys (s.patronExists p) p := ⟨hpresent, Fin.val_ne_zero_iff.mpr hp, hsealed⟩
    rw [exec_loadKey, exec_loadNext]
    refine ⟨fun hoff => ?loadKey, fun hon hroom hfree => ?loadNext⟩
    case loadKey =>
      refine ⟨_, State.next_sealEnded (Dev.loadKey_of_accepted hmay hoff hkey),
        State.sealEnded_frame (keyLoadedFields p) 0 fun _ hg => s.dev.rd_keyLoaded_of_not_mem p key hg, s.sealEnded_done _ (by decide),
        ?_, s.dev.rd_sealEnd_keyLoaded p key 0 (.head _), s.dev.rd_sealEnd_keyLoaded p key 0 (.tail _ (.head _)),
        s.dev.rd_sealEnd_keyLoaded p key 0 (.tail _ (.tail _ (.head _)))⟩
      rw [State.sealEnded_dev, Dev.sealEnd_vault, Dev.keyLoaded, Dev.wrs_vault]
      exact slotAt_insert_same _ _ _
    case loadNext =>
      refine ⟨_, State.next_sealEnded (Dev.loadNext_of_accepted hmay hon hroom hfree hkey),
        State.sealEnded_frame [F.PATRON_STATUS_NEXT_KEY_LOADED p] 0 fun _ hg => Dev.rd_wr_of_not_mem (fun _ => rfl) 1 hg,
        s.sealEnded_done _ (by decide), ?nextKey, ?nextLoaded⟩
      case nextKey =>
        rw [State.sealEnded_dev, Dev.sealEnd_nextKeys]
        exact slotAt_insert_same _ _ _
      case nextLoaded =>
        rw [State.sealEnded_dev, Dev.rd_sealEnd_of_patron _ _ (patron_key_ge List.mem_cons_self)]
        exact Dev.rd_wr_same _ _ _
  case noKeys =>
    have hnot : ¬ s.dev.MayHoldKeys (s.patronExists p) p := by
      rintro ⟨hpresent, hp, hsealed⟩
      rcases hnone with hzero | habsent | hunsealed
      · exact hp (congrArg Fin.val hzero)
      · exact Bool.eq_false_iff.mp habsent hpresent
      · exact hsealed hunsealed
    have hframe : s.frame (s.sealEnded s.dev 6) fields := State.sealEnded_frame [] 6 fun _ _ => rfl
    have hdone : done (s.sealEnded s.dev 6) 6 := s.sealEnded_done _ (by decide)
    rw [exec_loadKey, exec_loadNext, exec_dropNext]
    exact ⟨⟨_, State.next_sealEnded (Dev.loadKey_of_not_mayHoldKeys hnot kek), hframe, hdone, Dev.sealEnd_vault _ 6⟩,
      fun _ _ => ⟨_, State.next_sealEnded (Dev.loadNext_of_not_mayHoldKeys hnot kek), hframe, hdone, Dev.sealEnd_nextKeys _ 6⟩,
      ⟨_, State.next_sealEnded (Dev.dropNext_of_not_mayHoldKeys hnot), hframe, hdone, Dev.sealEnd_nextKeys _ 6⟩⟩
  case dropNext =>
    have hmay : s.dev.MayHoldKeys (s.patronExists p) p := ⟨hpresent, Fin.val_ne_zero_iff.mpr hp, hsealed⟩
    rw [exec_dropNext]
    refine ⟨_, State.next_sealEnded (Dev.dropNext_of_accepted hmay hrekey),
      State.sealEnded_frame [F.PATRON_STATUS_NEXT_KEY_LOADED p] 0 fun _ hg => Dev.rd_wr_of_not_mem (fun _ => rfl) 0 hg,
      s.sealEnded_done _ (by decide), ?_⟩
    rw [State.sealEnded_dev, Dev.sealEnd_nextKeys]
    exact slotAt_erase_same _ _

end Sys2Proof.Machine
end

section
/-!
What every command keeps of the parts of the state that few commands write: DRAM, ledger, layout, fuses and queue. A command is asked for no
more than its own kind of write: DRAM for one that stores, the ledger for one that writes it, the layout for one that may restart.
-/

namespace Sys2Proof.Machine

open Sys2Proof

variable {P : State → Prop}

/-- A property that bears the writes of a command's kind, and those of the volatile state and of a layout that is not locked, holds after it. -/
theorem exec_kept {c : Instr} (hd : DevFree P) (hy : LayoutFree P) (hm : storesNothing c = false → MemFree P)
    (hl : writesLedger c = true → LedgerFree P) (hr : restarts c = true → ResetFree P) {s : State} (hs : P s) :
    ∀ t, exec c s = .next t → P t := by
  cases c with
  | registerWrite path addr value => exact execRegisterWrite_kept hd (hm rfl) hy hs path addr value
  | tickColumnFault die column => exact execTickColumnFault_kept hd (hm rfl) hs die column
  | paceWindow counts => exact execPaceWindow_kept hd hs counts
  | handshakeStall channel lost => exact execHandshakeStall_kept hd (hm rfl) hs channel lost
  | localTimeCheck counts => exact execLocalTimeCheck_kept hd hs counts
  | tbTimeLoRead => exact execTbTimeLoRead_kept hd hs
  | lendingBoundary => exact execLendingBoundary_kept hd (hm rfl) hs
  | twinTakeover bay cause lost => exact execTwinTakeover_kept hd (hm rfl) hs bay cause lost
  | takeoverDrainComplete bay => exact execTakeoverDrainComplete_kept hd (hm rfl) hs bay
  | twinHandback bay => exact execTwinHandback_kept hd (hm rfl) hs bay
  | rrFlushStart value => exact execRrFlushStart_kept hd (hm rfl) hs value
  | act shaft level bank row patron countBad noise => exact execAct_kept hd hs shaft level bank row patron countBad noise
  | ping shaft level noise => exact execPing_kept hd hs shaft level noise
  | rd shaft level bank line ap cls grp patron scrub noise => exact execRd_kept hd hs shaft level bank line ap cls grp patron scrub noise
  | wr shaft level bank line ap cls grp noise => exact execWr_kept hd hs shaft level bank line ap cls grp noise
  | pre shaft level bank all noise => exact execPre_kept hd hs shaft level bank all noise
  | ref shaft level bank noise => exact execRef_kept hd hs shaft level bank noise
  | tref shaft level claim noise => exact execTref_kept hd hs shaft level claim noise
  | srefEnter shaft level noise => exact execSrefEnter_kept hd hs shaft level noise
  | srefExit shaft level noise => exact execSrefExit_kept hd hs shaft level noise
  | srr shaft level word noise => exact execSrr_kept hd hs shaft level word noise
  | srw shaft level word data noise => exact execSrw_kept hd hs shaft level word data noise
  | calEcho shaft level dead noise => exact execCalEcho_kept hd hs shaft level dead noise
  | calWritePattern shaft level noise => exact execCalWritePattern_kept hd hs shaft level noise
  | calReadPattern shaft level noise => exact execCalReadPattern_kept hd hs shaft level noise
  | sync shaft level noise => exact execSync_kept hd hs shaft level noise
  | lineTransfer shaft wire illegal => exact execLineTransfer_kept hd (hm rfl) hs shaft wire illegal
  | activationComplete shaft level bank ns => exact execActivationComplete_kept hd hs shaft level bank ns
  | prechargeComplete shaft level bank ns => exact execPrechargeComplete_kept hd hs shaft level bank ns
  | refreshComplete shaft level bank ns => exact execRefreshComplete_kept hd hs shaft level bank ns
  | completionForced shaft level bank => exact execCompletionForced_kept hd hs shaft level bank
  | completionLate shaft level bank => exact execCompletionLate_kept hd hs shaft level bank
  | cmdStall shaft level atFall => exact execCmdStall_kept hd hs shaft level atFall
  | beatStall shaft => exact execBeatStall_kept hd (hm rfl) hs shaft
  | readStartTimeout shaft => exact execReadStartTimeout_kept hd (hm rfl) hs shaft
  | attnPoll shaft => exact execAttnPoll_kept hd hs shaft
  | busyBankPoll shaft level => exact execBusyBankPoll_kept hd hs shaft level
  | calFullPass shaft smallest beatRate twinSmallest => exact execCalFullPass_kept hd hs shaft smallest beatRate twinSmallest
  | calStart bay => exact execCalStart_kept hd hs bay
  | calTrackingPass shaft results => exact execCalTrackingPass_kept hd hs shaft results
  | refreshPacerStep shaft level bank => exact execRefreshPacerStep_kept hd hs shaft level bank
  | levelSensorSample level readings => exact execLevelSensorSample_kept hd (hm rfl) hs level readings
  | trefDeadline shaft level slot => exact execTrefDeadline_kept hd hs shaft level slot
  | trefLate shaft level slot => exact execTrefLate_kept hd hs shaft level slot
  | rowActWindow => exact execRowActWindow_kept hd hs
  | rowActClampClear clamp => exact execRowActClampClear_kept hd hs clamp
  | hygroSample level quadrant fails => exact execHygroSample_kept hd (hm rfl) hs level quadrant fails
  | levelStewardReset level => exact execLevelStewardReset_kept hd hs level
  | levelResetReq level => exact execLevelResetReq_kept hd hs level
  | stewardResetDone level readings => exact execStewardResetDone_kept hd (hm rfl) hs level readings
  | recoveringRefTimer shaft level => exact execRecoveringRefTimer_kept hd hs shaft level
  | a3Recompute => exact execA3Recompute_kept hd hs
  | mergeWrite write => exact execMergeWrite_kept hd (hm rfl) hs write
  | mergeGatherExpiry bay => exact execMergeGatherExpiry_kept hd hs bay
  | shelfReadDeadline bay => exact execShelfReadDeadline_kept hd hs bay
  | portBind port value => exact execPortBind_kept hd hs port value
  | patronEnable patron => exact execPatronEnable_kept hd hs patron
  | patronDisable patron => exact execPatronDisable_kept hd hs patron
  | patronDisableComplete patron => exact execPatronDisableComplete_kept hd (hm rfl) hs patron
  | cardLineRead wing walk env => exact execCardLineRead_kept hd (hm rfl) hs wing walk env
  | materialiseZeroDone => exact execMaterialiseZeroDone_kept hd (hm rfl) hs
  | materialisingPoll => exact execMaterialisingPoll_kept hd (hm rfl) hs
  | catRead patron level => exact execCatRead_kept hd (hm rfl) hs patron level
  | catWrite patron level => exact execCatWrite_kept hd (hm rfl) hs patron level
  | catCas patron level => exact execCatCas_kept hd (hm rfl) hs patron level
  | catFence patron all => exact execCatFence_kept hd (hm rfl) hs patron all
  | catFenceComplete => exact execCatFenceComplete_kept hd hs
  | loadKek slot => exact execLoadKek_kept hd hs slot
  | loadKey patron kek => exact execLoadKey_kept hd hs patron kek
  | loadNext patron kek => exact execLoadNext_kept hd hs patron kek
  | dropNext patron => exact execDropNext_kept hd hs patron
  | clearKek slot => exact execClearKek_kept hd hs slot
  | sealReservedOp => exact execSealReservedOp_kept hd hs
  | kekLock => exact execKekLock_kept hd hs
  | allowCommit => exact execAllowCommit_kept hd hs
  | feasibilityCheckDone => exact execFeasibilityCheckDone_kept hd hs
  | missWindow group => exact execMissWindow_kept hd hs group
  | ringEnable patron ring => exact execRingEnable_kept hd hs patron ring
  | ringDisable patron ring => exact execRingDisable_kept hd hs patron ring
  | bell link msg => exact execBell_kept hd hs link msg
  | bellRecordReturn patron line => exact execBellRecordReturn_kept hd hs patron line
  | bellRereadTimer patron => exact execBellRereadTimer_kept hd hs patron
  | descriptorReturn patron ring first lines => exact execDescriptorReturn_kept hd hs patron ring first lines
  | interruptHoldoffEnd k => exact execInterruptHoldoffEnd_kept hd hs k
  | hostReadTimeout tag => exact execHostReadTimeout_kept hd hs tag
  | hostReadRetry tag => exact execHostReadRetry_kept hd hs tag
  | hostWriteTimeout tag => exact execHostWriteTimeout_kept hd hs tag
  | houseRingEnable ring => exact execHouseRingEnable_kept hd hs ring
  | houseHeaderReread ring => exact execHouseHeaderReread_kept hd hs ring
  | houseHeaderReturn ring header => exact execHouseHeaderReturn_kept hd hs ring header
  | descriptorStart trolley => exact execDescriptorStart_kept hd hs trolley
  | gatherListReturn trolley lines => exact execGatherListReturn_kept hd hs trolley lines
  | steppedLineComplete trolley slot env ue => exact execSteppedLineComplete_kept hd (hm rfl) hs trolley slot env ue
  | recallDrainComplete trolley => exact execRecallDrainComplete_kept hd hs trolley
  | recallLate trolley => exact execRecallLate_kept hd hs trolley
  | rekeyCardPoll trolley env => exact execRekeyCardPoll_kept hd (hm rfl) hs trolley env
  | reshelveStart patron => exact execReshelveStart_kept hd (hm rfl) hs patron
  | reshelveCancel => exact execReshelveCancel_kept hd (hm rfl) hs
  | reshelveQuery => exact execReshelveQuery_kept hd hs
  | reshelveRelease => exact execReshelveRelease_kept hd hs
  | jobActivate => exact execJobActivate_kept hd (hm rfl) hs
  | jobStartingDone job => exact execJobStartingDone_kept hd (hm rfl) hs job
  | reshelveLineCopy shaft job wire => exact execReshelveLineCopy_kept hd (hm rfl) hs shaft job wire
  | levelSpare level => exact execLevelSpare_kept hd (hm rfl) hs level
  | levelRetire level => exact execLevelRetire_kept hd hs level
  | spareAbandon => exact execSpareAbandon_kept hd hs
  | rowWithdrawCopy shaft level => exact execRowWithdrawCopy_kept hd (hm rfl) hs shaft level
  | bayRestoreAttempt bay pass => exact execBayRestoreAttempt_kept hd (hm rfl) hs bay pass
  | ledgerSlotWrite => exact execLedgerSlotWrite_kept hd (hl rfl) hs
  | ledgerWriteDone ok => exact execLedgerWriteDone_kept hd (hl rfl) hs ok
  | ledgerRead => exact execLedgerRead_kept hd hs
  | evacStart => exact execEvacStart_kept hd hs
  | evacStop => exact execEvacStop_kept hd hs
  | lifeRecord crown levels => exact execLifeRecord_kept hd hs crown levels
  | portEnable port => exact execPortEnable_kept hd (hm rfl) hs port
  | portDisable port => exact execPortDisable_kept hd (hm rfl) hs port
  | portRetrain port => exact execPortRetrain_kept hd (hm rfl) hs port
  | loopback port on => exact execLoopback_kept hd hs port on
  | signalDetect link lanes => exact execSignalDetect_kept hd hs link lanes
  | tsBlock port lane payload adapt => exact execTsBlock_kept hd (hm rfl) hs port lane payload adapt
  | seedBlock port lane payload => exact execSeedBlock_kept hd (hm rfl) hs port lane payload
  | ccBlock port lane payload => exact execCcBlock_kept hd (hm rfl) hs port lane payload
  | dataBlock port lane header payload => exact execDataBlock_kept hd (hm rfl) hs port lane header payload
  | trainingPhaseTimeout link => exact execTrainingPhaseTimeout_kept hd (hm rfl) hs link
  | stepChangeIdle link => exact execStepChangeIdle_kept hd hs link
  | recoveryTrigger link => exact execRecoveryTrigger_kept hd (hm rfl) hs link
  | exitPattern link => exact execExitPattern_kept hd (hm rfl) hs link
  | laneFailure port lane unstable => exact execLaneFailure_kept hd (hm rfl) hs port lane unstable
  | recoveryTimeout link => exact execRecoveryTimeout_kept hd (hm rfl) hs link
  | flitReceive link columns full deleted envs => exact execFlitReceive_kept hd (hm rfl) hy hs link columns full deleted envs
  | flitSend link starved => exact execFlitSend_kept hd hs link starved
  | answerTimeout link => exact execAnswerTimeout_kept hd (hm rfl) hs link
  | load link msg env => exact execLoad_kept hd (hm rfl) hs link msg env
  | store link msg env => exact execStore_kept hd (hm rfl) hs link msg env
  | storeMasked link msg env => exact execStoreMasked_kept hd (hm rfl) hs link msg env
  | atomic link msg env => exact execAtomic_kept hd (hm rfl) hs link msg env
  | fence link msg => exact execFence_kept hd hs link msg
  | rsp link msg => exact execRsp_kept hd hs link msg
  | hostData link msg => exact execHostData_kept hd (hm rfl) hs link msg
  | halt link => exact execHalt_kept hd (hm rfl) hs link
  | injEnable port => exact execInjEnable_kept hd hs port
  | injUnlockRead port => exact execInjUnlockRead_kept hd hs port
  | injUnlockKey port key => exact execInjUnlockKey_kept hd hs port key
  | collJoin => exact execCollJoin_kept hd (hm rfl) hs
  | collFound => exact execCollFound_kept hd (hm rfl) hs
  | collLeave => exact execCollLeave_kept hd (hm rfl) hs
  | fwdLoad link msg env => exact execFwdLoad_kept hd (hm rfl) hs link msg env
  | fwdStore link msg env => exact execFwdStore_kept hd (hm rfl) hs link msg env
  | fwdAtomic link msg env => exact execFwdAtomic_kept hd (hm rfl) hs link msg env
  | fwdRsp link msg late => exact execFwdRsp_kept hd (hm rfl) hs link msg late
  | fwdData link msg late => exact execFwdData_kept hd (hm rfl) hs link msg late
  | xcopy link msg => exact execXcopy_kept hd (hm rfl) hs link msg
  | cardSet link msg => exact execCardSet_kept hd (hm rfl) hs link msg
  | cardAck link msg => exact execCardAck_kept hd (hm rfl) hs link msg
  | rollCall link msg => exact execRollCall_kept hd (hm rfl) hs link msg
  | rollAnswer link msg => exact execRollAnswer_kept hd hs link msg
  | timeReq link msg => exact execTimeReq_kept hd hs link msg
  | timeRsp link msg => exact execTimeRsp_kept hd hs link msg
  | joinReq link msg => exact execJoinReq_kept hd hs link msg
  | joinRsp link msg => exact execJoinRsp_kept hd hs link msg
  | fwdTimeout tag => exact execFwdTimeout_kept hd hs tag
  | rollCallTimer => exact execRollCallTimer_kept hd (hm rfl) hs
  | timeExchangeTimer => exact execTimeExchangeTimer_kept hd hs
  | tsyncPulse => exact execTsyncPulse_kept hd hs
  | headLost reach evac => exact execHeadLost_kept hd (hm rfl) hs reach evac
  | joinTimeout => exact execJoinTimeout_kept hd (hm rfl) hs
  | evacListRead line => exact execEvacListRead_kept hd (hm rfl) hs line
  | refQualify input errors => exact execRefQualify_kept hd (hm rfl) hs input errors
  | refLost input errors => exact execRefLost_kept hd (hm rfl) hs input errors
  | refWindow input ppm errors => exact execRefWindow_kept hd (hm rfl) hs input ppm errors
  | refReturnHold errors => exact execRefReturnHold_kept hd (hm rfl) hs errors
  | pllLockDetect pll clamps => exact execPllLockDetect_kept hd hs pll clamps
  | pllWindowCheck pll pass => exact execPllWindowCheck_kept hd (hm rfl) hs pll pass
  | pllAcquireTimeout pll => exact execPllAcquireTimeout_kept hd (hm rfl) hs pll
  | pllLockLost pll => exact execPllLockLost_kept hd (hm rfl) hs pll
  | pllSlewDone pll => exact execPllSlewDone_kept hd (hm rfl) hs pll
  | holdoverLong => exact execHoldoverLong_kept hd hs
  | clkHp3Freq freq => exact execClkHp3Freq_kept hd (hm rfl) hs freq
  | crownSensorSample readings => exact execCrownSensorSample_kept hd (hm rfl) hs readings
  | footSensorSample readings => exact execFootSensorSample_kept hd (hm rfl) hs readings
  | stackModelEval power => exact execStackModelEval_kept hd (hm rfl) hs power
  | witnessTimeout level => exact execWitnessTimeout_kept hd (hm rfl) hs level
  | thermClear level => exact execThermClear_kept hd hs level
  | railCrossing rail mv => exact execRailCrossing_kept hd (hm rfl) (hl rfl) (hr rfl) hs rail mv
  | pgoodLost => exact execPgoodLost_kept hd (hm rfl) (hr rfl) hs
  | resetPin => exact execResetPin_kept hd (hm rfl) (hr rfl) hs
  | footReset => exact execFootReset_kept hd hs
  | footResetEnd pins link => exact execFootResetEnd_kept hd (hm rfl) hs pins link
  | powerGate domain => exact execPowerGate_kept hd (hm rfl) hs domain
  | powerWake domain => exact execPowerWake_kept hd (hm rfl) hs domain
  | powerClose => exact execPowerClose_kept hd (hm rfl) hs
  | powerOpInvalid domain => exact execPowerOpInvalid_kept hd (hm rfl) hs domain
  | domainDrainComplete domain => exact execDomainDrainComplete_kept hd (hm rfl) hs domain
  | domainSupplyGood domain => exact execDomainSupplyGood_kept hd (hm rfl) hs domain
  | domainWakeCheckDone domain pass => exact execDomainWakeCheckDone_kept hd (hm rfl) hs domain pass
  | closeCommit => exact execCloseCommit_kept hd (hm rfl) (hl rfl) hs
  | closedReached => exact execClosedReached_kept hd (hm rfl) (hr rfl) hs
  | wakePin pin level => exact execWakePin_kept hd (hm rfl) hs pin level
  | linkWake port signal => exact execLinkWake_kept hd (hm rfl) hs port signal
  | coldStart closedMs => exact execColdStart_kept hd (hm rfl) (hr rfl) hs closedMs
  | startPhaseDone outcome => exact execStartPhaseDone_kept hd (hm rfl) (hl rfl) (hr rfl) hs outcome
  | portReadyTimeout port => exact execPortReadyTimeout_kept hd hs port
  | startCfgSave => exact execStartCfgSave_kept hd hs
  | safeN chatter => exact execSafeN_kept hd hs chatter
  | safeNRelease => exact execSafeNRelease_kept hd hs
  | safeNHighTimer => exact execSafeNHighTimer_kept hd hs
  | faultEvent type source detail lost => exact execFaultEvent_kept hd (hm rfl) hs type source detail lost
  | faultClear seq => exact execFaultClear_kept hd hs seq
  | faultOverflowClear => exact execFaultOverflowClear_kept hd hs
  | eventLogBatch => exact execEventLogBatch_kept hd hs
  | safeEnter => exact execSafeEnter_kept hd (hm rfl) hs
  | safeResume => exact execSafeResume_kept hd (hm rfl) hs
  | sliceStart domain => exact execSliceStart_kept hd (hm rfl) hs domain
  | sliceStop patterns => exact execSliceStop_kept hd hs patterns
  | sliceSchedule => exact execSliceSchedule_kept hd (hm rfl) hs
  | slicePrepared => exact execSlicePrepared_kept hd hs
  | sliceTestDone outcome => exact execSliceTestDone_kept hd hs outcome
  | sliceRestored pass => exact execSliceRestored_kept hd (hm rfl) hs pass
  | sliceUrgentStop patterns => exact execSliceUrgentStop_kept hd hs patterns
  | sliceHp3Timeout patterns => exact execSliceHp3Timeout_kept hd hs patterns
  | inventoryStart => exact execInventoryStart_kept hd hs
  | inventoryPhaseDone outcome => exact execInventoryPhaseDone_kept hd (hm rfl) (hl rfl) hs outcome
  | perfValueLoRead counter => exact execPerfValueLoRead_kept hd hs counter
  | perfValueHiWrite counter value => exact execPerfValueHiWrite_kept hd hs counter value
  | perfFreeze freeze => exact execPerfFreeze_kept hd hs freeze
  | perfClear => exact execPerfClear_kept hd hs
  | traceEnable => exact execTraceEnable_kept hd hs
  | leafMsMark => exact execLeafMsMark_kept hd hs
  | statementBoundary => exact execStatementBoundary_kept hd hs
  | patronCircRead patron => exact execPatronCircRead_kept hd hs patron
  | i3cPrivateWrite bytes => exact execI3cPrivateWrite_kept hd (hm rfl) hy hs bytes
  | i3cPrivateRead words => exact execI3cPrivateRead_kept hd hs words
  | entdaa address => exact execEntdaa_kept hd hs address
  | setnewda address => exact execSetnewda_kept hd hs address
  | rstdaa => exact execRstdaa_kept hd hs
  | enec events => exact execEnec_kept hd hs events
  | disec events => exact execDisec_kept hd hs events
  | getpid => exact execGetpid_kept hd hs
  | getbcr => exact execGetbcr_kept hd hs
  | getdcr => exact execGetdcr_kept hd hs
  | getstatus => exact execGetstatus_kept hd hs
  | setmrl length => exact execSetmrl_kept hd hs length
  | getmrl => exact execGetmrl_kept hd hs
  | setmwl length => exact execSetmwl_kept hd hs length
  | getmwl => exact execGetmwl_kept hd hs
  | getmxds => exact execGetmxds_kept hd hs
  | rstact action => exact execRstact_kept hd hs action
  | flaudRead link tag body => exact execFlaudRead_kept hd (hm rfl) hy hs link tag body
  | flaudWrite link tag body => exact execFlaudWrite_kept hd (hm rfl) hy hs link tag body
  | flaudModify link tag body => exact execFlaudModify_kept hd (hm rfl) hy hs link tag body
  | flaudEcho link tag body => exact execFlaudEcho_kept hd (hm rfl) hy hs link tag body
  | devMboxGo => exact execDevMboxGo_kept hd (hm rfl) hy hs
  | bypass => exact execBypass_kept hd hs
  | idcode => exact execIdcode_kept hd hs
  | samplePreload pins preload => exact execSamplePreload_kept hd hs pins preload
  | challenge scope => exact execChallenge_kept hd hs scope
  | response response => exact execResponse_kept hd hs response
  | extest => exact execExtest_kept hd hs
  | wrapper domain => exact execWrapper_kept hd hs domain
  | scan => exact execScan_kept hd (hm rfl) hs
  | memtest => exact execMemtest_kept hd (hm rfl) hs
  | tapReset => exact execTapReset_kept hd (hm rfl) hs
  | devRegSwap => exact execDevRegSwap_kept hd hs
  | takeoverComplete => exact execTakeoverComplete_kept hd (hm rfl) hy hs
  | standbySelfTestDone pass => exact execStandbySelfTestDone_kept hd (hm rfl) hs pass
  | devOpen => exact execDevOpen_kept hd hy hs
  | tbSlewComplete => exact execTbSlewComplete_kept hd hs
  | acquireLaneMissing link lane => exact execAcquireLaneMissing_kept hd hs link lane
  | tfCountRead patron entry => exact execTfCountRead_kept hd hs patron entry

/-- A property that bears every write but those of fuses and queue holds after a step if it holds with the front command off the queue. -/
theorem step_kept (hd : DevFree P) (hm : MemFree P) (hl : LedgerFree P) (hy : LayoutFree P) {s t : State}
    (hr : ∀ c, s.pending.head? = some c → restarts c = true → ResetFree P) (hs : P { s with pending := s.pending.tail })
    (h : step s = .next t) : P t := by
  cases hp : s.pending with
  | nil =>
    rw [step_nil s hp] at h
    obtain rfl := Host.Outcome.next.inj h
    rw [hp, List.tail_nil, ← hp] at hs
    exact State.idle_kept hd hm hs
  | cons c rest =>
    rw [hp, List.tail_cons] at hs
    rw [step_cons s c rest hp] at h
    exact exec_kept hd hy (fun _ => hm) (fun _ => hl) (hr c (by rw [hp, List.head?_cons])) hs t h

/-! ## The properties kept -/

theorem memWf_devFree : DevFree State.memWf := fun _ _ h => h
theorem memWf_memFree : MemFree State.memWf := fun _ _ hw h => hw h
theorem memWf_ledgerFree : LedgerFree State.memWf := fun _ _ h => h
theorem memWf_resetFree : ResetFree State.memWf := fun _ _ h => h

/-- The fuses and the queue that a state holds. -/
def HasOutside (fuses : Fuses) (pending : List Instr) (t : State) : Prop := t.fuses = fuses ∧ t.pending = pending

/-- A layout that a state holds. -/
def HasLayout (layout : Layout) (t : State) : Prop := t.layout = layout

/-- A layout that is locked bears no change of a layout that is not. -/
theorem HasLayout.layoutFree {layout : Layout} (h : layout.locked = true) : LayoutFree (HasLayout layout) := by
  rintro s l hopen rfl
  exact absurd h (Bool.eq_false_iff.mp hopen)

/-- What a state's DRAM reads. -/
def HasSyms (syms : Nat → BitVec 8) (t : State) : Prop := ∀ a, t.readSym a = syms a

/-- A ledger that a state holds. -/
def HasLedger (ledger : Ledger) (t : State) : Prop := t.ledger = ledger

/-! ## The statements -/

/-- Settles O4: the canonical form is kept by every write of the DRAM, and no other write looks at it. -/
theorem stepKeepsMemoryCanonical : Obligations.StepKeepsMemoryCanonical := by
  unfold Obligations.StepKeepsMemoryCanonical
  intro s t hs h
  exact step_kept memWf_devFree memWf_memFree memWf_ledgerFree (fun s l _ => memWf_resetFree s l) (fun _ _ _ => memWf_resetFree) hs h

/-- Settles O5: no operation writes fuses or queue. -/
theorem stepsLeaveFusesAndQueue : Obligations.StepsLeaveFusesAndQueue := by
  unfold Obligations.StepsLeaveFusesAndQueue
  intro s t h
  exact step_kept (P := HasOutside s.fuses s.pending.tail) (fun _ _ hs => hs) (fun _ _ _ hs => hs) (fun _ _ hs => hs) (fun _ _ _ hs => hs)
    (fun _ _ _ _ _ hs => hs) ⟨rfl, rfl⟩ h

/-- Settles O6: the only operations that write a locked layout are those of a restart. -/
theorem lockedLayoutStays : Obligations.LockedLayoutStays := by
  unfold Obligations.LockedLayoutStays
  intro s t hlocked hno h
  exact step_kept (P := HasLayout s.layout) (fun _ _ hs => hs) (fun _ _ _ hs => hs) (fun _ _ hs => hs) (HasLayout.layoutFree hlocked)
    (fun c hc hrestarts => absurd hrestarts (Bool.eq_false_iff.mp (hno c hc))) rfl h

/-- Settles O7: a command that stores nothing is asked for no write of the DRAM, and one that writes no ledger for none of the ledger. -/
theorem storesAndLedgerWritesAreNamed : Obligations.StoresAndLedgerWritesAreNamed := by
  unfold Obligations.StoresAndLedgerWritesAreNamed
  refine ⟨fun s t c hstores h => ?dram, fun s t c hwrites h => ?ledger, fun s => ?idle⟩
  case dram =>
    exact exec_kept (P := HasSyms s.readSym) (fun _ _ hs => hs) (fun _ _ _ hs => hs) (fun hno => absurd hstores (Bool.eq_false_iff.mp hno))
      (fun _ _ _ hs => hs) (fun _ _ _ hs => hs) (fun _ => rfl) t h
  case ledger =>
    exact exec_kept (P := HasLedger s.ledger) (fun _ _ hs => hs) (fun _ _ _ hs => hs) (fun _ _ _ _ hs => hs)
      (fun hyes => absurd hyes (Bool.eq_false_iff.mp hwrites)) (fun _ _ _ hs => hs) rfl t h
  case idle => exact State.idle_kept (P := HasLedger s.ledger) (fun _ _ hs => hs) (fun _ _ _ hs => hs) rfl

end Sys2Proof.Machine
end

section
/-!
The words of the shaft (R77, R78, Tables 4.4 and 4.5). A word with its parity bit is the word's 23 bits, and bit 23 for even parity: so
the parity is even whatever the 23 bits are, and the fields, which lie below bit 23, are digits of the word that was given.
-/

namespace Sys2Proof.Machine

open Sys2Proof

/-! ## Parity (R76) -/

/-- The one bits of a word's low end depend on no higher bit. -/
theorem popCount_congr {n m w : Nat} (h : ∀ i < w, n.testBit i = m.testBit i) : popCount n w = popCount m w := by
  induction w with
  | zero => rfl
  | succ w ih => rw [popCount, popCount, h w (Nat.lt_succ_self w), ih fun i hi => h i (Nat.lt_succ_of_lt hi)]

theorem popCount_mod_two_pow (n w : Nat) : popCount (n % 2 ^ w) w = popCount n w :=
  popCount_congr fun i hi => by rw [Nat.testBit_mod_two_pow, decide_eq_true hi, Bool.true_and]

theorem popCount_mod_add_two_pow (n w : Nat) : popCount (n % 2 ^ w + 2 ^ w) w = popCount n w := by
  rw [← popCount_mod_two_pow, Nat.add_mod_right, Nat.mod_mod, popCount_mod_two_pow]

/-- A word with its parity bit as a number. -/
theorem withParity_toNat (w : Nat) : (withParity w).toNat = w % 2 ^ 23 + popCount w 23 % 2 * 2 ^ 23 := by
  have hfits : w % 2 ^ 23 + 2 ^ 23 < 2 ^ 24 := by omega
  unfold withParity
  split
  case isTrue hodd => rw [BitVec.toNat_ofNat, Nat.mod_eq_of_lt hfits, hodd, Nat.one_mul]
  case isFalse heven =>
    rw [BitVec.toNat_ofNat, Nat.mod_eq_of_lt (Nat.lt_of_le_of_lt (Nat.le_add_right _ _) hfits), Nat.mod_two_ne_one.mp heven, Nat.zero_mul]
    rfl

/-- A word with its parity bit has even parity (R76). -/
theorem oddParity_withParity (w : Nat) : oddParity (withParity w) = false := by
  have hsplit : popCount (withParity w).toNat 24 = ((withParity w).toNat.testBit 23).toNat + popCount (withParity w).toNat 23 := rfl
  rw [oddParity, hsplit, withParity_toNat, decide_eq_false_iff_not]
  rcases Nat.mod_two_eq_zero_or_one (popCount w 23) with heven | hodd
  · have hlow : (w % 2 ^ 23).testBit 23 = false := Nat.testBit_lt_two_pow (Nat.mod_lt _ (Nat.two_pow_pos 23))
    rw [heven, Nat.zero_mul, Nat.add_zero, hlow, popCount_mod_two_pow, Bool.toNat_false, Nat.zero_add, heven]
    exact Nat.zero_ne_one
  · have hhigh : (w % 2 ^ 23 + 2 ^ 23).testBit 23 = true := by
      rw [Nat.add_comm, Nat.testBit_two_pow_add_eq, Nat.testBit_lt_two_pow (Nat.mod_lt _ (Nat.two_pow_pos 23)), Bool.not_false]
    rw [hodd, Nat.one_mul, hhigh, popCount_mod_add_two_pow, Bool.toNat_true]
    omega

/-! ## Fields (Table 4.4) -/

/-- The fields of a word with its parity bit are digits of the word. -/
theorem cmdFields_withParity (w : Nat) :
    cmdFields (withParity w) = { isAct := w.testBit 22, level := w / 2 ^ 17 % 32, bank := w / 2 ^ 13 % 16, row := w % 2 ^ 13,
                                 op := w / 2 ^ 9 % 16, operand := w % 2 ^ 9 } := by
  simp only [cmdFields, withParity_toNat, CmdFields.mk.injEq, Nat.testBit_eq_decide_div_mod_eq, decide_eq_decide]
  omega

theorem cmdFields_actWord {level bank row : Nat} (hlevel : level < 32) (hbank : bank < 16) (hrow : row < 8192) :
    (cmdFields (actWord level bank row)).isAct = true ∧ (cmdFields (actWord level bank row)).level = level ∧
      (cmdFields (actWord level bank row)).bank = bank ∧ (cmdFields (actWord level bank row)).row = row := by
  simp only [actWord, cmdFields_withParity, Nat.testBit_eq_decide_div_mod_eq, decide_eq_true_eq]
  omega

theorem cmdFields_cmdWord {level bank op operand : Nat} (hlevel : level < 32) (hbank : bank < 16) (hop : op < 16) (hoperand : operand < 512) :
    (cmdFields (cmdWord level bank op operand)).isAct = false ∧ (cmdFields (cmdWord level bank op operand)).level = level ∧
      (cmdFields (cmdWord level bank op operand)).bank = bank ∧ (cmdFields (cmdWord level bank op operand)).op = op ∧
      (cmdFields (cmdWord level bank op operand)).operand = operand := by
  simp only [cmdWord, cmdFields_withParity, Nat.testBit_eq_decide_div_mod_eq, decide_eq_false_iff_not]
  omega

/-- Settles O8: parity and fields of a word that was put together. -/
theorem shaftWordsComeApart : Obligations.ShaftWordsComeApart := by
  unfold Obligations.ShaftWordsComeApart
  intro level bank hlevel hbank
  exact ⟨fun row hrow => ⟨oddParity_withParity _, cmdFields_actWord hlevel hbank hrow⟩,
    fun op operand hop hoperand => ⟨oddParity_withParity _, cmdFields_cmdWord hlevel hbank hop hoperand⟩⟩

end Sys2Proof.Machine
end

section
/-!
The ledger's records across their own writing (R301). A slot that was written whole is valid and reads as its payload; one that was cut
short differs from it in one bit of the CRC and is not valid. A write goes to the slot that does not hold the newest copy, so the newest
copy stands until the new slot, whose SEQ is the next, is whole.
-/

namespace Sys2Proof.Machine

open Sys2Proof

/-! ## Numbers and their bytes (R9) -/

theorem pow_256 {n k : Nat} (h : 8 * n = k) : 256 ^ n = 2 ^ k := by rw [← h, Nat.pow_mul]

theorem length_bytesOfNat (n v : Nat) : (bytesOfNat n v).length = n := by
  induction n generalizing v with
  | zero => rfl
  | succ n ih => rw [bytesOfNat, List.length_cons, ih]

theorem lt_of_mem_bytesOfNat {n v b : Nat} (h : b ∈ bytesOfNat n v) : b < 256 := by
  induction n generalizing v with
  | zero => exact absurd h List.not_mem_nil
  | succ n ih =>
    rcases List.mem_cons.mp h with rfl | h
    · exact Nat.mod_lt _ (by decide)
    · exact ih h

theorem natOfBytes_bytesOfNat (n v : Nat) : natOfBytes (bytesOfNat n v) = v % 256 ^ n := by
  induction n generalizing v with
  | zero => rw [Nat.pow_zero, Nat.mod_one]; rfl
  | succ n ih => rw [bytesOfNat, natOfBytes, ih, Nat.mod_mod, Nat.pow_succ', Nat.mod_mul]

theorem bytesOfNat_natOfBytes {l : List Nat} (h : ∀ b ∈ l, b < 256) : bytesOfNat l.length (natOfBytes l) = l := by
  induction l with
  | nil => rfl
  | cons b l ih =>
    obtain ⟨hb, hl⟩ := List.forall_mem_cons.mp h
    have hhead : (b % 256 + 256 * natOfBytes l) % 256 = b := by omega
    have hrest : (b % 256 + 256 * natOfBytes l) / 256 = natOfBytes l := by omega
    rw [List.length_cons, bytesOfNat, natOfBytes, hhead, hrest, ih hl]

theorem natOfBytes_lt (l : List Nat) : natOfBytes l < 256 ^ l.length := by
  induction l with
  | nil => exact Nat.one_pos
  | cons b l ih =>
    rw [natOfBytes, List.length_cons, Nat.pow_succ]
    omega

theorem natOfBytes_append (l m : List Nat) : natOfBytes (l ++ m) = natOfBytes l + 256 ^ l.length * natOfBytes m := by
  induction l with
  | nil => simp [natOfBytes]
  | cons b l ih =>
    rw [List.cons_append, natOfBytes, natOfBytes, ih, List.length_cons, Nat.pow_succ, Nat.mul_comm _ 256, Nat.mul_assoc]
    omega

theorem natOfBytes_append_mod (l m : List Nat) : natOfBytes (l ++ m) % 256 ^ l.length = natOfBytes l := by
  rw [natOfBytes_append, Nat.add_mul_mod_self_left, Nat.mod_eq_of_lt (natOfBytes_lt l)]

theorem natOfBytes_append_div (l m : List Nat) : natOfBytes (l ++ m) / 256 ^ l.length = natOfBytes m := by
  rw [natOfBytes_append, Nat.add_mul_div_left _ _ (Nat.pow_pos (by decide)), Nat.div_eq_of_lt (natOfBytes_lt l), Nat.zero_add]

theorem bytesOfNat_add (n m v : Nat) : bytesOfNat (n + m) v = bytesOfNat n v ++ bytesOfNat m (v / 256 ^ n) := by
  induction n generalizing v with
  | zero => rw [Nat.zero_add, Nat.pow_zero, Nat.div_one]; rfl
  | succ n ih => rw [Nat.succ_add, bytesOfNat, ih, bytesOfNat, List.cons_append, Nat.div_div_eq_div_mul, Nat.pow_succ, Nat.mul_comm 256]

/-- The low bytes of a number depend on no higher byte. -/
theorem bytesOfNat_congr {n v w : Nat} (h : v % 256 ^ n = w % 256 ^ n) : bytesOfNat n v = bytesOfNat n w := by
  have hself : ∀ x, bytesOfNat n (natOfBytes (bytesOfNat n x)) = bytesOfNat n x := fun x => by
    conv => lhs; arg 1; rw [← length_bytesOfNat n x]
    exact bytesOfNat_natOfBytes fun _ hb => lt_of_mem_bytesOfNat hb
  rw [← hself v, ← hself w, natOfBytes_bytesOfNat, natOfBytes_bytesOfNat, h]

/-! ## The CRC-32 of a slot -/

/-- Reversed bits of the low end of a number leave room for those of the rest. -/
theorem foldl_reflect_add_le (b : Nat) {n : Nat} (h : n ≤ 32) :
    (List.range n).foldl (fun a i => a + (b.testBit i).toNat * 2 ^ (31 - i)) 0 + 2 ^ (32 - n) ≤ 2 ^ 32 := by
  induction n with
  | zero => exact Nat.le_of_eq (Nat.zero_add _)
  | succ n ih =>
    have hdouble : 2 ^ (32 - n) = 2 ^ (31 - n) + 2 ^ (31 - n) := by
      rw [show 32 - n = 31 - n + 1 by omega, Nat.pow_succ, Nat.mul_two]
    have hterm : (b.testBit n).toNat * 2 ^ (31 - n) ≤ 2 ^ (31 - n) := Nat.le_trans (Nat.mul_le_mul_right _ (Bool.toNat_le _)) (Nat.le_of_eq (Nat.one_mul _))
    have hrest : 32 - (n + 1) = 31 - n := by omega
    have hprev := ih (Nat.le_of_succ_le h)
    rw [List.range_succ, List.foldl_append, List.foldl_cons, List.foldl_nil, hrest]
    omega

theorem reflect32_lt (b : Nat) : reflect32 b < 2 ^ 32 :=
  Nat.lt_of_lt_of_le (Nat.lt_add_of_pos_right Nat.one_pos) (foldl_reflect_add_le b (Nat.le_refl _))

theorem crc32_lt (bytes : List Nat) : crc32 bytes < 256 ^ 4 := Nat.xor_lt_two_pow (reflect32_lt _) (by decide)

/-! ## A slot that was written whole -/

/-- The bytes of a slot after its SEQ and record and before its CRC: the payload's length, the payload, and zeros. -/
def slotRest (payload : List Nat) : List Nat :=
  bytesOfNat 2 (payload.take 236).length ++ ([0, 0] ++ (payload.take 236 ++ List.replicate (240 - (payload.take 236).length) 0))

/-- The bytes of a slot before its CRC. -/
def slotBody (seq record : Nat) (payload : List Nat) : List Nat := bytesOfNat 4 seq ++ (bytesOfNat 4 record ++ slotRest payload)

theorem slotOf_eq (seq record : Nat) (payload : List Nat) :
    slotOf seq record payload =
      BitVec.ofNat 2048 (natOfBytes (slotBody seq record payload ++ bytesOfNat 4 (crc32 (slotBody seq record payload)))) := by
  simp only [slotOf, slotBody, slotRest, List.append_assoc]

theorem length_slotBody (seq record : Nat) (payload : List Nat) : (slotBody seq record payload).length = 252 := by
  simp only [slotBody, slotRest, List.length_append, length_bytesOfNat, List.length_take, List.length_replicate, List.length_cons, List.length_nil]
  omega

theorem lt_of_mem_slotBody {seq record b : Nat} {payload : List Nat} (hp : ∀ x ∈ payload, x < 256) (h : b ∈ slotBody seq record payload) :
    b < 256 := by
  simp only [slotBody, slotRest, List.mem_append, List.mem_cons, List.not_mem_nil, or_false, List.mem_replicate] at h
  rcases h with h | h | h | (rfl | rfl) | h | ⟨-, rfl⟩
  · exact lt_of_mem_bytesOfNat h
  · exact lt_of_mem_bytesOfNat h
  · exact lt_of_mem_bytesOfNat h
  · decide
  · decide
  · exact hp b (List.mem_of_mem_take h)
  · decide

/-- A slot written whole as a number. -/
theorem slotOf_toNat (seq record : Nat) (payload : List Nat) :
    (slotOf seq record payload).toNat =
      natOfBytes (slotBody seq record payload ++ bytesOfNat 4 (crc32 (slotBody seq record payload))) := by
  have hlen : (slotBody seq record payload ++ bytesOfNat 4 (crc32 (slotBody seq record payload))).length = 256 := by
    rw [List.length_append, length_slotBody, length_bytesOfNat]
  have hlt := natOfBytes_lt (slotBody seq record payload ++ bytesOfNat 4 (crc32 (slotBody seq record payload)))
  rw [hlen, pow_256 (k := 2048) rfl] at hlt
  rw [slotOf_eq, BitVec.toNat_ofNat, Nat.mod_eq_of_lt hlt]

/-- The bytes of a slot written whole. -/
theorem slotOf_bytes {seq record : Nat} {payload : List Nat} (hp : ∀ x ∈ payload, x < 256) :
    (slotOf seq record payload).bytes = slotBody seq record payload ++ bytesOfNat 4 (crc32 (slotBody seq record payload)) := by
  have hlen : (slotBody seq record payload ++ bytesOfNat 4 (crc32 (slotBody seq record payload))).length = 256 := by
    rw [List.length_append, length_slotBody, length_bytesOfNat]
  rw [Slot.bytes, slotOf_toNat, ← hlen]
  refine bytesOfNat_natOfBytes fun b hb => ?_
  rcases List.mem_append.mp hb with hb | hb
  · exact lt_of_mem_slotBody hp hb
  · exact lt_of_mem_bytesOfNat hb

theorem slotOf_valid {payload : List Nat} (hp : ∀ x ∈ payload, x < 256) (seq record : Nat) : (slotOf seq record payload).valid = true := by
  have hlen := length_slotBody seq record payload
  rw [Slot.valid, slotOf_bytes hp, decide_eq_true_eq, ← hlen, List.drop_left, List.take_left, natOfBytes_bytesOfNat,
    Nat.mod_eq_of_lt (crc32_lt _)]

theorem slotOf_seq (seq record : Nat) (payload : List Nat) : (slotOf seq record payload).seq = seq % 2 ^ 32 := by
  have hlow := natOfBytes_append_mod (bytesOfNat 4 seq)
    ((bytesOfNat 4 record ++ slotRest payload) ++ bytesOfNat 4 (crc32 (slotBody seq record payload)))
  rw [length_bytesOfNat, natOfBytes_bytesOfNat] at hlow
  rw [Slot.seq, slotOf_toNat, slotBody, List.append_assoc]
  exact hlow

/-- The length field of a slot written whole. -/
theorem slotOf_length (seq record : Nat) (payload : List Nat) :
    (slotOf seq record payload).toNat / 2 ^ 64 % 2 ^ 16 = (payload.take 236).length := by
  have hlen : (payload.take 236).length < 256 ^ 2 :=
    Nat.lt_of_le_of_lt (List.length_take_le _ _) (by decide)
  have hhigh := natOfBytes_append_div (bytesOfNat 4 seq ++ bytesOfNat 4 record)
    (slotRest payload ++ bytesOfNat 4 (crc32 (slotBody seq record payload)))
  have hlow := natOfBytes_append_mod (bytesOfNat 2 (payload.take 236).length)
    (([0, 0] ++ (payload.take 236 ++ List.replicate (240 - (payload.take 236).length) 0)) ++
      bytesOfNat 4 (crc32 (slotBody seq record payload)))
  rw [List.length_append, length_bytesOfNat, length_bytesOfNat] at hhigh
  rw [length_bytesOfNat, natOfBytes_bytesOfNat, Nat.mod_eq_of_lt hlen, ← List.append_assoc] at hlow
  rw [slotOf_toNat, slotBody, ← List.append_assoc, List.append_assoc]
  exact (congrArg (· % 2 ^ 16) hhigh).trans hlow

theorem slotOf_payload {payload : List Nat} (hp : ∀ x ∈ payload, x < 256) (seq record : Nat) :
    (slotOf seq record payload).payload = payload.take 236 := by
  have hhead : (bytesOfNat 4 seq ++ (bytesOfNat 4 record ++ (bytesOfNat 2 (payload.take 236).length ++ [0, 0]))).length = 12 := by
    simp only [List.length_append, length_bytesOfNat, List.length_cons, List.length_nil]
  have hsplit : slotBody seq record payload ++ bytesOfNat 4 (crc32 (slotBody seq record payload)) =
      (bytesOfNat 4 seq ++ (bytesOfNat 4 record ++ (bytesOfNat 2 (payload.take 236).length ++ [0, 0]))) ++
        (payload.take 236 ++ (List.replicate (240 - (payload.take 236).length) 0 ++
          bytesOfNat 4 (crc32 (slotBody seq record payload)))) := by
    conv => lhs; arg 1; rw [slotBody, slotRest]
    simp only [List.append_assoc]
  rw [Slot.payload, slotOf_length, slotOf_bytes hp, hsplit, ← hhead, List.drop_left, Nat.min_eq_right (List.length_take_le _ _),
    List.take_left]

/-! ## A slot cut short -/

theorem xor_two_pow_mod (n k : Nat) : (n ^^^ 2 ^ k) % 2 ^ k = n % 2 ^ k := by
  rw [Nat.xor_mod_two_pow, Nat.mod_self, Nat.xor_zero]

theorem xor_two_pow_div (n k : Nat) : (n ^^^ 2 ^ k) / 2 ^ k = n / 2 ^ k ^^^ 1 := by
  rw [Nat.xor_div_two_pow, Nat.div_self (Nat.two_pow_pos k)]

theorem toNat_ofNat_two_pow {w k : Nat} (h : k < w) : (BitVec.ofNat w (2 ^ k)).toNat = 2 ^ k := by
  rw [BitVec.toNat_ofNat, Nat.mod_eq_of_lt (Nat.pow_lt_pow_right (by decide) h)]

/-- The low 252 bytes of a slot and its CRC. -/
theorem Slot.bytes_eq (x : Slot) : x.bytes = bytesOfNat 252 x.toNat ++ bytesOfNat 4 (x.toNat / 2 ^ 2016) := by
  have hpow : 256 ^ 252 = 2 ^ 2016 := pow_256 rfl
  rw [Slot.bytes, ← hpow]
  exact bytesOfNat_add 252 4 x.toNat

theorem Slot.valid_iff (x : Slot) : x.valid = true ↔ x.toNat / 2 ^ 2016 % 256 ^ 4 = crc32 (bytesOfNat 252 x.toNat) := by
  have hlen : (bytesOfNat 252 x.toNat).length = 252 := length_bytesOfNat _ _
  rw [Slot.valid, decide_eq_true_eq, Slot.bytes_eq, List.drop_left' hlen, List.take_left' hlen, natOfBytes_bytesOfNat]

theorem slotBroken_toNat (x : Slot) : (slotBroken x).toNat = x.toNat ^^^ 2 ^ 2016 := by
  rw [slotBroken, BitVec.toNat_xor, toNat_ofNat_two_pow (by decide)]

/-- A slot cut short is not valid: its CRC differs in one bit, and what the CRC is of does not (R301). -/
theorem slotBroken_not_valid {x : Slot} (h : x.valid = true) : (slotBroken x).valid = false := by
  have hbody : bytesOfNat 252 (x.toNat ^^^ 2 ^ 2016) = bytesOfNat 252 x.toNat := by
    have hpow : 256 ^ 252 = 2 ^ 2016 := pow_256 rfl
    exact bytesOfNat_congr (by rw [hpow, xor_two_pow_mod])
  have hbit : (x.toNat / 2 ^ 2016 ^^^ 1) % 2 ^ 32 ≠ x.toNat / 2 ^ 2016 % 2 ^ 32 := by
    rw [Nat.xor_mod_two_pow]
    intro heq
    have hlow := (Nat.testBit_xor _ _ 0).symm.trans (congrArg (Nat.testBit · 0) heq)
    exact absurd (Bool.xor_right_inj.mp (hlow.trans (Bool.xor_false _).symm)) (by decide)
  rw [Bool.eq_false_iff, ne_eq, Slot.valid_iff, slotBroken_toNat, xor_two_pow_div, hbody, ← (Slot.valid_iff x).mp h]
  exact hbit

/-! ## The newest copy of a record (R301) -/

section Rec

variable {r : LedgerRec} {x y : Slot}

/-- The number that follows a SEQ is later than it, modulo 2^32. -/
theorem seqLater_succ (n : Nat) : seqLater ((n % 2 ^ 32 + 1) % 2 ^ 32) (n % 2 ^ 32) = true := by
  simp only [seqLater, decide_eq_true_eq]
  omega

theorem not_seqLater_succ (n : Nat) : seqLater (n % 2 ^ 32) ((n % 2 ^ 32 + 1) % 2 ^ 32) = false := by
  simp only [seqLater, decide_eq_false_iff_not]
  omega

/-- Where the newest copy stands, and the slot that a write goes to: the other one. -/
theorem LedgerRec.newest_cases (r : LedgerRec) :
    (r.newest = none ∧ r.target = false ∧ r.b.valid = false) ∨ (r.newest = some r.a ∧ r.target = true ∧ r.a.valid = true) ∨
      r.newest = some r.b ∧ r.target = false ∧ r.b.valid = true := by
  unfold LedgerRec.target LedgerRec.newest LedgerRec.newestSecond
  cases r.a.valid <;> cases r.b.valid <;> cases seqLater r.b.seq r.a.seq <;> simp

theorem LedgerRec.newest_of_a (ha : r.a.valid = true) (hb : r.b.valid = false ∨ seqLater r.b.seq r.a.seq = false) : r.newest = some r.a := by
  unfold LedgerRec.newest LedgerRec.newestSecond
  rcases hb with hb | hb
  · rw [ha, hb]; rfl
  · cases hv : r.b.valid <;> simp [ha, hb]

theorem LedgerRec.newest_of_b (hb : r.b.valid = true) (ha : r.a.valid = false ∨ seqLater r.b.seq r.a.seq = true) : r.newest = some r.b := by
  unfold LedgerRec.newest LedgerRec.newestSecond
  rcases ha with ha | ha
  · rw [ha, hb]; rfl
  · cases hv : r.a.valid <;> simp [ha, hb]

theorem LedgerRec.newest_of_none (ha : r.a.valid = false) (hb : r.b.valid = false) : r.newest = none := by
  rw [LedgerRec.newest, LedgerRec.newestSecond, ha, hb]; rfl

/-- A write that is cut short leaves the newest copy: it goes to the other slot. -/
theorem LedgerRec.newest_set_target (hy : y.valid = false) : (r.set r.target y).newest = r.newest := by
  rcases r.newest_cases with ⟨hnew, htarget, hb⟩ | ⟨hnew, htarget, ha⟩ | ⟨hnew, htarget, hb⟩
  · rw [hnew, htarget]; exact LedgerRec.newest_of_none hy hb
  · rw [hnew, htarget]; exact LedgerRec.newest_of_a ha (.inl hy)
  · rw [hnew, htarget]; exact LedgerRec.newest_of_b hb (.inl hy)

/-- A valid slot with the next SEQ, written where a write goes, is the newest copy. -/
theorem LedgerRec.newest_set_next (hx : x.valid = true) (hseq : x.seq = ((r.newest.map Slot.seq).getD 0 + 1) % 2 ^ 32) :
    ((r.set r.target y).set r.target x).newest = some x := by
  rcases r.newest_cases with ⟨hnew, htarget, hb⟩ | ⟨hnew, htarget, ha⟩ | ⟨hnew, htarget, hb⟩
  · rw [htarget]; exact LedgerRec.newest_of_a hx (.inl hb)
  · have hlater : seqLater x.seq r.a.seq = true := by rw [hseq, hnew]; exact seqLater_succ _
    rw [htarget]; exact LedgerRec.newest_of_b hx (.inr hlater)
  · have hearlier : seqLater r.b.seq x.seq = false := by rw [hseq, hnew]; exact not_seqLater_succ _
    rw [htarget]; exact LedgerRec.newest_of_a hx (.inr hearlier)

end Rec

/-! ## Records in the ledger -/

theorem find?_insert_same {α : Type} (k : Nat) (v : α) (m : SMap α) : (SMap.insert k v m).find? (fun kv => kv.1 = k) = some (k, v) := by
  fun_induction SMap.insert k v m with
  | case1 => simp
  | case2 => simp
  | case3 => simp
  | case4 k' v' m _ hne ih => rw [List.find?_cons_of_neg (by simpa using Ne.symm hne), ih]

theorem find?_insert_ne {α : Type} {k n : Nat} (h : n ≠ k) (v : α) (m : SMap α) :
    (SMap.insert k v m).find? (fun kv => kv.1 = n) = m.find? (fun kv => kv.1 = n) := by
  fun_induction SMap.insert k v m with
  | case1 => simp [Ne.symm h]
  | case2 => simp [Ne.symm h]
  | case3 v' m _ => simp [Ne.symm h]
  | case4 k' v' m _ _ ih => rw [List.find?_cons, List.find?_cons, ih]

theorem get_of_find? {α : Type} {d : α} {m : SMap α} {k : Nat} {kv : Nat × α} (h : m.find? (fun kv => kv.1 = k) = some kv) :
    SMap.get d m k = kv.2 := by
  induction m with
  | nil => exact absurd h (by simp)
  | cons x m ih =>
    by_cases hx : x.1 = k
    · rw [List.find?_cons_of_pos (by simpa using hx), Option.some.injEq] at h
      rw [SMap.get, if_pos hx, h]
    · rw [List.find?_cons_of_neg (by simpa using hx)] at h
      rw [SMap.get, if_neg hx, ih h]

theorem Ledger.read_setRecord_same (l : Ledger) (n : Nat) (r : LedgerRec) : (l.setRecord n r).read n = r.newest.map Slot.payload := by
  rw [Ledger.read, Ledger.setRecord, find?_insert_same]
  rfl

theorem Ledger.read_setRecord_ne (l : Ledger) {n m : Nat} (h : m ≠ n) (r : LedgerRec) : (l.setRecord n r).read m = l.read m := by
  rw [Ledger.read, Ledger.setRecord, find?_insert_ne h, ← Ledger.read]

theorem Ledger.record_setRecord_same (l : Ledger) (n : Nat) (r : LedgerRec) : (l.setRecord n r).record n = r :=
  SMap.get_insert_same _ _ _ _

/-- A record that reads is the one whose newest copy is read. -/
theorem Ledger.newest_of_read {l : Ledger} {n : Nat} {p : List Nat} (h : l.read n = some p) : (l.record n).newest.map Slot.payload = some p := by
  rw [Ledger.read] at h
  cases hf : l.records.find? (fun kv => kv.1 = n) with
  | none => rw [hf] at h; exact absurd h (Option.some_ne_none p).symm
  | some kv =>
    rw [hf] at h
    rwa [Ledger.record, get_of_find? hf]

/-- Counting a write and moving a worn block change no record. -/
theorem Ledger.wear_records (l : Ledger) (b : Nat) : (l.wear b).records = l.records := by
  unfold Ledger.wear
  extract_lets _ _ _ _ spare
  clear_value spare
  split <;> rfl

theorem Ledger.read_wear (l : Ledger) (b n : Nat) : (l.wear b).read n = l.read n := by
  rw [Ledger.read, Ledger.wear_records, ← Ledger.read]

/-! ## A write begun and completed -/

section Write

variable (l : Ledger) (req : LedgerReq)

/-- The slot that stands in the target while it is being written. -/
def Ledger.cutSlot : Slot := slotBroken ((l.record req.record).next req.record req.payload)

/-- The record while its target is being written. -/
def Ledger.begunRecord : LedgerRec := (l.record req.record).set (l.record req.record).target (l.cutSlot req)

theorem Ledger.beginWrite_eq :
    l.beginWrite req = (l.setRecord req.record (l.begunRecord req), (l.record req.record).target) := rfl

theorem Ledger.endWrite_eq (second : Bool) :
    l.endWrite req second = (l.setRecord req.record ((l.record req.record).set second ((l.record req.record).next req.record req.payload))).wear
      (recordBlock req.record + second.toNat) := rfl

theorem Ledger.endWrite_beginWrite_eq :
    (l.beginWrite req).1.endWrite req (l.beginWrite req).2 =
      ((l.setRecord req.record (l.begunRecord req)).setRecord req.record ((l.begunRecord req).set (l.record req.record).target
        ((l.begunRecord req).next req.record req.payload))).wear (recordBlock req.record + (l.record req.record).target.toNat) := by
  rw [Ledger.beginWrite_eq, Ledger.endWrite_eq, Ledger.record_setRecord_same]

variable {l req} (hp : ∀ b ∈ req.payload, b < 256)
include hp

theorem Ledger.cutSlot_not_valid : (l.cutSlot req).valid = false := slotBroken_not_valid (slotOf_valid hp _ _)

/-- While a slot is being written the record's newest copy stands. -/
theorem Ledger.read_beginWrite : (l.beginWrite req).1.read req.record = (l.record req.record).newest.map Slot.payload := by
  rw [Ledger.beginWrite_eq, Ledger.read_setRecord_same, Ledger.begunRecord, LedgerRec.newest_set_target (Ledger.cutSlot_not_valid hp)]

/-- When the write is done the record reads as what was written. -/
theorem Ledger.read_endWrite : ((l.beginWrite req).1.endWrite req (l.beginWrite req).2).read req.record = some (req.payload.take 236) := by
  have hseq : ((l.begunRecord req).next req.record req.payload).seq = (((l.record req.record).newest.map Slot.seq).getD 0 + 1) % 2 ^ 32 := by
    rw [LedgerRec.next, slotOf_seq, Nat.mod_mod, Ledger.begunRecord, LedgerRec.newest_set_target (Ledger.cutSlot_not_valid hp)]
  have hnewest : ((l.begunRecord req).set (l.record req.record).target ((l.begunRecord req).next req.record req.payload)).newest =
      some ((l.begunRecord req).next req.record req.payload) :=
    LedgerRec.newest_set_next (slotOf_valid hp _ _) hseq
  rw [Ledger.endWrite_beginWrite_eq, Ledger.read_wear, Ledger.read_setRecord_same, hnewest, Option.map_some, LedgerRec.next,
    slotOf_payload hp]

end Write

/-- Settles O36: the newest copy stands until the other slot is whole under the next SEQ. -/
theorem ledgerWritesSurvive : Obligations.LedgerWritesSurvive := by
  unfold Obligations.LedgerWritesSurvive
  intro l req hp
  refine ⟨fun p hread => (Ledger.read_beginWrite hp).trans (Ledger.newest_of_read hread), Ledger.read_endWrite hp,
    fun n hn => ⟨l.read_setRecord_ne hn _, ?_⟩⟩
  rw [Ledger.endWrite_beginWrite_eq, Ledger.read_wear, Ledger.read_setRecord_ne _ hn, Ledger.read_setRecord_ne _ hn]

end Sys2Proof.Machine
end

section
/-!
What a change of the volatile state leaves of the register fields, and folds that change one place after another.
-/

namespace Sys2Proof.Machine

open Sys2Proof

/-! ## Register fields -/

/-- A counter raised by one, held at its width. -/
theorem Dev.rd_bump_same (d : Dev) (f : Field) : (d.bump f).rd f = min (d.rd f + 1) (2 ^ f.width - 1) := by
  rw [Dev.bump_eq, Dev.rd_wr_same]
  exact Nat.mod_eq_of_lt (Nat.lt_of_le_of_lt (Nat.min_le_right _ _) (Nat.sub_one_lt (Nat.ne_of_gt (Nat.two_pow_pos _))))

theorem Dev.rd_bump_ne (d : Dev) {f g : Field} (h : g.key ≠ f.key) : (d.bump f).rd g = d.rd g := by
  rw [Dev.bump_eq, Dev.rd_wr_ne d h]

theorem Dev.rd_congr {d e : Dev} (h : e.fields = d.fields) (g : Field) : e.rd g = d.rd g := by rw [Dev.rd, h, Dev.rd]

/-- A change of the device that leaves every register field outside a list as it was. -/
def Dev.Keeps (l : List Field) (d e : Dev) : Prop := ∀ g : Field, g.key ∉ l.map Field.key → e.rd g = d.rd g

section Keeps

variable {l m : List Field} {d e e' : Dev}

theorem Dev.Keeps.refl (l : List Field) (d : Dev) : d.Keeps l d := fun _ _ => rfl

theorem Dev.Keeps.trans (h : d.Keeps l e) (h' : e.Keeps l e') : d.Keeps l e' := fun g hg => (h' g hg).trans (h g hg)

theorem Dev.Keeps.mono (h : d.Keeps l e) (hlm : l ⊆ m) : d.Keeps m e := fun g hg => h g fun hmem => hg (List.map_subset _ hlm hmem)

theorem Dev.keeps_of_fields (h : e.fields = d.fields) : d.Keeps l e := fun g _ => Dev.rd_congr h g

theorem Dev.keeps_wr {f : Field} (hf : f ∈ l) (v : Nat) : d.Keeps l (d.wr f v) := fun _ hg =>
  Dev.rd_wr_ne d (fun heq => hg (List.mem_map.mpr ⟨f, hf, heq.symm⟩)) v

theorem Dev.keeps_bump {f : Field} (hf : f ∈ l) : d.Keeps l (d.bump f) := Dev.bump_eq d f ▸ Dev.keeps_wr hf _

theorem Dev.keeps_wrs {w : List (Field × Nat)} (hw : w.map Prod.fst ⊆ l) : d.Keeps l (d.wrs w) := fun _ hg =>
  Dev.rd_wrs_of_not_mem d fun hmem => hg (List.map_subset _ hw hmem)

theorem Dev.keeps_foldl {α : Type} {f : Dev → α → Dev} (xs : List α) (h : ∀ (e : Dev) x, x ∈ xs → e.Keeps l (f e x)) (d : Dev) :
    d.Keeps l (xs.foldl f d) :=
  List.foldlRecOn xs f (motive := d.Keeps l) (Dev.Keeps.refl l d) fun e he x hx => he.trans (h e x hx)

theorem State.frame_of_keeps {s : State} {f : Dev → Dev} (h : s.dev.Keeps l (f s.dev)) : s.frame (s.withDev f) l := State.frame_withDev h

end Keeps

/-! ## Folds that change one place after another -/

section Views

variable {σ κ β : Type} {view : σ → κ → β} {step : σ → Nat → σ} {key : Nat → κ} {upd : Nat → β → β}

/-- A place that no step of a fold touches reads as before. -/
theorem foldl_view_of_ne (hother : ∀ d i j, j ≠ key i → view (step d i) j = view d j) (l : List Nat) (d : σ) {j : κ}
    (hj : ∀ i ∈ l, j ≠ key i) : view (l.foldl step d) j = view d j :=
  List.foldlRecOn l step (motive := fun e => view e j = view d j) rfl fun e he i hi => (hother e i j (hj i hi)).trans he

/-- The place that one step of a fold touches reads as that step leaves it. -/
theorem foldl_view_of_mem (hother : ∀ d i j, j ≠ key i → view (step d i) j = view d j)
    (hsame : ∀ d i, view (step d i) (key i) = upd i (view d (key i))) (hkey : Function.Injective key) {l : List Nat} (hl : l.Nodup) (d : σ)
    {i : Nat} (hi : i ∈ l) : view (l.foldl step d) (key i) = upd i (view d (key i)) := by
  induction l generalizing d with
  | nil => exact absurd hi List.not_mem_nil
  | cons x l ih =>
    obtain ⟨hx, hl⟩ := List.nodup_cons.mp hl
    have hne : ∀ j ∈ l, key x ≠ key j := fun j hj heq => hx (hkey heq ▸ hj)
    rw [List.foldl_cons]
    rcases List.mem_cons.mp hi with rfl | hi
    · rw [foldl_view_of_ne hother l _ hne, hsame]
    · rw [ih hl _ hi, hother _ _ _ (hne i hi).symm]

end Views

/-! ## Events that no counter counts (R461) -/

/-- With no counter enabled an event changes nothing. -/
theorem Dev.count_of_countersOff {d : Dev} (h : d.countersOff = true) (ev unit : Nat) (patron : Option Nat) :
    d.count ev unit patron = d := by
  have hnone : d.perf.filter (fun cp => cp.2.counts cp.1 ev unit patron) = [] := by
    refine List.filter_eq_nil_iff.mpr fun cp hcp => ?_
    have hoff := List.all_eq_true.mp h cp hcp
    simp only [Bool.not_eq_true'] at hoff
    simp [Perf.counts, hoff]
  rw [Dev.count, hnone]
  exact ite_self d

/-- With no counter enabled a charge raises the slots spent, and nothing else. -/
theorem Dev.charge_of_countersOff {d : Dev} (h : d.countersOff = true) (bay cls grp n : Nat) :
    d.charge bay cls grp n = { d with spent := SMap.modify 0 d.spent (spentKey bay cls grp) (· + n) } := by
  have hoff : ({ d with spent := SMap.modify 0 d.spent (spentKey bay cls grp) (· + n) } : Dev).countersOff = true := h
  rw [Dev.charge, Dev.count_of_countersOff hoff, Dev.count_of_countersOff hoff, ite_self]

end Sys2Proof.Machine
end

section
/-!
The command handshake on wires that flip no bit (R75, R76, R79). The word arrives as it was sent, so its fields are the ones given; an
accepted command is executed, taken over by the bay, and its report delivered; the delivery of a report changes the shelf's own record and
the bay's copies of its banks, and nothing else.
-/

namespace Sys2Proof.Machine

open Sys2Proof

variable (d : Dev) (shaft level bank : Nat)

/-! ## Places -/

theorem bankKey_eq : bankKey shaft level bank = shelfKey shaft level * 16 + bank := rfl

theorem bankKey_injective : Function.Injective (bankKey shaft level) := fun _ _ h => Nat.add_left_cancel h

theorem bankKey_div {shaft level bank : Nat} (h : bank < 16) : bankKey shaft level bank / 16 = shelfKey shaft level := by
  rw [bankKey_eq]
  omega

theorem bankKey_ne_of_shelf {shaft level l i j : Nat} (h : shelfKey shaft level ≠ shelfKey shaft l) (hi : i < 16) (hj : j < 16) :
    bankKey shaft level i ≠ bankKey shaft l j := fun heq => h (by rw [← bankKey_div hi, heq, bankKey_div hj])

theorem shelfKey_ne {shaft level l : Nat} (h : level ≠ l) : shelfKey shaft level ≠ shelfKey shaft l := fun heq => h (Nat.add_left_cancel heq)

/-- The 16 places of a shelf's banks are those whose sixteenth is the shelf. -/
theorem div_eq_shelfKey_iff {shaft level j : Nat} : j / 16 = shelfKey shaft level ↔ ∃ i ∈ List.range 16, bankKey shaft level i = j := by
  constructor
  · intro h
    refine ⟨j % 16, List.mem_range.mpr (Nat.mod_lt _ (by decide)), ?_⟩
    rw [bankKey_eq, ← h]
    omega
  · rintro ⟨i, hi, rfl⟩
    exact bankKey_div (List.mem_range.mp hi)

/-! ## What the records of the shafts leave of each other -/

@[simp] theorem Dev.bank_setShelf (k j : Nat) (f : Shelf → Shelf) : (d.setShelf k f).bank j = d.bank j := rfl
@[simp] theorem Dev.bayBank_setShelf (k j : Nat) (f : Shelf → Shelf) : (d.setShelf k f).bayBank j = d.bayBank j := rfl
@[simp] theorem Dev.shaft_setShelf (k j : Nat) (f : Shelf → Shelf) : (d.setShelf k f).shaft j = d.shaft j := rfl
@[simp] theorem Dev.owedOf_setShelf (k j : Nat) (f : Shelf → Shelf) : (d.setShelf k f).owedOf j = d.owedOf j := rfl
@[simp] theorem Dev.rd_setShelf (k : Nat) (f : Shelf → Shelf) (g : Field) : (d.setShelf k f).rd g = d.rd g := rfl
@[simp] theorem Dev.shelf_setBank (k j : Nat) (f : Bank → Bank) : (d.setBank k f).shelf j = d.shelf j := rfl
@[simp] theorem Dev.bayBank_setBank (k j : Nat) (f : Bank → Bank) : (d.setBank k f).bayBank j = d.bayBank j := rfl
@[simp] theorem Dev.shaft_setBank (k j : Nat) (f : Bank → Bank) : (d.setBank k f).shaft j = d.shaft j := rfl
@[simp] theorem Dev.owedOf_setBank (k j : Nat) (f : Bank → Bank) : (d.setBank k f).owedOf j = d.owedOf j := rfl
@[simp] theorem Dev.rd_setBank (k : Nat) (f : Bank → Bank) (g : Field) : (d.setBank k f).rd g = d.rd g := rfl
@[simp] theorem Dev.shelf_setBayBank (k j : Nat) (st : BankSt) : (d.setBayBank k st).shelf j = d.shelf j := rfl
@[simp] theorem Dev.bank_setBayBank (k j : Nat) (st : BankSt) : (d.setBayBank k st).bank j = d.bank j := rfl
@[simp] theorem Dev.shaft_setBayBank (k j : Nat) (st : BankSt) : (d.setBayBank k st).shaft j = d.shaft j := rfl
@[simp] theorem Dev.owedOf_setBayBank (k j : Nat) (st : BankSt) : (d.setBayBank k st).owedOf j = d.owedOf j := rfl
@[simp] theorem Dev.rd_setBayBank (k : Nat) (st : BankSt) (g : Field) : (d.setBayBank k st).rd g = d.rd g := rfl
@[simp] theorem Dev.shelf_setShaft (k j : Nat) (f : Shaft → Shaft) : (d.setShaft k f).shelf j = d.shelf j := rfl
@[simp] theorem Dev.bank_setShaft (k j : Nat) (f : Shaft → Shaft) : (d.setShaft k f).bank j = d.bank j := rfl
@[simp] theorem Dev.bayBank_setShaft (k j : Nat) (f : Shaft → Shaft) : (d.setShaft k f).bayBank j = d.bayBank j := rfl
@[simp] theorem Dev.owedOf_setShaft (k j : Nat) (f : Shaft → Shaft) : (d.setShaft k f).owedOf j = d.owedOf j := rfl
@[simp] theorem Dev.rd_setShaft (k : Nat) (f : Shaft → Shaft) (g : Field) : (d.setShaft k f).rd g = d.rd g := rfl
@[simp] theorem Dev.shelf_setOwed (k j : Nat) (v : Int) : (d.setOwed k v).shelf j = d.shelf j := rfl
@[simp] theorem Dev.bank_setOwed (k j : Nat) (v : Int) : (d.setOwed k v).bank j = d.bank j := rfl
@[simp] theorem Dev.bayBank_setOwed (k j : Nat) (v : Int) : (d.setOwed k v).bayBank j = d.bayBank j := rfl
@[simp] theorem Dev.shaft_setOwed (k j : Nat) (v : Int) : (d.setOwed k v).shaft j = d.shaft j := rfl
@[simp] theorem Dev.rd_setOwed (k : Nat) (v : Int) (g : Field) : (d.setOwed k v).rd g = d.rd g := rfl

/-! ## Words of the general form and of ACT (Table 4.4) -/

/-- The fields of a word of the general form. -/
def generalFields (level bank op operand : Nat) : CmdFields :=
  { isAct := false, level := level, bank := bank, row := op % 16 * 2 ^ 9 + operand, op := op, operand := operand }

/-- The fields of an ACT word. -/
def actFields (level bank row : Nat) : CmdFields :=
  { isAct := true, level := level, bank := bank, row := row, op := row / 2 ^ 9 % 16, operand := row % 2 ^ 9 }

variable {level bank}

theorem cmdFields_cmdWord_eq {op operand : Nat} (hlevel : level < 32) (hbank : bank < 16) (hop : op < 16) (hoperand : operand < 512) :
    cmdFields (cmdWord level bank op operand) = generalFields level bank op operand := by
  simp only [cmdWord, cmdFields_withParity, generalFields, Nat.testBit_eq_decide_div_mod_eq, CmdFields.mk.injEq, decide_eq_false_iff_not]
  omega

theorem cmdFields_actWord_eq {row : Nat} (hlevel : level < 32) (hbank : bank < 16) (hrow : row < 8192) :
    cmdFields (actWord level bank row) = actFields level bank row := by
  simp only [actWord, cmdFields_withParity, actFields, Nat.testBit_eq_decide_div_mod_eq, CmdFields.mk.injEq, decide_eq_true_eq]
  omega

/-! ## A port that hears its bay -/

theorem Dev.portReady_iff {d : Dev} {shaft level : Nat} :
    d.portReady shaft level = true ↔ d.shaftDriven shaft = true ∧ d.portPowered shaft level = true ∧
      (d.shelf (shelfKey shaft level)).st = .ready := by
  simp only [Dev.portReady, Bool.and_eq_true, decide_eq_true_eq, and_assoc]

/-! ## Reports (R79) -/

/-- The shelf port's record once its report has gone up. -/
def Shelf.reported (p : Shelf) : Shelf := { p with done := 0, fault := false, grantChanged := false, claimNew := false }

/-- The bay's bank states after the DONE bits of a report. -/
def Dev.takeDone (d : Dev) (shaft level n : Nat) : Dev :=
  (List.range 16).foldl (fun d i =>
    let k := bankKey shaft level i
    if n.testBit i then d.setBayBank k (d.bayBank k).afterDone else d) d

theorem Dev.takeDone_footprint (n : Nat) : ∃ m, d.takeDone shaft level n = { d with bayBanks := m } := by
  refine List.foldlRecOn (List.range 16) _ (motive := fun e : Dev => ∃ m, e = { d with bayBanks := m }) ⟨_, rfl⟩ ?_
  rintro _ ⟨m, rfl⟩ i -
  dsimp only
  split
  · exact ⟨_, rfl⟩
  · exact ⟨_, rfl⟩

/-- One DONE bit taken over. -/
theorem Dev.bayBank_takeDone {i : Nat} (hi : i < 16) (n : Nat) :
    (d.takeDone shaft level n).bayBank (bankKey shaft level i) =
      if n.testBit i then (d.bayBank (bankKey shaft level i)).afterDone else d.bayBank (bankKey shaft level i) := by
  refine foldl_view_of_mem (view := Dev.bayBank) (key := bankKey shaft level)
    (upd := fun i st => if n.testBit i then st.afterDone else st) ?other ?same (bankKey_injective shaft level) List.nodup_range d
    (List.mem_range.mpr hi)
  case other =>
    intro d i j hj
    dsimp only
    split
    · exact Dev.bayBank_setBayBank_ne d hj _
    · rfl
  case same =>
    intro d i
    dsimp only
    split
    · exact Dev.bayBank_setBayBank_same d _ _
    · rfl

theorem Dev.bayBank_takeDone_of_ne {j : Nat} (hj : ∀ i < 16, j ≠ bankKey shaft level i) (n : Nat) :
    (d.takeDone shaft level n).bayBank j = d.bayBank j := by
  refine foldl_view_of_ne (view := Dev.bayBank) (key := bankKey shaft level) ?_ _ d fun i hi => hj i (List.mem_range.mp hi)
  intro d i j hj
  dsimp only
  split
  · exact Dev.bayBank_setBayBank_ne d hj _
  · rfl

/-- The bay's own record of a shelf after its report word. -/
def Shelf.heard (p : Shelf) (d : Dev) (level n : Nat) : Shelf :=
  { p with baySt := ShelfSt.ofCode (n / 2 ^ 18 % 4),
           grantBayNext := if n.testBit 20 then SMap.get (d.portGrant level) d.grantNext level else p.grantBayNext }

/-- A report on wires that flip no bit has even parity, so the bay takes it over. -/
theorem Dev.deliverReport_zero :
    d.deliverReport shaft level 0 =
      ((d.setShelf (shelfKey shaft level) Shelf.reported).takeDone shaft level (d.reportWord shaft level).toNat).setShelf
        (shelfKey shaft level)
        fun p => p.heard ((d.setShelf (shelfKey shaft level) Shelf.reported).takeDone shaft level (d.reportWord shaft level).toNat) level
          (d.reportWord shaft level).toNat := by
  have heven : oddParity (d.reportWord shaft level) = false := oddParity_withParity _
  rw [Dev.deliverReport, show d.reportWord shaft level ^^^ (0 : BitVec 24) = d.reportWord shaft level from BitVec.xor_zero, heven]
  rfl

/-- The delivery of a report changes shelf records and the bay's bank states, and nothing else. -/
theorem Dev.deliverReport_footprint :
    ∃ m p, d.deliverReport shaft level 0 = { d with bayBanks := m, shelves := p } := by
  rw [Dev.deliverReport_zero]
  obtain ⟨m, hm⟩ := (d.setShelf (shelfKey shaft level) Shelf.reported).takeDone_footprint (level := level) shaft
    (d.reportWord shaft level).toNat
  rw [hm]
  exact ⟨_, _, rfl⟩

@[simp] theorem Dev.deliverReport_fields : (d.deliverReport shaft level 0).fields = d.fields := by
  obtain ⟨_, _, h⟩ := d.deliverReport_footprint (level := level) shaft
  rw [h]

@[simp] theorem Dev.deliverReport_banks : (d.deliverReport shaft level 0).banks = d.banks := by
  obtain ⟨_, _, h⟩ := d.deliverReport_footprint (level := level) shaft
  rw [h]

@[simp] theorem Dev.deliverReport_claims : (d.deliverReport shaft level 0).claims = d.claims := by
  obtain ⟨_, _, h⟩ := d.deliverReport_footprint (level := level) shaft
  rw [h]

@[simp] theorem Dev.deliverReport_owed : (d.deliverReport shaft level 0).owed = d.owed := by
  obtain ⟨_, _, h⟩ := d.deliverReport_footprint (level := level) shaft
  rw [h]

@[simp] theorem Dev.deliverReport_refreshCtr : (d.deliverReport shaft level 0).refreshCtr = d.refreshCtr := by
  obtain ⟨_, _, h⟩ := d.deliverReport_footprint (level := level) shaft
  rw [h]

@[simp] theorem Dev.deliverReport_rowCounts : (d.deliverReport shaft level 0).rowCounts = d.rowCounts := by
  obtain ⟨_, _, h⟩ := d.deliverReport_footprint (level := level) shaft
  rw [h]

@[simp] theorem Dev.deliverReport_raised : (d.deliverReport shaft level 0).raised = d.raised := by
  obtain ⟨_, _, h⟩ := d.deliverReport_footprint (level := level) shaft
  rw [h]

@[simp] theorem Dev.deliverReport_viaWanted : (d.deliverReport shaft level 0).viaWanted = d.viaWanted := by
  obtain ⟨_, _, h⟩ := d.deliverReport_footprint (level := level) shaft
  rw [h]

@[simp] theorem Dev.deliverReport_shafts : (d.deliverReport shaft level 0).shafts = d.shafts := by
  obtain ⟨_, _, h⟩ := d.deliverReport_footprint (level := level) shaft
  rw [h]

@[simp] theorem Dev.bank_deliverReport (k : Nat) : (d.deliverReport shaft level 0).bank k = d.bank k := by
  rw [Dev.bank, Dev.deliverReport_banks, ← Dev.bank]

@[simp] theorem Dev.owedOf_deliverReport (k : Nat) : (d.deliverReport shaft level 0).owedOf k = d.owedOf k := by
  rw [Dev.owedOf, Dev.deliverReport_owed, ← Dev.owedOf]

@[simp] theorem Dev.claimAt_deliverReport (k : Nat) : (d.deliverReport shaft level 0).claimAt k = d.claimAt k := by
  rw [Dev.claimAt, Dev.deliverReport_claims, ← Dev.claimAt]

@[simp] theorem Dev.shaft_deliverReport (k : Nat) : (d.deliverReport shaft level 0).shaft k = d.shaft k := by
  rw [Dev.shaft, Dev.deliverReport_shafts, ← Dev.shaft]

@[simp] theorem Dev.rd_deliverReport (g : Field) : (d.deliverReport shaft level 0).rd g = d.rd g :=
  Dev.rd_congr (d.deliverReport_fields shaft) g

/-- The report word of a shelf port as a number below its parity bit. -/
theorem Dev.reportWord_toNat : ∃ c g p : Nat, c ≤ 1 ∧ g ≤ 1 ∧ p ≤ 1 ∧
    (d.reportWord shaft level).toNat = (d.shelf (shelfKey shaft level)).done.toNat +
      ((d.shelf (shelfKey shaft level)).fault.toNat + 2 * c + 4 * (d.shelf (shelfKey shaft level)).st.code + 16 * g) * 2 ^ 16 + p * 2 ^ 23 := by
  have hdone := (d.shelf (shelfKey shaft level)).done.isLt
  have hfault : (d.shelf (shelfKey shaft level)).fault.toNat ≤ 1 := Bool.toNat_le _
  have hcode : (d.shelf (shelfKey shaft level)).st.code ≤ 2 := by cases (d.shelf (shelfKey shaft level)).st <;> decide
  have hclaim : (d.claimBit shaft level).toNat ≤ 1 := Bool.toNat_le _
  have hgrant : (d.shelf (shelfKey shaft level)).grantChanged.toNat ≤ 1 := Bool.toNat_le _
  have hparity : ∀ n, n % 2 ≤ 1 := fun n => Nat.le_of_lt_succ (Nat.mod_lt n Nat.two_pos)
  rw [Dev.reportWord, withParity_toNat]
  refine ⟨_, _, _, hclaim, hgrant, hparity _, congrArg (· + _) ?_⟩
  omega

/-- The bits of a report word that are DONE bits. -/
theorem Dev.testBit_reportWord {i : Nat} (hi : i < 16) :
    (d.reportWord shaft level).toNat.testBit i = (d.shelf (shelfKey shaft level)).done.getLsbD i := by
  obtain ⟨c, g, p, -, -, -, h⟩ := d.reportWord_toNat (level := level) shaft
  have hlow : (d.reportWord shaft level).toNat % 2 ^ 16 = (d.shelf (shelfKey shaft level)).done.toNat := by
    have hdone := (d.shelf (shelfKey shaft level)).done.isLt
    omega
  rw [BitVec.getLsbD, ← hlow, Nat.testBit_mod_two_pow, decide_eq_true hi, Bool.true_and]

/-- The shelf state that a report word carries. -/
theorem Dev.reportWord_state :
    ShelfSt.ofCode ((d.reportWord shaft level).toNat / 2 ^ 18 % 4) = (d.shelf (shelfKey shaft level)).st := by
  obtain ⟨c, g, p, hc, hg, hp, h⟩ := d.reportWord_toNat (level := level) shaft
  have hcode : (d.reportWord shaft level).toNat / 2 ^ 18 % 4 = (d.shelf (shelfKey shaft level)).st.code := by
    have hdone := (d.shelf (shelfKey shaft level)).done.isLt
    have hfault : (d.shelf (shelfKey shaft level)).fault.toNat ≤ 1 := Bool.toNat_le _
    have hst : (d.shelf (shelfKey shaft level)).st.code ≤ 2 := by cases (d.shelf (shelfKey shaft level)).st <;> decide
    omega
  rw [hcode]
  cases (d.shelf (shelfKey shaft level)).st <;> rfl

theorem Dev.shelf_takeDone (n k : Nat) : (d.takeDone shaft level n).shelf k = d.shelf k := by
  obtain ⟨m, hm⟩ := d.takeDone_footprint (level := level) shaft n
  rw [hm]
  rfl

/-- The shelf whose report was delivered: its port has sent what it had to report, and the bay knows its state. -/
theorem Dev.shelf_deliverReport_same :
    ∃ g, (d.deliverReport shaft level 0).shelf (shelfKey shaft level) =
      { (d.shelf (shelfKey shaft level)).reported with baySt := (d.shelf (shelfKey shaft level)).st, grantBayNext := g } := by
  rw [Dev.deliverReport_zero, Dev.shelf_setShelf_same, Dev.shelf_takeDone, Dev.shelf_setShelf_same, Shelf.heard, Dev.reportWord_state]
  exact ⟨_, rfl⟩

theorem Dev.shelf_deliverReport_of_ne {j : Nat} (hj : j ≠ shelfKey shaft level) : (d.deliverReport shaft level 0).shelf j = d.shelf j := by
  rw [Dev.deliverReport_zero, Dev.shelf_setShelf_ne _ hj, Dev.shelf_takeDone, Dev.shelf_setShelf_ne _ hj]

/-- The bay's copy of a bank after its report: its DONE bit taken over (Table 4.7). -/
theorem Dev.bayBank_deliverReport {i : Nat} (hi : i < 16) :
    (d.deliverReport shaft level 0).bayBank (bankKey shaft level i) =
      if (d.shelf (shelfKey shaft level)).done.getLsbD i then (d.bayBank (bankKey shaft level i)).afterDone
      else d.bayBank (bankKey shaft level i) := by
  rw [Dev.deliverReport_zero, Dev.bayBank_setShelf, Dev.bayBank_takeDone _ shaft hi, Dev.bayBank_setShelf, Dev.testBit_reportWord d shaft hi]

theorem Dev.bayBank_deliverReport_of_ne {j : Nat} (hj : ∀ i < 16, j ≠ bankKey shaft level i) :
    (d.deliverReport shaft level 0).bayBank j = d.bayBank j := by
  rw [Dev.deliverReport_zero, Dev.bayBank_setShelf, Dev.bayBank_takeDone_of_ne _ shaft hj, Dev.bayBank_setShelf]

/-! ## The handshake of an accepted command -/

/-- A shaft after an ACCEPT: no ALERT, no stall stands. -/
def Shaft.cleared (t : Shaft) : Shaft := { t with alerted := none, parityRun := none, stalled := none }

/-- An accepted command, which a powered port hears and does not ALERT. -/
theorem Dev.handshake_of_accepts {d : Dev} {w : BitVec 24} {c : CmdFields} (x : CmdExtra) (hparity : oddParity w = false)
    (hfields : cmdFields w = c) (hlevel : c.level < 17) (hpowered : d.portPowered shaft c.level = true)
    (hcause : d.portCause shaft c.level c = 0) :
    d.handshake shaft level w { down := 0, up := 0 } x =
      ((d.portExecute shaft c.level c x).bayAccepted shaft level c x).deliverReport shaft c.level 0 := by
  have hzero : w ^^^ (0 : BitVec 24) = w := BitVec.xor_zero
  have hheard : ¬ (17 ≤ c.level ∨ ¬ d.portPowered shaft c.level = true) := by
    rw [hpowered]
    simpa using hlevel
  rw [Dev.handshake]
  dsimp only
  rw [hzero, hparity, hfields, if_neg Bool.false_ne_true, if_neg hheard, hcause, if_neg (not_not_intro rfl)]

/-- An accepted command of the general form. -/
theorem Dev.general_of_accepts {d : Dev} {op operand : Nat} (x : CmdExtra) (hdriven : d.shaftDriven shaft = true)
    (hpowered : d.portPowered shaft level = true) (hlevel : level < 17) (hbank : bank < 16) (hop : op < 16) (hoperand : operand < 512)
    (hcause : d.portCause shaft level (generalFields level bank op operand) = 0) :
    d.general shaft level bank op operand { down := 0, up := 0 } x =
      ((d.portExecute shaft level (generalFields level bank op operand) x).bayAccepted shaft level
        (generalFields level bank op operand) x).deliverReport shaft level 0 := by
  rw [Dev.general, if_pos hdriven]
  exact Dev.handshake_of_accepts shaft x (oddParity_withParity _)
    (cmdFields_cmdWord_eq (Nat.lt_trans hlevel (by decide)) hbank hop hoperand) hlevel hpowered hcause

/-- A data-moving command is one of the general form where the transfer order has room (R73). -/
theorem Dev.moving_of_room {d : Dev} {op operand : Nat} (x : CmdExtra) (noise : Noise) (hroom : d.orderRoom shaft = true) :
    d.moving shaft level bank op operand noise x = d.general shaft level bank op operand noise x := if_pos hroom

/-- An ALERTed command (Table 4.10). -/
theorem Dev.general_of_alerts {d : Dev} {op operand cause : Nat} (x : CmdExtra) (hdriven : d.shaftDriven shaft = true)
    (hpowered : d.portPowered shaft level = true) (hlevel : level < 17) (hbank : bank < 16) (hop : op < 16) (hoperand : operand < 512)
    (hcause : d.portCause shaft level (cmdFields (cmdWord level bank op operand)) = cause) (hne : cause ≠ 0) :
    d.general shaft level bank op operand { down := 0, up := 0 } x =
      (d.portAlert shaft level cause).bayAlerted shaft level (cmdWord level bank op operand) cause := by
  have hzero : cmdWord level bank op operand ^^^ (0 : BitVec 24) = cmdWord level bank op operand := BitVec.xor_zero
  have hparity : oddParity (cmdWord level bank op operand) = false := oddParity_withParity _
  have hsame : (cmdFields (cmdWord level bank op operand)).level = level := by
    rw [cmdFields_cmdWord_eq (Nat.lt_trans hlevel (by decide)) hbank hop hoperand]
    rfl
  have hheard : ¬ (17 ≤ level ∨ ¬ d.portPowered shaft level = true) := by
    rw [hpowered]
    simpa using hlevel
  rw [Dev.general, if_pos hdriven, Dev.handshake]
  dsimp only
  rw [hzero, hparity, hsame, if_neg Bool.false_ne_true, if_neg hheard, hcause, if_pos hne]

end Sys2Proof.Machine
end

section
/-!
Data-moving commands (R73, Table 4.5): an accepted one puts one entry at the end of the shaft's transfer order. What else the handshake
does (the charge, the bay's notes of ALERTs and stalls, the report) changes no bank and no register field.
-/

namespace Sys2Proof.Machine

open Sys2Proof

variable {d : Dev} {shaft level bank : Nat}

/-! ## Acceptance -/

theorem Dev.portCause_column (hst : (d.shelf (shelfKey shaft level)).st = .ready) (hopen : (d.bank (bankKey shaft level bank)).st = .opened)
    {op operand : Nat} (hop : op = 1 ∨ op = 2) (hoperand : operand < 64) :
    d.portCause shaft level (generalFields level bank op operand) = 0 := by
  have hok : ¬ 64 ≤ operand := Nat.not_le.mpr hoperand
  rcases hop with rfl | rfl <;> simp [Dev.portCause, generalFields, badOperand, hst, hopen, hok]

/-- SRR, SRW of word 288, CAL and PING, SYNC ask for no bank's state. -/
theorem Dev.portCause_noBank (hst : (d.shelf (shelfKey shaft level)).st = .ready) {op operand : Nat} (hop : op = 0 ∨ 7 ≤ op)
    (hgood : badOperand op operand = false) : d.portCause shaft level (generalFields level bank op operand) = 0 := by
  rw [Dev.portCause, hst]
  simp only [generalFields, Bool.not_false, Bool.true_and, hgood, Bool.false_eq_true, if_false]
  rcases hop with rfl | hop
  · rfl
  · obtain ⟨n, rfl⟩ := Nat.exists_eq_add_of_le' hop
    rfl

/-! ## What an accepted command leaves in the transfer order -/

/-- The device after an accepted data-moving command, before its report: the entry joined, the shaft's notes cleared, slots spent. -/
def Dev.joined (d : Dev) (shaft : Nat) (x : Xfer) (spent : SMap Nat) : Dev :=
  { (d.pushXfer shaft x).setShaft shaft Shaft.cleared with spent := spent }

theorem Dev.order_joined (x : Xfer) (spent : SMap Nat) : ((d.joined shaft x spent).shaft shaft).order = (d.shaft shaft).order ++ [x] := by
  change ((((d.pushXfer shaft x).setShaft shaft Shaft.cleared).shaft shaft)).order = _
  rw [Dev.shaft_setShaft_same, Dev.pushXfer, Dev.shaft_setShaft_same]
  rfl

/-- A command that joins an entry changes nothing of the banks and the register fields. -/
theorem State.joins {s : State} {c : Instr} {f : Dev → Dev} {x : Xfer} (hexec : exec c s = .next (s.withDev f))
    (hf : ∃ spent, f s.dev = (s.dev.joined shaft x spent).deliverReport shaft level 0) :
    ∃ t, exec c s = .next t ∧ s.frame t [] ∧ t.dev.banks = s.dev.banks ∧ (t.dev.shaft shaft).order = (s.dev.shaft shaft).order ++ [x] := by
  obtain ⟨spent, hf⟩ := hf
  refine ⟨_, hexec, State.frame_of_keeps fun g _ => ?_, ?_, ?_⟩
  · rw [hf, Dev.rd_deliverReport]
    rfl
  · rw [State.withDev_dev, hf, Dev.deliverReport_banks]
    rfl
  · rw [State.withDev_dev, hf, Dev.shaft_deliverReport, Dev.order_joined]

/-! ## The commands -/

/-- An accepted RD or WR is charged to its class and group. -/
theorem Dev.bayAccepted_column {op operand : Nat} (hop : op = 1 ∨ op = 2) {e : Dev} {x : CmdExtra} (hoff : e.countersOff = true) :
    ∃ spent, e.bayAccepted shaft level (generalFields level bank op operand) x = { e.setShaft shaft Shaft.cleared with spent := spent } := by
  have hoff' : (e.setShaft shaft Shaft.cleared).countersOff = true := hoff
  rcases hop with rfl | rfl
  · exact ⟨_, Dev.charge_of_countersOff hoff' shaft x.cls x.grp 1⟩
  · exact ⟨_, Dev.charge_of_countersOff hoff' shaft x.cls x.grp 1⟩

/-- An accepted command without a bank is charged to nobody. -/
theorem Dev.bayAccepted_noBank {op operand : Nat} (hop : op = 0 ∨ 6 ≤ op) {e : Dev} {x : CmdExtra} :
    e.bayAccepted shaft level (generalFields level bank op operand) x = e.setShaft shaft Shaft.cleared := by
  rcases hop with rfl | hop
  · rfl
  · obtain ⟨n, rfl⟩ := Nat.exists_eq_add_of_le' hop
    rfl

theorem lineOperand_lt {line : Nat} (h : line < 32) (ap : Bool) : line + ap.toNat * 32 < 64 := by
  have := Bool.toNat_le ap
  omega

theorem lineOperand_mod {line : Nat} (h : line < 32) (ap : Bool) : (line + ap.toNat * 32) % 32 = line := by omega

theorem lineOperand_testBit {line : Nat} (h : line < 32) (ap : Bool) : (line + ap.toNat * 32).testBit 5 = ap := by
  cases ap <;> simp only [Bool.toNat_true, Bool.toNat_false, Nat.testBit_eq_decide_div_mod_eq, decide_eq_true_eq, decide_eq_false_iff_not] <;>
    omega

section Commands

variable (hready : d.portReady shaft level = true) (hroom : d.orderRoom shaft = true) (hlevel : level < 17)
include hready hroom hlevel

/-- RD or WR accepted: what the port pushes is the entry, and the bay charges it. -/
theorem Dev.moving_column {op line : Nat} (hop : op = 1 ∨ op = 2) (hoff : d.countersOff = true)
    (hopen : (d.bank (bankKey shaft level bank)).st = .opened) (hbank : bank < 16) (hline : line < 32) (ap : Bool) (x : CmdExtra) (y : Xfer)
    (hpush : d.portExecute shaft level (generalFields level bank op (line + ap.toNat * 32)) x = d.pushXfer shaft y) :
    ∃ spent, d.moving shaft level bank op (line + ap.toNat * 32) { down := 0, up := 0 } x =
      (d.joined shaft y spent).deliverReport shaft level 0 := by
  obtain ⟨hdriven, hpowered, hst⟩ := Dev.portReady_iff.mp hready
  have hoperand := lineOperand_lt hline ap
  have hop16 : op < 16 := by omega
  have hoff' : (d.pushXfer shaft y).countersOff = true := hoff
  obtain ⟨spent, haccepted⟩ := Dev.bayAccepted_column (level := level) (bank := bank) (operand := line + ap.toNat * 32) hop
    (x := x) (shaft := shaft) hoff'
  rw [Dev.moving_of_room _ _ _ hroom, Dev.general_of_accepts shaft x hdriven hpowered hlevel hbank hop16 (Nat.lt_trans hoperand (by decide))
    (Dev.portCause_column hst hopen hop hoperand), hpush, haccepted]
  exact ⟨spent, rfl⟩

/-- SRR, SRW or CAL accepted. -/
theorem Dev.moving_noBank {op operand : Nat} (hop : 7 ≤ op) (hop16 : op < 16) (hoperand : operand < 512)
    (hgood : badOperand op operand = false) (x : CmdExtra) (y : Xfer)
    (hpush : d.portExecute shaft level (generalFields level 0 op operand) x = d.pushXfer shaft y) :
    ∃ spent, d.moving shaft level 0 op operand { down := 0, up := 0 } x = (d.joined shaft y spent).deliverReport shaft level 0 := by
  obtain ⟨hdriven, hpowered, hst⟩ := Dev.portReady_iff.mp hready
  rw [Dev.moving_of_room _ _ _ hroom, Dev.general_of_accepts shaft x hdriven hpowered hlevel (by decide) hop16 hoperand
    (Dev.portCause_noBank hst (.inr hop) hgood), hpush, Dev.bayAccepted_noBank (.inr (by omega))]
  exact ⟨d.spent, rfl⟩

end Commands

theorem Dev.portExecute_column {op line : Nat} (hop : op = 1 ∨ op = 2) (hline : line < 32) (ap : Bool) (x : CmdExtra) :
    d.portExecute shaft level (generalFields level bank op (line + ap.toNat * 32)) x = d.pushXfer shaft
      { level := level, bank := bank, row := (d.bank (bankKey shaft level bank)).row, line := line,
        kind := if op = 1 then .read else .write, ap := ap, cls := x.cls, grp := x.grp,
        patron := if op = 1 then x.patron else 0, scrub := if op = 1 then x.scrub else false } := by
  rcases hop with rfl | rfl <;>
    simp only [Dev.portExecute, generalFields, lineOperand_mod hline, lineOperand_testBit hline] <;> rfl

/-- Settles O10: each command is accepted, pushes its entry and is charged. -/
theorem dataMovesJoinTheOrder : Obligations.DataMovesJoinTheOrder := by
  unfold Obligations.DataMovesJoinTheOrder
  intro s shaft level hready hroom hoff joins
  have hlevel : level.val < 17 := level.isLt
  refine ⟨fun bank line ap cls grp hopen => ⟨fun patron scrub => ?rd, ?wr⟩, fun word => ?srr, fun data => ?srw, ?calWrite, ?calRead⟩
  case rd =>
    exact State.joins rfl (Dev.moving_column hready hroom hlevel (.inl rfl) hoff hopen bank.isLt line.isLt _ _ _
      (Dev.portExecute_column (.inl rfl) line.isLt _ _))
  case wr =>
    exact State.joins rfl (Dev.moving_column hready hroom hlevel (.inr rfl) hoff hopen bank.isLt line.isLt _ _ _
      (Dev.portExecute_column (.inr rfl) line.isLt _ _))
  case srr => exact State.joins rfl (Dev.moving_noBank hready hroom hlevel (by decide) (by decide) word.isLt rfl _ _ rfl)
  case srw => exact State.joins rfl (Dev.moving_noBank hready hroom hlevel (by decide) (by decide) (by decide) rfl _ _ rfl)
  case calWrite => exact State.joins rfl (Dev.moving_noBank hready hroom hlevel (by decide) (by decide) (by decide) rfl _ _ rfl)
  case calRead => exact State.joins rfl (Dev.moving_noBank hready hroom hlevel (by decide) (by decide) (by decide) rfl _ _ rfl)

end Sys2Proof.Machine
end

section
/-!
ACT of a row for the 512th time where ROW_ACT_TRIGGERS, 24 bits wide (Table 5.7), is full: the count stays at 2^24 - 1.
-/

namespace Sys2Proof.Machine

open Sys2Proof

/-- A state whose level 0 has counted as many triggers as its register holds, and where one more activation of row 0 opens a claim. -/
def triggersFull : State := { dev := { fields := [((F.ROW_ACT_TRIGGERS 0).key, 2 ^ 24 - 1)], rowCounts := [(0, 511)] } }

/-- The triggers counted at level 0 after a command. -/
def triggersAfter : Host.Outcome State Fault Refusal → Option Nat
  | .next t => some (t.dev.rd (F.ROW_ACT_TRIGGERS 0))
  | _ => none

theorem triggersAfter_act_triggersFull :
    triggersAfter (exec (.act 0 0 0 0 0 false { down := 0, up := 0 }) triggersFull) = some (2 ^ 24 - 1) := rfl

/-- Refutes O9: with 2^24 - 1 triggers counted the 512th activation leaves the count, which saturates at 24 bits and not at 32. -/
theorem not_activationsOpenRows : ¬ Obligations.ActivationsOpenRows := by
  unfold Obligations.ActivationsOpenRows
  rintro ⟨-, htrigger⟩
  obtain ⟨t, hexec, -, -, -, hcount⟩ := htrigger triggersFull 0 0 0 0 0 0 (by decide) (by decide) rfl (by decide) (by decide) (by decide) (by decide)
    (by decide)
  have hafter := triggersAfter_act_triggersFull
  rw [hexec] at hafter
  have hsame : t.dev.rd (F.ROW_ACT_TRIGGERS 0) = 2 ^ 24 - 1 := Option.some.inj hafter
  have hraised : t.dev.rd (F.ROW_ACT_TRIGGERS 0) = 2 ^ 24 := hcount
  omega

end Sys2Proof.Machine
end

section
/-!
Bank operations (R81 to R84, R107, R108, R114, R125): their starts by PRE, REF, TREF and SREF, each accepted, and their ends. Of an accepted
command the bay's notes and the report leave what the shelf port did to banks, claims, OWED and refresh counters.
-/

namespace Sys2Proof.Machine

open Sys2Proof

variable {d e : Dev} {shaft level bank : Nat}

/-! ## What the bay's notes and the report leave -/

/-- The parts of the device that a shelf port's execution decides, and the bay's notes and the report leave. -/
structure Dev.SamePort (e t : Dev) (sh : Nat) : Prop where
  fields : t.fields = e.fields
  banks : t.banks = e.banks
  claims : t.claims = e.claims
  owed : t.owed = e.owed
  refreshCtr : t.refreshCtr = e.refreshCtr
  st : (t.shelf sh).st = (e.shelf sh).st

/-- What the bay notes of an accepted command of the general form: its bank states, its charges, and no ALERT or stall. -/
theorem Dev.bayAccepted_footprint (hoff : e.countersOff = true) (op operand : Nat) (x : CmdExtra) :
    ∃ m p, e.bayAccepted shaft level (generalFields level bank op operand) x =
      { e.setShaft shaft Shaft.cleared with bayBanks := m, spent := p } := by
  have hcharge : ∀ m cls grp, ∃ p, ({ e.setShaft shaft Shaft.cleared with bayBanks := m } : Dev).charge shaft cls grp =
      { e.setShaft shaft Shaft.cleared with bayBanks := m, spent := p } := fun m cls grp =>
    ⟨_, Dev.charge_of_countersOff (d := { e.setShaft shaft Shaft.cleared with bayBanks := m }) hoff shaft cls grp 1⟩
  have hnotes : e.bayAccepted shaft level (generalFields level bank op operand) x =
      match op with
      | 0x1 | 0x2 => (e.setShaft shaft Shaft.cleared).charge shaft x.cls x.grp
      | 0x3 =>
        if operand = 1 then
          (List.range 16).foldl (fun d i =>
            let ki := bankKey shaft level i
            if d.bayBank ki = .opened then d.setBayBank ki .precharging else d) (e.setShaft shaft Shaft.cleared)
        else (e.setShaft shaft Shaft.cleared).setBayBank (bankKey shaft level bank) .precharging
      | 0x4 => ((e.setShaft shaft Shaft.cleared).setBayBank (bankKey shaft level bank) .refreshing).charge shaft 3 0
      | 0x5 => (e.setShaft shaft Shaft.cleared).charge shaft 3 0
      | _ => e.setShaft shaft Shaft.cleared := rfl
  rw [hnotes]
  split
  · exact ⟨_, hcharge e.bayBanks _ _⟩
  · exact ⟨_, hcharge e.bayBanks _ _⟩
  · split
    · have hfold : ∃ m, (List.range 16).foldl (fun d i =>
          let ki := bankKey shaft level i
          if d.bayBank ki = .opened then d.setBayBank ki .precharging else d) (e.setShaft shaft Shaft.cleared) =
          { e.setShaft shaft Shaft.cleared with bayBanks := m } := by
        refine List.foldlRecOn (List.range 16) _ (motive := fun e' : Dev => ∃ m, e' = { e.setShaft shaft Shaft.cleared with bayBanks := m })
          ⟨_, rfl⟩ ?_
        rintro _ ⟨m, rfl⟩ i -
        dsimp only
        split
        · exact ⟨_, rfl⟩
        · exact ⟨_, rfl⟩
      obtain ⟨m, hm⟩ := hfold
      exact ⟨m, e.spent, hm⟩
    · exact ⟨_, e.spent, rfl⟩
  · exact ⟨_, hcharge _ _ _⟩
  · exact ⟨_, hcharge e.bayBanks _ _⟩
  · exact ⟨e.bayBanks, e.spent, rfl⟩

/-- An accepted command of the general form leaves what the port's execution left. -/
theorem Dev.general_samePort {op operand : Nat} {x : CmdExtra} (hoff : e.countersOff = true) (hdriven : d.shaftDriven shaft = true)
    (hpowered : d.portPowered shaft level = true) (hlevel : level < 17) (hbank : bank < 16) (hop : op < 16) (hoperand : operand < 512)
    (hcause : d.portCause shaft level (generalFields level bank op operand) = 0)
    (hexecute : d.portExecute shaft level (generalFields level bank op operand) x = e) :
    e.SamePort (d.general shaft level bank op operand { down := 0, up := 0 } x) (shelfKey shaft level) := by
  obtain ⟨m, p, hnotes⟩ := Dev.bayAccepted_footprint (shaft := shaft) (level := level) (bank := bank) hoff op operand x
  rw [Dev.general_of_accepts shaft x hdriven hpowered hlevel hbank hop hoperand hcause, hexecute, hnotes]
  refine ⟨by rw [Dev.deliverReport_fields]; rfl, by rw [Dev.deliverReport_banks]; rfl, by rw [Dev.deliverReport_claims]; rfl,
    by rw [Dev.deliverReport_owed]; rfl, by rw [Dev.deliverReport_refreshCtr]; rfl, ?_⟩
  obtain ⟨g, hshelf⟩ := ({ e.setShaft shaft Shaft.cleared with bayBanks := m, spent := p } : Dev).shelf_deliverReport_same
    (level := level) shaft
  rw [hshelf]
  rfl

section SamePort

variable {t : Dev} {sh : Nat} (h : e.SamePort t sh)
include h

theorem Dev.SamePort.bank_eq (k : Nat) : t.bank k = e.bank k := by rw [Dev.bank, h.banks, Dev.bank]
theorem Dev.SamePort.claimAt_eq (k : Nat) : t.claimAt k = e.claimAt k := by rw [Dev.claimAt, h.claims, Dev.claimAt]
theorem Dev.SamePort.owedOf_eq (k : Nat) : t.owedOf k = e.owedOf k := by rw [Dev.owedOf, h.owed, Dev.owedOf]

theorem Dev.SamePort.keeps (hd : e.fields = d.fields) (l : List Field) : d.Keeps l t := Dev.keeps_of_fields (h.fields.trans hd)

end SamePort

/-! ## Acceptance (Tables 4.7, 4.10) -/

section Causes

variable (hst : (d.shelf (shelfKey shaft level)).st = .ready)
include hst

theorem Dev.portCause_pre (hopen : (d.bank (bankKey shaft level bank)).st = .opened) :
    d.portCause shaft level (generalFields level bank 0x3 0) = 0 := by
  simp [Dev.portCause, generalFields, badOperand, hst, hopen]

theorem Dev.portCause_preAll : d.portCause shaft level (generalFields level bank 0x3 1) = 0 := by
  simp [Dev.portCause, generalFields, badOperand, hst]

theorem Dev.portCause_ref (hidle : (d.bank (bankKey shaft level bank)).st = .idle) :
    d.portCause shaft level (generalFields level bank 0x4 0) = 0 := by
  simp [Dev.portCause, generalFields, badOperand, hst, hidle]

theorem Dev.portCause_tref {claim : Nat} {c : Claim} (hclaim : claim < 32)
    (hopen : d.claimAt (shelfKey shaft level * 32 + claim) = some c) (hidle : (d.bank (bankKey shaft level c.bank)).st = .idle) :
    d.portCause shaft level (generalFields level bank 0x5 claim) = 0 := by
  have hgood : ¬ 32 ≤ claim := Nat.not_le.mpr hclaim
  simp [Dev.portCause, generalFields, badOperand, hst, hopen, hidle, hgood]

theorem Dev.portCause_srefEnter (hidle : ∀ i < 16, (d.bank (bankKey shaft level i)).st = .idle) :
    d.portCause shaft level (generalFields level bank 0x6 1) = 0 := by
  have hall : (List.range 16).all (fun k => (d.bank (bankKey shaft level k)).st = .idle) = true := by
    simpa using hidle
  simp only [Dev.portCause, generalFields, badOperand, hst, Bool.not_false, Bool.true_and, hall]
  rfl

end Causes

theorem Dev.portCause_srefExit (hst : (d.shelf (shelfKey shaft level)).st = .selfRefresh) :
    d.portCause shaft level (generalFields level bank 0x6 0) = 0 := by
  simp [Dev.portCause, generalFields, badOperand, hst]

/-! ## Execution -/

/-- A bank put into an operation. -/
theorem Dev.bank_startBank_same (k : Nat) (st : BankSt) (op : BankOp) : (d.startBank k st op).bank k = { d.bank k with st := st, op := op } :=
  Dev.bank_setBank_same d k _

theorem Dev.bank_startBank_ne {j k : Nat} (h : j ≠ k) (st : BankSt) (op : BankOp) : (d.startBank k st op).bank j = d.bank j :=
  Dev.bank_setBank_ne d h _

@[simp] theorem Dev.startBank_fields (k : Nat) (st : BankSt) (op : BankOp) : (d.startBank k st op).fields = d.fields := rfl
@[simp] theorem Dev.startBank_perf (k : Nat) (st : BankSt) (op : BankOp) : (d.startBank k st op).perf = d.perf := rfl
@[simp] theorem Dev.startBank_owed (k : Nat) (st : BankSt) (op : BankOp) : (d.startBank k st op).owed = d.owed := rfl
@[simp] theorem Dev.startBank_refreshCtr (k : Nat) (st : BankSt) (op : BankOp) : (d.startBank k st op).refreshCtr = d.refreshCtr := rfl

/-- PRE of all banks at the port (R81). -/
def Dev.prechargeAll (d : Dev) (shaft level : Nat) : Dev :=
  (List.range 16).foldl (fun d i =>
    let ki := bankKey shaft level i
    if (d.bank ki).st = .opened then d.startBank ki .precharging .pre else d) d

theorem Dev.prechargeAll_footprint : ∃ m, d.prechargeAll shaft level = { d with banks := m } := by
  refine List.foldlRecOn (List.range 16) _ (motive := fun e : Dev => ∃ m, e = { d with banks := m }) ⟨_, rfl⟩ ?_
  rintro _ ⟨m, rfl⟩ i -
  dsimp only
  split
  · exact ⟨_, rfl⟩
  · exact ⟨_, rfl⟩

/-- PRE of all banks precharges exactly the OPEN banks of its shelf. -/
theorem Dev.bank_prechargeAll (j : Nat) :
    (d.prechargeAll shaft level).bank j =
      if j / 16 = shelfKey shaft level ∧ (d.bank j).st = .opened then { d.bank j with st := .precharging, op := .pre } else d.bank j := by
  have hother : ∀ (d : Dev) i j, j ≠ bankKey shaft level i →
      (if (d.bank (bankKey shaft level i)).st = .opened then d.startBank (bankKey shaft level i) .precharging .pre else d).bank j = d.bank j := by
    intro d i j hj
    split
    · exact Dev.bank_startBank_ne hj _ _
    · rfl
  by_cases hshelf : j / 16 = shelfKey shaft level
  · obtain ⟨i, hi, rfl⟩ := div_eq_shelfKey_iff.mp hshelf
    have hsame := foldl_view_of_mem (view := Dev.bank) (key := bankKey shaft level)
      (upd := fun _ b => if b.st = .opened then { b with st := .precharging, op := .pre } else b) hother
      (fun d i => by
        split
        · exact Dev.bank_startBank_same _ _ _
        · rfl)
      (bankKey_injective shaft level) List.nodup_range d hi
    simp only [hshelf, true_and]
    exact hsame
  · rw [if_neg fun h => hshelf h.1]
    exact foldl_view_of_ne (view := Dev.bank) (key := bankKey shaft level) hother _ d fun i hi heq =>
      hshelf (div_eq_shelfKey_iff.mpr ⟨i, hi, heq.symm⟩)

/-- Four rows refreshed change counts and the refresh counter (R107, R112). -/
theorem Dev.walkRows_footprint : ∃ m, d.walkRows shaft level bank =
    { d with rowCounts := m,
             refreshCtr := SMap.put 0 d.refreshCtr (bankKey shaft level bank)
                             ((SMap.get 0 d.refreshCtr (bankKey shaft level bank) + 4) % 6208) } := by
  have hfold : ∀ r, ∃ m, (List.range 4).foldl
      (fun d i => { d with rowCounts := SMap.put 0 d.rowCounts (rowKey shaft level bank ((r + i) % 6208)) 0 }) d = { d with rowCounts := m } := by
    intro r
    refine List.foldlRecOn (List.range 4) _ (motive := fun e : Dev => ∃ m, e = { d with rowCounts := m }) ⟨_, rfl⟩ ?_
    rintro _ ⟨m, rfl⟩ i -
    exact ⟨_, rfl⟩
  obtain ⟨m, hm⟩ := hfold (SMap.get 0 d.refreshCtr (bankKey shaft level bank))
  rw [Dev.walkRows, hm]
  exact ⟨m, rfl⟩

theorem Dev.walkRows_fields : (d.walkRows shaft level bank).fields = d.fields := by
  obtain ⟨m, h⟩ := Dev.walkRows_footprint (d := d) (shaft := shaft) (level := level) (bank := bank)
  rw [h]

theorem Dev.walkRows_banks : (d.walkRows shaft level bank).banks = d.banks := by
  obtain ⟨m, h⟩ := Dev.walkRows_footprint (d := d) (shaft := shaft) (level := level) (bank := bank)
  rw [h]

theorem Dev.walkRows_owed : (d.walkRows shaft level bank).owed = d.owed := by
  obtain ⟨m, h⟩ := Dev.walkRows_footprint (d := d) (shaft := shaft) (level := level) (bank := bank)
  rw [h]

theorem Dev.walkRows_perf : (d.walkRows shaft level bank).perf = d.perf := by
  obtain ⟨m, h⟩ := Dev.walkRows_footprint (d := d) (shaft := shaft) (level := level) (bank := bank)
  rw [h]

theorem Dev.refreshCtr_walkRows_same : SMap.get 0 (d.walkRows shaft level bank).refreshCtr (bankKey shaft level bank) =
    (SMap.get 0 d.refreshCtr (bankKey shaft level bank) + 4) % 6208 := SMap.get_put_same _ _ _ _

/-- REF at the port (R107, R108). -/
def Dev.refStarted (d : Dev) (shaft level bank : Nat) : Dev :=
  ((d.setOwed (bankKey shaft level bank) (max (-8) (d.owedOf (bankKey shaft level bank) - 1))).walkRows shaft level bank).startBank
    (bankKey shaft level bank) .refreshing .ref

/-- OWED of a bank one lower, not below -8 (R108). -/
def Dev.owedLower (d : Dev) (k : Nat) : Dev := d.setOwed k (max (-8) (d.owedOf k - 1))

@[simp] theorem Dev.owedLower_fields (k : Nat) : (d.owedLower k).fields = d.fields := rfl
@[simp] theorem Dev.owedLower_perf (k : Nat) : (d.owedLower k).perf = d.perf := rfl
@[simp] theorem Dev.owedLower_banks (k : Nat) : (d.owedLower k).banks = d.banks := rfl
@[simp] theorem Dev.owedLower_refreshCtr (k : Nat) : (d.owedLower k).refreshCtr = d.refreshCtr := rfl

theorem Dev.refStarted_eq : d.refStarted shaft level bank =
    ((d.owedLower (bankKey shaft level bank)).walkRows shaft level bank).startBank (bankKey shaft level bank) .refreshing .ref := rfl

theorem Dev.refStarted_perf : (d.refStarted shaft level bank).perf = d.perf := by
  rw [Dev.refStarted_eq, Dev.startBank_perf, Dev.walkRows_perf, Dev.owedLower_perf]

theorem Dev.refStarted_countersOff : (d.refStarted shaft level bank).countersOff = d.countersOff := by
  rw [Dev.countersOff, Dev.refStarted_perf, Dev.countersOff]

theorem Dev.refStarted_fields : (d.refStarted shaft level bank).fields = d.fields := by
  rw [Dev.refStarted_eq, Dev.startBank_fields, Dev.walkRows_fields, Dev.owedLower_fields]

theorem Dev.refreshCtr_refStarted : SMap.get 0 (d.refStarted shaft level bank).refreshCtr (bankKey shaft level bank) =
    (SMap.get 0 d.refreshCtr (bankKey shaft level bank) + 4) % 6208 := by
  rw [Dev.refStarted_eq, Dev.startBank_refreshCtr, Dev.refreshCtr_walkRows_same, Dev.owedLower_refreshCtr]

theorem Dev.bank_refStarted_same : (d.refStarted shaft level bank).bank (bankKey shaft level bank) =
    { d.bank (bankKey shaft level bank) with st := .refreshing, op := .ref } := by
  rw [Dev.refStarted_eq, Dev.bank_startBank_same, Dev.bank, Dev.walkRows_banks, Dev.owedLower_banks, Dev.bank]

theorem Dev.bank_refStarted_ne {j : Nat} (h : j ≠ bankKey shaft level bank) : (d.refStarted shaft level bank).bank j = d.bank j := by
  rw [Dev.refStarted_eq, Dev.bank_startBank_ne h, Dev.bank, Dev.walkRows_banks, Dev.owedLower_banks, Dev.bank]

theorem Dev.owedOf_refStarted :
    (d.refStarted shaft level bank).owedOf (bankKey shaft level bank) = max (-8) (d.owedOf (bankKey shaft level bank) - 1) := by
  rw [Dev.owedOf, Dev.refStarted_eq, Dev.startBank_owed, Dev.walkRows_owed, ← Dev.owedOf, Dev.owedLower, Dev.owedOf_setOwed_same]

/-- TREF at the port of a claim (R114). -/
def Dev.trefStarted (d : Dev) (shaft level claim : Nat) (c : Claim) : Dev :=
  (d.closeClaim (shelfKey shaft level * 32 + claim)).startBank (bankKey shaft level c.bank) .refreshing .tref

theorem Dev.portExecute_tref {claim : Nat} {c : Claim} (h : d.claimAt (shelfKey shaft level * 32 + claim) = some c) (x : CmdExtra) :
    d.portExecute shaft level (generalFields level bank 0x5 claim) x = d.trefStarted shaft level claim c := by
  have hport : d.portExecute shaft level (generalFields level bank 0x5 claim) x =
      match d.claimAt (shelfKey shaft level * 32 + claim) with
      | none => d
      | some cl => (d.closeClaim (shelfKey shaft level * 32 + claim)).startBank (bankKey shaft level cl.bank) .refreshing .tref := rfl
  rw [hport, h]
  rfl

theorem find?_erase_same {α : Type} (k : Nat) (m : SMap α) : (SMap.erase k m).find? (fun kv => kv.1 = k) = none := by
  rw [List.find?_eq_none]
  intro x hx
  induction m with
  | nil => exact absurd hx List.not_mem_nil
  | cons y m ih =>
    rw [SMap.erase] at hx
    split at hx
    · exact ih hx
    · rename_i hne
      rcases List.mem_cons.mp hx with rfl | hx
      · simpa using hne
      · exact ih hx

theorem find?_erase_ne {α : Type} {k n : Nat} (h : n ≠ k) (m : SMap α) :
    (SMap.erase k m).find? (fun kv => kv.1 = n) = m.find? (fun kv => kv.1 = n) := by
  fun_induction SMap.erase k m with
  | case1 => rfl
  | case2 v m ih => rw [ih, List.find?_cons_of_neg (by simpa using Ne.symm h)]
  | case3 k' v m _ ih => rw [List.find?_cons, List.find?_cons, ih]

theorem Dev.claimAt_closeClaim_same (k : Nat) : (d.closeClaim k).claimAt k = none := by
  rw [Dev.claimAt, Dev.closeClaim, find?_erase_same]
  rfl

theorem Dev.claimAt_closeClaim_ne {j k : Nat} (h : j ≠ k) : (d.closeClaim k).claimAt j = d.claimAt j := by
  rw [Dev.claimAt, Dev.closeClaim, find?_erase_ne h, ← Dev.claimAt]

/-- SREF enter at the port (R82, R115). -/
def Dev.srefEntered (d : Dev) (sh : Nat) : Dev :=
  ({ d with claims := d.claims.filter (fun kc => kc.1 / 32 ≠ sh) } : Dev).setShelf sh fun p => { p with st := .selfRefresh }

/-- SREF enter leaves no claim of its shelf. -/
theorem Dev.claimAt_srefEntered (sh j : Nat) : (d.srefEntered sh).claimAt j = if j / 32 = sh then none else d.claimAt j := by
  change ((d.claims.filter (fun kc => kc.1 / 32 ≠ sh)).find? (fun kc => kc.1 = j)).map (·.2) = _
  rw [List.find?_filter]
  split
  case isTrue hj =>
    rw [List.find?_eq_none.mpr, Option.map_none]
    intro x _ hx
    simp only [decide_eq_true_eq] at hx
    exact hx.1 (hx.2 ▸ hj)
  case isFalse hj =>
    rw [Dev.claimAt]
    congr 2
    funext x
    by_cases hx : x.1 = j
    · simp [hx, hj]
    · simp [hx]

/-- OWED of every bank of a shelf set to 0 (R125). -/
def Dev.owedCleared (d : Dev) (shaft level : Nat) : Dev :=
  (List.range 16).foldl (fun d i => d.setOwed (bankKey shaft level i) 0) d

theorem Dev.owedCleared_footprint : ∃ m, d.owedCleared shaft level = { d with owed := m } := by
  refine List.foldlRecOn (List.range 16) _ (motive := fun e : Dev => ∃ m, e = { d with owed := m }) ⟨_, rfl⟩ ?_
  rintro _ ⟨m, rfl⟩ _ -
  exact ⟨_, rfl⟩

theorem Dev.owedOf_owedCleared {i : Nat} (hi : i < 16) : (d.owedCleared shaft level).owedOf (bankKey shaft level i) = 0 :=
  foldl_view_of_mem (view := Dev.owedOf) (key := bankKey shaft level) (upd := fun _ _ => 0) (fun d _ _ hj => Dev.owedOf_setOwed_ne d hj 0)
    (fun d _ => Dev.owedOf_setOwed_same d _ 0) (bankKey_injective shaft level) List.nodup_range d (List.mem_range.mpr hi)

/-- SREF exit at the port (R82, R125). -/
def Dev.srefExited (d : Dev) (shaft level : Nat) : Dev :=
  (d.owedCleared shaft level).setShelf (shelfKey shaft level) fun p => { p with st := .ready, done := 0xFFFF }

/-! ## Ends (R81, R83, R84) -/

/-- A bank after the end of its operation. -/
def Bank.ended (b : Bank) (st : BankSt) : Bank :=
  { b with st := st, op := .none, row := if st = .idle then 0 else b.row, written := if st = .idle then false else b.written }

theorem Dev.bank_bankDone_same (st : BankSt) :
    (d.bankDone shaft level bank st).bank (bankKey shaft level bank) = (d.bank (bankKey shaft level bank)).ended st := by
  rw [Dev.bankDone, Dev.bank_setShelf, Dev.bank_setBank_same]
  rfl

theorem Dev.bank_bankDone_ne {j : Nat} (h : j ≠ bankKey shaft level bank) (st : BankSt) : (d.bankDone shaft level bank st).bank j = d.bank j := by
  rw [Dev.bankDone, Dev.bank_setShelf, Dev.bank_setBank_ne _ h]

theorem Dev.shelf_bankDone (st : BankSt) : (d.bankDone shaft level bank st).shelf (shelfKey shaft level) =
    { d.shelf (shelfKey shaft level) with done := (d.shelf (shelfKey shaft level)).done ||| (1#16 <<< bank) } := by
  rw [Dev.bankDone, Dev.shelf_setShelf_same, Dev.shelf_setBank]

/-- A check of a completion's floor notes and raises; it leaves banks, DONE bits and register fields. -/
theorem Dev.checkFloor_banks (op : BankOp) (floor ns : Nat) : (d.checkFloor shaft level bank op floor ns).banks = d.banks := by
  rw [Dev.checkFloor]
  split <;> rfl

theorem Dev.checkFloor_fields (op : BankOp) (floor ns : Nat) : (d.checkFloor shaft level bank op floor ns).fields = d.fields := by
  rw [Dev.checkFloor]
  split <;> rfl

theorem Dev.done_checkFloor (op : BankOp) (floor ns k : Nat) :
    ((d.checkFloor shaft level bank op floor ns).shelf k).done = (d.shelf k).done := by
  rw [Dev.checkFloor]
  split
  · change (((d.bankFault shaft level bank op.code).shelf k)).done = _
    by_cases hk : k = shelfKey shaft level
    · rw [hk, Dev.bankFault, Dev.shelf_setShelf_same]
    · rw [Dev.bankFault, Dev.shelf_setShelf_ne _ hk]
  · rfl

theorem Dev.raised_checkFloor (op : BankOp) (floor ns : Nat) :
    (d.checkFloor shaft level bank op floor ns).raised.map (·.type) =
      d.raised.map (·.type) ++ (if ns < floor then [FaultType.completionEarly] else []).map FaultType.code := by
  rw [Dev.checkFloor]
  split
  · rw [Dev.raise_raised, List.map_append]
    rfl
  · rw [List.map_nil, List.append_nil]

/-- What the end of a bank's operation leaves: `e` is the device after the checks of the completion. -/
theorem State.ends {s : State} {c : Instr} {st : BankSt} {faults : List FaultType}
    (hexec : exec c s = .next (s.withDev fun _ => e.bankDone shaft level bank st)) (hbanks : e.banks = s.dev.banks)
    (hfields : e.fields = s.dev.fields) (hdone : ∀ k, (e.shelf k).done = (s.dev.shelf k).done)
    (hraised : e.raised.map (·.type) = s.dev.raised.map (·.type) ++ faults.map FaultType.code) :
    ∃ t, exec c s = .next t ∧ s.frame t [] ∧
      t.dev.bank (bankKey shaft level bank) = (s.dev.bank (bankKey shaft level bank)).ended st ∧
      (∀ j, j ≠ bankKey shaft level bank → t.dev.bank j = s.dev.bank j) ∧
      (t.dev.shelf (shelfKey shaft level)).done = (s.dev.shelf (shelfKey shaft level)).done ||| (1#16 <<< bank) ∧
      t.dev.raised.map (·.type) = s.dev.raised.map (·.type) ++ faults.map FaultType.code := by
  have hbank : ∀ k, e.bank k = s.dev.bank k := fun k => by rw [Dev.bank, hbanks, Dev.bank]
  refine ⟨_, hexec, State.frame_of_keeps (Dev.keeps_of_fields hfields), ?_, fun j hj => ?_, ?_, hraised⟩
  · rw [State.withDev_dev, Dev.bank_bankDone_same, hbank]
  · rw [State.withDev_dev, Dev.bank_bankDone_ne hj, hbank]
  · rw [State.withDev_dev, Dev.shelf_bankDone]
    exact congrArg (· ||| (1#16 <<< bank)) (hdone _)

/-! ## The commands -/

/-- A command that changes the device alone, by what it makes of this device. -/
theorem State.next_of_eq {s : State} {f : Dev → Dev} {e : Dev} (h : f s.dev = e) : s.next f = .next (s.withDev fun _ => e) := by
  rw [State.next_eq, State.withDev, State.withDev, h]

section Commands

variable {s : State} {shaft : Fin 64} {level : Fin 17} {bank : Fin 16} {ns : Nat}

theorem busy_iff {st : BankSt} :
    [BankSt.activating, .precharging, .refreshing].contains st = true ↔ st = .activating ∨ st = .precharging ∨ st = .refreshing := by
  cases st <;> decide

theorem exec_activationComplete (h : (s.dev.bank (bankKey shaft level bank)).st = .activating) :
    exec (.activationComplete shaft level bank ns) s = .next (s.withDev fun _ =>
      ((s.dev.checkFloor shaft level bank .act 8 ns).raiseIf (decide (40 < ns)) .actSlow (Src.level level)).bankDone shaft level bank .opened) :=
  State.next_of_eq (if_pos h)

theorem exec_prechargeComplete (h : (s.dev.bank (bankKey shaft level bank)).st = .precharging) :
    exec (.prechargeComplete shaft level bank ns) s = .next (s.withDev fun _ =>
      (s.dev.checkFloor shaft level bank .pre (if (s.dev.bank (bankKey shaft level bank)).written then 6 else 4) ns).bankDone shaft level
        bank .idle) :=
  State.next_of_eq (if_pos h)

theorem exec_refreshComplete (h : (s.dev.bank (bankKey shaft level bank)).st = .refreshing) :
    exec (.refreshComplete shaft level bank ns) s = .next (s.withDev fun _ =>
      (s.dev.checkFloor shaft level bank (s.dev.bank (bankKey shaft level bank)).op
        (if (s.dev.bank (bankKey shaft level bank)).op = .tref then 12 else 24) ns).bankDone shaft level bank .idle) :=
  State.next_of_eq (if_pos h)

theorem exec_completionForced (h : [BankSt.activating, .precharging, .refreshing].contains (s.dev.bank (bankKey shaft level bank)).st = true) :
    exec (.completionForced shaft level bank) s =
      .next (s.withDev fun _ => (s.dev.bankFault shaft level bank 5).bankDone shaft level bank .idle) :=
  State.next_of_eq (if_pos (busy_iff.mp h))

theorem exec_completionLate : exec (.completionLate shaft level bank) s = .next (s.withDev fun d =>
    d.raiseIf ([BankSt.activating, .precharging, .refreshing].contains (s.dev.bayBank (bankKey shaft level bank))) .completionLate
      (Src.bay shaft)) := by
  have hcond : [BankSt.activating, .precharging, .refreshing].contains (s.dev.bayBank (bankKey shaft level bank)) =
      (s.dev.bayBank (bankKey shaft level bank) = .activating || s.dev.bayBank (bankKey shaft level bank) = .precharging ||
        s.dev.bayBank (bankKey shaft level bank) = .refreshing) := by
    cases s.dev.bayBank (bankKey shaft level bank) <;> rfl
  rw [hcond]
  rfl

end Commands

/-- An accepted command that starts an operation changes no register field, and leaves what the port's execution left. -/
theorem State.starts {s : State} {c : Instr} {op operand : Nat} (hlevel : level < 17) (hbank : bank < 16) (hop : op < 16)
    (hoperand : operand < 512) (hdriven : s.dev.shaftDriven shaft = true) (hpowered : s.dev.portPowered shaft level = true)
    (hcause : s.dev.portCause shaft level (generalFields level bank op operand) = 0)
    (hexec : exec c s = .next (s.withDev fun d => d.general shaft level bank op operand { down := 0, up := 0 }))
    (hexecute : s.dev.portExecute shaft level (generalFields level bank op operand) {} = e) (hoff : e.countersOff = true)
    (hfields : e.fields = s.dev.fields) :
    ∃ t, exec c s = .next t ∧ s.frame t [] ∧ e.SamePort t.dev (shelfKey shaft level) :=
  have hport := Dev.general_samePort hoff hdriven hpowered hlevel hbank hop hoperand hcause hexecute
  ⟨_, hexec, State.frame_of_keeps (hport.keeps hfields _), hport⟩

/-- Settles O11: the starts are accepted and leave what the port did; the ends check their floors and leave the bank's end. -/
theorem bankOperationsStartAndEnd : Obligations.BankOperationsStartAndEnd := by
  unfold Obligations.BankOperationsStartAndEnd
  refine ⟨?startsAll, ?ends⟩
  case startsAll =>
    intro s shaft level hoff sh key
    refine ⟨fun hready => ?starts, fun hdriven hpowered hst => ?srefExit⟩
    case starts =>
      obtain ⟨hdriven, hpowered, hst⟩ := Dev.portReady_iff.mp hready
      refine ⟨fun bank hopen => ?pre, fun bank => ?preAll, fun bank hidle => ?ref, fun claim c hclaim hbank hidle => ?tref, fun hidle => ?sref⟩
      case pre =>
        obtain ⟨t, hexec, hframe, hport⟩ := State.starts (c := .pre shaft level bank false _)
            (e := s.dev.startBank (bankKey shaft level bank) .precharging .pre) level.isLt bank.isLt
          (by decide) (by decide) hdriven hpowered (Dev.portCause_pre hst hopen) rfl rfl hoff rfl
        refine ⟨t, hexec, hframe, ?_, fun j hj => ?_⟩
        · rw [hport.bank_eq, Dev.bank_startBank_same]
        · rw [hport.bank_eq, Dev.bank_startBank_ne hj]
      case preAll =>
        obtain ⟨m, hm⟩ := Dev.prechargeAll_footprint (d := s.dev) (shaft := shaft) (level := level)
        obtain ⟨t, hexec, hframe, hport⟩ := State.starts (e := s.dev.prechargeAll shaft level) (bank := 0) (c := .pre shaft level bank true _)
          level.isLt (by decide) (by decide) (by decide) hdriven hpowered (Dev.portCause_preAll hst) rfl rfl (by rw [hm]; exact hoff)
          (by rw [hm])
        exact ⟨t, hexec, hframe, fun j => by rw [hport.bank_eq, Dev.bank_prechargeAll]⟩
      case ref =>
        obtain ⟨t, hexec, hframe, hport⟩ := State.starts (c := .ref shaft level bank _) (e := s.dev.refStarted shaft level bank) level.isLt
          bank.isLt (by decide) (by decide) hdriven hpowered (Dev.portCause_ref hst hidle) rfl rfl (Dev.refStarted_countersOff.trans hoff)
          Dev.refStarted_fields
        refine ⟨t, hexec, hframe, ?_, fun j hj => ?_, ?_, ?_⟩
        · rw [hport.bank_eq, Dev.bank_refStarted_same]
        · rw [hport.bank_eq, Dev.bank_refStarted_ne hj]
        · rw [hport.owedOf_eq, Dev.owedOf_refStarted]
        · rw [hport.refreshCtr, Dev.refreshCtr_refStarted]
      case tref =>
        have hword : (BitVec.ofNat 9 claim.val).toNat = claim.val := by
          rw [BitVec.toNat_ofNat]
          exact Nat.mod_eq_of_lt (Nat.lt_trans claim.isLt (by decide))
        have hsend : exec (.tref shaft level (BitVec.ofNat 9 claim.val) { down := 0, up := 0 }) s =
            .next (s.withDev fun d => d.general shaft level c.bank 0x5 claim.val { down := 0, up := 0 }) := by
          refine congrArg (fun e : Dev => Host.Outcome.next { s with dev := e }) ?_
          dsimp only
          rw [hword, hclaim]
        obtain ⟨t, hexec, hframe, hport⟩ := State.starts level.isLt hbank (by decide) (Nat.lt_trans claim.isLt (by decide)) hdriven hpowered
          (Dev.portCause_tref hst claim.isLt hclaim hidle) hsend (Dev.portExecute_tref hclaim {}) hoff rfl
        refine ⟨t, hexec, hframe, ?_, fun j hj => ?_, ?_, fun j hj => ?_⟩
        · rw [hport.claimAt_eq]
          exact Dev.claimAt_closeClaim_same _
        · rw [hport.claimAt_eq]
          exact Dev.claimAt_closeClaim_ne hj
        · rw [hport.bank_eq]
          exact Dev.bank_startBank_same _ _ _
        · rw [hport.bank_eq]
          exact Dev.bank_startBank_ne hj _ _
      case sref =>
        obtain ⟨t, hexec, hframe, hport⟩ := State.starts (c := .srefEnter shaft level _) (e := s.dev.srefEntered sh) level.isLt (bank := 0) (by decide) (by decide) (by decide)
          hdriven hpowered (Dev.portCause_srefEnter hst hidle) rfl rfl hoff rfl
        refine ⟨t, hexec, hframe, ?_, fun j => ?_, hport.banks⟩
        · rw [hport.st, Dev.srefEntered, Dev.shelf_setShelf_same]
        · rw [hport.claimAt_eq, Dev.claimAt_srefEntered]
    case srefExit =>
      obtain ⟨m, hm⟩ := Dev.owedCleared_footprint (d := s.dev) (shaft := shaft) (level := level)
      have hsame : ∀ (f : Shelf → Shelf), ((s.dev.owedCleared shaft level).setShelf sh f).fields = s.dev.fields ∧
          ((s.dev.owedCleared shaft level).setShelf sh f).banks = s.dev.banks ∧
          ((s.dev.owedCleared shaft level).setShelf sh f).countersOff = s.dev.countersOff := fun f => by
        rw [hm]
        exact ⟨rfl, rfl, rfl⟩
      obtain ⟨hfields, hbanks, hcounters⟩ := hsame fun p => { p with st := .ready, done := 0xFFFF }
      obtain ⟨t, hexec, hframe, hport⟩ := State.starts (c := .srefExit shaft level _) (e := s.dev.srefExited shaft level) level.isLt (bank := 0) (by decide) (by decide)
        (by decide) hdriven hpowered (Dev.portCause_srefExit hst) rfl rfl (hcounters.trans hoff) hfields
      refine ⟨t, hexec, hframe, ?_, fun i hi => ?_, hport.banks.trans hbanks⟩
      · rw [hport.st, Dev.srefExited, Dev.shelf_setShelf_same]
      · rw [hport.owedOf_eq, Dev.srefExited, Dev.owedOf_setShelf, Dev.owedOf_owedCleared hi]
  case ends =>
    intro s shaft level bank ns sh k idle ends
    refine ⟨fun hst => ?activation, fun hst => ?precharge, fun hst => ?refresh, fun hst => ⟨?forced, ?faultSet⟩, fun hst => ?late, fun hst => ?onTime⟩
    case activation =>
      refine State.ends (exec_activationComplete hst) ?_ ?_ (fun j => ?_) ?_
      · rw [Dev.raiseIf]
        split <;> exact Dev.checkFloor_banks _ _ _
      · rw [Dev.raiseIf]
        split <;> exact Dev.checkFloor_fields _ _ _
      · rw [Dev.raiseIf]
        split <;> exact Dev.done_checkFloor _ _ _ _
      · rw [List.map_append, ← List.append_assoc, ← Dev.raised_checkFloor (shaft := shaft) (level := level) (bank := bank) .act 8 ns, Dev.raiseIf]
        by_cases hslow : 40 < ns
        · rw [if_pos (decide_eq_true hslow), if_pos hslow, Dev.raise_raised, List.map_append]
          rfl
        · rw [if_neg (by simpa using hslow), if_neg hslow, List.map_nil, List.append_nil]
    case precharge =>
      exact State.ends (exec_prechargeComplete hst) (Dev.checkFloor_banks _ _ _) (Dev.checkFloor_fields _ _ _) (Dev.done_checkFloor _ _ _)
        (Dev.raised_checkFloor _ _ _)
    case refresh =>
      exact State.ends (exec_refreshComplete hst) (Dev.checkFloor_banks _ _ _) (Dev.checkFloor_fields _ _ _) (Dev.done_checkFloor _ _ _)
        (Dev.raised_checkFloor _ _ _)
    case forced =>
      refine State.ends (faults := []) (exec_completionForced hst) rfl rfl (fun j => ?_) (List.append_nil _).symm
      rw [Dev.bankFault]
      by_cases hj : j = sh
      · rw [hj, Dev.shelf_setShelf_same]
      · rw [Dev.shelf_setShelf_ne _ hj]
    case faultSet =>
      refine ⟨_, exec_completionForced hst, ?_, ?_⟩
      · rw [State.withDev_dev, Dev.shelf_bankDone, Dev.bankFault, Dev.shelf_setShelf_same]
      · rw [State.withDev_dev, Dev.shelf_bankDone, Dev.bankFault, Dev.shelf_setShelf_same]
    case late =>
      rw [exec_completionLate, hst]
      rfl
    case onTime =>
      rw [exec_completionLate, hst]
      rfl

end Sys2Proof.Machine
end

section
/-!
Reports and ALERTs (R76, R79, R80, R85, R86, R88, R94). A command that carries nothing but its report changes no bank, and the report is
delivered; a poll of the levels delivers to each powered one in turn, and what it does to one leaves the others. An ALERTed command
executes nothing: the port keeps its cause, and the bay counts and notes it.
-/

namespace Sys2Proof.Machine

open Sys2Proof

variable {d e t u : Dev} {shaft level : Nat}

/-! ## The report of a shelf delivered -/

/-- The report of a shelf has been delivered, and register fields and banks stand as they were. -/
structure Dev.Delivered (d t : Dev) (shaft level : Nat) : Prop where
  fields : t.fields = d.fields
  banks : t.banks = d.banks
  done : (t.shelf (shelfKey shaft level)).done = 0
  fault : (t.shelf (shelfKey shaft level)).fault = false
  baySt : (t.shelf (shelfKey shaft level)).baySt = (d.shelf (shelfKey shaft level)).st
  bayBank : ∀ i < 16, t.bayBank (bankKey shaft level i) =
    if (d.shelf (shelfKey shaft level)).done.getLsbD i then (d.bayBank (bankKey shaft level i)).afterDone
    else d.bayBank (bankKey shaft level i)

/-- Register fields, banks, and everything of one shelf stand as they were. -/
structure Dev.SameShelf (d e : Dev) (shaft level : Nat) : Prop where
  fields : e.fields = d.fields
  banks : e.banks = d.banks
  shelf : e.shelf (shelfKey shaft level) = d.shelf (shelfKey shaft level)
  bayBank : ∀ i < 16, e.bayBank (bankKey shaft level i) = d.bayBank (bankKey shaft level i)

theorem Dev.SameShelf.refl (d : Dev) (shaft level : Nat) : d.SameShelf d shaft level := ⟨rfl, rfl, rfl, fun _ _ => rfl⟩

theorem Dev.SameShelf.trans (h : d.SameShelf e shaft level) (h' : e.SameShelf u shaft level) : d.SameShelf u shaft level :=
  ⟨h'.fields.trans h.fields, h'.banks.trans h.banks, h'.shelf.trans h.shelf, fun i hi => (h'.bayBank i hi).trans (h.bayBank i hi)⟩

theorem Dev.SameShelf.of_delivered (h : d.SameShelf e shaft level) (h' : e.Delivered t shaft level) : d.Delivered t shaft level := by
  refine ⟨h'.fields.trans h.fields, h'.banks.trans h.banks, h'.done, h'.fault, ?_, fun i hi => ?_⟩
  · rw [h'.baySt, h.shelf]
  · rw [h'.bayBank i hi, h.shelf, h.bayBank i hi]

theorem Dev.Delivered.same (h : d.Delivered t shaft level) (h' : t.SameShelf u shaft level) : d.Delivered u shaft level := by
  refine ⟨h'.fields.trans h.fields, h'.banks.trans h.banks, ?_, ?_, ?_, fun i hi => (h'.bayBank i hi).trans (h.bayBank i hi)⟩
  · rw [h'.shelf, h.done]
  · rw [h'.shelf, h.fault]
  · rw [h'.shelf, h.baySt]

/-- The report of a shelf delivered to its own bay. -/
theorem Dev.delivered_deliverReport (d : Dev) (shaft level : Nat) : d.Delivered (d.deliverReport shaft level 0) shaft level := by
  obtain ⟨g, hshelf⟩ := d.shelf_deliverReport_same (level := level) shaft
  refine ⟨d.deliverReport_fields shaft, d.deliverReport_banks shaft, ?_, ?_, ?_, fun i hi => d.bayBank_deliverReport shaft hi⟩
  · rw [hshelf]
    rfl
  · rw [hshelf]
    rfl
  · rw [hshelf]

/-- The report of another shelf of the shaft leaves a shelf alone. -/
theorem Dev.sameShelf_deliverReport (d : Dev) (shaft : Nat) {l level : Nat} (h : l ≠ level) :
    d.SameShelf (d.deliverReport shaft l 0) shaft level :=
  ⟨d.deliverReport_fields shaft, d.deliverReport_banks shaft, d.shelf_deliverReport_of_ne shaft (shelfKey_ne h.symm), fun _ hi =>
    d.bayBank_deliverReport_of_ne shaft fun _ hj => bankKey_ne_of_shelf (shelfKey_ne h.symm) hi hj⟩

theorem Dev.sameShelf_setShaft (d : Dev) (shaft level n : Nat) (f : Shaft → Shaft) : d.SameShelf (d.setShaft n f) shaft level :=
  ⟨rfl, rfl, rfl, fun _ _ => rfl⟩

/-! ## Commands that carry nothing but a report -/

/-- A command that asks nothing of a bank: its report is delivered after what the port did. -/
theorem Dev.general_report {op operand : Nat} (hdriven : d.shaftDriven shaft = true) (hpowered : d.portPowered shaft level = true)
    (hlevel : level < 17) (hop : op = 0 ∨ 6 ≤ op) (hop16 : op < 16) (hoperand : operand < 512)
    (hcause : d.portCause shaft level (generalFields level 0 op operand) = 0)
    (hexecute : d.portExecute shaft level (generalFields level 0 op operand) {} = e) :
    d.general shaft level 0 op operand { down := 0, up := 0 } = (e.setShaft shaft Shaft.cleared).deliverReport shaft level 0 := by
  rw [Dev.general_of_accepts shaft {} hdriven hpowered hlevel (by decide) hop16 hoperand hcause, hexecute, Dev.bayAccepted_noBank hop]

theorem Dev.order_reported (e : Dev) (shaft level : Nat) :
    (((e.setShaft shaft Shaft.cleared).deliverReport shaft level 0).shaft shaft).order = (e.shaft shaft).order := by
  rw [Dev.shaft_deliverReport, Dev.shaft_setShaft_same]
  rfl

/-- What such a command leaves, where the port changed nothing of the shelf. -/
theorem Dev.delivered_report (h : d.SameShelf e shaft level) :
    d.Delivered ((e.setShaft shaft Shaft.cleared).deliverReport shaft level 0) shaft level :=
  (h.trans (e.sameShelf_setShaft shaft level shaft _)).of_delivered (Dev.delivered_deliverReport _ _ _)

/-! ## PING and the polls (R80, R85) -/

/-- A shelf accepts PING in every state. -/
theorem Dev.portCause_ping : d.portCause shaft level (generalFields level 0 0x0 0) = 0 := by
  rw [Dev.portCause]
  cases (d.shelf (shelfKey shaft level)).st <;> rfl

/-- PING of a level. -/
def Dev.ping (d : Dev) (shaft level : Nat) : Dev := d.general shaft level 0 0x0 0 { down := 0, up := 0 }

theorem Dev.ping_of_powered (hdriven : d.shaftDriven shaft = true) (hpowered : d.portPowered shaft level = true) (hlevel : level < 17) :
    d.ping shaft level = (d.setShaft shaft Shaft.cleared).deliverReport shaft level 0 :=
  Dev.general_report hdriven hpowered hlevel (.inl rfl) (by decide) (by decide) Dev.portCause_ping rfl

/-- A level whose port is not powered does not answer. -/
theorem Dev.ping_of_unpowered (hpowered : d.portPowered shaft level = false) (hlevel : level < 17) : d.ping shaft level = d := by
  have hfields : (cmdFields (cmdWord level 0 0x0 0)).level = level := by
    rw [cmdFields_cmdWord_eq (Nat.lt_trans hlevel (by decide)) (by decide) (by decide) (by decide)]
    rfl
  have hparity : oddParity (cmdWord level 0 0x0 0) = false := oddParity_withParity _
  have hzero : cmdWord level 0 0x0 0 ^^^ (0 : BitVec 24) = cmdWord level 0 0x0 0 := BitVec.xor_zero
  have hsilent : 17 ≤ level ∨ ¬ d.portPowered shaft level = true := .inr (by rw [hpowered]; decide)
  rw [Dev.ping, Dev.general, Dev.handshake]
  dsimp only
  rw [hzero, hparity, hfields, if_neg Bool.false_ne_true, if_pos hsilent, ite_self]

/-- PING of another level leaves a shelf alone. -/
theorem Dev.sameShelf_ping {l : Nat} (hdriven : d.shaftDriven shaft = true) (hl : l < 17) (hne : l ≠ level) :
    d.SameShelf (d.ping shaft l) shaft level := by
  cases hpowered : d.portPowered shaft l with
  | false =>
    rw [Dev.ping_of_unpowered hpowered hl]
    exact Dev.SameShelf.refl d shaft level
  | true =>
    rw [Dev.ping_of_powered hdriven hpowered hl]
    exact (d.sameShelf_setShaft shaft level shaft _).trans (Dev.sameShelf_deliverReport _ shaft hne)

theorem Dev.shaftDriven_congr (h : e.fields = d.fields) (shaft : Nat) : e.shaftDriven shaft = d.shaftDriven shaft := by
  rw [Dev.shaftDriven, Dev.rd_congr h, Dev.shaftDriven]

theorem Dev.portPowered_congr (h : e.fields = d.fields) (shaft level : Nat) : e.portPowered shaft level = d.portPowered shaft level := by
  simp only [Dev.portPowered, Dev.domainOn, Dev.flag_eq, Dev.rd_congr h]

/-- PINGs of other levels in turn leave a shelf alone. -/
theorem Dev.sameShelf_foldl_ping (ls : List Nat) (hls : ∀ l ∈ ls, l < 17 ∧ l ≠ level) (hdriven : d.shaftDriven shaft = true) :
    d.SameShelf (ls.foldl (fun d l => d.ping shaft l) d) shaft level :=
  List.foldlRecOn ls _ (motive := fun e : Dev => d.SameShelf e shaft level) (Dev.SameShelf.refl d shaft level) fun _ he l hl =>
    he.trans (Dev.sameShelf_ping ((Dev.shaftDriven_congr he.fields shaft).trans hdriven) (hls l hl).1 (hls l hl).2)

/-- A poll of all levels delivers the report of each that is powered. -/
theorem Dev.delivered_foldl_ping (hdriven : d.shaftDriven shaft = true) (hpowered : d.portPowered shaft level = true) (hlevel : level < 17) :
    d.Delivered ((List.range 17).foldl (fun d l => d.ping shaft l) d) shaft level := by
  obtain ⟨ls, ls', hsplit⟩ := List.append_of_mem (List.mem_range.mpr hlevel)
  have hnodup : (ls ++ level :: ls').Nodup := hsplit ▸ List.nodup_range
  have hlt : ∀ l ∈ ls ++ level :: ls', l < 17 := fun l hl => List.mem_range.mp (hsplit ▸ hl)
  obtain ⟨-, hnodup', hapart⟩ := List.nodup_append.mp hnodup
  have hbefore := Dev.sameShelf_foldl_ping (d := d) ls (fun l hl =>
    ⟨hlt l (List.mem_append_left _ hl), hapart l hl level List.mem_cons_self⟩) hdriven
  have hdriven' := (Dev.shaftDriven_congr hbefore.fields shaft).trans hdriven
  have hping := Dev.ping_of_powered hdriven' ((Dev.portPowered_congr hbefore.fields shaft level).trans hpowered) hlevel
  have hdelivered := hbefore.of_delivered (hping ▸ Dev.delivered_report (Dev.SameShelf.refl _ shaft level))
  have hafter := Dev.sameShelf_foldl_ping ls' (fun l hl =>
    ⟨hlt l (List.mem_append_right _ (List.mem_cons_of_mem _ hl)), fun heq => (List.nodup_cons.mp hnodup').1 (heq.subst (motive := (· ∈ ls')) hl)⟩)
    ((Dev.shaftDriven_congr hdelivered.fields shaft).trans hdriven)
  rw [hsplit, List.foldl_append, List.foldl_cons]
  exact hdelivered.same hafter

/-! ## ALERTs (R88, Table 4.10) -/

/-- What an ALERT leaves: the port keeps its cause, the bay counts it, and nothing was executed. -/
structure Dev.Alerted (d t : Dev) (shaft level cause : Nat) : Prop where
  fields : t.fields = (d.bump (F.SHAFT_ALERTS_ALERTS shaft)).fields
  cause : (t.shelf (shelfKey shaft level)).alertCause = cause
  banks : t.banks = d.banks
  claims : t.claims = d.claims
  owed : t.owed = d.owed
  order : (t.shaft shaft).order = (d.shaft shaft).order

section Alerted

variable {cause : Nat} (h : d.Alerted t shaft level cause)
include h

theorem Dev.Alerted.setShaft {f : Shaft → Shaft} (hf : ∀ x, (f x).order = x.order) : d.Alerted (t.setShaft shaft f) shaft level cause :=
  ⟨h.fields, h.cause, h.banks, h.claims, h.owed, by rw [Dev.shaft_setShaft_same, hf, h.order]⟩

theorem Dev.Alerted.setShelf {f : Shelf → Shelf} (hf : ∀ x, (f x).alertCause = x.alertCause) :
    d.Alerted (t.setShelf (shelfKey shaft level) f) shaft level cause :=
  ⟨h.fields, by rw [Dev.shelf_setShelf_same, hf, h.cause], h.banks, h.claims, h.owed, h.order⟩

theorem Dev.Alerted.raise (ty : FaultType) (src : Nat) (l : List (Nat × Nat)) : d.Alerted (t.raise ty src l) shaft level cause :=
  ⟨h.fields, h.cause, h.banks, h.claims, h.owed, h.order⟩

theorem Dev.Alerted.rebuildBay : d.Alerted (t.rebuildBay shaft level) shaft level cause := by
  have hfold : ∃ m, t.rebuildBay shaft level = { t with bayBanks := m } := by
    refine List.foldlRecOn (List.range 16) _ (motive := fun e : Dev => ∃ m, e = { t with bayBanks := m }) ⟨_, rfl⟩ ?_
    rintro _ ⟨m, rfl⟩ _ -
    exact ⟨_, rfl⟩
  obtain ⟨m, hm⟩ := hfold
  rw [hm]
  exact ⟨h.fields, h.cause, h.banks, h.claims, h.owed, h.order⟩

end Alerted

/-- The port notes the cause, and the bay counts the ALERT. -/
theorem Dev.alerted_count (d : Dev) (shaft level cause : Nat) :
    d.Alerted ((d.setShelf (shelfKey shaft level) fun p => { p with alertCause := cause }).bump (F.SHAFT_ALERTS_ALERTS shaft)) shaft level
      cause := by
  refine ⟨rfl, ?_, rfl, rfl, rfl, rfl⟩
  change (((d.setShelf (shelfKey shaft level) fun p => { p with alertCause := cause }).shelf (shelfKey shaft level))).alertCause = cause
  rw [Dev.shelf_setShelf_same]

theorem alertCause_cases {cause : Nat} (h : [2, 3, 5, 6].contains cause = true) : cause = 2 ∨ cause = 3 ∨ cause = 5 ∨ cause = 6 := by
  simpa using h

/-- An ALERT whose cause no counter of the level counts: the first is noted, and the second is acted on (R88). -/
theorem Dev.alerted_bayAlerted {cause : Nat} (hcause : [2, 3, 5, 6].contains cause = true) (w : BitVec 24) :
    d.Alerted ((d.portAlert shaft level cause).bayAlerted shaft level w cause) shaft level cause := by
  have hcount := d.alerted_count shaft level cause
  have hne : cause ≠ 1 := by rintro rfl; exact absurd hcause (by decide)
  have hport : d.portAlert shaft level cause = d.setShelf (shelfKey shaft level) fun p => { p with alertCause := cause } := by
    rcases alertCause_cases hcause with rfl | rfl | rfl | rfl <;> rfl
  rw [hport, Dev.bayAlerted, if_neg hne]
  split
  · have hnoted := hcount.setShaft (f := fun x => { x with alerted := none }) fun _ => rfl
    rcases alertCause_cases hcause with rfl | rfl | rfl | rfl
    · exact hnoted.raise _ _ _
    · exact (hnoted.raise _ _ _).rebuildBay
    · exact hnoted.setShelf fun _ => rfl
    · exact hnoted.raise _ _ _
  · exact hcount.setShaft fun _ => rfl

/-- An ALERTed command of the general form, on the state. -/
theorem State.alerted {s : State} {c : Instr} {bank op operand cause : Nat} (hlevel : level < 17) (hbank : bank < 16) (hop : op < 16)
    (hoperand : operand < 512) (hdriven : s.dev.shaftDriven shaft = true) (hpowered : s.dev.portPowered shaft level = true)
    (hcause : s.dev.portCause shaft level (cmdFields (cmdWord level bank op operand)) = cause) (hmem : [2, 3, 5, 6].contains cause = true)
    (hexec : exec c s = .next (s.withDev fun d => d.general shaft level bank op operand { down := 0, up := 0 })) :
    ∃ t, exec c s = .next t ∧ s.frame t [F.SHAFT_ALERTS_ALERTS shaft] ∧ (t.dev.shelf (shelfKey shaft level)).alertCause = cause ∧
      t.dev.rd (F.SHAFT_ALERTS_ALERTS shaft) = min (s.dev.rd (F.SHAFT_ALERTS_ALERTS shaft) + 1) (2 ^ 16 - 1) ∧
      t.dev.banks = s.dev.banks ∧ t.dev.claims = s.dev.claims ∧ t.dev.owed = s.dev.owed ∧
      (t.dev.shaft shaft).order = (s.dev.shaft shaft).order := by
  have hne : cause ≠ 0 := by rintro rfl; exact absurd hmem (by decide)
  have halerted := Dev.alerted_bayAlerted (d := s.dev) (shaft := shaft) (level := level) hmem (cmdWord level bank op operand)
  rw [← Dev.general_of_alerts shaft {} hdriven hpowered hlevel hbank hop hoperand hcause hne] at halerted
  refine ⟨_, hexec, State.frame_of_keeps fun g hg => ?_, halerted.cause, ?_, halerted.banks, halerted.claims, halerted.owed, halerted.order⟩
  · rw [Dev.rd_congr halerted.fields, Dev.rd_bump_ne _ (List.ne_of_not_mem_cons hg)]
  · rw [State.withDev_dev, Dev.rd_congr halerted.fields, Dev.rd_bump_same]
    rfl

/-! ## The statement -/

theorem exec_attnPoll (s : State) (shaft : Fin 64) :
    exec (.attnPoll shaft) s = .next (s.withDev fun d => if d.attn shaft then (List.range 17).foldl (fun d l => d.ping shaft l) d else d) := rfl

theorem exec_busyBankPoll (s : State) (shaft : Fin 64) (level : Fin 17) :
    exec (.busyBankPoll shaft level) s = .next (s.withDev fun d =>
      if (List.range 16).any (fun k => [BankSt.activating, .precharging, .refreshing].contains (d.bayBank (bankKey shaft level k))) then
        d.ping shaft level else d) := by
  have hbusy : ∀ st : BankSt, [BankSt.activating, .precharging, .refreshing].contains st =
      (st = .activating || st = .precharging || st = .refreshing) := fun st => by cases st <;> rfl
  simp only [hbusy]
  rfl

/-- Settles O12: what is delivered, and what an ALERT leaves. -/
theorem reportsAndAlertsComeUp : Obligations.ReportsAndAlertsComeUp := by
  unfold Obligations.ReportsAndAlertsComeUp
  refine ⟨?reports, ?alerts⟩
  case reports =>
    intro s shaft level sh delivered
    have of_delivered : ∀ t : State, s.dev.portReady shaft level = true → (∃ d, t = s.withDev fun _ => d) →
        s.dev.Delivered t.dev shaft level → delivered t := by
      rintro _ hready ⟨d, rfl⟩ h
      obtain ⟨-, -, hst⟩ := Dev.portReady_iff.mp hready
      exact ⟨State.frame_of_keeps (Dev.keeps_of_fields h.fields), h.banks, h.done, h.fault, h.baySt.trans hst, h.bayBank⟩
    have hping : s.dev.portReady shaft level = true → s.dev.ping shaft level = (s.dev.setShaft shaft Shaft.cleared).deliverReport shaft level 0 :=
      fun hready =>
        have ⟨hdriven, hpowered, _⟩ := Dev.portReady_iff.mp hready
        Dev.ping_of_powered hdriven hpowered level.isLt
    have hpinged : s.dev.portReady shaft level = true → s.dev.Delivered (s.dev.ping shaft level) shaft level := fun hready =>
      hping hready ▸ Dev.delivered_report (Dev.SameShelf.refl _ _ _)
    refine ⟨fun hready => ?ready, fun hready i hi hbusy => ?busy, fun hfree => ?free, fun hready hattn => ?attn, fun hattn => ?noAttn⟩
    case ready =>
      obtain ⟨hdriven, hpowered, hst⟩ := Dev.portReady_iff.mp hready
      refine ⟨⟨_, rfl, of_delivered _ hready ⟨_, rfl⟩ (hpinged hready), ?_⟩, ?sync, fun dead => ?cal⟩
      · change ((s.dev.ping shaft level).shaft shaft).order = _
        rw [hping hready, Dev.order_reported]
      case sync =>
        have hsync := Dev.general_report hdriven hpowered level.isLt (op := 0xA) (operand := 0) (.inr (by decide)) (by decide) (by decide)
          (Dev.portCause_noBank hst (.inr (by decide)) rfl) rfl
        have hdelivered : s.dev.Delivered (s.dev.general shaft level 0 0xA 0 { down := 0, up := 0 }) shaft level :=
          hsync ▸ Dev.delivered_report (Dev.sameShelf_setShaft _ _ _ _ _)
        refine ⟨_, rfl, of_delivered _ hready ⟨_, rfl⟩ hdelivered, ?_⟩
        change ((s.dev.general shaft level 0 0xA 0 { down := 0, up := 0 }).shaft shaft).order = _
        rw [hsync, Dev.order_reported]
        exact congrArg Shaft.order (Dev.shaft_setShaft_same _ _ _)
      case cal =>
        have hcal := Dev.general_report hdriven hpowered level.isLt (op := 0x9) (operand := 0) (.inr (by decide)) (by decide) (by decide)
          (Dev.portCause_noBank hst (.inr (by decide)) rfl) rfl
        have hdelivered := hcal ▸ Dev.delivered_report (Dev.SameShelf.refl s.dev shaft level)
        have hwanted : (s.dev.general shaft level 0 0x9 0 { down := 0, up := 0 }).viaWanted = s.dev.viaWanted := by
          rw [hcal, Dev.deliverReport_viaWanted]
          rfl
        cases dead with
        | none => exact ⟨_, rfl, of_delivered _ hready ⟨_, rfl⟩ hdelivered, hwanted.trans (List.append_nil _).symm⟩
        | some c =>
          refine ⟨_, rfl, of_delivered _ hready ⟨_, rfl⟩ (hdelivered.same ⟨rfl, rfl, rfl, fun _ _ => rfl⟩), ?_⟩
          exact congrArg (· ++ [(shaft.val, 288 + c.val, level.val)]) hwanted
    case busy =>
      refine ⟨_, exec_busyBankPoll s shaft level, of_delivered _ hready ⟨_, rfl⟩ ?_⟩
      rw [State.withDev_dev, if_pos (List.any_eq_true.mpr ⟨i, List.mem_range.mpr hi, hbusy⟩)]
      exact hpinged hready
    case free =>
      have hnone : (List.range 16).any (fun k =>
          [BankSt.activating, .precharging, .refreshing].contains (s.dev.bayBank (bankKey shaft level k))) = false :=
        List.any_eq_false.mpr fun i hi => by rw [hfree i (List.mem_range.mp hi)]; decide
      rw [exec_busyBankPoll, State.withDev, hnone]
      rfl
    case attn =>
      obtain ⟨hdriven, hpowered, -⟩ := Dev.portReady_iff.mp hready
      refine ⟨_, exec_attnPoll s shaft, of_delivered _ hready ⟨_, rfl⟩ ?_⟩
      rw [State.withDev_dev, if_pos hattn]
      exact Dev.delivered_foldl_ping hdriven hpowered level.isLt
    case noAttn =>
      rw [exec_attnPoll, State.withDev, hattn]
      rfl
  case alerts =>
    intro s shaft level bank cause sh alerts hdriven hpowered
    exact ⟨fun hcause hmem => State.alerted level.isLt bank.isLt (by decide) (by decide) hdriven hpowered hcause hmem rfl,
      fun hcause hmem => State.alerted level.isLt bank.isLt (by decide) (by decide) hdriven hpowered hcause hmem rfl,
      fun hcause hmem => State.alerted level.isLt (by decide) (by decide) (by decide) hdriven hpowered hcause hmem rfl,
      fun hcause hmem => State.alerted level.isLt (by decide) (by decide) (by decide) hdriven hpowered hcause hmem rfl⟩

end Sys2Proof.Machine
end

section
/-!
LINE_TRANSFER where the shaft's order is empty: no line moves, but a fence behind no request is answered, as after every command that may
let a request go on (R350).
-/

namespace Sys2Proof.Machine

open Sys2Proof

/-- A state with an empty transfer order and a fence that waits behind nothing. -/
def readyFence : State := { dev := { fences := [{ link := 0, msg := { op := 0x05 }, serial := 0 }] } }

/-- The fences that wait after a command. -/
def fencesAfter : Host.Outcome State Fault Refusal → Option (List FenceReq)
  | .next t => some t.dev.fences
  | _ => none

theorem fencesAfter_lineTransfer_readyFence : fencesAfter (exec (.lineTransfer 0 0 false) readyFence) = some [] := rfl

/-- Refutes O13: a transfer at an empty order moves nothing, and answers the fence. -/
theorem not_stallsAreReissued : ¬ Obligations.StallsAreReissued := by
  unfold Obligations.StallsAreReissued
  intro h
  obtain ⟨-, -, hempty⟩ := h readyFence 0 0
  obtain ⟨-, -, hsame⟩ := hempty rfl
  have hafter := fencesAfter_lineTransfer_readyFence
  rw [hsame 0 false] at hafter
  exact absurd (Option.some.inj hafter) (List.cons_ne_nil _ _)

end Sys2Proof.Machine
end

section
/-!
LINE_TRANSFER where a request waits for the shaft at a card that does not permit it: the transfer lets the request go on, and its
translation fault is kept in PATRON_STATUS (R188).
-/

namespace Sys2Proof.Machine

open Sys2Proof

/-- A read of patron 0 that waits for shaft 0 with a BLANK card without the right to read. -/
def deniedRead : Held :=
  { req := { serial := 0, link := 0, msg := { op := 0x01 }, env := { wire := 0, room := .none, vault := false, late := false } },
    why := .shaft 0, card := some (0x2#64, 0, 4) }

/-- A read at the head of shaft 0's order, served from the merge buffer, while `deniedRead` waits for the shaft. -/
def deniedBehindTransfer : State :=
  { dev := {
      shafts := [(0, { order := [{ level := 0, bank := 0, row := 0, line := 0, kind := .read }] })],
      merge := [(0, [{ loc := 0, dpaLine := 0, data := 0, mask := fullMask }])],
      held := [deniedRead] } }

/-- LAST_TF of patron 0 after a command. -/
def lastFaultAfter : Host.Outcome State Fault Refusal → Option Nat
  | .next t => some (t.dev.rd (F.PATRON_STATUS_LAST_TF 0))
  | _ => none

theorem lastFaultAfter_lineTransfer_deniedBehindTransfer :
    lastFaultAfter (exec (.lineTransfer 0 0 false) deniedBehindTransfer) = some 4 := rfl

theorem mergeNewest_deniedBehindTransfer :
    deniedBehindTransfer.dev.mergeNewest (deniedBehindTransfer.dev.drivingBay 0)
      (deniedBehindTransfer.dev.xferLoc 0 { level := 0, bank := 0, row := 0, line := 0, kind := .read }) =
      some { loc := 0, dpaLine := 0, data := 0, mask := fullMask } := rfl

/-- Refutes O14: the request let go after the transfer changes PATRON_STATUS_LAST_TF. -/
theorem not_lineTransferMovesTheLine : ¬ Obligations.LineTransferMovesTheLine := by
  unfold Obligations.LineTransferMovesTheLine
  intro h
  obtain ⟨hserved, -⟩ := h deniedBehindTransfer 0 _ [] 0 rfl rfl rfl rfl rfl
  obtain ⟨t, hexec, ⟨-, -, -, -, -, hfields⟩, -⟩ := hserved rfl _ mergeNewest_deniedBehindTransfer
  have hafter := lastFaultAfter_lineTransfer_deniedBehindTransfer
  rw [hexec] at hafter
  have hkept : t.dev.rd (F.PATRON_STATUS_LAST_TF 0) = 0 := hfields _ List.not_mem_nil
  have hfault : t.dev.rd (F.PATRON_STATUS_LAST_TF 0) = 4 := Option.some.inj hafter
  omega

end Sys2Proof.Machine
end

section
/-!
Calibration: what a full pass and a tracking pass make of the delay codes, and what both leave alone (R93 to R96).
-/

namespace Sys2Proof.Machine

open Sys2Proof

/-! ## The codes of a full pass -/

/-- One delay of the shaft set from its smallest passing code. -/
def Dev.calSet (shaft : Nat) (smallest : List Nat) (d : Dev) (i : Nat) : Dev :=
  let c := smallest.getD i 63
  let d := { d with calCodes := SMap.put 63 d.calCodes (calKey shaft i) (calCode c) }
  let it := calItem i
  d.raiseIf (decide (52 ≤ c)) .calMargin (Src.level it.1) [(it.2, 3)]

/-- One delay of the twin path set from its smallest passing code. -/
def Dev.calSetTwin (shaft : Nat) (smallest : List Nat) (d : Dev) (i : Nat) : Dev :=
  { d with calCodes := SMap.put 63 d.calCodes (calKey (64 + shaft) i) (calCode (smallest.getD i 63)) }

/-- The registers that a full pass writes. -/
def calWrites (shaft rate : Nat) : List (Field × Nat) :=
  [(F.SHAFT_STATUS_CALIBRATED shaft, 1), (F.SHAFT_STATUS_CAL_RUNNING shaft, 0), (F.SHAFT_STATUS_BEAT_RATE shaft, min rate 4095),
    (F.SHAFT_CTL_CAL_START shaft, 0), (F.SHAFT_STATUS_BELOW_FLOOR shaft, (decide (rate < 3200)).toNat)]

/-- A code of the device. -/
def Dev.calCodeAt (d : Dev) (k : Nat) : Nat := SMap.get 63 d.calCodes k

/-- The codes of both paths set. -/
def Dev.calSetAll (shaft : Nat) (smallest twin : List Nat) (d : Dev) : Dev :=
  (List.range 53).foldl (Dev.calSetTwin shaft twin) ((List.range 53).foldl (Dev.calSet shaft smallest) d)

section Codes

variable (shaft : Nat) (smallest twin : List Nat)

theorem calKey_injective : Function.Injective (calKey shaft) := fun _ _ h => Nat.add_left_cancel h

theorem Dev.calSet_calCodes (d : Dev) (i : Nat) :
    (d.calSet shaft smallest i).calCodes = SMap.put 63 d.calCodes (calKey shaft i) (calCode (smallest.getD i 63)) := by
  rw [Dev.calSet, Dev.raiseIf, apply_ite Dev.calCodes]
  exact ite_self _

/-- Setting the codes changes no register field, and no counter. -/
theorem Dev.calSetAll_kept {β : Type} (g : Dev → β) (hcodes : ∀ (e : Dev) m, g { e with calCodes := m } = g e)
    (hraised : ∀ (e : Dev) r, g { e with raised := r } = g e) (d : Dev) : g (d.calSetAll shaft smallest twin) = g d := by
  have hset : ∀ (e : Dev) i, g (e.calSet shaft smallest i) = g e := fun e i => by
    rw [Dev.calSet, Dev.raiseIf, apply_ite g]
    exact (ite_congr rfl (fun _ => (hraised _ _).trans (hcodes _ _)) fun _ => hcodes _ _).trans (ite_self _)
  have hfirst : g ((List.range 53).foldl (Dev.calSet shaft smallest) d) = g d :=
    List.foldlRecOn _ _ (motive := fun e => g e = g d) rfl fun e he i _ => (hset e i).trans he
  exact List.foldlRecOn _ (Dev.calSetTwin shaft twin) (motive := fun e => g e = g d) hfirst fun e he i _ => (hcodes e _).trans he

/-- Every delay of the shaft has the code of its smallest passing one. -/
theorem Dev.calCodeAt_calSetAll (d : Dev) {i : Nat} (hi : i < 53) :
    (d.calSetAll shaft smallest twin).calCodeAt (calKey shaft i) = calCode (smallest.getD i 63) := by
  have hsame : ∀ (e : Dev) j, (e.calSet shaft smallest j).calCodeAt (calKey shaft j) = calCode (smallest.getD j 63) := fun e j => by
    rw [Dev.calCodeAt, Dev.calSet_calCodes, SMap.get_put_same]
  have hother : ∀ (e : Dev) j k, k ≠ calKey shaft j → (e.calSet shaft smallest j).calCodeAt k = e.calCodeAt k := fun e j k hk => by
    rw [Dev.calCodeAt, Dev.calSet_calCodes, SMap.get_put_ne _ _ _ hk, Dev.calCodeAt]
  have htwin : ∀ j ∈ List.range 53, calKey shaft i ≠ calKey (64 + shaft) j := fun j hj => by
    have := List.mem_range.mp hj
    simp only [calKey]
    omega
  have htwinOther : ∀ (e : Dev) j k, k ≠ calKey (64 + shaft) j → (e.calSetTwin shaft twin j).calCodeAt k = e.calCodeAt k := fun e j k hk =>
    SMap.get_put_ne _ _ _ hk _
  rw [Dev.calSetAll, foldl_view_of_ne (view := Dev.calCodeAt) htwinOther _ _ htwin]
  exact foldl_view_of_mem (view := Dev.calCodeAt) (upd := fun j _ => calCode (smallest.getD j 63)) hother hsame (calKey_injective shaft)
    List.nodup_range d (List.mem_range.mpr hi)

end Codes

/-! ## The passes -/

/-- What does not look at the register fields is the same after writes of them. -/
theorem Dev.wrs_kept {β : Type} (g : Dev → β) (hg : ∀ (e : Dev) m, g { e with fields := m } = g e) (d : Dev) (l : List (Field × Nat)) :
    g (d.wrs l) = g d := by
  induction l generalizing d with
  | nil => rfl
  | cons x l ih => rw [Dev.wrs_cons, ih, Dev.wr, hg]

theorem calWrites_nodup (shaft rate : Nat) : (((calWrites shaft rate).map Prod.fst).map Field.key).Nodup := by
  simp [calWrites, Field.key, F.SHAFT_STATUS_CALIBRATED, F.SHAFT_STATUS_CAL_RUNNING, F.SHAFT_STATUS_BEAT_RATE, F.SHAFT_CTL_CAL_START,
    F.SHAFT_STATUS_BELOW_FLOOR]
  omega

/-- The device after a full pass. -/
def Dev.calPassed (shaft : Nat) (smallest : List Nat) (rate : Nat) (twin : List Nat) (d : Dev) : Dev :=
  (((d.calSetAll shaft smallest twin).wrs (calWrites shaft rate)).charge shaft 7 0 1600).raiseIf (decide (rate < 3200)) .shaftBelowFloor
    (Src.bay shaft)

theorem exec_calFullPass (shaft : Fin 64) (smallest : List Nat) (rate : Nat) (twin : List Nat) (s : State) :
    exec (.calFullPass shaft smallest rate twin) s = .next (s.withDev (Dev.calPassed shaft smallest rate twin)) := rfl

section Passed

variable {d : Dev} (hoff : d.countersOff = true) (shaft : Nat) (smallest : List Nat) (rate : Nat) (twin : List Nat)

include hoff

/-- What a full pass leaves, beside what it spends and raises, is what setting the codes and the registers leaves. -/
theorem Dev.calPassed_kept {β : Type} (g : Dev → β) (hspent : ∀ (e : Dev) m, g { e with spent := m } = g e)
    (hraised : ∀ (e : Dev) r, g { e with raised := r } = g e) :
    g (d.calPassed shaft smallest rate twin) = g ((d.calSetAll shaft smallest twin).wrs (calWrites shaft rate)) := by
  have hcounters : ((d.calSetAll shaft smallest twin).wrs (calWrites shaft rate)).countersOff = true :=
    (Dev.wrs_kept Dev.countersOff (fun _ _ => rfl) _ _).trans <| (Dev.calSetAll_kept shaft smallest twin Dev.countersOff (fun _ _ => rfl) (fun _ _ => rfl) d).trans hoff
  rw [Dev.calPassed, Dev.charge_of_countersOff hcounters, Dev.raiseIf, apply_ite g]
  exact (ite_congr rfl (fun _ => (hraised _ _).trans (hspent _ _)) fun _ => hspent _ _).trans (ite_self _)

theorem Dev.rd_calPassed (f : Field) : (d.calPassed shaft smallest rate twin).rd f = (d.wrs (calWrites shaft rate)).rd f := by
  rw [Dev.calPassed_kept hoff shaft smallest rate twin (fun e => e.rd f) (fun _ _ => rfl) (fun _ _ => rfl)]
  refine Dev.rd_congr ?_ f
  have hfields := Dev.calSetAll_kept shaft smallest twin Dev.fields (fun _ _ => rfl) (fun _ _ => rfl) d
  simp only [calWrites, Dev.wrs_cons, Dev.wrs_nil, Dev.wr, hfields]

theorem Dev.calCodeAt_calPassed {i : Nat} (hi : i < 53) :
    (d.calPassed shaft smallest rate twin).calCodeAt (calKey shaft i) = calCode (smallest.getD i 63) :=
  (Dev.calPassed_kept hoff shaft smallest rate twin (fun e => e.calCodeAt (calKey shaft i)) (fun _ _ => rfl) (fun _ _ => rfl)).trans
    ((Dev.wrs_kept (fun e : Dev => e.calCodeAt (calKey shaft i)) (fun _ _ => rfl) _ _).trans (Dev.calCodeAt_calSetAll shaft smallest twin d hi))

end Passed

/-- A code of the shaft replaced. -/
def Dev.calMove (d : Dev) (k v : Nat) : Dev := { d with calCodes := SMap.put 63 d.calCodes k v }

/-- A code of the shaft moved as its test in a tracking pass says. -/
def Dev.tracked (shaft i : Nat) (r : TrackResult) (d : Dev) : Dev :=
  let k := calKey shaft i
  let c := d.calCodeAt k
  match r with
  | .down => d.calMove k (c - 1)
  | .hold => d
  | .up => d.calMove k (min 63 (c + 1))
  | .failed =>
    (((d.calMove k (min 63 (c + 4))).bump (F.SHAFT_STATUS_CAL_SLIPS shaft)).raise .calSlip (Src.bay shaft)).wr
      (F.SHAFT_STATUS_CAL_RUNNING shaft) 1

/-- The slots that a tracking pass spends. -/
def Dev.trackSpent (shaft : Nat) (d : Dev) : Dev := { d with spent := SMap.modify 0 d.spent (spentKey shaft 7 0) (· + 136) }

/-- Two changes of the device that agree on the device at hand give one next state. -/
theorem State.next_congr {s : State} {f g : Dev → Dev} (h : f s.dev = g s.dev) : s.next f = .next (s.withDev g) := by
  rw [State.next_eq, State.withDev, h, State.withDev]

theorem exec_calStart (shaft : Fin 64) (s : State) :
    exec (.calStart shaft) s = .next (s.withDev fun d => d.wr (F.SHAFT_CTL_CAL_START shaft) 1) := rfl

theorem exec_calTrackingPass {s : State} (hoff : s.dev.countersOff = true) (shaft : Fin 64) {i : Nat} (hi : i < 53) (r : TrackResult) :
    exec (.calTrackingPass shaft [(i, r)]) s = .next (s.withDev fun d => (d.trackSpent shaft).tracked shaft i r) := by
  refine Eq.trans (b := execCalTrackingPass shaft [(i, r)] s) rfl ?_
  rw [execCalTrackingPass]
  refine State.next_congr ?_
  rw [Dev.charge_of_countersOff hoff, List.foldl_cons, List.foldl_nil]
  refine (if_neg (by omega)).trans ?_
  cases r <;> rfl

theorem Dev.keeps_tracked (d : Dev) (shaft i : Nat) (r : TrackResult) :
    d.Keeps [F.SHAFT_STATUS_CAL_SLIPS shaft, F.SHAFT_STATUS_CAL_RUNNING shaft] (d.tracked shaft i r) := by
  cases r with
  | down | up => exact Dev.keeps_of_fields rfl
  | hold => exact Dev.Keeps.refl _ _
  | failed =>
    have hslips : d.Keeps [F.SHAFT_STATUS_CAL_SLIPS shaft, F.SHAFT_STATUS_CAL_RUNNING shaft]
        ((d.calMove (calKey shaft i) (min 63 (d.calCodeAt (calKey shaft i) + 4))).bump (F.SHAFT_STATUS_CAL_SLIPS shaft)) :=
      Dev.Keeps.trans (e := d.calMove _ _) (Dev.keeps_of_fields rfl) (Dev.keeps_bump (by simp))
    exact hslips.trans (Dev.Keeps.trans (e := Dev.raise _ _ _ _) (Dev.keeps_of_fields rfl) (Dev.keeps_wr (by simp) 1))

/-- Settles O15: the codes come from the two folds of a full pass and the one move of a tracking pass, the registers from their writes. -/
theorem calibrationSetsCodes : Obligations.CalibrationSetsCodes := by
  intro s shaft hoff
  refine ⟨fun smallest rate twin => ?_, ?_, fun i r hi => ?_⟩
  · have hrd := fun f => Dev.rd_calPassed hoff shaft smallest rate twin f
    have hwrite := fun f v (hf : (f, v) ∈ calWrites shaft rate) =>
      (hrd f).trans (Dev.rd_wrs_of_mem s.dev (calWrites_nodup shaft rate) hf)
    refine ⟨_, exec_calFullPass shaft smallest rate twin s, State.frame_of_keeps fun g hg => ?_, fun i hi => ?_, ?_, ?_, ?_, ?_, ?_⟩
    · refine (hrd g).trans (Dev.rd_wrs_of_not_mem _ fun hmem => hg ?_)
      exact hmem
    · exact Dev.calCodeAt_calPassed hoff shaft smallest rate twin hi
    · exact hwrite _ 1 (by simp [calWrites])
    · exact hwrite _ 0 (by simp [calWrites])
    · refine (hwrite _ (min rate 4095) (by simp [calWrites])).trans (Nat.mod_eq_of_lt ?_)
      exact Nat.lt_of_le_of_lt (Nat.min_le_right _ _) (show 4095 < 2 ^ 12 by decide)
    · exact hwrite _ 0 (by simp [calWrites])
    · refine (hwrite _ (decide (rate < 3200)).toNat (by simp [calWrites])).trans ?_
      by_cases h : rate < 3200 <;> simp [h, F.SHAFT_STATUS_BELOW_FLOOR]
  · exact ⟨_, exec_calStart shaft s, State.frame_of_keeps (Dev.keeps_wr List.mem_cons_self 1), Dev.rd_wr_same _ _ _⟩
  · refine ⟨_, exec_calTrackingPass hoff shaft hi r, State.frame_of_keeps ?_, ?_, fun j hj => ?_, fun hr => ?_, fun hr => ?_⟩
    · exact Dev.Keeps.trans (e := s.dev.trackSpent shaft) (Dev.keeps_of_fields rfl) (Dev.keeps_tracked _ _ _ _)
    · cases r with
      | hold => rfl
      | down | up | failed => exact SMap.get_put_same _ _ _ _
    · cases r with
      | hold => rfl
      | down | up | failed => exact SMap.get_put_ne _ _ _ hj _
    · cases r with
      | failed => exact absurd rfl hr
      | down | up | hold => rfl
    · subst hr
      exact Dev.rd_wr_same _ _ _

end Sys2Proof.Machine
end

section
/-!
Refresh pacing, targeted-refresh claims, clamps and the A3 need (R106 to R127).
-/

namespace Sys2Proof.Machine

open Sys2Proof

/-! ## Rows that a port refreshes itself -/

/-- A place that a fold of equal writes reaches keeps the value written. -/
theorem SMap.get_foldl_put_of_mem {α : Type} [DecidableEq α] {d v : α} (key : Nat → Nat) {l : List Nat} {i : Nat} (hi : i ∈ l) (m : SMap α) :
    SMap.get d (l.foldl (fun m j => SMap.put d m (key j) v) m) (key i) = v := by
  have hkeep : ∀ (l : List Nat) (m : SMap α), SMap.get d m (key i) = v →
      SMap.get d (l.foldl (fun m j => SMap.put d m (key j) v) m) (key i) = v := fun l m hm =>
    List.foldlRecOn l _ (motive := fun m => SMap.get d m (key i) = v) hm fun m hm j _ => by
      by_cases hj : key i = key j
      · rw [hj, SMap.get_put_same]
      · rw [SMap.get_put_ne d d m hj, hm]
  induction l generalizing m with
  | nil => exact absurd hi List.not_mem_nil
  | cons x l ih =>
    rw [List.foldl_cons]
    rcases List.mem_cons.mp hi with rfl | hi
    · exact hkeep l _ (SMap.get_put_same _ _ _ _)
    · exact ih hi _

theorem Dev.walkRows_rowCounts (d : Dev) (shaft level bank : Nat) : (d.walkRows shaft level bank).rowCounts =
    (List.range 4).foldl (fun m i => SMap.put 0 m (rowKey shaft level bank ((SMap.get 0 d.refreshCtr (bankKey shaft level bank) + i) % 6208)) 0)
      d.rowCounts := rfl

/-- Every row that a port refreshes itself starts to count again (R112). -/
theorem Dev.rowCount_walkRows (d : Dev) (shaft level bank : Nat) {i : Nat} (hi : i < 4) :
    SMap.get 0 (d.walkRows shaft level bank).rowCounts
      (rowKey shaft level bank ((SMap.get 0 d.refreshCtr (bankKey shaft level bank) + i) % 6208)) = 0 := by
  rw [Dev.walkRows_rowCounts]
  exact SMap.get_foldl_put_of_mem
    (fun i => rowKey shaft level bank ((SMap.get 0 d.refreshCtr (bankKey shaft level bank) + i) % 6208)) (List.mem_range.mpr hi) _

/-! ## The pacer -/

section Pacer

variable (d : Dev) (shaft level bank : Nat)

/-- The device after a step of the refresh pacer. -/
def Dev.paced : Dev :=
  let k := bankKey shaft level bank
  if d.role level = 2 ∨ ¬ d.portPowered shaft level then d
  else if (d.shelf (shelfKey shaft level)).st = .selfRefresh then d.walkRows shaft level bank
  else
    let o := d.owedOf k
    if 16 ≤ o then d.bump (F.REFRESH_FAULTS_MISSED level)
    else
      let bay := d.drivingBay shaft
      let d := d.setOwed k (o + 1)
      if o + 1 = 12 then (d.bump (F.REFRESH_FAULTS_LATE level)).raise .refreshLate (Src.bay bay) [(bank, 4)]
      else d.raiseIf (o + 1 = 16) .refreshMissed (Src.bay bay) [(bank, 4)]

variable {d shaft level bank}

theorem Dev.paced_of_idle (h : d.role level = 2 ∨ d.portPowered shaft level = false) : d.paced shaft level bank = d :=
  if_pos (by simpa using h)

theorem Dev.paced_of_selfRefresh (hrole : d.role level ≠ 2) (hport : d.portPowered shaft level = true)
    (h : (d.shelf (shelfKey shaft level)).st = .selfRefresh) : d.paced shaft level bank = d.walkRows shaft level bank := by
  simp [Dev.paced, hrole, hport, h]

theorem Dev.paced_of_missed (hrole : d.role level ≠ 2) (hport : d.portPowered shaft level = true)
    (h : (d.shelf (shelfKey shaft level)).st ≠ .selfRefresh) (ho : 16 ≤ d.owedOf (bankKey shaft level bank)) :
    d.paced shaft level bank = d.bump (F.REFRESH_FAULTS_MISSED level) := by
  simp only [Dev.paced, hrole, hport, h, ho, not_true_eq_false, or_self, if_true, if_false]

/-- A step that raises OWED, with what reaching 12 and 16 adds (R108). -/
def Dev.owedRaised (d : Dev) (shaft level bank : Nat) : Dev :=
  let o := d.owedOf (bankKey shaft level bank)
  let e := d.setOwed (bankKey shaft level bank) (o + 1)
  if o = 11 then (e.bump (F.REFRESH_FAULTS_LATE level)).raise .refreshLate (Src.bay (d.drivingBay shaft)) [(bank, 4)]
  else if o = 15 then e.raise .refreshMissed (Src.bay (d.drivingBay shaft)) [(bank, 4)] else e

theorem Dev.paced_of_owed (hrole : d.role level ≠ 2) (hport : d.portPowered shaft level = true)
    (h : (d.shelf (shelfKey shaft level)).st ≠ .selfRefresh) (ho : d.owedOf (bankKey shaft level bank) < 16) :
    d.paced shaft level bank = d.owedRaised shaft level bank := by
  have h12 : d.owedOf (bankKey shaft level bank) + 1 = 12 ↔ d.owedOf (bankKey shaft level bank) = 11 := by omega
  have h16 : d.owedOf (bankKey shaft level bank) + 1 = 16 ↔ d.owedOf (bankKey shaft level bank) = 15 := by omega
  simp only [Dev.paced, Dev.owedRaised, hrole, hport, h, Int.not_le.mpr ho, not_true_eq_false, or_self, if_false, h12, h16, Dev.raiseIf,
    decide_eq_true_eq]

theorem Dev.owedOf_owedRaised (j : Nat) : (d.owedRaised shaft level bank).owedOf j =
    (d.setOwed (bankKey shaft level bank) (d.owedOf (bankKey shaft level bank) + 1)).owedOf j := by
  rw [Dev.owedRaised]
  split
  · rfl
  · split <;> rfl

theorem Dev.keeps_owedRaised : d.Keeps [F.REFRESH_FAULTS_LATE level] (d.owedRaised shaft level bank) := by
  rw [Dev.owedRaised]
  split
  · exact Dev.Keeps.trans (e := d.setOwed _ _) (Dev.keeps_of_fields rfl) (Dev.keeps_bump List.mem_cons_self)
  · split <;> exact Dev.keeps_of_fields rfl

theorem Dev.rd_owedRaised_late : (d.owedRaised shaft level bank).rd (F.REFRESH_FAULTS_LATE level) =
    if d.owedOf (bankKey shaft level bank) = 11 then min (d.rd (F.REFRESH_FAULTS_LATE level) + 1) (2 ^ 8 - 1)
    else d.rd (F.REFRESH_FAULTS_LATE level) := by
  rw [Dev.owedRaised]
  split
  · exact Dev.rd_bump_same _ _
  · split <;> rfl

theorem Dev.owedRaised_raised : (d.owedRaised shaft level bank).raised.map (·.type) = d.raised.map (·.type) ++
    (if d.owedOf (bankKey shaft level bank) = 11 then [FaultType.refreshLate.code]
      else if d.owedOf (bankKey shaft level bank) = 15 then [FaultType.refreshMissed.code] else []) := by
  rw [Dev.owedRaised]
  split
  · exact List.map_append
  · split
    · exact List.map_append
    · exact (List.append_nil _).symm

end Pacer

theorem exec_refreshPacerStep (shaft : Fin 64) (level : Fin 17) (bank : Fin 16) (s : State) :
    exec (.refreshPacerStep shaft level bank) s = .next (s.withDev fun d => d.paced shaft level bank) := rfl

/-- A change of the device that leaves the device at hand as it is leaves the state as it is. -/
theorem State.withDev_eq_self {s : State} {f : Dev → Dev} (h : f s.dev = s.dev) : s.withDev f = s := by rw [State.withDev, h]

/-- A command that leaves the device at hand as it is changes nothing. -/
theorem State.next_of_same {s : State} {f : Dev → Dev} (h : f s.dev = s.dev) : s.next f = .next s :=
  congrArg Host.Outcome.next (State.withDev_eq_self h)

/-! ## Claims -/

/-- A claim past its first deadline (R116). -/
def Dev.claimMarked (d : Dev) (k : Nat) (c : Claim) : Dev := { d with claims := SMap.insert k { c with deadline := true } d.claims }

theorem Dev.claimAt_claimMarked_same (d : Dev) (k : Nat) (c : Claim) : (d.claimMarked k c).claimAt k = some { c with deadline := true } := by
  rw [Dev.claimAt, Dev.claimMarked, find?_insert_same]
  rfl

theorem Dev.claimAt_claimMarked_ne (d : Dev) {j k : Nat} (h : j ≠ k) (c : Claim) : (d.claimMarked k c).claimAt j = d.claimAt j := by
  rw [Dev.claimAt, Dev.claimMarked, find?_insert_ne h, ← Dev.claimAt]

section Claims

variable {s : State} {shaft : Fin 64} {level : Fin 17} {slot : Fin 32}

theorem exec_trefDeadline_of_open {c : Claim} (hc : s.dev.claimAt (shelfKey shaft level * 32 + slot) = some c)
    (hst : (s.dev.shelf (shelfKey shaft level)).st ≠ .recovering) : exec (.trefDeadline shaft level slot) s =
      .next (s.withDev fun d => d.claimMarked (shelfKey shaft level * 32 + slot) c) := by
  refine Eq.trans (b := execTrefDeadline shaft level slot s) rfl ?_
  rw [execTrefDeadline]
  refine State.next_congr ?_
  simp only [hc]
  exact if_neg hst

theorem exec_trefLate_of_open {c : Claim} (hc : s.dev.claimAt (shelfKey shaft level * 32 + slot) = some c)
    (hst : (s.dev.shelf (shelfKey shaft level)).st ≠ .recovering) : exec (.trefLate shaft level slot) s =
      .next (s.withDev fun d => (d.bump (F.REFRESH_FAULTS_TREF_LATE level)).raise .trefLate (Src.bay (d.drivingBay shaft))) := by
  refine Eq.trans (b := execTrefLate shaft level slot s) rfl ?_
  rw [execTrefLate]
  exact State.next_congr (if_pos ⟨by rw [hc]; rfl, hst⟩)

theorem exec_trefDeadline_of_not (h : s.dev.claimAt (shelfKey shaft level * 32 + slot) = none ∨
    (s.dev.shelf (shelfKey shaft level)).st = .recovering) : exec (.trefDeadline shaft level slot) s = .next s := by
  refine Eq.trans (b := execTrefDeadline shaft level slot s) rfl ?_
  rw [execTrefDeadline]
  refine State.next_of_same ?_
  dsimp only
  split
  case h_1 c hc => exact if_pos (h.resolve_left (by rw [hc]; exact Option.some_ne_none c))
  case h_2 => rfl

theorem exec_trefLate_of_not (h : s.dev.claimAt (shelfKey shaft level * 32 + slot) = none ∨
    (s.dev.shelf (shelfKey shaft level)).st = .recovering) : exec (.trefLate shaft level slot) s = .next s := by
  refine Eq.trans (b := execTrefLate shaft level slot s) rfl ?_
  rw [execTrefLate]
  refine State.next_of_same (if_neg ?_)
  rintro ⟨hsome, hst⟩
  rw [h.resolve_right hst] at hsome
  exact absurd hsome (by decide)

end Claims

theorem exec_rowActWindow (s : State) :
    exec .rowActWindow s = .next (s.withDev fun d => { d with triggers := [], offended := [] }) := rfl

theorem exec_rowActClampClear (clamp : Fin 16) (s : State) :
    exec (.rowActClampClear clamp) s = .next (s.withDev fun d => d.wr (F.ROW_ACT_CLAMP_ACTIVE clamp) 0) := rfl

/-! ## The A3 need -/

/-- The device after A3_RECOMPUTE. -/
def Dev.a3Recomputed (d : Dev) : Dev :=
  if (List.range 64).any (fun b => (d.bayTokens b).a3 ≠ d.a3Need) then { d with recheck := true } else d

theorem exec_a3Recompute (s : State) : exec .a3Recompute s = .next (s.withDev Dev.a3Recomputed) := rfl

theorem Dev.a3Recomputed_of_ne {d : Dev} {b : Nat} (hb : b < 64) (h : (d.bayTokens b).a3 ≠ d.a3Need) :
    d.a3Recomputed = { d with recheck := true } :=
  if_pos (List.any_eq_true.mpr ⟨b, List.mem_range.mpr hb, decide_eq_true h⟩)

theorem Dev.a3Recomputed_of_eq {d : Dev} (h : ∀ b, b < 64 → (d.bayTokens b).a3 = d.a3Need) : d.a3Recomputed = d := by
  refine if_neg fun hany => ?_
  obtain ⟨b, hb, hne⟩ := List.any_eq_true.mp hany
  exact of_decide_eq_true hne (h b (List.mem_range.mp hb))

/-- Settles O16: the pacer by the cases of its step, claims by the slot that the command names, the A3 need by the first bay that differs. -/
theorem refreshIsOwedAndClaimed : Obligations.RefreshIsOwedAndClaimed := by
  refine ⟨?_, ?_, fun s => ⟨fun b hb hne => ?_, fun heq => ?_⟩⟩
  · intro s shaft level bank k o step
    have hstep : exec step s = .next (s.withDev fun d => d.paced shaft level bank) := exec_refreshPacerStep shaft level bank s
    refine ⟨fun h => ?_, fun hrole hport => ⟨fun hself => ?_, fun hself => ⟨fun ho => ?_, fun ho => ?_⟩⟩⟩
    · exact hstep.trans (congrArg _ (State.withDev_eq_self (Dev.paced_of_idle h)))
    · refine ⟨_, hstep, ?_⟩
      have hpaced := Dev.paced_of_selfRefresh (bank := bank) hrole hport hself
      refine ⟨State.frame_of_keeps ?_, ?_, ?_, fun i hi => ?_⟩
      · rw [hpaced]
        exact Dev.keeps_of_fields Dev.walkRows_fields
      · rw [State.withDev_dev, hpaced, Dev.walkRows_owed]
      · rw [State.withDev_dev, hpaced]
        exact Dev.refreshCtr_walkRows_same
      · rw [State.withDev_dev, hpaced]
        exact Dev.rowCount_walkRows _ _ _ _ hi
    · refine ⟨_, hstep, ?_⟩
      have hpaced := Dev.paced_of_owed hrole hport hself ho
      refine ⟨State.frame_of_keeps ?_, ?_, fun j hj => ?_, ?_, ?_⟩
      · rw [hpaced]
        exact Dev.keeps_owedRaised
      · rw [State.withDev_dev, hpaced, Dev.owedOf_owedRaised, Dev.owedOf_setOwed_same]
      · rw [State.withDev_dev, hpaced, Dev.owedOf_owedRaised, Dev.owedOf_setOwed_ne _ hj]
      · rw [State.withDev_dev, hpaced, Dev.rd_owedRaised_late]
      · rw [State.withDev_dev, hpaced, Dev.owedRaised_raised]
    · refine ⟨_, hstep, ?_⟩
      have hpaced := Dev.paced_of_missed hrole hport hself ho
      refine ⟨State.frame_of_keeps ?_, ?_, ?_⟩
      · rw [hpaced]
        exact Dev.keeps_bump List.mem_cons_self
      · rw [State.withDev_dev, hpaced]
        rfl
      · rw [State.withDev_dev, hpaced]
        exact Dev.rd_bump_same _ _
  · intro s shaft level slot clamp sh k
    refine ⟨fun c hc hst => ⟨?_, ?_⟩, fun h => ⟨exec_trefDeadline_of_not h, exec_trefLate_of_not h⟩, ?_, ?_⟩
    · refine ⟨_, exec_trefDeadline_of_open hc hst, State.frame_of_keeps (Dev.keeps_of_fields rfl), ?_, fun j hj => ?_⟩
      · exact Dev.claimAt_claimMarked_same _ _ _
      · exact Dev.claimAt_claimMarked_ne _ hj _
    · refine ⟨_, exec_trefLate_of_open hc hst, State.frame_of_keeps ?_, Dev.rd_bump_same _ _, rfl⟩
      exact Dev.keeps_bump List.mem_cons_self
    · exact ⟨_, exec_rowActWindow s, State.frame_of_keeps (Dev.keeps_of_fields rfl), rfl, rfl⟩
    · exact ⟨_, exec_rowActClampClear clamp s, State.frame_of_keeps (Dev.keeps_wr List.mem_cons_self 0), Dev.rd_wr_same _ _ _⟩
  · refine ⟨_, exec_a3Recompute s, State.frame_of_keeps ?_, ?_⟩
    · rw [Dev.a3Recomputed_of_ne hb hne]
      exact Dev.keeps_of_fields rfl
    · rw [State.withDev_dev, Dev.a3Recomputed_of_ne hb hne]
  · exact (exec_a3Recompute s).trans (congrArg _ (State.withDev_eq_self (Dev.a3Recomputed_of_eq heq)))

end Sys2Proof.Machine
end

section
/-!
A level steward's reset and recovery (R123, R124): the shelves of the level made RECOVERING, the refreshes they take meanwhile, and READY again.
-/

namespace Sys2Proof.Machine

open Sys2Proof

/-! ## One shelf reset -/

section Shelf

variable (d : Dev) (shaft level : Nat)

/-- The banks of a shelf that are not IDLE. -/
def Dev.busyBanks : List Nat := (List.range 16).filter fun i => (d.bank (bankKey shaft level i)).st ≠ .idle

/-- Banks of a shelf put back to their reset state. -/
def Dev.clearBanks (l : List Nat) : Dev := l.foldl (fun d i => d.setBank (bankKey shaft level i) fun _ => {}) d

/-- A shelf port told to recover. -/
def Shelf.recovered (busy : List Nat) (p : Shelf) : Shelf :=
  { p with st := .recovering, done := busy.foldl (fun m i => m ||| (1#16 <<< i)) p.done }

variable {d shaft level}

theorem Dev.recoverShelf_of_selfRefresh (h : (d.shelf (shelfKey shaft level)).st = .selfRefresh) : d.recoverShelf shaft level = d := if_pos h

theorem Dev.recoverShelf_of_ne (h : (d.shelf (shelfKey shaft level)).st ≠ .selfRefresh) : d.recoverShelf shaft level =
    (d.clearBanks shaft level (d.busyBanks shaft level)).setShelf (shelfKey shaft level) (Shelf.recovered (d.busyBanks shaft level)) := if_neg h

theorem Dev.clearBanks_footprint (l : List Nat) : ∃ m, d.clearBanks shaft level l = { d with banks := m } := by
  refine List.foldlRecOn l _ (motive := fun e : Dev => ∃ m, e = { d with banks := m }) ⟨d.banks, rfl⟩ ?_
  rintro _ ⟨m, rfl⟩ i -
  exact ⟨_, rfl⟩

theorem Dev.bank_clearBanks_of_ne {j : Nat} (h : ∀ i < 16, j ≠ bankKey shaft level i) :
    (d.clearBanks shaft level (d.busyBanks shaft level)).bank j = d.bank j :=
  foldl_view_of_ne (view := Dev.bank) (key := bankKey shaft level) (fun e _ _ hj => Dev.bank_setBank_ne e hj _) _ d fun i hi =>
    h i (List.mem_range.mp (List.mem_filter.mp hi).1)

/-- A bank of a shelf that is reset: as it was where it was IDLE, else in its reset state. -/
theorem Dev.bank_clearBanks {i : Nat} (hi : i < 16) : (d.clearBanks shaft level (d.busyBanks shaft level)).bank (bankKey shaft level i) =
    if (d.bank (bankKey shaft level i)).st = .idle then d.bank (bankKey shaft level i) else {} := by
  have hother : ∀ (e : Dev) i j, j ≠ bankKey shaft level i → (e.setBank (bankKey shaft level i) fun _ => {}).bank j = e.bank j :=
    fun e i j hj => Dev.bank_setBank_ne e hj _
  by_cases hidle : (d.bank (bankKey shaft level i)).st = .idle
  · rw [if_pos hidle]
    refine foldl_view_of_ne (view := Dev.bank) (key := bankKey shaft level) hother _ d fun n hn heq => ?_
    have hbusy := (List.mem_filter.mp hn).2
    rw [← bankKey_injective _ _ heq, hidle] at hbusy
    exact absurd hbusy (by decide)
  · rw [if_neg hidle]
    refine foldl_view_of_mem (view := Dev.bank) (upd := fun _ _ => {}) hother (fun e i => Dev.bank_setBank_same e _ _) (bankKey_injective _ _)
      (List.nodup_range.filter _) d (List.mem_filter.mpr ⟨List.mem_range.mpr hi, decide_eq_true hidle⟩)

end Shelf

/-! ## The shelves of a level reset -/

/-- A shelf port's state with its banks, by the shelf's key. -/
def Dev.shelfView (d : Dev) (sh : Nat) : ShelfSt × (Fin 16 → Bank) := ((d.shelf sh).st, fun i => d.bank (sh * 16 + i))

/-- What a reset makes of a shelf. -/
def recoveredView (v : ShelfSt × (Fin 16 → Bank)) : ShelfSt × (Fin 16 → Bank) :=
  if v.1 = .selfRefresh then v else (.recovering, fun i => if (v.2 i).st = .idle then v.2 i else {})

section Views

variable {d e : Dev} {shaft level : Nat} (h : e.shelfView (shelfKey shaft level) = recoveredView (d.shelfView (shelfKey shaft level)))
include h

theorem Dev.st_of_recoveredView : (e.shelf (shelfKey shaft level)).st =
    if (d.shelf (shelfKey shaft level)).st = .selfRefresh then .selfRefresh else .recovering := by
  refine (congrArg Prod.fst h).trans ?_
  rw [recoveredView, apply_ite Prod.fst]
  split
  case isTrue hst => exact hst.trans (if_pos hst).symm
  case isFalse hst => exact (if_neg hst).symm

theorem Dev.idle_of_recoveredView (hst : (d.shelf (shelfKey shaft level)).st ≠ .selfRefresh) {i : Nat} (hi : i < 16) :
    (e.bank (bankKey shaft level i)).st = .idle := by
  refine (congrArg Bank.st (congrFun (congrArg Prod.snd h) ⟨i, hi⟩)).trans ?_
  rw [recoveredView, if_neg (show ¬ (d.shelfView _).1 = _ from hst)]
  dsimp only
  split
  case isTrue hidle => exact hidle
  case isFalse => rfl

end Views

section Level

variable (d : Dev) (shaft level : Nat)

theorem Dev.shelfView_recoverShelf_same : (d.recoverShelf shaft level).shelfView (shelfKey shaft level) =
    recoveredView (d.shelfView (shelfKey shaft level)) := by
  by_cases h : (d.shelf (shelfKey shaft level)).st = .selfRefresh
  · rw [Dev.recoverShelf_of_selfRefresh h, recoveredView, if_pos (show (d.shelfView _).1 = _ from h)]
  · rw [Dev.recoverShelf_of_ne h, recoveredView, if_neg (show ¬ (d.shelfView _).1 = _ from h)]
    refine Prod.ext ?_ (funext fun i => ?_)
    · exact congrArg Shelf.st (Dev.shelf_setShelf_same _ _ _)
    · exact Dev.bank_clearBanks i.isLt

theorem Dev.bank_recoverShelf_of_ne {j : Nat} (h : ∀ i < 16, j ≠ bankKey shaft level i) : (d.recoverShelf shaft level).bank j = d.bank j := by
  by_cases hst : (d.shelf (shelfKey shaft level)).st = .selfRefresh
  · rw [Dev.recoverShelf_of_selfRefresh hst]
  · rw [Dev.recoverShelf_of_ne hst, Dev.bank_setShelf, Dev.bank_clearBanks_of_ne h]

theorem Dev.shelf_recoverShelf_of_ne {j : Nat} (h : j ≠ shelfKey shaft level) : (d.recoverShelf shaft level).shelf j = d.shelf j := by
  by_cases hst : (d.shelf (shelfKey shaft level)).st = .selfRefresh
  · rw [Dev.recoverShelf_of_selfRefresh hst]
  · obtain ⟨m, hm⟩ := Dev.clearBanks_footprint (d := d) (shaft := shaft) (level := level) (d.busyBanks shaft level)
    rw [Dev.recoverShelf_of_ne hst, Dev.shelf_setShelf_ne _ h, hm]
    rfl

theorem Dev.shelfView_recoverShelf_ne {j : Nat} (h : j ≠ shelfKey shaft level) :
    (d.recoverShelf shaft level).shelfView j = d.shelfView j := by
  rw [Dev.shelfView, Dev.shelf_recoverShelf_of_ne _ _ _ h]
  refine Prod.ext rfl (funext fun i => Dev.bank_recoverShelf_of_ne _ _ _ fun n hn heq => h ?_)
  rw [bankKey_eq] at heq
  omega

theorem Dev.recoverShelf_footprint : ∃ m p, d.recoverShelf shaft level = { d with banks := m, shelves := p } := by
  by_cases hst : (d.shelf (shelfKey shaft level)).st = .selfRefresh
  · exact ⟨d.banks, d.shelves, Dev.recoverShelf_of_selfRefresh hst⟩
  · obtain ⟨m, hm⟩ := Dev.clearBanks_footprint (d := d) (shaft := shaft) (level := level) (d.busyBanks shaft level)
    rw [Dev.recoverShelf_of_ne hst, hm]
    exact ⟨m, _, rfl⟩

/-- Every shelf of a level reset. -/
def Dev.recoverLevel : Dev := (List.range 64).foldl (fun d n => d.recoverShelf n level) d

theorem Dev.recoverLevel_footprint : ∃ m p, d.recoverLevel level = { d with banks := m, shelves := p } := by
  refine List.foldlRecOn (List.range 64) _ (motive := fun e : Dev => ∃ m p, e = { d with banks := m, shelves := p }) ⟨d.banks, d.shelves, rfl⟩ ?_
  rintro _ ⟨m, p, rfl⟩ n -
  obtain ⟨m', p', h⟩ := ({ d with banks := m, shelves := p } : Dev).recoverShelf_footprint n level
  exact ⟨m', p', h⟩

theorem shelfKey_injective : Function.Injective fun n => shelfKey n level := fun a b h => by
  have h : a * 17 + level = b * 17 + level := h
  omega

theorem Dev.shelfView_recoverLevel {n : Nat} (hn : n < 64) :
    (d.recoverLevel level).shelfView (shelfKey n level) = recoveredView (d.shelfView (shelfKey n level)) :=
  foldl_view_of_mem (view := Dev.shelfView) (key := fun n => shelfKey n level) (upd := fun _ => recoveredView)
    (fun e n _ hj => Dev.shelfView_recoverShelf_ne e n level hj) (fun e n => Dev.shelfView_recoverShelf_same e n level)
    (shelfKey_injective level) List.nodup_range d (List.mem_range.mpr hn)

theorem Dev.bank_recoverLevel_of_ne {n l i : Nat} (hlevel : level < 17) (hl : l < 17) (hi : i < 16) (hne : l ≠ level) :
    (d.recoverLevel level).bank (bankKey n l i) = d.bank (bankKey n l i) :=
  List.foldlRecOn (List.range 64) _ (motive := fun e : Dev => e.bank (bankKey n l i) = d.bank (bankKey n l i)) rfl fun e he m _ =>
    (Dev.bank_recoverShelf_of_ne e m level fun j hj heq => hne (by simp only [bankKey, shelfKey] at heq; omega)).trans he

end Level

/-! ## The reset -/

/-- The registers that show a reset under way. -/
def resetWrites (level : Nat) : List (Field × Nat) := [(F.LEVEL_RESET_REQ level, 1), (F.LEVEL_RESET_RECOVERING level, 1)]

/-- A reset shown, counted and raised. -/
def Dev.resetShown (d : Dev) (level : Nat) : Dev :=
  ((d.wrs (resetWrites level)).bump (F.LEVEL_RESET_RESETS level)).raise .stewardReset (Src.level level)

theorem exec_levelStewardReset (level : Fin 17) (s : State) :
    exec (.levelStewardReset level) s = .next (s.withDev fun d => (d.recoverLevel level).resetShown level) := rfl

section Shown

variable (d : Dev) (level : Nat)

theorem resetReq_key_ne : (F.LEVEL_RESET_REQ level).key ≠ (F.LEVEL_RESET_RECOVERING level).key := by
  simp [Field.key, F.LEVEL_RESET_REQ, F.LEVEL_RESET_RECOVERING]

theorem resetFields_key_ne : ∀ f ∈ [F.LEVEL_RESET_REQ level, F.LEVEL_RESET_RECOVERING level], f.key ≠ (F.LEVEL_RESET_RESETS level).key := by
  simp [Field.key, F.LEVEL_RESET_REQ, F.LEVEL_RESET_RECOVERING, F.LEVEL_RESET_RESETS]

theorem Dev.keeps_resetShown :
    d.Keeps [F.LEVEL_RESET_REQ level, F.LEVEL_RESET_RECOVERING level, F.LEVEL_RESET_RESETS level] (d.resetShown level) :=
  Dev.Keeps.trans (e := d.wrs (resetWrites level)) (Dev.keeps_wrs (by simp [resetWrites]))
    (Dev.Keeps.trans (e := (d.wrs (resetWrites level)).bump _) (Dev.keeps_bump (by simp)) (Dev.keeps_of_fields rfl))

theorem Dev.shelf_resetShown (k : Nat) : (d.resetShown level).shelf k = d.shelf k := rfl
theorem Dev.bank_resetShown (k : Nat) : (d.resetShown level).bank k = d.bank k := rfl

theorem Dev.raised_resetShown : (d.resetShown level).raised =
    d.raised ++ [{ type := FaultType.stewardReset.code, source := Src.level level, detail := 0 }] := rfl

theorem Dev.rd_resetShown_of_mem {f : Field} (hf : f ∈ [F.LEVEL_RESET_REQ level, F.LEVEL_RESET_RECOVERING level]) :
    (d.resetShown level).rd f = 1 := by
  rw [Dev.resetShown, Dev.rd_raise, Dev.rd_bump_ne _ (resetFields_key_ne level f hf), resetWrites, Dev.wrs_cons, Dev.wrs_cons, Dev.wrs_nil]
  simp only [List.mem_cons, List.not_mem_nil, or_false] at hf
  rcases hf with rfl | rfl
  · rw [Dev.rd_wr_ne _ (resetReq_key_ne level), Dev.rd_wr_same]
    rfl
  · rw [Dev.rd_wr_same]
    rfl

theorem Dev.rd_resetShown_resets :
    (d.resetShown level).rd (F.LEVEL_RESET_RESETS level) = min (d.rd (F.LEVEL_RESET_RESETS level) + 1) (2 ^ 8 - 1) := by
  have hkept : (d.wrs (resetWrites level)).rd (F.LEVEL_RESET_RESETS level) = d.rd (F.LEVEL_RESET_RESETS level) :=
    Dev.rd_wrs_of_not_mem d fun hmem => by
      obtain ⟨f, hf, hkey⟩ := List.mem_map.mp hmem
      exact resetFields_key_ne level f hf hkey
  rw [Dev.resetShown, Dev.rd_raise, Dev.rd_bump_same, hkept]
  rfl

end Shown

theorem exec_levelResetReq (level : Fin 17) (s : State) :
    exec (.levelResetReq level) s = .next (s.withDev fun d => d.wr (F.LEVEL_RESET_REQ level) 1) := rfl

/-! ## REFs of a RECOVERING shelf -/

section Refs

variable {d : Dev} {shaft level bank : Nat}

theorem Dev.portCause_ref_recovering (hst : (d.shelf (shelfKey shaft level)).st = .recovering)
    (hidle : (d.bank (bankKey shaft level bank)).st = .idle) : d.portCause shaft level (generalFields level bank 0x4 0) = 0 := by
  simp [Dev.portCause, generalFields, badOperand, hst, hidle]

theorem Dev.owedOf_refStarted_ne {j : Nat} (h : j ≠ bankKey shaft level bank) : (d.refStarted shaft level bank).owedOf j = d.owedOf j := by
  rw [Dev.owedOf, Dev.refStarted_eq, Dev.startBank_owed, Dev.walkRows_owed, ← Dev.owedOf, Dev.owedLower, Dev.owedOf_setOwed_ne _ h]

theorem Dev.refStarted_shelves : (d.refStarted shaft level bank).shelves = d.shelves := by
  obtain ⟨m, h⟩ := Dev.walkRows_footprint (d := d.owedLower (bankKey shaft level bank)) (shaft := shaft) (level := level) (bank := bank)
  rw [Dev.refStarted_eq, h]
  rfl

/-- An accepted command of the general form changes no event counter beside what the port's execution does. -/
theorem Dev.general_perf {e : Dev} {op operand : Nat} {x : CmdExtra} (hoff : e.countersOff = true) (hdriven : d.shaftDriven shaft = true)
    (hpowered : d.portPowered shaft level = true) (hlevel : level < 17) (hbank : bank < 16) (hop : op < 16) (hoperand : operand < 512)
    (hcause : d.portCause shaft level (generalFields level bank op operand) = 0)
    (hexecute : d.portExecute shaft level (generalFields level bank op operand) x = e) :
    (d.general shaft level bank op operand { down := 0, up := 0 } x).perf = e.perf := by
  obtain ⟨m, p, hnotes⟩ := Dev.bayAccepted_footprint (shaft := shaft) (level := level) (bank := bank) hoff op operand x
  rw [Dev.general_of_accepts shaft x hdriven hpowered hlevel hbank hop hoperand hcause, hexecute, hnotes]
  obtain ⟨m', p', hreport⟩ := ({ e.setShaft shaft Shaft.cleared with bayBanks := m, spent := p } : Dev).deliverReport_footprint
    (level := level) shaft
  rw [hreport]
  rfl

/-- The REFs sent to the first banks of a shelf that recovers. -/
def Dev.refsSent (d : Dev) (shaft level n : Nat) : Dev :=
  (List.range n).foldl (fun d k => d.general shaft level k 0x4 0 { down := 0, up := 0 }) d

theorem Dev.refsSent_succ (n : Nat) : d.refsSent shaft level (n + 1) =
    (d.refsSent shaft level n).general shaft level n 0x4 0 { down := 0, up := 0 } := by
  rw [Dev.refsSent, List.range_succ, List.foldl_append]
  rfl

/-- What the first REFs of a shelf leave: the banks they reached REFRESHING with OWED one lower, the others as they were. -/
structure Dev.Refreshed (d : Dev) (shaft level n : Nat) (t : Dev) : Prop where
  fields : t.fields = d.fields
  perf : t.perf = d.perf
  st : (t.shelf (shelfKey shaft level)).st = .recovering
  started : ∀ i < n, (t.bank (bankKey shaft level i)).st = .refreshing ∧
    t.owedOf (bankKey shaft level i) = max (-8) (d.owedOf (bankKey shaft level i) - 1)
  rest : ∀ i, n ≤ i → t.bank (bankKey shaft level i) = d.bank (bankKey shaft level i) ∧
    t.owedOf (bankKey shaft level i) = d.owedOf (bankKey shaft level i)

theorem Dev.refreshed_refsSent (hst : (d.shelf (shelfKey shaft level)).st = .recovering) (hdriven : d.shaftDriven shaft = true)
    (hpowered : d.portPowered shaft level = true) (hoff : d.countersOff = true) (hlevel : level < 17)
    (hidle : ∀ i < 16, (d.bank (bankKey shaft level i)).st = .idle) {n : Nat} (hn : n ≤ 16) :
    d.Refreshed shaft level n (d.refsSent shaft level n) := by
  induction n with
  | zero => exact ⟨rfl, rfl, hst, fun i hi => absurd hi (Nat.not_lt_zero i), fun i _ => ⟨rfl, rfl⟩⟩
  | succ n ih =>
    have ih := ih (Nat.le_of_succ_le hn)
    generalize hsent : d.refsSent shaft level n = t at ih
    obtain ⟨hfields, hperf, htst, hstarted, hrest⟩ := ih
    have hrd := fun f => Dev.rd_congr hfields f
    have htoff : t.countersOff = true := by rw [Dev.countersOff, hperf, ← Dev.countersOff, hoff]
    have htdriven : t.shaftDriven shaft = true := by rw [Dev.shaftDriven, hrd, ← Dev.shaftDriven, hdriven]
    have htpowered : t.portPowered shaft level = true := by
      rw [Dev.portPowered, Dev.domainOn, Dev.flag, hrd, hrd, ← Dev.flag, ← Dev.domainOn, ← Dev.portPowered, hpowered]
    have hcause : t.portCause shaft level (generalFields level n 0x4 0) = 0 :=
      Dev.portCause_ref_recovering htst (by rw [(hrest n (Nat.le_refl n)).1]; exact hidle n hn)
    have hport := Dev.general_samePort (x := {}) (e := t.refStarted shaft level n) (by rw [Dev.refStarted_countersOff, htoff]) htdriven
      htpowered hlevel hn (by decide) (by decide) hcause rfl
    have hcounters := Dev.general_perf (x := {}) (e := t.refStarted shaft level n) (by rw [Dev.refStarted_countersOff, htoff]) htdriven
      htpowered hlevel hn (by decide) (by decide) hcause rfl
    have hne : ∀ {i}, i ≠ n → bankKey shaft level i ≠ bankKey shaft level n := fun hi heq => hi (bankKey_injective _ _ heq)
    rw [Dev.refsSent_succ, hsent]
    refine ⟨?_, ?_, ?_, fun i hi => ?_, fun i hi => ?_⟩
    · rw [hport.fields, Dev.refStarted_fields, hfields]
    · rw [hcounters, Dev.refStarted_perf, hperf]
    · rw [hport.st, Dev.shelf, Dev.refStarted_shelves, ← Dev.shelf, htst]
    · rw [hport.bank_eq, hport.owedOf_eq]
      rcases Nat.lt_succ_iff_lt_or_eq.mp hi with hi | rfl
      · rw [Dev.bank_refStarted_ne (hne (Nat.ne_of_lt hi)), Dev.owedOf_refStarted_ne (hne (Nat.ne_of_lt hi))]
        exact hstarted i hi
      · rw [Dev.bank_refStarted_same, Dev.owedOf_refStarted, (hrest i (Nat.le_refl i)).2]
        exact ⟨rfl, rfl⟩
    · rw [hport.bank_eq, hport.owedOf_eq, Dev.bank_refStarted_ne (hne (by omega)), Dev.owedOf_refStarted_ne (hne (by omega))]
      exact hrest i (Nat.le_of_succ_le hi)

end Refs

section Commands

variable {s : State} {shaft : Fin 64} {level : Fin 17}

theorem exec_recoveringRefTimer_of_ne (h : (s.dev.shelf (shelfKey shaft level)).st ≠ .recovering) :
    exec (.recoveringRefTimer shaft level) s = .next s := by
  refine Eq.trans (b := execRecoveringRefTimer shaft level s) rfl ?_
  rw [execRecoveringRefTimer]
  exact State.next_of_same (if_neg h)

theorem exec_recoveringRefTimer (h : (s.dev.shelf (shelfKey shaft level)).st = .recovering) :
    exec (.recoveringRefTimer shaft level) s = .next (s.withDev fun d => d.refsSent shaft level 16) := by
  refine Eq.trans (b := execRecoveringRefTimer shaft level s) rfl ?_
  rw [execRecoveringRefTimer]
  exact State.next_congr (if_pos h)

theorem exec_stewardResetDone_of_not (readings : List SensorReading) (h : s.dev.rd (F.LEVEL_RESET_RECOVERING level) = 0) :
    exec (.stewardResetDone level readings) s = .next s := by
  refine Eq.trans (b := execStewardResetDone level readings s) rfl ?_
  rw [execStewardResetDone, if_pos (by simp [h])]

theorem exec_stewardResetDone (readings : List SensorReading) (h : s.dev.rd (F.LEVEL_RESET_RECOVERING level) ≠ 0) :
    exec (.stewardResetDone level readings) s =
      .next (((s.levelSample level readings).withDev fun d => d.stewardReady level).levelReopened level) := by
  refine Eq.trans (b := execStewardResetDone level readings s) rfl ?_
  rw [execStewardResetDone, if_neg (by simp [h])]

end Commands

/-! ## The end of a reset -/

/-- A shelf port READY again where it recovered, with its grant to be heard. -/
def Shelf.readied (p : Shelf) : Shelf := { p with st := if p.st = .recovering then .ready else p.st, grantChanged := true }

/-- A level's steward READY again, before its shelves are. -/
def Dev.stewardLoaded (d : Dev) (level : Nat) : Dev :=
  ({ d with localCount := SMap.insert level d.time d.localCount, hygroLast := SMap.put [] d.hygroLast level [] } : Dev).wrs
    [(F.LEVEL_RESET_REQ level, 0), (F.LEVEL_RESET_RECOVERING level, 0)]

section Ready

variable (d : Dev) (level : Nat)

theorem Dev.stewardReady_eq : d.stewardReady level =
    (List.range 64).foldl (fun d n => d.setShelf (shelfKey n level) Shelf.readied) (d.stewardLoaded level) := rfl

theorem Dev.stewardReady_footprint : ∃ m, d.stewardReady level = { d.stewardLoaded level with shelves := m } := by
  rw [Dev.stewardReady_eq]
  generalize d.stewardLoaded level = e
  refine List.foldlRecOn (List.range 64) _ (motive := fun t : Dev => ∃ m, t = { e with shelves := m }) ⟨e.shelves, rfl⟩ ?_
  rintro _ ⟨m, rfl⟩ n -
  exact ⟨_, rfl⟩

theorem Dev.rd_stewardReady (f : Field) : (d.stewardReady level).rd f = (d.stewardLoaded level).rd f := by
  obtain ⟨m, h⟩ := d.stewardReady_footprint level
  rw [h]
  rfl

theorem Dev.shelf_stewardReady {n : Nat} (hn : n < 64) :
    (d.stewardReady level).shelf (shelfKey n level) = (d.shelf (shelfKey n level)).readied := by
  rw [Dev.stewardReady_eq]
  exact foldl_view_of_mem (view := Dev.shelf) (key := fun n => shelfKey n level) (upd := fun _ => Shelf.readied)
    (fun e _ _ hj => Dev.shelf_setShelf_ne e hj _) (fun e _ => Dev.shelf_setShelf_same e _ _) (shelfKey_injective level) List.nodup_range _
    (List.mem_range.mpr hn)

end Ready

/-- Settles O17: a reset shelf by shelf, the REFs bank by bank, and the end from the registers and shelves it sets. -/
theorem stewardResetRecovers : Obligations.StewardResetRecovers := by
  intro s level
  refine ⟨⟨_, exec_levelStewardReset level s, ?_⟩, ?_, fun shaft => ⟨exec_recoveringRefTimer_of_ne, ?_⟩,
    fun readings => exec_stewardResetDone_of_not readings, fun readings => exec_stewardResetDone readings, fun d => ?_⟩
  · obtain ⟨m, p, hlevel⟩ := s.dev.recoverLevel_footprint level
    have hrd : ∀ f, (s.dev.recoverLevel level).rd f = s.dev.rd f := Dev.rd_congr (by rw [hlevel])
    have hview := fun n hn => Dev.shelfView_recoverLevel s.dev level (n := n) hn
    refine ⟨State.frame_of_keeps (f := fun d => (d.recoverLevel level).resetShown level) fun f hf => ?_, ?_, ?_, ?_, ?_, fun n hn => ?_,
      fun n hn hst i hi => ?_, fun n l i hl hi hne => ?_⟩
    · exact (Dev.keeps_resetShown _ _ f hf).trans (hrd f)
    · exact Dev.rd_resetShown_of_mem _ _ (by simp)
    · exact Dev.rd_resetShown_of_mem _ _ (by simp)
    · exact (Dev.rd_resetShown_resets _ _).trans (by rw [hrd])
    · rw [State.withDev_dev, Dev.raised_resetShown, hlevel]
    · rw [State.withDev_dev, Dev.shelf_resetShown]
      exact Dev.st_of_recoveredView (hview n hn)
    · rw [State.withDev_dev, Dev.bank_resetShown]
      exact Dev.idle_of_recoveredView (hview n hn) hst hi
    · rw [State.withDev_dev, Dev.bank_resetShown]
      exact Dev.bank_recoverLevel_of_ne s.dev level level.isLt hl hi hne
  · exact ⟨_, exec_levelResetReq level s, State.frame_of_keeps (Dev.keeps_wr List.mem_cons_self 1), Dev.rd_wr_same _ _ _⟩
  · intro hst hdriven hpowered hoff hidle
    have hsent := Dev.refreshed_refsSent hst hdriven hpowered hoff level.isLt hidle (Nat.le_refl 16)
    have hkeeps : s.dev.Keeps [] (s.dev.refsSent shaft level 16) := Dev.keeps_of_fields hsent.fields
    refine ⟨_, exec_recoveringRefTimer hst, State.frame_of_keeps (f := fun d => d.refsSent shaft level 16) hkeeps, ?_⟩
    rw [State.withDev_dev]
    exact hsent.started
  · refine ⟨?_, ?_, ?_, fun n hn hst => ?_⟩
    · rw [Dev.rd_stewardReady, Dev.stewardLoaded, Dev.wrs_cons, Dev.wrs_cons, Dev.wrs_nil, Dev.rd_wr_ne _ (resetReq_key_ne level), Dev.rd_wr_same]
      rfl
    · rw [Dev.rd_stewardReady, Dev.stewardLoaded, Dev.wrs_cons, Dev.wrs_cons, Dev.wrs_nil, Dev.rd_wr_same]
      rfl
    · obtain ⟨m, h⟩ := d.stewardReady_footprint level
      rw [h]
      exact SMap.get_insert_same _ _ _ _
    · rw [Dev.shelf_stewardReady d level hn]
      exact if_pos hst

end Sys2Proof.Machine
end

section
/-!
REGISTER_WRITE (R11, R477, R478): which address holds DEV_REASON, which a write borrows to learn of a refusal, and what a plain write leaves.
-/

namespace Sys2Proof.Machine

open Sys2Proof

/-! ## Where DEV_REASON.CODE lies -/

/-- The registers up to DEV_REASON. -/
def RegName.first : RegName → Bool
  | .DEV_ID | .DEV_CTL | .DEV_STATUS | .DEV_REASON => true
  | _ => false

/-- Every other register lies behind them: at its base, or its base and the offsets of one or two indices. -/
theorem RegName.addr_ge (r : RegName) (i j : Nat) (h : r.first = false) : ∀ f ∈ r.fields i j, 16 ≤ f.addr := by
  cases r
  all_goals simp only [RegName.fields, List.forall_mem_cons, List.not_mem_nil, false_imp_iff, implies_true, and_true]
  case DEV_ID | DEV_CTL | DEV_STATUS | DEV_REASON => exact absurd h (by decide)
  all_goals repeat' apply And.intro
  any_goals exact Nat.le_of_ble_eq_true rfl
  any_goals exact Nat.le_add_right_of_le (Nat.le_of_ble_eq_true rfl)
  all_goals exact Nat.le_add_right_of_le (Nat.le_add_right_of_le (Nat.le_of_ble_eq_true rfl))

/-- No other field of a register has the place of DEV_REASON.CODE. -/
theorem RegName.eq_reasonCode_of_key {r : RegName} {i j : Nat} {f : Field} (hf : f ∈ r.fields i j) (hkey : f.key = F.DEV_REASON_CODE.key) :
    f = F.DEV_REASON_CODE := by
  by_cases hfirst : r.first = true
  · cases r
    case DEV_ID => exact (show ∀ f ∈ RegName.DEV_ID.fields 0 0, f.key = F.DEV_REASON_CODE.key → f = F.DEV_REASON_CODE by decide) f hf hkey
    case DEV_CTL => exact (show ∀ f ∈ RegName.DEV_CTL.fields 0 0, f.key = F.DEV_REASON_CODE.key → f = F.DEV_REASON_CODE by decide) f hf hkey
    case DEV_STATUS => exact (show ∀ f ∈ RegName.DEV_STATUS.fields 0 0, f.key = F.DEV_REASON_CODE.key → f = F.DEV_REASON_CODE by decide) f hf hkey
    case DEV_REASON => exact (show ∀ f ∈ RegName.DEV_REASON.fields 0 0, f.key = F.DEV_REASON_CODE.key → f = F.DEV_REASON_CODE by decide) f hf hkey
    all_goals exact absurd hfirst Bool.false_ne_true
  · have haddr := RegName.addr_ge r i j (Bool.not_eq_true _ ▸ hfirst) f hf
    have hplace : f.addr * 32 + f.lo = 384 := hkey
    omega

/-! ## Writes that agree off one place -/

/-- A place reads what was put there, or its default, whatever stood there. -/
theorem SMap.get_put_place {α : Type} [DecidableEq α] (d e : α) (m : SMap α) (k : Nat) (v : α) :
    SMap.get d (SMap.put e m k v) k = if v = e then d else v := by
  unfold SMap.put
  split
  · exact SMap.get_erase_same _ _ _
  · exact SMap.get_insert_same _ _ _ _

/-- Two devices whose register fields agree at every place but one. -/
def Dev.AgreeOff (k : Nat) (d e : Dev) : Prop := ∀ (x : Nat) j, j ≠ k → SMap.get x e.fields j = SMap.get x d.fields j

section Agree

variable {k : Nat} {d e : Dev}

theorem Dev.AgreeOff.wr (h : d.AgreeOff k e) (f : Field) (n : Nat) : (d.wr f n).AgreeOff k (e.wr f n) := by
  intro x j hj
  by_cases hf : j = f.key
  · rw [hf, Dev.wr, Dev.wr, SMap.get_put_place, SMap.get_put_place]
  · rw [Dev.wr, Dev.wr, SMap.get_put_ne _ _ _ hf, SMap.get_put_ne _ _ _ hf, h x j hj]

theorem Dev.AgreeOff.writeField (h : d.AgreeOff k e) (v : Nat) (f : Field) : (d.writeField v f).AgreeOff k (e.writeField v f) := by
  unfold Dev.writeField
  split
  · exact h.wr f _
  · exact h.wr f _
  · split
    · exact h
    · exact h.wr f _
  · exact h

theorem Dev.AgreeOff.foldl_writeField (v : Nat) (l : List Field) (h : d.AgreeOff k e) :
    (l.foldl (Dev.writeField v) d).AgreeOff k (l.foldl (Dev.writeField v) e) := by
  induction l generalizing d e with
  | nil => exact h
  | cons f l ih => exact ih (h.writeField v f)

theorem Dev.AgreeOff.rd (h : d.AgreeOff k e) {f : Field} (hf : f.key ≠ k) : e.rd f = d.rd f := h f.reset f.key hf

end Agree

/-! ## A plain write -/

theorem Dev.keeps_writeField {l : List Field} {f : Field} (hf : f ∈ l) (v : Nat) (d : Dev) : d.Keeps l (d.writeField v f) := by
  unfold Dev.writeField
  split
  · exact Dev.keeps_wr hf _
  · exact Dev.keeps_wr hf _
  · split
    · exact Dev.Keeps.refl _ _
    · exact Dev.keeps_wr hf _
  · exact Dev.Keeps.refl _ _

theorem Dev.writePlain_eq (d : Dev) (r : RegName) (i j v : Nat) : d.writePlain r i j v = (r.fields i j).foldl (Dev.writeField v) d := by
  rw [Dev.writePlain, Dev.writeBut, show (r.fields i j).filter (fun f => !([] : List Field).contains f) = r.fields i j from
    List.filter_eq_self.mpr fun _ _ => rfl]

theorem Dev.keeps_writePlain (d : Dev) (r : RegName) (i j v : Nat) : d.Keeps (r.fields i j) (d.writePlain r i j v) := by
  rw [Dev.writePlain_eq]
  exact Dev.keeps_foldl _ (fun e f hf => Dev.keeps_writeField hf v e) d

/-- DEV_REASON.CODE is read only, and no other field has its place: a plain write leaves it. -/
theorem Dev.rd_writePlain_reasonCode (d : Dev) (r : RegName) (i j v : Nat) :
    (d.writePlain r i j v).rd F.DEV_REASON_CODE = d.rd F.DEV_REASON_CODE := by
  rw [Dev.writePlain_eq]
  refine List.foldlRecOn _ _ (motive := fun e : Dev => e.rd F.DEV_REASON_CODE = d.rd F.DEV_REASON_CODE) rfl fun e he f hf => ?_
  by_cases hkey : f.key = F.DEV_REASON_CODE.key
  · rw [RegName.eq_reasonCode_of_key hf hkey]
    exact he
  · exact (Dev.keeps_writeField (List.mem_singleton_self f) v e _ fun hmem => hkey (List.mem_singleton.mp hmem).symm).trans he

/-- A register whose writes are those of its fields. -/
theorem State.writeReg_of_takesPlain {r : RegName} (h : r.takesPlain = true) (s : State) (mbox : State → State) (i j v : Nat) :
    s.writeReg mbox r i j v = s.withDev fun d => d.writePlain r i j v := by
  cases r
  case DEV_CTL | DEV_LAYOUT | DEV_KEEPER | CAT_RESERVE | DEV_REG | DEV_START_CFG | SPARE_CTL | EVAC_CTL | DEV_MBOX_CTL | POWER_CTL |
      POWER_WAKE_CFG | CLK_REF_CTL | CLK_HP3_CTL | THERM_LEVEL | FAULT_STATUS | FAULT_CLEAR | SAFE_CTL | FAULT_TYPE_CFG | TEST_SLICE |
      INVENTORY_CTL | PERF_SEL | PERF_FILTER | PERF_VALUE_LO | PERF_VALUE_HI | PERF_CTL | TRACE_CTL | LEDGER_RD_CTL | PORT_CTL |
      PORT_BIND | INJ_CTL | INJ_UNLOCK | SHAFT_CTL | LEVEL_RESET | FOOT_TAP_GATE | ALLOW_CTL | ALLOW_BG | ALLOW_URGENCY | MISS_CFG |
      CAT_CMD | RESHELVE_CMD | HOUSE_RING_BASE_LO | HOUSE_RING_BASE_HI | HOUSE_RING_CTL | HOUSE_LINK | SEAL_CMD | SEAL_CTL | COLL_CTL |
      COLL_DIM | COLL_CFG | COLL_CAT | RR_FLUSH_CTL | PATRON_CTL | PATRON_GROUP | PATRON_ROOT | PATRON_HOST_LINK | RING_BASE_LO |
      RING_BASE_HI | RING_CTL | BELL_ADDR_LO | BELL_ADDR_HI | INT_ADDR_LO | INT_ADDR_HI | INT_DATA =>
    exact absurd h Bool.false_ne_true
  all_goals rfl

/-- DEV_REASON.CODE set aside while a write is done. -/
def Dev.setReason (d : Dev) (n : Nat) : Dev := { d with fields := SMap.put F.DEV_REASON_CODE.reset d.fields F.DEV_REASON_CODE.key n }

theorem Dev.agreeOff_setReason (d : Dev) (n : Nat) : d.AgreeOff F.DEV_REASON_CODE.key (d.setReason n) := fun _ _ hj => SMap.get_put_ne _ _ _ hj _

theorem Dev.rd_setReason (d : Dev) (n : Nat) : (d.setReason n).rd F.DEV_REASON_CODE = n := SMap.get_put_same _ _ _ _

section Commands

variable {s : State} {addr : Word} (value : Word)

/-- A write to a register that its path may write: DEV_REASON.CODE is set aside for it, and put back where no check changed it. -/
theorem State.writeWith_of_allowed (mbox : State → State) (hsome : (regAt addr).isSome = true) (h : s.reserved addr = false) (v : Nat) :
    s.writeWith false mbox addr v =
      let t := (s.withDev fun d => d.setReason 256).writeAddr mbox addr v
      if t.dev.rd F.DEV_REASON_CODE = 256 then (.done 0, t.withDev fun d => d.setReason (s.dev.rd F.DEV_REASON_CODE))
      else (.done (t.dev.rd F.DEV_REASON_CODE), t) := by
  rw [State.writeWith, if_neg (by simp [Option.isSome_iff_ne_none.mp hsome]), if_neg (by simp [h])]
  rfl

theorem exec_registerWrite_mailbox (s : State) (addr value : Word) :
    exec (.registerWrite .mailbox addr value) s = .next (s.writeWith false id addr value.toNat).2 := rfl

theorem exec_registerWrite_of_none (h : regAt addr = none) : exec (.registerWrite .mailbox addr value) s = .next s := by
  rw [exec_registerWrite_mailbox, State.writeWith, if_pos (by rw [h]; rfl)]

theorem exec_registerWrite_of_reserved (hsome : (regAt addr).isSome = true) (h : s.reserved addr = true) :
    exec (.registerWrite .mailbox addr value) s = .next (s.withDev fun d => d.bump F.FOOT_I3C_STATUS_DENIED) := by
  rw [exec_registerWrite_mailbox, State.writeWith, if_neg (by simp [Option.isSome_iff_ne_none.mp hsome]), if_pos ⟨by simp, h⟩]

theorem exec_registerWrite_of_plain {r : RegName} {i j : Nat} (hreg : regAt addr = some (r, i, j)) (h : s.reserved addr = false)
    (habsent : s.absentAt addr.toNat = false) (hplain : r.takesPlain = true) : exec (.registerWrite .mailbox addr value) s =
      .next (s.withDev fun d => ((d.setReason 256).writePlain r i j value.toNat).setReason (d.rd F.DEV_REASON_CODE)) := by
  have haddr : (s.withDev fun d => d.setReason 256).writeAddr id addr value.toNat =
      s.withDev fun d => (d.setReason 256).writePlain r i j value.toNat := by
    have hthere : (s.withDev fun d => d.setReason 256).absentAt addr.toNat = false := habsent
    rw [State.writeAddr, hreg]
    dsimp only
    rw [hthere, if_neg Bool.false_ne_true, State.writeReg_of_takesPlain hplain]
    rfl
  have hsame : (s.withDev fun d => (d.setReason 256).writePlain r i j value.toNat).dev.rd F.DEV_REASON_CODE = 256 := by
    rw [State.withDev_dev, Dev.rd_writePlain_reasonCode, Dev.rd_setReason]
  rw [exec_registerWrite_mailbox, State.writeWith_of_allowed _ (by rw [hreg]; rfl) h, haddr]
  dsimp only
  rw [if_pos hsame]
  rfl

end Commands

/-- Settles O19: no register, a refused path, or a plain write between two changes of DEV_REASON.CODE that leave it as it was. -/
theorem registerWriteCompletes : Obligations.RegisterWriteCompletes := by
  intro s addr value
  refine ⟨exec_registerWrite_of_none value, fun hsome h => ?_, fun r i j hreg h habsent hplain => ?_⟩
  · exact ⟨_, exec_registerWrite_of_reserved value hsome h, State.frame_of_keeps (Dev.keeps_bump List.mem_cons_self), Dev.rd_bump_same _ _⟩
  · refine ⟨_, exec_registerWrite_of_plain value hreg h habsent hplain, State.frame_of_keeps fun f hf => ?_, Dev.rd_setReason _ _,
      fun f hf => ?_⟩
    · rw [List.map_cons, List.mem_cons, not_or] at hf
      obtain ⟨hreason, hfields⟩ := hf
      rw [(Dev.agreeOff_setReason _ _).rd hreason, Dev.keeps_writePlain _ _ _ _ _ f hfields, (Dev.agreeOff_setReason _ _).rd hreason]
    · by_cases hkey : f.key = F.DEV_REASON_CODE.key
      · rw [RegName.eq_reasonCode_of_key hf hkey, Dev.rd_writePlain_reasonCode]
        exact Dev.rd_setReason _ _
      · have hagree := (Dev.agreeOff_setReason s.dev 256).foldl_writeField value.toNat (r.fields i j)
        rw [← Dev.writePlain_eq, ← Dev.writePlain_eq] at hagree
        exact ((Dev.agreeOff_setReason _ _).rd hkey).trans (hagree.rd hkey)

end Sys2Proof.Machine
end

section
/-!
Twin bays (R38, R40): the registers of a takeover and of a hand-back, and the end of a drain where nothing waits.
-/

namespace Sys2Proof.Machine

open Sys2Proof

theorem twinOf_ne (b : Nat) : twinOf b ≠ b := by
  unfold twinOf
  split <;> omega

/-! ## Takeover and hand-back -/

/-- The registers of a takeover. -/
def takeoverWrites (bay cause : Nat) : List (Field × Nat) :=
  [(F.TWIN_STATUS_MODE bay, 1), (F.TWIN_STATUS_CAUSE bay, cause), (F.TWIN_STATUS_SWITCHING bay, 1), (F.TWIN_STATUS_MODE (twinOf bay), 2)]

/-- The registers of a hand-back. -/
def handbackWrites (bay : Nat) : List (Field × Nat) :=
  [(F.TWIN_STATUS_MODE bay, 0), (F.TWIN_STATUS_CAUSE bay, 0), (F.TWIN_STATUS_SWITCHING bay, 1), (F.TWIN_STATUS_MODE (twinOf bay), 0)]

theorem twinKeys_nodup (bay : Nat) : ([F.TWIN_STATUS_MODE bay, F.TWIN_STATUS_CAUSE bay, F.TWIN_STATUS_SWITCHING bay,
    F.TWIN_STATUS_MODE (twinOf bay), F.TWIN_STATUS_TAKEOVERS bay].map Field.key).Nodup := by
  have hne := twinOf_ne bay
  simp [Field.key, F.TWIN_STATUS_MODE, F.TWIN_STATUS_CAUSE, F.TWIN_STATUS_SWITCHING, F.TWIN_STATUS_TAKEOVERS]
  omega

theorem takeoverKeys_nodup (bay cause : Nat) : (((takeoverWrites bay cause).map Prod.fst).map Field.key).Nodup :=
  (twinKeys_nodup bay).sublist (by simp [takeoverWrites])

theorem handbackKeys_nodup (bay : Nat) : (((handbackWrites bay).map Prod.fst).map Field.key).Nodup :=
  (twinKeys_nodup bay).sublist (by simp [handbackWrites])

/-- The end of a takeover for gating or a spot check: its registers, and the feasibility check asked for. -/
def Dev.takenOver (d : Dev) (bay cause : Nat) : Dev :=
  { (d.wrs (takeoverWrites bay cause)).bump (F.TWIN_STATUS_TAKEOVERS bay) with recheck := true }

/-- The end of a hand-back. -/
def Dev.handedBack (d : Dev) (bay : Nat) : Dev := { d.wrs (handbackWrites bay) with recheck := true }

theorem Dev.rd_takenOver (d : Dev) {bay cause : Nat} {f : Field} {v : Nat} (hf : (f, v) ∈ takeoverWrites bay cause) :
    (d.takenOver bay cause).rd f = v % 2 ^ f.width := by
  have hne : f.key ≠ (F.TWIN_STATUS_TAKEOVERS bay).key := by
    have hmem : f ∈ (takeoverWrites bay cause).map Prod.fst := List.mem_map_of_mem (f := Prod.fst) hf
    have hall : (((takeoverWrites bay cause).map Prod.fst).map Field.key ++ [(F.TWIN_STATUS_TAKEOVERS bay).key]).Nodup := twinKeys_nodup bay
    obtain ⟨-, -, hdisjoint⟩ := List.nodup_append.mp hall
    exact hdisjoint _ (List.mem_map_of_mem hmem) _ (List.mem_singleton_self _)
  exact (Dev.rd_bump_ne _ hne).trans (Dev.rd_wrs_of_mem d (takeoverKeys_nodup bay cause) hf)

theorem Dev.rd_handedBack (d : Dev) {bay : Nat} {f : Field} {v : Nat} (hf : (f, v) ∈ handbackWrites bay) :
    (d.handedBack bay).rd f = v % 2 ^ f.width := Dev.rd_wrs_of_mem d (handbackKeys_nodup bay) hf

section Commands

variable {s : State} {bay : Fin 64}

theorem exec_twinTakeover {cause : TakeoverCause} (lost : List Nat) (hcause : cause ≠ .contained) (hbay : s.dev.rd (F.TWIN_STATUS_MODE bay) = 0)
    (htwin : s.dev.rd (F.TWIN_STATUS_MODE (twinOf bay)) = 0) : ∃ e : State,
      exec (.twinTakeover bay cause lost) s = .next (e.withDev fun d => d.takenOver bay (takeoverCode cause)) := by
  refine ⟨(s.drainOrder bay 32).drainShaft bay bay, Eq.trans (b := execTwinTakeover bay cause lost s) rfl ?_⟩
  rw [execTwinTakeover, if_neg hcause, if_pos ⟨hbay, htwin⟩, State.takeover]
  have hcode : takeoverCode cause ≠ 3 := by
    cases cause with
    | gated | spotCheck => decide
    | contained => exact absurd rfl hcause
  dsimp only
  rw [if_neg hcode, if_neg hcode]
  rfl

theorem exec_twinTakeover_of_not {cause : TakeoverCause} (lost : List Nat) (hcause : cause ≠ .contained)
    (h : s.dev.rd (F.TWIN_STATUS_MODE bay) ≠ 0 ∨ s.dev.rd (F.TWIN_STATUS_MODE (twinOf bay)) ≠ 0) :
    exec (.twinTakeover bay cause lost) s = .next s := by
  refine Eq.trans (b := execTwinTakeover bay cause lost s) rfl ?_
  rw [execTwinTakeover, if_neg hcause, if_neg fun hboth => h.elim (absurd hboth.1) (absurd hboth.2)]

theorem exec_twinTakeover_contained (lost : List Nat) : exec (.twinTakeover bay .contained lost) s = .next (s.contain bay lost) := rfl

theorem exec_twinHandback (hmode : s.dev.rd (F.TWIN_STATUS_MODE bay) = 1) (hon : s.dev.domainOn (Dom.bay bay) = true)
    (hthere : s.dev.withdrawnBays.contains bay.val = false) (hrescue : s.dev.rescue.contains bay.val = false) :
    ∃ e : State, exec (.twinHandback bay) s = .next (e.withDev fun d => d.handedBack bay) := by
  refine ⟨(s.drainOrder bay 32).drainShaft (twinOf bay) bay, Eq.trans (b := execTwinHandback bay s) rfl ?_⟩
  rw [execTwinHandback, if_pos ⟨hmode, hon, by rw [hthere]; exact Bool.false_ne_true, by rw [hrescue]; exact Bool.false_ne_true⟩, State.handback]
  rfl

theorem exec_twinHandback_of_not (h : s.dev.rd (F.TWIN_STATUS_MODE bay) ≠ 1) : exec (.twinHandback bay) s = .next s := by
  refine Eq.trans (b := execTwinHandback bay s) rfl ?_
  rw [execTwinHandback, if_neg fun hall => h hall.1]

end Commands

/-! ## Where nothing waits -/

/-- Nothing waits at the device for its turn. -/
theorem Dev.quiet_iff {d : Dev} : d.quiet = true ↔ d.held = [] ∧ d.mergeWaits = [] ∧ d.flushWait = [] ∧ d.fences = [] := by
  simp [Dev.quiet, and_assoc]

section Quiet

variable {s : State}

theorem State.pumpMerge_of_empty (h : s.dev.mergeWaits = []) (shaft : Nat) : s.pumpMerge shaft = s := by
  have hput : SMap.put [] s.dev.mergeWaits shaft [] = s.dev.mergeWaits := by
    rw [h]
    rfl
  have hnone : SMap.get [] s.dev.mergeWaits shaft = [] := by
    rw [h]
    rfl
  rw [State.pumpMerge, hnone]
  exact State.withDev_eq_self (congrArg (fun m => { s.dev with mergeWaits := m }) hput)

theorem State.pumpFlush_of_empty (h : s.dev.flushWait = []) : s.pumpFlush = s := by
  rw [State.pumpFlush, h]
  exact ite_self _

theorem Dev.pumpFences_of_empty {d : Dev} (h : d.fences = []) : d.pumpFences = d := by
  have hnone : ∀ p : FenceReq → Bool, d.fences.filter p = [] := fun p => by rw [h, List.filter_nil]
  rw [Dev.pumpFences, hnone, hnone]
  exact congrArg (fun l => { d with fences := l }) h.symm

theorem State.releaseAll_of_empty (hheld : s.dev.held = []) (hfences : s.dev.fences = []) (f : Hold → Bool) : s.releaseAll f = s := by
  have hnone : ∀ p : Held → Bool, s.dev.held.filter p = [] := fun p => by rw [hheld, List.filter_nil]
  have hrelease : s.release f = s := by
    rw [State.release, hnone]
    exact State.withDev_eq_self ((congrArg (fun l => { s.dev with held := l }) (hnone _)).trans
      (congrArg (fun l => { s.dev with held := l }) hheld.symm))
  rw [State.releaseAll, hrelease, hheld]
  exact State.withDev_eq_self (Dev.pumpFences_of_empty hfences)

/-- Where nothing waits, a shaft that can be reached again lets nothing go on. -/
theorem State.goOn_of_quiet (h : s.dev.quiet = true) (shaft : Nat) (f : Hold → Bool) : ((s.pumpMerge shaft).pumpFlush).releaseAll f = s := by
  obtain ⟨hheld, hwaits, hflush, hfences⟩ := Dev.quiet_iff.mp h
  rw [State.pumpMerge_of_empty hwaits, State.pumpFlush_of_empty hflush, State.releaseAll_of_empty hheld hfences]

theorem State.switchDone_of_quiet (h : s.dev.quiet = true) (shaft : Nat) :
    s.switchDone shaft = s.withDev fun d => d.wr (F.TWIN_STATUS_SWITCHING shaft) 0 :=
  State.goOn_of_quiet (s := s.withDev fun d => d.wr (F.TWIN_STATUS_SWITCHING shaft) 0) h shaft _

end Quiet

theorem exec_takeoverDrainComplete_of_not {s : State} {bay : Fin 64} (h : s.dev.rd (F.TWIN_STATUS_SWITCHING bay) = 0 ∨
    s.dev.rescue.contains (twinOf bay) = true) : exec (.takeoverDrainComplete bay) s = .next s := by
  refine Eq.trans (b := execTakeoverDrainComplete bay s) rfl ?_
  rw [execTakeoverDrainComplete, if_pos]
  rw [Dev.flag_eq]
  simp only [decide_eq_true_eq]
  exact h.imp not_not_intro Or.inr

/-- The end of a drain where nothing waits for the shaft. -/
theorem exec_takeoverDrainComplete {s : State} {bay : Fin 64} (hswitching : s.dev.rd (F.TWIN_STATUS_SWITCHING bay) ≠ 0)
    (hbay : s.dev.rescue.contains bay.val = false) (htwin : s.dev.rescue.contains (twinOf bay) = false)
    (hmerge : s.dev.mergeFor (if s.dev.rd (F.TWIN_STATUS_MODE bay) = 1 then bay.val else twinOf bay) bay = []) (hquiet : s.dev.quiet = true) :
    exec (.takeoverDrainComplete bay) s = .next (s.withDev fun d => d.wr (F.TWIN_STATUS_SWITCHING bay) 0) := by
  refine Eq.trans (b := execTakeoverDrainComplete bay s) rfl ?_
  rw [execTakeoverDrainComplete, if_neg (by rw [hbay, htwin]; simpa using hswitching)]
  dsimp only
  rw [State.drainShaft, hmerge, List.foldl_nil, if_pos hmerge, State.switchDone_of_quiet hquiet]

/-- Settles O22: the registers are set after whatever drains, and an empty drain ends with SWITCHING alone. -/
theorem twinBaysSwitch : Obligations.TwinBaysSwitch := by
  refine ⟨fun s bay lost => ?_, fun s bay => ⟨fun h => ?_, fun h => ?_, fun hswitching hbay htwin hmerge hquiet => ?_⟩⟩
  · refine ⟨fun cause hcause hbay htwin => ?_, fun cause hcause h => exec_twinTakeover_of_not lost hcause h, exec_twinTakeover_contained lost,
      fun hmode hon hthere hrescue => ?_, exec_twinHandback_of_not⟩
    · obtain ⟨e, hexec⟩ := exec_twinTakeover lost hcause hbay htwin
      have hrd := fun f v hf => Dev.rd_takenOver e.dev (bay := bay) (cause := takeoverCode cause) (f := f) (v := v) hf
      refine ⟨_, hexec, hrd _ 1 (by simp [takeoverWrites]), hrd _ 2 (by simp [takeoverWrites]),
        (hrd _ (takeoverCode cause) (by simp [takeoverWrites])).trans ?_, hrd _ 1 (by simp [takeoverWrites]), rfl⟩
      cases cause with
      | gated | spotCheck => rfl
      | contained => exact absurd rfl hcause
    · obtain ⟨e, hexec⟩ := exec_twinHandback hmode hon hthere hrescue
      have hrd := fun f v hf => Dev.rd_handedBack e.dev (bay := bay) (f := f) (v := v) hf
      exact ⟨_, hexec, hrd _ 0 (by simp [handbackWrites]), hrd _ 0 (by simp [handbackWrites]), hrd _ 0 (by simp [handbackWrites]),
        hrd _ 1 (by simp [handbackWrites]), rfl⟩
  · exact exec_takeoverDrainComplete_of_not (.inl h)
  · exact exec_takeoverDrainComplete_of_not (.inr h)
  · exact ⟨_, exec_takeoverDrainComplete hswitching hbay htwin hmerge hquiet, State.frame_of_keeps (Dev.keeps_wr List.mem_cons_self 0),
      Dev.rd_wr_same _ _ _⟩

end Sys2Proof.Machine
end

section
/-!
The flush of the reading room, the merge buffer's commands, and the shelf-reading deadline (R52, R142, R143, R145, R156).
-/

namespace Sys2Proof.Machine

open Sys2Proof

/-! ## A flush ordered -/

/-- The fields of RR_FLUSH_CTL as a write orders them. -/
def flushOrder (v : Nat) : List (Field × Nat) :=
  [(F.RR_FLUSH_CTL_INVALIDATE, v / 2), (F.RR_FLUSH_CTL_SCOPE, v / 4), (F.RR_FLUSH_CTL_SLICE, v / 16), (F.RR_FLUSH_CTL_GROUP, v / 256)]

/-- The registers of a flush that runs, and of one that is done. -/
def flushRuns : List (Field × Nat) := [(F.RR_FLUSH_STATUS_BUSY, 1), (F.RR_FLUSH_CTL_START, 1), (F.RR_FLUSH_STATUS_LINES_WRITTEN, 0)]
def flushEnds : List (Field × Nat) := [(F.RR_FLUSH_STATUS_BUSY, 0), (F.RR_FLUSH_CTL_START, 0), (F.RR_FLUSH_STATUS_DONE, 1)]

/-- The fields that a flush may change. -/
def flushFields : List Field := [F.RR_FLUSH_CTL_INVALIDATE, F.RR_FLUSH_CTL_SCOPE, F.RR_FLUSH_CTL_SLICE, F.RR_FLUSH_CTL_GROUP,
  F.RR_FLUSH_CTL_START, F.RR_FLUSH_STATUS_BUSY, F.RR_FLUSH_STATUS_DONE, F.RR_FLUSH_STATUS_LINES_WRITTEN]

/-- The room after the clean lines in scope are dropped where INVALIDATE is set. -/
def FlushScope.kept (f : FlushScope) (room : SMap RoomLine) : SMap RoomLine :=
  if f.invalidate then room.filter (fun kl => !(f.covers kl.1 kl.2 && kl.2.st = .clean)) else room

/-- The dirty lines in scope. -/
def FlushScope.dirty (f : FlushScope) (room : SMap RoomLine) : List Nat :=
  (room.filter (fun kl => f.covers kl.1 kl.2 && kl.2.st ≠ .clean)).map (·.2.tag)

theorem FlushScope.dirty_eq (f : FlushScope) (room : SMap RoomLine) :
    ((room.filter (fun kl => f.covers kl.1 kl.2)).filter (fun kl => kl.2.st ≠ .clean)).map (·.2.tag) = f.dirty room := by
  rw [FlushScope.dirty, List.filter_filter]
  simp only [Bool.and_comm]

/-- A flush begun. -/
def Dev.flushBegun (d : Dev) (f : FlushScope) : Dev := { ({ d with flushScope := f } : Dev).wrs flushRuns with room := f.kept d.room }

theorem Dev.flushBegun_eq (d : Dev) (f : FlushScope) :
    (let e := ({ d with flushScope := f } : Dev).wrs flushRuns
     if f.invalidate then { e with room := e.room.filter (fun kl => !(f.covers kl.1 kl.2 && kl.2.st = .clean)) } else e) = d.flushBegun f := by
  rw [Dev.flushBegun, FlushScope.kept]
  split <;> rfl

section Flush

variable {s : State} (f : FlushScope)

theorem State.flush_of_clean (h : f.dirty s.dev.room = []) : s.flush f = s.withDev fun d => (d.flushBegun f).wrs flushEnds := by
  have hbegun := Dev.flushBegun_eq s.dev f
  unfold State.flush
  dsimp only at hbegun ⊢
  rw [FlushScope.dirty_eq, if_pos h]
  exact congrArg (fun e : Dev => { s with dev := e.wrs flushEnds }) hbegun

theorem State.flush_of_safe (h : f.dirty s.dev.room ≠ []) (hsafe : s.dev.rd F.SAFE_STATUS_ACTIVE ≠ 0) :
    s.flush f = s.withDev fun d => { d.flushBegun f with flushWait := f.dirty d.room } := by
  have hbegun := Dev.flushBegun_eq s.dev f
  have hstays : ((s.dev.flushBegun f).flag F.SAFE_STATUS_ACTIVE) = true := by
    have hrd : (s.dev.flushBegun f).rd F.SAFE_STATUS_ACTIVE = s.dev.rd F.SAFE_STATUS_ACTIVE :=
      Dev.rd_wrs_of_not_mem (l := flushRuns) { s.dev with flushScope := f } (by decide)
    rw [Dev.flag, hrd]
    exact decide_eq_true hsafe
  unfold State.flush
  dsimp only at hbegun ⊢
  rw [FlushScope.dirty_eq, if_neg h]
  refine (congrArg (fun e : Dev => State.pumpFlush { s with dev := { e with flushWait := f.dirty s.dev.room } }) hbegun).trans ?_
  rw [State.pumpFlush]
  exact if_pos hstays

end Flush

/-- The device with the order of a flush written. -/
def Dev.flushOrdered (d : Dev) (v : Nat) : Dev := d.wrs (flushOrder v)

section FlushStart

variable {s : State} {value : Word}

theorem exec_rrFlushStart_of_busy (h : s.dev.flushing = true ∨ s.dev.disableFlush.isSome = true) :
    exec (.rrFlushStart value) s = .next s := by
  refine Eq.trans (b := execRrFlushStart value s) rfl ?_
  rw [execRrFlushStart, State.flushStart, if_pos h]

theorem exec_rrFlushStart (hidle : s.dev.flushing = false) (hnone : s.dev.disableFlush = none) : exec (.rrFlushStart value) s =
    .next ((s.withDev fun d => d.flushOrdered value.toNat).flush (s.dev.flushOrdered value.toNat).scopeSet) := by
  refine Eq.trans (b := execRrFlushStart value s) rfl ?_
  rw [execRrFlushStart, State.flushStart, if_neg (by rw [hidle, hnone]; simp)]
  rfl

theorem Dev.flushOrdered_room (d : Dev) (v : Nat) : (d.flushOrdered v).room = d.room := Dev.wrs_kept Dev.room (fun _ _ => rfl) _ _

theorem Dev.keeps_flushOrdered (d : Dev) (v : Nat) : d.Keeps flushFields (d.flushOrdered v) := Dev.keeps_wrs (by simp [flushOrder, flushFields])

theorem Dev.keeps_flushBegun (d : Dev) (f : FlushScope) : d.Keeps flushFields (d.flushBegun f) :=
  Dev.Keeps.trans (e := { d with flushScope := f }) (Dev.keeps_of_fields rfl)
    (Dev.Keeps.trans (e := ({ d with flushScope := f } : Dev).wrs flushRuns) (Dev.keeps_wrs (by decide)) (Dev.keeps_of_fields rfl))

theorem Dev.rd_flushBegun (d : Dev) (f : FlushScope) {g : Field} {v : Nat} (hg : (g, v) ∈ flushRuns) :
    (d.flushBegun f).rd g = v % 2 ^ g.width := Dev.rd_wrs_of_mem (l := flushRuns) { d with flushScope := f } (by decide) hg

theorem Dev.rd_flushWaiting (d : Dev) (l : List Nat) (g : Field) : ({ d with flushWait := l } : Dev).rd g = d.rd g := rfl

end FlushStart

/-! ## Writes to the merge buffer -/

/-- A write that waits at the wing for its shaft. -/
def Dev.mergeWaiting (d : Dev) (n : Nat) (r : MergeReq) : Dev :=
  { d with mergeWaits := SMap.put [] d.mergeWaits n (SMap.get [] d.mergeWaits n ++ [r]) }

/-- The entry of a full write that no entry held. -/
def fullEntry (r : MergeReq) (loc born : Nat) : MergeEntry :=
  { loc := loc, dpaLine := r.dpaLine.toNat, data := r.data, mask := r.mask, poison := r.poison, cls := r.cls, grp := r.grp, st := .held,
    born := born, room := false }

theorem Dev.mergeOf_setMerge (d : Dev) (bay : Nat) (l : List MergeEntry) : (d.setMerge bay l).mergeOf bay = l := SMap.get_put_same _ _ _ _

theorem Dev.keeps_setMerge (d : Dev) (bay : Nat) (l : List MergeEntry) : d.Keeps [F.MERGE_STATUS_OCCUPANCY bay] (d.setMerge bay l) :=
  Dev.Keeps.trans (e := { d with merge := SMap.put [] d.merge bay l }) (Dev.keeps_of_fields rfl) (Dev.keeps_wr List.mem_cons_self _)

/-- Without write-backs at a bay a write overtakes none. -/
theorem Dev.supersede_of_empty {d : Dev} {bay : Nat} (h : SMap.get [] d.writebacks bay = []) (loc : Nat) :
    d.supersede bay loc = { d with writebacks := SMap.put [] d.writebacks bay [] } := by
  rw [Dev.supersede, h]
  rfl

/-- Below 48 entries, with a window, an entry stays HELD. -/
theorem Dev.mergeIssue_of_gathers {d : Dev} {bay : Nat} (hgather : d.rd F.INTEG_CTL_GATHER ≠ 0) (hroom : (d.mergeOf bay).length < 48) :
    d.mergeIssue bay = d := by
  unfold Dev.mergeIssue
  dsimp only
  rw [if_neg hgather, if_neg (Nat.not_le.mpr hroom)]
  exact ite_self d

theorem gather_key_not_mem (bay : Nat) : F.INTEG_CTL_GATHER.key ∉ [F.MERGE_STATUS_OCCUPANCY bay].map Field.key := by
  simp [Field.key, F.INTEG_CTL_GATHER, F.MERGE_STATUS_OCCUPANCY]
  omega

section Merge

variable {s : State} {write : MergeReq} {loc : Nat}

theorem exec_mergeWrite_of_waits (h : s.dev.rd (F.TWIN_STATUS_SWITCHING (s.shaftOf (write.dpaLine.toNat * 64))) ≠ 0 ∨
    s.dev.rd F.SAFE_STATUS_ACTIVE ≠ 0) : exec (.mergeWrite write) s =
      .next (s.withDev fun d => d.mergeWaiting (s.shaftOf (write.dpaLine.toNat * 64)) write) := by
  refine Eq.trans (b := execMergeWrite write s) rfl ?_
  rw [execMergeWrite, State.mergeRequest, if_pos (by simpa using h)]
  rfl

/-- A full write of a line that no entry holds takes a place of its own. -/
theorem State.mergeWrite_of_new {bay dpaLine : Nat} {mask : BitVec 64} (hback : SMap.get [] s.dev.writebacks bay = [])
    (hnone : (s.dev.mergeOf bay).any (fun e => e.loc = loc && e.st ≠ .issued) = false) (hroom : (s.dev.mergeOf bay).length < 47)
    (hgather : s.dev.rd F.INTEG_CTL_GATHER ≠ 0) (hmask : mask = fullMask) (data : LineData) (poison room : Bool) (cls grp : Nat)
    (wire : CodeWord) : s.mergeWrite bay loc dpaLine data mask poison room cls grp wire =
      (.done, s.withDev fun d => ({ d with writebacks := SMap.put [] d.writebacks bay [] } : Dev).setMerge bay
        (d.mergeOf bay ++ [{ loc := loc, dpaLine := dpaLine, data := data, mask := mask, poison := poison, cls := cls, grp := grp, st := .held,
                             born := d.time, room := room }])) := by
  have hfind : (s.dev.mergeOf bay).find? (fun e => e.loc = loc && e.st ≠ .issued) = none := by
    rw [List.find?_eq_none]
    exact fun e he hhit => absurd (List.any_eq_true.mpr ⟨e, he, hhit⟩) (by rw [hnone]; exact Bool.false_ne_true)
  have hsuper : (s.withDev fun d => d.supersede bay loc) = s.withDev fun d => { d with writebacks := SMap.put [] d.writebacks bay [] } := by
    rw [State.withDev, Dev.supersede_of_empty hback, State.withDev]
  unfold State.mergeWrite
  rw [hsuper]
  generalize hcleared : (s.withDev fun d => { d with writebacks := SMap.put [] d.writebacks bay [] }) = e
  have hmerge : e.dev.mergeOf bay = s.dev.mergeOf bay := hcleared ▸ rfl
  have htime : e.dev.time = s.dev.time := hcleared ▸ rfl
  have hwindow : e.dev.rd F.INTEG_CTL_GATHER ≠ 0 := hcleared ▸ hgather
  simp only [hmerge, hfind]
  have hplaces : ¬ 64 ≤ (s.dev.mergeOf bay).length := by omega
  rw [if_neg hplaces, if_pos hmask, htime]
  refine Prod.ext rfl ?_
  have hissue : ∀ x, (e.dev.setMerge bay (s.dev.mergeOf bay ++ [x])).mergeIssue bay = e.dev.setMerge bay (s.dev.mergeOf bay ++ [x]) := by
    intro x
    refine Dev.mergeIssue_of_gathers ?_ ?_
    · rw [Dev.keeps_setMerge _ _ _ _ (gather_key_not_mem bay)]
      exact hwindow
    · rw [Dev.mergeOf_setMerge, List.length_append, List.length_singleton]
      omega
  rw [State.withDev, hissue, ← hcleared]
  rfl

/-- A full write gathered at its bay. -/
def Dev.gathered (d : Dev) (bay loc : Nat) (r : MergeReq) : Dev :=
  let e := ({ d with writebacks := SMap.put [] d.writebacks bay [] } : Dev).setMerge bay (d.mergeOf bay ++ [fullEntry r loc d.time])
  { e with mergeStatus := SMap.put false e.mergeStatus r.dpaLine.toNat false }

theorem exec_mergeWrite_of_new (hswitch : s.dev.rd (F.TWIN_STATUS_SWITCHING (s.shaftOf (write.dpaLine.toNat * 64))) = 0)
    (hsafe : s.dev.rd F.SAFE_STATUS_ACTIVE = 0) (hhome : s.home (write.dpaLine.toNat * 64) = .dram loc)
    (hspare : s.sparedCopy (write.dpaLine.toNat * 64) = none)
    (hback : SMap.get [] s.dev.writebacks (s.dev.drivingBay (locShaft loc)) = [])
    (hnone : (s.dev.mergeOf (s.dev.drivingBay (locShaft loc))).any (fun e => e.loc = loc && e.st ≠ .issued) = false)
    (hroom : (s.dev.mergeOf (s.dev.drivingBay (locShaft loc))).length < 47) (hgather : s.dev.rd F.INTEG_CTL_GATHER ≠ 0)
    (hmask : write.mask = fullMask) :
    exec (.mergeWrite write) s = .next (s.withDev fun d => d.gathered (d.drivingBay (locShaft loc)) loc write) := by
  refine Eq.trans (b := execMergeWrite write s) rfl ?_
  rw [execMergeWrite, State.mergeRequest, if_neg (by simp [hswitch, hsafe]), State.shaftWrite, hhome]
  dsimp only
  rw [hspare]
  dsimp only
  rw [State.mergeWrite_of_new hback hnone hroom hgather hmask, Nat.mul_div_cancel _ (by decide)]
  rfl

theorem exec_mergeGatherExpiry_of_safe (bay : Fin 64) (h : s.dev.rd F.SAFE_STATUS_ACTIVE ≠ 0) : exec (.mergeGatherExpiry bay) s = .next s := by
  refine Eq.trans (b := execMergeGatherExpiry bay s) rfl ?_
  rw [execMergeGatherExpiry]
  exact State.next_of_same (if_pos (decide_eq_true h))

theorem exec_mergeGatherExpiry (bay : Fin 64) (h : s.dev.rd F.SAFE_STATUS_ACTIVE = 0) :
    exec (.mergeGatherExpiry bay) s = .next (s.withDev fun d => d.setMerge bay (issueOldest (d.mergeOf bay))) := by
  refine Eq.trans (b := execMergeGatherExpiry bay s) rfl ?_
  rw [execMergeGatherExpiry]
  exact State.next_congr (if_neg (by simp [h]))

theorem exec_shelfReadDeadline (bay : Fin 64) (hon : s.dev.rd F.INTEG_CTL_SHELF_READ_EN ≠ 0)
    (hlate : s.dev.rd (F.SHELF_READ_STATUS_LATE bay) = 0) : exec (.shelfReadDeadline bay) s =
      .next (s.withDev fun d => (d.wr (F.SHELF_READ_STATUS_LATE bay) 1).raise .shelfReadLate (Src.bay bay)) := by
  refine Eq.trans (b := execShelfReadDeadline bay s) rfl ?_
  rw [execShelfReadDeadline]
  exact State.next_congr (if_pos ⟨decide_eq_true hon, by simp [hlate]⟩)

theorem exec_shelfReadDeadline_of_not (bay : Fin 64)
    (h : s.dev.rd F.INTEG_CTL_SHELF_READ_EN = 0 ∨ s.dev.rd (F.SHELF_READ_STATUS_LATE bay) ≠ 0) :
    exec (.shelfReadDeadline bay) s = .next s := by
  refine Eq.trans (b := execShelfReadDeadline bay s) rfl ?_
  rw [execShelfReadDeadline]
  refine State.next_of_same (if_neg fun hall => ?_)
  obtain ⟨hon, hlate⟩ := hall
  exact h.elim (fun h => by simp [h] at hon) (fun h => hlate (decide_eq_true h))

end Merge

/-- Settles O23: a flush by the dirty lines of its scope, a write by whether its shaft takes it, and the two timers by their conditions. -/
theorem roomAndMergeBufferWrite : Obligations.RoomAndMergeBufferWrite := by
  refine ⟨fun s value => ?_, fun s write bay => ?_⟩
  · intro ordered f dirty fields kept
    have hroom : (s.dev.flushOrdered value.toNat).room = s.dev.room := Dev.flushOrdered_room _ _
    have hdirty : f.dirty (s.withDev fun d => d.flushOrdered value.toNat).dev.room = dirty := congrArg f.dirty hroom
    have hbegun : s.dev.Keeps flushFields ((s.dev.flushOrdered value.toNat).flushBegun f) :=
      (Dev.keeps_flushOrdered _ _).trans (Dev.keeps_flushBegun _ _)
    have hlines := Dev.rd_flushBegun (s.dev.flushOrdered value.toNat) f (g := F.RR_FLUSH_STATUS_LINES_WRITTEN) (v := 0) (by decide)
    refine ⟨exec_rrFlushStart_of_busy, fun hidle hnone hclean => ?_, fun hidle hnone hwaits hsafe => ?_⟩
    · have hflush := State.flush_of_clean (s := s.withDev fun d => d.flushOrdered value.toNat) f (hdirty.trans hclean)
      refine ⟨_, (exec_rrFlushStart hidle hnone).trans (congrArg _ hflush), State.frame_of_keeps
        (f := fun d => ((d.flushOrdered value.toNat).flushBegun f).wrs flushEnds) (hbegun.trans (Dev.keeps_wrs (by decide))), ?_, ?_, ?_, ?_⟩
      · exact Dev.rd_wrs_of_mem (l := flushEnds) _ (by decide) (v := 0) (by decide)
      · exact Dev.rd_wrs_of_mem (l := flushEnds) _ (by decide) (v := 1) (by decide)
      · exact (Dev.rd_wrs_of_not_mem (l := flushEnds) _ (by decide)).trans hlines
      · refine (Dev.wrs_kept Dev.room (fun _ _ => rfl) _ flushEnds).trans ?_
        exact congrArg f.kept hroom
    · have hstill : (s.withDev fun d => d.flushOrdered value.toNat).dev.rd F.SAFE_STATUS_ACTIVE ≠ 0 := by
        rw [State.withDev_dev, Dev.keeps_flushOrdered _ _ _ (by decide)]
        exact hsafe
      have hflush := State.flush_of_safe (s := s.withDev fun d => d.flushOrdered value.toNat) f (fun h => hwaits (hdirty.symm.trans h)) hstill
      refine ⟨_, (exec_rrFlushStart hidle hnone).trans (congrArg _ hflush), State.frame_of_keeps
        (f := fun d => { (d.flushOrdered value.toNat).flushBegun f with flushWait := f.dirty (d.flushOrdered value.toNat).room })
        (hbegun.trans (Dev.keeps_of_fields rfl)), ?_, (Dev.rd_flushWaiting _ _ _).trans hlines, hdirty, congrArg f.kept hroom⟩
      refine (Dev.rd_flushWaiting _ _ _).trans ?_
      exact Dev.rd_flushBegun (s.dev.flushOrdered value.toNat) f (g := F.RR_FLUSH_STATUS_BUSY) (v := 1) (by decide)
  · intro dpa n
    refine ⟨fun h => ?_, fun loc hswitch hsafe hhome hspare hback hnone hroom hgather hmask => ?_, exec_mergeGatherExpiry_of_safe bay,
      fun h => ?_, fun hon hlate => ?_, exec_shelfReadDeadline_of_not bay⟩
    · exact ⟨_, exec_mergeWrite_of_waits h, State.frame_of_keeps (Dev.keeps_of_fields rfl), SMap.get_put_same _ _ _ _, rfl⟩
    · refine ⟨_, exec_mergeWrite_of_new hswitch hsafe hhome hspare hback hnone hroom hgather hmask, State.frame_of_keeps
        (f := fun d => d.gathered (d.drivingBay (locShaft loc)) loc write) ?_, ?_, ?_⟩
      · exact Dev.Keeps.trans (e := { s.dev with writebacks := _ }) (Dev.keeps_of_fields rfl)
          (Dev.Keeps.trans (e := Dev.setMerge _ _ _) (Dev.keeps_setMerge _ _ _) (Dev.keeps_of_fields rfl))
      · exact Dev.mergeOf_setMerge _ _ _
      · refine (Dev.rd_wr_same _ _ _).trans ?_
        rw [List.length_append, List.length_singleton]
        exact Nat.mod_eq_of_lt (Nat.lt_of_lt_of_le (Nat.succ_lt_succ hroom) (by decide : 48 ≤ 2 ^ 7))
    · exact ⟨_, exec_mergeGatherExpiry bay h, State.frame_of_keeps (Dev.keeps_setMerge _ _ _), Dev.mergeOf_setMerge _ _ _⟩
    · refine ⟨_, exec_shelfReadDeadline bay hon hlate, State.frame_of_keeps ?_, Dev.rd_wr_same s.dev _ 1, rfl⟩
      exact Dev.keeps_wr List.mem_cons_self 1

end Sys2Proof.Machine
end

section
/-!
Checked writes (R12, R493): what the outcome of a check leaves in DEV_REASON, in the block's own reason field, and in the triggering bit.
-/

namespace Sys2Proof.Machine

open Sys2Proof

/-- The fields of DEV_REASON. -/
def reasonFields : List Field := [F.DEV_REASON_CODE, F.DEV_REASON_TRIGGER, F.DEV_REASON_DETAIL]

/-- A check's outcome: the reasons written, and the triggering bit. -/
def Dev.verdict (d : Dev) (t : Trigger) (detail code : Nat) (own : List Field) (bit : Field) (v : Bool) : Dev :=
  (d.reason t detail code own).put bit v

theorem Dev.checked_eq (d : Dev) (t : Trigger) (detail : Nat) (own : List Field) (bit : Field) (checks : List (Bool × Nat)) :
    d.checked t detail own bit checks = (decide (firstCode (d.commonChecks t ++ checks) = 0),
      d.verdict t detail (firstCode (d.commonChecks t ++ checks)) own bit (decide (firstCode (d.commonChecks t ++ checks) = 0))) := rfl

theorem Dev.checkedOff_eq (d : Dev) (t : Trigger) (detail : Nat) (own : List Field) (bit : Field) (checks : List (Bool × Nat)) :
    d.checkedOff t detail own bit checks = (decide (firstCode checks = 0),
      d.verdict t detail (firstCode checks) own bit (decide (firstCode checks ≠ 0))) := rfl

section Verdict

variable (d : Dev) (t : Trigger) (detail code : Nat) (own : List Field) (bit : Field) (v : Bool)

theorem Dev.keeps_reason : d.Keeps (own ++ reasonFields) (d.reason t detail code own) :=
  Dev.Keeps.trans (e := d.wrs [(F.DEV_REASON_CODE, code), (F.DEV_REASON_TRIGGER, t.code), (F.DEV_REASON_DETAIL, detail)])
    (Dev.keeps_wrs (by simp [reasonFields]))
    (Dev.keeps_foldl _ (fun _ _ hf => Dev.keeps_wr (List.mem_append_left _ hf) code) _)

theorem Dev.keeps_verdict : d.Keeps (bit :: own ++ reasonFields) (d.verdict t detail code own bit v) :=
  Dev.Keeps.trans (e := d.reason t detail code own) ((Dev.keeps_reason d t detail code own).mono (by simp))
    (Dev.keeps_wr (by simp) _)

theorem Dev.rd_verdict_bit : (d.verdict t detail code own bit v).rd bit = v.toNat % 2 ^ bit.width := Dev.rd_wr_same _ _ _

theorem Dev.rd_reason_code (hown : F.DEV_REASON_CODE.key ∉ own.map Field.key) :
    (d.reason t detail code own).rd F.DEV_REASON_CODE = code % 2 ^ 8 := by
  have hkept := Dev.keeps_foldl (l := own) (f := fun d f => Dev.wr d f code) own (fun _ _ hf => Dev.keeps_wr hf code)
    (d.wrs [(F.DEV_REASON_CODE, code), (F.DEV_REASON_TRIGGER, t.code), (F.DEV_REASON_DETAIL, detail)])
  exact (hkept _ hown).trans (Dev.rd_wrs_of_mem d (show ([F.DEV_REASON_CODE, F.DEV_REASON_TRIGGER, F.DEV_REASON_DETAIL].map Field.key).Nodup
    by decide) List.mem_cons_self)

theorem Dev.rd_verdict_code (hbit : F.DEV_REASON_CODE.key ≠ bit.key) (hown : F.DEV_REASON_CODE.key ∉ own.map Field.key) :
    (d.verdict t detail code own bit v).rd F.DEV_REASON_CODE = code % 2 ^ 8 :=
  (Dev.rd_wr_ne _ hbit _).trans (Dev.rd_reason_code d t detail code own hown)

theorem Dev.rd_verdict_own {f : Field} (hbit : f.key ≠ bit.key) : (d.verdict t detail code [f] bit v).rd f = code % 2 ^ f.width :=
  (Dev.rd_wr_ne _ hbit _).trans (Dev.rd_wr_same _ _ _)

end Verdict

end Sys2Proof.Machine
end

section
/-!
Patrons bound to links, enabled and disabled (R165, R167, R168).
-/

namespace Sys2Proof.Machine

open Sys2Proof

/-! ## Injectors (R357) -/

section Injectors

variable {s : State}

theorem Dev.running_of_noInjector {d : Dev} (h : d.noInjector = true) {port : Nat} (hport : port < 64) : d.rd (F.INJ_STATUS_RUNNING port) = 0 :=
  of_decide_eq_true (List.all_eq_true.mp h port (List.mem_range.mpr hport))

/-- Where no injector runs, none is stopped. -/
theorem State.injectGuard_of_idle (h : ∀ port < 64, s.dev.rd (F.INJ_STATUS_RUNNING port) = 0) : s.injectGuard = s := by
  refine List.foldlRecOn (List.range 64) _ (motive := fun t => t = s) rfl fun t ht port hport => ?_
  subst ht
  refine if_neg fun hall => ?_
  rw [Dev.flag_eq, h port (List.mem_range.mp hport)] at hall
  exact absurd hall.1 (by decide)

/-- A change of registers that are no port's leaves the injectors' states. -/
theorem Dev.running_of_keeps {d e : Dev} {l : List Field} (hkeeps : d.Keeps l e) (hl : ∀ port < 64, (F.INJ_STATUS_RUNNING port).key ∉ l.map Field.key)
    (h : d.noInjector = true) : ∀ port < 64, e.rd (F.INJ_STATUS_RUNNING port) = 0 := fun port hport =>
  (hkeeps _ (hl port hport)).trans (Dev.running_of_noInjector h hport)

end Injectors

/-! ## Binding -/

theorem Dev.modeLinks_wr (d : Dev) {f : Field} (port v : Nat) (h : (F.PORT_CTL_MODE port).key ≠ f.key) :
    (d.wr f v).modeLinks port = d.modeLinks port := by
  have hmode : ∀ k, (d.wr f v).linkInMode port k = d.linkInMode port k := fun k => by
    rw [Dev.linkInMode, Dev.rd_wr_ne d h, Dev.linkInMode]
  rw [Dev.modeLinks]
  simp only [hmode]
  rfl

/-- Whether a bind write only notes its patron (R165). -/
def State.bindRefused (s : State) (port who value : Nat) : Prop :=
  value.testBit 31 = false ∨ s.patronExists who = false ∨ (who = 0 ∧ s.layout.locked = true ∧ s.layout.keeperPort ≠ port)

section Bind

variable {s : State} {port : Fin 64} {value : Word}

theorem exec_portBind_of_refused (hport : s.portExists port = true) (h : s.bindRefused port (value.toNat % 4096) value.toNat) :
    exec (.portBind port value) s = .next (s.withDev fun d => d.wr (F.PORT_BIND_PATRON port) (value.toNat % 4096)) := by
  refine Eq.trans (b := execPortBind port value s) rfl ?_
  rw [execPortBind, State.bindWrite, if_neg (by simp [hport]), if_pos (by simpa [State.bindRefused, State.patronExists] using h)]

theorem exec_portBind (hport : s.portExists port = true) (h : ¬ s.bindRefused port (value.toNat % 4096) value.toNat)
    (hidle : s.dev.noInjector = true) : exec (.portBind port value) s = .next (s.withDev fun d =>
      (d.wr (F.PORT_BIND_PATRON port) (value.toNat % 4096)).setBinding port (value.toNat % 4096)
        (value.toNat / 2 ^ 12 % 16 &&& d.modeLinks port)) := by
  have hmode : (F.PORT_CTL_MODE port).key ≠ (F.PORT_BIND_PATRON port).key := by
    simp [Field.key, F.PORT_CTL_MODE, F.PORT_BIND_PATRON]
    omega
  have hguard : ∀ m, ((s.withDev fun d => d.wr (F.PORT_BIND_PATRON port) (value.toNat % 4096)).withDev fun d =>
      d.setBinding port (value.toNat % 4096) m).injectGuard = (s.withDev fun d => d.wr (F.PORT_BIND_PATRON port) (value.toNat % 4096)).withDev
        fun d => d.setBinding port (value.toNat % 4096) m := fun m => by
    refine State.injectGuard_of_idle (Dev.running_of_keeps (l := [F.PORT_BIND_PATRON port]) (d := s.dev) ?_ (fun n _ => ?_) hidle)
    · exact Dev.Keeps.trans (e := s.dev.wr _ _) (Dev.keeps_wr List.mem_cons_self _) (Dev.keeps_of_fields rfl)
    · simp [Field.key, F.INJ_STATUS_RUNNING, F.PORT_BIND_PATRON]
      omega
  refine Eq.trans (b := execPortBind port value s) rfl ?_
  rw [execPortBind, State.bindWrite, if_neg (by simp [hport]), if_neg (by simpa [State.bindRefused, State.patronExists] using h)]
  refine (congrArg Host.Outcome.next (hguard _)).trans ?_
  simp only [State.withDev]
  rw [Dev.modeLinks_wr _ _ _ hmode]

end Bind

/-! ## Enabling -/

section Enable

variable (d : Dev) (p : Nat)

/-- A patron active, noted for its statement, with a feasibility check where it is FIRM (R167, R221, R471). -/
def Dev.patronActive : Dev := ((d.wr (F.PATRON_STATUS_ACTIVE p) 1).stmtNote p).firmChanged p

theorem Dev.firmChanged_fields : (d.firmChanged p).fields = d.fields := by
  rw [Dev.firmChanged]
  split <;> rfl

theorem Dev.keeps_patronActive : d.Keeps [F.PATRON_STATUS_ACTIVE p] (d.patronActive p) :=
  Dev.Keeps.trans (e := (d.wr (F.PATRON_STATUS_ACTIVE p) 1).stmtNote p)
    (Dev.Keeps.trans (e := d.wr _ _) (Dev.keeps_wr List.mem_cons_self 1) (Dev.keeps_of_fields rfl))
    (Dev.keeps_of_fields (Dev.firmChanged_fields _ p))

theorem Dev.rd_patronActive : (d.patronActive p).rd (F.PATRON_STATUS_ACTIVE p) = 1 :=
  (Dev.rd_congr (Dev.firmChanged_fields _ p) _).trans (Dev.rd_wr_same d _ 1)

/-- A patron being disabled. -/
def Dev.patronDisabling : Dev :=
  ((d.wrs [(F.PATRON_STATUS_ACTIVE p, 0), (F.PATRON_STATUS_DISABLING p, 1)]).stmtNote p).firmChanged p

theorem Dev.rd_patronDisabling (f : Field) :
    (d.patronDisabling p).rd f = (d.wrs [(F.PATRON_STATUS_ACTIVE p, 0), (F.PATRON_STATUS_DISABLING p, 1)]).rd f :=
  Dev.rd_congr (Dev.firmChanged_fields _ p) _

theorem Dev.keeps_patronDisabling : d.Keeps [F.PATRON_STATUS_ACTIVE p, F.PATRON_STATUS_DISABLING p] (d.patronDisabling p) := fun f hf =>
  (Dev.rd_patronDisabling d p f).trans (Dev.rd_wrs_of_not_mem d hf)

theorem patronStatus_nodup : ([F.PATRON_STATUS_ACTIVE p, F.PATRON_STATUS_DISABLING p].map Field.key).Nodup := by
  simp [Field.key, F.PATRON_STATUS_ACTIVE, F.PATRON_STATUS_DISABLING]

/-- No port's injector state lies in DEV_REASON or in a patron's registers. -/
theorem running_key_not_mem {port : Nat} (hport : port < 64) : (F.INJ_STATUS_RUNNING port).key ∉
    ([F.PATRON_CTL_ENABLE p, F.PATRON_STATUS_ACTIVE p, F.PATRON_REASON_CODE p] ++ reasonFields).map Field.key := by
  simp [Field.key, reasonFields, F.INJ_STATUS_RUNNING, F.PATRON_CTL_ENABLE, F.PATRON_STATUS_ACTIVE, F.PATRON_REASON_CODE, F.DEV_REASON_CODE,
    F.DEV_REASON_TRIGGER, F.DEV_REASON_DETAIL]
  omega

theorem patronReason_key_ne : (F.PATRON_REASON_CODE p).key ≠ (F.PATRON_CTL_ENABLE p).key := by
  simp only [Field.key, F.PATRON_REASON_CODE, F.PATRON_CTL_ENABLE]
  omega

theorem devReason_key_ne : F.DEV_REASON_CODE.key ≠ (F.PATRON_CTL_ENABLE p).key ∧ F.DEV_REASON_CODE.key ≠ (F.PATRON_REASON_CODE p).key ∧
    F.DEV_REASON_CODE.key ≠ (F.PATRON_STATUS_ACTIVE p).key ∧ F.DEV_REASON_CODE.key ≠ (F.PATRON_STATUS_DISABLING p).key := by
  simp [Field.key, F.PATRON_REASON_CODE, F.PATRON_CTL_ENABLE, F.PATRON_STATUS_ACTIVE, F.PATRON_STATUS_DISABLING, F.DEV_REASON_CODE]
  omega

theorem patronStatus_key_ne : ∀ f ∈ [F.PATRON_CTL_ENABLE p, F.PATRON_REASON_CODE p],
    f.key ≠ (F.PATRON_STATUS_ACTIVE p).key ∧ f.key ≠ (F.PATRON_STATUS_DISABLING p).key := by
  simp [Field.key, F.PATRON_REASON_CODE, F.PATRON_CTL_ENABLE, F.PATRON_STATUS_ACTIVE, F.PATRON_STATUS_DISABLING]
  omega

end Enable

/-- The verdict on a patron's ENABLE. -/
def Dev.patronVerdict (d : Dev) (p code : Nat) (v : Bool) : Dev := d.verdict .patron p code [F.PATRON_REASON_CODE p] (F.PATRON_CTL_ENABLE p) v

section PatronVerdict

variable (d : Dev) (p : Nat) {code : Nat} (v : Bool)

theorem Dev.keeps_patronVerdict :
    d.Keeps (F.PATRON_CTL_ENABLE p :: F.PATRON_REASON_CODE p :: reasonFields) (d.patronVerdict p code v) :=
  Dev.keeps_verdict d .patron p code [F.PATRON_REASON_CODE p] (F.PATRON_CTL_ENABLE p) v

theorem Dev.rd_patronVerdict_enable : (d.patronVerdict p code v).rd (F.PATRON_CTL_ENABLE p) = v.toNat := by
  refine (Dev.rd_verdict_bit _ _ _ _ _ _ _).trans ?_
  cases v <;> rfl

theorem Dev.rd_patronVerdict_reason (h : code < 256) : (d.patronVerdict p code v).rd (F.PATRON_REASON_CODE p) = code :=
  (Dev.rd_verdict_own _ _ _ _ _ _ (patronReason_key_ne p)).trans (Nat.mod_eq_of_lt h)

theorem Dev.rd_patronVerdict_code (h : code < 256) : (d.patronVerdict p code v).rd F.DEV_REASON_CODE = code := by
  obtain ⟨henable, hreason, -⟩ := devReason_key_ne p
  refine (Dev.rd_verdict_code _ _ _ _ _ _ _ henable fun hmem => ?_).trans (Nat.mod_eq_of_lt h)
  exact hreason (List.mem_singleton.mp hmem)

end PatronVerdict

/-- The fields of ALLOW_REASON. -/
def allowReasonFields : List Field := [F.ALLOW_REASON_CODE, F.ALLOW_REASON_BAY, F.ALLOW_REASON_CLASS, F.ALLOW_REASON_GROUP]

theorem verdict_key_not_mem (p : Nat) : ∀ f ∈ [F.PATRON_CTL_ENABLE p, F.PATRON_REASON_CODE p, F.DEV_REASON_CODE],
    f.key ∉ allowReasonFields.map Field.key := by
  simp [allowReasonFields, Field.key, F.PATRON_REASON_CODE, F.PATRON_CTL_ENABLE, F.DEV_REASON_CODE, F.ALLOW_REASON_CODE, F.ALLOW_REASON_BAY,
    F.ALLOW_REASON_CLASS, F.ALLOW_REASON_GROUP]
  omega

section EnableCommand

variable {s : State} {p : Fin 4096} (hthere : s.patronExists p = true) (hoff : s.dev.rd (F.PATRON_CTL_ENABLE p) = 0)
include hthere hoff

theorem exec_patronEnable_of_pass (hcode : firstCode (s.dev.commonChecks .patron ++ s.patronChecks p) = 0) (hidle : s.dev.noInjector = true) :
    exec (.patronEnable p) s = .next (s.withDev fun d => (d.patronVerdict p 0 true).patronActive p) := by
  have hguard : (s.withDev fun d => (d.patronVerdict p 0 true).patronActive p).injectGuard =
      s.withDev fun d => (d.patronVerdict p 0 true).patronActive p :=
    State.injectGuard_of_idle (Dev.running_of_keeps (d := s.dev)
      (l := [F.PATRON_CTL_ENABLE p, F.PATRON_STATUS_ACTIVE p, F.PATRON_REASON_CODE p] ++ reasonFields)
      (((Dev.keeps_patronVerdict s.dev p true).mono (by simp)).trans ((Dev.keeps_patronActive _ p).mono (by simp)))
      (fun n hn => running_key_not_mem p hn) hidle)
  refine Eq.trans (b := execPatronEnable p s) rfl ?_
  rw [execPatronEnable, State.patronEnable, if_neg (by simp [hthere]), if_neg (by simp [hoff]), Dev.checked_eq, hcode]
  exact congrArg Host.Outcome.next hguard

theorem exec_patronEnable_of_fail {code : Nat} (hcode : firstCode (s.dev.commonChecks .patron ++ s.patronChecks p) = code) (hne : code ≠ 0)
    (hlt : code < 256) : ∃ f : Dev → Dev, exec (.patronEnable p) s = .next (s.withDev fun d => f (d.patronVerdict p code false)) ∧
      ∀ d : Dev, d.Keeps allowReasonFields (f d) := by
  refine ⟨fun d => if code = 0x63 ∨ code = 0x66 then d.allowReason code 0 0 (d.rd (F.PATRON_GROUP_GROUP p)) else d, ?_, fun d => ?_⟩
  · refine Eq.trans (b := execPatronEnable p s) rfl ?_
    rw [execPatronEnable, State.patronEnable, if_neg (by simp [hthere]), if_neg (by simp [hoff]), Dev.checked_eq, hcode, decide_eq_false hne]
    have hread := Dev.rd_patronVerdict_code s.dev p false hlt
    dsimp only
    rw [Dev.patronVerdict] at hread
    rw [hread]
    rfl
  · split
    · exact Dev.keeps_wrs (by simp [allowReasonFields])
    · exact Dev.Keeps.refl _ _

end EnableCommand

/-! ## Disabling -/

section Disable

variable {s : State} {p : Fin 4096}

theorem exec_patronDisable_of_idle (hon : s.dev.rd (F.PATRON_CTL_ENABLE p) ≠ 0)
    (hrings : (List.range 6).any (fun i => s.dev.ringState p i ≠ ringDisabled) = false) :
    exec (.patronDisable p) s = .next (s.withDev fun d => (d.patronVerdict p 0 false).patronDisabling p) := by
  refine Eq.trans (b := execPatronDisable p s) rfl ?_
  rw [execPatronDisable]
  refine State.next_congr ?_
  rw [Dev.patronDisable, if_neg (by simp [hon]), hrings]
  rfl

theorem exec_patronDisable_of_busy (hon : s.dev.rd (F.PATRON_CTL_ENABLE p) ≠ 0)
    (hrings : (List.range 6).any (fun i => s.dev.ringState p i ≠ ringDisabled) = true) :
    exec (.patronDisable p) s = .next (s.withDev fun d => d.patronVerdict p 0x47 true) := by
  refine Eq.trans (b := execPatronDisable p s) rfl ?_
  rw [execPatronDisable]
  refine State.next_congr ?_
  rw [Dev.patronDisable, if_neg (by simp [hon]), hrings]
  rfl

theorem exec_patronDisableComplete (hdisabling : s.dev.rd (F.PATRON_STATUS_DISABLING p) ≠ 0) (hrequests : s.dev.requestsOf p = false)
    (hsealed : s.dev.rd (F.PATRON_CTL_SEALED p) = 0) :
    exec (.patronDisableComplete p) s = .next (s.withDev fun d => d.disabled p) := by
  refine Eq.trans (b := execPatronDisableComplete p s) rfl ?_
  rw [execPatronDisableComplete, State.disableStep, if_neg (by simp [hdisabling, hrequests]), if_pos (by simp [hsealed])]

end Disable

/-! ## The end of a disable -/

/-- The registers of a patron's end. -/
def disabledWrites (d : Dev) (p : Nat) : List (Field × Nat) :=
  [(F.PATRON_STATUS_KEY_LOADED p, 0), (F.PATRON_STATUS_NEXT_KEY_LOADED p, 0), (F.SEAL_STATUS_NEXT_FREE, 16 - (SMap.erase p d.nextKeys).length),
    (F.PATRON_STATUS_DISABLING p, 0)]

section Disabled

variable (d : Dev) (p : Nat)

theorem disabledWrites_nodup : (((disabledWrites d p).map Prod.fst).map Field.key).Nodup := by
  simp [disabledWrites, Field.key, F.PATRON_STATUS_KEY_LOADED, F.PATRON_STATUS_NEXT_KEY_LOADED, F.SEAL_STATUS_NEXT_FREE,
    F.PATRON_STATUS_DISABLING]
  omega

theorem Dev.rd_disabled (f : Field) : (d.disabled p).rd f = (d.wrs (disabledWrites d p)).rd f := by
  refine Dev.rd_congr ?_ f
  simp only [Dev.disabled, disabledWrites, Dev.wrs_cons, Dev.wrs_nil, Dev.wr]

theorem Dev.disabled_vault : (d.disabled p).vault = SMap.erase p d.vault := Dev.wrs_vault _ _

theorem Dev.disabled_index : (d.disabled p).index = d.index.map fun kv => (kv.1, kv.2.filter (fun e => e.patron ≠ p)) :=
  Dev.wrs_kept Dev.index (fun _ _ => rfl) _ _

end Disabled

/-- Settles O24: each command's outcome is the verdict of its check, and a bind or an end writes its own places. -/
theorem patronsComeAndGo : Obligations.PatronsComeAndGo := by
  intro s port p hidle reasons
  refine ⟨fun value hport => ?_, fun hthere hoff => ⟨fun hcode => ?_, fun hne hlt => ?_⟩, fun hon => ⟨fun hrings => ?_, fun hrings => ?_⟩,
    fun hdisabling hrequests hsealed => ?_⟩
  · intro who refused
    have hwho : who % 2 ^ (F.PORT_BIND_PATRON port).width = who := Nat.mod_eq_of_lt (Nat.mod_lt _ (by decide))
    by_cases h : refused
    · refine ⟨_, exec_portBind_of_refused hport h, State.frame_of_keeps (Dev.keeps_wr List.mem_cons_self _), (Dev.rd_wr_same _ _ _).trans hwho,
        fun _ => rfl, fun hnot => absurd h hnot⟩
    · refine ⟨_, exec_portBind hport h hidle, State.frame_of_keeps ?_, (Dev.rd_wr_same s.dev _ _).trans hwho, fun href => absurd href h,
        fun _ => SMap.get_put_same _ _ _ _⟩
      exact Dev.Keeps.trans (e := s.dev.wr _ _) (Dev.keeps_wr List.mem_cons_self _) (Dev.keeps_of_fields rfl)
  · refine ⟨_, exec_patronEnable_of_pass hthere hoff hcode hidle, State.frame_of_keeps
      (f := fun d => (d.patronVerdict p 0 true).patronActive p) ?_, ?_, Dev.rd_patronActive _ _, ?_, ?_⟩
    · exact ((Dev.keeps_patronVerdict _ p true).mono (by simp [reasons, reasonFields])).trans
        ((Dev.keeps_patronActive _ p).mono (by simp))
    · obtain ⟨hactive, -⟩ := patronStatus_key_ne p (F.PATRON_CTL_ENABLE p) (by simp)
      exact (Dev.keeps_patronActive _ p _ (by simpa using hactive)).trans (Dev.rd_patronVerdict_enable _ p true)
    · obtain ⟨-, -, hactive, -⟩ := devReason_key_ne p
      exact (Dev.keeps_patronActive _ p _ (by simpa using hactive)).trans (Dev.rd_patronVerdict_code _ p true (by decide))
    · obtain ⟨hactive, -⟩ := patronStatus_key_ne p (F.PATRON_REASON_CODE p) (by simp)
      exact (Dev.keeps_patronActive _ p _ (by simpa using hactive)).trans (Dev.rd_patronVerdict_reason _ p true (by decide))
  · obtain ⟨f, hexec, hkeeps⟩ := exec_patronEnable_of_fail hthere hoff rfl hne hlt
    have hrd := fun g (hg : g ∈ [F.PATRON_CTL_ENABLE p, F.PATRON_REASON_CODE p, F.DEV_REASON_CODE]) =>
      hkeeps (s.dev.patronVerdict p (firstCode (s.dev.commonChecks .patron ++ s.patronChecks p)) false) g (verdict_key_not_mem p g hg)
    refine ⟨_, hexec, State.frame_of_keeps (f := fun d => f (d.patronVerdict p _ false)) ?_, ?_, ?_, ?_⟩
    · exact ((Dev.keeps_patronVerdict _ p false).mono (by simp [reasons, reasonFields])).trans
        ((hkeeps _).mono (by simp [allowReasonFields]))
    · exact (hrd _ (by simp)).trans (Dev.rd_patronVerdict_enable _ p false)
    · exact (hrd _ (by simp)).trans (Dev.rd_patronVerdict_code _ p false hlt)
    · exact (hrd _ (by simp)).trans (Dev.rd_patronVerdict_reason _ p false hlt)
  · have hrd := Dev.rd_patronDisabling (s.dev.patronVerdict p 0 false) p
    refine ⟨_, exec_patronDisable_of_idle hon hrings, State.frame_of_keeps (f := fun d => (d.patronVerdict p 0 false).patronDisabling p) ?_,
      ?_, ?_, ?_⟩
    · exact ((Dev.keeps_patronVerdict s.dev p (code := 0) false).mono (by simp [reasons, reasonFields])).trans
        ((Dev.keeps_patronDisabling _ p).mono (by simp))
    · obtain ⟨hactive, hdisabling⟩ := patronStatus_key_ne p (F.PATRON_CTL_ENABLE p) (by simp)
      refine (hrd _).trans ((Dev.rd_wrs_of_not_mem _ ?_).trans (Dev.rd_patronVerdict_enable _ p false))
      simpa using ⟨hactive, hdisabling⟩
    · exact (hrd _).trans (Dev.rd_wrs_of_mem _ (patronStatus_nodup p) (v := 0) (by simp))
    · exact (hrd _).trans (Dev.rd_wrs_of_mem _ (patronStatus_nodup p) (v := 1) (by simp))
  · refine ⟨_, exec_patronDisable_of_busy hon hrings, State.frame_of_keeps ?_, Dev.rd_patronVerdict_enable _ p true,
      Dev.rd_patronVerdict_code _ p true (by decide)⟩
    exact (Dev.keeps_patronVerdict _ p true).mono (by simp [reasons, reasonFields])
  · have hrd := Dev.rd_disabled s.dev p
    refine ⟨_, exec_patronDisableComplete hdisabling hrequests hsealed, State.frame_of_keeps fun g hg => (hrd g).trans ?_, ?_, ?_, ?_,
      fun kv hkv e he => ?_⟩
    · exact Dev.rd_wrs_of_not_mem _ hg
    · exact (hrd _).trans (Dev.rd_wrs_of_mem _ (disabledWrites_nodup _ p) (v := 0) (by simp [disabledWrites]))
    · exact (hrd _).trans (Dev.rd_wrs_of_mem _ (disabledWrites_nodup _ p) (v := 0) (by simp [disabledWrites]))
    · rw [State.withDev_dev, Dev.disabled_vault]
      exact find?_erase_same _ _
    · rw [State.withDev_dev, Dev.disabled_index, List.mem_map] at hkv
      obtain ⟨kv', -, rfl⟩ := hkv
      exact of_decide_eq_true (List.mem_filter.mp he).2

end Sys2Proof.Machine
end

section
/-!
Allowance commits, feasibility checks and miss windows (R207, R219, R221, R227).
-/

namespace Sys2Proof.Machine

open Sys2Proof

theorem Dev.wrs_append (d : Dev) (l m : List (Field × Nat)) : (d.wrs l).wrs m = d.wrs (l ++ m) := by
  induction l generalizing d with
  | nil => rfl
  | cons x l ih => rw [List.cons_append, Dev.wrs_cons, Dev.wrs_cons, ih]

/-! ## The outcome of a commit -/

/-- The registers of a commit's outcome. -/
def commitWrites (detail code bay cls g bit : Nat) : List (Field × Nat) :=
  [(F.DEV_REASON_CODE, code), (F.DEV_REASON_TRIGGER, 3), (F.DEV_REASON_DETAIL, detail), (F.ALLOW_REASON_CODE, code), (F.ALLOW_REASON_BAY, bay),
    (F.ALLOW_REASON_CLASS, cls), (F.ALLOW_REASON_GROUP, g), (F.ALLOW_CTL_COMMIT, bit)]

/-- The fields that a commit may change. -/
def commitFields : List Field := [F.DEV_REASON_CODE, F.DEV_REASON_TRIGGER, F.DEV_REASON_DETAIL, F.ALLOW_REASON_CODE, F.ALLOW_REASON_BAY,
  F.ALLOW_REASON_CLASS, F.ALLOW_REASON_GROUP, F.ALLOW_CTL_COMMIT]

theorem commitFields_nodup : (commitFields.map Field.key).Nodup := by decide

/-- The outcome of a commit's checks. -/
def Dev.commitVerdict (d : Dev) (detail code bay cls g bit : Nat) : Dev :=
  ((d.reason .commit detail code []).allowReason code bay cls g).wr F.ALLOW_CTL_COMMIT bit

section Verdict

variable (d : Dev) (detail code bay cls g bit : Nat)

theorem Dev.commitVerdict_eq : d.commitVerdict detail code bay cls g bit = d.wrs (commitWrites detail code bay cls g bit) := by
  rw [Dev.commitVerdict, Dev.allowReason]
  exact (congrArg (fun e : Dev => e.wr F.ALLOW_CTL_COMMIT bit) (Dev.wrs_append _ _ _)).trans (Dev.wrs_append _ _ [(F.ALLOW_CTL_COMMIT, bit)])

theorem Dev.keeps_commitVerdict : d.Keeps commitFields (d.commitVerdict detail code bay cls g bit) := by
  rw [Dev.commitVerdict_eq]
  exact Dev.keeps_wrs (List.Subset.refl _)

theorem Dev.rd_commitVerdict {f : Field} {v : Nat} (hf : (f, v) ∈ commitWrites detail code bay cls g bit) :
    (d.commitVerdict detail code bay cls g bit).rd f = v % 2 ^ f.width := by
  rw [Dev.commitVerdict_eq]
  exact Dev.rd_wrs_of_mem d commitFields_nodup hf

theorem Dev.commitVerdict_kept {β : Type} (h : Dev → β) (hh : ∀ (e : Dev) m, h { e with fields := m } = h e) :
    h (d.commitVerdict detail code bay cls g bit) = h d := by
  rw [Dev.commitVerdict_eq]
  exact Dev.wrs_kept h hh _ _

end Verdict

/-! ## The commands -/

/-- The checks of a commit, each with its code, bay, class and group. -/
def Dev.allCommitChecks (d : Dev) : List (Bool × Nat × Nat × Nat × Nat) :=
  (d.commonChecks .commit).map (fun c => (c.1, c.2, 0, 0, 0)) ++ d.commitChecks d.staged

/-- A commit accepted. -/
def Dev.committed (d : Dev) : Dev := { d.commitVerdict 0 0 0 0 0 1 with commit := some (d.staged, d.time), recheck := true }

/-- A feasibility check that has ended. -/
def Dev.checkDone (d : Dev) : Dev :=
  ({ d with recheck := false, nextTokens := some (d.time, d.plan) } : Dev).bump F.ALLOW_STATUS_RECHECKS

section Commands

variable {s : State}

theorem exec_allowCommit_of_busy (h : s.dev.rd F.ALLOW_CTL_COMMIT ≠ 0) : exec .allowCommit s = .next s := by
  refine Eq.trans (b := execAllowCommit s) rfl ?_
  rw [execAllowCommit]
  exact State.next_of_same (if_pos (decide_eq_true h))

theorem exec_allowCommit_of_pass (h : s.dev.rd F.ALLOW_CTL_COMMIT = 0) (hpass : s.dev.allCommitChecks.find? (·.1) = none) :
    exec .allowCommit s = .next (s.withDev Dev.committed) := by
  refine Eq.trans (b := execAllowCommit s) rfl ?_
  rw [execAllowCommit]
  refine State.next_congr ?_
  rw [Dev.allCommitChecks] at hpass
  rw [Dev.allowCommit, if_neg (by simp [h])]
  dsimp only
  rw [hpass, Dev.committed]
  refine congrArg (fun t : Nat => { s.dev.commitVerdict 0 0 0 0 0 1 with commit := some (s.dev.staged, t), recheck := true }) ?_
  exact Dev.commitVerdict_kept s.dev 0 0 0 0 0 1 Dev.time fun _ _ => rfl

theorem exec_allowCommit_of_fail {b : Bool} {code bay cls g : Nat} (h : s.dev.rd F.ALLOW_CTL_COMMIT = 0)
    (hfail : s.dev.allCommitChecks.find? (·.1) = some (b, code, bay, cls, g)) : exec .allowCommit s =
      .next (s.withDev fun d => d.commitVerdict (if code = 0x61 then bay else g) code bay cls g 0) := by
  refine Eq.trans (b := execAllowCommit s) rfl ?_
  rw [execAllowCommit]
  refine State.next_congr ?_
  rw [Dev.allCommitChecks] at hfail
  rw [Dev.allowCommit, if_neg (by simp [h])]
  dsimp only
  rw [hfail]
  rfl

theorem exec_feasibilityCheckDone (h : s.dev.recheck = true) : exec .feasibilityCheckDone s = .next (s.withDev Dev.checkDone) := by
  refine Eq.trans (b := execFeasibilityCheckDone s) rfl ?_
  rw [execFeasibilityCheckDone]
  exact State.next_congr (if_neg (by simp [h]))

theorem exec_feasibilityCheckDone_of_not (h : s.dev.recheck = false) : exec .feasibilityCheckDone s = .next s := by
  refine Eq.trans (b := execFeasibilityCheckDone s) rfl ?_
  rw [execFeasibilityCheckDone]
  exact State.next_of_same (if_pos (by simp [h]))

theorem exec_missWindow (group : Fin 256) (s : State) :
    exec (.missWindow group) s = .next (s.withDev fun d => { d with missCount := SMap.put 0 d.missCount group 0 }) := rfl

end Commands

/-- Settles O26: a commit by its first failing check, a feasibility check by whether one was asked for. -/
theorem commitsAndChecks : Obligations.CommitsAndChecks := by
  intro s group fields checks
  refine ⟨exec_allowCommit_of_busy, fun h hpass => ?_, fun b code bay cls g h hfail hlt => ?_, fun h => ?_, exec_feasibilityCheckDone_of_not, ?_⟩
  · refine ⟨_, exec_allowCommit_of_pass h hpass, State.frame_of_keeps ?_, ?_, ?_, rfl, rfl, ?_⟩
    · exact Dev.Keeps.trans (e := s.dev.commitVerdict 0 0 0 0 0 1) (Dev.keeps_commitVerdict _ _ _ _ _ _ _) (Dev.keeps_of_fields rfl)
    · exact Dev.rd_commitVerdict s.dev 0 0 0 0 0 1 (v := 1) (by simp [commitWrites])
    · exact Dev.rd_commitVerdict s.dev 0 0 0 0 0 1 (v := 0) (by simp [commitWrites])
    · exact Dev.commitVerdict_kept s.dev 0 0 0 0 0 1 Dev.inForce fun _ _ => rfl
  · have hrd := fun f v hf => Dev.rd_commitVerdict s.dev (if code = 0x61 then bay else g) code bay cls g 0 (f := f) (v := v) hf
    refine ⟨_, exec_allowCommit_of_fail h hfail, State.frame_of_keeps (Dev.keeps_commitVerdict _ _ _ _ _ _ _), ?_, ?_, ?_, ?_, ?_⟩
    · exact hrd _ 0 (by simp [commitWrites])
    · exact (hrd _ code (by simp [commitWrites])).trans (Nat.mod_eq_of_lt hlt)
    · exact (hrd _ code (by simp [commitWrites])).trans (Nat.mod_eq_of_lt hlt)
    · exact Dev.commitVerdict_kept s.dev _ code bay cls g 0 Dev.commit fun _ _ => rfl
    · exact Dev.commitVerdict_kept s.dev _ code bay cls g 0 Dev.inForce fun _ _ => rfl
  · refine ⟨_, exec_feasibilityCheckDone h, State.frame_of_keeps ?_, rfl, rfl, rfl⟩
    exact Dev.Keeps.trans (e := { s.dev with recheck := false, nextTokens := some (s.dev.time, s.dev.plan) }) (Dev.keeps_of_fields rfl)
      (Dev.keeps_bump List.mem_cons_self)
  · exact ⟨_, exec_missWindow group s, State.frame_of_keeps (Dev.keeps_of_fields rfl), SMap.get_put_same 0 s.dev.missCount _ 0,
      fun _ hg => SMap.get_put_ne 0 0 s.dev.missCount hg 0⟩

end Sys2Proof.Machine
end

section
/-!
Catalogue commands and fences (R175, R186, R187).
-/

namespace Sys2Proof.Machine

open Sys2Proof

/-! ## A command begun -/

/-- The registers that show a command in progress. -/
def catWrites (op patron level : Nat) (all : Bool) : List (Field × Nat) :=
  [(F.CAT_CMD_PATRON, patron), (F.CAT_CMD_LEVEL, level), (F.CAT_CMD_OP, op), (F.CAT_CMD_FENCE_ALL, all.toNat), (F.CAT_STATUS_BUSY, 1)]

/-- The fields that a command in progress may have changed. -/
def catFields : List Field := [F.CAT_CMD_PATRON, F.CAT_CMD_LEVEL, F.CAT_CMD_OP, F.CAT_CMD_FENCE_ALL, F.CAT_STATUS_BUSY]

theorem catFields_nodup : (catFields.map Field.key).Nodup := by decide

/-- The device that shows a command. -/
def Dev.catShown (d : Dev) (op patron level : Nat) (all : Bool) : Dev := d.wrs (catWrites op patron level all)

/-- The command as the registers give it. -/
def Dev.catRequest (d : Dev) (op patron level : Nat) (all : Bool) : CatCmd :=
  let new : Card := BitVec.ofNat 64 (d.pair F.CAT_NEW_VALUE)
  let spread := d.propagates && (op = 1 || op = 2)
  { op := op, patron := patron, level := level + 1, pa := d.pair F.CAT_ADDR_VALUE % 2 ^ 48, new := new,
    expect := BitVec.ofNat 64 (d.pair F.CAT_EXPECT_VALUE), fence := if op = 3 then d.translated (if all then none else some patron) else [],
    spread := spread, holder := if spread && decide (2 ≤ cardState new) then some (d.rd F.COLL_CAT_HOLDER) else none,
    seq := d.rd F.COLL_CAT_SEQ_SEQ + 1 }

/-- The command in progress set. -/
def Dev.setCat (d : Dev) (c : Option CatCmd) : Dev := { d with cat := c }

theorem Dev.setCat_fields (d : Dev) (c : Option CatCmd) : (d.setCat c).fields = d.fields := rfl

/-- The device with a command in progress. -/
def Dev.catBegun (d : Dev) (op patron level : Nat) (all : Bool) : Dev :=
  (d.catShown op patron level all).setCat (some ((d.catShown op patron level all).catRequest op patron level all))

section Begun

variable (d : Dev) (op patron level : Nat) (all : Bool)

theorem Dev.keeps_catShown : d.Keeps catFields (d.catShown op patron level all) := Dev.keeps_wrs (List.Subset.refl _)

theorem Dev.keeps_catBegun : d.Keeps catFields (d.catBegun op patron level all) :=
  Dev.Keeps.trans (e := d.catShown op patron level all) (Dev.keeps_catShown _ _ _ _ _) (Dev.keeps_of_fields (Dev.setCat_fields _ _))

theorem Dev.rd_catBegun {f : Field} {v : Nat} (hf : (f, v) ∈ catWrites op patron level all) :
    (d.catBegun op patron level all).rd f = v % 2 ^ f.width :=
  (Dev.rd_congr (Dev.setCat_fields _ _) f).trans (Dev.rd_wrs_of_mem d catFields_nodup hf)

theorem Dev.translated_catShown (p : Option Nat) : (d.catShown op patron level all).translated p = d.translated p :=
  Dev.wrs_kept (fun e => e.translated p) (fun _ _ => rfl) _ _

theorem Dev.propagates_catShown : (d.catShown op patron level all).propagates = d.propagates := by
  have hrd := Dev.keeps_catShown d op patron level all
  rw [Dev.propagates, Dev.flag, hrd _ (by decide), hrd _ (by decide), ← Dev.flag, ← Dev.propagates]

theorem Dev.pair_catShown {f : Nat → Field} (h0 : (f 0).key ∉ catFields.map Field.key) (h1 : (f 1).key ∉ catFields.map Field.key) :
    (d.catShown op patron level all).pair f = d.rd (f 0) + 2 ^ 32 * d.rd (f 1) := by
  have hrd := Dev.keeps_catShown d op patron level all
  rw [Dev.pair, hrd _ h0, hrd _ h1]

end Begun

section Commands

variable {s : State} {op patron level : Nat} {all : Bool}

theorem State.catGo_of_busy (h : s.dev.rd F.CAT_STATUS_BUSY ≠ 0) : s.catGo op patron level all = s :=
  if_pos (decide_eq_true h)

theorem State.catGo_of_absent (h : s.dev.rd F.CAT_STATUS_BUSY = 0) (hop : op = 3) (hall : all = false) (hpatron : s.patronExists patron = false) :
    s.catGo op patron level all = s.withDev fun d => (d.catShown op patron level all).catEnd 6 := by
  rw [State.catGo, if_neg (by simp [h])]
  exact if_pos ⟨hop, by simp [hall], by
    rw [Bool.not_eq_true]
    exact hpatron⟩

theorem State.catGo_of_idle (h : s.dev.rd F.CAT_STATUS_BUSY = 0) (hthere : op ≠ 3 ∨ all = true ∨ s.patronExists patron = true) :
    s.catGo op patron level all = (s.withDev fun d => d.catBegun op patron level all).catStep := by
  rw [State.catGo, if_neg (by simp [h])]
  refine if_neg fun hall => ?_
  obtain ⟨hop, hnot, hpatron⟩ := hall
  exact hthere.elim (fun h => h hop) fun h => h.elim (fun h => hnot h) fun h => hpatron h

end Commands

/-! ## A command's end -/

theorem Dev.rd_catEnd_busy (d : Dev) (r : Nat) : (d.catEnd r).rd F.CAT_STATUS_BUSY = 0 :=
  Dev.rd_wrs_of_mem (l := [(F.CAT_STATUS_BUSY, 0), (F.CAT_STATUS_RESULT, r)]) { d with cat := none }
    (show ([F.CAT_STATUS_BUSY, F.CAT_STATUS_RESULT].map Field.key).Nodup by decide) (v := 0) (by simp)

theorem Dev.rd_catEnd_result (d : Dev) {r : Nat} (h : r < 8) : (d.catEnd r).rd F.CAT_STATUS_RESULT = r :=
  (Dev.rd_wrs_of_mem (l := [(F.CAT_STATUS_BUSY, 0), (F.CAT_STATUS_RESULT, r)]) { d with cat := none }
    (show ([F.CAT_STATUS_BUSY, F.CAT_STATUS_RESULT].map Field.key).Nodup by decide) (v := r) (by simp)).trans (Nat.mod_eq_of_lt h)

theorem Dev.keeps_catEnd (d : Dev) (r : Nat) : d.Keeps [F.CAT_STATUS_BUSY, F.CAT_STATUS_RESULT] (d.catEnd r) :=
  Dev.Keeps.trans (e := { d with cat := none }) (Dev.keeps_of_fields rfl) (Dev.keeps_wrs (by simp))

theorem Dev.catEnd_cat (d : Dev) (r : Nat) : (d.catEnd r).cat = none := Dev.wrs_kept Dev.cat (fun _ _ => rfl) _ _

/-- A command that no other card must hear ends with its card operation. -/
theorem State.catStep_of_local {u v : State} {c : CatCmd} {r : Nat} {old : Option Card} (hcat : u.dev.cat = some c) (hop : c.op ≠ 3)
    (hphase : c.phase = 0) (hspread : c.spread = false)
    (hcard : u.cardOp c.patron c.level c.pa (if c.op = 0 then none else some (c.new, c.expected)) = (some (r, old), v)) :
    u.catStep = v.withDev fun d => (d.showOld old).catEnd r := by
  rw [State.catStep, hcat]
  dsimp only
  rw [if_neg hop, if_pos hphase, hspread]
  simp only [Bool.false_and, Bool.false_eq_true, if_false, not_false_eq_true, or_true, if_true, hcard]
  rfl

/-- A fence waits where it stands. -/
theorem State.catStep_of_fence {s : State} {c : CatCmd} (hcat : s.dev.cat = some c) (hop : c.op = 3) : s.catStep = s := by
  rw [State.catStep, hcat]
  exact if_pos hop

section FenceEnd

variable {s : State} {c : CatCmd}

theorem exec_catFenceComplete (hcat : s.dev.cat = some c) (hop : c.op = 3) (hnone : ∀ k ∈ s.dev.translated none, k ∉ c.fence) :
    exec .catFenceComplete s = .next (s.withDev fun d => d.catEnd 0) := by
  refine Eq.trans (b := execCatFenceComplete s) rfl ?_
  rw [execCatFenceComplete]
  refine State.next_congr ?_
  rw [hcat]
  refine if_pos ⟨hop, fun hany => ?_⟩
  obtain ⟨k, hk, hwaits⟩ := List.any_eq_true.mp hany
  exact hnone k hk (List.contains_iff_mem.mp hwaits)

theorem exec_catFenceComplete_of_waits (hcat : s.dev.cat = some c) {k : Nat × Nat} (hk : k ∈ s.dev.translated none) (hwaits : k ∈ c.fence) :
    exec .catFenceComplete s = .next s := by
  refine Eq.trans (b := execCatFenceComplete s) rfl ?_
  rw [execCatFenceComplete]
  refine State.next_of_same ?_
  rw [hcat]
  exact if_neg fun hall => hall.2 (List.any_eq_true.mpr ⟨k, hk, List.contains_iff_mem.mpr hwaits⟩)

end FenceEnd

/-- The three card commands by their code. -/
def catInstr (p : Fin 4096) (level : Fin 4) (op : Fin 3) : Instr :=
  if op = 0 then Instr.catRead p level else if op = 1 then .catWrite p level else .catCas p level

theorem exec_catInstr (p : Fin 4096) (level : Fin 4) (op : Fin 3) (s : State) :
    exec (catInstr p level op) s = .next (s.catGo op p level false) := by
  match op with
  | 0 | 1 | 2 => rfl

/-- Settles O27: a command shows itself and takes its step, a fence stands until nothing it lists remains. -/
theorem catalogueCommandsRunAndFence : Obligations.CatalogueCommandsRunAndFence := by
  refine ⟨⟨fun s p level hbusy => ?_, fun s p level op hidle => ?_, fun u v c r old hcat hop hphase hspread hr hcard => ?_⟩, fun s p all => ?_⟩
  · exact ⟨congrArg _ (State.catGo_of_busy hbusy), congrArg _ (State.catGo_of_busy hbusy), congrArg _ (State.catGo_of_busy hbusy)⟩
  · have hthree : op.val ≠ 3 := Nat.ne_of_lt op.isLt
    have hrd := fun f v hf => Dev.rd_catBegun s.dev op p level false (f := f) (v := v) hf
    refine ⟨s.withDev fun d => d.catBegun op p level false, (s.dev.catShown op p level false).catRequest op p level false,
      (exec_catInstr p level op s).trans (congrArg _ (State.catGo_of_idle hidle (.inl hthree))),
      State.frame_of_keeps (Dev.keeps_catBegun _ _ _ _ _), ?_, ?_, ?_, ?_, rfl, rfl, rfl, rfl, ?_, ?_, rfl, ?_⟩
    · exact hrd _ 1 (by simp [catWrites])
    · exact (hrd _ p.val (by simp [catWrites])).trans (Nat.mod_eq_of_lt p.isLt)
    · exact (hrd _ level.val (by simp [catWrites])).trans (Nat.mod_eq_of_lt level.isLt)
    · exact (hrd _ op.val (by simp [catWrites])).trans (Nat.mod_eq_of_lt (Nat.lt_trans op.isLt (by decide)))
    · exact congrArg (· % 2 ^ 48) (Dev.pair_catShown s.dev _ _ _ _ (f := F.CAT_ADDR_VALUE) (by decide) (by decide))
    · exact congrArg (BitVec.ofNat 64) (Dev.pair_catShown s.dev _ _ _ _ (f := F.CAT_NEW_VALUE) (by decide) (by decide))
    · have hspread : (decide (op.val = 1) || decide (op.val = 2)) = decide (op ≠ 0) := by
        match op with
        | 0 | 1 | 2 => rfl
      exact congr (congrArg and (Dev.propagates_catShown _ _ _ _ _)) hspread
  · have hstep := State.catStep_of_local hcat hop hphase hspread hcard
    refine ⟨hstep, ?_, ?_, ?_⟩
    · rw [hstep]
      exact Dev.rd_catEnd_busy _ _
    · rw [hstep]
      exact Dev.rd_catEnd_result _ hr
    · rw [hstep]
      exact Dev.catEnd_cat _ _
  · intro fields
    have hexec : exec (.catFence p all) s = .next (s.catGo 3 p 0 all) := rfl
    refine ⟨fun hbusy => congrArg _ (State.catGo_of_busy hbusy), fun hidle hall hpatron => ?_, fun hidle hthere => ?_,
      fun c hcat hop => ⟨fun hnone => ?_, fun k hk hwaits => exec_catFenceComplete_of_waits hcat hk hwaits⟩⟩
    · refine ⟨_, hexec.trans (congrArg _ (State.catGo_of_absent hidle rfl hall hpatron)), State.frame_of_keeps ?_, Dev.rd_catEnd_busy _ _,
        Dev.rd_catEnd_result _ (by decide)⟩
      exact Dev.Keeps.trans (e := s.dev.catShown 3 p 0 all) ((Dev.keeps_catShown _ _ _ _ _).mono (by simp [catFields, fields]))
        ((Dev.keeps_catEnd _ _).mono (by simp [fields]))
    · have hgo : s.catGo 3 p 0 all = s.withDev fun d => d.catBegun 3 p 0 all :=
        (State.catGo_of_idle hidle (.inr hthere)).trans (State.catStep_of_fence rfl rfl)
      refine ⟨_, (s.dev.catShown 3 p 0 all).catRequest 3 p 0 all, hexec.trans (congrArg _ hgo), State.frame_of_keeps ?_, ?_, rfl, rfl, ?_⟩
      · exact (Dev.keeps_catBegun _ _ _ _ _).mono (by simp [catFields, fields])
      · exact Dev.rd_catBegun s.dev 3 p 0 all (v := 1) (by simp [catWrites])
      · exact Dev.translated_catShown _ _ _ _ _ _
    · exact ⟨_, exec_catFenceComplete hcat hop hnone, State.frame_of_keeps (Dev.keeps_catEnd _ _), Dev.catEnd_cat _ _, Dev.rd_catEnd_busy _ _,
        Dev.rd_catEnd_result _ (by decide)⟩

end Sys2Proof.Machine
end

section
/-!
Walks, materialisation and its poll (R176, R177, R178, R184).
-/

namespace Sys2Proof.Machine

open Sys2Proof

section Walks

variable {s v : State} {wing : Fin 4} {walk : Fin 64} (env : AccessEnv)

theorem exec_cardLineRead_of_none (h : slotAt s.dev.walks (wing * 64 + walk) = none) : exec (.cardLineRead wing walk env) s = .next s := by
  refine Eq.trans (b := execCardLineRead wing walk env s) rfl ?_
  rw [execCardLineRead, h]

theorem exec_cardLineRead {k : Walk} {data : LineData} {poison hit : Bool} (h : slotAt s.dev.walks (wing * 64 + walk) = some k)
    (hfetch : s.fetch { cls := k.cls, grp := k.grp, patron := k.patron } (k.line * 64) env true = (.line data poison hit, v)) :
    exec (.cardLineRead wing walk env) s = .next
      ((k.reqs.foldl (fun s q => s.walkStep { cls := k.cls, grp := k.grp, patron := k.patron } q k.level k.line data poison)
        (v.withDev fun d => ({ d with walks := SMap.erase (wing * 64 + walk) d.walks } : Dev).count 0x0403 wing (some k.patron))).releaseAll
          fun h => h = .wing wing) := by
  refine Eq.trans (b := execCardLineRead wing walk env s) rfl ?_
  rw [execCardLineRead, h]
  dsimp only
  rw [hfetch]

variable (s) (w : Who) (q : Req) (level line : Nat) (data : LineData)

theorem State.walkStep_of_poison : s.walkStep w q level line data true =
    s.fail q 7 level (line * 64 + cardIndex q.msg.addr.toNat level * 8 % 64) {} := by
  rw [State.walkStep]
  exact if_pos rfl

theorem State.walkStep_of_invalid (h : cardState (cardIn data (line * 64 + cardIndex q.msg.addr.toNat level * 8 % 64)) = 0) :
    s.walkStep w q level line data false = s.fail q 3 level (line * 64 + cardIndex q.msg.addr.toNat level * 8 % 64) {} := by
  rw [State.walkStep]
  dsimp only
  rw [if_neg Bool.false_ne_true, if_pos h]

theorem State.walkStep_of_malformed (hvalid : cardState (cardIn data (line * 64 + cardIndex q.msg.addr.toNat level * 8 % 64)) ≠ 0)
    (h : s.malformed w.patron level (cardIn data (line * 64 + cardIndex q.msg.addr.toNat level * 8 % 64)) = true) :
    s.walkStep w q level line data false = s.fail q 6 level (line * 64 + cardIndex q.msg.addr.toNat level * 8 % 64) {} := by
  rw [State.walkStep]
  dsimp only
  rw [if_neg Bool.false_ne_true, if_neg hvalid, if_pos h]

end Walks

/-- Two changes of the device that agree on the device at hand leave one state. -/
theorem State.withDev_congr {s : State} {f g : Dev → Dev} (h : f s.dev = g s.dev) : s.withDev f = s.withDev g := by
  rw [State.withDev, h, State.withDev]

section Materialisation

variable {s u : State} {m : Materialise} {rest : List Materialise}

theorem exec_materialiseZeroDone_of_none (h : s.dev.materialising = []) : exec .materialiseZeroDone s = .next s := by
  refine Eq.trans (b := execMaterialiseZeroDone s) rfl ?_
  rw [execMaterialiseZeroDone, h]

/-- The materialisations that remain. -/
def Dev.setMaterialising (d : Dev) (l : List Materialise) : Dev := { d with materialising := l }

/-- A materialisation ended: its leaf is counted. -/
def Dev.materialised (d : Dev) (m : Materialise) (rest : List Materialise) : Dev :=
  (d.bump (F.PATRON_LEAVES_COUNT m.patron)).setMaterialising rest

theorem exec_materialiseZeroDone (h : s.dev.materialising = m :: rest) (hwaits : s.dev.mergeWaits = [])
    (hswap : s.swapCard (s.dev.whoOf m.patron 1) m.cardDpa m.card (setCard m.card 0 4 3) cleanEnv = (.done, u))
    (hheld : u.dev.held = []) (hfences : u.dev.fences = []) (hoff : u.dev.countersOff = true) :
    exec .materialiseZeroDone s = .next (u.withDev fun d => d.materialised m rest) := by
  have hcount : (u.dev.bump (F.PATRON_LEAVES_COUNT m.patron)).count 0x0405 0 (some m.patron) = u.dev.bump (F.PATRON_LEAVES_COUNT m.patron) :=
    Dev.count_of_countersOff (d := u.dev.bump _) hoff _ _ _
  refine Eq.trans (b := execMaterialiseZeroDone s) rfl ?_
  rw [execMaterialiseZeroDone, h]
  dsimp only
  rw [hwaits, List.any_nil, if_neg Bool.false_ne_true, hswap]
  dsimp only
  have hended : (u.withDev fun d => (d.bump (F.PATRON_LEAVES_COUNT m.patron)).count 0x0405 0 (some m.patron)).withDev
      (fun d => d.setMaterialising rest) = u.withDev fun d => d.materialised m rest := by
    rw [State.withDev_withDev]
    refine State.withDev_congr ?_
    rw [hcount, Dev.materialised]
  refine (congrArg (fun t : State => Host.Outcome.next (t.releaseAll fun h => h = .card m.cardDpa)) hended).trans ?_
  exact congrArg Host.Outcome.next (State.releaseAll_of_empty (s := u.withDev fun d => d.materialised m rest) hheld hfences _)

end Materialisation

/-- Settles O28: a walk by whether it exists and its line comes, a materialisation by its swap, the poll by what is held. -/
theorem walksAndMaterialisation : Obligations.WalksAndMaterialisation := by
  refine ⟨fun s wing walk env => ⟨exec_cardLineRead_of_none env, fun k data poison hit v => exec_cardLineRead env⟩, ?_,
    fun s => exec_materialiseZeroDone_of_none, ?_, fun s hheld hfences => ?_, fun s => rfl⟩
  · intro s w q level line data cd
    exact ⟨State.walkStep_of_poison s w q level line data, State.walkStep_of_invalid s w q level line data,
      State.walkStep_of_malformed s w q level line data⟩
  · intro s u m rest hlist hwaits hswap hheld hfences hoff
    refine ⟨_, exec_materialiseZeroDone hlist hwaits hswap hheld hfences hoff, State.frame_of_keeps ?_, rfl, Dev.rd_bump_same _ _⟩
    exact Dev.Keeps.trans (e := u.dev.bump _) (Dev.keeps_bump List.mem_cons_self) (Dev.keeps_of_fields rfl)
  · exact congrArg Host.Outcome.next (State.releaseAll_of_empty hheld hfences _)

end Sys2Proof.Machine
end

section
/-!
What a step is, and the machine at reset (R24, R36, R149, Tables 2.4, 7.12, 21.2).
-/

namespace Sys2Proof.Machine

open Sys2Proof

/-- Every command answers a next state: each of its branches is one. -/
theorem exec_answers (c : Instr) (s : State) : ∃ t, exec c s = .next t := by
  cases c <;> exact ⟨_, rfl⟩

/-- Settles O1: a step is `exec` of the front command by its definition, and every command answers. -/
theorem stepRunsFrontCommand : Obligations.StepRunsFrontCommand := by
  unfold Obligations.StepRunsFrontCommand
  exact ⟨fun s c => step_cons _ c s.pending rfl, step_cons, step_nil, exec_answers⟩

/-! ## The fields that final test fixes -/

/-- Where the fields that final test and the board fix lie: in the registers below those of the ports, or in those of the level roles
(R24, R400). -/
def isFusedKey (k : Nat) : Bool := k < (F.PORT_CTL_ENABLE 0).key || (F.LEVEL_ROLE_ROLE 0).key ≤ k && k < (F.LEVEL_ROLE_ROLE 17).key

theorem SMap.get_of_forall_ne {α : Type} (d : α) {k : Nat} : ∀ {m : SMap α}, (∀ x ∈ m, x.1 ≠ k) → SMap.get d m k = d
  | [], _ => rfl
  | (j, v) :: m, h => by
    rw [SMap.get, if_neg (h (j, v) List.mem_cons_self)]
    exact SMap.get_of_forall_ne d fun x hx => h x (List.mem_cons_of_mem _ hx)

theorem State.reset_fields_fused : State.reset.dev.fields.all (fun x => isFusedKey x.1) = true := by
  decide +kernel

/-- A field elsewhere reads its reset value. -/
theorem State.reset_rd_of_not_fused {f : Field} (h : isFusedKey f.key = false) : State.reset.dev.rd f = f.reset := by
  refine SMap.get_of_forall_ne _ fun x hx hk => ?_
  have hfused := List.all_eq_true.mp State.reset_fields_fused x hx
  rw [hk, h] at hfused
  exact absurd hfused (by decide)

theorem State.reset_factoryReserve : State.reset.dev.rd F.DEV_STACK_FACTORY_RESERVE = 16 := by
  decide +kernel

/-- The factory reserve's role, and the roles and shelves of the levels below it (R24). -/
theorem State.reset_roles : State.reset.dev.rd (F.LEVEL_ROLE_ROLE 16) = 1 ∧
    ∀ l < 16, State.reset.dev.rd (F.LEVEL_ROLE_ROLE l) = 0 ∧ State.reset.dev.rd (F.LEVEL_ROLE_SHELF l) = l := by
  decide +kernel

theorem State.reset_status : State.reset.dev.rd F.DEV_STATUS_STATE = 0 ∧ State.reset.dev.rd F.DEV_START_STATUS_PHASE = 0 := by
  decide +kernel

/-- The ports' and the patrons' registers are none that final test fixes. -/
theorem not_isFusedKey_of_port {k : Nat} (h : (F.PORT_CTL_ENABLE 0).key ≤ k) (h' : k < (F.LEVEL_ROLE_ROLE 0).key) :
    isFusedKey k = false := by
  rw [isFusedKey, decide_eq_false (by omega), decide_eq_false (by omega : ¬ (F.LEVEL_ROLE_ROLE 0).key ≤ k)]
  rfl

theorem not_isFusedKey_of_patron {k : Nat} (h : (F.PATRON_CTL_ENABLE 0).key ≤ k) : isFusedKey k = false := by
  have hlast : (F.LEVEL_ROLE_ROLE 17).key ≤ (F.PATRON_CTL_ENABLE 0).key := by decide
  have hport : (F.PORT_CTL_ENABLE 0).key ≤ (F.PATRON_CTL_ENABLE 0).key := by decide
  rw [isFusedKey, decide_eq_false (by omega), decide_eq_false (by omega : ¬ k < (F.LEVEL_ROLE_ROLE 17).key), Bool.and_false]
  rfl

theorem State.reset_port (p : Fin 64) :
    State.reset.dev.rd (F.PORT_CTL_ENABLE p) = 0 ∧ ∀ k : Fin 4, State.reset.dev.lst (4 * p.val + k) = 0 := by
  refine ⟨State.reset_rd_of_not_fused (not_isFusedKey_of_port ?_ ?_), fun k => ?_⟩
  · simp only [Field.key, F.PORT_CTL_ENABLE]; omega
  · simp only [Field.key, F.PORT_CTL_ENABLE, F.LEVEL_ROLE_ROLE]; omega
  · rw [Dev.lst, show (4 * p.val + k) / 4 = p by omega, show (4 * p.val + k) % 4 = k by omega]
    refine State.reset_rd_of_not_fused (not_isFusedKey_of_port ?_ ?_)
    · simp only [Field.key, F.PORT_CTL_ENABLE, F.PORT_LINK_STATE]; omega
    · simp only [Field.key, F.PORT_LINK_STATE, F.LEVEL_ROLE_ROLE]; omega

theorem State.reset_patron (p : Fin 4096) :
    State.reset.dev.rd (F.PATRON_CTL_ENABLE p) = 0 ∧ ∀ i : Fin 6, State.reset.dev.ringState p i = ringDisabled := by
  refine ⟨State.reset_rd_of_not_fused (not_isFusedKey_of_patron ?_), fun i =>
    State.reset_rd_of_not_fused (not_isFusedKey_of_patron ?_)⟩
  · simp only [Field.key, F.PATRON_CTL_ENABLE]; omega
  · simp only [Field.key, F.PATRON_CTL_ENABLE, F.RING_STATUS_STATE]; omega

/-- Settles O2: the memory, the ledger and the queue are empty at reset, and the field store lists only what final test fixes. -/
theorem resetLeavesTheMachine : Obligations.ResetLeavesTheMachine := by
  unfold Obligations.ResetLeavesTheMachine
  obtain ⟨hrole, hroles⟩ := State.reset_roles
  obtain ⟨hstate, hphase⟩ := State.reset_status
  exact ⟨rfl, rfl, fun _ => rfl, rfl, rfl, rfl, rfl, State.reset_factoryReserve, hrole, hroles, State.reset_port,
    State.reset_patron, hstate, hphase⟩

end Sys2Proof.Machine

end

section
/-!
Patron rings and house rings enabled and disabled, and the header of a house ring (R235, R236, R238, R250, R251).
-/

namespace Sys2Proof.Machine

open Sys2Proof

/-- What a verdict with one reason field of its own leaves: the triggering bit, and the code in both reasons (R12). -/
theorem Dev.rd_verdict (d : Dev) (t : Trigger) (detail : Nat) {code : Nat} {own bit : Field} (v : Bool) (hlt : code < 256) (hwidth : bit.width = 1)
    (hown : own.width = 8) (hkeys : F.DEV_REASON_CODE.key ≠ bit.key ∧ F.DEV_REASON_CODE.key ≠ own.key ∧ own.key ≠ bit.key) :
    (d.verdict t detail code [own] bit v).rd bit = v.toNat ∧ (d.verdict t detail code [own] bit v).rd F.DEV_REASON_CODE = code ∧
      (d.verdict t detail code [own] bit v).rd own = code := by
  obtain ⟨hbit, hreason, hne⟩ := hkeys
  refine ⟨(Dev.rd_verdict_bit ..).trans ?_, (Dev.rd_verdict_code _ _ _ _ _ _ _ hbit (by simpa using hreason)).trans
    (Nat.mod_eq_of_lt hlt), (Dev.rd_verdict_own _ _ _ _ _ _ hne).trans ?_⟩
  · rw [hwidth]
    cases v <;> rfl
  · rw [hown]
    exact Nat.mod_eq_of_lt hlt

/-! ## Rings of a patron -/

/-- The verdict on ENABLE of a patron's ring. -/
def Dev.ringVerdict (d : Dev) (p i code : Nat) (v : Bool) : Dev :=
  d.verdict .ring (ringDetail p i) code [F.RING_STATUS_REASON p i] (F.RING_CTL_ENABLE p i) v

section Ring

variable (d : Dev) (p i : Nat) {code : Nat} (v : Bool)

theorem Dev.keeps_ringVerdict : d.Keeps (F.RING_CTL_ENABLE p i :: F.RING_STATUS_REASON p i :: reasonFields) (d.ringVerdict p i code v) :=
  Dev.keeps_verdict d .ring _ code [F.RING_STATUS_REASON p i] (F.RING_CTL_ENABLE p i) v

theorem ring_keys : F.DEV_REASON_CODE.key ≠ (F.RING_CTL_ENABLE p i).key ∧ F.DEV_REASON_CODE.key ≠ (F.RING_STATUS_REASON p i).key ∧
    (F.RING_STATUS_REASON p i).key ≠ (F.RING_CTL_ENABLE p i).key := by
  simp only [Field.key, F.DEV_REASON_CODE, F.RING_CTL_ENABLE, F.RING_STATUS_REASON]
  omega

theorem ringStatus_nodup : ([F.RING_STATUS_STATE p i, F.RING_STATUS_INDEX p i].map Field.key).Nodup := by
  simp [Field.key, F.RING_STATUS_STATE, F.RING_STATUS_INDEX]

/-- STATE and INDEX of a ring are other fields than its ENABLE and the reasons. -/
theorem ringStatus_keys : ∀ f ∈ [F.RING_STATUS_STATE p i, F.RING_STATUS_INDEX p i],
    (F.RING_CTL_ENABLE p i).key ≠ f.key ∧ F.DEV_REASON_CODE.key ≠ f.key ∧ f.key ∉ reasonFields.map Field.key := by
  simp [Field.key, reasonFields, F.DEV_REASON_CODE, F.DEV_REASON_TRIGGER, F.DEV_REASON_DETAIL, F.RING_CTL_ENABLE, F.RING_STATUS_STATE,
    F.RING_STATUS_INDEX]
  omega

theorem ringState_key_ne : (F.RING_STATUS_STATE p i).key ≠ (F.RING_STATUS_REASON p i).key := by
  simp [Field.key, F.RING_STATUS_STATE, F.RING_STATUS_REASON]

theorem Dev.rd_ringVerdict (h : code < 256) : (d.ringVerdict p i code v).rd (F.RING_CTL_ENABLE p i) = v.toNat ∧
    (d.ringVerdict p i code v).rd F.DEV_REASON_CODE = code ∧ (d.ringVerdict p i code v).rd (F.RING_STATUS_REASON p i) = code :=
  Dev.rd_verdict d .ring _ v h rfl rfl (ring_keys p i)

theorem Dev.keeps_ringStart : d.Keeps [F.RING_STATUS_STATE p i, F.RING_STATUS_INDEX p i] (d.ringStart p i) :=
  Dev.Keeps.trans (e := d.wrs [(F.RING_STATUS_STATE p i, ringActive), (F.RING_STATUS_INDEX p i, 0)]) (Dev.keeps_wrs (List.Subset.refl _))
    (Dev.keeps_of_fields rfl)

theorem Dev.rd_ringStart : (d.ringStart p i).rd (F.RING_STATUS_STATE p i) = 1 ∧ (d.ringStart p i).rd (F.RING_STATUS_INDEX p i) = 0 :=
  ⟨Dev.rd_wrs_of_mem d (v := ringActive) (ringStatus_nodup p i) (by simp),
    Dev.rd_wrs_of_mem d (v := 0) (ringStatus_nodup p i) (by simp)⟩

/-- The state of a ring is no part of a verdict. -/
theorem Dev.ringState_ringVerdict : (d.ringVerdict p i code v).ringState p i = d.ringState p i := by
  obtain ⟨hbit, -, hreason⟩ := ringStatus_keys p i _ List.mem_cons_self
  refine Dev.keeps_ringVerdict d p i v _ fun hmem => ?_
  rcases List.mem_cons.mp hmem with h | hmem
  · exact hbit h.symm
  rcases List.mem_cons.mp hmem with h | hmem
  · exact ringState_key_ne p i h
  · exact hreason hmem

end Ring

section RingCommands

variable {s : State} {p : Fin 4096} {i : Fin 6}

theorem exec_ringEnable_of_on (h : s.dev.rd (F.RING_CTL_ENABLE p i) ≠ 0) : exec (.ringEnable p i) s = .next s := by
  refine Eq.trans (b := execRingEnable p i s) rfl ?_
  rw [execRingEnable]
  exact State.next_of_same (if_pos (by simp [h]))

theorem exec_ringEnable_of_pass (h : s.dev.rd (F.RING_CTL_ENABLE p i) = 0)
    (hcode : firstCode (s.dev.commonChecks .ring ++ s.dev.ringChecks p i) = 0) :
    exec (.ringEnable p i) s = .next (s.withDev fun d => (d.ringVerdict p i 0 true).ringStart p i) := by
  refine Eq.trans (b := execRingEnable p i s) rfl ?_
  rw [execRingEnable]
  refine State.next_congr ?_
  rw [Dev.ringEnable, if_neg (by simp [h]), Dev.checked_eq, hcode]
  rfl

theorem exec_ringEnable_of_fail (h : s.dev.rd (F.RING_CTL_ENABLE p i) = 0) {code : Nat}
    (hcode : firstCode (s.dev.commonChecks .ring ++ s.dev.ringChecks p i) = code) (hne : code ≠ 0) :
    exec (.ringEnable p i) s = .next (s.withDev fun d => d.ringVerdict p i code false) := by
  refine Eq.trans (b := execRingEnable p i s) rfl ?_
  rw [execRingEnable]
  refine State.next_congr ?_
  rw [Dev.ringEnable, if_neg (by simp [h]), Dev.checked_eq, hcode, decide_eq_false hne]
  rfl

theorem exec_ringDisable_of_off (h : s.dev.rd (F.RING_CTL_ENABLE p i) = 0) : exec (.ringDisable p i) s = .next s := by
  refine Eq.trans (b := execRingDisable p i s) rfl ?_
  rw [execRingDisable]
  exact State.next_of_same (if_pos (by simp [h]))

section Disable

variable (h : s.dev.rd (F.RING_CTL_ENABLE p i) ≠ 0)
include h

/-- A completion or fault ring is disabled at once where no submission ring runs (R238). -/
theorem exec_ringDisable_of_idle (hi : 4 ≤ i.val) (hbusy : (List.range 4).any (fun j => s.dev.ringState p j ≠ ringDisabled) = false)
    (hstate : s.dev.ringState p i ≠ ringPaused) : exec (.ringDisable p i) s = .next (s.withDev fun d =>
      (d.ringVerdict p i 0 false).wr (F.RING_STATUS_STATE p i) ringDisabled) := by
  refine Eq.trans (b := execRingDisable p i s) rfl ?_
  rw [execRingDisable]
  refine State.next_congr ?_
  have hpaused : ¬ (s.dev.ringVerdict p i 0 false).ringState p i = ringPaused := by
    rw [Dev.ringState_ringVerdict]
    exact hstate
  rw [Dev.ringDisable, if_neg (by simp [h]), hbusy]
  dsimp only
  rw [if_neg (by omega), Dev.checkedOff_eq]
  refine (if_neg hpaused).trans ?_
  rw [Dev.ringStop, if_neg (by omega), if_neg (by omega)]
  rfl

theorem exec_ringDisable_of_busy (hi : 4 ≤ i.val) (hbusy : (List.range 4).any (fun j => s.dev.ringState p j ≠ ringDisabled) = true) :
    exec (.ringDisable p i) s = .next (s.withDev fun d => d.ringVerdict p i 0x89 true) := by
  refine Eq.trans (b := execRingDisable p i s) rfl ?_
  rw [execRingDisable]
  refine State.next_congr ?_
  rw [Dev.ringDisable, if_neg (by simp [h]), hbusy]
  dsimp only
  rw [if_neg (by omega), Dev.checkedOff_eq]
  rfl

theorem exec_ringDisable_of_submission (hi : i.val < 4) : exec (.ringDisable p i) s = .next (s.withDev fun d =>
    if s.dev.ringState p i = ringPaused then d.wr (F.RING_CTL_ENABLE p i) 0 else (d.wr (F.RING_CTL_ENABLE p i) 0).ringStop p i) := by
  obtain ⟨hbit, -⟩ := ringStatus_keys p i _ List.mem_cons_self
  have hstate : (s.dev.wr (F.RING_CTL_ENABLE p i) 0).ringState p i = s.dev.ringState p i := Dev.rd_wr_ne _ hbit.symm _
  refine Eq.trans (b := execRingDisable p i s) rfl ?_
  rw [execRingDisable]
  refine State.next_congr ?_
  rw [Dev.ringDisable, if_neg (by simp [h])]
  dsimp only
  rw [if_pos hi]
  exact ite_congr (by rw [hstate]) (fun _ => rfl) fun _ => rfl

end Disable

end RingCommands

/-! ## House rings -/

/-- The verdict on ENABLE of a house ring. -/
def Dev.houseVerdict (d : Dev) (r code : Nat) (v : Bool) : Dev :=
  d.verdict .ring (0x8000 + r) code [F.HOUSE_RING_STATUS_REASON r] (F.HOUSE_RING_CTL_ENABLE r) v

/-- A house ring ACTIVE with both indices 0 (R250). -/
def Dev.houseStart (d : Dev) (r : Nat) : Dev :=
  (d.wrs [(F.HOUSE_RING_STATUS_STATE r, ringActive), (F.HOUSE_RING_STATUS_INDEX r, 0)]).setHouse r fun _ => {}

section House

variable (d : Dev) (r : Nat) {code : Nat} (v : Bool)

theorem Dev.keeps_houseVerdict :
    d.Keeps (F.HOUSE_RING_CTL_ENABLE r :: F.HOUSE_RING_STATUS_REASON r :: reasonFields) (d.houseVerdict r code v) :=
  Dev.keeps_verdict d .ring _ code [F.HOUSE_RING_STATUS_REASON r] (F.HOUSE_RING_CTL_ENABLE r) v

theorem house_keys : F.DEV_REASON_CODE.key ≠ (F.HOUSE_RING_CTL_ENABLE r).key ∧ F.DEV_REASON_CODE.key ≠ (F.HOUSE_RING_STATUS_REASON r).key ∧
    (F.HOUSE_RING_STATUS_REASON r).key ≠ (F.HOUSE_RING_CTL_ENABLE r).key := by
  simp only [Field.key, F.DEV_REASON_CODE, F.HOUSE_RING_CTL_ENABLE, F.HOUSE_RING_STATUS_REASON]
  omega

theorem houseEnable_key_not_mem :
    (F.HOUSE_RING_CTL_ENABLE r).key ∉ [F.HOUSE_RING_STATUS_STATE r, F.HOUSE_RING_STATUS_INDEX r].map Field.key := by
  simp [Field.key, F.HOUSE_RING_CTL_ENABLE, F.HOUSE_RING_STATUS_STATE, F.HOUSE_RING_STATUS_INDEX]
  omega

theorem houseStatus_nodup : ([F.HOUSE_RING_STATUS_STATE r, F.HOUSE_RING_STATUS_INDEX r].map Field.key).Nodup := by
  simp [Field.key, F.HOUSE_RING_STATUS_STATE, F.HOUSE_RING_STATUS_INDEX]

theorem Dev.rd_houseVerdict (h : code < 256) : (d.houseVerdict r code v).rd (F.HOUSE_RING_CTL_ENABLE r) = v.toNat ∧
    (d.houseVerdict r code v).rd F.DEV_REASON_CODE = code ∧ (d.houseVerdict r code v).rd (F.HOUSE_RING_STATUS_REASON r) = code :=
  Dev.rd_verdict d .ring _ v h rfl rfl (house_keys r)

theorem Dev.keeps_houseStart : d.Keeps [F.HOUSE_RING_STATUS_STATE r, F.HOUSE_RING_STATUS_INDEX r] (d.houseStart r) :=
  Dev.Keeps.trans (e := d.wrs [(F.HOUSE_RING_STATUS_STATE r, ringActive), (F.HOUSE_RING_STATUS_INDEX r, 0)])
    (Dev.keeps_wrs (List.Subset.refl _)) (Dev.keeps_of_fields rfl)

theorem Dev.rd_houseStart : (d.houseStart r).rd (F.HOUSE_RING_STATUS_STATE r) = 1 ∧ (d.houseStart r).rd (F.HOUSE_RING_STATUS_INDEX r) = 0 :=
  ⟨Dev.rd_wrs_of_mem d (v := ringActive) (houseStatus_nodup r) (by simp),
    Dev.rd_wrs_of_mem d (v := 0) (houseStatus_nodup r) (by simp)⟩

/-- A house ring's own record after a change of it. -/
@[simp] theorem Dev.houseRing_setHouse (f : HouseRing → HouseRing) : (d.setHouse r f).houseRing r = f (d.houseRing r) :=
  SMap.get_modify_same ..

/-- Without held records none is written and none dropped. -/
theorem Dev.houseFlush_of_empty (h : (d.houseRing r).held = []) (fuel : Nat) : d.houseFlush r fuel = d := by
  cases fuel with
  | zero => rfl
  | succ fuel => rw [Dev.houseFlush, h]

theorem Dev.houseDropHeld_of_empty (h : (d.houseRing r).held = []) : d.houseDropHeld r = d.setHouse r fun x => { x with held := [] } := by
  rw [Dev.houseDropHeld, h]
  rfl

/-- A house ring's header taken, where the ring holds no record: its reads end, the consumer index stands (R251). -/
def Dev.headerTaken (d : Dev) (r ci : Nat) : Dev :=
  (({ d with hostOps := d.hostOps.filter (fun o => o.purpose ≠ .header r) } : Dev).setHouse r fun x =>
    { x with ci := ci, reading := false }).setHouse r fun x => { x with held := [] }

theorem Dev.headerReturn_of_empty (hr : r ≠ 0) (h : (d.houseRing r).held = []) (ci : Nat) : d.headerReturn r ci = d.headerTaken r ci := by
  have hheld : ((({ d with hostOps := d.hostOps.filter (fun o => o.purpose ≠ .header r) } : Dev).setHouse r fun x =>
      { x with ci := ci, reading := false }).houseRing r).held = [] := by
    rw [Dev.houseRing_setHouse]
    exact h
  rw [Dev.headerReturn, if_neg hr, Dev.houseFlush_of_empty _ _ hheld, Dev.houseDropHeld_of_empty _ _ hheld, Dev.headerTaken]

theorem Dev.houseRing_headerTaken (ci : Nat) : (d.headerTaken r ci).houseRing r = { d.houseRing r with ci := ci, reading := false, held := [] } := by
  rw [Dev.headerTaken, Dev.houseRing_setHouse, Dev.houseRing_setHouse]
  rfl

end House

section HouseCommands

variable {s : State} {r : Fin 4}

theorem exec_houseRingEnable_of_on (h : s.dev.rd (F.HOUSE_RING_CTL_ENABLE r) ≠ 0) : exec (.houseRingEnable r) s = .next s := by
  refine Eq.trans (b := execHouseRingEnable r s) rfl ?_
  rw [execHouseRingEnable, State.houseEnable, if_pos (by simp [h])]

theorem exec_houseRingEnable_of_pass (h : s.dev.rd (F.HOUSE_RING_CTL_ENABLE r) = 0)
    (hcode : firstCode (s.dev.commonChecks .ring ++ s.houseChecks r) = 0) (hr : r ≠ 0) :
    exec (.houseRingEnable r) s = .next (s.withDev fun d => (d.houseVerdict r 0 true).houseStart r) := by
  have hne : r.val ≠ 0 := fun hz => hr (Fin.ext hz)
  refine Eq.trans (b := execHouseRingEnable r s) rfl ?_
  rw [execHouseRingEnable, State.houseEnable, if_neg (by simp [h]), Dev.checked_eq, hcode]
  simp only [if_neg hne]
  rfl

theorem exec_houseRingEnable_of_fail (h : s.dev.rd (F.HOUSE_RING_CTL_ENABLE r) = 0) {code : Nat}
    (hcode : firstCode (s.dev.commonChecks .ring ++ s.houseChecks r) = code) (hne : code ≠ 0) :
    exec (.houseRingEnable r) s = .next (s.withDev fun d => d.houseVerdict r code false) := by
  refine Eq.trans (b := execHouseRingEnable r s) rfl ?_
  rw [execHouseRingEnable, State.houseEnable, if_neg (by simp [h]), Dev.checked_eq, hcode, decide_eq_false hne]
  rfl

theorem exec_houseHeaderReread_of_room (h : s.dev.houseFull r = false) : exec (.houseHeaderReread r) s = .next s := by
  refine Eq.trans (b := execHouseHeaderReread r s) rfl ?_
  rw [execHouseHeaderReread]
  exact State.next_of_same (if_neg (by simp [h]))

theorem exec_houseHeaderReread (h : s.dev.houseFull r = true) (hactive : s.dev.rd (F.HOUSE_RING_STATUS_STATE r) = 1)
    (hreading : (s.dev.houseRing r).reading = false) : exec (.houseHeaderReread r) s = .next (s.withDev fun d =>
      (d.hostRead d.houseLink 0 (.header r) (d.houseBase r) 1).setHouse r fun x => { x with reading := true }) := by
  refine Eq.trans (b := execHouseHeaderReread r s) rfl ?_
  rw [execHouseHeaderReread]
  exact State.next_congr ((if_pos h).trans (if_pos ⟨hactive, by simp [hreading]⟩))

theorem exec_houseHeaderReturn_of_unasked (header : LineData)
    (h : s.dev.hostOps.any (fun o => o.purpose = .header r && !o.waiting) = false) : exec (.houseHeaderReturn r header) s = .next s := by
  refine Eq.trans (b := execHouseHeaderReturn r header s) rfl ?_
  rw [execHouseHeaderReturn]
  exact State.next_of_same (if_neg (by simp only [h]; decide))

theorem exec_houseHeaderReturn (header : LineData)
    (h : s.dev.hostOps.any (fun o => o.purpose = .header r && !o.waiting) = true) (hr : r ≠ 0) (hheld : (s.dev.houseRing r).held = []) :
    exec (.houseHeaderReturn r header) s = .next (s.withDev fun d => d.headerTaken r (header.toNat / 2 ^ 16 % 2 ^ 16)) := by
  refine Eq.trans (b := execHouseHeaderReturn r header s) rfl ?_
  rw [execHouseHeaderReturn]
  exact State.next_congr ((if_pos h).trans (Dev.headerReturn_of_empty _ _ (fun hz => hr (Fin.ext hz)) hheld _))

end HouseCommands

/-! ## The obligation -/

/-- Settles O29: each command's equation, with the reads of its verdict and of the ring's start. -/
theorem allRingsStartAndStop : Obligations.AllRingsStartAndStop := by
  unfold Obligations.AllRingsStartAndStop
  refine ⟨fun s p i => ⟨exec_ringEnable_of_on, fun hoff hcode => ?_, fun hoff hne hlt => ?_, exec_ringDisable_of_off,
    fun hon hi hbusy hstate => ?_, fun hon hi hbusy => ?_, exec_ringDisable_of_submission⟩,
    fun s r => ⟨exec_houseRingEnable_of_on, fun hoff hcode hr => ?_, fun hoff hne hlt => ?_, exec_houseHeaderReread_of_room,
      fun hfull hactive hreading => ?_, exec_houseHeaderReturn_of_unasked, fun header hasked hr hheld => ?_⟩⟩
  · obtain ⟨hstate, hindex⟩ := Dev.rd_ringStart (s.dev.ringVerdict p i 0 true) p i
    obtain ⟨henable, hreason, -⟩ := Dev.rd_ringVerdict s.dev p i true (code := 0) (by decide)
    have hkeys := ringStatus_keys p i
    have hkept : ∀ {f : Field}, (∀ g ∈ [F.RING_STATUS_STATE p i, F.RING_STATUS_INDEX p i], f.key ≠ g.key) →
        ((s.dev.ringVerdict p i 0 true).ringStart p i).rd f = (s.dev.ringVerdict p i 0 true).rd f := fun hf =>
      Dev.keeps_ringStart _ p i _ fun hmem => by
        obtain ⟨g, hg, heq⟩ := List.mem_map.mp hmem
        exact hf g hg heq.symm
    exact ⟨_, exec_ringEnable_of_pass hoff hcode, State.frame_of_keeps (((Dev.keeps_ringVerdict s.dev p i true).mono (by simp [reasonFields])).trans
      ((Dev.keeps_ringStart _ p i).mono (by simp))), (hkept fun g hg => (hkeys g hg).1).trans henable, hstate, hindex,
      (hkept fun g hg => (hkeys g hg).2.1).trans hreason⟩
  · obtain ⟨henable, hreason, hown⟩ := Dev.rd_ringVerdict s.dev p i false hlt
    exact ⟨_, exec_ringEnable_of_fail hoff rfl hne, State.frame_of_keeps ((Dev.keeps_ringVerdict s.dev p i false).mono (by simp [reasonFields])), henable, hreason, hown⟩
  · obtain ⟨henable, hreason, -⟩ := Dev.rd_ringVerdict s.dev p i false (code := 0) (by decide)
    obtain ⟨hbit, hcode, -⟩ := ringStatus_keys p i _ List.mem_cons_self
    exact ⟨_, exec_ringDisable_of_idle hon hi hbusy hstate, State.frame_of_keeps
      (((Dev.keeps_ringVerdict s.dev p i false).mono (by simp [reasonFields])).trans (Dev.keeps_wr (by simp) _)),
      (Dev.rd_wr_ne _ hbit _).trans henable, Dev.rd_wr_same _ _ _, (Dev.rd_wr_ne _ hcode _).trans hreason⟩
  · obtain ⟨henable, hreason, -⟩ := Dev.rd_ringVerdict s.dev p i true (code := 0x89) (by decide)
    exact ⟨_, exec_ringDisable_of_busy hon hi hbusy, State.frame_of_keeps
      ((Dev.keeps_ringVerdict s.dev p i true).mono (by simp [reasonFields])), henable, hreason⟩
  · obtain ⟨henable, -, -⟩ := Dev.rd_houseVerdict s.dev r true (code := 0) (by decide)
    obtain ⟨hstate, hindex⟩ := Dev.rd_houseStart (s.dev.houseVerdict r 0 true) r
    refine ⟨_, exec_houseRingEnable_of_pass hoff hcode hr, State.frame_of_keeps
      (((Dev.keeps_houseVerdict s.dev r true).mono (by simp [reasonFields])).trans ((Dev.keeps_houseStart _ r).mono (by simp))),
      (Dev.keeps_houseStart _ r _ (houseEnable_key_not_mem r)).trans henable, hstate, hindex, ?_⟩
    exact congrArg HouseRing.ci (Dev.houseRing_setHouse _ r _)
  · obtain ⟨henable, hreason, -⟩ := Dev.rd_houseVerdict s.dev r false hlt
    exact ⟨_, exec_houseRingEnable_of_fail hoff rfl hne, State.frame_of_keeps
      ((Dev.keeps_houseVerdict s.dev r false).mono (by simp [reasonFields])), henable, hreason⟩
  · refine ⟨_, exec_houseHeaderReread hfull hactive hreading, State.frame_of_keeps (Dev.keeps_of_fields ?_),
      congrArg HouseRing.reading (Dev.houseRing_setHouse _ r _), rfl⟩
    rfl
  · have hring := Dev.houseRing_headerTaken s.dev r (header.toNat / 2 ^ 16 % 2 ^ 16)
    exact ⟨_, exec_houseHeaderReturn header hasked hr hheld, State.frame_of_keeps (Dev.keeps_of_fields rfl),
      congrArg HouseRing.reading hring, congrArg HouseRing.ci hring, fun o ho => of_decide_eq_true (List.mem_filter.mp ho).2⟩

end Sys2Proof.Machine

end

section
/-!
Bells, their record and its timer (R166, R239, R240, R241).
-/

namespace Sys2Proof.Machine

open Sys2Proof

/-! ## The read of a bell record -/

section Read

variable {d : Dev} {p : Nat}

theorem Dev.bellRead_of_idle (h : d.hostOps.any (fun o => o.patron = p && o.purpose = .bell) = false) :
    d.bellRead p = d.hostRead (d.patronLink p) p .bell (d.bellAddr p / 64 * 64) 1 := by
  rw [Dev.bellRead, if_neg (by simp only [h]; decide)]

theorem Dev.bellRead_of_outstanding (hoff : d.countersOff = true) (h : d.hostOps.any (fun o => o.patron = p && o.purpose = .bell) = true) :
    d.bellRead p = d.setRings p fun r => { r with pending := true } := by
  rw [Dev.bellRead, if_pos h]
  exact Dev.count_of_countersOff (d := d.setRings p fun r => { r with pending := true }) hoff _ _ _

/-- A host read changes no register, and adds one message and one operation under the next tag. -/
theorem Dev.hostRead_reads (d : Dev) (link q : Nat) (purpose : HostFor) (addr lines : Nat) :
    (d.hostRead link q purpose addr lines).fields = d.fields ∧
    (d.hostRead link q purpose addr lines).out = d.out ++
      [(link, { op := 0x20, arg := lines - 1, tag := d.hostTag, patron := q, addr := BitVec.ofNat 64 addr })] ∧
    (d.hostRead link q purpose addr lines).hostTag = (d.hostTag + 1) % 4096 ∧
    (d.hostRead link q purpose addr lines).hostOps.length = d.hostOps.length + 1 :=
  ⟨rfl, rfl, rfl, List.length_append⟩

end Read

/-! ## BELL at its port -/

section Bell

variable {s : State} {link : Fin 256} {msg : Msg}

theorem exec_bell_of_down (h : s.dev.linkUp link = false) : exec (.bell link msg) s = .next s := by
  refine Eq.trans (b := execBell link msg s) rfl ?_
  rw [execBell, if_pos (by simp [h])]

variable (hoff : s.dev.countersOff = true) (hup : s.dev.linkUp link = true) (hport : s.dev.peerPort (link / 4) = false)
include hoff hup hport

/-- A bell of a patron that is not bound to the link (R166). -/
theorem exec_bell_of_unbound (hbound : s.bound link msg.patron = false) : exec (.bell link msg) s = .next (s.withDev fun d =>
    (d.wr (F.PATRON_STATUS_LAST_TF msg.patron) 1).raise .patronNotBound (Src.link (link / 4) (link % 4))) := by
  refine Eq.trans (b := execBell link msg s) rfl ?_
  rw [execBell, if_neg (by simp [hup]), if_neg (by simp [hport]), if_pos (by simp [hbound])]
  refine congrArg Host.Outcome.next ?_
  rw [State.withDev_withDev]
  refine State.withDev_congr ?_
  rw [Dev.count_of_countersOff hoff, Dev.count_of_countersOff (d := s.dev.wr _ _) hoff]

/-- A proper bell for a submission ring that is neither DISABLED nor in ERROR (R239). -/
theorem exec_bell_of_proper (hbound : s.bound link msg.patron = true) (hactive : s.dev.rd (F.PATRON_STATUS_ACTIVE msg.patron) ≠ 0)
    (hreserved : msg.reserved = false) (harg : msg.arg < 4) (haddr : msg.addr = 0) (htag : msg.tag = 0)
    (hdis : s.dev.ringState msg.patron msg.arg ≠ ringDisabled) (herr : s.dev.ringState msg.patron msg.arg ≠ ringError) :
    exec (.bell link msg) s = .next (s.withDev fun d => d.bellRead msg.patron) := by
  have hfields : ¬ (msg.reserved || decide (8 ≤ msg.arg) || msg.addr ≠ 0 || msg.tag ≠ 0) = true := by
    simp [hreserved, haddr, htag]
    omega
  refine Eq.trans (b := execBell link msg s) rfl ?_
  rw [execBell, if_neg (by simp [hup]), if_neg (by simp [hport]), if_neg (by simp [hbound]), if_neg (by simp [hactive]), if_neg hfields]
  refine congrArg Host.Outcome.next (State.withDev_congr ?_)
  rw [Dev.bellAccepted, if_neg (by omega), if_neg (not_or.mpr ⟨hdis, herr⟩), Dev.count_of_countersOff hoff]

end Bell

/-! ## The record's return and the timer -/

section Record

variable {s : State} {p : Fin 4096}

theorem exec_bellRecordReturn_of_unasked (line : LineData)
    (h : s.dev.hostOps.any (fun o => o.patron = p && o.purpose = .bell && !o.waiting) = false) : exec (.bellRecordReturn p line) s = .next s := by
  refine Eq.trans (b := execBellRecordReturn p line s) rfl ?_
  rw [execBellRecordReturn]
  exact State.next_of_same (if_neg (by simp only [h]; decide))

theorem exec_bellRecordReturn (line : LineData)
    (h : s.dev.hostOps.any (fun o => o.patron = p && o.purpose = .bell && !o.waiting) = true) :
    exec (.bellRecordReturn p line) s = .next (s.withDev fun d => d.bellReturn p line) := by
  refine Eq.trans (b := execBellRecordReturn p line s) rfl ?_
  rw [execBellRecordReturn]
  exact State.next_congr (if_pos h)

theorem exec_bellRereadTimer_of_none (h : (s.dev.ringSide p).waiting = [] ∨ s.dev.ringState p 4 ≠ ringActive ∨
    s.dev.hostOps.any (fun o => o.patron = p && o.purpose = .bell) = true) : exec (.bellRereadTimer p) s = .next s := by
  refine Eq.trans (b := execBellRereadTimer p s) rfl ?_
  rw [execBellRereadTimer]
  refine State.next_of_same (if_neg fun ⟨hwaiting, hactive, hidle⟩ => ?_)
  rcases h with h | h | h
  · exact hwaiting h
  · exact h hactive
  · exact hidle h

theorem exec_bellRereadTimer (hwaiting : (s.dev.ringSide p).waiting ≠ []) (hactive : s.dev.ringState p 4 = ringActive)
    (hidle : s.dev.hostOps.any (fun o => o.patron = p && o.purpose = .bell) = false) :
    exec (.bellRereadTimer p) s = .next (s.withDev fun d => d.bellRead p) := by
  refine Eq.trans (b := execBellRereadTimer p s) rfl ?_
  rw [execBellRereadTimer]
  exact State.next_congr (if_pos ⟨hwaiting, hactive, fun h => absurd (hidle.symm.trans h) (by decide)⟩)

/-- The read of a patron's bell record (R240, Table 13.4). -/
def Dev.bellMsg (d : Dev) (q : Nat) : Msg :=
  { op := 0x20, arg := 0, tag := d.hostTag, patron := q, addr := BitVec.ofNat 64 (d.bellAddr q / 64 * 64) }

/-- One read of a patron's bell record sent, and nothing else (R240). -/
def State.readsBell (s t : State) (q : Nat) : Prop :=
  s.frame t [] ∧ t.dev.out = s.dev.out ++ [(s.dev.patronLink q, s.dev.bellMsg q)] ∧
    t.dev.hostTag = (s.dev.hostTag + 1) % 4096 ∧ t.dev.hostOps.length = s.dev.hostOps.length + 1

theorem State.readsBell_of_idle {q : Nat} (h : s.dev.hostOps.any (fun o => o.patron = q && o.purpose = .bell) = false) :
    s.readsBell (s.withDev fun d => d.bellRead q) q := by
  obtain ⟨hfields, hout, htag, hops⟩ := Dev.hostRead_reads s.dev (s.dev.patronLink q) q .bell (s.dev.bellAddr q / 64 * 64) 1
  rw [State.withDev_congr (Dev.bellRead_of_idle h) (g := fun d => d.hostRead (d.patronLink q) q .bell (d.bellAddr q / 64 * 64) 1)]
  exact ⟨State.frame_of_keeps (Dev.keeps_of_fields hfields), hout, htag, hops⟩

end Record

/-- Settles O30: the checks of a bell in their order, then the read of the record, which touches no register. -/
theorem bellsReadTheRecord : Obligations.BellsReadTheRecord := by
  unfold Obligations.BellsReadTheRecord
  intro s link msg p hoff
  refine ⟨exec_bell_of_down, fun hup hport hbound => ?_, fun hup hport hbound hactive hreserved harg haddr htag hdis herr =>
    ⟨fun hidle => ?_, fun hbusy => ?_⟩, exec_bellRecordReturn_of_unasked, exec_bellRecordReturn, exec_bellRereadTimer_of_none, fun hwaiting hactive hidle => ?_⟩
  · refine ⟨_, exec_bell_of_unbound hoff hup hport hbound, State.frame_of_keeps ?_, ?_, rfl, ?_⟩
    · exact Dev.Keeps.trans (e := s.dev.wr _ _) (Dev.keeps_wr List.mem_cons_self 1) (Dev.keeps_of_fields rfl)
    · exact Dev.rd_wr_same s.dev (F.PATRON_STATUS_LAST_TF msg.patron) 1
    · exact List.map_append
  · exact ⟨_, exec_bell_of_proper hoff hup hport hbound hactive hreserved harg haddr htag hdis herr, State.readsBell_of_idle hidle⟩
  · refine ⟨_, (exec_bell_of_proper hoff hup hport hbound hactive hreserved harg haddr htag hdis herr).trans
      (congrArg Host.Outcome.next (State.withDev_congr (Dev.bellRead_of_outstanding hoff hbusy) (g := fun d =>
        d.setRings msg.patron fun r => { r with pending := true }))), State.frame_of_keeps (Dev.keeps_of_fields rfl), rfl, ?_⟩
    exact congrArg RingSide.pending (SMap.get_modify_same ({} : RingSide) s.dev.rings msg.patron fun r => { r with pending := true })
  · exact ⟨_, exec_bellRereadTimer hwaiting hactive hidle, State.readsBell_of_idle hidle⟩

end Sys2Proof.Machine

end

section
/-!
Host reads and writes without an answer, descriptors that return, and the end of a HOLDOFF (R243, R246, R248, R249).
-/

namespace Sys2Proof.Machine

open Sys2Proof

/-! ## The operations that a tag names -/

/-- The read of a tag that has not been answered in full. -/
def Dev.lateRead (d : Dev) (tag : Nat) : Option HostOp :=
  d.hostOps.find? (fun o => decide (o.tag = tag) && o.lines ≠ 0 && !o.waiting && o.got.length ≠ o.lines)

/-- The read of a tag that waits for its one repetition. -/
def Dev.dueRead (d : Dev) (tag : Nat) : Option HostOp :=
  d.hostOps.find? (fun o => decide (o.tag = tag) && o.lines ≠ 0 && o.waiting && !o.repeated)

/-- The write of a tag. -/
def Dev.hostWriteOf (d : Dev) (tag : Nat) : Option HostOp := d.hostOps.find? (fun o => decide (o.tag = tag) && o.lines = 0)

section Reads

variable {s : State} {tag : Fin 4096}

theorem exec_hostReadTimeout : exec (.hostReadTimeout tag) s = .next (s.withDev fun d => (d.lateRead tag).elim d fun o =>
    if d.flag F.SAFE_STATUS_ACTIVE then d else d.readFailed o) := by
  refine Eq.trans (b := execHostReadTimeout tag s) rfl ?_
  rw [execHostReadTimeout]
  refine State.next_congr ?_
  cases h : s.dev.lateRead tag with
  | none => rw [Dev.lateRead] at h; rw [h]; rfl
  | some o => rw [Dev.lateRead] at h; rw [h]; rfl

theorem exec_hostReadRetry : exec (.hostReadRetry tag) s = .next (s.withDev fun d => (d.dueRead tag).elim d fun o =>
    if d.flag F.SAFE_STATUS_ACTIVE then d else d.readAgain o) := by
  refine Eq.trans (b := execHostReadRetry tag s) rfl ?_
  rw [execHostReadRetry]
  refine State.next_congr ?_
  cases h : s.dev.dueRead tag with
  | none => rw [Dev.dueRead] at h; rw [h]; rfl
  | some o => rw [Dev.dueRead] at h; rw [h]; rfl

theorem exec_hostWriteTimeout : exec (.hostWriteTimeout tag) s = .next (s.withDev fun d => (d.hostWriteOf tag).elim d fun o =>
    if d.linkUp o.link then d.writeFailed o else d) := by
  refine Eq.trans (b := execHostWriteTimeout tag s) rfl ?_
  rw [execHostWriteTimeout]
  refine State.next_congr ?_
  cases h : s.dev.hostWriteOf tag with
  | none => rw [Dev.hostWriteOf] at h; rw [h]; rfl
  | some o => rw [Dev.hostWriteOf] at h; rw [h]; rfl

/-- A command that leaves the device as it was leaves the state. -/
theorem State.next_withDev_of_same {f : Dev → Dev} (h : f s.dev = s.dev) :
    (Host.Outcome.next (s.withDev f) : Host.Outcome State Fault Refusal) = .next s := State.next_of_same h

theorem State.next_withDev_congr {f g : Dev → Dev} (h : f s.dev = g s.dev) :
    (Host.Outcome.next (s.withDev f) : Host.Outcome State Fault Refusal) = .next (s.withDev g) :=
  congrArg Host.Outcome.next (State.withDev_congr h)

theorem Option.elim_of_eq_none {α β : Type} {o : Option α} {b : β} {f : α → β} (h : o = none) : o.elim b f = b := by rw [h]; rfl

theorem Option.elim_of_eq_some {α β : Type} {o : Option α} {a : α} {b : β} {f : α → β} (h : o = some a) : o.elim b f = f a := by rw [h]; rfl

/-- In the safe state a read of the host is neither late nor repeated (R249). -/
theorem Option.elim_ite_self {α β : Type} (o : Option α) (b : β) {c : Prop} [Decidable c] (hc : c) (f : α → β) :
    (o.elim b fun a => if c then b else f a) = b := by
  cases o with
  | none => rfl
  | some a => exact if_pos hc

/-- A read of the host that waits to be repeated (R248). -/
def Dev.readWaits (d : Dev) (o : HostOp) : Dev :=
  { d with hostOps := d.hostOps.map (fun x => if x = o then { x with waiting := true, got := [] } else x) }

/-- A read that is no descriptors' and has not been repeated waits to be (R248). -/
theorem Dev.readFailed_of_first {d : Dev} {o : HostOp} (hrep : o.repeated = false) (hdesc : ∀ i first, o.purpose ≠ .desc i first) :
    d.readFailed o = d.readWaits o := by
  rw [Dev.readFailed]
  refine if_neg (not_or.mpr ⟨by simp [hrep], fun hstop => ?_⟩)
  split at hstop
  · next hpurpose => exact hdesc _ _ hpurpose
  · exact absurd hstop (by decide)

end Reads

/-! ## HOLDOFF -/

/-- What is kept of the interrupt messages of a patron, or of the house rings. -/
def Dev.intSide (d : Dev) (k : Nat) : IntSide := SMap.get (α := IntSide) {} d.ints k

/-- HOLDOFF ended with nothing gathered (R246). -/
def Dev.holdoffIdle (d : Dev) (k : Nat) : Dev := { d with ints := SMap.put (α := IntSide) {} d.ints k {} }

theorem Dev.holdoffEnd_of_idle {d : Dev} {k : Nat} (h : (d.intSide k).causes = 0) : d.holdoffEnd k = d.holdoffIdle k := by
  rw [Dev.intSide] at h
  rw [Dev.holdoffEnd, h]
  rfl

theorem Dev.intSide_holdoffIdle (d : Dev) (k : Nat) : (d.holdoffIdle k).intSide k = {} :=
  SMap.get_put_same (α := IntSide) {} d.ints k {}

section Holdoff

variable {s : State} {k : Fin 4097}

theorem exec_interruptHoldoffEnd_of_idle (h : (s.dev.intSide k).running = false) : exec (.interruptHoldoffEnd k) s = .next s := by
  rw [Dev.intSide] at h
  refine Eq.trans (b := execInterruptHoldoffEnd k s) rfl ?_
  rw [execInterruptHoldoffEnd]
  exact State.next_of_same (if_neg (by simp [h]))

theorem exec_interruptHoldoffEnd (h : (s.dev.intSide k).running = true) (hcauses : (s.dev.intSide k).causes = 0) :
    exec (.interruptHoldoffEnd k) s = .next (s.withDev fun d => d.holdoffIdle k) := by
  refine Eq.trans (b := execInterruptHoldoffEnd k s) rfl ?_
  rw [execInterruptHoldoffEnd]
  exact State.next_congr ((if_pos h).trans ((if_neg fun hne => hne.1 hcauses).trans (Dev.holdoffEnd_of_idle hcauses)))

end Holdoff

/-- Settles O31: the operation that the tag names decides, and the safe state before it. -/
theorem hostOperationsTimeOut : Obligations.HostOperationsTimeOut := by
  unfold Obligations.HostOperationsTimeOut
  intro s tag
  have hsafe : s.dev.rd F.SAFE_STATUS_ACTIVE = 0 → ¬ s.dev.flag F.SAFE_STATUS_ACTIVE = true := fun h => by simp [h]
  refine ⟨fun h => ?_, fun h => ?_, fun h => ?_, fun h => ⟨?_, ?_⟩, fun o h hs hrep hdesc => ?_, fun o h hs => ?_, fun o h hup => ?_,
    fun o h hup => ?_, fun p ring first lines => rfl, fun k h => exec_interruptHoldoffEnd_of_idle h, fun k h hcauses => ?_⟩
  · exact exec_hostReadTimeout.trans (State.next_withDev_of_same (Option.elim_of_eq_none h))
  · exact exec_hostReadRetry.trans (State.next_withDev_of_same (Option.elim_of_eq_none h))
  · exact exec_hostWriteTimeout.trans (State.next_withDev_of_same (Option.elim_of_eq_none h))
  · exact exec_hostReadTimeout.trans (State.next_withDev_of_same (Option.elim_ite_self _ _ (by simp [h]) _))
  · exact exec_hostReadRetry.trans (State.next_withDev_of_same (Option.elim_ite_self _ _ (by simp [h]) _))
  · refine ⟨_, exec_hostReadTimeout.trans (State.next_withDev_congr ((Option.elim_of_eq_some h).trans ((if_neg (hsafe hs)).trans
      (Dev.readFailed_of_first hrep hdesc))) (g := fun d => d.readWaits o)), State.frame_of_keeps (Dev.keeps_of_fields rfl), rfl⟩
  · exact exec_hostReadRetry.trans (State.next_withDev_congr ((Option.elim_of_eq_some h).trans (if_neg (hsafe hs))))
  · exact exec_hostWriteTimeout.trans (State.next_withDev_congr ((Option.elim_of_eq_some h).trans (if_pos hup)))
  · exact exec_hostWriteTimeout.trans (State.next_withDev_of_same ((Option.elim_of_eq_some h).trans (if_neg (by simp [hup]))))
  · exact ⟨_, exec_interruptHoldoffEnd h hcauses, State.frame_of_keeps (Dev.keeps_of_fields rfl), rfl,
      congrArg IntSide.running (Dev.intSide_holdoffIdle s.dev k)⟩

end Sys2Proof.Machine

end

section
/-!
The trolleys (R255, R257, R259, R264, R266, R267, R274).
-/

namespace Sys2Proof.Machine

open Sys2Proof

/-! ## Places of the trolleys and their groups -/

section Places

variable (d : Dev) (t g : Nat)

theorem Dev.work_setWork (w : Work) : (d.setWork t w).work t = some w := by
  rw [Dev.work, Dev.setWork, slotAt, find?_insert_same]
  rfl

theorem Dev.work_freeTrolley : (d.freeTrolley t).work t = none := by
  rw [Dev.work, Dev.freeTrolley, slotAt, find?_erase_same]
  rfl

theorem Dev.groupOf_setGroup (f : GroupSt → GroupSt) : (d.setGroup g f).groupOf g = f (d.groupOf g) := SMap.get_modify_same ..

theorem Dev.issueReads_of_ne {w : Work} (h : w.desc.opcode ≠ 9) : d.issueReads w = d := by
  rw [Dev.issueReads, if_pos h]

theorem Dev.pumpNops_of_none (h : (d.groupOf g).fetched.any (fun x => x.opcode = 0 && d.descReady x) = false) (fuel : Nat) :
    d.pumpNops g fuel = d := by
  cases fuel with
  | zero => rfl
  | succ fuel =>
    rw [Dev.pumpNops, List.find?_eq_none.mpr fun x hx => by simpa using List.any_eq_false.mp h x hx]

end Places

/-! ## Starting (R264) -/

section Start

variable {d : Dev} {t : Nat}

theorem Dev.startOn_of_busy (h : d.trolleyFree t = false) : d.startOn t = d := by
  rw [Dev.startOn]
  exact if_pos (by simp [h])

/-- A recalled work as a free trolley takes it up: from its record, with the time and the number of its start. -/
def Dev.resumed (d : Dev) (w : Work) : Work := { w with stop := none, started := d.time, order := d.serial }

/-- A recalled work taken from its group's record store. -/
def Dev.unrecall (d : Dev) (g : Nat) (w : Work) : Dev := d.setGroup g fun s => { s with recalled := s.recalled.filter (· ≠ w) }

/-- A recalled work on its trolley again. -/
def Dev.resume (d : Dev) (t : Nat) (w : Work) : Dev :=
  ({ d.unrecall (t / 4) w with serial := d.serial + 1 } : Dev).setWork t (d.resumed w)

theorem Dev.startOn_of_recalled {w : Work} (hfree : d.trolleyFree t = true) (hchoose : d.choose (t / 4) = some (.recalled w))
    (hop : w.desc.opcode ≠ 9) (hoff : d.countersOff = true) : d.startOn t = d.resume t w := by
  have hcount := Dev.count_of_countersOff (d := d.unrecall (t / 4) w) hoff 0x060A (t / 4) (some w.desc.patron)
  rw [Dev.unrecall] at hcount
  rw [Dev.startOn]
  refine (if_neg (by simp [hfree])).trans ?_
  rw [hchoose]
  dsimp only
  rw [hcount]
  exact Dev.issueReads_of_ne _ hop

end Start

/-! ## The commands -/

section Commands

variable {s : State} {t : Fin 32}

theorem exec_descriptorStart : exec (.descriptorStart t) s = .next (s.withDev fun d => (d.startOn t).pumpNops (t / 4) 64) := rfl

/-- Where a trolley has no work, nothing that speaks of its work has an effect. -/
theorem exec_of_no_work (h : s.dev.work t = none) : (∀ lines, exec (.gatherListReturn t lines) s = .next s) ∧
    (∀ slot env ue, exec (.steppedLineComplete t slot env ue) s = .next s) ∧ exec (.recallDrainComplete t) s = .next s ∧
    ∀ env, exec (.rekeyCardPoll t env) s = .next s := by
  refine ⟨fun lines => ?_, fun slot env ue => ?_, ?_, fun env => ?_⟩
  · refine Eq.trans (b := execGatherListReturn t lines s) rfl ?_
    rw [execGatherListReturn]
    exact State.next_of_same (by rw [h])
  · refine Eq.trans (b := execSteppedLineComplete t slot env ue s) rfl ?_
    rw [execSteppedLineComplete, h]
  · refine Eq.trans (b := execRecallDrainComplete t s) rfl ?_
    rw [execRecallDrainComplete]
    exact State.next_of_same (by rw [h])
  · refine Eq.trans (b := execRekeyCardPoll t env s) rfl ?_
    rw [execRekeyCardPoll, h]

theorem exec_of_safe (h : s.dev.rd F.SAFE_STATUS_ACTIVE ≠ 0) : (∀ slot env ue, exec (.steppedLineComplete t slot env ue) s = .next s) ∧
    ∀ env, exec (.rekeyCardPoll t env) s = .next s := by
  have hflag : s.dev.flag F.SAFE_STATUS_ACTIVE = true := by simp [h]
  cases hwork : s.dev.work t with
  | none => exact ⟨(exec_of_no_work hwork).2.1, (exec_of_no_work hwork).2.2.2⟩
  | some w =>
    refine ⟨fun slot env ue => ?_, fun env => ?_⟩
    · refine Eq.trans (b := execSteppedLineComplete t slot env ue s) rfl ?_
      rw [execSteppedLineComplete, hwork]
      exact congrArg Host.Outcome.next (if_pos hflag)
    · refine Eq.trans (b := execRekeyCardPoll t env s) rfl ?_
      rw [execRekeyCardPoll, hwork]
      exact congrArg Host.Outcome.next (if_neg fun hall => hall.2.2 hflag)

variable {w : Work} (hwork : s.dev.work t = some w)
include hwork

theorem exec_gatherListReturn (lines : List LineData) (huses : usesArg2 w.desc.opcode = true) (hlist : w.list = none) (hend : w.ending = none) :
    exec (.gatherListReturn t lines) s = .next (s.withDev fun d =>
      ({ d with hostOps := d.hostOps.filter (fun o => o.purpose ≠ .list w.desc.serial) } : Dev).listReturn t w (w.desc.entries lines)) := by
  refine Eq.trans (b := execGatherListReturn t lines s) rfl ?_
  rw [execGatherListReturn]
  refine State.next_congr ?_
  rw [hwork]
  exact if_pos ⟨huses, hlist, hend⟩

theorem exec_steppedLineComplete (slot : Fin 64) (env : AccessEnv) (ue : Bool) (hsafe : s.dev.rd F.SAFE_STATUS_ACTIVE = 0)
    (hop : w.desc.opcode ≠ 11) {i : Nat} (hi : (if w.desc.opcode = 6 ∨ w.desc.overlapping = true then w.done else w.done + slot) = i) :
    exec (.steppedLineComplete t slot env ue) s = .next
      (if w.desc.lines ≤ i ∨ w.map.contains i = true ∨ w.mayStep i = false then s
       else (s.stepLine t w i env ue).withDev fun d => match d.work t with
         | some w => d.issueReads w
         | none => d.pumpNops (t / 4) 64) := by
  refine Eq.trans (b := execSteppedLineComplete t slot env ue s) rfl ?_
  rw [execSteppedLineComplete, hwork]
  refine congrArg Host.Outcome.next ((if_neg (by simp [hsafe])).trans ((if_neg hop).trans ?_))
  rw [hi]
  exact ite_congr (by rw [Bool.not_eq_true]) (fun _ => rfl) fun _ => rfl

theorem exec_steppedLineComplete_rekey (slot : Fin 64) (env : AccessEnv) (ue : Bool) (hsafe : s.dev.rd F.SAFE_STATUS_ACTIVE = 0)
    (hop : w.desc.opcode = 11) (hstep : w.mayStep w.done = true) :
    exec (.steppedLineComplete t slot env ue) s = .next (s.stepRekey t w env) := by
  refine Eq.trans (b := execSteppedLineComplete t slot env ue s) rfl ?_
  rw [execSteppedLineComplete, hwork]
  exact congrArg Host.Outcome.next ((if_neg (by simp [hsafe])).trans ((if_pos hop).trans (if_pos hstep)))

theorem exec_rekeyCardPoll (env : AccessEnv) (hsafe : s.dev.rd F.SAFE_STATUS_ACTIVE = 0) (hop : w.desc.opcode = 11)
    (hstep : w.mayStep w.done = true) : exec (.rekeyCardPoll t env) s = .next (s.stepRekey t w env) := by
  refine Eq.trans (b := execRekeyCardPoll t env s) rfl ?_
  rw [execRekeyCardPoll, hwork]
  exact congrArg Host.Outcome.next (if_pos ⟨hop, hstep, by simp [hsafe]⟩)

theorem exec_recallDrainComplete (hstop : w.stop = some .recall) :
    exec (.recallDrainComplete t) s = .next (s.withDev fun d => (d.toRecalled t w).startOn t) := by
  refine Eq.trans (b := execRecallDrainComplete t s) rfl ?_
  rw [execRecallDrainComplete]
  refine State.next_congr ?_
  rw [hwork]
  exact if_pos hstop

end Commands

/-- Settles O32: what a free trolley takes, then each command by the trolley's work. -/
theorem trolleysWork : Obligations.TrolleysWork := by
  unfold Obligations.TrolleysWork
  intro s t
  refine ⟨fun d h => Dev.startOn_of_busy h, fun d w hfree hchoose hop hoff => ?_, exec_descriptorStart, fun hbusy hnone => ?_, exec_of_no_work,
    fun w lines hwork huses hlist hend => exec_gatherListReturn hwork lines huses hlist hend, exec_of_safe,
    fun w slot env ue hwork hsafe hop => exec_steppedLineComplete hwork slot env ue hsafe hop rfl,
    fun w env hwork hop hsafe hstep => ⟨exec_rekeyCardPoll hwork env hsafe hop hstep,
      fun slot ue => exec_steppedLineComplete_rekey hwork slot env ue hsafe hop hstep⟩,
    fun w hwork hstop => ⟨exec_recallDrainComplete hwork hstop, ?_, Dev.work_freeTrolley s.dev t⟩, rfl⟩
  · rw [Dev.startOn_of_recalled hfree hchoose hop hoff]
    exact ⟨Dev.work_setWork _ _ _, congrArg GroupSt.recalled (Dev.groupOf_setGroup d (t / 4) fun x => { x with recalled := x.recalled.filter (· ≠ w) })⟩
  · refine exec_descriptorStart.trans (State.next_withDev_of_same ?_)
    rw [Dev.startOn_of_busy hbusy, Dev.pumpNops_of_none _ _ hnone]
  · exact congrArg GroupSt.recalled (Dev.groupOf_setGroup (s.dev.freeTrolley t) (t / 4) fun x => { x with recalled := x.recalled ++ [{ w with stop := none }] })

end Sys2Proof.Machine

end

section
/-!
RESHELVE START, CANCEL, QUERY and RELEASE (R279, R280, R281, Table 11.13).
-/

namespace Sys2Proof.Machine

open Sys2Proof

/-! ## The registers of the commands -/

/-- The registers that the commands write. -/
def reshelveFields : List Field := [F.RESHELVE_CMD_PATRON, F.RESHELVE_CMD_OP, F.RESHELVE_STATUS_RESULT, F.RESHELVE_STATUS_STATE,
  F.RESHELVE_STATUS_END, F.RESHELVE_STATUS_BUSY, F.RESHELVE_JOB_JOB]

section Show

variable (d : Dev) (r : Nat)

theorem Dev.keeps_reshelveShow : d.Keeps [F.RESHELVE_STATUS_RESULT, F.RESHELVE_STATUS_STATE, F.RESHELVE_STATUS_END] (d.reshelveShow r) :=
  Dev.keeps_wrs (List.Subset.refl _)

theorem Dev.rd_reshelveShow_result (h : r < 8) : (d.reshelveShow r).rd F.RESHELVE_STATUS_RESULT = r := by
  rw [Dev.reshelveShow]
  exact (Dev.rd_wrs_of_mem d (l := [(F.RESHELVE_STATUS_RESULT, r), (F.RESHELVE_STATUS_STATE, _), (F.RESHELVE_STATUS_END, _)]) (show ([F.RESHELVE_STATUS_RESULT, F.RESHELVE_STATUS_STATE, F.RESHELVE_STATUS_END].map Field.key).Nodup by decide)
    List.mem_cons_self).trans (Nat.mod_eq_of_lt h)

theorem Dev.reshelveShow_jobs : (d.reshelveShow r).jobs = d.jobs := rfl

theorem Dev.reshelveShow_job (n : Nat) : (d.reshelveShow r).job n = d.job n := rfl

/-- The OP of a command noted (Table 11.13). -/
def Dev.reshelveOp (op : Nat) : Dev := d.wr F.RESHELVE_CMD_OP op

theorem Dev.reshelveOp_jobs (op : Nat) : (d.reshelveOp op).jobs = d.jobs := rfl

theorem Dev.rd_reshelveOp_job (op : Nat) : (d.reshelveOp op).rd F.RESHELVE_JOB_JOB = d.rd F.RESHELVE_JOB_JOB :=
  Dev.rd_wr_ne d (by decide) op

theorem Dev.keeps_reshelveOp_show (op : Nat) {e : Dev} (h : e.fields = (d.reshelveOp op).fields) :
    d.Keeps reshelveFields (e.reshelveShow r) :=
  ((Dev.keeps_wr (d := d) (f := F.RESHELVE_CMD_OP) (by simp [reshelveFields]) op).trans (Dev.keeps_of_fields h)).trans
    ((Dev.keeps_reshelveShow e r).mono (by simp [reshelveFields]))

end Show

/-! ## START -/

section Start

/-- A START that is settled: BUSY ends, the job number and the RESULT show (R279). -/
def Dev.reshelveSettled (d : Dev) (r m : Nat) : Dev :=
  ((({ d with reshelvePending := none } : Dev).wr F.RESHELVE_STATUS_BUSY 0).wr F.RESHELVE_JOB_JOB m).reshelveShow r

variable (d : Dev) {r m : Nat}

theorem Dev.keeps_reshelveSettled : d.Keeps reshelveFields (d.reshelveSettled r m) := by
  refine Dev.Keeps.trans (e := { d with reshelvePending := none }) (Dev.keeps_of_fields rfl) ?_
  refine Dev.Keeps.trans (e := Dev.wr _ F.RESHELVE_STATUS_BUSY 0) (Dev.keeps_wr (by simp [reshelveFields]) _) ?_
  exact (Dev.keeps_wr (by simp [reshelveFields]) _).trans ((Dev.keeps_reshelveShow _ r).mono (by simp [reshelveFields]))

theorem Dev.rd_reshelveSettled (hr : r < 8) (hm : m < 4096) : (d.reshelveSettled r m).rd F.RESHELVE_STATUS_BUSY = 0 ∧
    (d.reshelveSettled r m).rd F.RESHELVE_STATUS_RESULT = r ∧ (d.reshelveSettled r m).rd F.RESHELVE_JOB_JOB = m := by
  refine ⟨?_, Dev.rd_reshelveShow_result _ r hr, ?_⟩
  · exact (Dev.keeps_reshelveShow _ r _ (by decide)).trans ((Dev.rd_wr_ne _ (by decide) m).trans (Dev.rd_wr_same _ _ 0))
  · exact (Dev.keeps_reshelveShow _ r _ (by decide)).trans ((Dev.rd_wr_same _ _ m).trans (Nat.mod_eq_of_lt hm))

theorem exec_reshelveStart {s u : State} {p : Fin 4096} (hbusy : s.dev.rd F.RESHELVE_STATUS_BUSY = 0)
    (h : (s.withDev fun d => d.wrs [(F.RESHELVE_CMD_PATRON, p.val), (F.RESHELVE_CMD_OP, 0)]).jobStart p
      (s.dev.rd F.RESHELVE_ADDR_LO_ADDR + 2 ^ 32 * s.dev.rd F.RESHELVE_ADDR_HI_ADDR) (s.dev.rd F.RESHELVE_DST_DPA * 2 ^ 16)
      (if s.dev.flag F.COLL_XDST_VALID then some (s.dev.rd F.COLL_XDST_MEMBER) else none) = (some (r, some m), u)) :
    exec (.reshelveStart p) s = .next (u.withDev fun d => d.reshelveSettled r m) := by
  have hread : ∀ f ∈ [F.COLL_XDST_VALID, F.COLL_XDST_MEMBER, F.RESHELVE_ADDR_LO_ADDR, F.RESHELVE_ADDR_HI_ADDR, F.RESHELVE_DST_DPA],
      (s.withDev fun d => d.wrs [(F.RESHELVE_CMD_PATRON, p.val), (F.RESHELVE_CMD_OP, 0)]).dev.rd f = s.dev.rd f := fun f hf =>
    Dev.rd_wrs_of_not_mem s.dev (l := [(F.RESHELVE_CMD_PATRON, p.val), (F.RESHELVE_CMD_OP, 0)]) (by
      show f.key ∉ [F.RESHELVE_CMD_PATRON, F.RESHELVE_CMD_OP].map Field.key
      revert f
      decide)
  simp only [List.forall_mem_cons] at hread
  obtain ⟨hvalid, hmember, hlo, hhi, hdst, -⟩ := hread
  refine Eq.trans (b := execReshelveStart p s) rfl ?_
  rw [execReshelveStart, if_neg (by simp [hbusy]), State.reshelveStart]
  dsimp only
  rw [hlo, hhi, hdst, hmember, Dev.flag, hvalid]
  rw [Dev.flag] at h
  rw [h]
  rfl

end Start

/-! ## CANCEL, QUERY, RELEASE -/

section Others

variable {s : State}

/-- While BUSY the commands have no effect (Table 11.13). -/
theorem exec_reshelve_of_busy (p : Fin 4096) (h : s.dev.rd F.RESHELVE_STATUS_BUSY ≠ 0) : exec (.reshelveStart p) s = .next s ∧
    exec .reshelveCancel s = .next s ∧ exec .reshelveQuery s = .next s ∧ exec .reshelveRelease s = .next s := by
  have hflag : s.dev.flag F.RESHELVE_STATUS_BUSY = true := by simp [h]
  refine ⟨?_, ?_, ?_, ?_⟩
  · refine Eq.trans (b := execReshelveStart p s) rfl ?_
    rw [execReshelveStart, if_pos hflag]
  · refine Eq.trans (b := execReshelveCancel s) rfl ?_
    rw [execReshelveCancel, if_pos hflag]
  · exact State.next_of_same (f := Dev.reshelveQuery) (if_pos hflag)
  · exact State.next_of_same (f := Dev.reshelveRelease) (if_pos hflag)

variable (hbusy : s.dev.rd F.RESHELVE_STATUS_BUSY = 0)
include hbusy

theorem exec_reshelveQuery {b : Bool} (h : (s.dev.job (s.dev.rd F.RESHELVE_JOB_JOB)).isNone = b) :
    exec .reshelveQuery s = .next (s.withDev fun d => (d.reshelveOp 2).reshelveShow (if b then 5 else 0)) := by
  refine State.next_congr (f := Dev.reshelveQuery) ?_
  rw [Dev.reshelveQuery, if_neg (by simp [hbusy]), h]
  rfl

theorem exec_reshelveCancel_of_none (h : s.dev.job (s.dev.rd F.RESHELVE_JOB_JOB) = none) :
    exec .reshelveCancel s = .next (s.withDev fun d => (d.reshelveOp 1).reshelveShow 5) := by
  have hjob : (s.withDev fun d => d.wr F.RESHELVE_CMD_OP 1).dev.job (s.dev.rd F.RESHELVE_JOB_JOB) = none := h
  refine Eq.trans (b := execReshelveCancel s) rfl ?_
  rw [execReshelveCancel, if_neg (by simp [hbusy]), State.reshelveCancel]
  rw [hjob]
  rfl

/-- A queued job ends with cause 2 (R281). -/
theorem exec_reshelveCancel_of_queued {j : Job} (h : s.dev.job (s.dev.rd F.RESHELVE_JOB_JOB) = some j) (hst : j.st = .queued)
    (hoff : s.dev.countersOff = true) : exec .reshelveCancel s = .next (s.withDev fun d =>
      ((d.reshelveOp 1).setJob (d.rd F.RESHELVE_JOB_JOB) { j with st := .ended, ended := 2 }).reshelveShow 0) := by
  have hjob : (s.withDev fun d => d.wr F.RESHELVE_CMD_OP 1).dev.job (s.dev.rd F.RESHELVE_JOB_JOB) = some j := h
  refine Eq.trans (b := execReshelveCancel s) rfl ?_
  rw [execReshelveCancel, if_neg (by simp [hbusy]), State.reshelveCancel]
  rw [hjob]
  dsimp only
  rw [hst]
  refine congrArg Host.Outcome.next ?_
  dsimp only
  rw [State.withDev_withDev, State.withDev_withDev]
  refine State.withDev_congr ?_
  rw [Dev.jobEnd, Dev.count_of_countersOff (d := (s.dev.wr F.RESHELVE_CMD_OP 1).setJob _ _) hoff]
  rfl

theorem exec_reshelveRelease_of_refused (h : (s.dev.job (s.dev.rd F.RESHELVE_JOB_JOB)).map (·.st) ≠ some .ended) :
    exec .reshelveRelease s = .next (s.withDev fun d => (d.reshelveOp 3).reshelveShow 5) := by
  refine State.next_congr (f := Dev.reshelveRelease) ?_
  rw [Dev.reshelveRelease, if_neg (by simp [hbusy])]
  exact if_neg h

/-- A job's number freed (R280). -/
def Dev.freeJob (d : Dev) (n : Nat) : Dev := { d with jobs := SMap.erase n d.jobs }

theorem exec_reshelveRelease_of_ended (h : (s.dev.job (s.dev.rd F.RESHELVE_JOB_JOB)).map (·.st) = some .ended) :
    exec .reshelveRelease s = .next (s.withDev fun d => ((d.reshelveOp 3).freeJob (d.rd F.RESHELVE_JOB_JOB)).reshelveShow 0) := by
  refine State.next_congr (f := Dev.reshelveRelease) ?_
  rw [Dev.reshelveRelease, if_neg (by simp [hbusy])]
  exact if_pos h

end Others

theorem Dev.job_setJob (d : Dev) (n : Nat) (j : Job) : (d.setJob n j).job n = some j := by
  rw [Dev.job, Dev.setJob, slotAt, find?_insert_same]
  rfl

theorem Dev.job_freeJob (d : Dev) (n : Nat) : (d.freeJob n).job n = none := by
  rw [Dev.job, Dev.freeJob, slotAt, find?_erase_same]
  rfl

/-- Settles O33: each command's equation, with the RESULT that it shows. -/
theorem reshelvingIsCommanded : Obligations.ReshelvingIsCommanded := by
  unfold Obligations.ReshelvingIsCommanded
  intro s p
  have hshown : ∀ op r, r < 8 → ∀ {f : Dev → Dev}, (f s.dev).fields = (s.dev.reshelveOp op).fields →
      s.frame (s.withDev fun d => (f d).reshelveShow r) reshelveFields ∧
      (s.withDev fun d => (f d).reshelveShow r).dev.rd F.RESHELVE_STATUS_RESULT = r := fun op r hr f hfields =>
    ⟨State.frame_of_keeps (f := fun d => (f d).reshelveShow r) (Dev.keeps_reshelveOp_show s.dev r op hfields), Dev.rd_reshelveShow_result _ r hr⟩
  have hjobs : ∀ op r, (s.withDev fun d => (d.reshelveOp op).reshelveShow r).dev.jobs = s.dev.jobs := fun op r =>
    (Dev.reshelveShow_jobs (s.dev.reshelveOp op) r).trans (Dev.reshelveOp_jobs s.dev op)
  refine ⟨exec_reshelve_of_busy p, fun hbusy => ⟨fun r m u hr hm hstart => ?_, fun hnone => ⟨?_, ?_, ?_⟩,
    fun j hjob => ⟨?_, fun hst hoff => ?_, fun hst => ?_, fun hst => ?_⟩⟩⟩
  · obtain ⟨hidle, hresult, hnumber⟩ := Dev.rd_reshelveSettled u.dev hr hm
    exact ⟨_, exec_reshelveStart hbusy hstart, State.frame_of_keeps (f := fun d => d.reshelveSettled r m) (Dev.keeps_reshelveSettled u.dev), hidle, hresult, hnumber⟩
  · obtain ⟨hframe, hresult⟩ := hshown 1 5 (by decide) (f := fun d => d.reshelveOp 1) rfl
    exact ⟨_, exec_reshelveCancel_of_none hbusy hnone, hframe, hresult, hjobs _ _⟩
  · obtain ⟨hframe, hresult⟩ := hshown 2 5 (by decide) (f := fun d => d.reshelveOp 2) rfl
    exact ⟨_, exec_reshelveQuery hbusy (b := true) (by rw [hnone]; rfl), hframe, hresult, hjobs _ _⟩
  · obtain ⟨hframe, hresult⟩ := hshown 3 5 (by decide) (f := fun d => d.reshelveOp 3) rfl
    exact ⟨_, exec_reshelveRelease_of_refused hbusy (by rw [hnone]; decide), hframe, hresult, hjobs _ _⟩
  · obtain ⟨hframe, hresult⟩ := hshown 2 0 (by decide) (f := fun d => d.reshelveOp 2) rfl
    exact ⟨_, exec_reshelveQuery hbusy (b := false) (by rw [hjob]; rfl), hframe, hresult, hjobs _ _⟩
  · obtain ⟨hframe, hresult⟩ := hshown 1 0 (by decide) (f := fun d =>
      (d.reshelveOp 1).setJob (d.rd F.RESHELVE_JOB_JOB) { j with st := .ended, ended := 2 }) rfl
    exact ⟨_, exec_reshelveCancel_of_queued hbusy hjob hst hoff, hframe, hresult,
      (Dev.reshelveShow_job _ _ _).trans (Dev.job_setJob (s.dev.reshelveOp 1) _ _)⟩
  · obtain ⟨hframe, hresult⟩ := hshown 3 0 (by decide) (f := fun d => (d.reshelveOp 3).freeJob (d.rd F.RESHELVE_JOB_JOB)) rfl
    exact ⟨_, exec_reshelveRelease_of_ended hbusy (by rw [hjob, ← hst]; rfl), hframe, hresult,
      (Dev.reshelveShow_job _ _ _).trans (Dev.job_freeJob (s.dev.reshelveOp 3) _)⟩
  · obtain ⟨hframe, hresult⟩ := hshown 3 5 (by decide) (f := fun d => d.reshelveOp 3) rfl
    exact ⟨_, exec_reshelveRelease_of_refused hbusy (by rw [hjob]; simpa using hst), hframe, hresult, hjobs _ _⟩

end Sys2Proof.Machine

end

section
/-!
Re-shelving jobs activated and copied, sparing and withdrawal copied (R280, R281, R283, R286, R292).
-/

namespace Sys2Proof.Machine

open Sys2Proof

section Jobs

variable {s u : State}

/-- Nothing is activated where no job is queued. -/
theorem exec_jobActivate_of_none (h : s.dev.jobs.filter (fun kj => kj.2.st = .queued) = []) : exec .jobActivate s = .next s := by
  refine Eq.trans (b := execJobActivate s) rfl ?_
  rw [execJobActivate, h]
  rfl

/-- Nothing is activated in the safe state (R280). -/
theorem exec_jobActivate_of_safe (h : s.dev.rd F.SAFE_STATUS_ACTIVE ≠ 0) : exec .jobActivate s = .next s := by
  refine Eq.trans (b := execJobActivate s) rfl ?_
  rw [execJobActivate]
  refine congrArg Host.Outcome.next ?_
  dsimp only
  split
  · rfl
  · exact if_pos (Or.inr (by simp [h]))

theorem exec_jobActivate {n : Nat} {j : Job} (h : s.dev.jobs.filter (fun kj => kj.2.st = .queued) = [(n, j)])
    (hactive : (s.dev.jobs.filter (fun kj => kj.2.active)).length < 256) (hsafe : s.dev.rd F.SAFE_STATUS_ACTIVE = 0)
    (hcard : cardState j.former ≠ 2) (hswap : s.swapJob j.patron j.cardDpa j.former (fun c => reshelving n c) = (.done, u)) :
    exec .jobActivate s = .next ((u.withDev fun d => d.setJob n { j with st := .starting }).jobClear j).2 := by
  have hopen : ¬ (256 ≤ (s.dev.jobs.filter (fun kj => kj.2.active)).length ∨ s.dev.flag F.SAFE_STATUS_ACTIVE = true) :=
    not_or.mpr ⟨Nat.not_le.mpr hactive, by simp [hsafe]⟩
  refine Eq.trans (b := execJobActivate s) rfl ?_
  rw [execJobActivate, h]
  refine congrArg Host.Outcome.next ((if_neg hopen).trans ((if_neg hcard).trans ?_))
  rw [hswap]

variable {n : Fin 4096}

theorem exec_jobStartingDone_of_other (h : s.dev.job n = none ∨ ∃ j, s.dev.job n = some j ∧ j.st ≠ .starting) :
    exec (.jobStartingDone n) s = .next s := by
  refine Eq.trans (b := execJobStartingDone n s) rfl ?_
  rcases h with h | ⟨j, h, hst⟩
  · rw [execJobStartingDone, h]
  · rw [execJobStartingDone, h]
    exact congrArg Host.Outcome.next (if_pos hst)

section Starting

variable {j : Job} (hjob : s.dev.job n = some j) (hst : j.st = .starting)
include hjob hst

/-- A job whose lines have left the reading room copies (R281). -/
theorem exec_jobStartingDone_of_clear (hclear : s.jobClear j = (true, u)) (hheld : u.dev.held = []) (hfences : u.dev.fences = []) :
    exec (.jobStartingDone n) s = .next (u.withDev fun d => d.setJob n { j with st := .copying }) := by
  refine Eq.trans (b := execJobStartingDone n s) rfl ?_
  rw [execJobStartingDone, hjob]
  refine congrArg Host.Outcome.next ((if_neg (not_not_intro hst)).trans ?_)
  rw [hclear]
  exact State.releaseAll_of_empty (s := u.withDev fun d => d.setJob n { j with st := .copying }) hheld hfences _

theorem exec_jobStartingDone_of_dirty (hclear : s.jobClear j = (false, u)) : exec (.jobStartingDone n) s = .next u := by
  refine Eq.trans (b := execJobStartingDone n s) rfl ?_
  rw [execJobStartingDone, hjob]
  refine congrArg Host.Outcome.next ((if_neg (not_not_intro hst)).trans ?_)
  rw [hclear]

end Starting

/-! ## Copies -/

variable {shaft : Fin 64} {level : Fin 17} {wire : CodeWord}

theorem exec_copies_of_safe (h : s.dev.rd F.SAFE_STATUS_ACTIVE ≠ 0) :
    (∀ shaft job wire, exec (.reshelveLineCopy shaft job wire) s = .next s) ∧
    ∀ shaft level, exec (.rowWithdrawCopy shaft level) s = .next s :=
  have hflag : s.dev.flag F.SAFE_STATUS_ACTIVE = true := by simp [h]
  ⟨fun _ _ _ => congrArg Host.Outcome.next (if_pos hflag), fun _ _ => congrArg Host.Outcome.next (if_pos hflag)⟩

theorem exec_reshelveLineCopy_spare (h : s.dev.rd F.SAFE_STATUS_ACTIVE = 0) :
    exec (.reshelveLineCopy shaft none wire) s = .next (s.spareCopy shaft wire) := by
  refine Eq.trans (b := execReshelveLineCopy shaft none wire s) rfl ?_
  rw [execReshelveLineCopy, if_neg (by simp [h])]

theorem exec_reshelveLineCopy_job (h : s.dev.rd F.SAFE_STATUS_ACTIVE = 0) {j : Job} (hjob : s.dev.job n = some j) :
    exec (.reshelveLineCopy shaft (some n) wire) s = .next (if j.st = .copying then s.jobCopy n j shaft wire else s) := by
  refine Eq.trans (b := execReshelveLineCopy shaft (some n) wire s) rfl ?_
  rw [execReshelveLineCopy, if_neg (by simp [h]), hjob]

theorem exec_rowWithdrawCopy (h : s.dev.rd F.SAFE_STATUS_ACTIVE = 0) :
    exec (.rowWithdrawCopy shaft level) s = .next (s.withdrawCopy shaft level) := by
  refine Eq.trans (b := execRowWithdrawCopy shaft level s) rfl ?_
  rw [execRowWithdrawCopy, if_neg (by simp [h])]

theorem State.withdrawCopy_of_closed (h : (s.dev.shelf (shelfKey shaft level)).wdOpen = false) : s.withdrawCopy shaft level = s := by
  rw [State.withdrawCopy, h]
  exact if_pos (Or.inl (by decide))

end Jobs

/-- Settles O34: each command by the job it names and the safe state. -/
theorem jobsCopyLines : Obligations.JobsCopyLines := by
  unfold Obligations.JobsCopyLines
  intro s
  refine ⟨exec_jobActivate_of_none, fun n j u h hactive hsafe hcard hswap => exec_jobActivate h hactive hsafe hcard hswap,
    fun h => ⟨exec_jobActivate_of_safe h, exec_copies_of_safe h⟩, fun n h => exec_jobStartingDone_of_other h,
    fun n j u hjob hst hclear hheld hfences => ⟨_, exec_jobStartingDone_of_clear hjob hst hclear hheld hfences,
      State.frame_of_keeps (Dev.keeps_of_fields rfl), Dev.job_setJob u.dev n _⟩,
    fun n j u hjob hst hclear => exec_jobStartingDone_of_dirty hjob hst hclear,
    fun h shaft wire => ⟨exec_reshelveLineCopy_spare h, fun n j hjob => exec_reshelveLineCopy_job h hjob,
      fun level => ⟨exec_rowWithdrawCopy h, fun hclosed => ?_⟩⟩⟩
  exact (exec_rowWithdrawCopy h).trans (congrArg Host.Outcome.next (State.withdrawCopy_of_closed hclosed))

end Sys2Proof.Machine

end

section
/-!
Registers that counted events, interrupts and ledger requests touch (R246, R251, R302, R461).
-/

namespace Sys2Proof.Machine

open Sys2Proof

section Events

variable (d : Dev)

theorem Dev.interrupt_fields (k causes : Nat) : (d.interrupt k causes).fields = d.fields := by
  rw [Dev.interrupt]
  split
  · rfl
  · rw [Dev.interruptMsg]
    split <;> rfl

theorem Dev.houseInterrupt_fields (cause : Nat) : (d.houseInterrupt cause).fields = d.fields := Dev.interrupt_fields d houseInt _

theorem Dev.houseDrop_fields (r : Nat) (rec : BitVec 512) (link : Nat) : (d.houseDrop r rec link).fields = d.fields := by
  rw [Dev.houseDrop]
  split
  · split <;> rfl
  · rfl

theorem Dev.keeps_houseStore (r : Nat) (rec : BitVec 512) : d.Keeps [F.HOUSE_RING_STATUS_INDEX r] (d.houseStore r rec) := by
  have hwr : ∀ e : Dev, ∀ v, e.Keeps [F.HOUSE_RING_STATUS_INDEX r] (e.wr (F.HOUSE_RING_STATUS_INDEX r) v) := fun e v =>
    Dev.keeps_wr List.mem_cons_self v
  rw [Dev.houseStore]
  split
  · exact Dev.Keeps.trans (e := Dev.wr _ (F.HOUSE_RING_STATUS_INDEX r) _) (Dev.Keeps.trans (e := Dev.hostOp d _ _ _ _ _)
      (Dev.keeps_of_fields rfl) (hwr _ _)) (Dev.keeps_of_fields (Dev.houseInterrupt_fields _ r))
  · exact Dev.Keeps.trans (e := Dev.wr _ (F.HOUSE_RING_STATUS_INDEX r) _) (Dev.Keeps.trans (e := Dev.hostOp d _ _ _ _ _)
      (Dev.keeps_of_fields rfl) (hwr _ _)) (Dev.keeps_of_fields rfl)

/-- A record for a house ring changes no register but the ring's producer index (R251). -/
theorem Dev.keeps_houseRecord (r : Nat) (rec : BitVec 512) (link : Nat) : d.Keeps [F.HOUSE_RING_STATUS_INDEX r] (d.houseRecord r rec link) := by
  have hhold : ∀ e : Dev, (if (e.houseRing r).held.length < 16 then e.setHouse r fun h => { h with held := h.held ++ [(rec, link)] }
      else e.houseDrop r rec link).fields = e.fields := fun e => by
    split
    · rfl
    · exact Dev.houseDrop_fields e r rec link
  rw [Dev.houseRecord]
  split
  · split
    · refine Dev.keeps_of_fields ((hhold _).trans ?_)
      split <;> rfl
    · exact Dev.keeps_houseStore d r rec
  · split
    · exact Dev.keeps_of_fields (hhold d)
    · exact Dev.keeps_of_fields (Dev.houseDrop_fields d r rec link)

/-- The registers that a counted event may touch. -/
def countFields : List Field := [F.PERF_STATUS_OVERFLOWS, F.HOUSE_RING_STATUS_INDEX 1]

/-- The event counters replaced. -/
def Dev.withPerf (m : SMap Perf) : Dev := { d with perf := m }

theorem Dev.keeps_perfStep (fuel c : Nat) : d.Keeps countFields (d.perfStep fuel c) := by
  induction fuel generalizing d c with
  | zero => exact Dev.Keeps.refl _ d
  | succ fuel ih =>
    rw [Dev.perfStep]
    dsimp only
    split
    · exact Dev.keeps_of_fields rfl
    · generalize hbumped : Dev.bump _ F.PERF_STATUS_OVERFLOWS = e
      have he : d.Keeps countFields e := hbumped ▸ Dev.Keeps.trans (e := Dev.withPerf d _) (Dev.keeps_of_fields rfl)
        (Dev.keeps_bump (by simp [countFields]))
      split
      · exact he.trans (Dev.Keeps.trans (e := e.houseRecord 1 _ 0) ((Dev.keeps_houseRecord e 1 _ 0).mono (by simp [countFields]))
          (Dev.keeps_of_fields (Dev.houseInterrupt_fields _ 1)))
      · split
        · exact he.trans (ih e _)
        · exact he

/-- A counted event changes no register but the overflow count and the overflow ring's producer index (R461, R465). -/
theorem Dev.keeps_count (ev unit : Nat) (patron : Option Nat) : d.Keeps countFields (d.count ev unit patron) := by
  rw [Dev.count]
  split
  · exact Dev.Keeps.refl _ d
  · exact Dev.keeps_foldl _ (fun e x _ => Dev.keeps_perfStep e 512 x.1) d

/-! ## Ledger requests (R302) -/

/-- The registers that a write request for the ledger may touch. -/
def requestFields : List Field := [F.LEDGER_STATUS_QUEUED, F.LEDGER_ERRORS_DROPPED]

theorem Dev.keeps_ledgerRequest (req : LedgerReq) : d.Keeps requestFields (d.ledgerRequest req) := by
  rw [Dev.ledgerRequest]
  split
  · exact Dev.keeps_of_fields rfl
  · split
    · exact Dev.Keeps.trans (e := { d with ledgerQueue := d.ledgerQueue ++ [req] }) (Dev.keeps_of_fields rfl)
        (Dev.keeps_wr (by simp [requestFields]) _)
    · split
      · exact Dev.Keeps.trans (e := d.bump F.LEDGER_ERRORS_DROPPED) (Dev.keeps_bump (by simp [requestFields])) (Dev.keeps_of_fields rfl)
      · exact Dev.keeps_of_fields rfl

/-- A ledger request changes nothing that registers, ledger queues and faults do not show. -/
theorem Dev.ledgerRequest_view {α : Type} {g : Dev → α} (hg : ∀ (e : Dev) fields queue wait raised, g { e with
    fields := fields, ledgerQueue := queue, ledgerWait := wait, raised := raised } = g e) (req : LedgerReq) : g (d.ledgerRequest req) = g d := by
  rw [Dev.ledgerRequest]
  split
  · exact hg d d.fields _ d.ledgerWait d.raised
  · split
    · exact hg d _ _ d.ledgerWait d.raised
    · split
      · exact hg d _ d.ledgerQueue d.ledgerWait _
      · exact hg d d.fields d.ledgerQueue _ d.raised

end Events

/-! ## The registers of the device as a whole -/

/-- The first place past the registers of the device as a whole (Table 20.9): those of its units lie behind it. -/
def unitBase : Nat := (F.POWER_DOMAIN_STATE 0).key

/-- A change that leaves the registers of the device as a whole as they were. -/
def Dev.KeepsWhole (d e : Dev) : Prop := ∀ g : Field, g.key < unitBase → e.rd g = d.rd g

section Whole

variable {d e e' : Dev}

theorem Dev.KeepsWhole.trans (h : d.KeepsWhole e) (h' : e.KeepsWhole e') : d.KeepsWhole e' := fun g hg => (h' g hg).trans (h g hg)

/-- A change of registers behind those of the device as a whole keeps these. -/
theorem Dev.Keeps.whole {l : List Field} (h : d.Keeps l e) (hl : ∀ f ∈ l, unitBase ≤ f.key) : d.KeepsWhole e := fun g hg =>
  h g fun hmem => by
    obtain ⟨f, hf, heq⟩ := List.mem_map.mp hmem
    have hle := hl f hf
    omega

theorem Dev.keepsWhole_count (ev unit : Nat) (patron : Option Nat) : d.KeepsWhole (d.count ev unit patron) :=
  (Dev.keeps_count d ev unit patron).whole (by decide)

theorem Dev.keepsWhole_ledgerRequest (req : LedgerReq) : d.KeepsWhole (d.ledgerRequest req) :=
  (Dev.keeps_ledgerRequest d req).whole (by decide)

theorem Dev.keepsWhole_domainOff (i : Nat) : d.KeepsWhole (d.domainOff i) := by
  have hbase : ∀ f ∈ [F.POWER_DOMAIN_STATE i, F.POWER_DOMAIN_ALIVE i, F.POWER_DOMAIN_GATINGS i], unitBase ≤ f.key := by
    simp [unitBase, Field.key, F.POWER_DOMAIN_STATE, F.POWER_DOMAIN_ALIVE, F.POWER_DOMAIN_GATINGS]
    omega
  rw [Dev.domainOff]
  split
  · exact fun _ _ => rfl
  · refine Dev.KeepsWhole.trans (Dev.Keeps.whole (Dev.Keeps.trans (e := d.wrs _) (Dev.keeps_wrs ?_) (Dev.keeps_bump ?_)) hbase)
      (Dev.keepsWhole_count _ _ _)
    · simp
    · simp

theorem Dev.keepsWhole_gateLevel (level : Nat) : d.KeepsWhole (d.gateLevel level) :=
  List.foldlRecOn (levelQuadrants level) _ (motive := d.KeepsWhole) (fun _ _ => rfl) fun _ he _ _ => he.trans (Dev.keepsWhole_domainOff _)

end Whole

end Sys2Proof.Machine
end

section
/-!
Sparing, retirement and restored bays by command (R285, R288, R295, Table 11.14).
-/

namespace Sys2Proof.Machine

open Sys2Proof

/-- The registers that a write of SPARE_CTL sets, and its RESULT. -/
def spareFields : List Field := [F.SPARE_CTL_LEVEL, F.SPARE_CTL_OP, F.SPARE_STATUS_RESULT]

section Ctl

variable (d : Dev)

theorem Dev.keeps_spareCtl (level op : Nat) : d.Keeps [F.SPARE_CTL_LEVEL, F.SPARE_CTL_OP] (d.spareCtl level op) :=
  Dev.keeps_wrs (List.Subset.refl _)

/-- A write of SPARE_CTL with its RESULT. -/
def Dev.spareAnswer (level op r : Nat) : Dev := (d.spareCtl level op).wr F.SPARE_STATUS_RESULT r

theorem Dev.keeps_spareAnswer (level op r : Nat) : d.Keeps spareFields (d.spareAnswer level op r) :=
  ((Dev.keeps_spareCtl d level op).mono (by simp [spareFields])).trans (Dev.keeps_wr (by simp [spareFields]) r)

theorem Dev.rd_spareAnswer (level op : Nat) {r : Nat} (h : r < 4) : (d.spareAnswer level op r).rd F.SPARE_STATUS_RESULT = r :=
  (Dev.rd_wr_same _ _ r).trans (Nat.mod_eq_of_lt h)

theorem Dev.rd_spareCtl {f : Field} (h : f.key ≠ F.SPARE_CTL_LEVEL.key ∧ f.key ≠ F.SPARE_CTL_OP.key) (level op : Nat) :
    (d.spareCtl level op).rd f = d.rd f :=
  Dev.keeps_spareCtl d level op f (by simpa using h)

theorem Dev.role_spareCtl (level op n : Nat) : (d.spareCtl level op).role n = d.role n :=
  Dev.rd_spareCtl d (by simp [Field.key, F.LEVEL_ROLE_ROLE, F.SPARE_CTL_LEVEL, F.SPARE_CTL_OP]; omega) level op

end Ctl

section Spare

variable {s : State} {level : Fin 32}

theorem exec_levelSpare_of_fail (hne : s.dev.spareCheck level ≠ 0) (hlt : s.dev.spareCheck level < 4) :
    exec (.levelSpare level) s = .next (s.withDev fun d => d.spareAnswer level 0 (d.spareCheck level)) := by
  have hresult : (s.withDev fun d => d.spareAnswer level 0 (d.spareCheck level)).dev.rd F.SPARE_STATUS_RESULT ≠ 0 :=
    fun h => hne ((Dev.rd_spareAnswer s.dev level 0 hlt).symm.trans h)
  refine Eq.trans (b := execLevelSpare level s) rfl ?_
  rw [execLevelSpare, State.spareOrder]
  exact congrArg Host.Outcome.next (if_neg hresult)

theorem exec_levelSpare_of_pass (h : s.dev.spareCheck level = 0) :
    exec (.levelSpare level) s = .next ((s.withDev fun d => d.spareAnswer level 0 0).spareBegin level) := by
  refine Eq.trans (b := execLevelSpare level s) rfl ?_
  rw [execLevelSpare, State.spareOrder, State.withDev_congr (f := fun d => (d.spareCtl level 0).wr F.SPARE_STATUS_RESULT (d.spareCheck level))
    (g := fun d => d.spareAnswer level 0 0) (by rw [h, Dev.spareAnswer])]
  exact congrArg Host.Outcome.next (if_pos (Dev.rd_spareAnswer s.dev level 0 (by decide)))

theorem exec_levelRetire_of_other (h : 17 ≤ level.val ∨ s.dev.role level ≠ 0) :
    exec (.levelRetire level) s = .next (s.withDev fun d => d.spareAnswer level 1 2) := by
  refine State.next_congr (f := fun d => d.levelRetire level) ?_
  rw [Dev.levelRetire, Dev.role_spareCtl]
  exact if_pos (h.imp_right Or.inl)

section Data

variable (hlevel : level.val < 17) (hrole : s.dev.role level = 0) (hretiring : s.dev.retiring = [])
include hlevel hrole hretiring

theorem retire_accepted : ¬ (17 ≤ level.val ∨ (s.dev.spareCtl level 1).role level ≠ 0 ∨
    (s.dev.spareCtl level 1).retiring.any (fun r => r.1 = level.val) = true) := by
  rw [Dev.role_spareCtl, show (s.dev.spareCtl level 1).retiring = [] from hretiring]
  simp [hrole, hlevel]

theorem exec_levelRetire_of_sparing (h : s.dev.rd F.SPARE_STATUS_STATE ≠ 0) :
    exec (.levelRetire level) s = .next (s.withDev fun d => d.spareAnswer level 1 3) := by
  refine State.next_congr (f := fun d => d.levelRetire level) ((if_neg (retire_accepted hlevel hrole hretiring)).trans (if_pos ?_))
  rw [Dev.rd_spareCtl _ (by decide)]
  exact h

/-- A level noted as being retired. -/
def Dev.retire (d : Dev) (level : Nat) : Dev :=
  ({ d.spareCtl level 1 with retiring := d.retiring ++ [(level, none)] } : Dev).wr F.SPARE_STATUS_RESULT 0

theorem exec_levelRetire_of_pass (h : s.dev.rd F.SPARE_STATUS_STATE = 0) :
    exec (.levelRetire level) s = .next (s.withDev fun d => (d.retire level).recordRoles) := by
  refine State.next_congr (f := fun d => d.levelRetire level) ((if_neg (retire_accepted hlevel hrole hretiring)).trans (if_neg ?_))
  rw [Dev.rd_spareCtl _ (by decide)]
  exact not_not_intro h

end Data

theorem Dev.keepsWhole_recordRoles (d : Dev) : d.KeepsWhole d.recordRoles := Dev.keepsWhole_ledgerRequest _

theorem Dev.recordRoles_retiring (d : Dev) : d.recordRoles.retiring = d.retiring :=
  Dev.ledgerRequest_view d (g := Dev.retiring) (fun _ _ _ _ _ => rfl) _

/-! ## ABANDON -/

/-- The reserve given up (Table 11.4): no reserve in use, no sparing. -/
def Dev.reserveGone (d : Dev) : Dev := d.wrs [(F.DEV_STACK_CURRENT_RESERVE, 31), (F.SPARE_STATUS_STATE, 0)]

theorem Dev.rd_reserveGone (d : Dev) : d.reserveGone.rd F.SPARE_STATUS_STATE = 0 ∧ d.reserveGone.rd F.DEV_STACK_CURRENT_RESERVE = 31 := by
  have hnodup : ([F.DEV_STACK_CURRENT_RESERVE, F.SPARE_STATUS_STATE].map Field.key).Nodup := by decide
  exact ⟨Dev.rd_wrs_of_mem d (l := [(F.DEV_STACK_CURRENT_RESERVE, 31), (F.SPARE_STATUS_STATE, 0)]) (v := 0) hnodup (by simp),
    Dev.rd_wrs_of_mem d (l := [(F.DEV_STACK_CURRENT_RESERVE, 31), (F.SPARE_STATUS_STATE, 0)]) (v := 31) hnodup (by simp)⟩

/-- What a retired level changes of the device's own registers is the number of retired levels (R288). -/
theorem Dev.rd_retireLevel (d : Dev) (level : Nat) {f : Field} (hf : f.key < unitBase) (hne : f.key ≠ F.SPARE_STATUS_RETIRED.key) :
    (d.retireLevel level).rd f = d.rd f := by
  have hrole : f.key ≠ (F.LEVEL_ROLE_ROLE level).key := by
    have hbase : unitBase = 0x10100 * 32 := rfl
    simp only [F.LEVEL_ROLE_ROLE]
    simp only [Field.key] at hf ⊢
    omega
  exact (Dev.keepsWhole_gateLevel level f hf).trans ((Dev.rd_bump_ne _ hne).trans (Dev.rd_wr_ne _ hrole 2))

/-- What a sparing keeps beside its registers, cleared. -/
def Dev.spareCleared (d : Dev) : Dev := { d with rolesDue := none, spareCursor := [] }

theorem Dev.spareCleared_fields (d : Dev) : d.spareCleared.fields = d.fields := rfl

theorem Dev.rd_spareAbandoned (d : Dev) (cause : Nat) {f : Field} (hf : f.key < unitBase) (hne : f.key ≠ F.SPARE_STATUS_RETIRED.key) :
    (d.spareAbandoned cause).rd f = d.reserveGone.rd f := by
  rw [Dev.spareAbandoned]
  exact (Dev.keepsWhole_recordRoles _ f hf).trans ((Dev.rd_raise ..).trans ((Dev.rd_retireLevel (Dev.spareCleared _) _ hf hne).trans
    (Dev.rd_congr (Dev.spareCleared_fields _) f)))

theorem exec_spareAbandon (h : s.dev.rd F.SPARE_STATUS_STATE = 1 ∨ s.dev.rd F.SPARE_STATUS_STATE = 2) :
    exec .spareAbandon s = .next (s.withDev fun d =>
      ((d.spareCtl (d.rd F.SPARE_CTL_LEVEL) 2).spareAbandoned 2).wr F.SPARE_STATUS_RESULT 0) := by
  refine State.next_congr (f := Dev.spareAbandon) (if_pos ?_)
  rw [Dev.rd_spareCtl _ (by decide)]
  exact h

theorem exec_spareAbandon_of_idle (h : s.dev.rd F.SPARE_STATUS_STATE = 0) :
    exec .spareAbandon s = .next (s.withDev fun d => d.spareCtl (d.rd F.SPARE_CTL_LEVEL) 2) := by
  refine State.next_congr (f := Dev.spareAbandon) (if_neg ?_)
  rw [Dev.rd_spareCtl _ (by decide), h]
  decide

end Spare

/-! ## Restored bays (R295) -/

section Bays

variable {s : State} {bay : Fin 64}

theorem exec_bayRestoreAttempt_of_not (pass : Bool) (h : s.dev.rd (F.TWIN_STATUS_MODE bay) ≠ 1 ∨ s.dev.rd (F.TWIN_STATUS_CAUSE bay) ≠ 3 ∨
    s.dev.withdrawnBays.contains bay.val = true) : exec (.bayRestoreAttempt bay pass) s = .next s :=
  congrArg Host.Outcome.next (if_pos h)

/-- A bay switched off and woken again. -/
def Dev.bayCycled (d : Dev) (bay : Nat) : Dev := (d.domainOff (Dom.bay bay)).domainWoken (Dom.bay bay)

variable (hmode : s.dev.rd (F.TWIN_STATUS_MODE bay) = 1) (hcause : s.dev.rd (F.TWIN_STATUS_CAUSE bay) = 3)
  (hthere : s.dev.withdrawnBays.contains bay.val = false)
include hmode hcause hthere

theorem bay_attempted : ¬ (s.dev.rd (F.TWIN_STATUS_MODE bay) ≠ 1 ∨ s.dev.rd (F.TWIN_STATUS_CAUSE bay) ≠ 3 ∨
    s.dev.withdrawnBays.contains bay.val = true) := by
  rw [hthere]
  exact not_or.mpr ⟨not_not_intro hmode, not_or.mpr ⟨not_not_intro hcause, Bool.false_ne_true⟩⟩

theorem exec_bayRestoreAttempt_pass : ∃ e : State, exec (.bayRestoreAttempt bay true) s =
    .next ((e.withDev fun d => d.handedBack bay).withDev fun d => { d with restored := SMap.insert bay.val d.time d.restored }) :=
  ⟨((s.withDev fun d => d.bayCycled bay).drainOrder bay 32).drainShaft (twinOf bay) bay,
    congrArg Host.Outcome.next (if_neg (bay_attempted hmode hcause hthere))⟩

theorem exec_bayRestoreAttempt_fail : exec (.bayRestoreAttempt bay false) s = .next (s.withDev fun d => (d.bayCycled bay).withdrawBay bay) :=
  congrArg Host.Outcome.next (if_neg (bay_attempted hmode hcause hthere))

end Bays

theorem Dev.mem_withdrawBay (d : Dev) (bay : Nat) : bay ∈ (d.withdrawBay bay).withdrawnBays := by
  rw [Dev.withdrawBay]
  split
  · next h => exact List.contains_iff_mem.mp h
  · rw [Dev.ledgerRequest_view _ (g := Dev.withdrawnBays) fun _ _ _ _ _ => rfl]
    exact List.mem_append_right _ (List.mem_singleton_self bay)

/-- Settles O35: each command's equation, with the registers that a gated level or a ledger request does not touch. -/
theorem levelsAndBaysAreRepaired : Obligations.LevelsAndBaysAreRepaired := by
  unfold Obligations.LevelsAndBaysAreRepaired
  intro s level bay
  refine ⟨fun hne hlt => ⟨_, exec_levelSpare_of_fail hne hlt, State.frame_of_keeps (Dev.keeps_spareAnswer s.dev _ _ _), Dev.rd_spareAnswer s.dev _ _ hlt⟩,
    fun h => ⟨_, exec_levelSpare_of_pass h, State.frame_of_keeps (Dev.keeps_spareAnswer s.dev _ _ _), Dev.rd_spareAnswer s.dev _ _ (by decide)⟩,
    fun h => ⟨_, exec_levelRetire_of_other h, State.frame_of_keeps (Dev.keeps_spareAnswer s.dev _ _ _), Dev.rd_spareAnswer s.dev _ _ (by decide)⟩,
    fun hlevel hrole hretiring h => ⟨_, exec_levelRetire_of_sparing hlevel hrole hretiring h, State.frame_of_keeps (Dev.keeps_spareAnswer s.dev _ _ _),
      Dev.rd_spareAnswer s.dev _ _ (by decide)⟩,
    fun hlevel hrole hretiring h => ⟨_, exec_levelRetire_of_pass hlevel hrole hretiring h, ?_, ?_, State.withDev_mem ..⟩,
    fun h => ⟨_, exec_spareAbandon h, ?_, ?_, ?_, State.withDev_mem ..⟩,
    fun h => ⟨_, exec_spareAbandon_of_idle h, State.frame_of_keeps ((Dev.keeps_spareCtl s.dev _ _).mono (by simp))⟩,
    fun pass h => exec_bayRestoreAttempt_of_not pass h, fun hmode hcause hthere => ⟨?_, ?_⟩⟩
  · exact (Dev.keepsWhole_recordRoles _ _ (by decide)).trans (Dev.rd_wr_same _ F.SPARE_STATUS_RESULT 0)
  · exact (Dev.recordRoles_retiring _).trans (congrArg (· ++ [(level.val, none)]) hretiring)
  · exact Dev.rd_wr_same _ _ 0
  · exact (Dev.rd_wr_ne _ (by decide) 0).trans ((Dev.rd_spareAbandoned _ 2 (by decide) (by decide)).trans (Dev.rd_reserveGone _).1)
  · exact (Dev.rd_wr_ne _ (by decide) 0).trans ((Dev.rd_spareAbandoned _ 2 (by decide) (by decide)).trans (Dev.rd_reserveGone _).2)
  · obtain ⟨e, he⟩ := exec_bayRestoreAttempt_pass hmode hcause hthere
    refine ⟨_, he, Dev.rd_handedBack e.dev (v := 0) (by simp [handbackWrites]), Dev.rd_handedBack e.dev (v := 0) (by simp [handbackWrites]),
      Dev.rd_handedBack e.dev (v := 1) (by simp [handbackWrites]), ?_⟩
    rw [slotAt]
    exact congrArg (Option.map Prod.snd) (find?_insert_same bay.val (e.withDev fun d => d.handedBack bay).dev.time _)
  · exact ⟨_, exec_bayRestoreAttempt_fail hmode hcause hthere, Dev.mem_withdrawBay _ _, State.withDev_mem ..⟩

end Sys2Proof.Machine

end

section
/-!
The foot's ledger commands, life and evacuation (R301, R302, R303, R305, R306, Table 11.15).
-/

namespace Sys2Proof.Machine

open Sys2Proof

/-! ## What a counted event may change -/

/-- A device with another's registers, event counters, house rings and messages to the host: all that a counted event may change. -/
def Dev.withEvents (d e : Dev) : Dev :=
  { d with fields := e.fields, perf := e.perf, house := e.house, hostOps := e.hostOps, hostTag := e.hostTag, out := e.out, ints := e.ints }

/-- A change of nothing else. -/
def Dev.EventsOnly (d e : Dev) : Prop := e = d.withEvents e

section EventsOnly

variable {d e e' : Dev}

theorem Dev.EventsOnly.trans (h : d.EventsOnly e) (h' : e.EventsOnly e') : d.EventsOnly e' := by
  have hboth : e.withEvents e' = (d.withEvents e).withEvents e' := congrArg (fun x => Dev.withEvents x e') h
  exact Eq.trans h' hboth

/-- Whatever an event may not change reads as before. -/
theorem Dev.EventsOnly.view {α : Type} (h : d.EventsOnly e) {g : Dev → α} (hg : ∀ x y : Dev, g (x.withEvents y) = g x) : g e = g d :=
  Eq.trans (congrArg g h) (hg d e)

theorem Dev.eventsOnly_interrupt (d : Dev) (k causes : Nat) : d.EventsOnly (d.interrupt k causes) := by
  rw [Dev.interrupt]
  split
  · rfl
  · rw [Dev.interruptMsg]
    split <;> rfl

theorem Dev.eventsOnly_houseDrop (d : Dev) (r : Nat) (rec : BitVec 512) (link : Nat) : d.EventsOnly (d.houseDrop r rec link) := by
  rw [Dev.houseDrop]
  split
  · split <;> rfl
  · rfl

theorem Dev.eventsOnly_houseStore (d : Dev) (r : Nat) (rec : BitVec 512) : d.EventsOnly (d.houseStore r rec) := by
  rw [Dev.houseStore]
  split
  · refine Dev.EventsOnly.trans ?_ (Dev.eventsOnly_interrupt _ houseInt _)
    rfl
  · rfl

theorem Dev.eventsOnly_houseRecord (d : Dev) (r : Nat) (rec : BitVec 512) (link : Nat) : d.EventsOnly (d.houseRecord r rec link) := by
  have hhold : ∀ e : Dev, e.EventsOnly (if (e.houseRing r).held.length < 16 then e.setHouse r fun h => { h with held := h.held ++ [(rec, link)] }
      else e.houseDrop r rec link) := fun e => by
    split
    · rfl
    · exact Dev.eventsOnly_houseDrop e r rec link
  rw [Dev.houseRecord]
  split
  · split
    · refine Dev.EventsOnly.trans ?_ (hhold _)
      split <;> rfl
    · exact Dev.eventsOnly_houseStore d r rec
  · split
    · exact hhold d
    · exact Dev.eventsOnly_houseDrop d r rec link

theorem Dev.eventsOnly_perfStep (fuel : Nat) (d : Dev) (c : Nat) : d.EventsOnly (d.perfStep fuel c) := by
  induction fuel generalizing d c with
  | zero => rfl
  | succ fuel ih =>
    rw [Dev.perfStep]
    dsimp only
    split
    · rfl
    · generalize hbumped : Dev.bump _ F.PERF_STATUS_OVERFLOWS = e
      have he : d.EventsOnly e := by
        rw [← hbumped]
        rfl
      split
      · exact (he.trans (Dev.eventsOnly_houseRecord e 1 _ 0)).trans (Dev.eventsOnly_interrupt _ _ _)
      · split
        · exact he.trans (ih e _)
        · exact he

theorem Dev.eventsOnly_count (d : Dev) (ev unit : Nat) (patron : Option Nat) : d.EventsOnly (d.count ev unit patron) := by
  rw [Dev.count]
  split
  · rfl
  · exact List.foldlRecOn _ _ (motive := d.EventsOnly) rfl fun e he x _ => he.trans (Dev.eventsOnly_perfStep 512 e x.1)

end EventsOnly

/-! ## Requests and blocks -/

section Requests

variable (d : Dev) (req : LedgerReq)

/-- A request that is no event-log request is never dropped (R302). -/
theorem Dev.keeps_ledgerRequest_of_kept (h : req.isLog = false) : d.Keeps [F.LEDGER_STATUS_QUEUED] (d.ledgerRequest req) := by
  rw [Dev.ledgerRequest]
  split
  · exact Dev.keeps_of_fields rfl
  · split
    · exact Dev.Keeps.trans (e := { d with ledgerQueue := d.ledgerQueue ++ [req] }) (Dev.keeps_of_fields rfl) (Dev.keeps_wr (by simp) _)
    · rw [if_neg (by simp [h])]
      exact Dev.keeps_of_fields rfl

theorem Dev.mem_ledgerRequest (h : d.ledgerQueue.length < 64) : req ∈ (d.ledgerRequest req).ledgerQueue := by
  rw [Dev.ledgerRequest]
  split
  · next hany =>
    obtain ⟨q, hq, heq⟩ := List.any_eq_true.mp hany
    exact List.mem_map.mpr ⟨q, hq, if_pos (of_decide_eq_true heq)⟩
  · exact List.mem_append_right _ (List.mem_singleton_self req)

end Requests

theorem filter_insert_same {α : Type} (k : Nat) (v d : α) (m : SMap α) : SMap.get d ((SMap.insert k v m).filter (fun kv => kv.1 = k)) k = v := by
  have hhead : ((SMap.insert k v m).filter (fun kv => kv.1 = k)).head? = some (k, v) := by
    rw [List.head?_filter, find?_insert_same]
  cases hlist : (SMap.insert k v m).filter (fun kv => kv.1 = k) with
  | nil => rw [hlist] at hhead; exact absurd hhead (by simp)
  | cons x rest =>
    rw [hlist] at hhead
    obtain rfl := Option.some.inj hhead
    exact if_pos rfl

/-- The ledger replaced. -/
def State.withLedger (s : State) (l : Ledger) : State := { s with ledger := l }

theorem State.withLedger_ledger (s : State) (l : Ledger) : (s.withLedger l).ledger = l := rfl

theorem State.withLedger_mem (s : State) (l : Ledger) : (s.withLedger l).mem = s.mem := rfl

/-- A block retired into the pool: its spare stands for it, and it for the spare (R303). -/
def Ledger.retireBlock (l : Ledger) (n spare : Nat) : Ledger :=
  { l with wearMap := SMap.insert n (l.physical spare) (SMap.insert spare (l.physical n) l.wearMap) }

theorem Ledger.physical_retireBlock (l : Ledger) (n spare : Nat) : (l.retireBlock n spare).physical n = l.physical spare :=
  filter_insert_same n (l.physical spare) n _

/-! ## Slot writes -/

section Writes

variable {s : State}

theorem exec_ledgerSlotWrite_of_none (h : s.dev.ledgerQueue = [] ∨ s.dev.ledgerWriting ≠ none) : exec .ledgerSlotWrite s = .next s := by
  refine Eq.trans (b := execLedgerSlotWrite s) rfl (congrArg Host.Outcome.next ?_)
  rw [State.ledgerStart]
  split
  · next hqueue hwriting =>
    rcases h with h | h
    · exact absurd (h.symm.trans hqueue) (List.cons_ne_nil _ _).symm
    · exact absurd hwriting h
  · rfl

theorem exec_ledgerSlotWrite_of_held (h : s.dev.ledgerHeld = true) (hoff : s.dev.countersOff = true) : exec .ledgerSlotWrite s = .next s := by
  refine Eq.trans (b := execLedgerSlotWrite s) rfl (congrArg Host.Outcome.next ?_)
  rw [State.ledgerStart]
  split
  · rw [if_pos h]
    refine State.withDev_eq_self ?_
    rw [Dev.count_of_countersOff hoff, ite_self]
  · rfl

/-- The foot writing a request, with the rest of its queue. -/
def Dev.writing (d : Dev) (req : LedgerReq) (second : Bool) (rest : List LedgerReq) : Dev :=
  { d with ledgerQueue := rest, ledgerWriting := some (req, second) }

theorem exec_ledgerSlotWrite {req : LedgerReq} {rest : List LedgerReq} (hqueue : s.dev.ledgerQueue = req :: rest)
    (hidle : s.dev.ledgerWriting = none) (hheld : s.dev.ledgerHeld = false) : exec .ledgerSlotWrite s =
      .next ((s.withLedger (s.ledger.beginWrite req).1).withDev fun d =>
        (d.writing req (s.ledger.beginWrite req).2 rest).showQueued.ledgerRefill) := by
  refine Eq.trans (b := execLedgerSlotWrite s) rfl (congrArg Host.Outcome.next ?_)
  rw [State.ledgerStart, hqueue, hidle]
  exact if_neg (by simp [hheld])

theorem Dev.keeps_ledgerRefill (d : Dev) : d.Keeps [F.LEDGER_STATUS_QUEUED] d.ledgerRefill := by
  rw [Dev.ledgerRefill]
  split
  · exact Dev.Keeps.refl _ d
  · next r rest _ =>
    split
    · exact Dev.Keeps.trans (e := { d with ledgerQueue := d.ledgerQueue ++ [r], ledgerWait := rest }) (Dev.keeps_of_fields rfl)
        (Dev.keeps_wr List.mem_cons_self _)
    · exact Dev.Keeps.refl _ d

theorem Dev.ledgerRefill_writing (d : Dev) : d.ledgerRefill.ledgerWriting = d.ledgerWriting := by
  rw [Dev.ledgerRefill]
  split
  · rfl
  · split <;> rfl

theorem Dev.keeps_writing (d : Dev) (req : LedgerReq) (second : Bool) (rest : List LedgerReq) :
    d.Keeps [F.LEDGER_STATUS_QUEUED] (d.writing req second rest).showQueued.ledgerRefill :=
  Dev.Keeps.trans (e := d.writing req second rest) (Dev.keeps_of_fields rfl)
    (Dev.Keeps.trans (Dev.keeps_wr List.mem_cons_self _) (Dev.keeps_ledgerRefill _))

/-- The foot without a write. -/
def Dev.footFree (d : Dev) : Dev := { d with ledgerWriting := none }

theorem exec_ledgerWriteDone_of_none (ok : Bool) (h : s.dev.ledgerWriting = none) : exec (.ledgerWriteDone ok) s = .next s := by
  refine Eq.trans (b := execLedgerWriteDone ok s) rfl ?_
  rw [execLedgerWriteDone, h]

variable {req : LedgerReq} {second : Bool} (hwriting : s.dev.ledgerWriting = some (req, second))
include hwriting

theorem exec_ledgerWriteDone_of_ok : exec (.ledgerWriteDone true) s =
    .next ((s.withLedger (s.ledger.endWrite req second)).withDev fun d =>
      (d.footFree.count 0x0717 0).recorded req.record req.payload) := by
  refine Eq.trans (b := execLedgerWriteDone true s) rfl ?_
  rw [execLedgerWriteDone, hwriting]
  rfl

/-- Without a spare block a failed write leaves everything as it was (R303). -/
theorem exec_ledgerWriteDone_of_spent (h : s.dev.rd F.LEDGER_STATUS_SPARE_BLOCKS = 0) : exec (.ledgerWriteDone false) s = .next s := by
  refine Eq.trans (b := execLedgerWriteDone false s) rfl ?_
  rw [execLedgerWriteDone, hwriting, h]
  rfl

theorem exec_ledgerWriteDone_of_failed (h : s.dev.rd F.LEDGER_STATUS_SPARE_BLOCKS ≠ 0) : exec (.ledgerWriteDone false) s =
    .next ((s.withLedger (s.ledger.retireBlock (recordBlock req.record + second.toNat)
        (59776 + (5760 - s.dev.rd F.LEDGER_STATUS_SPARE_BLOCKS)))).withDev fun d =>
      d.wr F.LEDGER_STATUS_SPARE_BLOCKS (s.dev.rd F.LEDGER_STATUS_SPARE_BLOCKS - 1)) := by
  refine Eq.trans (b := execLedgerWriteDone false s) rfl ?_
  rw [execLedgerWriteDone, hwriting]
  simp only [Bool.false_eq_true, if_false, if_neg h]
  rfl

end Writes

/-- What follows a written record leaves the foot free. -/
theorem Dev.recorded_writing (d : Dev) (record : Nat) (payload : List Nat) : (d.recorded record payload).ledgerWriting = d.ledgerWriting := by
  rw [Dev.recorded]
  split
  case h_4 =>
    rw [Dev.rowRecorded]
    split <;> rfl
  all_goals rfl

theorem Dev.count_writing (d : Dev) (ev unit : Nat) (patron : Option Nat) : (d.count ev unit patron).ledgerWriting = d.ledgerWriting :=
  (Dev.eventsOnly_count d ev unit patron).view (g := Dev.ledgerWriting) fun _ _ => rfl

theorem Dev.footFree_writing (d : Dev) : d.footFree.ledgerWriting = none := rfl

/-! ## Reading a record (R301) -/

/-- The registers that end a read of the ledger. -/
def Dev.ledgerShown (d : Dev) (r : Nat) : Dev := d.wrs [(F.LEDGER_RD_STATUS_RESULT, r), (F.LEDGER_RD_STATUS_BUSY, 0)]

/-- The words of a slot in LEDGER_RD_DATA. -/
def slotWords (x : Slot) : List (Field × Nat) := (List.range 64).map fun i => (F.LEDGER_RD_DATA_DATA i, x.toNat / 2 ^ (32 * i))

/-- The slots of a record that are not valid and have been written. -/
def badSlots (r : LedgerRec) : Nat := (if r.a.valid then 0 else 1) + (if r.b.valid ∨ r.b = 0 then 0 else 1)

section Read

variable (d : Dev)

theorem Dev.keeps_ledgerShown (r : Nat) : d.Keeps [F.LEDGER_RD_STATUS_RESULT, F.LEDGER_RD_STATUS_BUSY] (d.ledgerShown r) :=
  Dev.keeps_wrs (List.Subset.refl _)

theorem Dev.rd_ledgerShown {r : Nat} (h : r < 4) :
    (d.ledgerShown r).rd F.LEDGER_RD_STATUS_RESULT = r ∧ (d.ledgerShown r).rd F.LEDGER_RD_STATUS_BUSY = 0 := by
  have hnodup : ([F.LEDGER_RD_STATUS_RESULT, F.LEDGER_RD_STATUS_BUSY].map Field.key).Nodup := by decide
  exact ⟨(Dev.rd_wrs_of_mem d (l := [(F.LEDGER_RD_STATUS_RESULT, r), (F.LEDGER_RD_STATUS_BUSY, 0)]) (v := r) hnodup (by simp)).trans
      (Nat.mod_eq_of_lt h),
    Dev.rd_wrs_of_mem d (l := [(F.LEDGER_RD_STATUS_RESULT, r), (F.LEDGER_RD_STATUS_BUSY, 0)]) (v := 0) hnodup (by simp)⟩

theorem slotWords_fields (x : Slot) : (slotWords x).map Prod.fst = (List.range 64).map F.LEDGER_RD_DATA_DATA := by
  rw [slotWords, List.map_map]
  rfl

theorem Dev.wrs_slotWords (x : Slot) : d.wrs (slotWords x) =
    (List.range 64).foldl (fun d i => d.wr (F.LEDGER_RD_DATA_DATA i) (x.toNat / 2 ^ (32 * i))) d := List.foldl_map

theorem ledgerData_nodup : (((List.range 64).map F.LEDGER_RD_DATA_DATA).map Field.key).Nodup := by
  rw [List.map_map]
  refine List.pairwise_map.mpr (List.Pairwise.imp (fun {i j} hne hij => hne ?_) List.nodup_range)
  simp only [Function.comp_apply, Field.key, F.LEDGER_RD_DATA_DATA] at hij
  omega

theorem Dev.rd_slotWords (x : Slot) (i : Fin 64) : (d.wrs (slotWords x)).rd (F.LEDGER_RD_DATA_DATA i) = x.toNat / 2 ^ (32 * i.val) % 2 ^ 32 :=
  Dev.rd_wrs_of_mem d (l := slotWords x) (v := x.toNat / 2 ^ (32 * i.val)) (by rw [slotWords_fields]; exact ledgerData_nodup)
    (List.mem_map.mpr ⟨i, List.mem_range.mpr i.isLt, rfl⟩)

theorem ledgerData_key_ne (i : Nat) :
    (F.LEDGER_RD_DATA_DATA i).key ∉ [F.LEDGER_RD_STATUS_RESULT, F.LEDGER_RD_STATUS_BUSY].map Field.key := by
  simp [Field.key, F.LEDGER_RD_DATA_DATA, F.LEDGER_RD_STATUS_RESULT, F.LEDGER_RD_STATUS_BUSY]
  omega

variable {s : State}

theorem exec_ledgerRead_of_absent (h : s.ledger.records.find? (fun kv => kv.1 = s.dev.rd F.LEDGER_RD_CTL_RECORD) = none) :
    exec .ledgerRead s = .next (s.withDev fun d => d.ledgerShown 1) := by
  refine Eq.trans (b := execLedgerRead s) rfl (congrArg Host.Outcome.next ?_)
  rw [State.ledgerRead]
  refine State.withDev_congr ?_
  dsimp only
  rw [h]
  rfl

section Found

variable {kv : Nat × LedgerRec} (h : s.ledger.records.find? (fun kv => kv.1 = s.dev.rd F.LEDGER_RD_CTL_RECORD) = some kv)
include h

theorem exec_ledgerRead_of_newest {x : Slot} (hx : kv.2.newest = some x) : exec .ledgerRead s = .next (s.withDev fun d =>
    ((d.bumpBy F.LEDGER_ERRORS_SLOTS_BAD (badSlots kv.2)).wrs (slotWords x)).ledgerShown 0) := by
  refine Eq.trans (b := execLedgerRead s) rfl (congrArg Host.Outcome.next ?_)
  rw [State.ledgerRead]
  refine State.withDev_congr ?_
  dsimp only
  rw [h]
  dsimp only
  rw [hx]
  exact congrArg (fun e => Dev.ledgerShown e 0) (Dev.wrs_slotWords _ x).symm

theorem exec_ledgerRead_of_lost (hx : kv.2.newest = none) : exec .ledgerRead s = .next (s.withDev fun d =>
    ((((d.bumpBy F.LEDGER_ERRORS_SLOTS_BAD (badSlots kv.2)).bump F.LEDGER_ERRORS_LOST).ledgerShown 2).raise .ledgerRecordLost (Src.foot 10)
      [(s.dev.rd F.LEDGER_RD_CTL_RECORD, 24)])) := by
  refine Eq.trans (b := execLedgerRead s) rfl (congrArg Host.Outcome.next ?_)
  rw [State.ledgerRead]
  refine State.withDev_congr ?_
  dsimp only
  rw [h]
  dsimp only
  rw [hx]
  rfl

end Found

end Read

/-! ## Life (R306) -/

/-- An hour of OPEN time added. -/
def Dev.aged (d : Dev) (crown levels : Int) : Dev :=
  { d with life.hours := d.life.hours + 1, life.crown := d.life.crown + lifeWeight (crown - 320),
           life.levels := d.life.levels + lifeWeight (levels - 340) }

/-- The LIFE record asked for. -/
def Dev.lifeRequest (d : Dev) : LedgerReq := { record := recordNo 0x20 0, payload := d.lifePayload }

theorem Dev.lifeRequest_not_log (d : Dev) : d.lifeRequest.isLog = false := by
  show decide (recordNo 0x20 0 / 2 ^ 16 = 0x30) = false
  decide

/-- The LIFE registers and the record after an hour. -/
def Dev.ageShown (d : Dev) (crown levels : Int) : Dev :=
  (d.aged crown levels).showLife.ledgerRequest (d.aged crown levels).lifeRequest

/-- The LIFE registers. -/
def lifeFields : List Field := [F.LIFE_HOURS_HOURS, F.LIFE_CROWN_WEIGHTED, F.LIFE_LEVELS_WEIGHTED, F.LIFE_USED_CROWN, F.LIFE_USED_LEVELS]

section Life

variable (d : Dev) (crown levels : Int)

theorem exec_lifeRecord (s : State) : ∃ b, exec (.lifeRecord crown levels) s = .next (s.withDev fun d =>
    (d.ageShown crown levels).raiseIf b .lifeRatingReached Src.device) := ⟨_, rfl⟩

theorem Dev.aged_fields : (d.aged crown levels).fields = d.fields := rfl

theorem Dev.keeps_showLife : d.Keeps lifeFields d.showLife := Dev.keeps_wrs (List.Subset.refl _)

theorem Dev.rd_showLife_hours : d.showLife.rd F.LIFE_HOURS_HOURS = d.life.hours % 2 ^ 32 := by
  rw [Dev.showLife]
  exact Dev.rd_wrs_of_mem d (l := [(F.LIFE_HOURS_HOURS, d.life.hours), (F.LIFE_CROWN_WEIGHTED, _), (F.LIFE_LEVELS_WEIGHTED, _),
    (F.LIFE_USED_CROWN, _), (F.LIFE_USED_LEVELS, _)]) (show (lifeFields.map Field.key).Nodup by decide) List.mem_cons_self

theorem Dev.showLife_life : d.showLife.life = d.life := rfl

theorem Dev.showLife_queue : d.showLife.ledgerQueue = d.ledgerQueue := rfl

theorem Dev.keeps_ageShown : d.Keeps (lifeFields ++ [F.LEDGER_STATUS_QUEUED]) (d.ageShown crown levels) :=
  Dev.Keeps.trans (e := d.aged crown levels) (Dev.keeps_of_fields rfl)
    (((Dev.keeps_showLife _).mono (List.subset_append_left _ _)).trans
      ((Dev.keeps_ledgerRequest_of_kept _ _ (Dev.lifeRequest_not_log _)).mono (List.subset_append_right _ _)))

theorem Dev.ageShown_life : (d.ageShown crown levels).life = (d.aged crown levels).life :=
  (Dev.ledgerRequest_view _ (g := Dev.life) (fun _ _ _ _ _ => rfl) _).trans (Dev.showLife_life _)

theorem Dev.rd_ageShown_hours : (d.ageShown crown levels).rd F.LIFE_HOURS_HOURS = (d.life.hours + 1) % 2 ^ 32 :=
  (Dev.keeps_ledgerRequest_of_kept _ _ (Dev.lifeRequest_not_log _) _ (by decide)).trans (Dev.rd_showLife_hours _)

theorem Dev.keeps_raise (t : FaultType) (source : Nat) (detail : List (Nat × Nat)) (l : List Field) : d.Keeps l (d.raise t source detail) :=
  Dev.keeps_of_fields rfl

theorem Dev.keeps_raiseIf (b : Bool) (t : FaultType) (source : Nat) (l : List Field) : d.Keeps l (d.raiseIf b t source) :=
  Dev.keeps_of_fields (by cases b <;> rfl)

theorem Dev.raiseIf_life (b : Bool) (t : FaultType) (source : Nat) : (d.raiseIf b t source).life = d.life := by cases b <;> rfl

theorem Dev.raiseIf_ledgerQueue (b : Bool) (t : FaultType) (source : Nat) : (d.raiseIf b t source).ledgerQueue = d.ledgerQueue := by
  cases b <;> rfl

/-- The first four bytes of the LIFE record are the hours (Table 11.10). -/
theorem Dev.lifePayload_hours : payloadNum d.lifePayload 0 4 = d.life.hours % 2 ^ 32 := by
  rw [payloadNum, Dev.lifePayload, List.drop_zero, List.append_assoc, List.take_left' (length_bytesOfNat 4 _), natOfBytes_bytesOfNat,
    pow_256 (k := 32) rfl]

end Life

/-! ## The obligation -/

section Commands

variable {s : State}

/-- The slot of the foot's write is begun, and the rest of the state stands (R301). -/
theorem ledgerSlotWrite_begun {req : LedgerReq} {rest : List LedgerReq} (hqueue : s.dev.ledgerQueue = req :: rest)
    (hidle : s.dev.ledgerWriting = none) (hheld : s.dev.ledgerHeld = false) : ∃ t, exec .ledgerSlotWrite s = .next t ∧
      t.ledger = (s.ledger.beginWrite req).1 ∧ t.dev.ledgerWriting = some (req, (s.ledger.beginWrite req).2) ∧ t.mem = s.mem ∧
      t.fuses = s.fuses ∧ t.layout = s.layout ∧ t.pending = s.pending ∧
      ∀ f : Field, f.key ≠ F.LEDGER_STATUS_QUEUED.key → t.dev.rd f = s.dev.rd f :=
  ⟨_, exec_ledgerSlotWrite hqueue hidle hheld, rfl, Dev.ledgerRefill_writing _, rfl, rfl, rfl, rfl, fun f hf =>
    Dev.keeps_writing s.dev req _ rest f fun hmem => hf (List.mem_singleton.mp hmem)⟩

section Done

variable {req : LedgerReq} {second : Bool} (hwriting : s.dev.ledgerWriting = some (req, second))
include hwriting

/-- A completed write stores its slot and leaves the foot free (R302). -/
theorem ledgerWriteDone_stored : ∃ t, exec (.ledgerWriteDone true) s = .next t ∧ t.ledger = s.ledger.endWrite req second ∧
    t.dev.ledgerWriting = none ∧ t.mem = s.mem := by
  refine ⟨_, exec_ledgerWriteDone_of_ok hwriting, (State.withDev_ledger _ _).trans (State.withLedger_ledger _ _), ?_,
    (State.withDev_mem _ _).trans (State.withLedger_mem _ _)⟩
  rw [State.withDev_dev, Dev.recorded_writing, Dev.count_writing, Dev.footFree_writing]

/-- A failed write retires its block into the pool, and is written again (R303). -/
theorem ledgerWriteDone_retired {free : Nat} (hfree : s.dev.rd F.LEDGER_STATUS_SPARE_BLOCKS = free) (hne : free ≠ 0) (hle : free ≤ 5760) :
    ∃ t, exec (.ledgerWriteDone false) s = .next t ∧
      t.ledger.physical (recordBlock req.record + second.toNat) = s.ledger.physical (59776 + (5760 - free)) ∧
      t.ledger.records = s.ledger.records ∧ t.dev.ledgerWriting = some (req, second) ∧
      t.dev.rd F.LEDGER_STATUS_SPARE_BLOCKS = free - 1 ∧ t.mem = s.mem ∧
      ∀ f : Field, f.key ≠ F.LEDGER_STATUS_SPARE_BLOCKS.key → t.dev.rd f = s.dev.rd f := by
  have hlt : free - 1 < 2 ^ 16 := by omega
  have hexec := exec_ledgerWriteDone_of_failed hwriting (hfree ▸ hne)
  rw [hfree] at hexec
  refine ⟨_, hexec, ?_, ?_, hwriting, ?_, State.withDev_mem _ _, fun f hf => Dev.rd_wr_ne _ hf _⟩
  · rw [State.withDev_ledger]
    exact Ledger.physical_retireBlock s.ledger _ _
  · rw [State.withDev_ledger]
    rfl
  · exact (Dev.rd_wr_same s.dev F.LEDGER_STATUS_SPARE_BLOCKS _).trans (Nat.mod_eq_of_lt hlt)

end Done

/-- A read shows the newest valid slot, or that the record is absent or lost (R301). -/
theorem ledgerRead_shown :
    (s.ledger.records.find? (fun kv => kv.1 = s.dev.rd F.LEDGER_RD_CTL_RECORD) = none → ∃ t, exec .ledgerRead s = .next t ∧
      s.frame t [F.LEDGER_RD_STATUS_RESULT, F.LEDGER_RD_STATUS_BUSY] ∧ t.dev.rd F.LEDGER_RD_STATUS_RESULT = 1 ∧
      t.dev.rd F.LEDGER_RD_STATUS_BUSY = 0) ∧
    ∀ kv, s.ledger.records.find? (fun kv => kv.1 = s.dev.rd F.LEDGER_RD_CTL_RECORD) = some kv →
      (∀ x, kv.2.newest = some x → ∃ t, exec .ledgerRead s = .next t ∧
        s.frame t (F.LEDGER_RD_STATUS_RESULT :: F.LEDGER_RD_STATUS_BUSY :: F.LEDGER_ERRORS_SLOTS_BAD ::
          (List.range 64).map F.LEDGER_RD_DATA_DATA) ∧
        t.dev.rd F.LEDGER_RD_STATUS_RESULT = 0 ∧ t.dev.rd F.LEDGER_RD_STATUS_BUSY = 0 ∧
        ∀ i : Fin 64, t.dev.rd (F.LEDGER_RD_DATA_DATA i) = x.toNat / 2 ^ (32 * i.val) % 2 ^ 32) ∧
      (kv.2.newest = none → ∃ t, exec .ledgerRead s = .next t ∧
        s.frame t [F.LEDGER_RD_STATUS_RESULT, F.LEDGER_RD_STATUS_BUSY, F.LEDGER_ERRORS_SLOTS_BAD, F.LEDGER_ERRORS_LOST] ∧
        t.dev.rd F.LEDGER_RD_STATUS_RESULT = 2 ∧ t.dev.rd F.LEDGER_RD_STATUS_BUSY = 0) := by
  have hbad : ∀ {l : List Field} n, F.LEDGER_ERRORS_SLOTS_BAD ∈ l → s.dev.Keeps l (s.dev.bumpBy F.LEDGER_ERRORS_SLOTS_BAD n) :=
    fun n hmem => Dev.bumpBy_eq s.dev F.LEDGER_ERRORS_SLOTS_BAD n ▸ Dev.keeps_wr hmem _
  refine ⟨fun h => ?_, fun kv h => ⟨fun x hx => ?_, fun hx => ?_⟩⟩
  · obtain ⟨hresult, hbusy⟩ := Dev.rd_ledgerShown s.dev (r := 1) (by decide)
    exact ⟨_, exec_ledgerRead_of_absent h, State.frame_of_keeps (Dev.keeps_ledgerShown _ _), hresult, hbusy⟩
  · obtain ⟨hresult, hbusy⟩ := Dev.rd_ledgerShown
      ((s.dev.bumpBy F.LEDGER_ERRORS_SLOTS_BAD (badSlots kv.2)).wrs (slotWords x)) (r := 0) (by decide)
    refine ⟨_, exec_ledgerRead_of_newest h hx, State.frame_of_keeps ?_, hresult, hbusy, fun i =>
      (Dev.keeps_ledgerShown _ _ _ (ledgerData_key_ne i)).trans (Dev.rd_slotWords _ x i)⟩
    refine ((hbad _ (by simp)).trans (Dev.keeps_wrs ?_)).trans ((Dev.keeps_ledgerShown _ _).mono (by simp))
    rw [slotWords_fields]
    exact List.subset_cons_of_subset _ (List.subset_cons_of_subset _ (List.subset_cons_self _ _))
  · obtain ⟨hresult, hbusy⟩ := Dev.rd_ledgerShown
      ((s.dev.bumpBy F.LEDGER_ERRORS_SLOTS_BAD (badSlots kv.2)).bump F.LEDGER_ERRORS_LOST) (r := 2) (by decide)
    refine ⟨_, exec_ledgerRead_of_lost h hx, State.frame_of_keeps ?_, (Dev.rd_raise ..).trans hresult, (Dev.rd_raise ..).trans hbusy⟩
    refine Dev.Keeps.trans ?_ (Dev.keeps_raise _ _ _ _ _)
    refine ((hbad _ (by simp)).trans (Dev.keeps_bump (f := F.LEDGER_ERRORS_LOST) (by simp))).trans ((Dev.keeps_ledgerShown _ _).mono (by simp))

/-- An hour of life added, shown, and its record asked for (R306). -/
theorem lifeRecord_added (crown levels : Int) : ∃ t, exec (.lifeRecord crown levels) s = .next t ∧
    s.frame t (lifeFields ++ [F.LEDGER_STATUS_QUEUED]) ∧ t.dev.life.hours = s.dev.life.hours + 1 ∧
    t.dev.rd F.LIFE_HOURS_HOURS = (s.dev.life.hours + 1) % 2 ^ 32 ∧
    t.dev.life.crown = s.dev.life.crown + lifeWeight (crown - 320) ∧ t.dev.life.levels = s.dev.life.levels + lifeWeight (levels - 340) ∧
    (s.dev.ledgerQueue.length < 64 → ∃ r ∈ t.dev.ledgerQueue, r.record = 0x200000 ∧
      (payloadNum r.payload 0 4 = (s.dev.life.hours + 1) % 2 ^ 32)) := by
  obtain ⟨b, hb⟩ := exec_lifeRecord crown levels s
  have hlife := (Dev.raiseIf_life (s.dev.ageShown crown levels) b .lifeRatingReached Src.device).trans (Dev.ageShown_life s.dev crown levels)
  refine ⟨_, hb, State.frame_of_keeps ((Dev.keeps_ageShown s.dev crown levels).trans (Dev.keeps_raiseIf _ b _ _ _)), congrArg LifeSt.hours hlife, ?_,
    congrArg LifeSt.crown hlife, congrArg LifeSt.levels hlife, fun hroom => ⟨(s.dev.aged crown levels).lifeRequest, ?_, rfl,
      Dev.lifePayload_hours _⟩⟩
  · exact (Dev.keeps_raiseIf _ b _ _ [] _ (List.not_mem_nil)).trans (Dev.rd_ageShown_hours s.dev crown levels)
  · have hmem := Dev.mem_ledgerRequest (s.dev.aged crown levels).showLife (s.dev.aged crown levels).lifeRequest hroom
    rw [State.withDev_dev, Dev.raiseIf_ledgerQueue]
    exact hmem

end Commands

/-- Settles O37: the foot's commands, the hour of life, and the bit of an evacuation. -/
theorem ledgerAndLifeAreKept : Obligations.LedgerAndLifeAreKept := by
  unfold Obligations.LedgerAndLifeAreKept
  refine ⟨fun s => ⟨exec_ledgerSlotWrite_of_none, exec_ledgerSlotWrite_of_held, fun req rest => ledgerSlotWrite_begun,
    fun h ok => exec_ledgerWriteDone_of_none ok h, fun req second hwriting =>
      ⟨ledgerWriteDone_stored hwriting, exec_ledgerWriteDone_of_spent hwriting, ledgerWriteDone_retired hwriting rfl⟩, ledgerRead_shown⟩,
    fun s crown levels => ⟨lifeRecord_added crown levels, ⟨_, rfl, ?_, Dev.rd_wr_same s.dev F.EVAC_STATUS_EVACUATING 1⟩,
      _, rfl, ?_, Dev.rd_wr_same s.dev F.EVAC_STATUS_EVACUATING 0⟩⟩
  · exact State.frame_of_keeps (f := fun d => d.wr F.EVAC_STATUS_EVACUATING 1) (Dev.keeps_wr List.mem_cons_self 1)
  · exact State.frame_of_keeps (f := fun d => d.wr F.EVAC_STATUS_EVACUATING 0) (Dev.keeps_wr List.mem_cons_self 0)

end Sys2Proof.Machine

end

section
/-!
Links entering states (R320, R340, Table 12.3): what ACQUIRE, DETECT, DISABLED and the loss of a link's state change.
-/

namespace Sys2Proof.Machine

open Sys2Proof

/-! ## The receive lanes of a link -/

theorem modeWidth_le (m : Nat) : modeWidth m ≤ 16 := by
  unfold modeWidth
  split <;> decide

/-- The LOCKED bits of the first lanes of a port. -/
def lockFields (n p : Nat) : List Field := (List.range n).map (F.LANE_ERR_LOCKED p)

theorem lockFields_key {n p : Nat} : ∀ f ∈ lockFields n p, f.key % 32 = 30 := by
  intro f hf
  obtain ⟨i, -, rfl⟩ := List.mem_map.mp hf
  simp only [Field.key, F.LANE_ERR_LOCKED]
  omega

/-- A field at another place of its register is no LOCKED bit. -/
theorem not_mem_lockFields {f : Field} (h : f.key % 32 ≠ 30) (n p : Nat) : f.key ∉ (lockFields n p).map Field.key := fun hmem => by
  obtain ⟨g, hg, heq⟩ := List.mem_map.mp hmem
  exact h (heq ▸ lockFields_key g hg)

/-- The receive lanes that a link may use lie below a bound, whatever else of the device changes. -/
def Dev.LanesBelow (d : Dev) (l n : Nat) : Prop :=
  ∀ e : Dev, e.rd (F.PORT_CTL_MODE (l / 4)) = d.rd (F.PORT_CTL_MODE (l / 4)) → ∀ i ∈ e.rxLanes l, i < n

theorem Dev.mem_rxLanes {d : Dev} {l i : Nat} (h : i ∈ d.rxLanes l) : (∃ j < d.fullWidth l, i = l % 4 * d.fullWidth l + j) ∨ i = 16 ∨ i = 17 := by
  rcases List.mem_append.mp h with h | h
  · obtain ⟨j, hj, rfl⟩ := List.mem_map.mp h
    exact Or.inl ⟨j, List.mem_range.mp hj, rfl⟩
  · exact Or.inr (by simpa using (List.mem_filter.mp h).1)

theorem Dev.lanesBelow_all (d : Dev) (l : Nat) : d.LanesBelow l 64 := fun e _ i hi => by
  rcases Dev.mem_rxLanes hi with ⟨j, hj, rfl⟩ | rfl | rfl
  · have hwidth : e.fullWidth l ≤ 16 := modeWidth_le _
    have hk : l % 4 ≤ 3 := by omega
    have hprod := Nat.mul_le_mul hk hwidth
    omega
  · decide
  · decide

/-- The lanes of a link that its port's MODE has, and the spares (Table 12.8). -/
theorem Dev.lanesBelow_of_inMode {d : Dev} {l : Nat} (h : d.linkInMode (l / 4) (l % 4) = true) : d.LanesBelow l 18 := fun e he i hi => by
  rcases Dev.mem_rxLanes hi with ⟨j, hj, rfl⟩ | rfl | rfl
  · rw [Dev.linkInMode, ← he] at h
    rw [Dev.fullWidth] at hj ⊢
    split at h
    · next hmode =>
      rw [hmode] at hj ⊢
      simp only [modeWidth, decide_eq_true_eq] at hj h ⊢
      omega
    · next hmode =>
      rw [hmode] at hj ⊢
      simp only [modeWidth, decide_eq_true_eq] at hj h ⊢
      omega
    · next hmode =>
      rw [hmode] at hj ⊢
      simp only [modeWidth, decide_eq_true_eq] at hj h ⊢
      omega
    · exact absurd h (by decide)
  · decide
  · decide

/-! ## Runs and locks cleared -/

section Clear

variable {α : Type} {g : Dev → α} (d : Dev) (l : Nat)

theorem Dev.clearRuns_view (hg : ∀ (e : Dev) m, g { e with laneRx := m } = g e) : g (d.clearRuns l) = g d :=
  List.foldlRecOn (d.rxLanes l) _ (motive := fun e => g e = g d) rfl fun e he _ _ => (hg e _).trans he

theorem Dev.clearLock_view (hg : ∀ (e : Dev) m fields, g { e with laneRx := m, fields := fields } = g e) : g (d.clearLock l) = g d :=
  List.foldlRecOn (d.rxLanes l) _ (motive := fun e => g e = g d) rfl fun e he _ _ => (hg e _ _).trans he

theorem Dev.clearRuns_fields : (d.clearRuns l).fields = d.fields := Dev.clearRuns_view d l (g := Dev.fields) fun _ _ => rfl

theorem Dev.rd_clearRuns (f : Field) : (d.clearRuns l).rd f = d.rd f := Dev.rd_congr (Dev.clearRuns_fields d l) f

theorem Dev.keeps_clearLock {n : Nat} (h : ∀ i ∈ d.rxLanes l, i < n) : d.Keeps (lockFields n (l / 4)) (d.clearLock l) :=
  Dev.keeps_foldl _ (fun e i hi => Dev.Keeps.trans (e := e.setRx _ _ _) (Dev.keeps_of_fields rfl)
    (Dev.keeps_wr (List.mem_map.mpr ⟨i, List.mem_range.mpr (h i hi), rfl⟩) 0)) d

/-- The runs and the locks of a link cleared, as every entry of a training state does. -/
def Dev.cleared : Dev := (d.clearRuns l).clearLock l

theorem Dev.cleared_view (hg : ∀ (e : Dev) m fields, g { e with laneRx := m, fields := fields } = g e) : g (d.cleared l) = g d :=
  (Dev.clearLock_view _ l hg).trans (Dev.clearRuns_view d l fun e m => hg e m e.fields)

variable {d} in
theorem Dev.keeps_cleared {n : Nat} (h : d.LanesBelow l n) : d.Keeps (lockFields n (l / 4)) (d.cleared l) :=
  Dev.Keeps.trans (Dev.keeps_of_fields (Dev.clearRuns_fields d l)) (Dev.keeps_clearLock _ l (h _ (Dev.rd_clearRuns d l _)))

/-- A field that is no LOCKED bit reads as before. -/
theorem Dev.rd_cleared {f : Field} (h : f.key % 32 ≠ 30) : (d.cleared l).rd f = d.rd f :=
  Dev.keeps_cleared l (Dev.lanesBelow_all d l) f (not_mem_lockFields h 64 _)

end Clear

theorem Dev.LanesBelow.congr {d e : Dev} {l n : Nat} (h : d.LanesBelow l n)
    (he : e.rd (F.PORT_CTL_MODE (l / 4)) = d.rd (F.PORT_CTL_MODE (l / 4))) : e.LanesBelow l n := fun e' he' => h e' (he'.trans he)

theorem Dev.setTr_fields (d : Dev) (l : Nat) (f : Training → Training) : (d.setTr l f).fields = d.fields := rfl

theorem Dev.tr_setTr (d : Dev) (l : Nat) (f : Training → Training) : (d.setTr l f).tr l = f (d.tr l) := SMap.get_modify_same ..

/-! ## The registers of a link -/

section Link

variable (l : Nat)

/-- STATE of a link. -/
def stateField : Field := F.PORT_LINK_STATE (l / 4) (l % 4)

/-- STEP of a link. -/
def stepField : Field := F.PORT_LINK_STEP (l / 4) (l % 4)

/-- The registers that training sets. -/
def trainFields : List Field := [stateField l, stepField l, F.PORT_LINK_WIDTH (l / 4) (l % 4), F.PORT_LINK_PART (l / 4) (l % 4),
  F.PORT_LINK_FAILED_STEP (l / 4) (l % 4)]

/-- The registers of a link's flits. -/
def flitFields : List Field := [F.FLIT_STATUS_TX_SEQ (l / 4) (l % 4), F.FLIT_STATUS_EXPECTED (l / 4) (l % 4),
  F.FLIT_STATUS_UNANSWERED (l / 4) (l % 4), F.FLIT_STATUS_NAK_PENDING (l / 4) (l % 4), F.FLIT_STATUS_REPLAYING (l / 4) (l % 4)]

/-- All the registers that a link's way into DETECT or DISABLED touches. -/
def linkFields : List Field := trainFields l ++ flitFields l ++ lockFields 64 (l / 4)

theorem trainKeys_nodup : ((trainFields l).map Field.key).Nodup := by
  simp [trainFields, stateField, stepField, Field.key, F.PORT_LINK_STATE, F.PORT_LINK_STEP, F.PORT_LINK_WIDTH, F.PORT_LINK_PART,
    F.PORT_LINK_FAILED_STEP]

theorem trainKeys_mod : ∀ f ∈ trainFields l, f.key % 32 ≠ 30 := by
  simp only [trainFields, stateField, stepField, List.forall_mem_cons, Field.key, F.PORT_LINK_STATE, F.PORT_LINK_STEP, F.PORT_LINK_WIDTH,
    F.PORT_LINK_PART, F.PORT_LINK_FAILED_STEP]
  refine ⟨?_, ?_, ?_, ?_, ?_, fun _ h => absurd h List.not_mem_nil⟩ <;> omega

/-- The registers of a port's links lie together: behind its own, before those of its credits. -/
theorem linkFields_space : ∀ f ∈ linkFields l, (F.PORT_LINK_STATE (l / 4) 0).key ≤ f.key ∧ f.key < (F.INJ_CTL_ENABLE (l / 4)).key := by
  intro f hf
  rcases List.mem_append.mp hf with hf | hf
  · have hk : l % 4 ≤ 3 := by omega
    simp only [trainFields, flitFields, stateField, stepField, List.cons_append, List.nil_append, List.mem_cons, List.not_mem_nil, or_false] at hf
    rcases hf with rfl | rfl | rfl | rfl | rfl | rfl | rfl | rfl | rfl | rfl <;>
      simp only [Field.key, F.PORT_LINK_STATE, F.PORT_LINK_STEP, F.PORT_LINK_WIDTH, F.PORT_LINK_PART, F.PORT_LINK_FAILED_STEP,
        F.FLIT_STATUS_TX_SEQ, F.FLIT_STATUS_EXPECTED, F.FLIT_STATUS_UNANSWERED, F.FLIT_STATUS_NAK_PENDING, F.FLIT_STATUS_REPLAYING,
        F.INJ_CTL_ENABLE] <;> omega
  · obtain ⟨i, hi, rfl⟩ := List.mem_map.mp hf
    have hlt := List.mem_range.mp hi
    simp only [Field.key, F.PORT_LINK_STATE, F.LANE_ERR_LOCKED, F.INJ_CTL_ENABLE]
    omega

variable {l}

theorem not_mem_linkFields {f : Field} (h : f.key < (F.PORT_LINK_STATE (l / 4) 0).key ∨ (F.INJ_CTL_ENABLE (l / 4)).key ≤ f.key) :
    f.key ∉ (linkFields l).map Field.key := fun hmem => by
  obtain ⟨g, hg, heq⟩ := List.mem_map.mp hmem
  have hspace := linkFields_space l g hg
  omega

/-- The STATE of another link is none of a link's registers. -/
theorem stateField_not_mem {m : Nat} (h : m ≠ l) : (stateField m).key ∉ (linkFields l).map Field.key := by
  have hk : l % 4 ≤ 3 := by omega
  have hm : m % 4 ≤ 3 := by omega
  intro hmem
  rw [linkFields, List.map_append, List.mem_append] at hmem
  rcases hmem with hmem | hmem
  · simp only [trainFields, flitFields, stateField, stepField, Field.key, F.PORT_LINK_STATE, F.PORT_LINK_STEP, F.PORT_LINK_WIDTH, F.PORT_LINK_PART,
      F.PORT_LINK_FAILED_STEP, F.FLIT_STATUS_TX_SEQ, F.FLIT_STATUS_EXPECTED, F.FLIT_STATUS_UNANSWERED, F.FLIT_STATUS_NAK_PENDING,
      F.FLIT_STATUS_REPLAYING, List.cons_append, List.nil_append, List.map_cons, List.map_nil, List.mem_cons, List.not_mem_nil, or_false] at hmem
    omega
  · exact not_mem_lockFields (trainKeys_mod m _ (by simp [trainFields])) 64 _ hmem

theorem trainFields_not_mem_locks {f : Field} (hf : f ∈ trainFields l) (n p : Nat) : f.key ∉ (lockFields n p).map Field.key :=
  not_mem_lockFields (trainKeys_mod l f hf) n p

end Link

/-- The state of a link as a field. -/
theorem Dev.lst_eq (d : Dev) (l : Nat) : d.lst l = d.rd (stateField l) := rfl

/-! ## ACQUIRE -/

section Acquire

variable {d : Dev} {l : Nat}

/-- The registers of ACQUIRE at a step. -/
def Dev.acquiring (d : Dev) (l step : Nat) : Dev := (d.setLst l 2).wr (stepField l) step

theorem Dev.acquiring_mode (d : Dev) (l step : Nat) :
    (d.acquiring l step).rd (F.PORT_CTL_MODE (l / 4)) = d.rd (F.PORT_CTL_MODE (l / 4)) := by
  have hspace : (F.PORT_CTL_MODE (l / 4)).key < (F.PORT_LINK_STATE (l / 4) 0).key := by
    simp only [Field.key, F.PORT_CTL_MODE, F.PORT_LINK_STATE]
    omega
  have hall := linkFields_space l
  refine (Dev.rd_wr_ne _ (Nat.ne_of_lt ?_) _).trans (Dev.rd_wr_ne _ (Nat.ne_of_lt ?_) _)
  · exact Nat.lt_of_lt_of_le hspace (hall (stepField l) (by simp [linkFields, trainFields])).1
  · exact Nat.lt_of_lt_of_le hspace (hall (stateField l) (by simp [linkFields, trainFields])).1

/-- A transmitter's starting preset on every lane of a link. -/
def Dev.presets (d : Dev) (l n pre post : Nat) : Dev := (List.range n).foldl (fun d j => d.setTx l j fun _ => { pre := pre, post := post }) d

theorem Dev.presets_view {α : Type} {g : Dev → α} (hg : ∀ (e : Dev) m, g { e with laneTx := m } = g e) (d : Dev) (l n pre post : Nat) :
    g (d.presets l n pre post) = g d :=
  List.foldlRecOn (List.range n) _ (motive := fun e => g e = g d) rfl fun e he _ _ => (hg e _).trans he

theorem Dev.presets_fields (d : Dev) (l n pre post : Nat) : (d.presets l n pre post).fields = d.fields :=
  Dev.presets_view (g := Dev.fields) (fun _ _ => rfl) d l n pre post

theorem Dev.acquire_eq (d : Dev) (l step : Nat) : ∃ n pre post, d.acquire l step =
    (((d.acquiring l step).presets l n pre post).cleared l).setTr l fun t => { t with modeBad := false } := ⟨_, _, _, rfl⟩

/-- ACQUIRE touches what its step does, and the locks of the link. -/
theorem Dev.keeps_acquire_of {n step : Nat} {fs : List Field} (h : d.LanesBelow l n) (hstep : d.Keeps fs (d.acquiring l step))
    (hlocks : lockFields n (l / 4) ⊆ fs) : d.Keeps fs (d.acquire l step) := by
  obtain ⟨m, pre, post, heq⟩ := Dev.acquire_eq d l step
  have hpresets := Dev.presets_fields (d.acquiring l step) l m pre post
  rw [heq]
  refine Dev.Keeps.trans (e := ((d.acquiring l step).presets l m pre post).cleared l) ?_ (Dev.keeps_of_fields (Dev.setTr_fields _ l _))
  refine Dev.Keeps.trans (e := d.acquiring l step) hstep (Dev.Keeps.trans (Dev.keeps_of_fields hpresets) ?_)
  exact (Dev.keeps_cleared l (h.congr ((Dev.rd_congr hpresets _).trans (Dev.acquiring_mode d l step)))).mono hlocks

theorem Dev.keeps_acquire {n : Nat} (h : d.LanesBelow l n) (step : Nat) :
    d.Keeps (stateField l :: stepField l :: lockFields n (l / 4)) (d.acquire l step) :=
  Dev.keeps_acquire_of h (Dev.Keeps.trans (e := d.setLst l 2) (Dev.keeps_wr (f := stateField l) (by simp) 2) (Dev.keeps_wr (by simp) step)) (by simp)

theorem Dev.rd_acquire (d : Dev) (l step : Nat) : (d.acquire l step).lst l = 2 ∧ (d.acquire l step).rd (stepField l) = step % 2 ^ 3 := by
  obtain ⟨m, pre, post, heq⟩ := Dev.acquire_eq d l step
  have hread : ∀ f ∈ trainFields l, (d.acquire l step).rd f = (d.acquiring l step).rd f := fun f hf => by
    rw [heq]
    exact (Dev.rd_congr (Dev.setTr_fields _ l _) f).trans ((Dev.rd_cleared _ l (trainKeys_mod l f hf)).trans
      (Dev.rd_congr (Dev.presets_fields _ l m pre post) f))
  have hne : (stateField l).key ≠ (stepField l).key := by
    simp [Field.key, stateField, stepField, F.PORT_LINK_STATE, F.PORT_LINK_STEP]
  exact ⟨(hread (stateField l) (by simp [trainFields])).trans ((Dev.rd_wr_ne _ hne step).trans (Dev.rd_wr_same d (stateField l) 2)),
    (hread (stepField l) (by simp [trainFields])).trans (Dev.rd_wr_same _ (stepField l) step)⟩

theorem Dev.tr_acquire (d : Dev) (l step : Nat) : (d.acquire l step).tr l = { d.tr l with modeBad := false } := by
  obtain ⟨m, pre, post, heq⟩ := Dev.acquire_eq d l step
  have hkept : (((d.acquiring l step).presets l m pre post).cleared l).training = d.training :=
    (Dev.cleared_view _ l (g := Dev.training) fun _ _ _ => rfl).trans (Dev.presets_view (g := Dev.training) (fun _ _ => rfl) _ l m pre post)
  rw [heq, Dev.tr_setTr, Dev.tr, hkept]
  rfl

end Acquire

/-! ## A link's state lost -/

section Lost

variable {s : State} {l : Nat}

/-- What a link's loss discards where no host operation waits (R340). -/
def Dev.discarded (d : Dev) (l : Nat) : Dev :=
  { d with
    links := SMap.put {} (SMap.mapV {} (fun _ x => { x with transit := x.transit.map fun f => (if f.1 = l then noLink l else f.1, f.2) })
      d.links) l { transit := (d.linkSt l).transit },
    out := d.out.filter (fun o => o.1 ≠ l ∨ o.2.op = 0x23),
    held := d.held.map (fun h => { h with req := h.req.orphan l }),
    walks := d.walks.map (fun kw => (kw.1, { kw.2 with reqs := kw.2.reqs.map (·.orphan l) })),
    forwards := d.forwards.map (fun f => { f with req := f.req.orphan l }),
    fences := d.fences.filter (fun f => f.link ≠ l),
    urgency := SMap.put 0 d.urgency l 0 }

/-- The registers of a link's flits cleared. -/
def Dev.flitsCleared (d : Dev) (l : Nat) : Dev := d.wrs [(F.FLIT_STATUS_TX_SEQ (l / 4) (l % 4), 0), (F.FLIT_STATUS_EXPECTED (l / 4) (l % 4), 0),
  (F.FLIT_STATUS_UNANSWERED (l / 4) (l % 4), 0), (F.FLIT_STATUS_NAK_PENDING (l / 4) (l % 4), 0), (F.FLIT_STATUS_REPLAYING (l / 4) (l % 4), 0)]

/-- A link's loss, the writes of it that wait failing. -/
def Dev.lostWith (d : Dev) (l : Nat) (writes : List HostOp) : Dev :=
  (writes.foldl (fun d o => if d.hostOps.contains o then d.writeFailed o else d) ((d.discarded l).flitsCleared l)).raise .linkDown (srcOf l)

theorem State.linkLost_eq (s : State) (l : Nat) :
    s.linkLost l = s.withDev fun d => d.lostWith l (d.hostOps.filter fun o => o.link = l && o.lines = 0) := rfl

/-- A link's loss where no host operation waits. -/
def Dev.lost (d : Dev) (l : Nat) : Dev := ((d.discarded l).flitsCleared l).raise .linkDown (srcOf l)

theorem State.linkLost_of_idle (h : s.dev.hostOps = []) : s.linkLost l = s.withDev fun d => d.lost l := by
  rw [State.linkLost_eq]
  refine State.withDev_congr ?_
  rw [h, List.filter_nil, Dev.lostWith, List.foldl_nil, Dev.lost]

theorem Dev.keeps_lost (d : Dev) (l : Nat) : d.Keeps (flitFields l) (d.lost l) :=
  Dev.Keeps.trans (e := (d.discarded l).flitsCleared l) (Dev.Keeps.trans (e := d.discarded l) (Dev.keeps_of_fields rfl)
    (Dev.keeps_wrs (List.Subset.refl _))) (Dev.keeps_of_fields rfl)

theorem Dev.lost_replay (d : Dev) (l : Nat) : ((d.lost l).linkSt l).replay = [] :=
  congrArg LinkSt.replay (SMap.get_put_same (α := LinkSt) {} _ l { transit := (d.linkSt l).transit })

theorem State.linkGone_of_alone (h : s.dev.inCollection = false) : s.linkGone l = s := by
  rw [State.linkGone, h]
  exact if_neg (by simp)

end Lost

end Sys2Proof.Machine

end

section
/-!
Links sent to DETECT and DISABLED, one or all of a port (Table 12.3), where no counter counts and no collection is to hear of it.
-/

namespace Sys2Proof.Machine

open Sys2Proof

/-- No event counter is enabled, no collection is joined, and these host operations wait. -/
def State.Alone (s : State) (ops : List HostOp) : Prop :=
  s.dev.inCollection = false ∧ s.dev.countersOff = true ∧ s.dev.hostOps = ops

/-- Only one link has moved: its registers, its training, its flits. -/
def Dev.LinkMoved (l : Nat) (d e : Dev) : Prop := d.Keeps (linkFields l) e ∧ e.perf = d.perf ∧ e.hostOps = d.hostOps

section Moved

variable {l : Nat} {d e f : Dev}

theorem Dev.LinkMoved.trans (h : d.LinkMoved l e) (h' : e.LinkMoved l f) : d.LinkMoved l f :=
  ⟨h.1.trans h'.1, h'.2.1.trans h.2.1, h'.2.2.trans h.2.2⟩

theorem Dev.LinkMoved.countersOff (h : d.LinkMoved l e) : e.countersOff = d.countersOff := by
  rw [Dev.countersOff, h.2.1, Dev.countersOff]

/-- A register behind a link's port, or before it, reads as before. -/
theorem Dev.LinkMoved.rd (h : d.LinkMoved l e) {g : Field} (hg : g.key < (F.PORT_LINK_STATE (l / 4) 0).key ∨ (F.INJ_CTL_ENABLE (l / 4)).key ≤ g.key) :
    e.rd g = d.rd g := h.1 g (not_mem_linkFields hg)

theorem collState_key (l : Nat) : (F.INJ_CTL_ENABLE (l / 4)).key ≤ F.COLL_STATUS_STATE.key ∨ 256 ≤ l := by
  simp only [Field.key, F.COLL_STATUS_STATE, F.INJ_CTL_ENABLE]
  omega

theorem Dev.LinkMoved.inCollection (h : d.LinkMoved l e) (hl : l < 256) : e.inCollection = d.inCollection := by
  have hread := h.rd (Or.inr ((collState_key l).resolve_right (by omega)))
  rw [Dev.inCollection, hread, Dev.inCollection]

theorem Dev.LinkMoved.alone {s : State} {ops : List HostOp} (hs : s.Alone ops) (hl : l < 256) {t : State} (h : s.dev.LinkMoved l t.dev) : t.Alone ops :=
  ⟨(h.inCollection hl).trans hs.1, h.countersOff.trans hs.2.1, h.2.2.trans hs.2.2⟩

theorem Dev.linkMoved_cleared (d : Dev) (l : Nat) : d.LinkMoved l (d.cleared l) :=
  ⟨(Dev.keeps_cleared l (Dev.lanesBelow_all d l)).mono (by simp [linkFields]), Dev.cleared_view d l (g := Dev.perf) fun _ _ _ => rfl,
    Dev.cleared_view d l (g := Dev.hostOps) fun _ _ _ => rfl⟩

theorem Dev.linkMoved_setTr (d : Dev) (l : Nat) (f : Training → Training) : d.LinkMoved l (d.setTr l f) :=
  ⟨Dev.keeps_of_fields (Dev.setTr_fields d l f), rfl, rfl⟩

theorem Dev.linkMoved_wrs (d : Dev) {l : Nat} {w : List (Field × Nat)} (h : w.map Prod.fst ⊆ linkFields l) : d.LinkMoved l (d.wrs w) :=
  ⟨Dev.keeps_wrs h, Dev.wrs_kept Dev.perf (fun _ _ => rfl) d w, Dev.wrs_kept Dev.hostOps (fun _ _ => rfl) d w⟩

theorem Dev.linkMoved_setLst (d : Dev) (l st : Nat) : d.LinkMoved l (d.setLst l st) :=
  ⟨Dev.keeps_wr (f := stateField l) (by simp [linkFields, trainFields]) st, rfl, rfl⟩

theorem Dev.linkMoved_raiseIf (d : Dev) (l : Nat) (b : Bool) (t : FaultType) (source : Nat) : d.LinkMoved l (d.raiseIf b t source) :=
  ⟨Dev.keeps_raiseIf d b t source _, by cases b <;> rfl, by cases b <;> rfl⟩

theorem Dev.linkMoved_lost (d : Dev) (l : Nat) : d.LinkMoved l (d.lost l) :=
  Dev.LinkMoved.trans (e := d.discarded l) ⟨Dev.keeps_of_fields rfl, rfl, rfl⟩
    (Dev.LinkMoved.trans (e := (d.discarded l).flitsCleared l) (Dev.linkMoved_wrs _ (by simp [linkFields, flitFields])) ⟨Dev.keeps_of_fields rfl, rfl, rfl⟩)

end Moved

/-! ## DETECT -/

section Detect

variable {s : State} {l : Nat} {ops : List HostOp}

/-- The registers of a link in DETECT. -/
def detectWrites (l : Nat) : List (Field × Nat) := [(stateField l, 1), (stepField l, 0), (F.PORT_LINK_WIDTH (l / 4) (l % 4), 3),
  (F.PORT_LINK_PART (l / 4) (l % 4), 0), (F.PORT_LINK_FAILED_STEP (l / 4) (l % 4), 7)]

/-- Training begun anew, with the MAX_STEP of CTL (Table 12.3). -/
def Dev.retrained (d : Dev) (l : Nat) : Dev :=
  (d.wrs (detectWrites l)).setTr l fun t => { maxStep := (d.wrs (detectWrites l)).rd (F.PORT_CTL_MAX_STEP (l / 4)), recoveries := t.recoveries }

/-- What DETECT makes of a link whose state is gone. -/
def Dev.detected (d : Dev) (l : Nat) (retrain : Bool) : Dev := ((d.retrained l).cleared l).raiseIf retrain .linkRetrain (srcOf l)

/-- A link's state lost where it was UP or in RECOVER. -/
def Dev.leftUp (d : Dev) (l : Nat) : Dev := if d.lst l = 7 ∨ d.lst l = 8 then d.lost l else d

theorem Dev.linkMoved_leftUp (d : Dev) (l : Nat) : d.LinkMoved l (d.leftUp l) := by
  rw [Dev.leftUp]
  split
  · exact Dev.linkMoved_lost d l
  · exact ⟨Dev.keeps_of_fields rfl, rfl, rfl⟩

theorem Dev.linkMoved_retrained (d : Dev) (l : Nat) : d.LinkMoved l (d.retrained l) :=
  Dev.LinkMoved.trans (Dev.linkMoved_wrs d (w := detectWrites l) (by simp [detectWrites, linkFields, trainFields])) (Dev.linkMoved_setTr _ l _)

theorem Dev.linkMoved_detected (d : Dev) (l : Nat) (retrain : Bool) : d.LinkMoved l (d.detected l retrain) :=
  (d.linkMoved_retrained l).trans ((Dev.linkMoved_cleared _ l).trans (Dev.linkMoved_raiseIf _ l retrain _ _))

theorem Dev.rd_detected (d : Dev) (l : Nat) (retrain : Bool) {f : Field} {v : Nat} (hf : (f, v) ∈ detectWrites l) :
    (d.detected l retrain).rd f = v % 2 ^ f.width := by
  have htrain : f ∈ trainFields l := List.mem_map_of_mem (f := Prod.fst) hf
  refine (Dev.keeps_raiseIf _ retrain _ _ [] f (by simp)).trans ((Dev.rd_cleared _ l (trainKeys_mod l f htrain)).trans ?_)
  exact (Dev.rd_congr (Dev.setTr_fields _ l _) f).trans (Dev.rd_wrs_of_mem d (l := detectWrites l) (trainKeys_nodup l) hf)

theorem Dev.detected_links (d : Dev) (l : Nat) (retrain : Bool) : (d.detected l retrain).links = d.links := by
  have hraise : ∀ e : Dev, (e.raiseIf retrain .linkRetrain (srcOf l)).links = e.links := fun e => by cases retrain <;> rfl
  exact (hraise _).trans ((Dev.cleared_view _ l (g := Dev.links) fun _ _ _ => rfl).trans (Dev.wrs_kept Dev.links (fun _ _ => rfl) d (detectWrites l)))

/-- A link sent to DETECT, where nothing counts and nobody is to hear of it. -/
def Dev.toDetect (d : Dev) (l : Nat) (retrain : Bool) : Dev := (d.leftUp l).detected l retrain

theorem Dev.linkMoved_toDetect (d : Dev) (l : Nat) (retrain : Bool) : d.LinkMoved l (d.toDetect l retrain) :=
  (d.linkMoved_leftUp l).trans (Dev.linkMoved_detected _ l retrain)

theorem State.leftUp_eq (h : s.dev.hostOps = [] ∨ ¬ (s.dev.lst l = 7 ∨ s.dev.lst l = 8)) :
    (if s.dev.lst l = 7 ∨ s.dev.lst l = 8 then s.linkLost l else s) = s.withDev fun d => d.leftUp l := by
  split
  · next hup =>
    rw [State.linkLost_of_idle (h.resolve_right (not_not_intro hup))]
    exact State.withDev_congr (if_pos hup).symm
  · next hup => exact (State.withDev_eq_self (if_neg hup)).symm

/-- DETECT of a link that is neither DISABLED nor HALTED. -/
theorem State.toDetect_eq (hs : s.Alone ops) (hl : l < 256) (hops : ops = [] ∨ ¬ (s.dev.lst l = 7 ∨ s.dev.lst l = 8))
    (hst : ¬ (s.dev.lst l = 0 ∨ s.dev.lst l = 9)) (retrain : Bool) : s.toDetect l retrain = s.withDev fun d => d.toDetect l retrain := by
  have hretrained : s.dev.LinkMoved l (((s.dev.leftUp l).retrained l).cleared l) :=
    (s.dev.linkMoved_leftUp l).trans ((Dev.linkMoved_retrained _ l).trans (Dev.linkMoved_cleared _ l))
  have hcount := Dev.count_of_countersOff (hretrained.countersOff.trans hs.2.1) 0x0006 (l / 4)
  have hbody : s.toDetect l retrain = ((s.withDev fun d => d.leftUp l).withDev fun d =>
      (((d.retrained l).cleared l).count 0x0006 (l / 4)).raiseIf retrain .linkRetrain (srcOf l)).linkGone l := by
    rw [← State.leftUp_eq (hs.2.2 ▸ hops)]
    exact if_neg hst
  rw [hbody, State.withDev_withDev, State.withDev_congr (g := fun d => d.toDetect l retrain) (by rw [hcount]; rfl)]
  exact State.linkGone_of_alone (((s.dev.linkMoved_toDetect l retrain).inCollection hl).trans hs.1)

theorem State.toDetect_of_down (h : s.dev.lst l = 0 ∨ s.dev.lst l = 9) (retrain : Bool) : s.toDetect l retrain = s := if_pos h

end Detect

/-! ## DISABLED -/

section Disable

variable {s : State} {l : Nat} {ops : List HostOp}

/-- The registers of a DISABLED link. -/
def disableWrites (l : Nat) : List (Field × Nat) := [(stateField l, 0), (stepField l, 0), (F.PORT_LINK_WIDTH (l / 4) (l % 4), 3),
  (F.PORT_LINK_PART (l / 4) (l % 4), 0)]

/-- What DISABLED makes of a link whose state is gone. -/
def Dev.linkDisabled (d : Dev) (l : Nat) : Dev := ((d.wrs (disableWrites l)).cleared l).setTr l fun _ => {}

/-- A link DISABLED, where nobody is to hear of it. -/
def Dev.toDisabled (d : Dev) (l : Nat) : Dev := (d.leftUp l).linkDisabled l

theorem Dev.linkMoved_toDisabled (d : Dev) (l : Nat) : d.LinkMoved l (d.toDisabled l) := by
  refine (d.linkMoved_leftUp l).trans ?_
  refine Dev.LinkMoved.trans (Dev.linkMoved_wrs _ (w := disableWrites l) (by simp [disableWrites, linkFields, trainFields])) ?_
  exact (Dev.linkMoved_cleared _ l).trans (Dev.linkMoved_setTr _ l _)

theorem Dev.lst_toDisabled (d : Dev) (l : Nat) : (d.toDisabled l).lst l = 0 := by
  have hnodup : ((disableWrites l).map Prod.fst |>.map Field.key).Nodup := (trainKeys_nodup l).sublist (by simp [disableWrites, trainFields])
  refine (Dev.rd_congr (Dev.setTr_fields _ l _) (stateField l)).trans ((Dev.rd_cleared _ l (trainKeys_mod l _ (by simp [trainFields]))).trans ?_)
  exact Dev.rd_wrs_of_mem (d.leftUp l) hnodup (v := 0) (by simp [disableWrites])

theorem State.toDisabled_eq (hs : s.Alone []) (hl : l < 256) : s.toDisabled l = s.withDev fun d => d.toDisabled l := by
  have hbody : s.toDisabled l = ((s.withDev fun d => d.leftUp l).withDev fun d => d.linkDisabled l).linkGone l := by
    rw [← State.leftUp_eq (Or.inl hs.2.2)]
    rfl
  rw [hbody, State.withDev_withDev]
  exact State.linkGone_of_alone (((s.dev.linkMoved_toDisabled l).inCollection hl).trans hs.1)

end Disable

/-! ## The links of a port, one after another -/

section Links

variable {move : State → Nat → State} {φ : Nat → Nat} {ops : List HostOp} {p : Nat}

/-- What a movement of one link leaves: its STATE, and only its own registers changed. -/
def State.MovedTo (s : State) (l st : Nat) (t : State) : Prop := t.mem = s.mem ∧ s.dev.LinkMoved l t.dev ∧ t.dev.lst l = st

theorem State.movedTo_withDev {s : State} {f : Dev → Dev} {l st : Nat} (hmoved : s.dev.LinkMoved l (f s.dev)) (hst : (f s.dev).lst l = st) :
    s.MovedTo l st (s.withDev f) := ⟨State.withDev_mem .., hmoved, hst⟩

theorem State.movedTo_self (s : State) (l : Nat) : s.MovedTo l (s.dev.lst l) s := ⟨rfl, ⟨Dev.keeps_of_fields rfl, rfl, rfl⟩, rfl⟩

/-- Links of a port moved in turn: each goes to its state, the others stay, and the registers before and behind the links' stand. -/
theorem State.foldl_links (hmove : ∀ (s : State) k, k < 4 → s.Alone ops → s.MovedTo (4 * p + k) (φ (s.dev.lst (4 * p + k))) (move s (4 * p + k)))
    (hp : p < 64) (ks : List Nat) (hnodup : ks.Nodup) (hlt : ∀ k ∈ ks, k < 4) (s : State) (hs : s.Alone ops) :
    (ks.foldl (fun s k => move s (4 * p + k)) s).mem = s.mem ∧
    (∀ f : Field, f.key < (F.PORT_LINK_STATE p 0).key ∨ (F.INJ_CTL_ENABLE p).key ≤ f.key →
      (ks.foldl (fun s k => move s (4 * p + k)) s).dev.rd f = s.dev.rd f) ∧
    ∀ k < 4, (ks.foldl (fun s k => move s (4 * p + k)) s).dev.lst (4 * p + k) =
      if k ∈ ks then φ (s.dev.lst (4 * p + k)) else s.dev.lst (4 * p + k) := by
  induction ks generalizing s with
  | nil => exact ⟨rfl, fun _ _ => rfl, fun _ _ => (if_neg List.not_mem_nil).symm⟩
  | cons j ks ih =>
    obtain ⟨hj, hks⟩ := List.nodup_cons.mp hnodup
    have hj4 : j < 4 := hlt j List.mem_cons_self
    obtain ⟨hmem, hmoved, hst⟩ := hmove s j hj4 hs
    obtain ⟨ihmem, ihrd, ihst⟩ := ih hks (fun k hk => hlt k (List.mem_cons_of_mem j hk)) (move s (4 * p + j)) (hmoved.alone hs (by omega))
    refine ⟨ihmem.trans hmem, fun f hf => (ihrd f hf).trans (hmoved.rd ?_), fun k hk => (ihst k hk).trans ?_⟩
    · rwa [show (4 * p + j) / 4 = p by omega]
    · by_cases hkj : k = j
      · subst hkj
        rw [if_neg hj, if_pos List.mem_cons_self, hst]
      · have hkept : (move s (4 * p + j)).dev.lst (4 * p + k) = s.dev.lst (4 * p + k) :=
          hmoved.1 (stateField (4 * p + k)) (stateField_not_mem (by omega))
        simp only [hkept, List.mem_cons, hkj, false_or]

end Links

end Sys2Proof.Machine

end

section
/-!
Ports and the injector switched (R12, R320, R328, R329, R357, Tables 12.3, 12.8).
-/

namespace Sys2Proof.Machine

open Sys2Proof

/-! ## Checks of a port and of its injector -/

section Verdict

variable (d : Dev) (p : Nat) (code : Nat) (v : Bool)

/-- A check of PORT[p].CTL recorded. -/
def Dev.portVerdict : Dev := d.verdict .port p code [F.PORT_REASON_CODE p] (F.PORT_CTL_ENABLE p) v

theorem Dev.keeps_portVerdict : d.Keeps (F.PORT_CTL_ENABLE p :: F.PORT_REASON_CODE p :: reasonFields) (d.portVerdict p code v) :=
  Dev.keeps_verdict d .port p code [F.PORT_REASON_CODE p] (F.PORT_CTL_ENABLE p) v

theorem port_keys : F.DEV_REASON_CODE.key ≠ (F.PORT_CTL_ENABLE p).key ∧ F.DEV_REASON_CODE.key ≠ (F.PORT_REASON_CODE p).key ∧
    (F.PORT_REASON_CODE p).key ≠ (F.PORT_CTL_ENABLE p).key := by
  simp only [Field.key, F.DEV_REASON_CODE, F.PORT_CTL_ENABLE, F.PORT_REASON_CODE]
  omega

/-- What checks a port's ENABLE stands before the registers of its links. -/
theorem portVerdict_space : ∀ f ∈ [F.PORT_CTL_ENABLE p, F.PORT_REASON_CODE p, F.DEV_REASON_CODE], f.key < (F.PORT_LINK_STATE p 0).key := by
  simp only [List.forall_mem_cons, Field.key, F.DEV_REASON_CODE, F.PORT_CTL_ENABLE, F.PORT_REASON_CODE, F.PORT_LINK_STATE]
  refine ⟨?_, ?_, ?_, fun _ h => absurd h List.not_mem_nil⟩ <;> omega

variable {code} in
theorem Dev.rd_portVerdict (h : code < 256) : (d.portVerdict p code v).rd (F.PORT_CTL_ENABLE p) = v.toNat ∧
    (d.portVerdict p code v).rd F.DEV_REASON_CODE = code ∧ (d.portVerdict p code v).rd (F.PORT_REASON_CODE p) = code :=
  Dev.rd_verdict d .port p v h rfl rfl (port_keys p)

/-- A check of a port changes registers alone. -/
theorem Dev.portVerdict_kept {β : Type} (g : Dev → β) (hg : ∀ (e : Dev) m, g { e with fields := m } = g e) : g (d.portVerdict p code v) = g d :=
  (hg _ _).trans ((hg _ _).trans (Dev.wrs_kept g hg d [(F.DEV_REASON_CODE, code), (F.DEV_REASON_TRIGGER, Trigger.port.code), (F.DEV_REASON_DETAIL, p)]))

variable {p} in
theorem State.alone_portVerdict {s : State} {ops : List HostOp} (h : s.Alone ops) (hp : p < 64) :
    (s.withDev fun d => d.portVerdict p code v).Alone ops := by
  have hstate : (s.dev.portVerdict p code v).rd F.COLL_STATUS_STATE = s.dev.rd F.COLL_STATUS_STATE := by
    refine Dev.keeps_portVerdict s.dev p code v _ ?_
    simp only [reasonFields, List.map_cons, List.map_nil, List.mem_cons, List.not_mem_nil, or_false, not_or, Field.key, F.COLL_STATUS_STATE, F.PORT_CTL_ENABLE,
      F.PORT_REASON_CODE, F.DEV_REASON_CODE, F.DEV_REASON_TRIGGER, F.DEV_REASON_DETAIL]
    omega
  refine ⟨(?_ : (s.dev.portVerdict p code v).inCollection = _), ?_, ?_⟩
  · rw [Dev.inCollection, hstate]
    exact h.1
  · exact (s.dev.portVerdict_kept p code v Dev.countersOff fun _ _ => rfl).trans h.2.1
  · exact (s.dev.portVerdict_kept p code v Dev.hostOps fun _ _ => rfl).trans h.2.2

/-- The STATE of a link stands. -/
theorem Dev.lst_portVerdict (l : Nat) : (d.portVerdict p code v).lst l = d.lst l := by
  refine Dev.keeps_portVerdict d p code v (stateField l) ?_
  simp only [reasonFields, List.map_cons, List.map_nil, List.mem_cons, List.not_mem_nil, or_false, not_or, Field.key, stateField, F.PORT_LINK_STATE, F.PORT_CTL_ENABLE,
      F.PORT_REASON_CODE, F.DEV_REASON_CODE, F.DEV_REASON_TRIGGER, F.DEV_REASON_DETAIL]
  omega

theorem Dev.linkInMode_portVerdict (k : Nat) : (d.portVerdict p code v).linkInMode p k = d.linkInMode p k := by
  have hmode : (d.portVerdict p code v).rd (F.PORT_CTL_MODE p) = d.rd (F.PORT_CTL_MODE p) := by
    refine Dev.keeps_portVerdict d p code v _ ?_
    simp only [reasonFields, List.map_cons, List.map_nil, List.mem_cons, List.not_mem_nil, or_false, not_or, Field.key, F.PORT_CTL_MODE, F.PORT_CTL_ENABLE,
      F.PORT_REASON_CODE, F.DEV_REASON_CODE, F.DEV_REASON_TRIGGER, F.DEV_REASON_DETAIL]
    omega
  rw [Dev.linkInMode, hmode, Dev.linkInMode]

/-- A check of INJ_CTL recorded. -/
def Dev.injVerdict : Dev := d.verdict .inject p code [] (F.INJ_CTL_ENABLE p) v

theorem Dev.keeps_injVerdict : d.Keeps (F.INJ_CTL_ENABLE p :: reasonFields) (d.injVerdict p code v) :=
  Dev.keeps_verdict d .inject p code [] (F.INJ_CTL_ENABLE p) v

variable {code} in
theorem Dev.rd_injVerdict (h : code < 256) : (d.injVerdict p code v).rd (F.INJ_CTL_ENABLE p) = v.toNat ∧
    (d.injVerdict p code v).rd F.DEV_REASON_CODE = code := by
  have hne : F.DEV_REASON_CODE.key ≠ (F.INJ_CTL_ENABLE p).key := by
    simp only [Field.key, F.DEV_REASON_CODE, F.INJ_CTL_ENABLE]
    omega
  refine ⟨(Dev.rd_verdict_bit ..).trans (by cases v <;> rfl), ?_⟩
  exact (Dev.rd_verdict_code _ _ _ _ _ _ _ hne (by simp)).trans (Nat.mod_eq_of_lt h)

/-- The injector started, its LFSR loaded from SEED and never with 0. -/
def Dev.injStarted : Dev :=
  ({ d.injVerdict p 0 true with injLfsr := SMap.insert p (atLeastOne ((d.injVerdict p 0 true).rd (F.INJ_SEED_SEED p))) (d.injVerdict p 0 true).injLfsr } :
    Dev).wr (F.INJ_STATUS_RUNNING p) 1

theorem Dev.keeps_injStarted : d.Keeps (F.INJ_CTL_ENABLE p :: F.INJ_STATUS_RUNNING p :: reasonFields) (d.injStarted p) :=
  Dev.Keeps.trans (e := d.injVerdict p 0 true) ((Dev.keeps_injVerdict d p 0 true).mono (by simp))
    (Dev.Keeps.trans (Dev.keeps_of_fields rfl) (Dev.keeps_wr (by simp) 1))

theorem Dev.injStarted_lfsr : slotAt (d.injStarted p).injLfsr p = some (atLeastOne (d.rd (F.INJ_SEED_SEED p))) := by
  have hseed : (d.injVerdict p 0 true).rd (F.INJ_SEED_SEED p) = d.rd (F.INJ_SEED_SEED p) := by
    refine Dev.keeps_injVerdict d p 0 true _ ?_
    simp only [reasonFields, List.map_cons, List.map_nil, List.mem_cons, List.not_mem_nil, or_false, not_or, Field.key, F.INJ_SEED_SEED, F.INJ_CTL_ENABLE,
      F.DEV_REASON_CODE, F.DEV_REASON_TRIGGER, F.DEV_REASON_DETAIL]
    omega
  rw [← hseed]
  exact congrArg (Option.map Prod.snd) (find?_insert_same ..)

/-- A fresh NONCE changes its register alone (R357). -/
theorem Dev.keeps_injectNonce : d.Keeps [F.INJ_UNLOCK_NONCE p] (d.injectNonce p) :=
  Dev.Keeps.trans (e := d.fresh.2) (Dev.keeps_of_fields rfl) (Dev.keeps_wr List.mem_cons_self _)

end Verdict

/-! ## Commands -/

section Commands

variable {s : State} {p : Fin 64}

theorem exec_portEnable_of_on (h : s.dev.rd (F.PORT_CTL_ENABLE p) ≠ 0) : exec (.portEnable p) s = .next s :=
  congrArg Host.Outcome.next (if_pos (by simp [Dev.flag_eq, h]))

theorem exec_portDisable_of_off (h : s.dev.rd (F.PORT_CTL_ENABLE p) = 0) : exec (.portDisable p) s = .next s :=
  congrArg Host.Outcome.next (if_pos (by simp [Dev.flag_eq, h]))

/-- LOOPBACK written while the port is not enabled: the flag, and the PRBS checkers begun anew (R328). -/
def Dev.loopedBack (d : Dev) (p : Nat) (on : Bool) : Dev :=
  (List.range 18).foldl (fun d i => d.setRx p i fun r => { r with prbs := none, prbsSeen := 0, prbsErr := 0 }) (d.put (F.PORT_CTL_LOOPBACK p) on)

theorem Dev.loopedBack_fields (d : Dev) (p : Nat) (on : Bool) : (d.loopedBack p on).fields = (d.put (F.PORT_CTL_LOOPBACK p) on).fields :=
  List.foldlRecOn (List.range 18) _ (motive := fun e : Dev => e.fields = (d.put (F.PORT_CTL_LOOPBACK p) on).fields) rfl
    fun _ he _ _ => he

theorem exec_loopback_of_on (h : s.dev.rd (F.PORT_CTL_ENABLE p) ≠ 0) (on : Bool) : exec (.loopback p on) s = .next s := by
  refine Eq.trans (b := execLoopback p on s) rfl ?_
  rw [execLoopback]
  exact State.next_of_same (if_pos (by simp [Dev.flag_eq, h]))

theorem exec_loopback_of_off (h : s.dev.rd (F.PORT_CTL_ENABLE p) = 0) (on : Bool) :
    exec (.loopback p on) s = .next (s.withDev fun d => d.loopedBack p on) := by
  refine Eq.trans (b := execLoopback p on s) rfl ?_
  rw [execLoopback]
  exact State.next_congr (if_neg (by simp [Dev.flag_eq, h]))

theorem exec_portEnable_of_fail (h : s.dev.rd (F.PORT_CTL_ENABLE p) = 0) {code : Nat}
    (hcode : firstCode (s.dev.commonChecks .port ++ s.portChecks p) = code) (hne : code ≠ 0) :
    exec (.portEnable p) s = .next (s.withDev fun d => d.portVerdict p code false) := by
  refine Eq.trans (b := .next (s.portEnable p)) rfl (congrArg Host.Outcome.next ?_)
  rw [State.portEnable, if_neg (by simp [Dev.flag_eq, h]), Dev.checked_eq, hcode, decide_eq_false hne]
  rfl

theorem exec_portEnable_of_pass (h : s.dev.rd (F.PORT_CTL_ENABLE p) = 0)
    (hcode : firstCode (s.dev.commonChecks .port ++ s.portChecks p) = 0) :
    exec (.portEnable p) s = .next (((List.range 4).filter fun k => s.dev.linkInMode p k).foldl (fun s k => s.startLink (4 * p + k))
      (s.withDev fun d => d.portVerdict p 0 true)) := by
  have hmode : (s.dev.portVerdict p 0 true).linkInMode p = s.dev.linkInMode p := funext (Dev.linkInMode_portVerdict s.dev p 0 true)
  refine Eq.trans (b := .next (s.portEnable p)) rfl (congrArg Host.Outcome.next ?_)
  rw [State.portEnable, if_neg (by simp [Dev.flag_eq, h]), Dev.checked_eq, hcode, ← hmode]
  rfl

theorem exec_portDisable_of_on (h : s.dev.rd (F.PORT_CTL_ENABLE p) ≠ 0) : exec (.portDisable p) s =
    .next ((List.range 4).foldl (fun s k => s.toDisabled (4 * p + k)) (s.withDev fun d => d.portVerdict p 0 false)) := by
  refine Eq.trans (b := .next (s.portDisable p)) rfl (congrArg Host.Outcome.next ?_)
  rw [State.portDisable, if_neg (by simp [Dev.flag_eq, h]), Dev.checkedOff_eq]
  rfl

theorem exec_injEnable_of_on (h : s.dev.rd (F.INJ_CTL_ENABLE p) ≠ 0) : exec (.injEnable p) s = .next s :=
  congrArg Host.Outcome.next (if_pos (by simp [Dev.flag_eq, h]))

theorem exec_injEnable_of_fail (h : s.dev.rd (F.INJ_CTL_ENABLE p) = 0) {code : Nat}
    (hcode : firstCode (s.dev.commonChecks .inject ++ s.injectChecks p) = code) (hne : code ≠ 0) :
    exec (.injEnable p) s = .next (s.withDev fun d => d.injVerdict p code false) := by
  refine Eq.trans (b := .next (s.injectEnable p)) rfl (congrArg Host.Outcome.next ?_)
  rw [State.injectEnable, if_neg (by simp [Dev.flag_eq, h]), Dev.checked_eq, hcode, decide_eq_false hne]
  rfl

theorem exec_injEnable_of_pass (h : s.dev.rd (F.INJ_CTL_ENABLE p) = 0)
    (hcode : firstCode (s.dev.commonChecks .inject ++ s.injectChecks p) = 0) :
    exec (.injEnable p) s = .next (s.withDev fun d => d.injStarted p) := by
  refine Eq.trans (b := .next (s.injectEnable p)) rfl (congrArg Host.Outcome.next ?_)
  rw [State.injectEnable, if_neg (by simp [Dev.flag_eq, h]), Dev.checked_eq, hcode]
  rfl

end Commands

/-! ## The links of a port -/

section Links

variable {p k : Nat} {ops : List HostOp} {s : State}

/-- A link sent to DETECT is there, unless it is DISABLED or HALTED. -/
theorem State.movedTo_toDetect (hp : p < 64) (hk : k < 4) (hs : s.Alone []) (retrain : Bool) : s.MovedTo (4 * p + k)
    (if s.dev.lst (4 * p + k) = 0 ∨ s.dev.lst (4 * p + k) = 9 then s.dev.lst (4 * p + k) else 1) (s.toDetect (4 * p + k) retrain) := by
  split
  · next h =>
    rw [State.toDetect_of_down h]
    exact State.movedTo_self ..
  · next h =>
    rw [State.toDetect_eq hs (by omega) (Or.inl rfl) h]
    exact State.movedTo_withDev (Dev.linkMoved_toDetect ..) (Dev.rd_detected _ _ _ List.mem_cons_self)

theorem State.movedTo_toDisabled (hp : p < 64) (hk : k < 4) (hs : s.Alone []) : s.MovedTo (4 * p + k) 0 (s.toDisabled (4 * p + k)) := by
  rw [State.toDisabled_eq hs (by omega)]
  exact State.movedTo_withDev (Dev.linkMoved_toDisabled ..) (Dev.lst_toDisabled ..)

/-- A link begun goes through DETECT. -/
theorem State.movedTo_startLink (hp : p < 64) (hk : k < 4) (hs : s.Alone ops) : s.MovedTo (4 * p + k) 1 (s.startLink (4 * p + k)) := by
  have hmoved := Dev.linkMoved_setLst s.dev (4 * p + k) 1
  have hst : (s.withDev fun d => d.setLst (4 * p + k) 1).dev.lst (4 * p + k) = 1 := Dev.rd_wr_same s.dev (stateField (4 * p + k)) 1
  have hstart : s.startLink (4 * p + k) = s.withDev fun d => (d.setLst (4 * p + k) 1).toDetect (4 * p + k) false :=
    State.toDetect_eq (s := s.withDev fun d => d.setLst (4 * p + k) 1) (hmoved.alone hs (by omega)) (by omega) (Or.inr (by rw [hst]; decide))
      (by rw [hst]; decide) false
  rw [hstart]
  exact State.movedTo_withDev (hmoved.trans (Dev.linkMoved_toDetect ..)) (Dev.rd_detected _ _ _ List.mem_cons_self)

end Links

/-! ## The obligation, part by part -/

section Parts

variable {s : State} (p : Fin 64)

/-- The links of an enabled port's MODE are in DETECT, and the outcome of the check stands. -/
theorem portEnable_pass (hoff : s.dev.rd (F.PORT_CTL_ENABLE p) = 0) (hcode : firstCode (s.dev.commonChecks .port ++ s.portChecks p) = 0)
    (hcoll : s.dev.inCollection = false) (hcount : s.dev.countersOff = true) :
    ∃ t, exec (.portEnable p) s = .next t ∧ t.dev.rd (F.PORT_CTL_ENABLE p) = 1 ∧
      t.dev.rd F.DEV_REASON_CODE = 0 ∧ t.dev.rd (F.PORT_REASON_CODE p) = 0 ∧ t.mem = s.mem ∧
      ∀ k : Fin 4, s.dev.linkInMode p k = true → t.dev.lst (4 * p.val + k) = 1 := by
  have hlinks := State.foldl_links (move := State.startLink) (φ := fun _ => 1) (p := p.val) (fun s k hk hs => State.movedTo_startLink p.isLt hk hs) p.isLt
    ((List.range 4).filter fun k => s.dev.linkInMode p k) (List.nodup_range.filter _) (fun k hk => List.mem_range.mp (List.mem_filter.mp hk).1) _
    (State.alone_portVerdict 0 true ⟨hcoll, hcount, rfl⟩ p.isLt)
  obtain ⟨hmem, hrd, hst⟩ := hlinks
  have hspace := portVerdict_space p.val
  obtain ⟨hbit, hreason, hown⟩ := Dev.rd_portVerdict s.dev p.val true (code := 0) (by decide)
  refine ⟨_, exec_portEnable_of_pass hoff hcode, (hrd _ (Or.inl (hspace _ (by simp)))).trans hbit, (hrd _ (Or.inl (hspace _ (by simp)))).trans hreason,
    (hrd _ (Or.inl (hspace _ (by simp)))).trans hown, hmem.trans (State.withDev_mem ..), fun k hk => (hst k k.isLt).trans (if_pos ?_)⟩
  exact List.mem_filter.mpr ⟨List.mem_range.mpr k.isLt, hk⟩

theorem portDisable_on (hon : s.dev.rd (F.PORT_CTL_ENABLE p) ≠ 0) (hs : s.Alone []) : ∃ t, exec (.portDisable p) s = .next t ∧
    t.dev.rd (F.PORT_CTL_ENABLE p) = 0 ∧ t.mem = s.mem ∧ ∀ k : Fin 4, t.dev.lst (4 * p.val + k) = 0 := by
  obtain ⟨hmem, hrd, hst⟩ := State.foldl_links (move := State.toDisabled) (φ := fun _ => 0) (p := p.val)
    (fun s k hk hs => State.movedTo_toDisabled p.isLt hk hs) p.isLt
    (List.range 4) List.nodup_range (fun k hk => List.mem_range.mp hk) _ (State.alone_portVerdict 0 false hs p.isLt)
  obtain ⟨hbit, -, -⟩ := Dev.rd_portVerdict s.dev p.val false (code := 0) (by decide)
  exact ⟨_, exec_portDisable_of_on hon, (hrd _ (Or.inl (portVerdict_space p.val _ (by simp)))).trans hbit, hmem.trans (State.withDev_mem ..),
    fun k => (hst k k.isLt).trans (if_pos (List.mem_range.mpr k.isLt))⟩

theorem portRetrain_links (hs : s.Alone []) : ∃ t, exec (.portRetrain p) s = .next t ∧ t.mem = s.mem ∧ ∀ k : Fin 4, t.dev.lst (4 * p.val + k) =
    (if s.dev.lst (4 * p.val + k) = 0 ∨ s.dev.lst (4 * p.val + k) = 9 then s.dev.lst (4 * p.val + k) else 1) := by
  obtain ⟨hmem, -, hst⟩ := State.foldl_links (move := fun s l => s.toDetect l false) (φ := fun st => if st = 0 ∨ st = 9 then st else 1) (p := p.val)
    (fun s k hk hs => State.movedTo_toDetect p.isLt hk hs false) p.isLt
    (List.range 4) List.nodup_range (fun k hk => List.mem_range.mp hk) s hs
  exact ⟨_, rfl, hmem, fun k => (hst k k.isLt).trans (if_pos (List.mem_range.mpr k.isLt))⟩

theorem loopback_off (hoff : s.dev.rd (F.PORT_CTL_ENABLE p) = 0) (on : Bool) : ∃ t, exec (.loopback p on) s = .next t ∧
    s.frame t [F.PORT_CTL_LOOPBACK p] ∧ t.dev.rd (F.PORT_CTL_LOOPBACK p) = on.toNat := by
  refine ⟨_, exec_loopback_of_off hoff on, State.frame_of_keeps ?_, ?_⟩
  · exact Dev.Keeps.trans (Dev.keeps_wr (by simp) on.toNat) (Dev.keeps_of_fields (Dev.loopedBack_fields s.dev p on))
  · exact (Dev.rd_congr (Dev.loopedBack_fields s.dev p on) _).trans ((Dev.rd_wr_same _ _ _).trans (by cases on <;> rfl))

end Parts

/-- Settles O38. -/
theorem portsAreSwitched : Obligations.PortsAreSwitched := by
  unfold Obligations.PortsAreSwitched
  intro s p reasons code inj
  refine ⟨fun h => ⟨exec_portEnable_of_on h, exec_loopback_of_on h⟩, fun h => ⟨exec_portDisable_of_off h, fun hne hlt => ?_, portEnable_pass p h,
    loopback_off p h⟩, fun hcoll hops hcount => ⟨fun h => portDisable_on p h ⟨hcoll, hcount, hops⟩, portRetrain_links p ⟨hcoll, hcount, hops⟩⟩,
    exec_injEnable_of_on, fun h => ⟨fun hne hlt => ?_, fun hpass => ?_⟩, ⟨s.withDev fun d => d.injectNonce p, rfl, ?_, ?_, rfl⟩, fun key => ⟨fun h => ?_, fun h =>
      ⟨s.withDev fun d => d.wr (F.INJ_STATUS_UNLOCKED p) 1, State.next_congr (if_pos h), ?_, ?_⟩⟩⟩
  · obtain ⟨hbit, hreason, hown⟩ := Dev.rd_portVerdict s.dev p.val false hlt
    exact ⟨_, exec_portEnable_of_fail h rfl hne, State.frame_of_keeps (s.dev.keeps_portVerdict p _ false), hbit, hreason, hown,
      s.dev.portVerdict_kept p code false Dev.links fun _ _ => rfl⟩
  · obtain ⟨hbit, hreason⟩ := Dev.rd_injVerdict s.dev p.val false hlt
    exact ⟨_, exec_injEnable_of_fail h rfl hne, State.frame_of_keeps (s.dev.keeps_injVerdict p _ false), hbit, hreason⟩
  · have hne : (F.INJ_CTL_ENABLE p).key ≠ (F.INJ_STATUS_RUNNING p).key := by
      simp [Field.key, F.INJ_CTL_ENABLE, F.INJ_STATUS_RUNNING]
      omega
    exact ⟨_, exec_injEnable_of_pass h hpass, State.frame_of_keeps (s.dev.keeps_injStarted p),
      (Dev.rd_wr_ne _ hne 1).trans (Dev.rd_injVerdict s.dev p.val true (code := 0) (by decide)).1, Dev.rd_wr_same _ _ 1, Dev.injStarted_lfsr ..⟩
  · exact State.frame_of_keeps (f := fun d => d.injectNonce p) (s.dev.keeps_injectNonce p)
  · exact (Dev.rd_wr_same _ (F.INJ_UNLOCK_NONCE p) _).trans (Nat.mod_mod_of_dvd _ (Nat.dvd_refl _))
  · exact State.next_of_same (if_neg h)
  · exact State.frame_of_keeps (Dev.keeps_wr (by simp) 1)
  · exact Dev.rd_wr_same _ _ 1

end Sys2Proof.Machine

end

section
/-!
Training and recovery of a link, event by event (R320, R321, R322, R325, R326, R355, Table 12.3).
-/

namespace Sys2Proof.Machine

open Sys2Proof

/-- What is stored at a key reads the same under any default. -/
theorem SMap.get_of_ne_default {α : Type} {d v : α} {k : Nat} : ∀ {m : SMap α}, SMap.get d m k = v → v ≠ d → ∀ e, SMap.get e m k = v
  | [], h, hne, _ => absurd h.symm hne
  | (j, w) :: m, h, hne, e => by
    rw [SMap.get] at h ⊢
    split at h
    · next hj => rw [if_pos hj, h]
    · next hj => rw [if_neg hj, SMap.get_of_ne_default h hne e]

/-- A field written with what it reads, where that is not its reset value, stands. -/
theorem Dev.keeps_wr_self {d : Dev} {f : Field} {v : Nat} (hread : d.rd f = v) (hreset : v ≠ f.reset) (hlt : v < 2 ^ f.width) :
    d.Keeps [] (d.wr f v) := by
  intro g _
  by_cases hkey : g.key = f.key
  · have hfound : SMap.get g.reset d.fields f.key = v := SMap.get_of_ne_default hread hreset _
    have hput : (d.wr f v).rd g = v := by
      rw [Dev.rd, Dev.wr, Nat.mod_eq_of_lt hlt, SMap.put, if_neg hreset, hkey]
      exact SMap.get_insert_same ..
    rw [hput, Dev.rd, hkey, hfound]
  · exact Dev.rd_wr_ne d hkey v

theorem Dev.linkSt_congr {d e : Dev} (h : e.links = d.links) (l : Nat) : e.linkSt l = d.linkSt l := by rw [Dev.linkSt, h, Dev.linkSt]

theorem Dev.tr_wr (d : Dev) (f : Field) (v l : Nat) : (d.wr f v).tr l = d.tr l := rfl

theorem Dev.tr_raise (d : Dev) (t : FaultType) (source : Nat) (detail : List (Nat × Nat)) (l : Nat) : (d.raise t source detail).tr l = d.tr l := rfl

section Events

variable {s : State} {l : Fin 256}

/-! ## ACQUIRE begun by an event -/

theorem exec_signalDetect_of_all (hst : s.dev.lst l = 1) {lanes : BitVec 16}
    (hall : ∀ j : Fin 16, j.val < s.dev.fullWidth l → lanes.getLsbD j = true) :
    exec (.signalDetect l lanes) s = .next (s.withDev fun d => d.acquire l 0) := by
  have hnone : (List.range (s.dev.fullWidth l)).filter (fun j => !lanes.getLsbD j) = [] := by
    refine List.filter_eq_nil_iff.mpr fun j hj => ?_
    have hlt : j < s.dev.fullWidth l := List.mem_range.mp hj
    have hwidth : s.dev.fullWidth l ≤ 16 := modeWidth_le _
    simp [hall ⟨j, by omega⟩ hlt]
  refine Eq.trans (b := execSignalDetect l lanes s) rfl ?_
  rw [execSignalDetect]
  refine State.next_congr ?_
  dsimp only
  rw [hnone]
  exact if_neg (by simp [hst])

theorem exec_signalDetect_of_other (hst : s.dev.lst l ≠ 1) (lanes : BitVec 16) : exec (.signalDetect l lanes) s = .next s := by
  refine Eq.trans (b := execSignalDetect l lanes s) rfl ?_
  rw [execSignalDetect]
  exact State.next_of_same (if_pos (Or.inl hst))

/-- A step acquired after the training of the link was touched. -/
def Dev.reacquire (d : Dev) (l step : Nat) (f : Training → Training) : Dev := (d.setTr l f).acquire l step

theorem Dev.keeps_reacquire {d : Dev} {l n : Nat} (h : d.LanesBelow l n) (step : Nat) (f : Training → Training) :
    d.Keeps (stateField l :: stepField l :: lockFields n (l / 4)) (d.reacquire l step f) :=
  Dev.Keeps.trans (e := d.setTr l f) (Dev.keeps_of_fields (Dev.setTr_fields d l f))
    (Dev.keeps_acquire (h.congr (Dev.rd_congr (Dev.setTr_fields d l f) _)) step)

theorem Dev.tr_reacquire (d : Dev) (l step : Nat) (f : Training → Training) :
    (d.reacquire l step f).tr l = { f (d.tr l) with modeBad := false } := by
  rw [Dev.reacquire, Dev.tr_acquire, Dev.tr_setTr]

theorem exec_stepChangeIdle (hgo : s.dev.lst l = 5 ∧ s.dev.everyLane l (fun r => decide (8 ≤ r.run)) = true) : exec (.stepChangeIdle l) s =
    .next (s.withDev fun d => d.reacquire l (d.rd (stepField l) + 1) fun t => { t with tries := 0 }) := by
  refine Eq.trans (b := execStepChangeIdle l s) rfl ?_
  rw [execStepChangeIdle]
  exact State.next_congr (if_pos hgo)

theorem exec_stepChangeIdle_of_not (hgo : ¬ (s.dev.lst l = 5 ∧ s.dev.everyLane l (fun r => decide (8 ≤ r.run)) = true)) :
    exec (.stepChangeIdle l) s = .next s := by
  refine Eq.trans (b := execStepChangeIdle l s) rfl ?_
  rw [execStepChangeIdle]
  exact State.next_of_same (if_neg hgo)

/-! ## A phase that has not ended -/

theorem exec_trainingPhaseTimeout (h : [2, 3, 4, 5].contains (s.dev.lst l) = true) :
    exec (.trainingPhaseTimeout l) s = .next (s.phaseFailed l) := congrArg Host.Outcome.next (if_pos h)

theorem State.phaseFailed_first {l : Nat} (hn : s.dev.rd (stepField l) ≠ 0) (htries : (s.dev.tr l).tries = 0) :
    s.phaseFailed l = s.withDev fun d => d.reacquire l (s.dev.rd (stepField l)) fun t => { t with tries := 1 } :=
  (if_neg hn).trans (if_pos htries)

/-- A failed step noted: the step below is the link's limit. -/
def Dev.stepNoted (d : Dev) (l n : Nat) : Dev :=
  ((d.setTr l fun t => { t with tries := 0, limit := n - 1 }).wr (F.PORT_LINK_FAILED_STEP (l / 4) (l % 4)) n).raise .linkStepLimited (srcOf l)
    [(n, 4)]

theorem Dev.keeps_stepNoted (d : Dev) (l n : Nat) : d.Keeps [F.PORT_LINK_FAILED_STEP (l / 4) (l % 4)] (d.stepNoted l n) :=
  (Dev.keeps_of_fields (Dev.setTr_fields d l fun t => { t with tries := 0, limit := n - 1 })).trans
    ((Dev.keeps_wr (by simp) n).trans (Dev.keeps_raise _ .linkStepLimited (srcOf l) [(n, 4)] _))

/-- The step below a failed one acquired. -/
def Dev.stepDown (d : Dev) (l n : Nat) : Dev := (d.stepNoted l n).acquire l (n - 1)

theorem State.phaseFailed_again {l : Nat} (hn : s.dev.rd (stepField l) ≠ 0) (htries : (s.dev.tr l).tries ≠ 0) :
    s.phaseFailed l = s.withDev fun d => d.stepDown l (s.dev.rd (stepField l)) := (if_neg hn).trans (if_neg htries)

theorem modeField_key_ne (l : Nat) : (F.PORT_CTL_MODE (l / 4)).key ≠ (F.PORT_LINK_FAILED_STEP (l / 4) (l % 4)).key := by
  simp only [Field.key, F.PORT_CTL_MODE, F.PORT_LINK_FAILED_STEP]
  omega

theorem Dev.keeps_stepDown {d : Dev} {l n : Nat} (h : d.LanesBelow l n) (step : Nat) :
    d.Keeps (stateField l :: stepField l :: F.PORT_LINK_FAILED_STEP (l / 4) (l % 4) :: lockFields n (l / 4)) (d.stepDown l step) := by
  have hmode : (d.stepNoted l step).rd (F.PORT_CTL_MODE (l / 4)) = d.rd (F.PORT_CTL_MODE (l / 4)) :=
    Dev.keeps_stepNoted d l step _ (by simpa using modeField_key_ne l)
  refine ((Dev.keeps_stepNoted d l step).mono (by simp)).trans ((Dev.keeps_acquire (h.congr hmode) (step - 1)).mono ?_)
  exact List.cons_subset_cons _ (List.cons_subset_cons _ (List.subset_cons_self _ _))

theorem Dev.rd_stepDown (d : Dev) (l step : Nat) : (d.stepDown l step).rd (F.PORT_LINK_FAILED_STEP (l / 4) (l % 4)) = step % 2 ^ 3 := by
  have hnot : (F.PORT_LINK_FAILED_STEP (l / 4) (l % 4)).key ∉ (stateField l :: stepField l :: lockFields 64 (l / 4)).map Field.key := by
    intro hmem
    simp only [List.map_cons, List.mem_cons] at hmem
    rcases hmem with heq | heq | hmem
    · simp only [Field.key, F.PORT_LINK_FAILED_STEP, stateField, F.PORT_LINK_STATE] at heq
      omega
    · simp only [Field.key, F.PORT_LINK_FAILED_STEP, stepField, F.PORT_LINK_STEP] at heq
      omega
    · exact trainFields_not_mem_locks (l := l) (by simp [trainFields]) 64 _ hmem
  exact (Dev.keeps_acquire (Dev.lanesBelow_all _ l) (step - 1) _ hnot).trans (Dev.rd_wr_same _ (F.PORT_LINK_FAILED_STEP (l / 4) (l % 4)) step)

theorem Dev.limit_stepDown (d : Dev) (l step : Nat) : ((d.stepDown l step).tr l).limit = step - 1 := by
  rw [Dev.stepDown, Dev.tr_acquire, Dev.stepNoted, Dev.tr_raise, Dev.tr_wr, Dev.tr_setTr]

/-! ## Recovery (R325) -/

/-- The recoveries of a link within the last 10 ms. -/
def Dev.recent (d : Dev) (l : Nat) : List Nat := (d.tr l).recoveries.filter (fun t => decide (d.time < t + 10000000))

/-- A recovery noted and counted in RECOVERIES. -/
def Dev.recoveryNoted (d : Dev) (l : Nat) : Dev :=
  (d.setTr l fun t => { t with recoveries := d.recent l ++ [d.time] }).bump (F.PORT_LINK_RECOVERIES (l / 4) (l % 4))

theorem Dev.keeps_recoveryNoted (d : Dev) (l : Nat) : d.Keeps [F.PORT_LINK_RECOVERIES (l / 4) (l % 4)] (d.recoveryNoted l) :=
  Dev.Keeps.trans (Dev.keeps_of_fields (Dev.setTr_fields d l fun t => { t with recoveries := d.recent l ++ [d.time] })) (Dev.keeps_bump (by simp))

theorem Dev.recoveryNoted_kept {β : Type} (g : Dev → β) (hg : ∀ (e : Dev) m training, g { e with fields := m, training := training } = g e)
    (d : Dev) (l : Nat) : g (d.recoveryNoted l) = g d := (hg _ _ (d.setTr l _).training).trans (hg d d.fields _)

/-- RECOVER: the runs and locks of the link begin anew. -/
def Dev.recovering (d : Dev) (l : Nat) : Dev := ((d.recoveryNoted l).setLst l 8).cleared l

theorem State.recover_of_down {l : Nat} (h : s.dev.lst l ≠ 7) : s.recover l = s := if_pos h

theorem State.recover_few {l : Nat} (h : s.dev.lst l = 7) (hoff : s.dev.countersOff = true) (hfew : (s.dev.recent l).length < 3) :
    s.recover l = s.withDev fun d => d.recovering l := by
  have hcount := Dev.count_of_countersOff ((Dev.recoveryNoted_kept Dev.countersOff (fun _ _ _ => rfl) s.dev l).trans hoff) 0x0003 (l / 4) none
  have hlen : ¬ 4 ≤ (s.dev.recent l ++ [s.dev.time]).length := by
    rw [List.length_append, List.length_singleton]
    omega
  refine (if_neg (not_not_intro h)).trans ((if_neg hlen).trans ?_)
  rw [State.withDev_withDev]
  exact State.withDev_congr (congrArg (fun d : Dev => (d.setLst l 8).cleared l) hcount)

/-- A fourth recovery within 10 ms noted: the link goes to DETECT, its recoveries forgotten. -/
def Dev.recoveryFailed (d : Dev) (l : Nat) : Dev := (d.recoveryNoted l).setTr l fun t => { t with recoveries := [] }

theorem State.recover_many {l : Nat} (h : s.dev.lst l = 7) (hoff : s.dev.countersOff = true) (hmany : 3 ≤ (s.dev.recent l).length) :
    s.recover l = (s.withDev fun d => d.recoveryFailed l).toDetect l true := by
  have hcount := Dev.count_of_countersOff ((Dev.recoveryNoted_kept Dev.countersOff (fun _ _ _ => rfl) s.dev l).trans hoff) 0x0003 (l / 4) none
  have hlen : 4 ≤ (s.dev.recent l ++ [s.dev.time]).length := by
    rw [List.length_append, List.length_singleton]
    omega
  refine (if_neg (not_not_intro h)).trans ((if_pos hlen).trans ?_)
  rw [State.withDev_withDev]
  exact congrArg (fun t : State => t.toDetect l true) (State.withDev_congr (congrArg (fun d : Dev => d.setTr l fun t => { t with recoveries := [] }) hcount))

theorem recoveries_key_ne {l : Nat} {f : Field} (hf : f.key = (stateField l).key ∨ f = F.PORT_CTL_MODE (l / 4) ∨ f = F.COLL_STATUS_STATE) :
    f.key ≠ (F.PORT_LINK_RECOVERIES (l / 4) (l % 4)).key := by
  rcases hf with hf | rfl | rfl
  · rw [hf]
    simp only [Field.key, stateField, F.PORT_LINK_STATE, F.PORT_LINK_RECOVERIES]
    omega
  · simp only [Field.key, F.PORT_CTL_MODE, F.PORT_LINK_RECOVERIES]
    omega
  · simp only [Field.key, F.COLL_STATUS_STATE, F.PORT_LINK_RECOVERIES]
    omega

theorem Dev.rd_recoveryNoted_ne {d : Dev} {l : Nat} {f : Field} (hf : f.key ≠ (F.PORT_LINK_RECOVERIES (l / 4) (l % 4)).key) :
    (d.recoveryNoted l).rd f = d.rd f := Dev.keeps_recoveryNoted d l f (by simpa using hf)

theorem State.alone_recoveryFailed {l : Nat} {ops : List HostOp} (h : s.Alone ops) : (s.withDev fun d => d.recoveryFailed l).Alone ops := by
  obtain ⟨hcoll, hoff, hops⟩ := h
  have hstate : (s.dev.recoveryFailed l).rd F.COLL_STATUS_STATE = s.dev.rd F.COLL_STATUS_STATE :=
    (Dev.rd_congr (Dev.setTr_fields _ l _) _).trans (Dev.rd_recoveryNoted_ne (recoveries_key_ne (Or.inr (Or.inr rfl))))
  refine ⟨(?_ : (s.dev.recoveryFailed l).inCollection = _), ?_, ?_⟩
  · rw [Dev.inCollection, hstate]
    exact hcoll
  · exact (Dev.recoveryNoted_kept Dev.countersOff (fun _ _ _ => rfl) s.dev l).trans hoff
  · exact (Dev.recoveryNoted_kept Dev.hostOps (fun _ _ _ => rfl) s.dev l).trans hops

theorem Dev.lst_recoveryFailed (d : Dev) (l : Nat) : (d.recoveryFailed l).lst l = d.lst l :=
  (Dev.rd_congr (Dev.setTr_fields _ l _) (stateField l)).trans (Dev.rd_recoveryNoted_ne (recoveries_key_ne (Or.inl rfl)))

theorem Dev.keeps_recovering {d : Dev} {l n : Nat} (h : d.LanesBelow l n) :
    d.Keeps (stateField l :: F.PORT_LINK_RECOVERIES (l / 4) (l % 4) :: lockFields n (l / 4)) (d.recovering l) := by
  have hmode : ((d.recoveryNoted l).setLst l 8).rd (F.PORT_CTL_MODE (l / 4)) = d.rd (F.PORT_CTL_MODE (l / 4)) := by
    refine (Dev.rd_wr_ne _ ?_ 8).trans (Dev.rd_recoveryNoted_ne (recoveries_key_ne (Or.inr (Or.inl rfl))))
    simp only [Field.key, F.PORT_CTL_MODE, F.PORT_LINK_STATE]
    omega
  refine Dev.Keeps.trans ((Dev.keeps_recoveryNoted d l).mono (by simp)) ?_
  exact Dev.Keeps.trans (Dev.keeps_wr (f := stateField l) (by simp) 8) ((Dev.keeps_cleared l (h.congr hmode)).mono (by simp))

theorem Dev.recovering_reads (d : Dev) (l : Nat) : (d.recovering l).lst l = 8 ∧
    (d.recovering l).rd (F.PORT_LINK_RECOVERIES (l / 4) (l % 4)) = min (d.rd (F.PORT_LINK_RECOVERIES (l / 4) (l % 4)) + 1) 65535 := by
  have hlock : (F.PORT_LINK_RECOVERIES (l / 4) (l % 4)).key % 32 ≠ 30 := by
    simp only [Field.key, F.PORT_LINK_RECOVERIES]
    omega
  refine ⟨(Dev.rd_cleared _ l (trainKeys_mod l (stateField l) (by simp [trainFields]))).trans (Dev.rd_wr_same _ (stateField l) 8),
    (Dev.rd_cleared _ l hlock).trans ((Dev.rd_wr_ne _ (recoveries_key_ne (Or.inl rfl)).symm 8).trans ?_)⟩
  refine (Dev.rd_bump_same _ _).trans ?_
  rw [Dev.rd_congr (Dev.setTr_fields d l _)]
  rfl

theorem Dev.recovering_links (d : Dev) (l : Nat) : (d.recovering l).links = d.links :=
  (Dev.cleared_view _ l (g := Dev.links) fun _ _ _ => rfl).trans (Dev.recoveryNoted_kept Dev.links (fun _ _ _ => rfl) d l)

end Events

/-! ## Lanes that are missing or fail (R322, R326) -/

section Lanes

variable {s : State} {l : Fin 256} {lane : Fin 16}

theorem exec_acquireLaneMissing_of_not (h : s.dev.lst l ≠ 2 ∨ s.dev.rd (stepField l) ≠ 0 ∨ s.dev.fullWidth l ≤ lane.val) :
    exec (.acquireLaneMissing l lane) s = .next s := by
  refine Eq.trans (b := execAcquireLaneMissing l lane s) rfl ?_
  rw [execAcquireLaneMissing]
  exact State.next_of_same (if_pos h)

variable (hst : s.dev.lst l = 2) (hn : s.dev.rd (stepField l) = 0) (hlane : lane.val < s.dev.fullWidth l)
include hst hn hlane

theorem exec_acquireLaneMissing_of_none (hspare : s.dev.standby true (l / 4) = none) : exec (.acquireLaneMissing l lane) s =
    .next (s.withDev fun d => d.setTr l fun t => { t with missing := t.missing.filter (· ≠ lane.val) ++ [lane.val] }) := by
  have hgo : ¬ (s.dev.lst l ≠ 2 ∨ s.dev.rd (stepField l) ≠ 0 ∨ s.dev.fullWidth l ≤ lane.val) := by
    simp only [hst, hn, ne_eq, not_true_eq_false, false_or]
    omega
  refine Eq.trans (b := execAcquireLaneMissing l lane s) rfl ?_
  rw [execAcquireLaneMissing]
  exact State.next_congr ((if_neg hgo).trans (if_neg (by simp [hspare])))

theorem exec_acquireLaneMissing_of_spare (hspare : s.dev.standby true (l / 4) ≠ none) (hmove : (s.dev.tr l).move = none) :
    exec (.acquireLaneMissing l lane) s = .next (s.withDev fun d => d.setTr l fun t => { t with move := some lane.val }) := by
  have hgo : ¬ (s.dev.lst l ≠ 2 ∨ s.dev.rd (stepField l) ≠ 0 ∨ s.dev.fullWidth l ≤ lane.val) := by
    simp only [hst, hn, ne_eq, not_true_eq_false, false_or]
    omega
  refine Eq.trans (b := execAcquireLaneMissing l lane s) rfl ?_
  rw [execAcquireLaneMissing]
  exact State.next_congr ((if_neg hgo).trans (if_pos (by simp [hmove, Option.isSome_iff_ne_none, hspare])))

end Lanes

section Failure

variable {s : State} {port : Fin 64} {lane : Fin 18}

/-- A failed spare in standby is only marked. -/
theorem exec_laneFailure_of_spare (hlane : 16 ≤ lane.val) (hused : s.dev.rd (mapField true (lane = 17) port).2.1 = 0) :
    exec (.laneFailure port lane false) s = .next (s.withDev fun d => d.wr (mapField true (lane = 17) port).2.2 1) := by
  refine Eq.trans (b := execLaneFailure port lane false s) rfl ?_
  rw [execLaneFailure]
  have hflag : s.dev.flag (mapField true (lane = 17) port).2.1 = false := by simp [Dev.flag_eq, hused]
  exact congrArg Host.Outcome.next (if_pos ⟨hlane, ne_true_of_eq_false hflag⟩)

theorem exec_laneFailure_of_working (hlane : lane.val < 16) : exec (.laneFailure port lane false) s =
    .next (if [0, 1, 9].contains (s.dev.lst (s.dev.laneLink port lane none)) then s
      else s.askMove (s.dev.laneLink port lane none) (s.dev.rd (F.LANE_ERR_LOGICAL port lane))) := by
  refine Eq.trans (b := execLaneFailure port lane false s) rfl ?_
  rw [execLaneFailure]
  exact congrArg Host.Outcome.next (if_neg fun h => by omega)

theorem mapField_failed_width (recv second : Bool) (p : Nat) : (mapField recv second p).2.2.width = 1 := by
  cases recv <;> cases second <;> rfl

end Failure

/-! ## DETECT and ACQUIRE as the obligation reads them -/

section Parts

variable {s : State} (l : Fin 256)

theorem detect_reads (hst : s.dev.lst l ≠ 0) (hst' : s.dev.lst l ≠ 9) (hs : s.Alone []) (retrain : Bool) :
    (s.toDetect l retrain).dev.lst l = 1 ∧ (s.toDetect l retrain).dev.rd (stepField l) = 0 ∧
      (s.toDetect l retrain).dev.rd (F.PORT_LINK_WIDTH (l / 4) (l % 4)) = 3 ∧
      (s.toDetect l retrain).dev.rd (F.PORT_LINK_FAILED_STEP (l / 4) (l % 4)) = 7 ∧ (s.toDetect l retrain).mem = s.mem ∧
      (s.dev.lst l = 7 ∨ s.dev.lst l = 8 → ((s.toDetect l retrain).dev.linkSt l).replay = []) := by
  rw [State.toDetect_eq hs l.isLt (Or.inl rfl) (by simp [hst, hst'])]
  refine ⟨Dev.rd_detected _ _ _ List.mem_cons_self, Dev.rd_detected _ _ _ (f := stepField l) (v := 0) (by simp [detectWrites]),
    Dev.rd_detected _ _ _ (v := 3) (by simp [detectWrites]), Dev.rd_detected _ _ _ (v := 7) (by simp [detectWrites]), State.withDev_mem ..,
    fun hup => ?_⟩
  have hlinks : (s.dev.toDetect l retrain).links = (s.dev.lost l).links :=
    (Dev.detected_links _ l retrain).trans (congrArg Dev.links (if_pos hup))
  exact (congrArg LinkSt.replay (Dev.linkSt_congr hlinks l)).trans (Dev.lost_replay s.dev l)

theorem recover_many_reads (hst : s.dev.lst l = 7) (hs : s.Alone []) (hmany : 3 ≤ (s.dev.recent l).length) :
    (s.recover l).dev.lst l = 1 ∧ ((s.recover l).dev.linkSt l).replay = [] ∧ (s.recover l).mem = s.mem := by
  have hlst : (s.withDev fun d => d.recoveryFailed l).dev.lst l = 7 := (Dev.lst_recoveryFailed s.dev l).trans hst
  rw [State.recover_many hst hs.2.1 hmany]
  obtain ⟨hdetect, -, -, -, hmem, hreplay⟩ := detect_reads l (by rw [hlst]; decide) (by rw [hlst]; decide) (State.alone_recoveryFailed hs) true
  exact ⟨hdetect, hreplay (Or.inl hlst), hmem.trans (State.withDev_mem ..)⟩

theorem recover_few_reads (hst : s.dev.lst l = 7) (hmode : s.dev.linkInMode (l / 4) (l % 4) = true) (hoff : s.dev.countersOff = true)
    (hfew : (s.dev.recent l).length < 3) :
    s.frame (s.recover l) (stateField l :: F.PORT_LINK_RECOVERIES (l / 4) (l % 4) :: lockFields 18 (l / 4)) ∧ (s.recover l).dev.lst l = 8 ∧
      (s.recover l).dev.rd (F.PORT_LINK_RECOVERIES (l / 4) (l % 4)) = min (s.dev.rd (F.PORT_LINK_RECOVERIES (l / 4) (l % 4)) + 1) 65535 ∧
      ((s.recover l).dev.linkSt l).replay = (s.dev.linkSt l).replay := by
  rw [State.recover_few hst hoff hfew]
  obtain ⟨hlst, hcount⟩ := Dev.recovering_reads s.dev l
  have hreplay := congrArg LinkSt.replay (Dev.linkSt_congr (Dev.recovering_links s.dev l) l)
  have hframe : s.frame (s.withDev fun d => d.recovering l) _ := State.frame_of_keeps (Dev.keeps_recovering (Dev.lanesBelow_of_inMode hmode))
  rw [State.withDev_dev]
  exact ⟨hframe, hlst, hcount, hreplay⟩

/-- A phase tried once more: STEP stands. -/
theorem phase_first (hn : 0 < s.dev.rd (stepField l)) (hlt : s.dev.rd (stepField l) < 8) (hmode : s.dev.linkInMode (l / 4) (l % 4) = true)
    (htries : (s.dev.tr l).tries = 0) : s.frame (s.phaseFailed l) (stateField l :: lockFields 18 (l / 4)) ∧ (s.phaseFailed l).dev.lst l = 2 ∧
      ((s.phaseFailed l).dev.tr l).tries = 1 := by
  have hne : (stepField l).key ≠ (stateField l).key := by
    simp [Field.key, stateField, stepField, F.PORT_LINK_STATE, F.PORT_LINK_STEP]
  have hstep : ∀ f : Training → Training, ((s.dev.setTr l f).setLst l 2).rd (stepField l) = s.dev.rd (stepField l) := fun f =>
    (Dev.rd_wr_ne _ hne 2).trans (Dev.rd_congr (Dev.setTr_fields s.dev l f) _)
  rw [State.phaseFailed_first (by omega) htries]
  refine ⟨State.frame_of_keeps ?_, (Dev.rd_acquire _ l _).1, congrArg Training.tries (Dev.tr_reacquire s.dev l _ _)⟩
  · refine Dev.Keeps.trans (Dev.keeps_of_fields (Dev.setTr_fields s.dev l fun t => { t with tries := 1 })) ?_
    refine Dev.keeps_acquire_of ((Dev.lanesBelow_of_inMode hmode).congr (Dev.rd_congr (Dev.setTr_fields s.dev l _) _)) ?_ (by simp)
    exact Dev.Keeps.trans (Dev.keeps_wr (f := stateField l) (by simp) 2)
      ((Dev.keeps_wr_self (hstep _) (Nat.ne_of_gt hn) hlt).mono (List.nil_subset _))

theorem phase_again (hn : 0 < s.dev.rd (stepField l)) (hlt : s.dev.rd (stepField l) < 8) (hmode : s.dev.linkInMode (l / 4) (l % 4) = true)
    (htries : (s.dev.tr l).tries ≠ 0) :
    s.frame (s.phaseFailed l) (stateField l :: stepField l :: F.PORT_LINK_FAILED_STEP (l / 4) (l % 4) :: lockFields 18 (l / 4)) ∧
      (s.phaseFailed l).dev.lst l = 2 ∧ (s.phaseFailed l).dev.rd (stepField l) = s.dev.rd (stepField l) - 1 ∧
      (s.phaseFailed l).dev.rd (F.PORT_LINK_FAILED_STEP (l / 4) (l % 4)) = s.dev.rd (stepField l) ∧
      ((s.phaseFailed l).dev.tr l).limit = s.dev.rd (stepField l) - 1 := by
  rw [State.phaseFailed_again (by omega) htries]
  obtain ⟨hlst, hstep⟩ := Dev.rd_acquire (s.dev.stepNoted l (s.dev.rd (stepField l))) l (s.dev.rd (stepField l) - 1)
  exact ⟨State.frame_of_keeps (Dev.keeps_stepDown (Dev.lanesBelow_of_inMode hmode) _), hlst, hstep.trans (Nat.mod_eq_of_lt (by omega)),
    (Dev.rd_stepDown ..).trans (Nat.mod_eq_of_lt hlt), Dev.limit_stepDown ..⟩

end Parts

/-- Settles O39. -/
theorem linksTrain : Obligations.LinksTrain := by
  unfold Obligations.LinksTrain
  intro s l p k st n locks recent
  refine ⟨fun lanes h => exec_signalDetect_of_other h lanes, fun lanes h hmode hall => ⟨_, exec_signalDetect_of_all h hall, ?_, ?_⟩,
    fun h => ?_, fun h => ⟨fun hn => ?_, fun hn hlt hmode htries => ⟨_, exec_trainingPhaseTimeout h, phase_first l hn hlt hmode htries⟩,
      fun hn hlt hmode htries => ⟨_, exec_trainingPhaseTimeout h, phase_again l hn hlt hmode htries⟩⟩,
    ⟨exec_stepChangeIdle_of_not, fun hgo hlt hmode => ⟨_, exec_stepChangeIdle hgo, ?_, ?_⟩⟩, fun h => ?_,
    fun h hmode hoff hfew => ⟨_, rfl, rfl, recover_few_reads l h hmode hoff hfew⟩,
    fun h hcoll hops hoff hmany => ⟨_, rfl, rfl, recover_many_reads l h ⟨hcoll, hoff, hops⟩ hmany⟩,
    fun h => congrArg Host.Outcome.next (if_neg h), fun h => congrArg Host.Outcome.next (if_pos h), rfl,
    fun retrain h h' hcoll hops hoff => detect_reads l h h' ⟨hcoll, hoff, hops⟩ retrain,
    fun lane => ⟨exec_acquireLaneMissing_of_not, fun h hn hlane hspare => ⟨_, exec_acquireLaneMissing_of_none h hn hlane hspare, ?_, ?_⟩,
      fun h hn hlane hspare hmove => ⟨_, exec_acquireLaneMissing_of_spare h hn hlane hspare hmove, ?_, ?_⟩⟩,
    fun port lane => ⟨fun hlane => ?_, fun hlane => exec_laneFailure_of_working hlane, rfl⟩⟩
  · exact State.frame_of_keeps (Dev.keeps_acquire (Dev.lanesBelow_of_inMode hmode) 0)
  · exact Dev.rd_acquire s.dev l 0
  · exact congrArg Host.Outcome.next (if_neg (by simpa using h))
  · exact (exec_trainingPhaseTimeout h).trans (congrArg Host.Outcome.next (if_pos hn))
  · exact State.frame_of_keeps (Dev.keeps_reacquire (Dev.lanesBelow_of_inMode hmode) _ _)
  · obtain ⟨hlst, hstep⟩ := Dev.rd_acquire (s.dev.setTr l fun t => { t with tries := 0 }) l (n + 1)
    exact ⟨hlst, hstep.trans (Nat.mod_eq_of_lt (by omega))⟩
  · exact ⟨congrArg Host.Outcome.next (State.recover_of_down h), congrArg Host.Outcome.next (State.recover_of_down h)⟩
  · exact State.frame_of_keeps (Dev.keeps_of_fields (Dev.setTr_fields ..))
  · rw [State.withDev_dev, Dev.tr_setTr]
    simp
  · exact State.frame_of_keeps (Dev.keeps_of_fields (Dev.setTr_fields ..))
  · rw [State.withDev_dev, Dev.tr_setTr]
  · intro used failed hused
    refine ⟨_, exec_laneFailure_of_spare hlane hused, State.frame_of_keeps (Dev.keeps_wr (by simp [failed]) 1), (Dev.rd_wr_same _ _ 1).trans ?_⟩
    exact congrArg (1 % 2 ^ ·) (mapField_failed_width _ _ _)

end Sys2Proof.Machine

end

section
/-!
Blocks on a lane (R311, R312, R313, R317, R319): headers, ordered blocks, and the SEED switch.
-/

namespace Sys2Proof.Machine

open Sys2Proof

/-! ## The header of a block -/

section Header

variable {d : Dev} {p lane : Nat}

theorem Dev.setRx_fields (d : Dev) (p lane : Nat) (f : LaneRx → LaneRx) : (d.setRx p lane f).fields = d.fields := rfl

theorem Dev.setRx_congr {f g : LaneRx → LaneRx} (h : f (d.rx p lane) = g (d.rx p lane)) : d.setRx p lane f = d.setRx p lane g := by
  rw [Dev.rx] at h
  rw [Dev.setRx, SMap.modify, h, Dev.setRx, SMap.modify]

theorem Dev.rx_setRx (d : Dev) (p lane : Nat) (f : LaneRx → LaneRx) : (d.setRx p lane f).rx p lane = f (d.rx p lane) := SMap.get_modify_same ..

/-- The lock of a lane that a header decides: lost, gained, or as it was. -/
def Dev.lockBy (d : Dev) (p lane : Nat) (lost : Bool) (good : Nat) : Dev :=
  if lost then d.wr (F.LANE_ERR_LOCKED p lane) 0 else if good = 64 then d.wr (F.LANE_ERR_LOCKED p lane) 1 else d

theorem Dev.keeps_lockBy (d : Dev) (p lane : Nat) (lost : Bool) (good : Nat) : d.Keeps [F.LANE_ERR_LOCKED p lane] (d.lockBy p lane lost good) := by
  rw [Dev.lockBy]
  split
  · exact Dev.keeps_wr (by simp) 0
  · split
    · exact Dev.keeps_wr (by simp) 1
    · exact Dev.keeps_of_fields rfl

theorem Dev.lockBy_kept {β : Type} (g : Dev → β) (hg : ∀ (e : Dev) m, g { e with fields := m } = g e) (d : Dev) (p lane : Nat) (lost : Bool) (good : Nat) :
    g (d.lockBy p lane lost good) = g d := by
  rw [Dev.lockBy]
  split
  · exact hg d _
  · split
    · exact hg d _
    · rfl

/-- A good header moves the counts of its lane and its lock. -/
theorem Dev.header_good (d : Dev) (p lane : Nat) : ∃ good errs lost count,
    d.header p lane false = (d.setRx p lane fun r => { r with good := good, errs := errs }).lockBy p lane lost count :=
  ⟨_, _, _, _, rfl⟩

/-- A bad header is a lane error as well. -/
theorem Dev.header_bad (hoff : d.countersOff = true) : ∃ good errs lost count,
    d.header p lane true = ((d.setRx p lane fun r => { r with good := good, errs := errs }).laneError p lane).lockBy p lane lost count := by
  have hcounted : ∃ good errs lost count, d.header p lane true = (((d.setRx p lane fun r =>
      { r with good := good, errs := errs }).laneError p lane).count 0x0002 p).lockBy p lane lost count := ⟨_, _, _, _, rfl⟩
  obtain ⟨good, errs, lost, count, heq⟩ := hcounted
  refine ⟨good, errs, lost, count, heq.trans ?_⟩
  rw [Dev.count_of_countersOff (by exact hoff)]

theorem lock_key_ne_errors : (F.LANE_ERR_ERRORS p lane).key ∉ [F.LANE_ERR_LOCKED p lane].map Field.key := by
  simp [Field.key, F.LANE_ERR_ERRORS, F.LANE_ERR_LOCKED]

theorem Dev.keeps_laneError (d : Dev) (p lane : Nat) : d.Keeps [F.LANE_ERR_ERRORS p lane] (d.laneError p lane) := Dev.keeps_bump (by simp)

theorem Dev.rd_laneError (d : Dev) (p lane : Nat) :
    (d.laneError p lane).rd (F.LANE_ERR_ERRORS p lane) = min (d.rd (F.LANE_ERR_ERRORS p lane) + 1) 65535 := Dev.rd_bump_same d _

/-- The device once a header is taken with the lane's history (R311). -/
def Dev.heard (d : Dev) (p lane hist : Nat) (bad : Bool) : Dev := (d.setRx p lane fun r => { r with hist := hist }).header p lane bad

theorem Dev.keeps_heard (d : Dev) (p lane hist : Nat) : d.Keeps [F.LANE_ERR_LOCKED p lane] (d.heard p lane hist false) := by
  obtain ⟨good, errs, lost, count, heq⟩ := Dev.header_good (d.setRx p lane fun r => { r with hist := hist }) p lane
  rw [Dev.heard, heq]
  exact Dev.Keeps.trans (Dev.keeps_of_fields ((Dev.setRx_fields _ p lane _).trans (Dev.setRx_fields d p lane _))) (Dev.keeps_lockBy _ p lane lost count)

theorem Dev.heard_kept {β : Type} (g : Dev → β) (hg : ∀ (e : Dev) m laneRx, g { e with fields := m, laneRx := laneRx } = g e) (d : Dev) (p lane hist : Nat) :
    g (d.heard p lane hist false) = g d := by
  obtain ⟨good, errs, lost, count, heq⟩ := Dev.header_good (d.setRx p lane fun r => { r with hist := hist }) p lane
  rw [Dev.heard, heq, Dev.lockBy_kept g (fun e m => hg e m e.laneRx)]
  exact (hg _ (Dev.setRx d p lane _).fields _).trans (hg d d.fields _)

/-- The history kept with a good header. -/
theorem Dev.hist_heard (d : Dev) (p lane hist : Nat) : ((d.heard p lane hist false).rx p lane).hist = hist := by
  obtain ⟨good, errs, lost, count, heq⟩ := Dev.header_good (d.setRx p lane fun r => { r with hist := hist }) p lane
  have hrx := Dev.lockBy_kept (fun e => e.rx p lane) (fun _ _ => rfl)
    ((d.setRx p lane fun r => { r with hist := hist }).setRx p lane fun r => { r with good := good, errs := errs }) p lane lost count
  rw [Dev.heard, heq, hrx, Dev.rx_setRx, Dev.rx_setRx]

theorem Dev.heard_bad (hoff : d.countersOff = true) (hist : Nat) : d.Keeps [F.LANE_ERR_ERRORS p lane, F.LANE_ERR_LOCKED p lane] (d.heard p lane hist true) ∧
    (d.heard p lane hist true).rd (F.LANE_ERR_ERRORS p lane) = min (d.rd (F.LANE_ERR_ERRORS p lane) + 1) 65535 := by
  obtain ⟨good, errs, lost, count, heq⟩ := Dev.header_bad (d := d.setRx p lane fun r => { r with hist := hist }) (p := p) (lane := lane) hoff
  have hfields := (Dev.setRx_fields (d.setRx p lane fun r => { r with hist := hist }) p lane
    fun r => { r with good := good, errs := errs }).trans (Dev.setRx_fields d p lane _)
  rw [Dev.heard, heq]
  refine ⟨?_, (Dev.keeps_lockBy _ p lane lost count _ lock_key_ne_errors).trans ((Dev.rd_laneError _ p lane).trans ?_)⟩
  · exact Dev.Keeps.trans (Dev.keeps_of_fields hfields) (Dev.Keeps.trans ((Dev.keeps_laneError _ p lane).mono (by simp))
      ((Dev.keeps_lockBy _ p lane lost count).mono (by simp)))
  · rw [Dev.rd_congr hfields]

end Header

/-! ## A block on a lane that hears it -/

section Block

variable {s : State} {p lane payload : Nat} {a : Adapt}

/-- The header that stands for a control block is one. -/
theorem State.block_control (h : s.dev.laneHears p lane ≠ false) :
    s.block p lane (s.dev.controlHeader p lane) payload a = s.controlBlock p lane payload a := by
  have hcontrol : (if s.dev.flag (F.LANE_ERR_INVERTED p lane) then 3 - s.dev.controlHeader p lane else s.dev.controlHeader p lane) = 1 := by
    rw [Dev.controlHeader]
    split <;> rfl
  exact (if_neg (by simpa using h)).trans (if_pos hcontrol)

theorem State.block_of_quiet (h : s.dev.laneHears p lane = false) (header : Nat) : s.block p lane header payload a = s := by
  rw [State.block, if_pos (by simp [h])]

/-- What a control block carries: its payload descrambled, and the history kept. -/
def Dev.unscrambled (d : Dev) (p lane payload : Nat) : Nat × Nat := descramble (d.rx p lane).hist (d.polar p lane payload)

theorem State.controlBlock_eq (s : State) (p lane payload : Nat) (a : Adapt) : s.controlBlock p lane payload a =
    (if ¬ ordered (s.dev.unscrambled p lane payload).1 then
      ((s.withDev fun d => d.heard p lane (s.dev.unscrambled p lane payload).2 false).withDev fun d => d.laneError p lane).seedReceived p lane none
    else if (s.dev.unscrambled p lane payload).1 % 256 = 0x1E then
      (s.withDev fun d => d.heard p lane (s.dev.unscrambled p lane payload).2 false).tsReceived p lane (s.dev.unscrambled p lane payload).1 a
    else if (s.dev.unscrambled p lane payload).1 % 256 = 0x33 then
      (s.withDev fun d => d.heard p lane (s.dev.unscrambled p lane payload).2 false).seedReceived p lane (some (s.dev.unscrambled p lane payload).1)
    else s.withDev fun d => d.heard p lane (s.dev.unscrambled p lane payload).2 false) := by
  rw [State.controlBlock, Dev.unscrambled]
  generalize descramble (s.dev.rx p lane).hist (s.dev.polar p lane payload) = pair
  obtain ⟨x, hist⟩ := pair
  rfl

/-- A PRBS error more in CONFIRM and RECOVER, where the PRBS is checked. -/
def Dev.prbsCounted (d : Dev) (p lane : Nat) : Dev :=
  if d.lst (d.laneLink p lane none) = 4 ∨ d.lst (d.laneLink p lane none) = 8 then d.setRx p lane fun r => { r with prbsErr := r.prbsErr + 1 } else d

theorem Dev.prbsCounted_fields (d : Dev) (p lane : Nat) : (d.prbsCounted p lane).fields = d.fields := by
  rw [Dev.prbsCounted]
  split <;> rfl

/-- A block with a bad header. -/
def Dev.badHeard (d : Dev) (p lane hist : Nat) : Dev := (d.heard p lane hist true).prbsCounted p lane

theorem Dev.badHeard_reads {d : Dev} (hoff : d.countersOff = true) (p lane hist : Nat) :
    d.Keeps [F.LANE_ERR_ERRORS p lane, F.LANE_ERR_LOCKED p lane] (d.badHeard p lane hist) ∧
      (d.badHeard p lane hist).rd (F.LANE_ERR_ERRORS p lane) = min (d.rd (F.LANE_ERR_ERRORS p lane) + 1) 65535 := by
  obtain ⟨hkeeps, hcount⟩ := Dev.heard_bad (p := p) (lane := lane) hoff hist
  have hfields := Dev.prbsCounted_fields (d.heard p lane hist true) p lane
  exact ⟨hkeeps.trans (Dev.keeps_of_fields hfields), (Dev.rd_congr hfields _).trans hcount⟩

/-- A header that is neither data nor control, whatever the lane's polarity. -/
theorem State.block_bad (h : s.dev.laneHears p lane ≠ false) {header : Nat} (hheader : header = 0 ∨ header = 3) :
    s.block p lane header payload a = s.withDev fun d => d.badHeard p lane (s.dev.unscrambled p lane payload).2 := by
  have hneither : ∀ n ∈ [1, 2], ¬ (if s.dev.flag (F.LANE_ERR_INVERTED p lane) then 3 - header else header) = n := by
    intro n hn
    simp only [List.mem_cons, List.not_mem_nil, or_false] at hn
    split <;> omega
  have hhist : (s.dev.setRx p lane fun r => { r with hist := (descramble r.hist (s.dev.polar p lane payload)).2 }) =
      s.dev.setRx p lane fun r => { r with hist := (s.dev.unscrambled p lane payload).2 } := Dev.setRx_congr rfl
  refine (if_neg (by simpa using h)).trans ((if_neg (hneither 1 (by simp))).trans ((if_neg (hneither 2 (by simp))).trans ?_))
  exact State.withDev_congr (congrArg (fun d : Dev => (d.header p lane true).prbsCounted p lane) hhist)

theorem State.block_data (h : s.dev.laneHears p lane ≠ false) (hpolar : s.dev.rd (F.LANE_ERR_INVERTED p lane) = 0) :
    s.block p lane 2 payload a = s.withDev fun d => d.dataBlock p lane payload := by
  have hheader : (if s.dev.flag (F.LANE_ERR_INVERTED p lane) then 3 - 2 else 2) = 2 := if_neg (by simp [Dev.flag_eq, hpolar])
  have hdata : ¬ (if s.dev.flag (F.LANE_ERR_INVERTED p lane) then 3 - 2 else 2) = 1 := by
    rw [hheader]
    decide
  exact (if_neg (by simpa using h)).trans ((if_neg hdata).trans (if_pos hheader))

end Block

/-! ## The link of a lane -/

section LaneLink

variable {d e : Dev} {p lane : Nat}

/-- The registers that count and lock a lane. -/
def laneFields (p lane : Nat) : List Field := [F.LANE_ERR_ERRORS p lane, F.LANE_ERR_LOCKED p lane]

theorem laneFields_space {f : Field} (hf : f.key < (F.LANE_ERR_ERRORS p lane).key) : f.key ∉ (laneFields p lane).map Field.key := by
  simp only [laneFields, List.map_cons, List.map_nil, List.mem_cons, List.not_mem_nil, or_false, not_or, Field.key, F.LANE_ERR_ERRORS,
    F.LANE_ERR_LOCKED] at hf ⊢
  omega

/-- What counts and locks a lane does not place it. -/
theorem Dev.laneLink_of_keeps (h : d.Keeps (laneFields p lane) e) (htraining : e.training = d.training) :
    e.laneLink p lane none = d.laneLink p lane none := by
  have hmode : e.rd (F.PORT_CTL_MODE p) = d.rd (F.PORT_CTL_MODE p) := h _ (laneFields_space (by simp [Field.key, F.PORT_CTL_MODE, F.LANE_ERR_ERRORS]; omega))
  have hmap : ∀ second, e.rd (mapField true second p).1 = d.rd (mapField true second p).1 ∧
      e.flag (mapField true second p).2.1 = d.flag (mapField true second p).2.1 := by
    intro second
    rw [Dev.flag, Dev.flag]
    cases second
    · exact ⟨h _ (laneFields_space (by simp [mapField, Field.key, F.LANE_MAP_RX_S0_LANE, F.LANE_ERR_ERRORS]; omega)),
        congrArg (fun v => decide (v ≠ 0)) (h _ (laneFields_space (by simp [mapField, Field.key, F.LANE_MAP_RX_S0_USED, F.LANE_ERR_ERRORS]; omega)))⟩
    · exact ⟨h _ (laneFields_space (by simp [mapField, Field.key, F.LANE_MAP_RX_S1_LANE, F.LANE_ERR_ERRORS]; omega)),
        congrArg (fun v => decide (v ≠ 0)) (h _ (laneFields_space (by simp [mapField, Field.key, F.LANE_MAP_RX_S1_USED, F.LANE_ERR_ERRORS]; omega)))⟩
  obtain ⟨hlane, hused⟩ := hmap (lane = 17)
  rw [Dev.laneLink, Dev.laneLink, hmode]
  dsimp only
  rw [hlane, hused]
  simp only [Dev.tr, htraining]
  rfl

theorem stateField_not_mem_lane (hlane : lane < 18) (l : Nat) : (stateField l).key ∉ (laneFields p lane).map Field.key := by
  simp only [laneFields, List.map_cons, List.map_nil, List.mem_cons, List.not_mem_nil, or_false, not_or, Field.key, stateField, F.PORT_LINK_STATE,
    F.LANE_ERR_ERRORS, F.LANE_ERR_LOCKED]
  omega

/-- A block that is no ordered block, with a good header: a lane error. -/
def Dev.errorHeard (d : Dev) (p lane hist : Nat) : Dev := (d.heard p lane hist false).laneError p lane

theorem Dev.keeps_errorHeard (d : Dev) (p lane hist : Nat) : d.Keeps (laneFields p lane) (d.errorHeard p lane hist) :=
  ((Dev.keeps_heard d p lane hist).mono (by simp [laneFields])).trans ((Dev.keeps_laneError _ p lane).mono (by simp [laneFields]))

theorem Dev.laneError_training (d : Dev) (p lane : Nat) : (d.laneError p lane).training = d.training := rfl

theorem Dev.errorHeard_training (d : Dev) (p lane hist : Nat) : (d.errorHeard p lane hist).training = d.training := by
  rw [Dev.errorHeard, Dev.laneError_training]
  exact Dev.heard_kept Dev.training (fun _ _ _ => rfl) d p lane hist

theorem Dev.rd_errorHeard (d : Dev) (p lane hist : Nat) :
    (d.errorHeard p lane hist).rd (F.LANE_ERR_ERRORS p lane) = min (d.rd (F.LANE_ERR_ERRORS p lane) + 1) 65535 := by
  rw [Dev.errorHeard, Dev.rd_laneError, Dev.keeps_heard d p lane hist _ lock_key_ne_errors]

/-- A lane whose link is not in SEED takes no seed. -/
theorem State.seedReceived_of_other {s : State} {x : Option Nat} (h : s.dev.lst (s.dev.laneLink p lane (x.map fun x => x / 2 ^ 48 % 32)) ≠ 6) :
    s.seedReceived p lane x = s := if_pos h

end LaneLink

/-! ## The switch point of SEED -/

section Switch

variable {s : State} {l : Nat}

/-- The receivers of a link that comes UP: their seeds taken, their lanes locked. -/
def Dev.seedsTaken (d : Dev) (l : Nat) : Dev :=
  (d.rxLanes l).foldl (fun d i => (d.setRx (l / 4) i fun r => { r with scr := r.seed, runLen := 0, prev := false }).wr (F.LANE_ERR_LOCKED (l / 4) i) 1) d

theorem Dev.keeps_seedsTaken (d : Dev) (l : Nat) : d.Keeps (lockFields 64 (l / 4)) (d.seedsTaken l) :=
  Dev.keeps_foldl _ (fun e i hi => Dev.Keeps.trans (e := e.setRx (l / 4) i _) (Dev.keeps_of_fields (Dev.setRx_fields ..))
    (Dev.keeps_wr (List.mem_map.mpr ⟨i, List.mem_range.mpr (Dev.lanesBelow_all d l d rfl i hi), rfl⟩) 1)) d

theorem Dev.setLinkSt_fields (d : Dev) (l : Nat) (f : LinkSt → LinkSt) : (d.setLinkSt l f).fields = d.fields := rfl

theorem Dev.toUp_fields (d : Dev) (l : Nat) : (d.toUp l).fields = ((d.setLst l 7).seedsTaken l).fields := by
  rw [Dev.toUp]
  dsimp only
  split <;> exact (Dev.setLinkSt_fields _ l _).trans (Dev.setTr_fields _ l _)

theorem Dev.lst_toUp (d : Dev) (l : Nat) : (d.toUp l).lst l = 7 :=
  (Dev.rd_congr (Dev.toUp_fields d l) (stateField l)).trans ((Dev.keeps_seedsTaken _ l _ (trainFields_not_mem_locks (l := l) (by simp [trainFields]) 64 _)).trans
    (Dev.rd_wr_same _ (stateField l) 7))

end Switch

/-! ## The obligation, part by part -/

section Parts

variable {s : State} {p : Fin 64} {lane : Fin 18} {payload : BitVec 64}

theorem rejoin_of_down (h : s.dev.linkUp (linkNo p 0) = false) : s.rejoin (linkNo p 0) = s := if_neg (by simp [h])

theorem exec_seedBlock_of_quiet (h : s.dev.laneHears p lane = false) : exec (.seedBlock p lane payload) s = .next s := by
  refine Eq.trans (b := execSeedBlock p lane payload s) rfl ?_
  rw [execSeedBlock, State.block_of_quiet h]
  dsimp only
  split
  · rfl
  · next hup => rw [rejoin_of_down (by simpa using hup)]

/-- A payload that is no ordered block, on a lane whose link is not in SEED: a lane error. -/
theorem controlBlock_unordered (hbad : ordered (s.dev.unscrambled p lane payload.toNat).1 = false)
    (hseed : s.dev.lst (s.dev.laneLink p lane none) ≠ 6) (a : Adapt) : s.controlBlock p lane payload.toNat a =
      s.withDev fun d => d.errorHeard p lane (s.dev.unscrambled p lane payload.toNat).2 := by
  have hkeeps := Dev.keeps_errorHeard s.dev p lane (s.dev.unscrambled p lane payload.toNat).2
  have hlink := Dev.laneLink_of_keeps hkeeps (Dev.errorHeard_training ..)
  rw [State.controlBlock_eq, if_pos (by simp [hbad]), State.withDev_withDev]
  refine State.seedReceived_of_other (s := s.withDev fun d => d.errorHeard p lane (s.dev.unscrambled p lane payload.toNat).2) ?_
  rw [Option.map_none, State.withDev_dev, hlink, Dev.lst_eq, hkeeps _ (stateField_not_mem_lane lane.isLt _)]
  exact hseed

section Ordered

variable (hord : ordered (s.dev.unscrambled p lane payload.toNat).1 = true) (a : Adapt)
include hord

theorem controlBlock_cc (hcc : (s.dev.unscrambled p lane payload.toNat).1 % 256 = 0x66) : s.controlBlock p lane payload.toNat a =
    s.withDev fun d => d.heard p lane (s.dev.unscrambled p lane payload.toNat).2 false := by
  rw [State.controlBlock_eq, if_neg (not_not_intro hord), if_neg (fun hn => absurd (hcc.symm.trans hn) (by decide)),
    if_neg (fun hn => absurd (hcc.symm.trans hn) (by decide))]

theorem controlBlock_ts (hts : (s.dev.unscrambled p lane payload.toNat).1 % 256 = 0x1E) : s.controlBlock p lane payload.toNat a =
    (s.withDev fun d => d.heard p lane (s.dev.unscrambled p lane payload.toNat).2 false).tsReceived p lane
      (s.dev.unscrambled p lane payload.toNat).1 a := by
  rw [State.controlBlock_eq, if_neg (not_not_intro hord), if_pos hts]

theorem controlBlock_seed (hseed : (s.dev.unscrambled p lane payload.toNat).1 % 256 = 0x33) : s.controlBlock p lane payload.toNat a =
    (s.withDev fun d => d.heard p lane (s.dev.unscrambled p lane payload.toNat).2 false).seedReceived p lane
      (some (s.dev.unscrambled p lane payload.toNat).1) := by
  rw [State.controlBlock_eq, if_neg (not_not_intro hord), if_neg (fun hn => absurd (hseed.symm.trans hn) (by decide)), if_pos hseed]

end Ordered

end Parts

/-- Settles O40. -/
theorem blocksAreHeard : Obligations.BlocksAreHeard := by
  unfold Obligations.BlocksAreHeard
  intro s p lane payload adapt quiet x u
  have hheld : ¬ quiet → ∀ a, s.block p lane (s.dev.controlHeader p lane) payload.toNat a = s.controlBlock p lane payload.toNat a :=
    fun h a => State.block_control h
  refine ⟨fun h => ⟨congrArg Host.Outcome.next (State.block_of_quiet h _), exec_seedBlock_of_quiet h, congrArg Host.Outcome.next (State.block_of_quiet h _),
      fun header => congrArg Host.Outcome.next (State.block_of_quiet h _)⟩,
    fun h => ⟨fun header hheader hoff => ?_, fun hpolar => congrArg Host.Outcome.next (State.block_data h hpolar), fun hbad hseed => ?_, fun hord hcc => ?_,
      fun hord hts => ?_, fun hord hseed => ?_⟩, fun l hst hall => ⟨fun hgood => ?_, fun hbad => ?_⟩⟩
  · have hval : header.toNat = 0 ∨ header.toNat = 3 := by
      rcases hheader with rfl | rfl
      · exact Or.inl rfl
      · exact Or.inr rfl
    obtain ⟨hkeeps, hcount⟩ := Dev.badHeard_reads hoff p lane (s.dev.unscrambled p lane payload.toNat).2
    refine ⟨s.withDev fun d => d.badHeard p lane (s.dev.unscrambled p lane payload.toNat).2, congrArg Host.Outcome.next (State.block_bad h hval),
      State.frame_of_keeps hkeeps, ?_⟩
    rw [State.withDev_dev]
    exact hcount
  · have heq := fun a => (hheld h a).trans (controlBlock_unordered hbad hseed a)
    have hkeeps := Dev.keeps_errorHeard s.dev p lane (s.dev.unscrambled p lane payload.toNat).2
    refine ⟨s.withDev fun d => d.errorHeard p lane (s.dev.unscrambled p lane payload.toNat).2, congrArg Host.Outcome.next (heq _),
      congrArg Host.Outcome.next (heq adapt), State.frame_of_keeps hkeeps, ?_⟩
    rw [State.withDev_dev]
    exact Dev.rd_errorHeard ..
  · have heq := controlBlock_cc (s := s) (p := p) (lane := lane) (payload := payload) hord { done := false, pre := 0, post := 0 } hcc
    have hkeeps := Dev.keeps_heard s.dev p lane (s.dev.unscrambled p lane payload.toNat).2
    refine ⟨s.withDev fun d => d.heard p lane (s.dev.unscrambled p lane payload.toNat).2 false, congrArg Host.Outcome.next ((hheld h _).trans heq),
      State.frame_of_keeps hkeeps, ?_, ?_, ?_⟩ <;> rw [State.withDev_dev]
    · exact Dev.hist_heard ..
    · exact Dev.heard_kept Dev.links (fun _ _ _ => rfl) ..
    · exact Dev.heard_kept Dev.training (fun _ _ _ => rfl) ..
  · exact congrArg Host.Outcome.next ((hheld h _).trans (controlBlock_ts (s := s) (p := p) (lane := lane) (payload := payload) hord adapt hts))
  · refine Eq.trans (b := execSeedBlock p lane payload s) rfl ?_
    rw [execSeedBlock, hheld h, controlBlock_seed (s := s) (p := p) (lane := lane) (payload := payload) hord _ hseed]
    rfl
  · have heq : s.seedSwitch l = s.withDev fun d => d.toUp l := (if_neg (by simp [hst, hall])).trans (if_pos hgood)
    rw [heq]
    exact ⟨Dev.lst_toUp s.dev l, State.withDev_mem ..⟩
  · exact (if_neg (by simp [hst, hall])).trans (if_neg (by simpa using hbad))

end Sys2Proof.Machine

end

section
/-!
Requests of hosts at their port (R166, R348 to R350): the checks of an arriving message, and the answers that turn it away.
-/

namespace Sys2Proof.Machine

open Sys2Proof

/-! ## Answers -/

section Answers

variable {d : Dev} {s : State} {q : Req}

theorem Dev.reply_of_up {l : Nat} (h : d.linkUp l = true) (m : Msg) : d.reply l m = d.send l m := if_pos h

/-- A status that means that nothing was moved adds nothing to the circulation. -/
theorem Dev.circulateReply_of_refused {status : Nat} (h : status ≠ 0 ∧ status ≠ 0x10 ∧ status ≠ 0x11) (info : AccInfo) :
    d.circulateReply q status info = d := by
  obtain ⟨h0, h10, h11⟩ := h
  rw [Dev.circulateReply]
  split
  · rfl
  · split
    · exact if_neg (by omega)
    · rfl
    · exact if_neg (by omega)

/-- A host's own request, neither late nor traced. -/
structure Req.Plain (q : Req) : Prop where
  link : q.link < 256
  source : q.source = none
  late : q.env.late = false
  traced : q.traced = false

/-- A plain request turned away with a status: the reply, and nothing else. -/
theorem State.answer_of_refused (hq : q.Plain) (hup : s.dev.linkUp q.link = true) {status : Nat} (hst : status ≠ 0 ∧ status ≠ 0x10 ∧ status ≠ 0x11) :
    s.answer q status 0 0 {} = s.withDev fun d => d.send q.link (q.replyMsg status 0 0 s.fuses.position) := by
  have hlink : q.link ≠ trolleyLink := Nat.ne_of_lt hq.link
  rw [State.answer, if_neg hlink, hq.source]
  dsimp only
  rw [State.withDev_withDev]
  refine State.withDev_congr ?_
  rw [Dev.circulateReply_of_refused hst, if_neg (by simp [hq.late]), Dev.slip, if_pos (by simp [hq.traced]), Dev.reply_of_up hup]

/-- What a fault of a patron that is not bound, or not active, leaves in its registers (R188). -/
def Dev.patronFault (d : Dev) (p code : Nat) : Dev :=
  (if code = 2 then d.bump (F.TF_COUNT_COUNT p 0) else d).wr (F.PATRON_STATUS_LAST_TF p) code

theorem Dev.patronFault_kept {β : Type} (g : Dev → β) (hg : ∀ (e : Dev) m, g { e with fields := m } = g e) (d : Dev) (p code : Nat) :
    g (d.patronFault p code) = g d := by
  rw [Dev.patronFault]
  split
  · exact (hg _ _).trans (hg d _)
  · exact hg d _

theorem Dev.tfault_eq (hoff : d.countersOff = true) {code : Nat} (hcode : code = 1 ∨ code = 2) (p level cardDpa wing kind loc addr : Nat) (write : Bool) :
    d.tfault p code level cardDpa wing kind loc addr write = d.patronFault p code := by
  have hkept : ∀ c, (d.patronFault p c).countersOff = true := fun c => (Dev.patronFault_kept Dev.countersOff (fun _ _ => rfl) d p c).trans hoff
  rcases hcode with rfl | rfl
  · exact Eq.trans (b := (d.patronFault p 1).count 0x0407 wing (some p)) rfl (Dev.count_of_countersOff (hkept 1) _ _ _)
  · exact Eq.trans (b := (d.patronFault p 2).count 0x0407 wing (some p)) rfl (Dev.count_of_countersOff (hkept 2) _ _ _)

theorem tfKeys_ne (p : Nat) : (F.TF_COUNT_COUNT p 0).key ≠ (F.PATRON_STATUS_LAST_TF p).key := by
  simp only [Field.key, F.TF_COUNT_COUNT, F.PATRON_STATUS_LAST_TF]
  omega

theorem Dev.keeps_patronFault_unbound (d : Dev) (p : Nat) : d.Keeps [F.PATRON_STATUS_LAST_TF p] (d.patronFault p 1) := Dev.keeps_wr (by simp) 1

theorem Dev.keeps_patronFault (d : Dev) (p code : Nat) : d.Keeps [F.PATRON_STATUS_LAST_TF p, F.TF_COUNT_COUNT p 0] (d.patronFault p code) := by
  rw [Dev.patronFault]
  split
  · exact Dev.Keeps.trans (Dev.keeps_bump (f := F.TF_COUNT_COUNT p 0) (by simp)) (Dev.keeps_wr (by simp) code)
  · exact Dev.keeps_wr (by simp) code

theorem Dev.rd_patronFault {code : Nat} (hcode : code = 1 ∨ code = 2) (p : Nat) : (d.patronFault p code).rd (F.PATRON_STATUS_LAST_TF p) = code :=
  (Dev.rd_wr_same _ _ code).trans (by rcases hcode with rfl | rfl <;> rfl)

theorem Dev.rd_patronFault_count (d : Dev) (p : Nat) :
    (d.patronFault p 2).rd (F.TF_COUNT_COUNT p 0) = min (d.rd (F.TF_COUNT_COUNT p 0) + 1) (2 ^ 32 - 1) :=
  (Dev.rd_wr_ne _ (tfKeys_ne p) 2).trans (Dev.rd_bump_same d _)

/-- The STATE of a link is no register of a patron. -/
theorem Dev.linkUp_patronFault (l p code : Nat) : (d.patronFault p code).linkUp l = d.linkUp l := by
  have hkept : (d.patronFault p code).rd (stateField l) = d.rd (stateField l) := by
    refine Dev.keeps_patronFault d p code _ ?_
    simp only [List.map_cons, List.map_nil, List.mem_cons, List.not_mem_nil, or_false, not_or, Field.key, stateField, F.PORT_LINK_STATE,
      F.PATRON_STATUS_LAST_TF, F.TF_COUNT_COUNT]
    omega
  exact congrArg (fun v => decide (v = 7)) hkept

theorem State.fail_eq (hq : q.Plain) (hoff : s.dev.countersOff = true) (hup : s.dev.linkUp q.link = true) {code : Nat} (hcode : code = 1 ∨ code = 2) :
    s.fail q code 0 0 {} = s.withDev fun d => (d.patronFault q.msg.patron code).send q.link (q.replyMsg code 0 0 s.fuses.position) := by
  have hlink : q.link ≠ trolleyLink := Nat.ne_of_lt hq.link
  have hfault : (s.withDev fun d => d.tfault q.msg.patron code 0 0 q.wing 1 (q.link / 4 + q.link % 4 * 64) q.msg.addr.toNat
      ((operationOf q.msg) ≠ 1)) = s.withDev fun d => d.patronFault q.msg.patron code := State.withDev_congr (Dev.tfault_eq hoff hcode ..)
  rw [State.fail, if_neg hlink, hfault, State.answer_of_refused hq ((Dev.linkUp_patronFault ..).trans hup) (by omega), State.withDev_withDev]
  rfl

theorem Dev.badMessage_eq (hoff : d.countersOff = true) (l slot : Nat) :
    d.badMessage l slot = d.raise .linkProtocol (Src.link (l / 4) (l % 4)) [(slot, 4)] := by
  rw [Dev.badMessage, Dev.count_of_countersOff hoff]

theorem Dev.raise_raised_length (d : Dev) (t : FaultType) (source : Nat) (detail : List (Nat × Nat)) :
    (d.raise t source detail).raised.length = d.raised.length + 1 := by
  simp [Dev.raise]

end Answers

/-! ## A memory request of a host -/

section Request

variable {s : State} {link : Nat} {m : Msg} {env : AccessEnv}

/-- The request that a message begins. -/
def State.arriving (s : State) (link : Nat) (m : Msg) (env : AccessEnv) : Req :=
  { serial := s.dev.serial, link := link, msg := m, env := env, level := s.dev.appliedLevel link, arrived := s.dev.time }

/-- The serial number of an arriving request taken. -/
def State.serialTaken (s : State) : State := s.withDev fun d => { d with serial := d.serial + 1 }

theorem State.request_of_down (h : s.dev.linkUp link = false) : s.request link m env = s.serialTaken := if_pos (ne_true_of_eq_false h)

variable (hup : s.dev.linkUp link = true)
include hup

theorem State.request_of_peer (hpeer : s.dev.peerPort (link / 4) = true) :
    s.request link m env = s.serialTaken.withDev fun d => d.badMessage link 0 := (if_neg (not_not_intro hup)).trans (if_pos hpeer)

variable (hpeer : s.dev.peerPort (link / 4) = false)
include hpeer

theorem State.request_of_unbound (hbound : s.bound link m.patron = false) : s.request link m env =
    (s.serialTaken.fail (s.arriving link m env) 1 0 0 {}).withDev fun d => d.raise .patronNotBound (Src.link (link / 4) (link % 4)) :=
  (if_neg (not_not_intro hup)).trans ((if_neg (ne_true_of_eq_false hpeer)).trans (if_pos (ne_true_of_eq_false hbound)))

variable (hbound : s.bound link m.patron = true)
include hbound

theorem State.request_of_inactive (hactive : s.dev.flag (F.PATRON_STATUS_ACTIVE m.patron) = false) : s.request link m env =
    s.serialTaken.fail (s.arriving link m env) 2 0 0 {} :=
  (if_neg (not_not_intro hup)).trans ((if_neg (ne_true_of_eq_false hpeer)).trans ((if_neg (not_not_intro hbound)).trans
    (if_pos (ne_true_of_eq_false hactive))))

theorem State.request_of_active (hactive : s.dev.flag (F.PATRON_STATUS_ACTIVE m.patron) = true) (htrace : s.dev.rd F.TRACE_CTL_EN = 0) :
    s.request link m env = if fieldsBad m then s.serialTaken.answer (s.arriving link m env) 0x12 0 0 {}
      else s.serialTaken.enter (s.arriving link m env) := by
  have hoff : s.serialTaken.dev.traceStep (link / 4) = (false, s.serialTaken.dev) := if_pos (by
    have hread : s.serialTaken.dev.rd F.TRACE_CTL_EN = 0 := htrace
    simp [Dev.flag_eq, hread])
  refine (if_neg (not_not_intro hup)).trans ((if_neg (ne_true_of_eq_false hpeer)).trans ((if_neg (not_not_intro hbound)).trans
    ((if_neg (not_not_intro hactive)).trans ?_)))
  have hbody : ∀ tr : Bool × Dev, tr = (false, s.serialTaken.dev) → (if fieldsBad m then State.answer { s.serialTaken with dev := tr.2 }
      { s.arriving link m env with traced := tr.1 } 0x12 0 0 {} else State.enter { s.serialTaken with dev := tr.2 }
      { s.arriving link m env with traced := tr.1 }) = if fieldsBad m then s.serialTaken.answer (s.arriving link m env) 0x12 0 0 {}
      else s.serialTaken.enter (s.arriving link m env) := by
    rintro _ rfl
    rfl
  exact hbody _ hoff

end Request

/-! ## What the checks of a request leave -/

section Checked

variable {s : State} {link : Fin 256} {m : Msg} {env : AccessEnv} (hoff : s.dev.countersOff = true) (hup : s.dev.linkUp link = true)

theorem State.arriving_plain (hlate : env.late = false) : (s.arriving link m env).Plain := ⟨link.isLt, rfl, hlate, rfl⟩

/-- The serial number and a reply alone: no register is touched. -/
theorem Dev.keeps_send (d : Dev) (l : Nat) (m : Msg) (fs : List Field) : d.Keeps fs (d.send l m) := Dev.keeps_of_fields rfl

section

include hoff hup

theorem State.request_dropped (hpeer : s.dev.peerPort (link / 4) = true) : s.frame (s.request link m env) [] ∧
    (s.request link m env).dev.out = s.dev.out ∧ (s.request link m env).dev.raised.length = s.dev.raised.length + 1 := by
  rw [State.request_of_peer hup hpeer, State.serialTaken, State.withDev_withDev, State.withDev_dev, Dev.badMessage_eq (by exact hoff)]
  refine ⟨State.frame_withDev ?_, rfl, Dev.raise_raised_length ..⟩
  rw [Dev.badMessage_eq (by exact hoff)]
  exact Dev.keeps_of_fields rfl

end

variable (hlate : env.late = false) (hpeer : s.dev.peerPort (link / 4) = false)

/-- A request of a patron that is not bound to its link. -/
def Dev.unboundAnswered (d : Dev) (l : Nat) (p : Nat) (m : Msg) : Dev :=
  ((({ d with serial := d.serial + 1 } : Dev).patronFault p 1).send l m).raise .patronNotBound (Src.link (l / 4) (l % 4))

/-- A request of a patron that is not active. -/
def Dev.inactiveAnswered (d : Dev) (l : Nat) (p : Nat) (m : Msg) : Dev := (({ d with serial := d.serial + 1 } : Dev).patronFault p 2).send l m

section

include hoff hup hlate hpeer

theorem State.request_unbound (hbound : s.bound link m.patron = false) : s.request link m env =
    s.withDev fun d => d.unboundAnswered link m.patron ((s.arriving link m env).replyMsg 1 0 0 s.fuses.position) := by
  rw [State.request_of_unbound hup hpeer hbound, State.fail_eq (State.arriving_plain hlate) (by exact hoff) (by exact hup) (Or.inl rfl), State.serialTaken,
    State.withDev_withDev, State.withDev_withDev]
  rfl

variable (hbound : s.bound link m.patron = true)
include hbound

theorem State.request_inactive (hactive : s.dev.flag (F.PATRON_STATUS_ACTIVE m.patron) = false) : s.request link m env =
    s.withDev fun d => d.inactiveAnswered link m.patron ((s.arriving link m env).replyMsg 2 0 0 s.fuses.position) := by
  rw [State.request_of_inactive hup hpeer hbound hactive, State.fail_eq (State.arriving_plain hlate) (by exact hoff) (by exact hup) (Or.inr rfl),
    State.serialTaken, State.withDev_withDev]
  rfl

end

end Checked

section Answered

variable (d : Dev) (l p : Nat) (m : Msg)

theorem Dev.unboundAnswered_reads : d.Keeps [F.PATRON_STATUS_LAST_TF p] (d.unboundAnswered l p m) ∧ (d.unboundAnswered l p m).out = d.out ++ [(l, m)] ∧
    (d.unboundAnswered l p m).rd (F.PATRON_STATUS_LAST_TF p) = 1 := by
  have hout := Dev.patronFault_kept Dev.out (fun _ _ => rfl) { d with serial := d.serial + 1 } p 1
  have hread := Dev.rd_patronFault (d := { d with serial := d.serial + 1 }) (Or.inl rfl) p
  refine ⟨?_, congrArg (· ++ [(l, m)]) hout, hread⟩
  exact Dev.Keeps.trans (e := { d with serial := d.serial + 1 }) (Dev.keeps_of_fields rfl)
    (Dev.Keeps.trans (Dev.keeps_patronFault_unbound _ p) (Dev.keeps_of_fields rfl))

theorem Dev.inactiveAnswered_reads : d.Keeps [F.PATRON_STATUS_LAST_TF p, F.TF_COUNT_COUNT p 0] (d.inactiveAnswered l p m) ∧
    (d.inactiveAnswered l p m).out = d.out ++ [(l, m)] ∧ (d.inactiveAnswered l p m).rd (F.PATRON_STATUS_LAST_TF p) = 2 ∧
    (d.inactiveAnswered l p m).rd (F.TF_COUNT_COUNT p 0) = min (d.rd (F.TF_COUNT_COUNT p 0) + 1) (2 ^ 32 - 1) := by
  have hout := Dev.patronFault_kept Dev.out (fun _ _ => rfl) { d with serial := d.serial + 1 } p 2
  have hread := Dev.rd_patronFault (d := { d with serial := d.serial + 1 }) (Or.inr rfl) p
  have hcount := Dev.rd_patronFault_count { d with serial := d.serial + 1 } p
  refine ⟨?_, congrArg (· ++ [(l, m)]) hout, hread, hcount⟩
  exact Dev.Keeps.trans (e := { d with serial := d.serial + 1 }) (Dev.keeps_of_fields rfl)
    (Dev.Keeps.trans (Dev.keeps_patronFault _ p 2) (Dev.keeps_of_fields rfl))

/-- A fence of a patron that is not bound to its link. -/
def Dev.unboundFence : Dev := ((d.send l m).patronFault p 1).raise .patronNotBound (Src.link (l / 4) (l % 4))

/-- A fence of a patron that is not active. -/
def Dev.inactiveFence : Dev := (d.send l m).patronFault p 2

theorem Dev.unboundFence_reads : d.Keeps [F.PATRON_STATUS_LAST_TF p] (d.unboundFence l p m) ∧ (d.unboundFence l p m).out = d.out ++ [(l, m)] :=
  ⟨Dev.Keeps.trans (d.keeps_send l m _) (Dev.Keeps.trans (Dev.keeps_patronFault_unbound _ p) (Dev.keeps_of_fields rfl)),
    Dev.patronFault_kept Dev.out (fun _ _ => rfl) (d.send l m) p 1⟩

theorem Dev.inactiveFence_reads : d.Keeps [F.PATRON_STATUS_LAST_TF p, F.TF_COUNT_COUNT p 0] (d.inactiveFence l p m) ∧
    (d.inactiveFence l p m).out = d.out ++ [(l, m)] :=
  ⟨Dev.Keeps.trans (d.keeps_send l m _) (Dev.keeps_patronFault _ p 2), Dev.patronFault_kept Dev.out (fun _ _ => rfl) (d.send l m) p 2⟩

end Answered

/-! ## A fence -/

section Fence

variable {s : State} {link : Fin 256} {m : Msg}

theorem State.fence_of_down (h : s.dev.linkUp link = false) : s.fence link m = s := if_pos (ne_true_of_eq_false h)

variable (hup : s.dev.linkUp link = true)

section

include hup

/-- A fence answered, as every refusal of it is. -/
theorem State.fenceReply_eq (st : Nat) : (s.withDev fun d => d.reply link { op := 0x10, status := st, tag := m.tag }) =
    s.withDev fun d => d.send link { op := 0x10, status := st, tag := m.tag } := State.withDev_congr (Dev.reply_of_up hup _)

theorem State.fence_of_peer (hpeer : s.dev.peerPort (link / 4) = true) : s.fence link m = s.withDev fun d => d.badMessage link 0 :=
  (if_neg (not_not_intro hup)).trans (if_pos hpeer)

variable (hpeer : s.dev.peerPort (link / 4) = false)
include hpeer

theorem State.fence_of_unbound (hoff : s.dev.countersOff = true) (hbound : s.bound link m.patron = false) : s.fence link m =
    s.withDev fun d => d.unboundFence link m.patron { op := 0x10, status := 1, tag := m.tag } := by
  refine (if_neg (not_not_intro hup)).trans ((if_neg (ne_true_of_eq_false hpeer)).trans ((if_pos (ne_true_of_eq_false hbound)).trans ?_))
  dsimp only
  rw [State.fenceReply_eq hup, State.withDev_withDev]
  refine State.withDev_congr (congrArg (fun d : Dev => d.raise .patronNotBound (Src.link (link / 4) (link % 4))) ?_)
  exact Dev.count_of_countersOff (d := (s.dev.send link { op := 0x10, status := 1, tag := m.tag }).patronFault m.patron 1) hoff _ _ _

variable (hbound : s.bound link m.patron = true)
include hbound

theorem State.fence_of_inactive (hoff : s.dev.countersOff = true) (hactive : s.dev.flag (F.PATRON_STATUS_ACTIVE m.patron) = false) : s.fence link m =
    s.withDev fun d => d.inactiveFence link m.patron { op := 0x10, status := 2, tag := m.tag } := by
  refine (if_neg (not_not_intro hup)).trans ((if_neg (ne_true_of_eq_false hpeer)).trans ((if_neg (not_not_intro hbound)).trans
    ((if_pos (ne_true_of_eq_false hactive)).trans ?_)))
  dsimp only
  rw [State.fenceReply_eq hup, State.withDev_withDev]
  exact State.withDev_congr (Dev.count_of_countersOff (d := s.dev.inactiveFence link m.patron { op := 0x10, status := 2, tag := m.tag }) hoff _ _ _)

variable (hactive : s.dev.flag (F.PATRON_STATUS_ACTIVE m.patron) = true)
include hactive

theorem State.fence_of_bad (hbad : m.reserved = true ∨ m.addr ≠ 0 ∨ m.arg ≠ 0) : s.fence link m =
    s.withDev fun d => d.send link { op := 0x10, status := 0x12, tag := m.tag } := by
  have hfields : (m.reserved || m.addr ≠ 0 || m.arg ≠ 0) = true := by simpa [or_assoc] using hbad
  exact (if_neg (not_not_intro hup)).trans ((if_neg (ne_true_of_eq_false hpeer)).trans ((if_neg (not_not_intro hbound)).trans
    ((if_neg (not_not_intro hactive)).trans ((if_pos hfields).trans (State.fenceReply_eq hup 0x12)))))

/-- A fence with nothing before it, answered at once (R350). -/
def Dev.fenceDone (d : Dev) (l : Nat) (m : Msg) : Dev := ({ d with fences := [], serial := d.serial + 1 } : Dev).send l { op := 0x10, tag := m.tag }

omit hup hpeer hbound hactive in
theorem Dev.pumpFences_single {d : Dev} (hwaiting : d.waiting = []) (hfence : d.linkUp link = true) (n : Nat) :
    ({ d with fences := [{ link := link, msg := m, serial := n }], serial := n + 1 } : Dev).pumpFences =
      ({ d with fences := [], serial := n + 1 } : Dev).send link { op := 0x10, tag := m.tag } := by
  have hready : ({ d with fences := [{ link := link, msg := m, serial := n }], serial := n + 1 } : Dev).waiting = [] := hwaiting
  rw [Dev.pumpFences, hready]
  exact Dev.reply_of_up (d := { d with fences := [], serial := n + 1 }) hfence _

theorem State.fence_of_first (hreserved : m.reserved = false) (haddr : m.addr = 0) (harg : m.arg = 0) (hwaiting : s.dev.waiting = [])
    (hfences : s.dev.fences = []) : s.fence link m = s.withDev fun d => d.fenceDone link m := by
  have hfields : ¬ (m.reserved || m.addr ≠ 0 || m.arg ≠ 0) = true := by simp [hreserved, haddr, harg]
  refine (if_neg (not_not_intro hup)).trans ((if_neg (ne_true_of_eq_false hpeer)).trans ((if_neg (not_not_intro hbound)).trans
    ((if_neg (not_not_intro hactive)).trans ((if_neg hfields).trans ?_))))
  refine State.withDev_congr ?_
  rw [hfences, List.nil_append]
  exact Dev.pumpFences_single hwaiting hup s.dev.serial

end

end Fence

/-! ## The obligation -/

/-- The four memory requests of a host. -/
theorem exec_memory (op : Fin 4) (link : Fin 256) (msg : Msg) (env : AccessEnv) (s : State) :
    exec (if op = 0 then Instr.load link msg env else if op = 1 then .store link msg env
      else if op = 2 then .storeMasked link msg env else .atomic link msg env) s = .next (s.request link { msg with op := op.val + 1 } env) := by
  match op with
  | 0 => rfl
  | 1 => rfl
  | 2 => rfl
  | 3 => rfl

/-- Settles O42. -/
theorem requestsAreChecked : Obligations.RequestsAreChecked := by
  unfold Obligations.RequestsAreChecked
  intro s link msg env hoff hlate p up peer bound active u
  refine ⟨fun op => ?_, ?_⟩
  · intro i m q answered
    have hexec : exec i s = .next (s.request link m env) := exec_memory op link msg env s
    rw [hexec]
    refine ⟨fun hup => congrArg Host.Outcome.next (State.request_of_down hup), fun hup hpeer => ⟨_, rfl, State.request_dropped hoff hup hpeer⟩,
      fun hup hpeer hbound => ?_, fun hup hpeer hbound hactive => ?_, fun hup hpeer hbound hactive hbad htrace => ?_,
      fun hup hpeer hbound hactive hgood htrace => ?_⟩
    · obtain ⟨hkeeps, hout, hread⟩ := s.dev.unboundAnswered_reads link m.patron (q.replyMsg 1 0 0 s.fuses.position)
      exact ⟨_, congrArg Host.Outcome.next (State.request_unbound hoff hup hlate hpeer hbound), State.frame_withDev hkeeps, hout, hread⟩
    · obtain ⟨hkeeps, hout, hread, hcount⟩ := s.dev.inactiveAnswered_reads link m.patron (q.replyMsg 2 0 0 s.fuses.position)
      exact ⟨_, congrArg Host.Outcome.next (State.request_inactive hoff hup hlate hpeer hbound hactive), State.frame_withDev hkeeps, hout, hread, hcount⟩
    · have heq := (State.request_of_active (m := m) (env := env) hup hpeer hbound hactive htrace).trans ((if_pos hbad).trans
        (State.answer_of_refused (s := s.serialTaken) (q := q) (State.arriving_plain hlate) hup (status := 0x12) (by decide)))
      refine ⟨_, congrArg Host.Outcome.next heq, State.frame_withDev (s := s.serialTaken) ?_, rfl⟩
      exact Dev.keeps_of_fields rfl
    · exact congrArg Host.Outcome.next ((State.request_of_active (m := m) (env := env) hup hpeer hbound hactive htrace).trans (if_neg (ne_true_of_eq_false hgood)))
  · intro fenced
    refine ⟨fun hup => congrArg Host.Outcome.next (State.fence_of_down hup), fun hup hpeer => ?_, fun hup hpeer hbound => ?_,
      fun hup hpeer hbound hactive => ?_, fun hup hpeer hbound hactive hbad => ?_,
      fun hup hpeer hbound hactive hreserved haddr harg hwaiting hfences => ?_⟩
    · have heq : (s.withDev fun d => d.badMessage link 0) = s.withDev fun d => d.raise .linkProtocol (Src.link (link / 4) (link % 4)) [(0, 4)] :=
        State.withDev_congr (Dev.badMessage_eq hoff _ _)
      exact ⟨_, congrArg Host.Outcome.next ((State.fence_of_peer hup hpeer).trans heq), State.frame_withDev (Dev.keeps_of_fields rfl), rfl,
        Dev.raise_raised_length ..⟩
    · obtain ⟨hkeeps, hout⟩ := s.dev.unboundFence_reads link p { op := 0x10, status := 1, tag := msg.tag }
      exact ⟨_, congrArg Host.Outcome.next (State.fence_of_unbound hup hpeer hoff hbound), State.frame_withDev hkeeps, hout⟩
    · obtain ⟨hkeeps, hout⟩ := s.dev.inactiveFence_reads link p { op := 0x10, status := 2, tag := msg.tag }
      exact ⟨_, congrArg Host.Outcome.next (State.fence_of_inactive hup hpeer hbound hoff hactive), State.frame_withDev hkeeps, hout⟩
    · exact ⟨_, congrArg Host.Outcome.next (State.fence_of_bad hup hpeer hbound hactive hbad), State.frame_withDev (Dev.keeps_of_fields rfl), rfl⟩
    · exact ⟨_, congrArg Host.Outcome.next (State.fence_of_first hup hpeer hbound hactive hreserved haddr harg hwaiting hfences),
        State.frame_withDev (Dev.keeps_of_fields rfl), rfl, rfl⟩

end Sys2Proof.Machine

end

section
/-!
The rights and states of a card decide an access and its answer (R174, R176, R188, Table 7.16).
-/

namespace Sys2Proof.Machine

open Sys2Proof

/-! ## Messages to the hosts are added, never taken back -/

/-- Every message that waits to be sent still waits. -/
def Dev.OutGrows (d e : Dev) : Prop := d.out ⊆ e.out

section OutGrows

variable {d e f : Dev}

theorem Dev.OutGrows.trans (h : d.OutGrows e) (h' : e.OutGrows f) : d.OutGrows f := List.Subset.trans h h'

theorem Dev.outGrows_of_eq (h : e.out = d.out) : d.OutGrows e := fun _ hx => h ▸ hx

theorem Dev.outGrows_send (d : Dev) (l : Nat) (m : Msg) : d.OutGrows (d.send l m) := List.subset_append_left _ _

theorem Dev.outGrows_hostOp (d : Dev) (link patron : Nat) (purpose : HostFor) (lines : Nat) (m : Msg) :
    d.OutGrows (d.hostOp link patron purpose lines m) := List.subset_append_left _ _

theorem Dev.outGrows_interrupt (d : Dev) (k causes : Nat) : d.OutGrows (d.interrupt k causes) := by
  rw [Dev.interrupt]
  split
  · exact Dev.outGrows_of_eq rfl
  · rw [Dev.interruptMsg]
    split
    · exact Dev.outGrows_send _ _ _
    · exact Dev.outGrows_send _ _ _

theorem Dev.outGrows_houseDrop (d : Dev) (r : Nat) (rec : BitVec 512) (link : Nat) : d.OutGrows (d.houseDrop r rec link) := by
  rw [Dev.houseDrop]
  split
  · split
    · exact Dev.outGrows_send _ _ _
    · exact Dev.outGrows_of_eq rfl
  · exact Dev.outGrows_of_eq rfl

theorem Dev.outGrows_houseStore (d : Dev) (r : Nat) (rec : BitVec 512) : d.OutGrows (d.houseStore r rec) := by
  rw [Dev.houseStore]
  generalize hfirst : d.hostOp d.houseLink 0 (.house r) 0 _ = e
  have he : d.OutGrows e := by
    rw [← hfirst]
    exact Dev.outGrows_hostOp ..
  generalize hsecond : Dev.hostOp _ _ 0 (.house r) 0 _ = f
  have hf : d.OutGrows f := by
    rw [← hsecond]
    exact he.trans (Dev.outGrows_hostOp (e.wr _ _) ..)
  split
  · exact hf.trans (Dev.outGrows_interrupt f houseInt _)
  · exact hf

theorem Dev.outGrows_houseRecord (d : Dev) (r : Nat) (rec : BitVec 512) (link : Nat) : d.OutGrows (d.houseRecord r rec link) := by
  have hhold : ∀ e : Dev, e.OutGrows (if (e.houseRing r).held.length < 16 then e.setHouse r fun h => { h with held := h.held ++ [(rec, link)] }
      else e.houseDrop r rec link) := fun e => by
    split
    · exact Dev.outGrows_of_eq rfl
    · exact Dev.outGrows_houseDrop e r rec link
  rw [Dev.houseRecord]
  split
  · split
    · refine Dev.OutGrows.trans ?_ (hhold _)
      split
      · exact Dev.outGrows_of_eq rfl
      · exact Dev.outGrows_hostOp d _ _ _ _ _
    · exact Dev.outGrows_houseStore d r rec
  · split
    · exact hhold d
    · exact Dev.outGrows_houseDrop d r rec link

theorem Dev.outGrows_perfStep (fuel : Nat) (d : Dev) (c : Nat) : d.OutGrows (d.perfStep fuel c) := by
  induction fuel generalizing d c with
  | zero => exact Dev.outGrows_of_eq rfl
  | succ fuel ih =>
    rw [Dev.perfStep]
    dsimp only
    split
    · exact Dev.outGrows_of_eq rfl
    · generalize hbumped : Dev.bump _ F.PERF_STATUS_OVERFLOWS = e
      have he : d.OutGrows e := by
        rw [← hbumped]
        exact Dev.outGrows_of_eq rfl
      split
      · exact (he.trans (Dev.outGrows_houseRecord e 1 _ 0)).trans (Dev.outGrows_interrupt _ houseInt _)
      · split
        · exact he.trans (ih e _)
        · exact he

theorem Dev.outGrows_count (d : Dev) (ev unit : Nat) (patron : Option Nat) : d.OutGrows (d.count ev unit patron) := by
  rw [Dev.count]
  split
  · exact Dev.outGrows_of_eq rfl
  · exact List.foldlRecOn _ _ (motive := d.OutGrows) (Dev.outGrows_of_eq rfl) fun e he x _ => he.trans (Dev.outGrows_perfStep 512 e x.1)

theorem Dev.outGrows_windowMiss (d : Dev) (g : Nat) : d.OutGrows (d.windowMiss g) := by
  rw [Dev.windowMiss]
  dsimp only [Dev.raiseIf]
  split <;> exact Dev.outGrows_of_eq rfl

theorem Dev.outGrows_latencyMiss (d : Dev) (p port cls : Nat) : d.OutGrows (d.latencyMiss p port cls) := by
  rw [Dev.latencyMiss]
  split
  · refine Dev.OutGrows.trans ?_ (Dev.outGrows_windowMiss _ _)
    refine Dev.OutGrows.trans (e := (d.bump (F.MISS_LATENCY_COUNT (d.rd (F.PATRON_GROUP_GROUP p)))).count 0x050A port (some p)) ?_ (Dev.outGrows_of_eq rfl)
    exact Dev.OutGrows.trans (e := d.bump (F.MISS_LATENCY_COUNT (d.rd (F.PATRON_GROUP_GROUP p)))) (Dev.outGrows_of_eq rfl) (Dev.outGrows_count ..)
  · exact Dev.outGrows_of_eq rfl

theorem Dev.outGrows_slip (d : Dev) (q : Req) (status : Nat) (info : AccInfo) (forwarded : Bool) : d.OutGrows (d.slip q status info forwarded) := by
  rw [Dev.slip]
  split
  · exact Dev.outGrows_of_eq rfl
  · exact Dev.outGrows_houseRecord ..

theorem Dev.circulateReply_out (d : Dev) (q : Req) (status : Nat) (info : AccInfo) : (d.circulateReply q status info).out = d.out := by
  rw [Dev.circulateReply]
  split
  · rfl
  · split <;> split <;> rfl

end OutGrows

/-- The answer of a host's own request goes out on its link. -/
theorem State.mem_out_answer {s : State} {q : Req} (hlink : q.link < 256) (hsource : q.source = none) (hup : s.dev.linkUp q.link = true)
    (status : Nat) (data : LineData) (value : BitVec 64) (info : AccInfo) :
    (q.link, q.replyMsg status data value s.fuses.position) ∈ (s.answer q status data value info).dev.out := by
  have hhost : q.link ≠ trolleyLink := Nat.ne_of_lt hlink
  rw [State.answer, if_neg hhost, hsource]
  dsimp only
  rw [State.withDev_withDev, State.withDev_dev, Dev.reply_of_up hup]
  generalize hsent : s.dev.send q.link (q.replyMsg status data value s.fuses.position) = d
  have hmem : (q.link, q.replyMsg status data value s.fuses.position) ∈ d.out := by
    rw [← hsent]
    exact List.mem_append_right _ List.mem_cons_self
  refine Dev.outGrows_slip _ _ _ _ _ ?_
  split
  · exact Dev.outGrows_latencyMiss _ _ _ _ ((Dev.circulateReply_out d q status info).symm ▸ hmem)
  · exact (Dev.circulateReply_out d q status info).symm ▸ hmem

/-! ## A card decides an access -/

section Access

variable {s : State} {a : Access} {c : Card} {cd level : Nat}

theorem State.access_fuses (s : State) (a : Access) (c : Card) (cd level : Nat) : (s.access a c cd level).2.2.fuses = s.fuses :=
  State.access_kept (P := fun t => t.fuses = s.fuses) (fun _ _ h => h) (fun _ _ _ h => h) rfl a c cd level

variable (h8 : cardState c ≠ 8)
include h8

theorem State.access_of_denied (hdenied : cardPermits c a.kind.need a.trolley = false) : s.access a c cd level = (.fault 4 level, {}, s) :=
  (if_neg h8).trans (if_pos (ne_true_of_eq_false hdenied))

variable (hpermits : cardPermits c a.kind.need a.trolley = true)
include hpermits

theorem State.access_of_remote (h7 : cardState c = 7) : s.access a c cd level = (.remote (cardMember c), {}, s) :=
  (if_neg h8).trans ((if_neg (not_not_intro hpermits)).trans (if_pos h7))

theorem State.access_of_materialising (h9 : cardState c = 9) : s.access a c cd level = (.wait (.card cd), {}, s) :=
  (if_neg h8).trans ((if_neg (not_not_intro hpermits)).trans ((if_neg (by omega)).trans (if_pos h9)))

theorem State.access_of_volume (h4 : cardState c = 4) (hneed : a.kind.need ≠ 1) : s.access a c cd level = (.fault 5 level, {}, s) :=
  (if_neg h8).trans ((if_neg (not_not_intro hpermits)).trans ((if_neg (by omega)).trans ((if_neg (by omega)).trans (if_pos ⟨h4, hneed⟩))))

theorem State.access_of_blank (h2 : cardState c = 2) (hneed : a.kind.need = 1) (hoff : s.dev.countersOff = true) :
    ∃ info, s.access a c cd level = (.read 0 false, info, s) := by
  have h4 : ¬ (cardState c = 4 ∧ a.kind.need ≠ 1) := fun h => absurd (h2.symm.trans h.1) (by decide)
  rw [State.access]
  dsimp only
  rw [if_neg h8, if_neg (not_not_intro hpermits), if_neg (by omega : ¬ cardState c = 7), if_neg (by omega : ¬ cardState c = 9), if_neg h4, if_pos h2,
    if_pos hneed, State.withDev_eq_self (Dev.count_of_countersOff hoff ..)]
  exact ⟨_, rfl⟩

end Access

/-- Settles O43. -/
theorem cardsDecideAccesses : Obligations.CardsDecideAccesses := by
  unfold Obligations.CardsDecideAccesses
  refine ⟨fun s a c cd level h8 => ⟨State.access_of_denied h8, fun hpermits => ⟨State.access_of_remote h8 hpermits,
    State.access_of_materialising h8 hpermits, State.access_of_volume h8 hpermits, fun h2 hneed hoff => ?_⟩⟩,
    fun s q c cd level hsealed hsource hlink => ?_⟩
  · obtain ⟨info, heq⟩ := State.access_of_blank (cd := cd) (level := level) h8 hpermits h2 hneed hoff
    rw [heq]
    exact ⟨rfl, rfl⟩
  · have hopen : ∀ b : Prop, ¬ (s.dev.flag (F.PATRON_CTL_SEALED q.msg.patron) = true ∧ b) := fun b h => ne_true_of_eq_false hsealed h.1
    have hfuses := State.access_fuses s q.access c cd level
    refine ⟨fun data poison info v heq hup => ?_, fun target info v heq hup => ?_, fun code lv info v heq => ?_⟩
    · rw [heq] at hfuses
      rw [State.useCard, if_neg (hopen _), heq]
      exact ⟨_, rfl, hfuses ▸ State.mem_out_answer hlink hsource hup ..⟩
    · rw [heq] at hfuses
      rw [State.useCard, if_neg (hopen _), heq]
      exact ⟨_, rfl, hfuses ▸ State.mem_out_answer hlink hsource hup ..⟩
    · rw [State.useCard, if_neg (hopen _), heq]

end Sys2Proof.Machine

end

section
/-!
Messages between devices and answers of hosts (R340, R352, R353, R361, R366 to R368, R383).
-/

namespace Sys2Proof.Machine

open Sys2Proof

/-! ## Messages that may not come this way -/

section Dropped

variable {s : State} {link : Fin 256}

/-- What becomes of a message that is discarded: LINK_PROTOCOL is raised, no register is touched. -/
def State.dropped (s t : State) : Prop := s.frame t [] ∧ t.dev.raised.length = s.dev.raised.length + 1

theorem State.dropped_badMessage (hoff : s.dev.countersOff = true) : s.dropped (s.withDev fun d => d.badMessage link 0) := by
  rw [State.withDev_congr (g := fun d => d.raise .linkProtocol (Src.link (link / 4) (link % 4)) [(0, 4)]) (Dev.badMessage_eq hoff ..)]
  exact ⟨State.frame_withDev (Dev.keeps_of_fields rfl), Dev.raise_raised_length ..⟩

end Dropped

/-! ## Answers of the host -/

section Host

variable {s : State} {link : Fin 256} {msg : Msg}

theorem State.hostSide_of_down (h : s.dev.linkUp link = false) : s.hostRsp link msg = s ∧ s.hostData link msg = s :=
  ⟨if_pos (ne_true_of_eq_false h), if_pos (ne_true_of_eq_false h)⟩

variable (hup : s.dev.linkUp link = true)
include hup

theorem State.hostSide_of_bad (hbad : s.dev.peerPort (link / 4) = true ∨ msg.reserved = true) :
    s.hostRsp link msg = (s.withDev fun d => d.badMessage link 0) ∧ s.hostData link msg = s.withDev fun d => d.badMessage link 0 :=
  ⟨(if_neg (not_not_intro hup)).trans (if_pos hbad), (if_neg (not_not_intro hup)).trans (if_pos hbad)⟩

variable (hpeer : s.dev.peerPort (link / 4) = false) (hreserved : msg.reserved = false)
include hpeer hreserved

theorem State.hostRsp_eq : s.hostRsp link msg = s.withDev fun d => (d.hostRsp link msg).2 :=
  (if_neg (not_not_intro hup)).trans (if_neg (by simp [hpeer, hreserved]))

/-- A line of a host read, but one of an evacuation's list, is the unit's own. -/
theorem State.hostData_eq {o : Option HostOp} {d : Dev} (h : s.dev.hostData link msg = (o, d)) (hevac : ∀ x, o = some x → x.purpose ≠ .evac) :
    s.hostData link msg = { s with dev := d } := by
  refine (if_neg (not_not_intro hup)).trans ((if_neg (by simp [hpeer, hreserved])).trans ?_)
  rw [h]
  cases o with
  | none => rfl
  | some x => exact if_neg (hevac x rfl)

end Host

/-- With no host operation waiting an answer is late, and changes nothing. -/
theorem Dev.hostAnswers_of_idle {d : Dev} (hops : d.hostOps = []) (hoff : d.countersOff = true) (link : Nat) (msg : Msg) :
    d.hostRsp link msg = (none, d) ∧ d.hostData link msg = (none, d) := by
  rw [Dev.hostRsp, Dev.hostData, hops, List.find?_nil, List.find?_nil, Dev.count_of_countersOff hoff]
  exact ⟨rfl, rfl⟩

/-! ## Forwarded requests and their replies -/

section Forward

variable {s : State} {link : Fin 256} {msg : Msg} {env : AccessEnv} {late : Bool}

/-- The request that a forwarded message begins, for the member it came from. -/
def State.forwardedReq (s : State) (link : Nat) (m : Msg) (env : AccessEnv) : Req :=
  { serial := s.dev.serial, link := link, msg := m, env := env, level := m.hops % 4, arrived := s.dev.time, source := some m.member }

theorem State.forwarded_of_down (h : s.dev.linkUp link = false) : s.forwarded link msg env = s := if_pos (ne_true_of_eq_false h)

theorem State.relay_of_down (h : s.dev.linkUp link = false) : s.relay link msg late = s := if_pos (ne_true_of_eq_false h)

theorem State.peerMessage_of_down (h : s.dev.linkUp link = false) (f : State → State) : s.peerMessage link msg f = s := if_pos (ne_true_of_eq_false h)

variable (hup : s.dev.linkUp link = true)
include hup

section

variable (hpeer : s.dev.peerPort (link / 4) = false)
include hpeer

theorem State.forwarded_of_host : s.forwarded link msg env = s.withDev fun d => d.badMessage link 0 :=
  (if_neg (not_not_intro hup)).trans (if_pos (ne_true_of_eq_false hpeer))

theorem State.relay_of_host : s.relay link msg late = s.withDev fun d => d.badMessage link 0 :=
  (if_neg (not_not_intro hup)).trans (if_pos (ne_true_of_eq_false hpeer))

end

variable (hpeer : s.dev.peerPort (link / 4) = true)
include hpeer

/-- A request that was not retried, or is no atomic, enters translation. -/
theorem State.forwarded_enters (h : ¬ (msg.op = 0x42 ∧ msg.hops.testBit 2 = true)) :
    s.forwarded link msg env = s.serialTaken.enter (s.forwardedReq link msg env) := by
  refine (if_neg (not_not_intro hup)).trans ((if_neg (not_not_intro hpeer)).trans ?_)
  dsimp only
  rw [if_neg h]
  rfl

/-- A retried atomic whose outcome is kept is answered from it (R368). -/
theorem State.forwarded_retried (h : msg.op = 0x42 ∧ msg.hops.testBit 2 = true) {a : AtomicDone}
    (hkept : s.dev.atomicsDone.find? (fun a => a.source = msg.member && a.tag = msg.tag) = some a) : s.forwarded link msg env =
      s.serialTaken.sendPeer msg.member ((s.forwardedReq link msg env).replyMsg a.status 0 a.value s.fuses.position) := by
  refine (if_neg (not_not_intro hup)).trans ((if_neg (not_not_intro hpeer)).trans ?_)
  have hfind : (s.withDev fun d => { d with serial := d.serial + 1 }).dev.atomicsDone.find? (fun a => a.source = msg.member && a.tag = msg.tag) = some a := hkept
  dsimp only
  rw [if_pos h, hfind]
  rfl

theorem State.relay_of_none (h : s.dev.forwards.find? (fun f => f.tag = msg.tag) = none) : s.relay link msg late = s := by
  refine (if_neg (not_not_intro hup)).trans ((if_neg (not_not_intro hpeer)).trans ?_)
  rw [h]

theorem State.relay_of_some {f : Forward} (h : s.dev.forwards.find? (fun f => f.tag = msg.tag) = some f) : s.relay link msg late =
    ((s.withDev fun d => { d with forwards := d.forwards.filter (fun x => x ≠ f) }).answer
      { f.req with env := { f.req.env with late := late } } msg.status msg.data msg.value {} true).releaseAll fun h => h = .holder f.holder := by
  refine (if_neg (not_not_intro hup)).trans ((if_neg (not_not_intro hpeer)).trans ?_)
  rw [h]

end Forward

/-! ## A copied line, and a forwarded request without its reply -/

section Others

variable {s : State} {link : Fin 256} {msg : Msg}

/-- The write of a copied line, charged to A5 (R383). -/
def copiedLine (m : Msg) : MergeReq :=
  { dpaLine := BitVec.ofNat 32 (m.addr.toNat / 64), data := m.data, mask := fullMask, poison := m.value.getLsbD 0, cls := 5, grp := 0 }

section

variable (hup : s.dev.linkUp link = true) (hpeer : s.dev.peerPort (link / 4) = true) (hreserved : msg.reserved = false)
include hup hpeer hreserved

theorem State.peerMessage_eq (f : State → State) : s.peerMessage link msg f = f s :=
  (if_neg (not_not_intro hup)).trans (if_neg (by simp [hpeer, hreserved]))

theorem exec_xcopy_of_past (h : dpaEnd ≤ msg.addr.toNat) : exec (.xcopy link msg) s = .next s :=
  congrArg Host.Outcome.next ((State.peerMessage_eq hup hpeer hreserved _).trans (if_pos h))

theorem exec_xcopy_of_line (h : msg.addr.toNat < dpaEnd) : exec (.xcopy link msg) s = exec (.mergeWrite (copiedLine msg)) s :=
  congrArg Host.Outcome.next ((State.peerMessage_eq hup hpeer hreserved _).trans (if_neg (by omega)))

end

/-- A forwarded request marked as sent again. -/
def Dev.retriedOnce (d : Dev) (f : Forward) : Dev :=
  { d with forwards := d.forwards.map (fun x => if x = f then { x with retried := true } else x) }

/-- The request sent again, with RETRY (R368). -/
def retryMsg (f : Forward) (position : Nat) : Msg :=
  { f.req.msg with
    op := (match (operationOf f.req.msg) with
      | 1 => 0x40
      | 4 => 0x42
      | _ => 0x41),
    mask := if (operationOf f.req.msg) = 2 then fullMask else f.req.msg.mask,
    tag := f.tag, member := position, hops := f.req.level + 4, again := f.req.source.isSome }

theorem exec_fwdTimeout_of_none {tag : Fin 4096} (h : s.dev.forwards.find? (fun f => f.tag = tag.val && !f.retried) = none) :
    exec (.fwdTimeout tag) s = .next s := by
  refine Eq.trans (b := execFwdTimeout tag s) rfl ?_
  rw [execFwdTimeout, h]

theorem exec_fwdTimeout_of_some {tag : Fin 4096} {f : Forward} (h : s.dev.forwards.find? (fun f => f.tag = tag.val && !f.retried) = some f)
    (hoff : s.dev.countersOff = true) :
    exec (.fwdTimeout tag) s = .next ((s.withDev fun d => d.retriedOnce f).sendPeer f.holder (retryMsg f s.fuses.position)) := by
  have hcount : (s.dev.retriedOnce f).count 0x0113 f.req.wing (some f.req.msg.patron) = s.dev.retriedOnce f :=
    Dev.count_of_countersOff (d := s.dev.retriedOnce f) hoff ..
  refine Eq.trans (b := execFwdTimeout tag s) rfl ?_
  rw [execFwdTimeout, h]
  refine congrArg Host.Outcome.next (congrArg (fun t : State => t.sendPeer f.holder (retryMsg f s.fuses.position)) ?_)
  exact State.withDev_congr hcount

/-- A message towards a member goes out on the link of its next hop, if there is one. -/
theorem State.sendPeer_reads (s : State) (t : Nat) (m : Msg) : s.frame (s.sendPeer t m) [] ∧ (s.sendPeer t m).dev.forwards = s.dev.forwards ∧
    ∀ l, s.peerLink t = some l → (s.sendPeer t m).dev.out = s.dev.out ++ [(l, { m with home := t })] := by
  rw [State.sendPeer]
  cases h : s.peerLink t with
  | none => exact ⟨⟨rfl, rfl, fun _ => rfl, rfl, rfl, fun _ _ => rfl⟩, rfl, fun l hl => absurd hl (by simp)⟩
  | some link =>
    refine ⟨State.frame_withDev (Dev.keeps_of_fields rfl), rfl, fun l hl => ?_⟩
    rw [← Option.some.inj hl]
    rfl

end Others

/-- The three forwarded requests. -/
theorem exec_forwarded (op : Fin 3) (link : Fin 256) (msg : Msg) (env : AccessEnv) (s : State) :
    exec (if op = 0 then Instr.fwdLoad link msg env else if op = 1 then .fwdStore link msg env else .fwdAtomic link msg env) s =
      .next (s.forwarded link { msg with op := 0x40 + op.val } env) := by
  match op with
  | 0 => rfl
  | 1 => rfl
  | 2 => rfl

/-- Settles O44. -/
theorem peersAndHostsAreHeard : Obligations.PeersAndHostsAreHeard := by
  unfold Obligations.PeersAndHostsAreHeard
  intro s link msg env late up peer u copied dropped
  refine ⟨fun hup => ?_, fun hup hpeer hoff => ?_, fun hup hbad hoff => ?_, fun hup hpeer hreserved => ⟨?_, fun hops hoff => ?_, fun o d h hevac => ?_⟩,
    fun hup hpeer => ⟨fun op => ⟨fun h => ?_, fun a hop hbit hkept => ?_⟩, fun h => ?_, fun f h => ?_, fun hreserved h => ?_, fun hreserved h => ?_⟩,
    fun tag => ⟨exec_fwdTimeout_of_none, fun f h hoff => ?_⟩⟩
  · obtain ⟨hrsp, hdata⟩ := State.hostSide_of_down (msg := msg) hup
    exact ⟨congrArg Host.Outcome.next hrsp, congrArg Host.Outcome.next hdata, congrArg Host.Outcome.next (State.forwarded_of_down hup),
      congrArg Host.Outcome.next (State.forwarded_of_down hup), congrArg Host.Outcome.next (State.forwarded_of_down hup),
      congrArg Host.Outcome.next (State.relay_of_down hup), congrArg Host.Outcome.next (State.relay_of_down hup),
      congrArg Host.Outcome.next (State.peerMessage_of_down hup _)⟩
  · have hdropped : s.dropped (s.withDev fun d => d.badMessage link 0) := State.dropped_badMessage hoff
    exact ⟨⟨_, congrArg Host.Outcome.next (State.forwarded_of_host hup hpeer), hdropped⟩,
      ⟨_, congrArg Host.Outcome.next (State.forwarded_of_host hup hpeer), hdropped⟩,
      ⟨_, congrArg Host.Outcome.next (State.forwarded_of_host hup hpeer), hdropped⟩,
      ⟨_, congrArg Host.Outcome.next (State.relay_of_host hup hpeer), hdropped⟩,
      ⟨_, congrArg Host.Outcome.next (State.relay_of_host hup hpeer), hdropped⟩,
      ⟨_, congrArg Host.Outcome.next ((if_neg (not_not_intro hup)).trans (if_pos (Or.inl (ne_true_of_eq_false hpeer)))), hdropped⟩⟩
  · obtain ⟨hrsp, hdata⟩ := State.hostSide_of_bad hup hbad
    exact ⟨⟨_, congrArg Host.Outcome.next hrsp, State.dropped_badMessage hoff⟩, ⟨_, congrArg Host.Outcome.next hdata, State.dropped_badMessage hoff⟩⟩
  · exact congrArg Host.Outcome.next (State.hostRsp_eq hup hpeer hreserved)
  · obtain ⟨hrsp, hdata⟩ := Dev.hostAnswers_of_idle hops hoff link msg
    refine ⟨congrArg Host.Outcome.next ((State.hostRsp_eq hup hpeer hreserved).trans (State.withDev_eq_self ?_)),
      congrArg Host.Outcome.next (State.hostData_eq hup hpeer hreserved hdata fun x hx => absurd hx (by simp))⟩
    rw [hrsp]
  · exact congrArg Host.Outcome.next (State.hostData_eq hup hpeer hreserved h fun x hx => Option.some.inj hx ▸ hevac)
  · refine (exec_forwarded op link msg env s).trans (congrArg Host.Outcome.next (State.forwarded_enters hup hpeer fun hatomic => ?_))
    rcases h with hop | hbit
    · exact hop (Fin.ext (by have := hatomic.1; simp only at this; omega))
    · exact ne_true_of_eq_false hbit hatomic.2
  · subst hop
    exact congrArg Host.Outcome.next (State.forwarded_retried (msg := { msg with op := 0x42 }) hup hpeer ⟨rfl, hbit⟩ hkept)
  · exact ⟨congrArg Host.Outcome.next (State.relay_of_none hup hpeer h), congrArg Host.Outcome.next (State.relay_of_none hup hpeer h)⟩
  · have heq := fun op => State.relay_of_some (msg := { msg with op := op }) (late := late) hup hpeer h
    exact ⟨congrArg Host.Outcome.next (heq 0x43), congrArg Host.Outcome.next ((heq 0x44).trans (heq 0x43).symm)⟩
  · exact exec_xcopy_of_past hup hpeer hreserved h
  · exact exec_xcopy_of_line hup hpeer hreserved h
  · obtain ⟨hframe, hforwards, hout⟩ := State.sendPeer_reads (s.withDev fun d => d.retriedOnce f) f.holder (retryMsg f s.fuses.position)
    exact ⟨_, exec_fwdTimeout_of_some h hoff, hframe, hforwards, fun l hl => ⟨_, hout l hl, rfl, rfl⟩⟩

end Sys2Proof.Machine

end

section
/-!
Joining, founding and leaving a collection (R367, R374 to R376, R379, R380, Tables 14.3, 14.4).
-/

namespace Sys2Proof.Machine

open Sys2Proof

/-! ## The membership maps -/

section Maps

variable {s : State} (d : Dev) (map lost : Nat) (change : Bool)

/-- The registers of the maps. -/
def mapFields : List Field := [F.COLL_MEMBERS_MAP 0, F.COLL_MEMBERS_MAP 1, F.COLL_LOST_MAP 0, F.COLL_LOST_MAP 1, F.COLL_STATUS_MEMBERS]

/-- Feasibility asked for where something changed (R221). -/
def Dev.recheckIf (d : Dev) (change : Bool) : Dev := { d with recheck := change || d.recheck }

theorem Dev.recheckIf_fields (d : Dev) (change : Bool) : (d.recheckIf change).fields = d.fields := rfl

theorem Dev.recheckIf_eq (d : Dev) (change : Bool) : (if change then { d with recheck := true } else d) = d.recheckIf change := by
  cases change <;> rfl

/-- What the maps are written with. -/
def mapWrites (map lost : Nat) : List (Field × Nat) := [(F.COLL_MEMBERS_MAP 0, map), (F.COLL_MEMBERS_MAP 1, map / 2 ^ 32),
  (F.COLL_LOST_MAP 0, lost), (F.COLL_LOST_MAP 1, lost / 2 ^ 32), (F.COLL_STATUS_MEMBERS, (positions map).length)]

/-- Maps shown, and feasibility asked for where they changed. -/
def Dev.mapsShown : Dev := (d.wrs (mapWrites map lost)).recheckIf change

theorem Dev.keeps_mapsShown : d.Keeps mapFields (d.mapsShown map lost change) :=
  Dev.Keeps.trans (Dev.keeps_wrs (w := mapWrites map lost) (by simp [mapWrites, mapFields])) (Dev.keeps_of_fields (Dev.recheckIf_fields _ change))

theorem mapFields_nodup : (mapFields.map Field.key).Nodup := by decide

theorem Dev.rd_mapsShown {f : Field} {v : Nat} (hf : (f, v) ∈ mapWrites map lost) : (d.mapsShown map lost change).rd f = v % 2 ^ f.width :=
  (Dev.rd_congr (Dev.recheckIf_fields _ change) f).trans (Dev.rd_wrs_of_mem d (l := mapWrites map lost) mapFields_nodup hf)

theorem pairOf_words {v : Nat} (h : v < 2 ^ 64) : v % 2 ^ 32 + 2 ^ 32 * (v / 2 ^ 32 % 2 ^ 32) = v := by omega

variable {map lost} in
/-- The maps shown read back, their two words each. -/
theorem Dev.mapsShown_maps (hmap : map < 2 ^ 64) (hlost : lost < 2 ^ 64) : (d.mapsShown map lost change).map = map ∧ (d.mapsShown map lost change).lostMap = lost := by
  have h0 : (d.mapsShown map lost change).rd (F.COLL_MEMBERS_MAP 0) = map % 2 ^ 32 := Dev.rd_mapsShown d map lost change (by simp [mapWrites])
  have h1 : (d.mapsShown map lost change).rd (F.COLL_MEMBERS_MAP 1) = map / 2 ^ 32 % 2 ^ 32 := Dev.rd_mapsShown d map lost change (by simp [mapWrites])
  have h2 : (d.mapsShown map lost change).rd (F.COLL_LOST_MAP 0) = lost % 2 ^ 32 := Dev.rd_mapsShown d map lost change (by simp [mapWrites])
  have h3 : (d.mapsShown map lost change).rd (F.COLL_LOST_MAP 1) = lost / 2 ^ 32 % 2 ^ 32 := Dev.rd_mapsShown d map lost change (by simp [mapWrites])
  rw [Dev.map, Dev.lostMap, Dev.pair, Dev.pair, h0, h1, h2, h3]
  exact ⟨pairOf_words hmap, pairOf_words hlost⟩

variable {d} in
/-- The maps are read from their four words alone. -/
theorem Dev.map_of_keeps {e : Dev} {fs : List Field} (h : d.Keeps fs e)
    (hmap : ∀ k < 2, (F.COLL_MEMBERS_MAP k).key ∉ fs.map Field.key) (hlost : ∀ k < 2, (F.COLL_LOST_MAP k).key ∉ fs.map Field.key) :
    e.map = d.map ∧ e.lostMap = d.lostMap := by
  rw [Dev.map, Dev.lostMap, Dev.pair, Dev.pair, h _ (hmap 0 (by decide)), h _ (hmap 1 (by decide)), h _ (hlost 0 (by decide)), h _ (hlost 1 (by decide)),
    Dev.map, Dev.lostMap, Dev.pair, Dev.pair]
  exact ⟨rfl, rfl⟩

/-- New maps where no member is lost by them. -/
theorem State.setMaps_eq (hgone : ∀ m < 64, s.dev.map.testBit m = true → s.dev.lostMap.testBit m = false → map.testBit m = true ∧ lost.testBit m = false) :
    s.setMaps map lost = s.withDev fun d => d.mapsShown map lost (decide (map ≠ s.dev.map ∨ lost ≠ s.dev.lostMap)) := by
  have hnone : ¬ (List.range 64).any (fun m => (s.dev.map.testBit m && !s.dev.lostMap.testBit m) && !(map.testBit m && !lost.testBit m)) = true := by
    simp only [List.any_eq_true, List.mem_range, Bool.and_eq_true, Bool.not_eq_true', not_exists, not_and]
    rintro m hm ⟨hin, hlost⟩
    obtain ⟨hmap, hkept⟩ := hgone m hm hin hlost
    simp [hmap, hkept]
  refine (if_neg hnone).trans (State.withDev_congr ?_)
  exact Dev.recheckIf_eq _ _

end Maps

/-! ## JOIN_REQ on every peer link -/

/-- Two frames one after the other. -/
theorem State.frame_trans {s t u : State} {l : List Field} (h : s.frame t l) (h' : t.frame u l) : s.frame u l := by
  obtain ⟨hfuses, hlayout, hmem, hledger, hpending, hfields⟩ := h
  obtain ⟨hfuses', hlayout', hmem', hledger', hpending', hfields'⟩ := h'
  exact ⟨hfuses'.trans hfuses, hlayout'.trans hlayout, fun a => (hmem' a).trans (hmem a), hledger'.trans hledger, hpending'.trans hpending,
    fun f hf => (hfields' f hf).trans (hfields f hf)⟩

theorem State.frame_refl (s : State) (l : List Field) : s.frame s l := ⟨rfl, rfl, fun _ => rfl, rfl, rfl, fun _ _ => rfl⟩

theorem State.frame_mono {s t : State} {l l' : List Field} (h : s.frame t l) (hl : l ⊆ l') : s.frame t l' := by
  obtain ⟨hfuses, hlayout, hmem, hledger, hpending, hfields⟩ := h
  exact ⟨hfuses, hlayout, hmem, hledger, hpending, fun f hf => hfields f fun hmem => hf (List.map_subset _ hl hmem)⟩

section Ask

/-- The JOIN_REQ sent on the link of a dimension. -/
def State.askedOn (s : State) (k : Nat) : State :=
  s.withDev fun d => d.send (linkNo (d.rd (F.COLL_DIM_PORT k)) 0) { s.joinReq with home := s.fuses.position ^^^ 2 ^ k }

/-- The port that a dimension names. -/
def Dev.dimLink (d : Dev) (k : Nat) : Nat := linkNo (d.rd (F.COLL_DIM_PORT k)) 0

theorem State.foldl_askedOn (ks : List Nat) (s : State) : s.frame (ks.foldl State.askedOn s) [] ∧ s.dev.out ⊆ (ks.foldl State.askedOn s).dev.out ∧
    ∀ k ∈ ks, ∃ m, (s.dev.dimLink k, m) ∈ (ks.foldl State.askedOn s).dev.out ∧ m.op = 0x4C ∧ m.arg = s.fuses.position := by
  induction ks generalizing s with
  | nil => exact ⟨s.frame_refl [], List.Subset.refl _, fun k hk => absurd hk List.not_mem_nil⟩
  | cons j ks ih =>
    obtain ⟨hframe, hout, hasked⟩ := ih (s.askedOn j)
    refine ⟨State.frame_trans (t := s.askedOn j) (State.frame_withDev (Dev.keeps_of_fields rfl)) hframe,
      List.Subset.trans (List.subset_append_left _ _) hout, fun k hk => ?_⟩
    rcases List.mem_cons.mp hk with rfl | hk
    · exact ⟨_, hout (List.mem_append_right _ List.mem_cons_self), rfl, rfl⟩
    · exact hasked k hk

end Ask

/-! ## The checks of a join (Table 14.3) -/

section Join

variable (d : Dev) (me code : Nat) (v : Bool)

/-- The registers that a check of JOIN is recorded in. -/
def joinFields : List Field := [F.DEV_REASON_CODE, F.DEV_REASON_TRIGGER, F.DEV_REASON_DETAIL, F.COLL_REASON_CODE, F.COLL_CTL_JOIN]

/-- A check of JOIN recorded. -/
def Dev.joinVerdict : Dev := d.verdict .join me code [F.COLL_REASON_CODE] F.COLL_CTL_JOIN v

theorem Dev.keeps_joinVerdict : d.Keeps joinFields (d.joinVerdict me code v) :=
  (Dev.keeps_verdict d .join me code [F.COLL_REASON_CODE] F.COLL_CTL_JOIN v).mono (by simp [joinFields, reasonFields])

variable {code} in
theorem Dev.rd_joinVerdict (h : code < 256) : (d.joinVerdict me code v).rd F.COLL_CTL_JOIN = v.toNat ∧
    (d.joinVerdict me code v).rd F.DEV_REASON_CODE = code ∧ (d.joinVerdict me code v).rd F.COLL_REASON_CODE = code :=
  Dev.rd_verdict d .join me v h rfl rfl (by decide)

/-- A check of a join changes registers alone. -/
theorem Dev.joinVerdict_kept {β : Type} (g : Dev → β) (hg : ∀ (e : Dev) m, g { e with fields := m } = g e) : g (d.joinVerdict me code v) = g d :=
  (hg _ _).trans ((hg _ _).trans (Dev.wrs_kept g hg d [(F.DEV_REASON_CODE, code), (F.DEV_REASON_TRIGGER, Trigger.join.code), (F.DEV_REASON_DETAIL, me)]))

/-- A join whose checks have passed. -/
def Dev.joining (found : Bool) : Dev := (d.put F.COLL_CTL_FOUND found).joinVerdict me 0 true

theorem Dev.keeps_joining (found : Bool) : d.Keeps (F.COLL_CTL_FOUND :: joinFields) (d.joining me found) :=
  Dev.Keeps.trans (e := d.put F.COLL_CTL_FOUND found) (Dev.keeps_wr (by simp) _) ((Dev.keeps_joinVerdict _ me 0 true).mono (by simp))

theorem Dev.joining_reads (found : Bool) : (d.joining me found).rd F.COLL_CTL_JOIN = 1 ∧ (d.joining me found).rd F.COLL_REASON_CODE = 0 ∧
    (d.joining me found).rd F.COLL_CTL_FOUND = found.toNat := by
  obtain ⟨hjoin, -, hreason⟩ := Dev.rd_joinVerdict (d.put F.COLL_CTL_FOUND found) me true (code := 0) (by decide)
  refine ⟨hjoin, hreason, (Dev.keeps_joinVerdict _ me 0 true _ (by decide)).trans ((Dev.rd_wr_same _ _ _).trans ?_)⟩
  cases found <;> rfl

theorem Dev.joining_kept {β : Type} (g : Dev → β) (hg : ∀ (e : Dev) m, g { e with fields := m } = g e) (found : Bool) : g (d.joining me found) = g d :=
  (Dev.joinVerdict_kept _ me 0 true g hg).trans (hg d _)

end Join

/-- Registers that no collection's own are among: a port's links, and the dimensions. -/
theorem Dev.peers_of_keeps {d e : Dev} (h : d.Keeps (F.COLL_CTL_FOUND :: F.COLL_STATUS_STATE :: joinFields) e) :
    e.peerLinks = d.peerLinks ∧ e.dimLink = d.dimLink ∧ ∀ k, e.linkUp (d.dimLink k) = d.linkUp (d.dimLink k) := by
  have hdim : ∀ k, e.rd (F.COLL_DIM_PORT k) = d.rd (F.COLL_DIM_PORT k) ∧ e.rd (F.COLL_DIM_VALID k) = d.rd (F.COLL_DIM_VALID k) := by
    intro k
    constructor <;> refine h _ ?_ <;>
      simp only [joinFields, List.map_cons, List.map_nil, List.mem_cons, List.not_mem_nil, or_false, not_or, Field.key, F.COLL_DIM_PORT,
        F.COLL_DIM_VALID, F.COLL_CTL_FOUND, F.COLL_STATUS_STATE, F.DEV_REASON_CODE, F.DEV_REASON_TRIGGER, F.DEV_REASON_DETAIL, F.COLL_REASON_CODE,
        F.COLL_CTL_JOIN] <;> omega
  have hstate : ∀ l, e.rd (F.PORT_LINK_STATE (l / 4) (l % 4)) = d.rd (F.PORT_LINK_STATE (l / 4) (l % 4)) := by
    intro l
    refine h _ ?_
    have hk : l % 4 ≤ 3 := by omega
    simp only [joinFields, List.map_cons, List.map_nil, List.mem_cons, List.not_mem_nil, or_false, not_or, Field.key, F.PORT_LINK_STATE,
      F.COLL_CTL_FOUND, F.COLL_STATUS_STATE, F.DEV_REASON_CODE, F.DEV_REASON_TRIGGER, F.DEV_REASON_DETAIL, F.COLL_REASON_CODE, F.COLL_CTL_JOIN]
    omega
  have hport : ∀ x, e.rd (F.PORT_LINK_STATE x 0) = d.rd (F.PORT_LINK_STATE x 0) := fun x => by
    have hx := hstate (4 * x)
    rwa [show 4 * x / 4 = x by omega, show 4 * x % 4 = 0 by omega] at hx
  refine ⟨?_, funext fun k => by rw [Dev.dimLink, (hdim k).1, Dev.dimLink], fun k => ?_⟩
  · refine congrArg (fun f => List.filter f (List.range 6)) (funext fun k => ?_)
    simp only [Dev.flag, (hdim k).1, (hdim k).2, hport]
  · rw [Dev.linkUp, hstate, Dev.linkUp]

theorem Dev.peerUp_eq {d e : Dev} (h : d.Keeps (F.COLL_CTL_FOUND :: F.COLL_STATUS_STATE :: joinFields) e) : e.peerUp = d.peerUp := by
  obtain ⟨hlinks, hdim, hup⟩ := Dev.peers_of_keeps h
  rw [Dev.peerUp, hlinks]
  refine congrArg (fun f => List.any d.peerLinks f) (funext fun k => ?_)
  exact (congrArg e.linkUp (congrFun hdim k)).trans (hup k)

/-! ## A collection founded, and left -/

section Found

variable {s : State} (d : Dev) (me : Nat)

/-- No member is known, no join or leave is noted. -/
def Dev.collBegun : Dev :=
  { d with coll.members := [], coll.joins := [], coll.leaves := [], coll.memberLevels := [], coll.samplingNext := some false, coll.rejoining := false }

theorem Dev.collBegun_fields : d.collBegun.fields = d.fields := rfl

/-- The head known. -/
def Dev.headNamed : Dev := { d with coll.headKnown := true }

theorem Dev.headNamed_fields : d.headNamed.fields = d.fields := rfl

theorem Dev.raiseIf_fields (b : Bool) (t : FaultType) (source : Nat) (detail : List (Nat × Nat)) : (d.raiseIf b t source detail).fields = d.fields := by
  cases b <;> rfl

theorem Dev.keeps_setHead (h : Nat) : d.Keeps [F.COLL_STATUS_HEAD] (d.setHead h) :=
  Dev.Keeps.trans (Dev.keeps_of_fields (Dev.raiseIf_fields d (d.coll.headKnown && d.inCollection && d.rd F.COLL_STATUS_HEAD ≠ h) .headChanged Src.device [(h, 6)]))
    (Dev.Keeps.trans (Dev.keeps_of_fields (Dev.headNamed_fields _)) (Dev.keeps_wr (by simp) h))

theorem Dev.rd_setHead (h : Nat) : (d.setHead h).rd F.COLL_STATUS_HEAD = h % 2 ^ 6 := Dev.rd_wr_same _ _ h

/-- HEAD of a collection of its own. -/
def Dev.founded : Dev := (d.collBegun.setHead me).wrs [(F.COLL_STATUS_STATE, 3), (F.COLL_VERSION_RUN_LEVEL, d.rd F.COLL_VERSION_LEVEL)]

theorem Dev.keeps_founded : d.Keeps [F.COLL_STATUS_HEAD, F.COLL_STATUS_STATE, F.COLL_VERSION_RUN_LEVEL] (d.founded me) :=
  Dev.Keeps.trans (Dev.keeps_of_fields d.collBegun_fields) (Dev.Keeps.trans ((Dev.keeps_setHead d.collBegun me).mono (by simp)) (Dev.keeps_wrs (by simp)))

theorem Dev.founded_reads : (d.founded me).rd F.COLL_STATUS_STATE = 3 ∧ (d.founded me).rd F.COLL_STATUS_HEAD = me % 2 ^ 6 := by
  have hnodup : ([F.COLL_STATUS_STATE, F.COLL_VERSION_RUN_LEVEL].map Field.key).Nodup := by decide
  refine ⟨Dev.rd_wrs_of_mem _ (l := [(F.COLL_STATUS_STATE, 3), (F.COLL_VERSION_RUN_LEVEL, d.rd F.COLL_VERSION_LEVEL)]) (v := 3) hnodup List.mem_cons_self, ?_⟩
  exact (Dev.rd_wrs_of_not_mem _ (l := [(F.COLL_STATUS_STATE, 3), (F.COLL_VERSION_RUN_LEVEL, d.rd F.COLL_VERSION_LEVEL)])
    (show F.COLL_STATUS_HEAD.key ∉ [F.COLL_STATUS_STATE, F.COLL_VERSION_RUN_LEVEL].map Field.key by decide)).trans (Dev.rd_setHead ..)

/-- A device that no map holds can lose no member. -/
theorem State.setMaps_of_empty (hmap : s.dev.map = 0) (map lost : Nat) :
    s.setMaps map lost = s.withDev fun d => d.mapsShown map lost (decide (map ≠ s.dev.map ∨ lost ≠ s.dev.lostMap)) :=
  State.setMaps_eq map lost fun m _ hin => by simp [hmap] at hin

theorem State.found_eq (hmap : s.dev.map = 0) : ∃ change, s.found = s.withDev fun d =>
    (d.mapsShown (2 ^ s.fuses.position) 0 change).founded s.fuses.position := by
  refine ⟨decide (2 ^ s.fuses.position ≠ s.dev.map ∨ 0 ≠ s.dev.lostMap), ?_⟩
  rw [State.found, State.setMaps_of_empty hmap, State.withDev_withDev]
  rfl

/-- What a device forgets of the collection that it has left. -/
def Dev.collForgotten : Dev :=
  { d with
    coll.headKnown := false, coll.rejoining := false, coll.joinAccepted := false, coll.leaving := false, coll.joins := [], coll.leaves := [],
    coll.members := [], coll.inStep := 0, coll.samplingNext := some false }

/-- The registers of a device that is ALONE. -/
def aloneWrites : List (Field × Nat) := [(F.COLL_STATUS_STATE, 0), (F.COLL_STATUS_HEAD, 0), (F.COLL_STATUS_DRIFT, 0), (F.COLL_STATUS_OUT_OF_STEP, 0),
  (F.COLL_VERSION_RUN_LEVEL, 0), (F.COLL_CAT_PROPAGATE, 0), (F.COLL_CTL_JOIN, 0)]

/-- ALONE. -/
def Dev.leftAlone : Dev := d.collForgotten.wrs aloneWrites

theorem Dev.rd_leftAlone {f : Field} {v : Nat} (hf : (f, v) ∈ aloneWrites) : d.leftAlone.rd f = v % 2 ^ f.width :=
  Dev.rd_wrs_of_mem _ (by decide) hf

theorem State.alone_eq (hmap : s.dev.map = 0) : ∃ change, s.alone = s.withDev fun d => (d.mapsShown 0 0 change).leftAlone := by
  refine ⟨decide (0 ≠ s.dev.map ∨ 0 ≠ s.dev.lostMap), ?_⟩
  rw [State.alone, State.setMaps_of_empty hmap, State.withDev_withDev]
  rfl

end Found

/-! ## JOIN written -/

section Commands

variable {s : State} {found : Bool}

/-- A join with FOUND written. -/
def State.foundWritten (s : State) (found : Bool) : State := s.withDev fun d => d.put F.COLL_CTL_FOUND found

/-- The code of a join's checks. -/
def State.joinChecked (s : State) (found : Bool) : Nat :=
  firstCode ((s.foundWritten found).dev.commonChecks .join ++ (s.foundWritten found).joinChecks found)

theorem State.collJoin_of_joined (h : s.dev.rd F.COLL_CTL_JOIN ≠ 0) (found : Bool) : s.collJoin found = s := if_pos (by simp [Dev.flag_eq, h])

variable (h : s.dev.rd F.COLL_CTL_JOIN = 0)
include h

theorem State.collJoin_of_fail {code : Nat} (hcode : s.joinChecked found = code) (hne : code ≠ 0) :
    s.collJoin found = s.withDev fun d => (d.put F.COLL_CTL_FOUND found).joinVerdict s.fuses.position code false := by
  rw [State.joinChecked, State.foundWritten] at hcode
  refine (if_neg (by simp [Dev.flag_eq, h])).trans ?_
  dsimp only
  rw [Dev.checked_eq, hcode, decide_eq_false hne]
  rfl

theorem State.collJoin_of_pass (hcode : s.joinChecked found = 0) : s.collJoin found =
    if found ∧ ¬ (s.dev.joining s.fuses.position found).peerUp then (s.withDev fun d => d.joining s.fuses.position found).found
    else (s.withDev fun d => (d.joining s.fuses.position found).wr F.COLL_STATUS_STATE 1).sendJoin := by
  rw [State.joinChecked, State.foundWritten] at hcode
  refine (if_neg (by simp [Dev.flag_eq, h])).trans ?_
  dsimp only
  rw [Dev.checked_eq, hcode]
  rfl

end Commands

/-! ## What a join leaves -/

section Joined

variable {s : State} {found : Bool} (h : s.dev.rd F.COLL_CTL_JOIN = 0)
include h

theorem collJoin_fail {code : Nat} (hcode : s.joinChecked found = code) (hne : code ≠ 0) (hlt : code < 256) :
    s.frame (s.collJoin found) (F.COLL_CTL_FOUND :: joinFields) ∧ (s.collJoin found).dev.rd F.COLL_CTL_JOIN = 0 ∧
      (s.collJoin found).dev.rd F.COLL_REASON_CODE = code ∧ (s.collJoin found).dev.rd F.DEV_REASON_CODE = code := by
  obtain ⟨hjoin, hdev, hcoll⟩ := Dev.rd_joinVerdict (s.dev.put F.COLL_CTL_FOUND found) s.fuses.position false hlt
  rw [State.collJoin_of_fail h hcode hne]
  refine ⟨State.frame_withDev ?_, hjoin, hcoll, hdev⟩
  exact Dev.Keeps.trans (e := s.dev.put F.COLL_CTL_FOUND found) (Dev.keeps_wr (by simp) _)
    ((Dev.keeps_joinVerdict _ s.fuses.position code false).mono (by simp))

/-- The device that asks for a head. -/
def Dev.asking (d : Dev) (me : Nat) (found : Bool) : Dev := (d.joining me found).wr F.COLL_STATUS_STATE 1

omit h in
theorem Dev.keeps_asking (d : Dev) (me : Nat) (found : Bool) : d.Keeps (F.COLL_CTL_FOUND :: F.COLL_STATUS_STATE :: joinFields) (d.asking me found) :=
  Dev.Keeps.trans (e := d.joining me found) ((Dev.keeps_joining d me found).mono (by simp)) (Dev.keeps_wr (by simp) 1)

omit h in
theorem Dev.asking_reads (d : Dev) (me : Nat) (found : Bool) : (d.asking me found).rd F.COLL_CTL_JOIN = 1 ∧ (d.asking me found).rd F.COLL_STATUS_STATE = 1 ∧
    (d.asking me found).rd F.COLL_CTL_FOUND = found.toNat ∧ (d.asking me found).rd F.COLL_REASON_CODE = 0 := by
  obtain ⟨hjoin, hcoll, hfound⟩ := Dev.joining_reads d me found
  exact ⟨(Dev.rd_wr_ne _ (by decide) 1).trans hjoin, Dev.rd_wr_same _ _ 1, (Dev.rd_wr_ne _ (by decide) 1).trans hfound,
    (Dev.rd_wr_ne _ (by decide) 1).trans hcoll⟩

omit h in
theorem Dev.asking_coll (d : Dev) (me : Nat) (found : Bool) : (d.asking me found).coll = d.coll := by
  rw [Dev.asking, Dev.wr_coll]
  exact Dev.joining_kept d me Dev.coll (fun _ _ => rfl) found

omit h in
/-- Without a head that is known, the request goes out on every peer link that is UP. -/
theorem State.sendJoin_of_unknown {t : State} (hhead : t.dev.coll.headKnown = false) :
    t.sendJoin = (t.dev.peerLinks.filter fun k => t.dev.linkUp (t.dev.dimLink k)).foldl State.askedOn t := if_neg (by simp [hhead])

theorem collJoin_asks (hcode : s.joinChecked found = 0) (hup : s.dev.peerUp = true) (hhead : s.dev.coll.headKnown = false) :
    s.frame (s.collJoin found) (F.COLL_CTL_FOUND :: F.COLL_STATUS_STATE :: joinFields) ∧ (s.collJoin found).dev.rd F.COLL_CTL_JOIN = 1 ∧
      (s.collJoin found).dev.rd F.COLL_STATUS_STATE = 1 ∧ (s.collJoin found).dev.rd F.COLL_CTL_FOUND = found.toNat ∧
      (s.collJoin found).dev.rd F.COLL_REASON_CODE = 0 ∧
      ∀ k ∈ s.dev.peerLinks, s.dev.linkUp (s.dev.dimLink k) = true →
        ∃ m, (s.dev.dimLink k, m) ∈ (s.collJoin found).dev.out ∧ m.op = 0x4C ∧ m.arg = s.fuses.position := by
  have hkept : s.dev.Keeps (F.COLL_CTL_FOUND :: F.COLL_STATUS_STATE :: joinFields) (s.dev.joining s.fuses.position found) :=
    (Dev.keeps_joining s.dev s.fuses.position found).mono (by simp)
  have hpass : ¬ (found = true ∧ ¬ (s.dev.joining s.fuses.position found).peerUp = true) := by
    rw [Dev.peerUp_eq hkept, hup]
    simp
  have hhead' : (s.withDev fun d => d.asking s.fuses.position found).dev.coll.headKnown = false := by
    rw [State.withDev_dev, Dev.asking_coll]
    exact hhead
  have hasking := Dev.keeps_asking s.dev s.fuses.position found
  obtain ⟨hlinks, hdim, hups⟩ := Dev.peers_of_keeps hasking
  rw [State.collJoin_of_pass h hcode, if_neg hpass]
  have hsend := State.sendJoin_of_unknown hhead'
  obtain ⟨hframe, hout, hasked⟩ := State.foldl_askedOn ((s.withDev fun d => d.asking s.fuses.position found).dev.peerLinks.filter fun k =>
    (s.withDev fun d => d.asking s.fuses.position found).dev.linkUp ((s.withDev fun d => d.asking s.fuses.position found).dev.dimLink k))
    (s.withDev fun d => d.asking s.fuses.position found)
  rw [← hsend] at hframe hasked
  obtain ⟨hjoin, hstate, hfound, hreason⟩ := Dev.asking_reads s.dev s.fuses.position found
  obtain ⟨-, -, -, -, -, hfields⟩ := id hframe
  refine ⟨State.frame_trans (t := s.withDev fun d => d.asking s.fuses.position found) (State.frame_withDev hasking)
    (State.frame_mono hframe (List.nil_subset _)), (hfields _ List.not_mem_nil).trans hjoin, (hfields _ List.not_mem_nil).trans hstate,
    (hfields _ List.not_mem_nil).trans hfound, (hfields _ List.not_mem_nil).trans hreason, fun k hk hlink => ?_⟩
  have hmem : k ∈ (s.dev.asking s.fuses.position found).peerLinks.filter fun k =>
      (s.dev.asking s.fuses.position found).linkUp ((s.dev.asking s.fuses.position found).dimLink k) := by
    refine List.mem_filter.mpr ⟨hlinks ▸ hk, ?_⟩
    rw [hdim, hups, hlink]
  obtain ⟨m, hm, hop, harg⟩ := hasked k hmem
  exact ⟨m, congrFun hdim k ▸ hm, hop, harg⟩

theorem collJoin_founds (hcode : s.joinChecked found = 0) (hfound : found = true) (hup : s.dev.peerUp = false) (hmap : s.dev.map = 0)
    (hme : s.fuses.position < 64) : (s.collJoin found).dev.rd F.COLL_CTL_JOIN = 1 ∧ (s.collJoin found).dev.rd F.COLL_STATUS_STATE = 3 ∧
      (s.collJoin found).dev.rd F.COLL_STATUS_HEAD = s.fuses.position ∧ (s.collJoin found).dev.map = 2 ^ s.fuses.position ∧
      (s.collJoin found).dev.lostMap = 0 ∧ (s.collJoin found).mem = s.mem := by
  have hkeeps := Dev.keeps_joining s.dev s.fuses.position found
  have hkept : s.dev.Keeps (F.COLL_CTL_FOUND :: F.COLL_STATUS_STATE :: joinFields) (s.dev.joining s.fuses.position found) := hkeeps.mono (by simp)
  have hpass : found = true ∧ ¬ (s.dev.joining s.fuses.position found).peerUp = true := by
    rw [Dev.peerUp_eq hkept, hup]
    simp [hfound]
  have hmap' : (s.withDev fun d => d.joining s.fuses.position found).dev.map = 0 := by
    exact (Dev.map_of_keeps hkeeps (by decide) (by decide)).1.trans hmap
  have hpow : 2 ^ s.fuses.position < 2 ^ 64 := Nat.pow_lt_pow_right (by decide) hme
  obtain ⟨hjoin, -, -⟩ := Dev.joining_reads s.dev s.fuses.position found
  obtain ⟨change, hfounded⟩ := State.found_eq hmap'
  have hmaps := Dev.keeps_mapsShown (s.dev.joining s.fuses.position found) (2 ^ s.fuses.position) 0 change
  obtain ⟨hin, hlost⟩ := Dev.mapsShown_maps (s.dev.joining s.fuses.position found) change hpow (lost := 0) (by decide)
  rw [State.collJoin_of_pass h hcode, if_pos hpass, hfounded, State.withDev_withDev]
  have hkept := Dev.keeps_founded ((s.dev.joining s.fuses.position found).mapsShown (2 ^ s.fuses.position) 0 change) s.fuses.position
  obtain ⟨hstate, hhead⟩ := Dev.founded_reads ((s.dev.joining s.fuses.position found).mapsShown (2 ^ s.fuses.position) 0 change) s.fuses.position
  refine ⟨(hkept _ (by decide)).trans ((hmaps _ (by decide)).trans hjoin), hstate, hhead.trans (Nat.mod_eq_of_lt hme), ?_, ?_, State.withDev_mem ..⟩
  · exact (Dev.map_of_keeps hkept (by decide) (by decide)).1.trans hin
  · exact (Dev.map_of_keeps hkept (by decide) (by decide)).2.trans hlost

end Joined

/-! ## Requests and answers of a join -/

section Messages

variable {s : State} {m : Msg}

/-- The head's answer to a JOIN_REQ. -/
def State.joinAnswer (s : State) (m : Msg) : Msg :=
  { op := 0x4D, arg := s.joinCode m, status := s.fuses.position, line := min (s.dev.rd F.COLL_VERSION_RUN_LEVEL) m.line,
    tag := s.dev.rd F.COLL_CAT_SEQ_SEQ, addr := BitVec.ofNat 64 s.dev.time, value := BitVec.ofNat 64 s.dev.map }

/-- A position to be entered at the next roll call. -/
def Dev.joinNoted (d : Dev) (m : Msg) : Dev := { d with coll.joins := d.coll.joins.filter (·.1 ≠ m.arg) ++ [(m.arg, m.line)] }

theorem State.joinReqIn_of_other (hst : s.dev.rd F.COLL_STATUS_STATE ≠ 3) (hcoll : s.dev.inCollection = false) : s.joinReqIn m = s :=
  (if_neg hst).trans (if_neg (ne_true_of_eq_false hcoll))

theorem State.joinReqIn_of_bad (hst : s.dev.rd F.COLL_STATUS_STATE = 3) (hcode : s.joinCode m ≠ 0) :
    s.joinReqIn m = s.sendPeer m.arg (s.joinAnswer m) := by
  refine (if_pos hst).trans ?_
  dsimp only
  rw [if_neg hcode, if_neg hcode]
  rfl

theorem State.sendPeer_coll (s : State) (t : Nat) (m : Msg) : (s.sendPeer t m).dev.coll = s.dev.coll := by
  rw [State.sendPeer]
  split <;> rfl

theorem State.sendPeer_journal (s : State) (t : Nat) (m : Msg) : (s.sendPeer t m).dev.journal = s.dev.journal := by
  rw [State.sendPeer]
  split <;> rfl

theorem State.sendMissing_of_empty (h : s.dev.journal = []) (dst seq : Nat) : s.sendMissing dst seq = s := by
  rw [State.sendMissing, h]
  rfl

theorem State.joinReqIn_of_good (hst : s.dev.rd F.COLL_STATUS_STATE = 3) (hcode : s.joinCode m = 0) (hjournal : s.dev.journal = []) :
    s.joinReqIn m = (s.withDev fun d => d.joinNoted m).sendPeer m.arg (s.joinAnswer m) := by
  refine (if_pos hst).trans ?_
  dsimp only
  rw [if_pos hcode, if_pos hcode]
  exact State.sendMissing_of_empty (s := (s.withDev fun d => d.joinNoted m).sendPeer m.arg (s.joinAnswer m))
    ((State.sendPeer_journal (s.withDev fun d => d.joinNoted m) _ _).trans hjournal) _ _

/-- An acceptance taken: the head named, and the time base corrected to the head's. -/
def Dev.joinTaken (d : Dev) (m : Msg) : Dev :=
  (({ d with coll.joinAccepted := true, coll.headKnown := true } : Dev).wrs
    [(F.COLL_STATUS_HEAD, m.status), (F.COLL_VERSION_RUN_LEVEL, m.line)]).correctTime ((m.addr.toNat : Int) - d.time)

theorem State.joinRspIn_of_taken (hwaits : s.dev.joinWaits = true) (harg : m.arg = 0)
    (hfirst : s.dev.rd F.COLL_CTL_FOUND = 0 ∨ s.dev.coll.rejoining = true) : s.joinRspIn m = s.withDev fun d => d.joinTaken m := by
  refine (if_neg (not_not_intro hwaits)).trans ((if_neg (not_not_intro harg)).trans ((if_neg fun hfound => ?_).trans rfl))
  obtain ⟨hfound, hrejoin⟩ := hfound
  rcases hfirst with h | h
  · exact absurd hfound (by simp [Dev.flag_eq, h])
  · exact hrejoin h

theorem State.joinRspIn_of_refused (hwaits : s.dev.joinWaits = true) (harg : m.arg ≠ 0) : s.joinRspIn m = s.joinRefused m.arg :=
  (if_neg (not_not_intro hwaits)).trans (if_pos harg)

theorem State.joinRspIn_of_idle (hwaits : s.dev.joinWaits = false) : s.joinRspIn m = s := if_pos (ne_true_of_eq_false hwaits)

theorem Dev.keeps_correctTime (d : Dev) (err : Int) : d.Keeps [F.TB_STATUS_SLEWING] (d.correctTime err) :=
  Dev.Keeps.trans (Dev.keeps_of_fields rfl) (Dev.keeps_wr (by simp) _)

theorem Dev.correctTime_coll (d : Dev) (err : Int) : (d.correctTime err).coll = d.coll := rfl

/-- A join accepted by the head that is named. -/
def Dev.accepted (d : Dev) : Dev := { d with coll.joinAccepted := true, coll.headKnown := true }

theorem Dev.accepted_fields (d : Dev) : d.accepted.fields = d.fields := rfl

theorem Dev.joinTaken_eq (d : Dev) (m : Msg) : d.joinTaken m =
    (d.accepted.wrs [(F.COLL_STATUS_HEAD, m.status), (F.COLL_VERSION_RUN_LEVEL, m.line)]).correctTime ((m.addr.toNat : Int) - d.time) := rfl

theorem Dev.joinTaken_reads (d : Dev) (m : Msg) (hstatus : m.status < 64) :
    d.Keeps [F.COLL_STATUS_HEAD, F.COLL_VERSION_RUN_LEVEL, F.TB_STATUS_SLEWING] (d.joinTaken m) ∧ (d.joinTaken m).rd F.COLL_STATUS_HEAD = m.status ∧
      (d.joinTaken m).coll.joinAccepted = true := by
  have hcoll := Dev.wrs_kept Dev.coll (fun _ _ => rfl) d.accepted [(F.COLL_STATUS_HEAD, m.status), (F.COLL_VERSION_RUN_LEVEL, m.line)]
  have hnodup : ([F.COLL_STATUS_HEAD, F.COLL_VERSION_RUN_LEVEL].map Field.key).Nodup := by decide
  rw [Dev.joinTaken_eq]
  refine ⟨?_, ?_, ?_⟩
  · refine Dev.Keeps.trans (Dev.keeps_of_fields d.accepted_fields) (Dev.Keeps.trans ?_ ((Dev.keeps_correctTime _ _).mono (by simp)))
    exact Dev.keeps_wrs (by simp)
  · refine (Dev.keeps_correctTime _ _ _ (by decide)).trans ((Dev.rd_wrs_of_mem _ (l := [(F.COLL_STATUS_HEAD, m.status), (F.COLL_VERSION_RUN_LEVEL, m.line)])
      hnodup List.mem_cons_self).trans (Nat.mod_eq_of_lt hstatus))
  · rw [Dev.correctTime_coll, hcoll]
    rfl

end Messages

/-! ## A join refused, and a device that leaves -/

section Leave

variable {s : State}

/-- A refusal recorded. -/
def Dev.refusalNoted (d : Dev) (me code : Nat) : Dev := d.reason .join me code [F.COLL_REASON_CODE]

theorem Dev.keeps_refusalNoted (d : Dev) (me code : Nat) : d.Keeps (F.COLL_REASON_CODE :: reasonFields) (d.refusalNoted me code) :=
  Dev.keeps_reason d .join me code [F.COLL_REASON_CODE]

theorem Dev.rd_refusalNoted (d : Dev) (me : Nat) {code : Nat} (h : code < 256) : (d.refusalNoted me code).rd F.COLL_REASON_CODE = code :=
  (Dev.rd_wr_same _ F.COLL_REASON_CODE code).trans (Nat.mod_eq_of_lt h)

theorem Dev.refusalNoted_coll (d : Dev) (me code : Nat) : (d.refusalNoted me code).coll = d.coll :=
  (Dev.wr_coll _ F.COLL_REASON_CODE code).trans (Dev.wrs_kept Dev.coll (fun _ _ => rfl) d
    [(F.DEV_REASON_CODE, code), (F.DEV_REASON_TRIGGER, Trigger.join.code), (F.DEV_REASON_DETAIL, me)])

/-- An ISOLATED member's rejoin given up. -/
def Dev.rejoinEnded (d : Dev) : Dev := { d with coll.rejoining := false, coll.joinAccepted := false }

theorem Dev.rejoinEnded_fields (d : Dev) : d.rejoinEnded.fields = d.fields := rfl

/-- A first join given up. -/
def Dev.joinForgotten (d : Dev) : Dev := { d with coll.joinAccepted := false }

theorem Dev.joinForgotten_fields (d : Dev) : d.joinForgotten.fields = d.fields := rfl

theorem State.joinRefused_eq (s : State) (code : Nat) : s.joinRefused code =
    if s.dev.coll.rejoining then (s.withDev fun d => (d.refusalNoted s.fuses.position code).rejoinEnded)
    else s.withDev fun d => (d.refusalNoted s.fuses.position code).joinForgotten.wrs [(F.COLL_CTL_JOIN, 0), (F.COLL_STATUS_STATE, 0)] := by
  have hcoll := congrArg CollSt.rejoining (Dev.refusalNoted_coll s.dev s.fuses.position code)
  rw [← hcoll]
  rfl

theorem joinRefused_reads {code : Nat} (hlt : code < 256) : (s.joinRefused code).dev.rd F.COLL_REASON_CODE = code ∧
    (s.dev.coll.rejoining = false → (s.joinRefused code).dev.rd F.COLL_CTL_JOIN = 0 ∧ (s.joinRefused code).dev.rd F.COLL_STATUS_STATE = 0) ∧
    (s.dev.coll.rejoining = true → (s.joinRefused code).dev.rd F.COLL_STATUS_STATE = s.dev.rd F.COLL_STATUS_STATE) := by
  have hcode := Dev.rd_refusalNoted s.dev s.fuses.position hlt
  have hkeeps := Dev.keeps_refusalNoted s.dev s.fuses.position code
  have hnodup : ([F.COLL_CTL_JOIN, F.COLL_STATUS_STATE].map Field.key).Nodup := by decide
  rw [State.joinRefused_eq]
  cases hrejoin : s.dev.coll.rejoining with
  | true =>
    rw [if_pos rfl, State.withDev_dev, Dev.rd_congr (Dev.rejoinEnded_fields _), Dev.rd_congr (Dev.rejoinEnded_fields _)]
    exact ⟨hcode, fun h => absurd h (by decide), fun _ => hkeeps _ (by decide)⟩
  | false =>
    have hread : ∀ f ∈ [F.COLL_CTL_JOIN, F.COLL_STATUS_STATE], ((s.dev.refusalNoted s.fuses.position code).joinForgotten.wrs
        [(F.COLL_CTL_JOIN, 0), (F.COLL_STATUS_STATE, 0)]).rd f = 0 := fun f hf =>
      (Dev.rd_wrs_of_mem _ (l := [(F.COLL_CTL_JOIN, 0), (F.COLL_STATUS_STATE, 0)]) (v := 0) hnodup (by simpa using hf)).trans (Nat.zero_mod _)
    rw [if_neg (by decide), State.withDev_dev, Dev.rd_wrs_of_not_mem (g := F.COLL_REASON_CODE) _ (by decide), Dev.rd_congr (Dev.joinForgotten_fields _)]
    exact ⟨hcode, fun _ => ⟨hread _ (by simp), hread _ (by simp)⟩, fun h => absurd h (by decide)⟩

theorem State.collLeave_of_left (h : s.dev.rd F.COLL_CTL_JOIN = 0) : s.collLeave = s := if_pos (by simp [Dev.flag_eq, h])

variable (h : s.dev.rd F.COLL_CTL_JOIN ≠ 0)
include h

/-- A device that still holds leaves may not go (R376). -/
theorem collLeave_refused (hleaves : s.dev.allLeaves ≠ 0) : s.frame s.collLeave joinFields ∧ s.collLeave.dev.rd F.COLL_CTL_JOIN = 1 ∧
    s.collLeave.dev.rd F.COLL_REASON_CODE = 0xA8 := by
  have heq : s.collLeave = s.withDev fun d => d.joinVerdict s.fuses.position 0xA8 true := by
    refine (if_neg (by simp [Dev.flag_eq, h])).trans ?_
    have hcode : firstCode [(decide (s.dev.allLeaves ≠ 0), 0xA8)] = 0xA8 := by simp [firstCode, hleaves]
    rw [Dev.checkedOff_eq, hcode]
    rfl
  obtain ⟨hjoin, -, hcoll⟩ := Dev.rd_joinVerdict s.dev s.fuses.position true (code := 0xA8) (by decide)
  rw [heq]
  exact ⟨State.frame_withDev (Dev.keeps_joinVerdict s.dev s.fuses.position 0xA8 true), hjoin, hcoll⟩

/-- A device that may go. -/
theorem State.collLeave_eq (hleaves : s.dev.allLeaves = 0) : s.collLeave =
    if (s.dev.joinVerdict s.fuses.position 0 false).inCollection then
      (s.withDev fun d => d.joinVerdict s.fuses.position 0 false).withDev fun d => { d with coll.leaving := true }
    else (s.withDev fun d => d.joinVerdict s.fuses.position 0 false).alone := by
  refine (if_neg (by simp [Dev.flag_eq, h])).trans ?_
  have hcode : firstCode [(decide (s.dev.allLeaves ≠ 0), 0xA8)] = 0 := by simp [firstCode, hleaves]
  rw [Dev.checkedOff_eq, hcode]
  rfl

end Leave

/-- Whether this device is in a collection is told by STATE, which no check writes. -/
theorem Dev.inCollection_joinVerdict (d : Dev) (me : Nat) : (d.joinVerdict me 0 false).inCollection = d.inCollection := by
  rw [Dev.inCollection, Dev.keeps_joinVerdict d me 0 false F.COLL_STATUS_STATE (by decide), Dev.inCollection]

/-- A device that leaves at the next roll call. -/
def Dev.leaveNoted (d : Dev) : Dev := { d with coll.leaving := true }

theorem Dev.leaveNoted_fields (d : Dev) : d.leaveNoted.fields = d.fields := rfl

theorem Dev.leaveNoted_leaving (d : Dev) : d.leaveNoted.coll.leaving = true := rfl

section LeaveDone

variable {s : State} (h : s.dev.rd F.COLL_CTL_JOIN ≠ 0) (hleaves : s.dev.allLeaves = 0)
include h hleaves

theorem collLeave_member (hcoll : s.dev.inCollection = true) : s.frame s.collLeave joinFields ∧ s.collLeave.dev.rd F.COLL_CTL_JOIN = 0 ∧
    s.collLeave.dev.coll.leaving = true ∧ s.collLeave.dev.rd F.COLL_STATUS_STATE = s.dev.rd F.COLL_STATUS_STATE := by
  have hkeeps := Dev.keeps_joinVerdict s.dev s.fuses.position 0 false
  obtain ⟨hjoin, -, -⟩ := Dev.rd_joinVerdict s.dev s.fuses.position false (code := 0) (by decide)
  have hread := Dev.rd_congr (Dev.leaveNoted_fields (s.dev.joinVerdict s.fuses.position 0 false))
  have heq : s.collLeave = s.withDev fun d => (d.joinVerdict s.fuses.position 0 false).leaveNoted := by
    rw [State.collLeave_eq h hleaves, Dev.inCollection_joinVerdict, hcoll, if_pos rfl, State.withDev_withDev]
    rfl
  rw [heq, State.withDev_dev]
  exact ⟨State.frame_withDev (hkeeps.trans (Dev.keeps_of_fields (Dev.leaveNoted_fields _))), (hread _).trans hjoin, Dev.leaveNoted_leaving _,
    (hread _).trans (hkeeps _ (by decide))⟩

theorem collLeave_alone (hcoll : s.dev.inCollection = false) (hmap : s.dev.map = 0) : s.collLeave.dev.rd F.COLL_CTL_JOIN = 0 ∧
    s.collLeave.dev.rd F.COLL_STATUS_STATE = 0 ∧ s.collLeave.mem = s.mem := by
  have hmap' : (s.withDev fun d => d.joinVerdict s.fuses.position 0 false).dev.map = 0 :=
    (Dev.map_of_keeps (Dev.keeps_joinVerdict s.dev s.fuses.position 0 false) (by decide) (by decide)).1.trans hmap
  obtain ⟨change, halone⟩ := State.alone_eq hmap'
  rw [State.collLeave_eq h hleaves, Dev.inCollection_joinVerdict, hcoll, if_neg (by decide), halone, State.withDev_withDev, State.withDev_dev, State.withDev_mem]
  exact ⟨Dev.rd_leftAlone _ (v := 0) (by simp [aloneWrites]), Dev.rd_leftAlone _ (v := 0) (by simp [aloneWrites]), rfl⟩

end LeaveDone

/-! ## The obligation -/

theorem exec_joinTimeout (s : State) : exec .joinTimeout s = .next (if s.dev.joinWaits = false then s
    else if s.dev.rd F.COLL_CTL_FOUND ≠ 0 ∧ s.dev.coll.rejoining = false then s.found else s.joinRefused 0xAA) := by
  refine Eq.trans (b := execJoinTimeout s) rfl ?_
  rw [execJoinTimeout]
  cases hwaits : s.dev.joinWaits <;> simp [Dev.flag_eq]

/-- The messages of a join, taken on UP peer links alone. -/
theorem State.peerMessage_of_bad {s : State} {link : Fin 256} {msg : Msg} (hup : s.dev.linkUp link = true)
    (hbad : s.dev.peerPort (link / 4) = false ∨ msg.reserved = true) (f : State → State) :
    s.peerMessage link msg f = s.withDev fun d => d.badMessage link 0 :=
  (if_neg (not_not_intro hup)).trans (if_pos (hbad.imp ne_true_of_eq_false id))

/-- Settles O45. -/
theorem collectionsForm : Obligations.CollectionsForm := by
  unfold Obligations.CollectionsForm
  intro s link msg me reasons dropped open_ st
  refine ⟨fun h => ⟨congrArg Host.Outcome.next (State.collJoin_of_joined h false), congrArg Host.Outcome.next (State.collJoin_of_joined h true)⟩,
    fun found h => ?_, fun hup => ⟨congrArg Host.Outcome.next (State.peerMessage_of_down hup _), congrArg Host.Outcome.next (State.peerMessage_of_down hup _)⟩,
    fun hup hbad hoff => ⟨⟨_, congrArg Host.Outcome.next (State.peerMessage_of_bad hup hbad _), State.dropped_badMessage hoff⟩,
      ⟨_, congrArg Host.Outcome.next (State.peerMessage_of_bad hup hbad _), State.dropped_badMessage hoff⟩⟩,
    fun hopen => ?_, fun code hlt => joinRefused_reads hlt, fun h => congrArg Host.Outcome.next (State.collLeave_of_left h),
    fun h => ⟨fun hleaves => ⟨_, rfl, collLeave_refused h hleaves⟩, fun hleaves hcoll => ⟨_, rfl, collLeave_member h hleaves hcoll⟩,
      fun hleaves hcoll hmap => ⟨_, rfl, collLeave_alone h hleaves hcoll hmap⟩⟩, exec_joinTimeout s, fun reach evac => ⟨fun h => ?_, fun h hlinks => ?_⟩⟩
  · intro i u code
    have hexec : exec i s = .next (s.collJoin found) := by cases found <;> rfl
    rw [hexec]
    exact ⟨fun hne hlt => ⟨_, rfl, collJoin_fail h rfl hne hlt⟩, fun hcode hup hhead => ⟨_, rfl, collJoin_asks h hcode hup hhead⟩,
      fun hcode hfound hup hmap hme => ⟨_, rfl, collJoin_founds h hcode hfound hup hmap hme⟩⟩
  · obtain ⟨hup, hpeer, hreserved⟩ := hopen
    have hreq : exec (.joinReq link msg) s = .next (s.joinReqIn msg) := congrArg Host.Outcome.next (State.peerMessage_eq hup hpeer hreserved _)
    have hrsp : exec (.joinRsp link msg) s = .next (s.joinRspIn msg) := congrArg Host.Outcome.next (State.peerMessage_eq hup hpeer hreserved _)
    rw [hreq, hrsp]
    refine ⟨fun hst hcoll => congrArg Host.Outcome.next (State.joinReqIn_of_other hst hcoll), fun hst hcode => ?_, fun hst hcode hjournal => ?_,
      fun hwaits => congrArg Host.Outcome.next (State.joinRspIn_of_idle hwaits), fun hwaits harg => congrArg Host.Outcome.next (State.joinRspIn_of_refused hwaits harg),
      fun hwaits harg hfirst hstatus => ⟨_, congrArg Host.Outcome.next (State.joinRspIn_of_taken hwaits harg hfirst), ?_⟩⟩
    · obtain ⟨hframe, -, hout⟩ := State.sendPeer_reads s msg.arg (s.joinAnswer msg)
      exact ⟨_, congrArg Host.Outcome.next (State.joinReqIn_of_bad hst hcode), hframe, State.sendPeer_coll .., fun l hl => ⟨_, hout l hl, rfl, rfl, rfl⟩⟩
    · obtain ⟨hframe, -, hout⟩ := State.sendPeer_reads (s.withDev fun d => d.joinNoted msg) msg.arg (s.joinAnswer msg)
      refine ⟨_, congrArg Host.Outcome.next (State.joinReqIn_of_good hst hcode hjournal),
        State.frame_trans (t := s.withDev fun d => d.joinNoted msg) (State.frame_withDev (Dev.keeps_of_fields rfl)) hframe, ?_,
        fun l hl => ⟨_, hout l hl, rfl, hcode⟩⟩
      rw [State.sendPeer_coll]
      exact List.mem_append_right _ List.mem_cons_self
    · obtain ⟨hkeeps, hhead, haccepted⟩ := Dev.joinTaken_reads s.dev msg hstatus
      exact ⟨State.frame_withDev hkeeps, hhead, haccepted⟩
  · exact congrArg Host.Outcome.next (if_pos h)
  · exact congrArg Host.Outcome.next ((if_neg (not_not_intro h)).trans (if_pos (Or.inr hlinks)))

end Sys2Proof.Machine

end

section
/-!
A collection's agreement: roll calls, time exchange, propagated cards (R372, R377, R378).
-/

namespace Sys2Proof.Machine

open Sys2Proof

/-! ## An offset measured (R377) -/

section Offset

variable (d : Dev) (off : Int)

/-- An offset shown and corrected. -/
def Dev.offsetShown : Dev := (d.wr F.COLL_OFFSET_OFFSET (toField 32 off)).correctTime off

/-- Out of step: the exchanges within 100 ns start again, and the next statement says so. -/
def Dev.stepLost : Dev := { d with coll.inStep := 0, stmt.oos := true }

/-- The number of exchanges within 100 ns. -/
def Dev.stepsCounted (n : Nat) : Dev := { d with coll.inStep := n }

theorem Dev.stepLost_fields : d.stepLost.fields = d.fields := rfl

theorem Dev.stepsCounted_fields (n : Nat) : (d.stepsCounted n).fields = d.fields := rfl

theorem Dev.keeps_offsetShown : d.Keeps [F.COLL_OFFSET_OFFSET, F.TB_STATUS_SLEWING] (d.offsetShown off) :=
  Dev.Keeps.trans (Dev.keeps_wr (by simp) (toField 32 off)) ((Dev.keeps_correctTime _ off).mono (by simp))

theorem toField_mod (w : Nat) (v : Int) : toField w v % 2 ^ w = toField w v := by
  have hpos : (0 : Int) < (2 ^ w : Nat) := by exact_mod_cast Nat.two_pow_pos w
  have hlt := Int.emod_lt_of_pos v hpos
  have hnonneg := Int.emod_nonneg v (Int.ne_of_gt hpos)
  refine Nat.mod_eq_of_lt ?_
  rw [toField]
  omega

theorem Dev.rd_offsetShown : (d.offsetShown off).rd F.COLL_OFFSET_OFFSET = (off % 2 ^ 32).toNat :=
  ((Dev.keeps_correctTime _ off _ (by decide)).trans (Dev.rd_wr_same _ _ _)).trans (toField_mod 32 off)

theorem Dev.offsetShown_coll : (d.offsetShown off).coll = d.coll := rfl

variable {off}

theorem Dev.offset_of_far (h : 100 < off.natAbs) : d.offset off =
    (((d.offsetShown off).raiseIf (!(d.offsetShown off).flag F.COLL_STATUS_OUT_OF_STEP) .outOfStep Src.device).wr F.COLL_STATUS_OUT_OF_STEP 1).stepLost :=
  if_pos h

theorem Dev.offset_of_near (h : off.natAbs ≤ 100) : d.offset off =
    if 8 ≤ d.coll.inStep + 1 then ((d.offsetShown off).stepsCounted (d.coll.inStep + 1)).wr F.COLL_STATUS_OUT_OF_STEP 0
    else (d.offsetShown off).stepsCounted (d.coll.inStep + 1) :=
  if_neg (Nat.not_lt.mpr h)

/-- What an offset may write. -/
def offsetFields : List Field := [F.COLL_OFFSET_OFFSET, F.TB_STATUS_SLEWING, F.COLL_STATUS_OUT_OF_STEP]

theorem Dev.keeps_offset_far (h : 100 < off.natAbs) : d.Keeps offsetFields (d.offset off) ∧ (d.offset off).rd F.COLL_OFFSET_OFFSET = (off % 2 ^ 32).toNat ∧
    (d.offset off).rd F.COLL_STATUS_OUT_OF_STEP = 1 := by
  have hraise := Dev.keeps_raiseIf (d.offsetShown off) (!(d.offsetShown off).flag F.COLL_STATUS_OUT_OF_STEP) .outOfStep Src.device [F.COLL_STATUS_OUT_OF_STEP]
  have hlate : (d.offsetShown off).Keeps [F.COLL_STATUS_OUT_OF_STEP] (d.offset off) := by
    rw [Dev.offset_of_far d h]
    exact Dev.Keeps.trans hraise (Dev.Keeps.trans (Dev.keeps_wr (by simp) 1) (Dev.keeps_of_fields (Dev.stepLost_fields _)))
  refine ⟨((Dev.keeps_offsetShown d off).mono (by simp [offsetFields])).trans (hlate.mono (by simp [offsetFields])),
    (hlate _ (by decide)).trans (Dev.rd_offsetShown d off), ?_⟩
  rw [Dev.offset_of_far d h, Dev.rd_congr (Dev.stepLost_fields _)]
  exact Dev.rd_wr_same _ _ 1

theorem Dev.keeps_offset_near (h : off.natAbs ≤ 100) : d.Keeps offsetFields (d.offset off) ∧ (d.offset off).rd F.COLL_OFFSET_OFFSET = (off % 2 ^ 32).toNat ∧
    (7 ≤ d.coll.inStep → (d.offset off).rd F.COLL_STATUS_OUT_OF_STEP = 0) ∧
    (d.coll.inStep < 7 → (d.offset off).rd F.COLL_STATUS_OUT_OF_STEP = d.rd F.COLL_STATUS_OUT_OF_STEP) := by
  have hshown := (Dev.keeps_offsetShown d off).trans (Dev.keeps_of_fields (Dev.stepsCounted_fields (d.offsetShown off) (d.coll.inStep + 1)))
  have hvalue := (Dev.rd_congr (Dev.stepsCounted_fields (d.offsetShown off) (d.coll.inStep + 1)) F.COLL_OFFSET_OFFSET).trans (Dev.rd_offsetShown d off)
  rw [Dev.offset_of_near d h]
  by_cases h8 : 8 ≤ d.coll.inStep + 1
  · rw [if_pos h8]
    exact ⟨(hshown.mono (by simp [offsetFields])).trans (Dev.keeps_wr (by simp [offsetFields]) 0), (Dev.rd_wr_ne _ (by decide) 0).trans hvalue,
      fun _ => Dev.rd_wr_same _ _ 0, fun hlt => by omega⟩
  · rw [if_neg h8]
    exact ⟨hshown.mono (by simp [offsetFields]), hvalue, fun hge => by omega, fun _ => hshown _ (by decide)⟩

end Offset

/-- What a measurement of an offset leaves (R377). -/
theorem State.offset_measured (s : State) (off : Int) : s.frame (s.withDev fun d => d.offset off) offsetFields ∧
    (s.withDev fun d => d.offset off).dev.rd F.COLL_OFFSET_OFFSET = (off % 2 ^ 32).toNat ∧
    (100 < off.natAbs → (s.withDev fun d => d.offset off).dev.rd F.COLL_STATUS_OUT_OF_STEP = 1) ∧
    (off.natAbs ≤ 100 → 7 ≤ s.dev.coll.inStep → (s.withDev fun d => d.offset off).dev.rd F.COLL_STATUS_OUT_OF_STEP = 0) ∧
    (off.natAbs ≤ 100 → s.dev.coll.inStep < 7 →
      (s.withDev fun d => d.offset off).dev.rd F.COLL_STATUS_OUT_OF_STEP = s.dev.rd F.COLL_STATUS_OUT_OF_STEP) := by
  rw [State.withDev_dev]
  by_cases h : 100 < off.natAbs
  · obtain ⟨hkeeps, hvalue, hout⟩ := Dev.keeps_offset_far s.dev h
    exact ⟨State.frame_withDev hkeeps, hvalue, fun _ => hout, fun hle => by omega, fun hle => by omega⟩
  · obtain ⟨hkeeps, hvalue, hleft, hkept⟩ := Dev.keeps_offset_near s.dev (Nat.le_of_not_lt h)
    exact ⟨State.frame_withDev hkeeps, hvalue, fun hlt => absurd hlt h, fun _ => hleft, fun _ => hkept⟩

/-! ## The roll call of a head without other members -/

section RollCall

variable {s : State}

theorem positions_two_pow {k : Nat} (hk : k < 64) : positions (2 ^ k) = [k] := by
  have hbit : (2 ^ k).testBit = fun m => decide (k = m) := funext fun m => Nat.testBit_two_pow
  rw [positions, hbit]
  clear hbit
  revert k
  decide

theorem mapOf_eq_two_pow {k : Nat} (hk : k < 64) : mapOf (fun m => decide (k = m)) = 2 ^ k := by
  revert k
  decide

/-- The members kept for the next roll call. -/
def Dev.rosterKept (d : Dev) (map : Nat) : Dev :=
  { d with
    coll.joins := [], coll.leaves := [], coll.memberLevels := d.coll.memberLevels,
    coll.members := d.coll.members.filter (fun kv => map.testBit kv.1) }

/-- The mode of the counters noted for the next boundary (R381). -/
def Dev.samplingNoted (d : Dev) (mode : Bool) : Dev := { d with coll.samplingNext := some mode }

theorem Dev.rosterKept_fields (d : Dev) (map : Nat) : (d.rosterKept map).fields = d.fields := rfl

theorem Dev.samplingNoted_fields (d : Dev) (mode : Bool) : (d.samplingNoted mode).fields = d.fields := rfl

/-- The head's own roll call: nobody is silent, lost, entered or told. -/
theorem State.rollTimer_single (hst : s.dev.rd F.COLL_STATUS_STATE = 3) (hme : s.fuses.position < 64) (hmap : s.dev.map = 2 ^ s.fuses.position)
    (hlost : s.dev.lostMap = 0) (hjoins : s.dev.coll.joins = []) (hleaves : s.dev.coll.leaves = []) (hleaving : s.dev.coll.leaving = false)
    (hevac : s.dev.rd F.EVAC_STATUS_EVACUATING = 0) : ∃ change level mode, s.rollTimer = s.withDev fun d =>
      ((((d.rosterKept s.dev.map).mapsShown s.dev.map 0 change).wr F.COLL_VERSION_RUN_LEVEL level).samplingNoted mode) := by
  rw [State.rollTimer, if_neg (not_not_intro hst)]
  extract_lets me silent s1 newLost s2 out joins old map lost head s3 s4 s5 level s6 d call tell s7
  have hsilent : silent = [] := by simp only [silent, me, hmap, positions_two_pow hme]; simp
  have hs1 : s1 = s := by simp only [s1, hsilent, List.foldl_nil]
  have hs2 : s2 = s := by simp only [s2, newLost, hsilent, List.filter_nil, List.foldl_nil, hs1]
  have hjoins' : joins = [] := by simp only [joins, hs2, hjoins]
  have hout : out = [] := by simp only [out, hs2, hleaves, hleaving]; rfl
  have hold : old = 2 ^ me := by simp only [old, hs2, hmap, me]
  have hnewMap : map = 2 ^ me := by
    refine (congrArg mapOf (funext fun m => ?_)).trans (mapOf_eq_two_pow hme)
    rw [hold, hjoins', hout, Nat.testBit_two_pow]
    simp [me]
  have hnewLost : lost = 0 := by
    refine (congrArg mapOf (funext fun m => ?_)).trans (show mapOf (fun _ => false) = 0 by decide)
    simp only [hs2, hlost, newLost, hsilent]
    simp
  clear_value silent s1 newLost s2 out joins old map lost
  subst hs2 hjoins' hold hnewMap hnewLost hout
  rw [if_neg (Nat.ne_of_gt (Nat.two_pow_pos me))]
  have hhead : head = me := if_neg (by rw [Dev.flag_eq, hevac, hleaving]; decide)
  have htell : tell = [] := by
    refine List.filter_eq_nil_iff.mpr fun m _ => ?_
    rw [Nat.testBit_two_pow, Bool.or_self]
    simp [eq_comm]
  have hs7 : s7 = s6 := by simp only [s7, htell, List.foldl_nil]
  have hme' : (2 ^ me).testBit me = true := by rw [Nat.testBit_two_pow, decide_eq_true rfl]
  rw [if_neg (not_not_intro hme'), if_pos hhead, hs7]
  have hs4 : s4 = s2.withDev fun d => d.rosterKept s2.dev.map := by rw [hmap]; rfl
  have hs5 : s5 = s2.withDev fun d => (d.rosterKept s2.dev.map).mapsShown s2.dev.map 0 (decide (s2.dev.map ≠ s2.dev.map ∨ 0 ≠ s2.dev.lostMap)) := by
    refine (congrArg (fun t => State.setMaps t (2 ^ me) 0) hs4).trans ?_
    rw [show 2 ^ me = s2.dev.map from hmap.symm]
    exact State.setMaps_eq _ _ fun m _ hin _ => ⟨hin, Nat.zero_testBit m⟩
  exact ⟨_, level, samplingMode (2 ^ me),
    congrArg (fun t : State => t.withDev fun d => (d.wr F.COLL_VERSION_RUN_LEVEL level).samplingNoted (samplingMode (2 ^ me))) hs5⟩

/-- The registers that a roll call of the head alone writes. -/
def rollFields : List Field := mapFields ++ [F.COLL_VERSION_RUN_LEVEL]

theorem Dev.keeps_rolled (d : Dev) (map level : Nat) (change mode : Bool) :
    d.Keeps rollFields ((((d.rosterKept map).mapsShown map 0 change).wr F.COLL_VERSION_RUN_LEVEL level).samplingNoted mode) :=
  Dev.Keeps.trans (Dev.keeps_of_fields (d.rosterKept_fields map)) <|
    Dev.Keeps.trans ((Dev.keeps_mapsShown (d.rosterKept map) map 0 change).mono (by simp [rollFields])) <|
      Dev.Keeps.trans (Dev.keeps_wr (by simp [rollFields]) level) (Dev.keeps_of_fields (Dev.samplingNoted_fields _ mode))

theorem Dev.rolled_reads (d : Dev) {map : Nat} (hmap : map < 2 ^ 64) (level : Nat) (change mode : Bool) :
    ((((d.rosterKept map).mapsShown map 0 change).wr F.COLL_VERSION_RUN_LEVEL level).samplingNoted mode).rd F.COLL_STATUS_MEMBERS =
      (positions map).length % 2 ^ F.COLL_STATUS_MEMBERS.width ∧
    ((((d.rosterKept map).mapsShown map 0 change).wr F.COLL_VERSION_RUN_LEVEL level).samplingNoted mode).map = map := by
  have hkeeps : ((d.rosterKept map).mapsShown map 0 change).Keeps [F.COLL_VERSION_RUN_LEVEL]
      ((((d.rosterKept map).mapsShown map 0 change).wr F.COLL_VERSION_RUN_LEVEL level).samplingNoted mode) :=
    Dev.Keeps.trans (Dev.keeps_wr (by simp) level) (Dev.keeps_of_fields (Dev.samplingNoted_fields _ mode))
  obtain ⟨hmaps, -⟩ := Dev.map_of_keeps hkeeps (by decide) (by decide)
  obtain ⟨hshown, -⟩ := Dev.mapsShown_maps (d.rosterKept map) change hmap (lost := 0) (by decide)
  exact ⟨(hkeeps _ (by decide)).trans (Dev.rd_mapsShown _ map 0 change (by simp [mapWrites])), hmaps.trans hshown⟩

theorem Dev.samplingNoted_out (d : Dev) (mode : Bool) : (d.samplingNoted mode).out = d.out := rfl

theorem Dev.rosterKept_out (d : Dev) (map : Nat) : (d.rosterKept map).out = d.out := rfl

theorem Dev.recheckIf_out (d : Dev) (change : Bool) : (d.recheckIf change).out = d.out := rfl

theorem Dev.mapsShown_out (d : Dev) (map lost : Nat) (change : Bool) : (d.mapsShown map lost change).out = d.out := by
  rw [Dev.mapsShown, Dev.recheckIf_out, Dev.wrs_kept Dev.out (fun _ _ => rfl)]

theorem Dev.rolled_out (d : Dev) (map level : Nat) (change mode : Bool) :
    ((((d.rosterKept map).mapsShown map 0 change).wr F.COLL_VERSION_RUN_LEVEL level).samplingNoted mode).out = d.out := by
  rw [Dev.samplingNoted_out, Dev.wr_out, Dev.mapsShown_out, Dev.rosterKept_out]

end RollCall

/-! ## An answer to the roll call -/

section Answer

variable {s : State} {m : Msg}

/-- What the head notes of an answer. -/
def rollInfo (m : Msg) : MemberInfo :=
  { missed := 0, answered := true, state := m.status % 8, outOfStep := m.status.testBit 3, evacuating := m.status.testBit 4,
    drift := m.status.testBit 5, leaves := m.value.toNat % 2 ^ 24, openRecs := m.value.toNat / 2 ^ 32 % 2 ^ 16,
    summary := m.value.toNat / 2 ^ 48 % 256, seq := m.tag, time := m.cmp.toNat, digest := digestOf m.data }

/-- The answer noted. -/
def Dev.rollNoted (d : Dev) (m : Msg) : Dev :=
  { d with
    coll.members := SMap.put (α := MemberInfo) {} d.coll.members m.arg (rollInfo m),
    coll.leaves := if (rollInfo m).state = 0 then d.coll.leaves.filter (· ≠ m.arg) ++ [m.arg] else d.coll.leaves }

theorem State.rollAnswerIn_of_other (h : s.dev.rd F.COLL_STATUS_STATE ≠ 3 ∨ s.dev.map.testBit m.arg = false) : s.rollAnswerIn m = s :=
  if_pos (h.imp_right ne_true_of_eq_false)

theorem State.rollAnswerIn_of_member (hst : s.dev.rd F.COLL_STATUS_STATE = 3) (hin : s.dev.map.testBit m.arg = true)
    (hseq : s.dev.rd F.COLL_CAT_SEQ_SEQ ≤ m.tag) : s.rollAnswerIn m = s.withDev fun d => d.rollNoted m :=
  (if_neg (by simp [hst, hin])).trans (if_neg (Nat.not_lt.mpr hseq))

theorem Dev.memberInfo_rollNoted (d : Dev) (m : Msg) : (d.rollNoted m).memberInfo m.arg = rollInfo m := SMap.get_put_same ..

end Answer

/-! ## Cards set, and their acknowledgements -/

section Ack

variable {s : State} {m : Msg}

theorem State.cardAck_of_none (h : s.dev.cat = none) : s.cardAck m = s := by rw [State.cardAck, h]

theorem State.cardAck_of_other {c : CatCmd} (h : s.dev.cat = some c) (hwaits : c.waits.contains m.arg = false) : s.cardAck m = s := by
  rw [State.cardAck, h]
  exact if_pos (ne_true_of_eq_false hwaits)

/-- The last member's answer ends the command. -/
theorem State.cardAck_last {c : CatCmd} (h : s.dev.cat = some c) (hwaits : c.waits = [m.arg]) (hphase : c.phase ≠ 1) (hresult : c.result = 0) :
    s.cardAck m = s.withDev fun d => d.catEnd m.status := by
  have hin : ¬ ¬ c.waits.contains m.arg = true := by simp [hwaits]
  have hlast : c.waits.filter (· ≠ m.arg) = [] := by simp [hwaits]
  rw [State.cardAck, h]
  dsimp only
  rw [if_neg hin, if_neg hphase, if_pos hlast, if_pos hresult]

theorem Dev.catEnd_reads (d : Dev) {result : Nat} (h : result < 8) : (d.catEnd result).cat = none ∧ (d.catEnd result).rd F.CAT_STATUS_BUSY = 0 ∧
    (d.catEnd result).rd F.CAT_STATUS_RESULT = result := by
  have hnodup : (([(F.CAT_STATUS_BUSY, 0), (F.CAT_STATUS_RESULT, result)].map Prod.fst).map Field.key).Nodup := by
    simp only [List.map_cons, List.map_nil]
    decide
  refine ⟨Dev.wrs_kept Dev.cat (fun _ _ => rfl) _ _, Dev.rd_wrs_of_mem _ hnodup (v := 0) (by simp), ?_⟩
  exact (Dev.rd_wrs_of_mem _ hnodup (v := result) (by simp)).trans (Nat.mod_eq_of_lt h)

/-- The answer of a member to a card that it could not set. -/
def State.cardAnswer (s : State) (r : Nat) (old : Option Card) : Msg :=
  { op := 0x47, arg := s.fuses.position, status := r, tag := s.dev.rd F.COLL_CAT_SEQ_SEQ, value := old.getD 0 }

/-- The card operation that a CARD_SET asks for. -/
def State.cardSetFound (s : State) (m : Msg) : Option (Nat × Option Card) × State :=
  s.cardOp m.patron (m.arg % 4 + 1) (m.addr.toNat % 2 ^ 48) (some (m.value, if m.arg.testBit 2 then some m.cmp else none))

theorem State.cardSet_waits {u : State} (h : s.cardSetFound m = (none, u)) :
    s.cardSet m = u.withDev fun d => { d with cardWaits := d.cardWaits ++ [m] } := by
  rw [State.cardSetFound] at h
  rw [State.cardSet]
  dsimp only
  rw [h]

theorem State.cardSet_refused {u : State} {r : Nat} {old : Option Card} (h : s.cardSetFound m = (some (r, old), u)) (hr : r ≠ 0) :
    s.cardSet m = u.sendPeer (u.dev.rd F.COLL_STATUS_HEAD) (u.cardAnswer r old) := by
  rw [State.cardSetFound] at h
  rw [State.cardSet]
  dsimp only
  rw [h]
  dsimp only
  rw [if_neg hr]
  rfl

end Ack

/-! ## The obligation -/

section Times

variable {s : State} {m : Msg}

theorem State.timeReq_of_other (h : s.dev.rd F.COLL_STATUS_STATE ≠ 3) : s.timeReq m = s := if_neg h

/-- The head's answer: its time base at arrival and at departure. -/
def State.timeAnswer (s : State) (m : Msg) : Msg :=
  { op := 0x4B, arg := s.fuses.position, addr := m.addr, value := BitVec.ofNat 64 s.dev.time, cmp := BitVec.ofNat 64 s.dev.time }

theorem State.timeReq_of_head (h : s.dev.rd F.COLL_STATUS_STATE = 3) : s.timeReq m = s.sendPeer m.arg (s.timeAnswer m) := if_pos h

/-- What a member asks its head. -/
def State.timeAsked (s : State) : Msg := { op := 0x4A, arg := s.fuses.position, addr := BitVec.ofNat 64 s.dev.time }

theorem exec_timeExchangeTimer_of_other (h : s.dev.rd F.COLL_STATUS_STATE ≠ 2 ∨ s.dev.rd F.COLL_CFG_TSYNC ≠ 0) : exec .timeExchangeTimer s = .next s :=
  congrArg Host.Outcome.next (if_neg (by simpa only [Dev.flag_eq, decide_eq_true_eq, ne_eq, Classical.not_not, Classical.not_and_iff_not_or_not] using h))

theorem exec_timeExchangeTimer_of_member (h : s.dev.rd F.COLL_STATUS_STATE = 2) (hsync : s.dev.rd F.COLL_CFG_TSYNC = 0) :
    exec .timeExchangeTimer s = .next (s.sendPeer (s.dev.rd F.COLL_STATUS_HEAD) s.timeAsked) :=
  congrArg Host.Outcome.next (if_pos (by simp [Dev.flag_eq, h, hsync]))

theorem exec_tsyncPulse_of_other (h : s.dev.rd F.COLL_STATUS_STATE ≠ 2 ∨ s.dev.rd F.COLL_CFG_TSYNC = 0) : exec .tsyncPulse s = .next s :=
  congrArg Host.Outcome.next (if_neg (by simpa only [Dev.flag_eq, decide_eq_true_eq, ne_eq, Classical.not_not, Classical.not_and_iff_not_or_not] using h))

/-- The offset that a pulse measures: it left the head at a whole millisecond. -/
def Dev.pulseOffset (d : Dev) : Int :=
  ((d.time : Int) - d.rd F.COLL_CFG_TSYNC_DELAY + 500000) / 1000000 * 1000000 - ((d.time : Int) - d.rd F.COLL_CFG_TSYNC_DELAY)

theorem exec_tsyncPulse_of_member (h : s.dev.rd F.COLL_STATUS_STATE = 2) (hsync : s.dev.rd F.COLL_CFG_TSYNC ≠ 0) :
    exec .tsyncPulse s = .next (s.withDev fun d => d.offset s.dev.pulseOffset) :=
  congrArg Host.Outcome.next (if_pos (by simp [Dev.flag_eq, h, hsync]))

end Times

/-- The messages of a collection at a link that does not carry them. -/
theorem exec_collMessage (s : State) (link : Fin 256) (msg : Msg) {i : Instr}
    (hi : i ∈ [Instr.cardSet link msg, .cardAck link msg, .rollCall link msg, .rollAnswer link msg, .timeReq link msg, .timeRsp link msg]) :
    ∃ f, exec i s = .next (s.peerMessage link msg f) := by
  simp only [List.mem_cons, List.not_mem_nil, or_false] at hi
  obtain rfl | rfl | rfl | rfl | rfl | rfl := hi
  all_goals exact ⟨_, rfl⟩

/-- Settles O46. -/
theorem collectionsAgree : Obligations.CollectionsAgree := by
  unfold Obligations.CollectionsAgree
  intro s link msg dropped open_ st clock measured
  refine ⟨fun i hi => ?_, fun hopen => ?_, fun hst => congrArg Host.Outcome.next (if_pos hst),
    fun hst hme hmap hlost hjoins hleaves hleaving hevac => ?_, exec_timeExchangeTimer_of_other, fun hst hsync => ?_, exec_tsyncPulse_of_other,
    fun hst hsync => ⟨_, exec_tsyncPulse_of_member hst hsync, State.offset_measured s _⟩, fun line => rfl⟩
  · obtain ⟨f, hexec⟩ := exec_collMessage s link msg hi
    rw [hexec]
    exact ⟨fun hup => congrArg Host.Outcome.next (State.peerMessage_of_down hup f),
      fun hup hbad hoff => ⟨_, congrArg Host.Outcome.next (State.peerMessage_of_bad hup hbad f), State.dropped_badMessage hoff⟩⟩
  · obtain ⟨hup, hpeer, hreserved⟩ := hopen
    have hopened : ∀ f : State → State, Host.Outcome.next (s.peerMessage link msg f) = (.next (f s) : Host.Outcome State Fault Refusal) :=
      fun f => congrArg Host.Outcome.next (State.peerMessage_eq hup hpeer hreserved f)
    have hcall : exec (.rollCall link msg) s = .next (s.rollCall msg) := hopened _
    have hanswer : exec (.rollAnswer link msg) s = .next (s.rollAnswerIn msg) := hopened _
    have hreq : exec (.timeReq link msg) s = .next (s.timeReq msg) := hopened _
    have hrsp : exec (.timeRsp link msg) s = .next (s.timeRsp msg) := hopened _
    have hset : exec (.cardSet link msg) s = .next (s.cardSet msg) := hopened _
    have hack : s.dev.jobCat = none → exec (.cardAck link msg) s = .next (s.cardAck msg) := fun hjob =>
      (hopened _).trans (congrArg Host.Outcome.next (by rw [hjob]))
    rw [hcall, hanswer, hreq, hrsp, hset]
    refine ⟨fun h => congrArg Host.Outcome.next (if_pos h), rfl, fun h => congrArg Host.Outcome.next (State.rollAnswerIn_of_other h),
      fun hst hin hseq => ⟨s.withDev fun d => d.rollNoted msg, congrArg Host.Outcome.next (State.rollAnswerIn_of_member hst hin hseq), ?_⟩,
      fun hst => congrArg Host.Outcome.next (State.timeReq_of_other hst), fun hst => ?_, fun hst => congrArg Host.Outcome.next (if_neg hst),
      fun hst => ⟨_, congrArg Host.Outcome.next (if_pos hst), State.offset_measured s _⟩,
      ⟨fun u hfound => congrArg Host.Outcome.next (State.cardSet_waits hfound), fun r old u l hfound hr hl => ?_⟩, fun hjob hwaits => ?_,
      fun c hjob hcat hwaits hphase hstatus hresult => ?_⟩
    · refine ⟨State.frame_withDev (Dev.keeps_of_fields rfl), ?_⟩
      rw [State.withDev_dev, Dev.memberInfo_rollNoted]
      exact ⟨rfl, rfl, rfl, rfl⟩
    · obtain ⟨hframe, -, hout⟩ := State.sendPeer_reads s msg.arg (s.timeAnswer msg)
      exact ⟨_, congrArg Host.Outcome.next (State.timeReq_of_head hst), hframe, fun l hl => ⟨_, hout l hl, rfl, rfl, rfl⟩⟩
    · obtain ⟨hframe, -, hout⟩ := State.sendPeer_reads u (u.dev.rd F.COLL_STATUS_HEAD) (u.cardAnswer r old)
      exact ⟨_, _, congrArg Host.Outcome.next (State.cardSet_refused hfound hr), hframe, hout l hl, rfl, rfl⟩
    · rw [hack hjob]
      obtain hnone | ⟨c, hcat, hnot⟩ := hwaits
      · exact congrArg Host.Outcome.next (State.cardAck_of_none hnone)
      · exact congrArg Host.Outcome.next (State.cardAck_of_other hcat hnot)
    · rw [hack hjob]
      exact ⟨_, congrArg Host.Outcome.next (State.cardAck_last hcat hwaits hphase hresult), Dev.catEnd_reads s.dev hstatus⟩
  · obtain ⟨change, level, mode, hroll⟩ := State.rollTimer_single hst hme hmap hlost hjoins hleaves hleaving hevac
    have hlt : s.dev.map < 2 ^ 64 := hmap ▸ Nat.pow_lt_pow_right (by decide) hme
    obtain ⟨hmembers, hkept⟩ := Dev.rolled_reads s.dev hlt level change mode
    refine ⟨_, congrArg Host.Outcome.next hroll, State.frame_withDev (Dev.keeps_rolled s.dev s.dev.map level change mode), hmembers.trans ?_, hkept,
      Dev.rolled_out ..⟩
    rw [hmap, positions_two_pow hme]
    rfl
  · obtain ⟨hframe, -, hout⟩ := State.sendPeer_reads s (s.dev.rd F.COLL_STATUS_HEAD) s.timeAsked
    exact ⟨_, exec_timeExchangeTimer_of_member hst hsync, hframe, fun l hl => ⟨_, hout l hl, rfl, rfl⟩⟩

end Sys2Proof.Machine

end

section
/-!
The PLLs (R391, R392, R396, R397, Tables 15.2, 15.4): what a move to a state changes, and what it leaves.
-/

namespace Sys2Proof.Machine

open Sys2Proof

/-! ## The registers of a PLL -/

section Fields

variable (i st : Nat)

/-- STATE of a PLL. -/
def pllState : Field := if i < 64 then F.CLK_PORT_PLL_STATE i else F.CLK_PLL_STATUS_STATE (i - 64)

/-- GATE_OPEN of a PLL. -/
def pllGate : Field := if i < 64 then F.CLK_PORT_PLL_GATE_OPEN i else F.CLK_PLL_STATUS_GATE_OPEN (i - 64)

/-- UNLOCKS of a PLL. -/
def pllUnlocks : Field := if i < 64 then F.CLK_PORT_PLL_UNLOCKS i else F.CLK_PLL_STATUS_UNLOCKS (i - 64)

/-- The registers that a move of a PLL writes. -/
def pllWrites : List (Field × Nat) :=
  if i < 64 then [(F.CLK_PORT_PLL_STATE i, st), (F.CLK_PORT_PLL_GATE_OPEN i, (decide (2 ≤ st)).toNat)]
  else [(F.CLK_PLL_STATUS_STATE (i - 64), st), (F.CLK_PLL_STATUS_GATE_OPEN (i - 64), (decide (2 ≤ st)).toNat),
    (F.CLK_PLL_STATUS_SLEWING (i - 64), (decide (st = 4)).toNat)]

/-- Those registers. -/
def pllFields : List Field := (pllWrites i 0).map Prod.fst

theorem pllWrites_fields : (pllWrites i st).map Prod.fst = pllFields i := by
  rw [pllFields, pllWrites, pllWrites]
  split <;> rfl

theorem pllKeys_nodup : ((pllFields i).map Field.key).Nodup := by
  rw [pllFields, pllWrites]
  split <;>
    simp [Field.key, F.CLK_PORT_PLL_STATE, F.CLK_PORT_PLL_GATE_OPEN, F.CLK_PLL_STATUS_STATE, F.CLK_PLL_STATUS_GATE_OPEN, F.CLK_PLL_STATUS_SLEWING]

theorem pllState_mem : (pllState i, st) ∈ pllWrites i st := by
  rw [pllState, pllWrites]
  split <;> exact List.mem_cons_self

theorem pllGate_mem : (pllGate i, (decide (2 ≤ st)).toNat) ∈ pllWrites i st := by
  rw [pllGate, pllWrites]
  split <;> exact List.mem_cons_of_mem _ List.mem_cons_self

theorem Dev.pll_eq (d : Dev) : d.pll i = d.rd (pllState i) := by
  rw [Dev.pll, pllState]
  split <;> rfl

variable {i}

/-- Where the registers of the PLLs lie: behind those of the reference inputs, before those of the ports. -/
theorem pllFields_space (hi : i < 68) : ∀ f ∈ pllFields i, F.CLK_HP3_CTL_FREQ.key ≤ f.key + 512 ∧ f.key < (F.PORT_LINK_STATE 0 0).key ∧
    (f.key % 32 = 16 ∨ f.key % 32 = 19 ∨ f.key % 32 = 0 ∨ f.key % 32 = 3 ∨ f.key % 32 = 5) := by
  rw [pllFields, pllWrites]
  split <;>
    simp only [List.map_cons, List.map_nil, List.forall_mem_cons, Field.key, F.CLK_PORT_PLL_STATE, F.CLK_PORT_PLL_GATE_OPEN, F.CLK_PLL_STATUS_STATE,
      F.CLK_PLL_STATUS_GATE_OPEN, F.CLK_PLL_STATUS_SLEWING, F.CLK_HP3_CTL_FREQ, F.PORT_LINK_STATE, List.not_mem_nil, false_imp_iff, implies_true,
      and_true] <;> omega

theorem pllUnlocks_space (hi : i < 68) : (pllUnlocks i).key % 32 = 24 ∧ (pllUnlocks i).key < (F.PORT_LINK_STATE 0 0).key := by
  rw [pllUnlocks]
  split <;> simp only [Field.key, F.CLK_PORT_PLL_UNLOCKS, F.CLK_PLL_STATUS_UNLOCKS, F.PORT_LINK_STATE] <;> omega

theorem pllUnlocks_not_mem (hi : i < 68) : (pllUnlocks i).key ∉ (pllFields i).map Field.key := fun hmem => by
  obtain ⟨f, hf, heq⟩ := List.mem_map.mp hmem
  obtain ⟨-, -, hlo⟩ := pllFields_space hi f hf
  have := (pllUnlocks_space hi).1
  omega

end Fields

/-! ## A PLL in a state -/

section Set

variable {d : Dev} (hoff : d.countersOff = true) (i st : Nat)

/-- The clocks' own state. -/
def Dev.withClk (d : Dev) (c : ClkSt) : Dev := { d with clk := c }

theorem Dev.withClk_fields (d : Dev) (c : ClkSt) : (d.withClk c).fields = d.fields := rfl

/-- The detector's LOCKED_IN of a PLL forgotten. -/
def ClkSt.unlocked (c : ClkSt) (i : Nat) : ClkSt := { c with lockedIn := c.lockedIn.filter (· ≠ i) }

/-- The dither seed of a port's PLL loaded (R389). -/
def ClkSt.seeded (c : ClkSt) (i seed : Nat) : ClkSt := { c with dither := SMap.insert i (atLeastOne seed) c.dither }

/-- The registers of a PLL in a state written, its detector's reading forgotten. -/
def Dev.pllPlaced (d : Dev) : Dev := (d.wrs (pllWrites i st)).withClk (d.clk.unlocked i)

theorem Dev.pllPlaced_eq (d : Dev) : d.pllPlaced i st = (fun e : Dev => e.withClk (e.clk.unlocked i))
    (if i < 64 then d.wrs [(F.CLK_PORT_PLL_STATE i, st), (F.CLK_PORT_PLL_GATE_OPEN i, (decide (2 ≤ st)).toNat)]
      else d.wrs [(F.CLK_PLL_STATUS_STATE (i - 64), st), (F.CLK_PLL_STATUS_GATE_OPEN (i - 64), (decide (2 ≤ st)).toNat),
        (F.CLK_PLL_STATUS_SLEWING (i - 64), (decide (st = 4)).toNat)]) := by
  have hclk : (d.wrs (pllWrites i st)).clk = d.clk := Dev.wrs_kept Dev.clk (fun _ _ => rfl) _ _
  rw [Dev.pllPlaced, ← hclk, pllWrites]
  split <;> rfl

theorem Dev.pllPlaced_countersOff (d : Dev) : (d.pllPlaced i st).countersOff = d.countersOff :=
  Dev.wrs_kept Dev.countersOff (fun _ _ => rfl) d (pllWrites i st)

include hoff in
/-- A PLL in a state: its registers, and what the clocks remember of it. -/
theorem Dev.setPll_eq : d.setPll i st = if st = 1 ∧ i < 64
    then (d.pllPlaced i st).withClk ((d.pllPlaced i st).clk.seeded i ((d.pllPlaced i st).rd (F.CLK_PORT_PLL_SEED i))) else d.pllPlaced i st := by
  have hcount : ∀ ev, (d.pllPlaced i st).count ev i none = d.pllPlaced i st := fun ev =>
    Dev.count_of_countersOff ((Dev.pllPlaced_countersOff i st d).trans hoff) ev i none
  by_cases h1 : st = 1
  · subst h1
    refine Eq.trans (b := if i < 64 then ((d.pllPlaced i 1).count 0x0823 i).withClk
      (((d.pllPlaced i 1).count 0x0823 i).clk.seeded i (((d.pllPlaced i 1).count 0x0823 i).rd (F.CLK_PORT_PLL_SEED i)))
      else (d.pllPlaced i 1).count 0x0823 i) ?_ ?_
    · rw [Dev.pllPlaced_eq]
      rfl
    · rw [hcount]
      exact ite_congr (by simp) (fun _ => rfl) fun _ => rfl
  · rw [if_neg (fun h => h1 h.1)]
    have hrest : d.setPll i st = d.pllPlaced i st ∨ ∃ ev, d.setPll i st = (d.pllPlaced i st).count ev i := by
      rw [Dev.pllPlaced_eq]
      match st, h1 with
      | 0, _ => exact Or.inl rfl
      | 2, _ => exact Or.inl rfl
      | 3, _ => exact Or.inr ⟨_, rfl⟩
      | 4, _ => exact Or.inr ⟨_, rfl⟩
      | n + 5, _ => exact Or.inl rfl
    obtain h | ⟨ev, h⟩ := hrest
    · exact h
    · exact h.trans (hcount ev)

include hoff in
/-- Nothing but registers and the clocks' own state changes with a PLL. -/
theorem Dev.setPll_kept {β : Type} (g : Dev → β) (hg : ∀ (e : Dev) m c, g { e with fields := m, clk := c } = g e) : g (d.setPll i st) = g d := by
  have hplaced : g (d.pllPlaced i st) = g d := (hg (d.wrs (pllWrites i st)) _ _).trans (Dev.wrs_kept g (fun e m => hg e m e.clk) d _)
  rw [Dev.setPll_eq hoff]
  split
  · exact (hg _ _ _).trans hplaced
  · exact hplaced

include hoff in
theorem Dev.setPll_freqPending : (d.setPll i st).clk.freqPending = d.clk.freqPending := by
  rw [Dev.setPll_eq hoff]
  split <;> rfl

include hoff in
theorem Dev.setPll_fields : (d.setPll i st).fields = (d.wrs (pllWrites i st)).fields := by
  rw [Dev.setPll_eq hoff]
  split <;> rfl

include hoff in
theorem Dev.keeps_setPll : d.Keeps (pllFields i) (d.setPll i st) :=
  Dev.Keeps.trans (e := d.wrs (pllWrites i st)) (Dev.keeps_wrs (by rw [pllWrites_fields]; exact List.Subset.refl _))
    (Dev.keeps_of_fields (Dev.setPll_fields hoff i st))

include hoff in
theorem Dev.rd_setPll {f : Field} {v : Nat} (hf : (f, v) ∈ pllWrites i st) : (d.setPll i st).rd f = v % 2 ^ f.width :=
  (Dev.rd_congr (Dev.setPll_fields hoff i st) f).trans (Dev.rd_wrs_of_mem d (by rw [pllWrites_fields]; exact pllKeys_nodup i) hf)

end Set

/-! ## The time base -/

/-- The time base on its ring oscillator. -/
def Dev.coasting (d : Dev) : Dev := { d with tbLost := true }

section TimeBase

variable {d : Dev} (hoff : d.countersOff = true)
include hoff

/-- The time base changes ACTIVE of its two PLLs, and what it remembers; nothing else. -/
theorem Dev.timeBase_kept {β : Type} (g : Dev → β) (hg : ∀ (e : Dev) b r, g { e with tbLost := b, raised := r } = g e)
    (hwr : ∀ (e : Dev) i v, g (e.wr (F.CLK_PLL_STATUS_ACTIVE i) v) = g e) : g d.timeBase = g d := by
  have hlost : ∀ (c : Bool), g (if c then { d with tbLost := false } else d) = g d ∧ (if c then { d with tbLost := false } else d).countersOff = true := by
    intro c
    cases c
    · exact ⟨rfl, hoff⟩
    · exact ⟨hg d false d.raised, hoff⟩
  rw [Dev.timeBase]
  dsimp only
  obtain ⟨hlost, hoff'⟩ := hlost ((List.range 2).any fun i => d.pll (64 + i) = 2)
  generalize (if ((List.range 2).any fun i => d.pll (64 + i) = 2) = true then { d with tbLost := false } else d) = e at hlost hoff' ⊢
  split
  · next i _ =>
    have hwrs : g (e.wrs [(F.CLK_PLL_STATUS_ACTIVE i, 1), (F.CLK_PLL_STATUS_ACTIVE (1 - i), 0)]) = g e := (hwr _ _ _).trans (hwr _ _ _)
    have hcounted : (e.wrs [(F.CLK_PLL_STATUS_ACTIVE i, 1), (F.CLK_PLL_STATUS_ACTIVE (1 - i), 0)]).count 0x0824 0 =
        e.wrs [(F.CLK_PLL_STATUS_ACTIVE i, 1), (F.CLK_PLL_STATUS_ACTIVE (1 - i), 0)] :=
      Dev.count_of_countersOff ((Dev.wrs_kept Dev.countersOff (fun _ _ => rfl) e _).trans hoff') ..
    rw [hcounted, ite_self]
    split
    · exact hlost
    · exact hwrs.trans hlost
  · split
    · next i _ => exact (hg _ _ _).trans ((hwr (e.coasting) _ _).trans ((hg e true e.raised).trans hlost))
    · exact hlost

end TimeBase

theorem Dev.rd_timeBase {d : Dev} (hoff : d.countersOff = true) {f : Field} (hf : f.key % 32 ≠ 4) : d.timeBase.rd f = d.rd f :=
  Dev.timeBase_kept hoff (Dev.rd · f) (fun _ _ _ => rfl) fun e i v => Dev.rd_wr_ne e (fun heq => hf (by
    rw [heq]
    simp only [Field.key, F.CLK_PLL_STATUS_ACTIVE]
    omega)) v

/-! ## A PLL moved -/

section Moved

variable {d : Dev} (hoff : d.countersOff = true) (i st : Nat)

/-- A PLL moved, where no link of its port is to hear of it: HP0 and HP1 move the time base. -/
def Dev.pllMoved (d : Dev) : Dev := if i = 64 ∨ i = 65 then (d.setPll i st).timeBase else d.setPll i st

include hoff

theorem Dev.setPll_countersOff : (d.setPll i st).countersOff = true := (Dev.setPll_kept hoff i st Dev.countersOff fun _ _ _ => rfl).trans hoff

theorem Dev.pllMoved_kept {β : Type} (g : Dev → β) (hg : ∀ (e : Dev) m c b r, g { e with fields := m, clk := c, tbLost := b, raised := r } = g e) :
    g (d.pllMoved i st) = g d := by
  have hset : g (d.setPll i st) = g d := Dev.setPll_kept hoff i st g fun e m c => hg e m c e.tbLost e.raised
  rw [Dev.pllMoved]
  split
  · exact (Dev.timeBase_kept (Dev.setPll_countersOff hoff i st) g (fun e b r => hg e e.fields e.clk b r)
      fun e i v => hg e _ e.clk e.tbLost e.raised).trans hset
  · exact hset

theorem Dev.pllMoved_countersOff : (d.pllMoved i st).countersOff = true := (Dev.pllMoved_kept hoff i st Dev.countersOff fun _ _ _ _ _ => rfl).trans hoff

/-- A register that is none of the PLL's, and no ACTIVE, reads as before. -/
theorem Dev.rd_pllMoved_ne {f : Field} (hf : f.key ∉ (pllFields i).map Field.key) (hlo : f.key % 32 ≠ 4) : (d.pllMoved i st).rd f = d.rd f := by
  have hset := Dev.keeps_setPll hoff i st f hf
  rw [Dev.pllMoved]
  split
  · exact (Dev.rd_timeBase (Dev.setPll_countersOff hoff i st) hlo).trans hset
  · exact hset

theorem Dev.rd_pllMoved {f : Field} {v : Nat} (hf : (f, v) ∈ pllWrites i st) (hlo : f.key % 32 ≠ 4) : (d.pllMoved i st).rd f = v % 2 ^ f.width := by
  have hset := Dev.rd_setPll hoff i st hf
  rw [Dev.pllMoved]
  split
  · exact (Dev.rd_timeBase (Dev.setPll_countersOff hoff i st) hlo).trans hset
  · exact hset

omit hoff in
theorem pllState_lo : (pllState i).key % 32 ≠ 4 ∧ (pllState i).width = 3 := by
  rw [pllState]
  split <;> refine ⟨?_, rfl⟩ <;> simp only [Field.key, F.CLK_PORT_PLL_STATE, F.CLK_PLL_STATUS_STATE] <;> omega

omit hoff in
theorem pllGate_lo : (pllGate i).key % 32 ≠ 4 ∧ (pllGate i).width = 1 := by
  rw [pllGate]
  split <;> refine ⟨?_, rfl⟩ <;> simp only [Field.key, F.CLK_PORT_PLL_GATE_OPEN, F.CLK_PLL_STATUS_GATE_OPEN] <;> omega

variable {st} in
theorem Dev.pll_pllMoved (hst : st < 8) : (d.pllMoved i st).pll i = st := by
  rw [Dev.pll_eq, Dev.rd_pllMoved hoff i st (pllState_mem i st) (pllState_lo i).1, (pllState_lo i).2]
  exact Nat.mod_eq_of_lt hst

theorem Dev.rd_pllGate_pllMoved : (d.pllMoved i st).rd (pllGate i) = if 2 ≤ st then 1 else 0 := by
  rw [Dev.rd_pllMoved hoff i st (pllGate_mem i st) (pllGate_lo i).1, (pllGate_lo i).2]
  by_cases h : 2 ≤ st <;> simp [h]

end Moved

section To

variable {s : State} {i st : Nat}

/-- The frequency change of HP3 that waits is not due. -/
def State.noFreqDue (s : State) (i st : Nat) : Prop := i = 67 → st = 2 → s.dev.clk.freqPending = false

/-- A move of a PLL that closes no port's gate. -/
theorem State.pllTo_of_open (hoff : s.dev.countersOff = true) (hfreq : s.noFreqDue i st) (hopen : ¬ (i < 64 ∧ 2 ≤ s.dev.pll i ∧ st < 2)) :
    s.pllTo i st = s.withDev fun d => d.pllMoved i st := by
  have hpending : ¬ (i = 67 ∧ st = 2 ∧ (s.withDev fun d => d.setPll i st).dev.clk.freqPending = true) := by
    rintro ⟨hi, hst, hp⟩
    rw [State.withDev_dev, Dev.setPll_freqPending hoff, hfreq hi hst] at hp
    exact absurd hp (by decide)
  have hkept : ¬ (i < 64 ∧ decide (2 ≤ s.dev.pll i) = true ∧ st < 2) := by rwa [decide_eq_true_eq]
  rw [State.pllTo]
  dsimp only
  rw [if_neg hpending, if_neg hkept, State.withDev_withDev]
  by_cases h : i = 64 ∨ i = 65
  · rw [if_pos h]
    exact State.withDev_congr (if_pos h).symm
  · rw [if_neg h]
    exact State.withDev_congr (if_neg h).symm

/-- A move of a port's PLL that closes its gate sends its links to DETECT. -/
theorem State.pllTo_of_closing (hi : i < 64) (hopen : 2 ≤ s.dev.pll i) (hst : st < 2) :
    s.pllTo i st = (List.range 4).foldl (fun s k => s.toDetect (4 * i + k) true) (s.withDev fun d => d.setPll i st) := by
  have hport : ¬ (i = 64 ∨ i = 65) := by omega
  have hpending : ¬ (i = 67 ∧ st = 2 ∧ (s.withDev fun d => d.setPll i st).dev.clk.freqPending = true) := fun h => by omega
  have hclosing : i < 64 ∧ decide (2 ≤ s.dev.pll i) = true ∧ st < 2 := ⟨hi, decide_eq_true hopen, hst⟩
  rw [State.pllTo]
  dsimp only
  rw [if_neg hpending, if_pos hclosing, if_neg hport]
  rfl

/-- What a move of a PLL leaves: DRAM, and the registers below the ports' that are neither the PLL's nor ACTIVE. -/
structure State.PllReads (s : State) (i st : Nat) (t : State) : Prop where
  mem : t.mem = s.mem
  state : t.dev.pll i = st
  gate : t.dev.rd (pllGate i) = if 2 ≤ st then 1 else 0
  others : ∀ f : Field, f.key ∉ (pllFields i).map Field.key → f.key % 32 ≠ 4 → f.key < (F.PORT_LINK_STATE 0 0).key → t.dev.rd f = s.dev.rd f

theorem State.pllReads_of_open (hoff : s.dev.countersOff = true) (hst : st < 8) : s.PllReads i st (s.withDev fun d => d.pllMoved i st) where
  mem := State.withDev_mem ..
  state := Dev.pll_pllMoved hoff i hst
  gate := Dev.rd_pllGate_pllMoved hoff i st
  others := fun _ hf hlo _ => Dev.rd_pllMoved_ne hoff i st hf hlo

theorem collState_not_mem {i : Nat} (hi : i < 68) : F.COLL_STATUS_STATE.key ∉ (pllFields i).map Field.key := fun hmem => by
  obtain ⟨f, hf, heq⟩ := List.mem_map.mp hmem
  obtain ⟨-, hspace, -⟩ := pllFields_space hi f hf
  exact absurd (heq ▸ hspace) (by decide)

theorem State.pllReads_of_closing (hs : s.Alone []) (hi : i < 64) (hst : st < 8) : s.PllReads i st
    ((List.range 4).foldl (fun s k => s.toDetect (4 * i + k) true) (s.withDev fun d => d.setPll i st)) := by
  obtain ⟨hcoll, hoff, hops⟩ := hs
  have hcoll' : (s.dev.setPll i st).inCollection = false := by
    rw [Dev.inCollection, Dev.keeps_setPll hoff i st _ (collState_not_mem (by omega)), ← Dev.inCollection, hcoll]
  obtain ⟨hmem, hrd, -⟩ := State.foldl_links (move := fun s l => s.toDetect l true) (φ := fun st => if st = 0 ∨ st = 9 then st else 1) (p := i)
    (fun s k hk hs => State.movedTo_toDetect hi hk hs true) hi (List.range 4) List.nodup_range (fun k hk => List.mem_range.mp hk)
    (s.withDev fun d => d.setPll i st)
    ⟨hcoll', Dev.setPll_countersOff hoff i st, (Dev.setPll_kept hoff i st Dev.hostOps fun _ _ _ => rfl).trans hops⟩
  have hbelow : ∀ f : Field, f.key < (F.PORT_LINK_STATE 0 0).key → f.key < (F.PORT_LINK_STATE i 0).key := fun f hf => by
    simp only [Field.key, F.PORT_LINK_STATE] at hf ⊢
    omega
  have hown : ∀ f v, (f, v) ∈ pllWrites i st → f.key < (F.PORT_LINK_STATE 0 0).key := fun f v hf => by
    obtain ⟨-, hspace, -⟩ := pllFields_space (i := i) (by omega) f (by
      rw [← pllWrites_fields i st]
      exact List.mem_map_of_mem (f := Prod.fst) hf)
    exact hspace
  refine ⟨hmem, ?_, ?_, fun f hf _ hlt => (hrd f (Or.inl (hbelow f hlt))).trans (Dev.keeps_setPll hoff i st f hf)⟩
  · rw [Dev.pll_eq, hrd _ (Or.inl (hbelow _ (hown _ _ (pllState_mem i st)))), State.withDev_dev, Dev.rd_setPll hoff i st (pllState_mem i st), (pllState_lo i).2]
    exact Nat.mod_eq_of_lt hst
  · rw [hrd _ (Or.inl (hbelow _ (hown _ _ (pllGate_mem i st)))), State.withDev_dev, Dev.rd_setPll hoff i st (pllGate_mem i st), (pllGate_lo i).2]
    by_cases h : 2 ≤ st <;> simp [h]

theorem State.pllReads_pllTo (hs : s.Alone []) (hst : st < 8) (hfreq : s.noFreqDue i st) : s.PllReads i st (s.pllTo i st) := by
  by_cases hclosing : i < 64 ∧ 2 ≤ s.dev.pll i ∧ st < 2
  · obtain ⟨hi, hopen, hlow⟩ := hclosing
    rw [State.pllTo_of_closing hi hopen hlow]
    exact State.pllReads_of_closing hs hi hst
  · rw [State.pllTo_of_open hs.2.1 hfreq hclosing]
    exact State.pllReads_of_open hs.2.1 hst

end To

/-! ## Locking -/

section Locking

variable {s : State} (i : Fin 68)

theorem Dev.foldl_raise (d : Dev) (t : FaultType) (source : Nat) (detail : List (Nat × Nat)) (n : Nat) :
    ((List.range n).foldl (fun d _ => d.raise t source detail) d).fields = d.fields ∧
      ((List.range n).foldl (fun d _ => d.raise t source detail) d).raised.length = d.raised.length + n := by
  induction n with
  | zero => exact ⟨rfl, rfl⟩
  | succ n ih =>
    obtain ⟨hfields, hlength⟩ := ih
    rw [List.range_succ, List.foldl_append, List.foldl_cons, List.foldl_nil, Dev.raise_raised_length, hlength]
    exact ⟨hfields, rfl⟩

theorem Dev.clamps_reads (d : Dev) (n : Nat) : d.Keeps (if i.val < 64 then [] else [F.CLK_PLL_STATUS_CLAMPS (i.val - 64)]) (d.clamps i n) ∧
    (d.clamps i n).raised.length = d.raised.length + n := by
  rw [Dev.clamps]
  split
  · obtain ⟨hfields, hlength⟩ := Dev.foldl_raise d .pllVcoClamp (pllSource i).1 (pllSource i).2 n
    exact ⟨Dev.keeps_of_fields hfields, hlength⟩
  · obtain ⟨hfields, hlength⟩ := Dev.foldl_raise (d.bumpBy (F.CLK_PLL_STATUS_CLAMPS (i.val - 64)) n) .pllVcoClamp (pllSource i).1 (pllSource i).2 n
    exact ⟨Dev.Keeps.trans (e := d.bumpBy (F.CLK_PLL_STATUS_CLAMPS (i.val - 64)) n) (Dev.keeps_wr (by simp) _) (Dev.keeps_of_fields hfields), hlength⟩

/-- A detector's LOCKED_IN noted. -/
def Dev.lockedInNoted (d : Dev) (i : Nat) : Dev := { d with clk.lockedIn := d.clk.lockedIn.filter (· ≠ i) ++ [i] }

theorem Dev.lockedInNoted_fields (d : Dev) (i : Nat) : (d.lockedInNoted i).fields = d.fields := rfl

theorem exec_pllLockDetect_of_other (h : s.dev.pll i ≠ 1) (n : Nat) : exec (.pllLockDetect i n) s = .next s := by
  refine Eq.trans (b := execPllLockDetect i n s) rfl ?_
  rw [execPllLockDetect]
  exact State.next_of_same (if_pos h)

theorem exec_pllLockDetect_of_acquire (h : s.dev.pll i = 1) (n : Nat) :
    exec (.pllLockDetect i n) s = .next (s.withDev fun d => (d.clamps i n).lockedInNoted i) := by
  refine Eq.trans (b := execPllLockDetect i n s) rfl ?_
  rw [execPllLockDetect]
  exact State.next_congr (if_neg (not_not_intro h))

theorem exec_pllWindowCheck_of_other (h : s.dev.pll i ≠ 1 ∨ s.dev.clk.lockedIn.contains i.val = false) (pass : Bool) :
    exec (.pllWindowCheck i pass) s = .next s := congrArg Host.Outcome.next (if_pos (h.imp_right ne_true_of_eq_false))

theorem exec_pllWindowCheck_of_locked (h : s.dev.pll i = 1) (hin : s.dev.clk.lockedIn.contains i.val = true) (pass : Bool) :
    exec (.pllWindowCheck i pass) s = .next (if pass = true then s.pllTo i 2 else s.withDev fun d => d.withClk (d.clk.unlocked i)) :=
  congrArg Host.Outcome.next (if_neg (by rw [h, hin]; decide))

theorem exec_pllLockLost_of_locked (h : s.dev.pll i = 2 ∨ s.dev.pll i = 4) (href : s.dev.refState (s.dev.rd F.CLK_REF_STATUS_FOLLOWING_B) = 1) :
    exec (.pllLockLost i) s = .next ((s.withDev fun d => d.unlocked i).pllTo i 1) := congrArg Host.Outcome.next (if_neg fun hnot =>
    hnot.elim (fun hboth => h.elim hboth.1 hboth.2) (absurd href))

/-- An unlock counted and raised. -/
theorem Dev.unlocked_eq (d : Dev) (i : Nat) : d.unlocked i = (d.bump (pllUnlocks i)).raise .pllUnlock (pllSource i).1 (pllSource i).2 := rfl

theorem Dev.keeps_unlocked (d : Dev) (i : Nat) : d.Keeps [pllUnlocks i] (d.unlocked i) :=
  Dev.Keeps.trans (e := d.bump (pllUnlocks i)) (Dev.keeps_bump (by simp)) (Dev.keeps_of_fields rfl)

theorem Dev.rd_unlocked (d : Dev) (i : Nat) : (d.unlocked i).rd (pllUnlocks i) = min (d.rd (pllUnlocks i) + 1) (2 ^ (pllUnlocks i).width - 1) :=
  Dev.rd_bump_same d (pllUnlocks i)

theorem State.pll_unlocked (s : State) (i : Nat) : (s.withDev fun d => d.unlocked i).dev.pll i = s.dev.pll i := by
  rw [Dev.pll_eq, Dev.pll_eq]
  refine Dev.keeps_unlocked s.dev i _ ?_
  simp only [List.map_cons, List.map_nil, List.mem_singleton]
  rw [pllState, pllUnlocks]
  split <;> simp only [Field.key, F.CLK_PORT_PLL_STATE, F.CLK_PORT_PLL_UNLOCKS, F.CLK_PLL_STATUS_STATE, F.CLK_PLL_STATUS_UNLOCKS] <;> omega

theorem State.alone_unlocked (hs : s.Alone []) (i : Fin 68) : (s.withDev fun d => d.unlocked i).Alone [] := by
  obtain ⟨hcoll, hoff, hops⟩ := hs
  have hkey : F.COLL_STATUS_STATE.key ∉ [pllUnlocks i.val].map Field.key := fun hmem => by
    have hspace := (pllUnlocks_space i.isLt).2
    rw [← List.mem_singleton.mp hmem] at hspace
    exact absurd hspace (by decide)
  refine ⟨?_, hoff, hops⟩
  rw [Dev.inCollection, State.withDev_dev, Dev.keeps_unlocked s.dev i _ hkey, ← Dev.inCollection, hcoll]

end Locking

/-! ## HP3 -/

section Hp3

variable {s : State} (freq : Nat)

/-- A frequency change of HP3 that waits for LOCKED. -/
def Dev.freqWaits (d : Dev) : Dev := { d with clk.freqPending := true }

theorem Dev.freqWaits_fields (d : Dev) : d.freqWaits.fields = d.fields := rfl

theorem Dev.pll_freqWritten (d : Dev) : (d.wr F.CLK_HP3_CTL_FREQ freq).pll 67 = d.pll 67 := Dev.rd_wr_ne d (by decide) freq

theorem State.hp3Freq_eq : s.hp3Freq freq = if s.dev.pll 67 = 0 then s.withDev fun d => d.wr F.CLK_HP3_CTL_FREQ freq
    else if s.dev.pll 67 = 3 then s.withDev fun d => (d.wr F.CLK_HP3_CTL_FREQ freq).freqWaits
    else (s.withDev fun d => d.wr F.CLK_HP3_CTL_FREQ freq).pllTo 67 1 := by
  rw [State.hp3Freq]
  dsimp only
  rw [State.withDev_dev, Dev.pll_freqWritten]
  split
  · next h => rw [if_pos h]
  · next h => rw [if_neg (by omega), if_pos h]; rfl
  · next h0 h3 => rw [if_neg h0, if_neg h3]

theorem State.hp3Freq_relocks (hoff : s.dev.countersOff = true) (h0 : s.dev.pll 67 ≠ 0) (h3 : s.dev.pll 67 ≠ 3) :
    s.hp3Freq freq = s.withDev fun d => (d.wr F.CLK_HP3_CTL_FREQ freq).setPll 67 1 := by
  have hmoved : ∀ d : Dev, d.pllMoved 67 1 = d.setPll 67 1 := fun d => if_neg (by decide)
  rw [State.hp3Freq_eq, if_neg h0, if_neg h3, State.pllTo_of_open (s := s.withDev fun d => d.wr F.CLK_HP3_CTL_FREQ freq) (i := 67) (st := 1) hoff (fun _ h => absurd h (by decide)) (fun h => absurd h.1 (by decide)),
    State.withDev_withDev]
  exact State.withDev_congr (hmoved _)

end Hp3

/-! ## The obligation -/

section Parts

variable {s : State} (i : Fin 68) (hs : s.Alone [])
include hs

theorem pllAcquireTimeout_again (h : s.dev.pll i = 1) : ∃ t, exec (.pllAcquireTimeout i) s = .next t ∧ t.dev.pll i = 1 ∧
    t.dev.rd (pllUnlocks i) = min (s.dev.rd (pllUnlocks i) + 1) (2 ^ (pllUnlocks i).width - 1) ∧ t.mem = s.mem := by
  obtain ⟨hmem, hstate, -, hothers⟩ := State.pllReads_pllTo (s := s) (i := i) (st := 1) hs (by decide) (fun _ h => absurd h (by decide))
  obtain ⟨hlo, hspace⟩ := pllUnlocks_space i.isLt
  refine ⟨(s.pllTo i 1).withDev fun d => d.unlocked i, congrArg Host.Outcome.next (if_neg (not_not_intro h)), (State.pll_unlocked _ i).trans hstate, ?_,
    hmem⟩
  rw [State.withDev_dev, Dev.rd_unlocked, hothers _ (pllUnlocks_not_mem i.isLt) (by omega) hspace]

theorem pllLockLost_again (h : s.dev.pll i = 2 ∨ s.dev.pll i = 4) (href : s.dev.refState (s.dev.rd F.CLK_REF_STATUS_FOLLOWING_B) = 1) :
    ∃ t, exec (.pllLockLost i) s = .next t ∧ t.dev.pll i = 1 ∧ t.dev.rd (pllGate i) = 0 ∧
      t.dev.rd (pllUnlocks i) = min (s.dev.rd (pllUnlocks i) + 1) (2 ^ (pllUnlocks i).width - 1) ∧ t.mem = s.mem := by
  obtain ⟨hmem, hstate, hgate, hothers⟩ := State.pllReads_pllTo (i := i) (st := 1) (State.alone_unlocked hs i) (by decide) (fun _ h => absurd h (by decide))
  obtain ⟨hlo, hspace⟩ := pllUnlocks_space i.isLt
  refine ⟨_, exec_pllLockLost_of_locked i h href, hstate, hgate, ?_, hmem⟩
  rw [hothers _ (pllUnlocks_not_mem i.isLt) (by omega) hspace]
  exact Dev.rd_unlocked s.dev i

end Parts

section Hp3Parts

variable {s : State} (freq : BitVec 4)

theorem rd_freqWritten (d : Dev) : (d.wr F.CLK_HP3_CTL_FREQ freq.toNat).rd F.CLK_HP3_CTL_FREQ = freq.toNat :=
  (Dev.rd_wr_same d _ _).trans (Nat.mod_eq_of_lt freq.isLt)

theorem exec_clkHp3Freq_of_off (h : s.dev.pll 67 = 0) : ∃ t, exec (.clkHp3Freq freq) s = .next t ∧ s.frame t [F.CLK_HP3_CTL_FREQ] ∧
    t.dev.rd F.CLK_HP3_CTL_FREQ = freq.toNat :=
  ⟨_, congrArg Host.Outcome.next ((State.hp3Freq_eq _).trans (if_pos h)), State.frame_withDev (Dev.keeps_wr (by simp) _), rd_freqWritten freq s.dev⟩

theorem exec_clkHp3Freq_of_holdover (h : s.dev.pll 67 = 3) : ∃ t, exec (.clkHp3Freq freq) s = .next t ∧ s.frame t [F.CLK_HP3_CTL_FREQ] ∧
    t.dev.rd F.CLK_HP3_CTL_FREQ = freq.toNat ∧ t.dev.clk.freqPending = true := by
  refine ⟨_, congrArg Host.Outcome.next ((State.hp3Freq_eq _).trans ((if_neg (by omega)).trans (if_pos h))), State.frame_withDev ?_, ?_, rfl⟩
  · exact Dev.Keeps.trans (e := s.dev.wr F.CLK_HP3_CTL_FREQ freq.toNat) (Dev.keeps_wr (by simp) _) (Dev.keeps_of_fields (Dev.freqWaits_fields _))
  · exact (Dev.rd_congr (Dev.freqWaits_fields _) _).trans (rd_freqWritten freq s.dev)

theorem exec_clkHp3Freq_of_locked (hoff : s.dev.countersOff = true) (h0 : s.dev.pll 67 ≠ 0) (h3 : s.dev.pll 67 ≠ 3) :
    ∃ t, exec (.clkHp3Freq freq) s = .next t ∧
      s.frame t [F.CLK_HP3_CTL_FREQ, F.CLK_PLL_STATUS_STATE 3, F.CLK_PLL_STATUS_GATE_OPEN 3, F.CLK_PLL_STATUS_SLEWING 3] ∧
      t.dev.rd F.CLK_HP3_CTL_FREQ = freq.toNat ∧ t.dev.pll 67 = 1 := by
  have hkeeps := Dev.keeps_setPll (d := s.dev.wr F.CLK_HP3_CTL_FREQ freq.toNat) hoff 67 1
  refine ⟨_, congrArg Host.Outcome.next (State.hp3Freq_relocks freq.toNat hoff h0 h3), State.frame_withDev ?_, ?_, ?_⟩
  · exact Dev.Keeps.trans (e := s.dev.wr F.CLK_HP3_CTL_FREQ freq.toNat) (Dev.keeps_wr (by simp) _) (hkeeps.mono (by simp [pllFields, pllWrites]))
  · exact (hkeeps _ (by decide)).trans (rd_freqWritten freq s.dev)
  · exact Dev.rd_setPll (d := s.dev.wr F.CLK_HP3_CTL_FREQ freq.toNat) hoff 67 1 (pllState_mem 67 1)

end Hp3Parts

theorem exec_holdoverLong_of_idle {s : State} (h : s.dev.clk.longRaised = true ∨ ∀ j < 68, s.dev.pll j ≠ 3) : exec .holdoverLong s = .next s := by
  refine Eq.trans (b := execHoldoverLong s) rfl ?_
  rw [execHoldoverLong]
  refine State.next_of_same (if_pos (h.imp_right fun h => ?_))
  simpa using h

/-- A long holdover noted. -/
def Dev.longNoted (d : Dev) : Dev := { d with clk.longRaised := true }

theorem exec_holdoverLong_of_holdover {s : State} {j : Nat} (hj : j < 68) (h : s.dev.pll j = 3) (hraised : s.dev.clk.longRaised = false) :
    exec .holdoverLong s = .next (s.withDev fun d =>
      d.longNoted.raise .holdoverLong (Src.environment (20 + d.longNoted.rd F.CLK_REF_STATUS_FOLLOWING_B))) := by
  refine Eq.trans (b := execHoldoverLong s) rfl ?_
  rw [execHoldoverLong]
  refine State.next_congr (if_neg ?_)
  rw [hraised]
  simpa using ⟨j, hj, h⟩

/-- Settles O47. -/
theorem pllsLock : Obligations.PllsLock := by
  unfold Obligations.PllsLock
  intro s i hoff hcoll hops st gate unlocks more
  have hs : s.Alone [] := ⟨hcoll, hoff, hops⟩
  have hgate : ∀ t, gate t = t.dev.rd (pllGate i) := fun t => (apply_ite t.dev.rd _ _ _).symm
  refine ⟨fun to_ hfreq => ?_, fun n => ⟨fun h => exec_pllLockDetect_of_other i h n, fun h => ⟨_, exec_pllLockDetect_of_acquire i h n, ?_⟩⟩,
    fun pass h => exec_pllWindowCheck_of_other i h pass, fun h hin => ⟨exec_pllWindowCheck_of_locked i h hin true,
      _, exec_pllWindowCheck_of_locked i h hin false, State.frame_withDev (Dev.keeps_of_fields (Dev.withClk_fields _ _)), ?_⟩,
    fun h => congrArg Host.Outcome.next (if_pos h), fun h => pllAcquireTimeout_again i hs h, fun h => congrArg Host.Outcome.next (if_pos h),
    fun h href => ?_, fun h => congrArg Host.Outcome.next (if_pos h), fun h => congrArg Host.Outcome.next (if_neg (not_not_intro h)),
    exec_holdoverLong_of_idle, fun j hj h hraised => ⟨_, exec_holdoverLong_of_holdover hj h hraised, State.frame_withDev (Dev.keeps_of_fields rfl), rfl,
      Dev.raise_raised_length ..⟩,
    fun freq => ⟨exec_clkHp3Freq_of_off freq, exec_clkHp3Freq_of_holdover freq, exec_clkHp3Freq_of_locked freq hoff⟩⟩
  · obtain ⟨hmem, hstate, hgate', -⟩ := State.pllReads_pllTo (s := s) (i := i) (st := to_) hs (by omega) fun hi hto =>
      hfreq (Fin.ext hi) (Fin.ext hto)
    exact ⟨hstate, (hgate _).trans hgate', hmem⟩
  · obtain ⟨hkeeps, hlength⟩ := Dev.clamps_reads i s.dev n
    exact ⟨State.frame_withDev (Dev.Keeps.trans hkeeps (Dev.keeps_of_fields (Dev.lockedInNoted_fields _ i))), List.mem_append_right _ (List.mem_singleton.mpr rfl), hlength⟩
  · simp [State.withDev, Dev.withClk, ClkSt.unlocked]
  · obtain ⟨t, hexec, hstate, hclosed, hcounted⟩ := pllLockLost_again i hs h href
    exact ⟨t, hexec, hstate, (hgate t).trans hclosed, hcounted⟩

end Sys2Proof.Machine

end

section
/-!
The reference inputs (R386, R387, R396, R397), and what the PLLs do when they change.
-/

namespace Sys2Proof.Machine

open Sys2Proof

/-! ## The choice followed while every PLL is OFF or in ACQUIRE -/

section Follow

variable {s : State}

/-- Every PLL is OFF or in ACQUIRE. -/
def Dev.PllsOff (d : Dev) : Prop := ∀ j < 68, d.pll j < 2

theorem Dev.pll_congr {d e : Dev} (h : ∀ j < 68, e.rd (pllState j) = d.rd (pllState j)) {j : Nat} (hj : j < 68) : e.pll j = d.pll j := by
  rw [Dev.pll_eq, h j hj, ← Dev.pll_eq]

/-- No PLL's STATE is among the registers of the reference inputs. -/
theorem pllState_ne {f : Field} (h : f.key < (F.CLK_PLL_STATUS_STATE 0).key) {j : Nat} : (pllState j).key ≠ f.key := by
  rw [pllState]
  split <;> simp only [Field.key, F.CLK_PORT_PLL_STATE, F.CLK_PLL_STATUS_STATE] at h ⊢ <;> omega

theorem Dev.pll_of_keeps {d e : Dev} {l : List Field} (h : d.Keeps l e) (hl : ∀ f ∈ l, f.key < (F.CLK_PLL_STATUS_STATE 0).key) (j : Nat) :
    e.pll j = d.pll j := by
  rw [Dev.pll_eq, Dev.pll_eq]
  refine h _ fun hmem => ?_
  obtain ⟨f, hf, heq⟩ := List.mem_map.mp hmem
  exact pllState_ne (hl f hf) heq.symm

/-- The input followed noted. -/
def Dev.followNoted (d : Dev) (choice : Nat) : Dev :=
  if choice = d.rd F.CLK_REF_STATUS_FOLLOWING_B then d else d.wr F.CLK_REF_STATUS_FOLLOWING_B choice

/-- No long holdover has been raised. -/
def Dev.longForgotten (d : Dev) (c : Bool) : Dev := { d with clk.longRaised := !c && d.clk.longRaised }

theorem Dev.longForgotten_fields (d : Dev) (c : Bool) : (d.longForgotten c).fields = d.fields := rfl

theorem Dev.keeps_followNoted (d : Dev) (choice : Nat) : d.Keeps [F.CLK_REF_STATUS_FOLLOWING_B] (d.followNoted choice) := by
  rw [Dev.followNoted]
  split
  · exact Dev.Keeps.refl _ d
  · exact Dev.keeps_wr (by simp) choice

theorem Dev.rd_followNoted (d : Dev) {choice : Nat} (h : choice < 2) : (d.followNoted choice).rd F.CLK_REF_STATUS_FOLLOWING_B = choice := by
  rw [Dev.followNoted]
  split
  · next heq => exact heq.symm
  · exact (Dev.rd_wr_same d _ choice).trans (Nat.mod_eq_of_lt h)

theorem Dev.followNoted_raised (d : Dev) (choice : Nat) : (d.followNoted choice).raised = d.raised := by
  rw [Dev.followNoted]
  split <;> rfl

/-- A walk over the PLLs that moves none. -/
theorem State.foldl_plls_same {step : State → Nat → State} (h : ∀ j < 68, step s j = s) : (List.range 68).foldl step s = s :=
  List.foldlRecOn (List.range 68) step (motive := fun t => t = s) rfl fun _ ht j hj => ht ▸ h j (List.mem_range.mp hj)

/-- The choice followed while no PLL is locked or holds over. -/
theorem State.follow_of_off (hoff : s.dev.countersOff = true) (hplls : s.dev.PllsOff) (choice : Nat) (errors : List Int) :
    s.follow choice errors = s.withDev fun d => (d.followNoted choice).longForgotten (decide (s.dev.refState choice = 1)) := by
  have hstay : ∀ j < 68, (if s.dev.pll j = 2 ∨ s.dev.pll j = 4 then s.pllTo j 3 else s) = s := fun j hj => if_neg (by
    have := hplls j hj
    omega)
  have hnoted : ∀ j < 68, ((s.withDev fun d => d.followNoted choice).dev.pll j ≠ 3) := fun j hj => by
    rw [State.withDev_dev, Dev.pll_of_keeps (Dev.keeps_followNoted s.dev choice) (by decide) j]
    have := hplls j hj
    omega
  have hfollowed : (if choice = s.dev.rd F.CLK_REF_STATUS_FOLLOWING_B then s
      else s.withDev fun d => (d.wr F.CLK_REF_STATUS_FOLLOWING_B choice).count 0x0820 0) = s.withDev fun d => d.followNoted choice := by
    split
    · next h => exact (State.withDev_eq_self (f := fun d => d.followNoted choice) (if_pos h)).symm
    · next h => exact State.withDev_congr ((Dev.count_of_countersOff
      (d := s.dev.wr F.CLK_REF_STATUS_FOLLOWING_B choice) hoff ..).trans (if_neg h).symm)
  rw [State.follow]
  dsimp only
  rw [State.foldl_plls_same hstay, ite_self, hfollowed]
  by_cases hgood : s.dev.refState choice = 1
  · rw [if_neg (by simp [hgood]), State.foldl_plls_same fun j hj => if_neg (hnoted j hj), State.withDev_withDev, decide_eq_true hgood]
    rfl
  · rw [if_pos (by simp [hgood]), decide_eq_false hgood]
    rfl

end Follow

/-! ## A followed input lost -/

section Holdover

/-- A locked PLL put into HOLDOVER. -/
def State.holdOver (s : State) (i : Nat) : State := if s.dev.pll i = 2 ∨ s.dev.pll i = 4 then s.pllTo i 3 else s

theorem pllState_not_mem {i j : Nat} (h : j ≠ i) (hi : i < 68) (hj : j < 68) : (pllState j).key ∉ (pllFields i).map Field.key := by
  rw [pllState, pllFields, pllWrites]
  split <;> split <;>
    simp only [List.map_cons, List.map_nil, List.mem_cons, List.not_mem_nil, or_false, not_or, Field.key, F.CLK_PORT_PLL_STATE, F.CLK_PORT_PLL_GATE_OPEN,
      F.CLK_PLL_STATUS_STATE, F.CLK_PLL_STATUS_GATE_OPEN, F.CLK_PLL_STATUS_SLEWING] <;> omega

theorem State.holdOver_reads {s : State} (hoff : s.dev.countersOff = true) {i : Nat} (hi : i < 68) : (s.holdOver i).dev.countersOff = true ∧
    (∀ f : Field, f.key < (F.CLK_PLL_STATUS_STATE 0).key → f.key % 32 ≠ 4 → (s.holdOver i).dev.rd f = s.dev.rd f) ∧
    ∀ j < 68, (s.holdOver i).dev.pll j = if j = i ∧ (s.dev.pll j = 2 ∨ s.dev.pll j = 4) then 3 else s.dev.pll j := by
  by_cases h : s.dev.pll i = 2 ∨ s.dev.pll i = 4
  · have hto : s.holdOver i = s.withDev fun d => d.pllMoved i 3 :=
      (if_pos h).trans (State.pllTo_of_open hoff (fun _ h => absurd h (by decide)) fun h => absurd h.2.2 (by decide))
    rw [hto]
    refine ⟨Dev.pllMoved_countersOff hoff i 3, fun f hf hlo => Dev.rd_pllMoved_ne hoff i 3 (fun hmem => ?_) hlo, fun j hj => ?_⟩
    · obtain ⟨g, hg, heq⟩ := List.mem_map.mp hmem
      obtain ⟨hspace, -⟩ := pllFields_space hi g hg
      simp only [Field.key, F.CLK_HP3_CTL_FREQ, F.CLK_PLL_STATUS_STATE] at hspace hf heq
      omega
    · by_cases hji : j = i
      · subst hji
        rw [if_pos ⟨rfl, h⟩]
        exact Dev.pll_pllMoved hoff j (by decide)
      · rw [if_neg (fun hj => hji hj.1), State.withDev_dev, Dev.pll_eq, Dev.rd_pllMoved_ne hoff i 3 (pllState_not_mem hji hi hj) (pllState_lo j).1, ← Dev.pll_eq]
  · rw [State.holdOver, if_neg h]
    refine ⟨hoff, fun _ _ _ => rfl, fun j _ => (if_neg ?_).symm⟩
    rintro ⟨rfl, hj⟩
    exact h hj

theorem State.foldl_holdOver (ks : List Nat) (hnodup : ks.Nodup) (hks : ∀ k ∈ ks, k < 68) (s : State) (hoff : s.dev.countersOff = true) :
    (∀ f : Field, f.key < (F.CLK_PLL_STATUS_STATE 0).key → f.key % 32 ≠ 4 → (ks.foldl State.holdOver s).dev.rd f = s.dev.rd f) ∧
    ∀ j < 68, (ks.foldl State.holdOver s).dev.pll j = if j ∈ ks ∧ (s.dev.pll j = 2 ∨ s.dev.pll j = 4) then 3 else s.dev.pll j := by
  induction ks generalizing s with
  | nil => exact ⟨fun _ _ _ => rfl, fun j _ => (if_neg fun h => absurd h.1 List.not_mem_nil).symm⟩
  | cons k ks ih =>
    obtain ⟨hk, hnodup⟩ := List.nodup_cons.mp hnodup
    obtain ⟨hoff', hrd, hpll⟩ := State.holdOver_reads hoff (hks k List.mem_cons_self)
    obtain ⟨ihrd, ihpll⟩ := ih hnodup (fun j hj => hks j (List.mem_cons_of_mem k hj)) (s.holdOver k) hoff'
    refine ⟨fun f hf hlo => (ihrd f hf hlo).trans (hrd f hf hlo), fun j hj => (ihpll j hj).trans ?_⟩
    rw [hpll j hj]
    by_cases hjk : j = k
    · subst hjk
      simp [hk]
    · simp [hjk]

/-- A followed input that is not QUALIFIED any more: every locked PLL holds over, and nothing else is followed. -/
theorem State.follow_of_lost {s : State} {choice : Nat} (hchoice : choice = s.dev.rd F.CLK_REF_STATUS_FOLLOWING_B) (hbad : s.dev.refState choice ≠ 1)
    (errors : List Int) : s.follow choice errors = (List.range 68).foldl State.holdOver s := by
  rw [State.follow]
  dsimp only
  rw [decide_eq_false hbad, if_pos Bool.false_ne_true, if_pos hchoice, if_neg fun h => Bool.false_ne_true h.2]
  exact congrArg (fun g => (List.range 68).foldl g s) (funext fun _ => funext fun _ => rfl)

end Holdover

/-! ## What an input does -/

section Input

variable {s : State} (input : Fin 2)

/-- The registers of the reference inputs. -/
def refFields : List Field := [F.CLK_REF_STATUS_A_STATE, F.CLK_REF_STATUS_B_STATE, F.CLK_REF_STATUS_FOLLOWING_B]

theorem refFields_space : ∀ f ∈ refFields, f.key < (F.CLK_PLL_STATUS_STATE 0).key := by decide

theorem Dev.keeps_setRef (d : Dev) (i st : Nat) : d.Keeps [F.CLK_REF_STATUS_A_STATE, F.CLK_REF_STATUS_B_STATE] (d.setRef i st) := by
  rw [Dev.setRef]
  split
  · exact Dev.keeps_wr (by simp) st
  · exact Dev.keeps_wr (by simp) st

theorem Dev.setRef_kept {β : Type} (g : Dev → β) (hg : ∀ (e : Dev) m, g { e with fields := m } = g e) (d : Dev) (i st : Nat) : g (d.setRef i st) = g d := by
  rw [Dev.setRef]
  split
  · exact hg d _
  · exact hg d _

theorem Dev.refState_setRef (d : Dev) (i : Nat) {st : Nat} (h : st < 4) : (d.setRef i st).refState i = st := by
  rw [Dev.setRef, Dev.refState]
  split <;> exact (Dev.rd_wr_same d _ st).trans (Nat.mod_eq_of_lt h)

theorem Dev.refState_setRef_ne (d : Dev) {i j : Nat} (h : i = 0 ↔ j ≠ 0) (st : Nat) : (d.setRef i st).refState j = d.refState j := by
  rw [Dev.setRef, Dev.refState, Dev.refState]
  by_cases hj : j = 0
  · rw [if_pos hj, if_pos hj, if_neg fun hi => h.mp hi hj]
    exact Dev.rd_wr_ne d (by decide) st
  · rw [if_neg hj, if_neg hj, if_pos (h.mpr hj)]
    exact Dev.rd_wr_ne d (by decide) st

theorem Dev.refState_congr {d e : Dev} (h : ∀ f ∈ [F.CLK_REF_STATUS_A_STATE, F.CLK_REF_STATUS_B_STATE], e.rd f = d.rd f) (i : Nat) : e.refState i = d.refState i := by
  rw [Dev.refState, Dev.refState, h _ (by simp), h F.CLK_REF_STATUS_B_STATE (by simp)]

/-- What follows a change of an input while every PLL is OFF or in ACQUIRE. -/
def Dev.refFollowed (d : Dev) (choice : Nat) (c : Bool) : Dev := (d.followNoted choice).longForgotten c

theorem Dev.keeps_refFollowed (d : Dev) (choice : Nat) (c : Bool) : d.Keeps [F.CLK_REF_STATUS_FOLLOWING_B] (d.refFollowed choice c) :=
  (Dev.keeps_followNoted d choice).trans (Dev.keeps_of_fields (Dev.longForgotten_fields _ c))

theorem Dev.refState_refFollowed (d : Dev) (choice : Nat) (c : Bool) (i : Nat) : (d.refFollowed choice c).refState i = d.refState i :=
  Dev.refState_congr (List.forall_mem_cons.mpr ⟨Dev.keeps_refFollowed d choice c _ (by decide),
    List.forall_mem_cons.mpr ⟨Dev.keeps_refFollowed d choice c _ (by decide), fun _ h => absurd h List.not_mem_nil⟩⟩) i

theorem Dev.refFollowed_raised (d : Dev) (choice : Nat) (c : Bool) : (d.refFollowed choice c).raised = d.raised := Dev.followNoted_raised d choice

/-- A fault of an input that leaves its state. -/
def Dev.refFault (d : Dev) (i st : Nat) (t : FaultType) : Dev := (d.setRef i st).raise t (Src.environment (20 + i))

theorem Dev.keeps_refFault (d : Dev) (i st : Nat) (t : FaultType) : d.Keeps [F.CLK_REF_STATUS_A_STATE, F.CLK_REF_STATUS_B_STATE] (d.refFault i st t) :=
  (Dev.keeps_setRef d i st).trans (Dev.keeps_of_fields rfl)

theorem Dev.pllsOff_of_keeps {d e : Dev} {l : List Field} (h : d.Keeps l e) (hl : ∀ f ∈ l, f.key < (F.CLK_PLL_STATUS_STATE 0).key) (hoff : d.PllsOff) :
    e.PllsOff := fun j hj => by
  rw [Dev.pll_of_keeps h hl]
  exact hoff j hj

/-- A change of an input while every PLL is OFF or in ACQUIRE, followed. -/
theorem State.follow_change {e : Dev → Dev} (hkeeps : s.dev.Keeps [F.CLK_REF_STATUS_A_STATE, F.CLK_REF_STATUS_B_STATE, F.CLK_REF_STATUS_A_PPM] (e s.dev))
    (hoff : (e s.dev).countersOff = true) (hplls : s.dev.PllsOff) (choice : Nat) (errors : List Int) :
    ∃ c, (s.withDev e).follow choice errors = s.withDev fun d => (e d).refFollowed choice c :=
  ⟨_, (State.follow_of_off (s := s.withDev e) hoff (Dev.pllsOff_of_keeps hkeeps (by decide) hplls) choice errors).trans (State.withDev_withDev ..)⟩

end Input

/-! ## The obligation, part by part -/

section Parts

variable {s : State} (input : Fin 2) (errors : List Int)

theorem Dev.refChoice_auto {d : Dev} (hsel : d.rd F.CLK_REF_CTL_SELECT = 0) (hnow : d.refState (d.rd F.CLK_REF_STATUS_FOLLOWING_B) ≠ 1)
    (hother : d.refState (1 - d.rd F.CLK_REF_STATUS_FOLLOWING_B) ≠ 1) : d.refChoice = d.rd F.CLK_REF_STATUS_FOLLOWING_B := by
  rw [Dev.refChoice, hsel]
  exact (if_neg hnow).trans (if_neg hother)

/-- A window's reading of REFCLK_A shown. -/
def Dev.ppmShown (d : Dev) (ppm : Int) : Dev := if input = 0 then d.wr F.CLK_REF_STATUS_A_PPM (toField 16 ppm) else d

theorem Dev.keeps_ppmShown (d : Dev) (ppm : Int) : d.Keeps (if input = 0 then [F.CLK_REF_STATUS_A_PPM] else []) (d.ppmShown input ppm) := by
  rw [Dev.ppmShown]
  split
  · exact Dev.keeps_wr (by simp) _
  · exact Dev.Keeps.refl _ d

theorem Dev.keeps_ppmShown_of (d : Dev) (ppm : Int) {l : List Field} (hl : F.CLK_REF_STATUS_A_PPM ∈ l) : d.Keeps l (d.ppmShown input ppm) := by
  refine (Dev.keeps_ppmShown input d ppm).mono ?_
  split
  · exact List.cons_subset.mpr ⟨hl, List.nil_subset _⟩
  · exact List.nil_subset _

theorem Dev.rd_ppmShown (d : Dev) (ppm : Int) (h : input = 0) : (d.ppmShown input ppm).rd F.CLK_REF_STATUS_A_PPM = (ppm % 2 ^ 16).toNat := by
  rw [Dev.ppmShown, if_pos h]
  exact (Dev.rd_wr_same d _ _).trans (toField_mod 16 ppm)

theorem Dev.ppmShown_kept {β : Type} (g : Dev → β) (hg : ∀ (e : Dev) m, g { e with fields := m } = g e) (d : Dev) (ppm : Int) :
    g (d.ppmShown input ppm) = g d := by
  rw [Dev.ppmShown]
  split
  · exact hg d _
  · rfl

theorem Dev.refState_ppmShown (d : Dev) (ppm : Int) (i : Nat) : (d.ppmShown input ppm).refState i = d.refState i :=
  have hkeeps := Dev.keeps_ppmShown_of input d ppm (l := [F.CLK_REF_STATUS_A_PPM]) (by simp)
  Dev.refState_congr (List.forall_mem_cons.mpr ⟨hkeeps _ (by decide), List.forall_mem_cons.mpr ⟨hkeeps _ (by decide),
    fun _ h => absurd h List.not_mem_nil⟩⟩) i

theorem exec_refLost_of_qualified (h : s.dev.refState input = 1) : exec (.refLost input errors) s =
    .next ((s.withDev fun d => d.refFault input 2 .refLost).follow (s.dev.refFault input 2 .refLost).refChoice errors) :=
  congrArg Host.Outcome.next (if_neg (not_not_intro h))

theorem exec_refWindow (ppm : Int) : exec (.refWindow input ppm errors) s =
    .next (if s.dev.refState input ≠ 1 ∨ ppm.natAbs ≤ 10000 then s.withDev fun d => d.ppmShown input ppm
      else (s.withDev fun d => (d.ppmShown input ppm).refFault input 3 .refBad).follow
        ((s.dev.ppmShown input ppm).refFault input 3 .refBad).refChoice errors) := by
  have hshown : (if input = 0 then s.withDev fun d => d.wr F.CLK_REF_STATUS_A_PPM (toField 16 ppm) else s) = s.withDev fun d => d.ppmShown input ppm := by
    split
    · next h => exact State.withDev_congr (if_pos h).symm
    · next h => exact (State.withDev_eq_self (f := fun d => d.ppmShown input ppm) (if_neg h)).symm
  refine Eq.trans (b := execRefWindow input ppm errors s) rfl (congrArg Host.Outcome.next ?_)
  dsimp only
  rw [hshown, State.withDev_dev, Dev.refState_ppmShown]
  rfl

variable (hoff : s.dev.countersOff = true)
include hoff

theorem Dev.refFault_countersOff (i st : Nat) (t : FaultType) : (s.dev.refFault i st t).countersOff = true :=
  (Dev.setRef_kept Dev.countersOff (fun _ _ => rfl) s.dev i st).trans hoff

theorem refQualify_off (hplls : s.dev.PllsOff) : ∃ t, exec (.refQualify input errors) s = .next t ∧ s.frame t refFields ∧ t.dev.refState input = 1 := by
  have hkeeps := Dev.keeps_setRef s.dev input 1
  obtain ⟨c, hfollow⟩ := State.follow_change (e := fun d => d.setRef input 1) (hkeeps.mono (by simp))
    ((Dev.setRef_kept Dev.countersOff (fun _ _ => rfl) s.dev input 1).trans hoff) hplls (s.dev.setRef input 1).refChoice errors
  refine ⟨_, congrArg Host.Outcome.next hfollow, State.frame_withDev ?_, (Dev.refState_refFollowed ..).trans (Dev.refState_setRef _ _ (by decide))⟩
  exact Dev.Keeps.trans (hkeeps.mono (by simp [refFields])) ((Dev.keeps_refFollowed _ _ c).mono (by simp [refFields]))

theorem refLost_off (h : s.dev.refState input = 1) (hplls : s.dev.PllsOff) : ∃ t, exec (.refLost input errors) s = .next t ∧ s.frame t refFields ∧
    t.dev.refState input = 2 ∧ t.dev.raised.length = s.dev.raised.length + 1 := by
  have hkeeps := Dev.keeps_refFault s.dev input 2 .refLost
  obtain ⟨c, hfollow⟩ := State.follow_change (e := fun d => d.refFault input 2 .refLost) (hkeeps.mono (by simp)) (Dev.refFault_countersOff hoff ..) hplls
    (s.dev.refFault input 2 .refLost).refChoice errors
  refine ⟨_, (exec_refLost_of_qualified input errors h).trans (congrArg Host.Outcome.next hfollow), State.frame_withDev ?_,
    (Dev.refState_refFollowed ..).trans (Dev.refState_setRef _ _ (by decide)), ?_⟩
  · exact Dev.Keeps.trans (hkeeps.mono (by simp [refFields])) ((Dev.keeps_refFollowed _ _ c).mono (by simp [refFields]))
  · rw [State.withDev_dev, Dev.refFollowed_raised, Dev.refFault, Dev.raise_raised_length, Dev.setRef_kept Dev.raised fun _ _ => rfl]

theorem refWindow_off (ppm : Int) (h : s.dev.refState input = 1) (hfar : 10000 < ppm.natAbs) (hplls : s.dev.PllsOff) :
    ∃ t, exec (.refWindow input ppm errors) s = .next t ∧ s.frame t (F.CLK_REF_STATUS_A_PPM :: refFields) ∧
      t.dev.refState input = 3 ∧ t.dev.raised.length = s.dev.raised.length + 1 := by
  have hkeeps : s.dev.Keeps [F.CLK_REF_STATUS_A_STATE, F.CLK_REF_STATUS_B_STATE, F.CLK_REF_STATUS_A_PPM]
      ((s.dev.ppmShown input ppm).refFault input 3 .refBad) :=
    Dev.Keeps.trans (Dev.keeps_ppmShown_of input s.dev ppm (by simp)) ((Dev.keeps_refFault _ input 3 .refBad).mono (by simp))
  have hoff' : (s.withDev fun d => d.ppmShown input ppm).dev.countersOff = true := (Dev.ppmShown_kept input Dev.countersOff (fun _ _ => rfl) s.dev ppm).trans hoff
  obtain ⟨c, hfollow⟩ := State.follow_change (e := fun d => (d.ppmShown input ppm).refFault input 3 .refBad) hkeeps
    (Dev.refFault_countersOff hoff' ..) hplls ((s.dev.ppmShown input ppm).refFault input 3 .refBad).refChoice errors
  have hexec := (exec_refWindow (s := s) input errors ppm).trans (congrArg Host.Outcome.next (if_neg (by omega)))
  refine ⟨_, hexec.trans (congrArg Host.Outcome.next hfollow), State.frame_withDev ?_,
    (Dev.refState_refFollowed ..).trans (Dev.refState_setRef _ _ (by decide)), ?_⟩
  · exact Dev.Keeps.trans (hkeeps.mono (by simp [refFields])) ((Dev.keeps_refFollowed _ _ c).mono (by simp [refFields]))
  · rw [State.withDev_dev, Dev.refFollowed_raised, Dev.refFault, Dev.raise_raised_length, Dev.setRef_kept Dev.raised fun _ _ => rfl,
      Dev.ppmShown_kept input Dev.raised fun _ _ => rfl]

/-- The followed input lost, the other not QUALIFIED: every locked PLL holds over. -/
theorem refLost_holdover (h : s.dev.refState input = 1) (hnow : s.dev.rd F.CLK_REF_STATUS_FOLLOWING_B = input.val)
    (hsel : s.dev.rd F.CLK_REF_CTL_SELECT = 0) (hother : s.dev.refState (1 - input.val) ≠ 1) : ∃ t, exec (.refLost input errors) s = .next t ∧
      t.dev.refState input = 2 ∧ ∀ j < 68, t.dev.pll j = if s.dev.pll j = 2 ∨ s.dev.pll j = 4 then 3 else s.dev.pll j := by
  have hkeeps := Dev.keeps_refFault s.dev input 2 .refLost
  have hfollowing : (s.dev.refFault input 2 .refLost).rd F.CLK_REF_STATUS_FOLLOWING_B = input.val := (hkeeps _ (by decide)).trans hnow
  have hlost : (s.dev.refFault input 2 .refLost).refState input = 2 := Dev.refState_setRef _ _ (by decide)
  have hleft : (s.dev.refFault input 2 .refLost).refState (1 - input.val) ≠ 1 := by
    rw [Dev.refFault]
    exact fun hone => hother ((Dev.refState_setRef_ne s.dev (by omega) 2).symm.trans hone)
  have hchoice : (s.dev.refFault input 2 .refLost).refChoice = input.val := by
    rw [Dev.refChoice_auto ((hkeeps _ (by decide)).trans hsel) (by rw [hfollowing, hlost]; decide) (by rwa [hfollowing]), hfollowing]
  have hfollow := State.follow_of_lost (s := s.withDev fun d => d.refFault input 2 .refLost) hfollowing.symm (by rw [State.withDev_dev, hlost]; decide) errors
  obtain ⟨hrd, hpll⟩ := State.foldl_holdOver (List.range 68) List.nodup_range (fun j hj => List.mem_range.mp hj)
    (s.withDev fun d => d.refFault input 2 .refLost) (Dev.refFault_countersOff hoff ..)
  refine ⟨_, (exec_refLost_of_qualified input errors h).trans (congrArg Host.Outcome.next ((congrArg (State.follow _ · errors) hchoice).trans hfollow)), ?_,
    fun j hj => (hpll j hj).trans ?_⟩
  · refine (Dev.refState_congr (List.forall_mem_cons.mpr ⟨hrd _ (by decide) (by decide), List.forall_mem_cons.mpr ⟨hrd _ (by decide) (by decide),
      fun _ h => absurd h List.not_mem_nil⟩⟩) _).trans hlost
  · rw [State.withDev_dev, Dev.pll_of_keeps hkeeps (by decide) j]
    simp [hj]

theorem refReturnHold_off (hsel : s.dev.rd F.CLK_REF_CTL_SELECT = 0) (h : s.dev.refState 0 = 1) (hplls : s.dev.PllsOff) :
    ∃ t, exec (.refReturnHold errors) s = .next t ∧ s.frame t refFields ∧ t.dev.rd F.CLK_REF_STATUS_FOLLOWING_B = 0 := by
  have hexec : exec (.refReturnHold errors) s = .next (s.follow 0 errors) := congrArg Host.Outcome.next (if_neg (by rw [hsel, h]; decide))
  refine ⟨_, hexec.trans (congrArg Host.Outcome.next (State.follow_of_off hoff hplls 0 errors)), State.frame_withDev ?_, ?_⟩
  · exact (Dev.keeps_refFollowed s.dev 0 _).mono (by simp [refFields])
  · exact Dev.rd_followNoted s.dev (by decide)

end Parts

/-- Settles O48. -/
theorem referencesAreFollowed : Obligations.ReferencesAreFollowed := by
  unfold Obligations.ReferencesAreFollowed
  intro s input errors ppm hoff states off one far
  refine ⟨refQualify_off input errors hoff, rfl, fun h => congrArg Host.Outcome.next (if_pos h), refLost_off input errors hoff,
    fun h hnow hsel hother => refLost_holdover input errors hoff h hnow hsel ?_, fun h => ⟨_, (exec_refWindow input errors ppm).trans
      (congrArg Host.Outcome.next (if_pos (h.imp_right Nat.le_of_not_lt))), State.frame_withDev (Dev.keeps_ppmShown input s.dev ppm),
      fun hinput => Dev.rd_ppmShown input s.dev ppm hinput⟩,
    refWindow_off input errors hoff ppm, fun h => congrArg Host.Outcome.next (if_pos h), refReturnHold_off errors hoff⟩
  exact hother

end Sys2Proof.Machine

end

section
/-!
Power requests (R421, R424, Table 17.15): what POWER_CTL, POWER_STATUS and the request slot show.
-/

namespace Sys2Proof.Machine

open Sys2Proof

/-! ## The registers of a request -/

/-- The registers that a request and its check are written in. -/
def askedFields : List Field := [F.POWER_CTL_DOMAIN, F.POWER_CTL_OP, F.POWER_CTL_GO, F.DEV_REASON_CODE, F.DEV_REASON_TRIGGER, F.DEV_REASON_DETAIL,
  F.POWER_STATUS_REASON]

/-- Those, and the slot's. -/
def powerFields : List Field := F.POWER_STATUS_BUSY :: F.POWER_STATUS_CUR_DOMAIN :: F.POWER_STATUS_CUR_OP :: F.POWER_STATUS_PENDING ::
  F.POWER_STATUS_RESULT :: askedFields

section Congr

variable {d e : Dev} (h : d.Keeps powerFields e)
include h

/-- The registers of a request lie below all that its check reads. -/
theorem Dev.Keeps.abovePower {f : Field} (hf : F.POWER_WAKE_CFG_PIN_EN.key ≤ f.key) : e.rd f = d.rd f := by
  refine h f fun hmem => ?_
  obtain ⟨g, hg, heq⟩ := List.mem_map.mp hmem
  have hbelow : ∀ g ∈ powerFields, g.key < F.POWER_WAKE_CFG_PIN_EN.key := by decide
  have := hbelow g hg
  omega

theorem Dev.powerDomain_congr (i : Nat) : e.rd (F.POWER_DOMAIN_STATE i) = d.rd (F.POWER_DOMAIN_STATE i) := by
  refine h.abovePower ?_
  simp only [Field.key, F.POWER_DOMAIN_STATE, F.POWER_WAKE_CFG_PIN_EN]
  omega

theorem Dev.commonChecks_congr (t : Trigger) : e.commonChecks t = d.commonChecks t := by
  simp only [Dev.commonChecks, Dev.inventoried, Dev.flag, h F.INVENTORY_STATUS_CLOSE_ONLY (by decide), h F.SAFE_STATUS_ACTIVE (by decide)]

theorem Dev.patronsOn_congr : e.patronsOn = d.patronsOn := by
  have hpatron : ∀ p, e.rd (F.PATRON_CTL_ENABLE p) = d.rd (F.PATRON_CTL_ENABLE p) := fun p => h.abovePower (by
    simp only [Field.key, F.PATRON_CTL_ENABLE, F.POWER_WAKE_CFG_PIN_EN]
    omega)
  simp only [Dev.patronsOn, Dev.flag, hpatron]

theorem Dev.pll_congr_power (i : Nat) : e.pll i = d.pll i := by
  rw [Dev.pll_eq, Dev.pll_eq]
  refine h.abovePower ?_
  rw [pllState]
  split <;> simp only [Field.key, F.CLK_PORT_PLL_STATE, F.CLK_PLL_STATUS_STATE, F.POWER_WAKE_CFG_PIN_EN] <;> omega

theorem Dev.keeperLinks_congr (p : Nat) : (List.range 4).any (fun k => e.linkUp (4 * p + k)) = (List.range 4).any (fun k => d.linkUp (4 * p + k)) := by
  refine congrArg _ (funext fun k => ?_)
  rw [Dev.linkUp, Dev.linkUp, h.abovePower (by
    simp only [Field.key, F.PORT_LINK_STATE, F.POWER_WAKE_CFG_PIN_EN]
    omega)]

/-- What keeps a port from being gated reads no register of a request. -/
theorem Dev.portUse_congr (i : Nat) : e.rd (F.PORT_CTL_ENABLE i) = d.rd (F.PORT_CTL_ENABLE i) ∧ e.rd (F.PORT_CTL_MODE i) = d.rd (F.PORT_CTL_MODE i) ∧
    e.rd (F.COLL_DIM_VALID i) = d.rd (F.COLL_DIM_VALID i) ∧ e.rd (F.COLL_DIM_PORT i) = d.rd (F.COLL_DIM_PORT i) ∧
    e.rd (F.TWIN_STATUS_MODE i) = d.rd (F.TWIN_STATUS_MODE i) ∧ e.rd (F.PATRON_CTL_ENABLE i) = d.rd (F.PATRON_CTL_ENABLE i) ∧
    e.rd (F.PATRON_CTL_SEALED i) = d.rd (F.PATRON_CTL_SEALED i) ∧ e.rd (F.LEVEL_ROLE_ROLE i) = d.rd (F.LEVEL_ROLE_ROLE i) := by
  refine ⟨?_, ?_, ?_, ?_, ?_, ?_, ?_, ?_⟩ <;> refine h.abovePower ?_ <;>
    simp only [Field.key, F.PORT_CTL_ENABLE, F.PORT_CTL_MODE, F.COLL_DIM_VALID, F.COLL_DIM_PORT, F.TWIN_STATUS_MODE, F.PATRON_CTL_ENABLE,
      F.PATRON_CTL_SEALED, F.LEVEL_ROLE_ROLE, F.POWER_WAKE_CFG_PIN_EN] <;> omega

end Congr

section Checks

variable {s t : State} (hdev : s.dev.Keeps powerFields t.dev) (hlayout : t.layout = s.layout)
include hdev hlayout

theorem State.houseLinkValid_congr : t.houseLinkValid = s.houseLinkValid := by
  have hlink : ∀ p k, t.dev.linkInMode p k = s.dev.linkInMode p k := fun p k => by
    rw [Dev.linkInMode, (Dev.portUse_congr hdev p).2.1, Dev.linkInMode]
  simp only [State.houseLinkValid, hlayout, Dev.flag, hdev F.HOUSE_LINK_PORT (by decide), hdev F.HOUSE_LINK_LINK (by decide),
    (Dev.portUse_congr hdev _).1, hlink]

theorem State.gateCode_congr (i : Nat) : t.gateCode i = s.gateCode i := by
  have huse := Dev.portUse_congr hdev
  simp only [forall_and] at huse
  obtain ⟨henable, -, hvalid, hport, htwin, hpatron, hsealed, hrole⟩ := huse
  have hkeeper : t.keeperUp = s.keeperUp := by rw [State.keeperUp, hlayout, Dev.keeperLinks_congr hdev, State.keeperUp]
  have htest : t.dev.testAccess = s.dev.testAccess := by rw [Dev.testAccess, hdev _ (by decide), Dev.testAccess]
  have hhp3 : t.dev.hp3Used = s.dev.hp3Used := by
    rw [Dev.hp3Used, htest, Dev.slicing, hdev _ (by decide), Dev.taking, hdev F.INVENTORY_STATUS_STATE (by decide), Dev.hp3Used, Dev.slicing, Dev.taking]
  have hresting : ∀ l, t.dev.resting l = s.dev.resting l := fun l => by
    rw [Dev.resting, Dev.role, hrole, hdev F.SPARE_STATUS_STATE (by decide), Dev.resting, Dev.role]
  simp only [State.gateCode, Dev.concourseIdle, Dev.role, Dev.flag, henable, hlayout, State.houseLinkValid_congr hdev hlayout,
    hdev F.HOUSE_LINK_PORT (by decide), hvalid, hport, htwin, hpatron, hsealed, hdev F.DEV_REG_ACTIVE (by decide), Dev.pll_congr_power hdev, hhp3, hrole,
    hresting, htest, hkeeper]
  rfl

theorem State.powerCode_congr (hfuses : t.fuses = s.fuses) (hflt : t.dev.flt = s.dev.flt) (op i : Nat) : t.powerCode op i = s.powerCode op i := by
  simp only [State.powerCode, Dev.powerDomain_congr hdev, State.fused, hfuses, State.gateCode_congr hdev hlayout, Dev.heldOff, hflt]
  rfl

omit hlayout in
theorem State.powerDone_congr (hfuses : t.fuses = s.fuses) (op i : Nat) : t.powerDone op i = s.powerDone op i := by
  simp only [State.powerDone, Dev.powerDomain_congr hdev, State.fused, hfuses]

end Checks

/-! ## GO of POWER_CTL -/

section Go

variable (s : State) (d : Dev) (op i : Nat)

/-- The domain and the operation written. -/
def Dev.powerAsked : Dev := d.wrs [(F.POWER_CTL_DOMAIN, i), (F.POWER_CTL_OP, op)]

/-- The first check of a request that fails; 0 where none does. -/
def State.powerFirst : Nat :=
  firstCode ((if op = 2 then [] else s.dev.commonChecks .power) ++ (if op = 2 then [(s.dev.patronsOn, 0xC6)]
    else if op = 3 then [(true, 0xC2)] else [(decide (s.powerCode op i ≠ 0), s.powerCode op i)]))

/-- The code of a request. -/
def State.goCode : Nat := (s.withDev fun d => d.powerAsked op i).powerFirst op i

/-- The check recorded. -/
def Dev.powerReasoned (code : Nat) : Dev := (d.powerAsked op i).reason .power (if op = 2 then 0xFFFF else i) code [F.POWER_STATUS_REASON]

/-- A request written and checked. -/
def State.powerChecked : State := s.withDev fun d => d.powerReasoned op i (s.goCode op i)

/-- A request in the pending slot. -/
def Dev.powerPending (r : PowerReq) : Dev := ({ d with pow.pend := some r } : Dev).wrs [(F.POWER_STATUS_PENDING, 1), (F.POWER_CTL_GO, 1)]

/-- A request that passed its checks starts, or waits. -/
def State.powerTake (r : PowerReq) : State :=
  if s.dev.powerMay r ∧ s.dev.pow.pend.isNone then (s.powerBegin r).powerPump
  else ((s.withDev fun d => if d.pow.pend.isSome then (d.wr F.POWER_STATUS_RESULT 2).count 0x0802 0 else d).withDev fun d => d.powerPending r).powerPump

theorem State.powerGo_eq : s.powerGo op i =
    if s.goCode op i ≠ 0 then (s.powerChecked op i).withDev fun d =>
      d.wr F.POWER_CTL_GO (if d.pow.cur.isSome ∨ d.pow.pend.isSome then (s.dev.powerAsked op i).rd F.POWER_CTL_GO else 0)
    else if op ≠ 2 ∧ (s.powerChecked op i).powerDone op i then (s.powerChecked op i).withDev fun d => d.wr F.POWER_STATUS_RESULT 0
    else (s.powerChecked op i).powerTake { op := op, domain := i } := rfl

theorem Dev.keeps_powerAsked : d.Keeps askedFields (d.powerAsked op i) := Dev.keeps_wrs (by simp [askedFields])

theorem Dev.keeps_powerReasoned (code : Nat) : d.Keeps askedFields (d.powerReasoned op i code) :=
  Dev.Keeps.trans (Dev.keeps_powerAsked d op i) ((Dev.keeps_reason _ _ _ code [F.POWER_STATUS_REASON]).mono (by simp [askedFields, reasonFields]))

theorem askedFields_subset : askedFields ⊆ powerFields := List.subset_append_right [_, _, _, _, _] askedFields

theorem Dev.powerReasoned_kept {β : Type} (g : Dev → β) (hg : ∀ (e : Dev) m, g { e with fields := m } = g e) (code : Nat) : g (d.powerReasoned op i code) = g d :=
  (hg _ _).trans ((Dev.wrs_kept g hg _ _).trans (Dev.wrs_kept g hg d _))

theorem Dev.powerReasoned_pow (code : Nat) : (d.powerReasoned op i code).pow = d.pow := Dev.powerReasoned_kept d op i Dev.pow (fun _ _ => rfl) code

theorem Dev.rd_powerReasoned {code : Nat} (h : code < 256) : (d.powerReasoned op i code).rd F.POWER_STATUS_REASON = code ∧
    (d.powerReasoned op i code).rd F.DEV_REASON_CODE = code :=
  ⟨(Dev.rd_wr_same _ _ _).trans (Nat.mod_eq_of_lt h), (Dev.rd_reason_code _ _ _ code _ (by decide)).trans (Nat.mod_eq_of_lt h)⟩

end Go

section Outcomes

variable {s : State} {op i : Nat}

theorem State.powerMay_checked (r : PowerReq) : (s.powerChecked op i).dev.powerMay r = s.dev.powerMay r := by
  have hkeeps := Dev.keeps_powerReasoned s.dev op i (s.goCode op i)
  rw [Dev.powerMay, Dev.powerMay, State.powerChecked, State.withDev_dev, Dev.powerReasoned_pow, hkeeps _ (by decide), Dev.flag, hkeeps _ (by decide), Dev.flag]

theorem State.powerDone_checked : (s.powerChecked op i).powerDone op i = s.powerDone op i :=
  State.powerDone_congr (t := s.powerChecked op i) ((Dev.keeps_powerReasoned s.dev op i _).mono askedFields_subset) rfl op i

/-- A request that a check turns away. -/
theorem State.powerGo_fail (hne : s.goCode op i ≠ 0) (hlt : s.goCode op i < 256) : s.frame (s.powerGo op i) askedFields ∧
    (s.powerGo op i).dev.rd F.POWER_STATUS_REASON = s.goCode op i ∧ (s.powerGo op i).dev.rd F.DEV_REASON_CODE = s.goCode op i := by
  obtain ⟨hreason, hcode⟩ := Dev.rd_powerReasoned s.dev op i hlt
  rw [State.powerGo_eq, if_pos hne, State.powerChecked, State.withDev_withDev]
  refine ⟨State.frame_withDev ?_, (Dev.rd_wr_ne _ (by decide) _).trans hreason, (Dev.rd_wr_ne _ (by decide) _).trans hcode⟩
  exact Dev.Keeps.trans (Dev.keeps_powerReasoned s.dev op i (s.goCode op i)) (Dev.keeps_wr (by simp [askedFields]) _)

/-- A request that is done as it stands. -/
theorem State.powerGo_done (hcode : s.goCode op i = 0) (hop : op ≠ 2) (hdone : s.powerDone op i = true) :
    s.frame (s.powerGo op i) (F.POWER_STATUS_RESULT :: askedFields) ∧ (s.powerGo op i).dev.rd F.POWER_STATUS_RESULT = 0 ∧
      (s.powerGo op i).dev.rd F.POWER_STATUS_REASON = 0 := by
  obtain ⟨hreason, -⟩ := Dev.rd_powerReasoned s.dev op i (code := s.goCode op i) (by omega)
  rw [State.powerGo_eq, if_neg (not_not_intro hcode), if_pos ⟨hop, State.powerDone_checked.trans hdone⟩, State.powerChecked, State.withDev_withDev]
  refine ⟨State.frame_withDev ?_, Dev.rd_wr_same _ _ 0, (Dev.rd_wr_ne _ (by decide) 0).trans (hreason.trans hcode)⟩
  exact Dev.Keeps.trans ((Dev.keeps_powerReasoned s.dev op i (s.goCode op i)).mono (by simp)) (Dev.keeps_wr (by simp) 0)

/-- A request that has to be carried out. -/
theorem State.powerGo_take (hcode : s.goCode op i = 0) (hdone : op = 2 ∨ s.powerDone op i = false) :
    s.powerGo op i = (s.powerChecked op i).powerTake { op := op, domain := i } := by
  rw [State.powerGo_eq, if_neg (not_not_intro hcode), if_neg]
  rw [State.powerDone_checked]
  rintro ⟨hop, h⟩
  exact absurd h (by simp [hdone.resolve_left hop])

theorem Dev.powerPending_pow (d : Dev) (r : PowerReq) : (d.powerPending r).pow = { d.pow with pend := some r } := Dev.wrs_kept Dev.pow (fun _ _ => rfl) _ _

theorem Dev.keeps_powerPending (d : Dev) (r : PowerReq) : d.Keeps [F.POWER_STATUS_PENDING, F.POWER_CTL_GO] (d.powerPending r) :=
  Dev.Keeps.trans (e := { d with pow.pend := some r }) (Dev.keeps_of_fields rfl) (Dev.keeps_wrs (by simp))

theorem Dev.rd_powerPending (d : Dev) (r : PowerReq) : (d.powerPending r).rd F.POWER_STATUS_PENDING = 1 :=
  Dev.rd_wrs_of_mem _ (l := [(F.POWER_STATUS_PENDING, 1), (F.POWER_CTL_GO, 1)]) (v := 1) (by decide) (by simp)

theorem State.powerPump_of_other {r : PowerReq} (h : s.dev.pow.cur = some r) (hop : r.op ≠ 0 ∨ s.dev.rd (F.POWER_DOMAIN_STATE r.domain) ≠ 0) :
    s.powerPump = s := by
  rw [State.powerPump, h]
  exact if_neg fun ⟨h0, hst, _⟩ => hop.elim (fun hop => hop h0) fun hop => hop hst

theorem State.powerPump_of_idle (hcur : s.dev.pow.cur = none) (hpend : s.dev.pow.pend = none) : s.powerPump = s := by
  rw [State.powerPump, hcur, hpend]

/-- A request while another is carried out waits in the slot. -/
theorem State.powerGo_waits (hcode : s.goCode op i = 0) (hdone : s.powerDone op i = false) {r : PowerReq} (hcur : s.dev.pow.cur = some r) (hop : r.op ≠ 0)
    (hpend : s.dev.pow.pend = none) : s.frame (s.powerGo op i) (F.POWER_STATUS_PENDING :: askedFields) ∧
      (s.powerGo op i).dev.rd F.POWER_STATUS_PENDING = 1 ∧ (s.powerGo op i).dev.pow.pend = some { op := op, domain := i } ∧
      (s.powerGo op i).dev.pow.cur = some r := by
  have hbusy : ¬ ((s.powerChecked op i).dev.powerMay { op := op, domain := i } = true ∧ (s.powerChecked op i).dev.pow.pend.isNone = true) := by
    rw [State.powerMay_checked, Dev.powerMay, hcur]
    simp
  have hfree : ((s.dev.powerReasoned op i (s.goCode op i)).pow.pend.isSome = true) = False := by rw [Dev.powerReasoned_pow, hpend]; simp
  have hslot : (s.powerChecked op i).withDev (fun d => if d.pow.pend.isSome then (d.wr F.POWER_STATUS_RESULT 2).count 0x0802 0 else d) =
      s.powerChecked op i := State.withDev_eq_self (if_neg (by rw [State.powerChecked, State.withDev_dev, hfree]; exact not_false))
  have hpow : ((s.dev.powerReasoned op i (s.goCode op i)).powerPending { op := op, domain := i }).pow =
      { s.dev.pow with pend := some { op := op, domain := i } } := by rw [Dev.powerPending_pow, Dev.powerReasoned_pow]
  have hwait : s.powerGo op i = s.withDev fun d => (d.powerReasoned op i (s.goCode op i)).powerPending { op := op, domain := i } := by
    rw [State.powerGo_take hcode (Or.inr hdone), State.powerTake, if_neg hbusy, hslot, State.powerChecked, State.withDev_withDev]
    exact State.powerPump_of_other (r := r) ((congrArg PowerSt.cur hpow).trans hcur) (Or.inl hop)
  rw [hwait]
  refine ⟨State.frame_withDev ?_, Dev.rd_powerPending _ _, congrArg PowerSt.pend hpow, (congrArg PowerSt.cur hpow).trans hcur⟩
  exact Dev.Keeps.trans ((Dev.keeps_powerReasoned s.dev op i (s.goCode op i)).mono (by simp)) ((Dev.keeps_powerPending _ _).mono (by simp [askedFields]))

end Outcomes

/-! ## A request started -/

section Start

variable (d : Dev) (r : PowerReq)

/-- A request in progress. -/
def Dev.powerStarted : Dev := ({ d with pow.cur := some r } : Dev).wrs
  [(F.POWER_STATUS_BUSY, 1), (F.POWER_STATUS_CUR_DOMAIN, r.domain), (F.POWER_STATUS_CUR_OP, r.op), (F.POWER_CTL_GO, 1)]

theorem Dev.keeps_powerStarted : d.Keeps [F.POWER_STATUS_BUSY, F.POWER_STATUS_CUR_DOMAIN, F.POWER_STATUS_CUR_OP, F.POWER_CTL_GO] (d.powerStarted r) :=
  Dev.Keeps.trans (e := { d with pow.cur := some r }) (Dev.keeps_of_fields rfl) (Dev.keeps_wrs (by simp))

theorem Dev.powerStarted_pow : (d.powerStarted r).pow = { d.pow with cur := some r } := Dev.wrs_kept Dev.pow (fun _ _ => rfl) _ _

theorem Dev.powerStarted_flt : (d.powerStarted r).flt = d.flt := Dev.wrs_kept Dev.flt (fun _ _ => rfl) _ _

theorem State.powerBegin_eq (s : State) : s.powerBegin r = (s.withDev fun d => d.powerStarted r).powerCarry r := rfl

theorem Dev.rd_powerStarted : (d.powerStarted r).rd F.POWER_STATUS_BUSY = 1 ∧ (d.powerStarted r).rd F.POWER_STATUS_CUR_DOMAIN = r.domain % 2 ^ 8 ∧
    (d.powerStarted r).rd F.POWER_STATUS_CUR_OP = r.op % 2 ^ 2 := by
  have hnodup : ([F.POWER_STATUS_BUSY, F.POWER_STATUS_CUR_DOMAIN, F.POWER_STATUS_CUR_OP, F.POWER_CTL_GO].map Field.key).Nodup := by decide
  have hread : ∀ f v, (f, v) ∈ [(F.POWER_STATUS_BUSY, 1), (F.POWER_STATUS_CUR_DOMAIN, r.domain), (F.POWER_STATUS_CUR_OP, r.op), (F.POWER_CTL_GO, 1)] →
    (d.powerStarted r).rd f = v % 2 ^ f.width := fun f v hf => Dev.rd_wrs_of_mem _ hnodup hf
  exact ⟨hread _ 1 (by simp), hread _ r.domain (by simp), hread _ r.op (by simp)⟩

end Start

section Started

variable {s : State} {op i : Nat}

/-- The block with a request written, checked and in progress. -/
def State.powerRunning (s : State) (op i : Nat) : State :=
  s.withDev fun d => (d.powerReasoned op i (s.goCode op i)).powerStarted { op := op, domain := i }

theorem State.keeps_powerRunning (s : State) (op i : Nat) : s.dev.Keeps powerFields (s.powerRunning op i).dev :=
  Dev.Keeps.trans ((Dev.keeps_powerReasoned s.dev op i _).mono askedFields_subset) ((Dev.keeps_powerStarted _ _).mono (by simp [powerFields, askedFields]))

/-- The registers of a request that has started. -/
def startedFields : List Field := F.POWER_STATUS_BUSY :: F.POWER_STATUS_CUR_DOMAIN :: F.POWER_STATUS_CUR_OP :: askedFields

theorem State.keeps_powerRunning_started (s : State) (op i : Nat) : s.dev.Keeps startedFields (s.powerRunning op i).dev :=
  Dev.Keeps.trans ((Dev.keeps_powerReasoned s.dev op i _).mono (List.subset_append_right [_, _, _] askedFields))
    ((Dev.keeps_powerStarted _ _).mono (by simp [startedFields, askedFields]))

theorem State.powerRunning_pow (s : State) (op i : Nat) : (s.powerRunning op i).dev.pow = { s.dev.pow with cur := some { op := op, domain := i } } := by
  rw [State.powerRunning, State.withDev_dev, Dev.powerStarted_pow, Dev.powerReasoned_pow]

theorem State.powerRunning_flt (s : State) (op i : Nat) : (s.powerRunning op i).dev.flt = s.dev.flt := by
  rw [State.powerRunning, State.withDev_dev, Dev.powerStarted_flt]
  exact Dev.powerReasoned_kept _ _ _ Dev.flt (fun _ _ => rfl) _

theorem State.powerGo_starts (hcode : s.goCode op i = 0) (hdone : op = 2 ∨ s.powerDone op i = false)
    (hmay : s.dev.powerMay { op := op, domain := i } = true) (hpend : s.dev.pow.pend = none) :
    s.powerGo op i = ((s.powerRunning op i).powerCarry { op := op, domain := i }).powerPump := by
  have hfree : (s.powerChecked op i).dev.pow.pend.isNone = true := by
    rw [State.powerChecked, State.withDev_dev, Dev.powerReasoned_pow, hpend]
    rfl
  rw [State.powerGo_take hcode hdone, State.powerTake, if_pos ⟨(State.powerMay_checked _).trans hmay, hfree⟩, State.powerBegin_eq, State.powerChecked,
    State.withDev_withDev, State.powerRunning]

/-- The check of a gate or a wake passed once passes again when it starts. -/
theorem State.powerCode_running (hop : op < 2) (hcode : s.goCode op i = 0) : (s.powerRunning op i).powerCode op i = 0 := by
  have hasked : (s.withDev fun d => d.powerAsked op i).powerCode op i = s.powerCode op i :=
    State.powerCode_congr (t := s.withDev fun d => d.powerAsked op i) ((Dev.keeps_powerAsked s.dev op i).mono askedFields_subset) rfl rfl
      (Dev.wrs_kept Dev.flt (fun _ _ => rfl) _ _) op i
  have hrunning := State.powerCode_congr (State.keeps_powerRunning s op i) rfl rfl (State.powerRunning_flt s op i) op i
  rw [hrunning, ← hasked]
  rw [State.goCode, State.powerFirst, if_neg (by omega), if_neg (by omega), if_neg (by omega), Dev.commonChecks] at hcode
  refine Decidable.byContradiction fun hne => ?_
  rw [← ne_eq] at hne
  rw [decide_eq_true hne] at hcode
  revert hcode
  cases (s.withDev fun d => d.powerAsked op i).dev.inventoried <;>
    cases (s.withDev fun d => d.powerAsked op i).dev.flag F.SAFE_STATUS_ACTIVE && (decide (Trigger.power.code ≤ 4) || Trigger.power == .join || Trigger.power == .inject) <;>
    simp [firstCode, hne]

end Started

end Sys2Proof.Machine

end

section
/-!
Power domains switched (R420, R421, Tables 17.3, 17.4).
-/

namespace Sys2Proof.Machine

open Sys2Proof

/-! ## A wake and a gate started -/

section Start

variable {s : State} {op n : Nat}

theorem powerDomain_above (n : Nat) : F.POWER_WAKE_CFG_PIN_EN.key ≤ (F.POWER_DOMAIN_STATE n).key := by
  simp only [Field.key, F.POWER_DOMAIN_STATE, F.POWER_WAKE_CFG_PIN_EN]
  omega

theorem powerDomain_ne {f : Field} (hf : f.key < F.POWER_WAKE_CFG_PIN_EN.key) (n : Nat) : f.key ≠ (F.POWER_DOMAIN_STATE n).key :=
  Nat.ne_of_lt (Nat.lt_of_lt_of_le hf (powerDomain_above n))

theorem State.powerCarry_wake (hcode : s.powerCode 1 n = 0) (hst : s.dev.rd (F.POWER_DOMAIN_STATE n) = 3) :
    s.powerCarry { op := 1, domain := n } = s.withDev fun d => d.wr (F.POWER_DOMAIN_STATE n) 4 := by
  have hdone : ¬ s.powerDone 1 n = true := by simp [State.powerDone, hst]
  refine (if_neg (show ¬ (1 : Nat) = 2 by decide)).trans ?_
  dsimp only
  rw [if_neg (not_not_intro hcode), if_neg hdone, if_neg (show ¬ (1 : Nat) = 0 by decide)]
  exact if_pos hst

theorem State.powerCarry_gate (hcode : s.powerCode 0 n = 0) (hdone : s.powerDone 0 n = false) (hn : n < 64 ∨ 144 ≤ n ∧ n < 156 ∨ 164 ≤ n) :
    s.powerCarry { op := 0, domain := n } = s.withDev fun d => d.wr (F.POWER_DOMAIN_STATE n) 1 := by
  have hbay : ¬ (64 ≤ n ∧ n < 128) := by omega
  have hroom : ¬ (128 ≤ n ∧ n < 144) := by omega
  have htrolley : ¬ (156 ≤ n ∧ n < 164) := by omega
  have hheld : ¬ s.gateHeld n = true := by
    simp only [State.gateHeld, Bool.or_eq_true, Bool.and_eq_true, decide_eq_true_eq]
    omega
  refine (if_neg (show ¬ (0 : Nat) = 2 by decide)).trans ?_
  dsimp only
  rw [if_neg (not_not_intro hcode), if_neg (ne_true_of_eq_false hdone), if_pos rfl, if_neg hheld]
  exact (if_neg hbay).trans ((if_neg hroom).trans (if_neg htrolley))

/-- A request in progress whose domain has moved to a state. -/
def State.powerUnderWay (s : State) (op n v : Nat) : State := (s.powerRunning op n).withDev fun d => d.wr (F.POWER_DOMAIN_STATE n) v

theorem State.powerUnderWay_pow {v : Nat} : (s.powerUnderWay op n v).dev.pow = { s.dev.pow with cur := some { op := op, domain := n } } := by
  rw [State.powerUnderWay, State.withDev_dev, Dev.wr_pow, State.powerRunning_pow]

theorem State.powerUnderWay_pump {v : Nat} (hv : v < 8) (hne : v ≠ 0) : (s.powerUnderWay op n v).powerPump = s.powerUnderWay op n v := by
  refine State.powerPump_of_other (congrArg PowerSt.cur State.powerUnderWay_pow) (Or.inr ?_)
  rw [State.powerUnderWay, State.withDev_dev, Dev.rd_wr_same]
  exact fun hzero => hne ((Nat.mod_eq_of_lt hv).symm.trans hzero)

theorem State.powerUnderWay_reads (hn : n < 256) (hop : op < 4) {v : Nat} (hv : v < 8) :
    s.frame (s.powerUnderWay op n v)
      (F.POWER_STATUS_BUSY :: F.POWER_STATUS_CUR_DOMAIN :: F.POWER_STATUS_CUR_OP :: F.POWER_DOMAIN_STATE n :: askedFields) ∧
    (s.powerUnderWay op n v).dev.rd (F.POWER_DOMAIN_STATE n) = v ∧ (s.powerUnderWay op n v).dev.rd F.POWER_STATUS_BUSY = 1 ∧
    (s.powerUnderWay op n v).dev.rd F.POWER_STATUS_CUR_DOMAIN = n ∧ (s.powerUnderWay op n v).dev.rd F.POWER_STATUS_CUR_OP = op := by
  obtain ⟨hbusy, hdomain, hcur⟩ := Dev.rd_powerStarted (s.dev.powerReasoned op n (s.goCode op n)) { op := op, domain := n }
  have hkeeps : (s.powerRunning op n).dev.Keeps [F.POWER_DOMAIN_STATE n] (s.powerUnderWay op n v).dev := Dev.keeps_wr (by simp) v
  have hkept : ∀ f : Field, f.key < F.POWER_WAKE_CFG_PIN_EN.key → (s.powerUnderWay op n v).dev.rd f = (s.powerRunning op n).dev.rd f := fun f hf =>
    hkeeps f (by simpa using powerDomain_ne hf n)
  refine ⟨State.frame_trans (t := s.powerRunning op n) (State.frame_withDev ?_) (State.frame_withDev (hkeeps.mono (by simp))),
    (Dev.rd_wr_same _ _ v).trans (Nat.mod_eq_of_lt hv), (hkept _ (by decide)).trans hbusy,
    (hkept _ (by decide)).trans (hdomain.trans (Nat.mod_eq_of_lt hn)), (hkept _ (by decide)).trans (hcur.trans (Nat.mod_eq_of_lt hop))⟩
  exact (State.keeps_powerRunning_started s op n).mono (by simp [startedFields, askedFields])

theorem powerGo_wakes (hcode : s.goCode 1 n = 0) (hmay : s.dev.powerMay { op := 1, domain := n } = true) (hpend : s.dev.pow.pend = none)
    (hst : s.dev.rd (F.POWER_DOMAIN_STATE n) = 3) : s.powerGo 1 n = s.powerUnderWay 1 n 4 := by
  have hdone : s.powerDone 1 n = false := by simp [State.powerDone, hst]
  have hst' := (Dev.powerDomain_congr (State.keeps_powerRunning s 1 n) n).trans hst
  rw [State.powerGo_starts hcode (Or.inr hdone) hmay hpend, State.powerCarry_wake (State.powerCode_running (by decide) hcode) hst']
  exact State.powerUnderWay_pump (by decide) (by decide)

theorem powerGo_gates (hcode : s.goCode 0 n = 0) (hdone : s.powerDone 0 n = false) (hmay : s.dev.powerMay { op := 0, domain := n } = true)
    (hpend : s.dev.pow.pend = none) (hn : n < 64 ∨ 144 ≤ n ∧ n < 156 ∨ 164 ≤ n) : s.powerGo 0 n = s.powerUnderWay 0 n 1 := by
  have hdone' := (State.powerDone_congr (t := s.powerRunning 0 n) (State.keeps_powerRunning s 0 n) rfl 0 n).trans hdone
  rw [State.powerGo_starts hcode (Or.inr hdone) hmay hpend, State.powerCarry_gate (State.powerCode_running (by decide) hcode) hdone' hn]
  exact State.powerUnderWay_pump (by decide) (by decide)

end Start

/-! ## A request completed -/

section End

variable (d : Dev) {s : State}

theorem Dev.keeps_powerEnd (result : Nat) : d.Keeps [F.POWER_STATUS_BUSY, F.POWER_STATUS_RESULT, F.POWER_CTL_GO] (d.powerEnd result) :=
  Dev.Keeps.trans (e := { d with pow.cur := none, pow.cleanClose := false }) (Dev.keeps_of_fields rfl) (Dev.keeps_wrs (by simp))

theorem Dev.powerEnd_pow (result : Nat) : (d.powerEnd result).pow = { d.pow with cur := none, cleanClose := false } :=
  Dev.wrs_kept Dev.pow (fun _ _ => rfl) _ _

theorem Dev.powerEnd_kept {β : Type} (g : Dev → β) (hg : ∀ (e : Dev) m p, g { e with fields := m, pow := p } = g e) (result : Nat) :
    g (d.powerEnd result) = g d :=
  (Dev.wrs_kept g (fun e m => hg e m e.pow) { d with pow.cur := none, pow.cleanClose := false } _).trans (hg d d.fields _)

theorem Dev.rd_powerEnd {result : Nat} (h : result < 8) : (d.powerEnd result).rd F.POWER_STATUS_BUSY = 0 ∧
    (d.powerEnd result).rd F.POWER_STATUS_RESULT = result := by
  have hnodup : ([F.POWER_STATUS_BUSY, F.POWER_STATUS_RESULT, F.POWER_CTL_GO].map Field.key).Nodup := by decide
  have hread : ∀ f v, (f, v) ∈ [(F.POWER_STATUS_BUSY, 0), (F.POWER_STATUS_RESULT, result), (F.POWER_CTL_GO, d.pow.pend.isSome.toNat)] →
    (d.powerEnd result).rd f = v % 2 ^ f.width := fun f v hf => Dev.rd_wrs_of_mem _ hnodup hf
  exact ⟨hread _ 0 (by simp), (hread _ result (by simp)).trans (Nat.mod_eq_of_lt h)⟩

/-- A request reached: it ends where it is the one in progress, and no other starts. -/
theorem State.powerReached_eq (hpend : s.dev.pow.pend = none) (op i : Nat) :
    s.powerReached op i = if s.dev.pow.cur = some { op := op, domain := i } then s.withDev fun d => d.powerEnd 0 else s := by
  rw [State.powerReached]
  split
  · exact State.powerPump_of_idle (congrArg PowerSt.cur (Dev.powerEnd_pow _ 0)) ((congrArg PowerSt.pend (Dev.powerEnd_pow _ 0)).trans hpend)
  · rfl

/-- What the end of a request leaves: the registers above it, and the rest of the block. -/
structure State.EndsOnly (s t : State) : Prop where
  reads : ∀ f : Field, F.POWER_WAKE_CFG_PIN_EN.key ≤ f.key → t.dev.rd f = s.dev.rd f
  mem : t.mem = s.mem
  index : t.dev.index = s.dev.index
  raised : t.dev.raised = s.dev.raised

theorem State.powerReached_reads (hpend : s.dev.pow.pend = none) (op i : Nat) : s.EndsOnly (s.powerReached op i) ∧
    (s.dev.pow.cur = some { op := op, domain := i } → (s.powerReached op i).dev.rd F.POWER_STATUS_BUSY = 0 ∧
      (s.powerReached op i).dev.rd F.POWER_STATUS_RESULT = 0 ∧ (s.powerReached op i).dev.pow.cur = none) := by
  rw [State.powerReached_eq hpend]
  split
  · refine ⟨⟨fun f hf => Dev.keeps_powerEnd s.dev 0 f fun hmem => ?_, rfl, Dev.powerEnd_kept s.dev Dev.index (fun _ _ _ => rfl) 0,
      Dev.powerEnd_kept s.dev Dev.raised (fun _ _ _ => rfl) 0⟩, fun _ => ?_⟩
    · have hbelow : ∀ k ∈ [F.POWER_STATUS_BUSY, F.POWER_STATUS_RESULT, F.POWER_CTL_GO].map Field.key, k < F.POWER_WAKE_CFG_PIN_EN.key := by decide
      have := hbelow _ hmem
      omega
    · obtain ⟨hbusy, hresult⟩ := Dev.rd_powerEnd s.dev (result := 0) (by decide)
      exact ⟨hbusy, hresult, congrArg PowerSt.cur (Dev.powerEnd_pow _ 0)⟩
  · next h => exact ⟨⟨fun _ _ => rfl, rfl, rfl, rfl⟩, fun hcur => absurd hcur h⟩

end End

/-! ## A domain drained -/

section Drain

variable {s : State} (d : Dev) (i : Nat)

/-- A domain OFF: its state, ALIVE, and its gatings counted. -/
def Dev.gated : Dev := (d.wrs [(F.POWER_DOMAIN_STATE i, 3), (F.POWER_DOMAIN_ALIVE i, 0)]).bump (F.POWER_DOMAIN_GATINGS i)

theorem domainKeys_ne : (F.POWER_DOMAIN_STATE i).key ≠ (F.POWER_DOMAIN_ALIVE i).key ∧ (F.POWER_DOMAIN_STATE i).key ≠ (F.POWER_DOMAIN_GATINGS i).key ∧
    (F.POWER_DOMAIN_STATE i).key ≠ (F.POWER_DOMAIN_WAKE_FLAG i).key ∧ (F.POWER_DOMAIN_ALIVE i).key ≠ (F.POWER_DOMAIN_WAKE_FLAG i).key := by
  simp [Field.key, F.POWER_DOMAIN_STATE, F.POWER_DOMAIN_ALIVE, F.POWER_DOMAIN_GATINGS, F.POWER_DOMAIN_WAKE_FLAG]

theorem Dev.rd_gated : (d.gated i).rd (F.POWER_DOMAIN_STATE i) = 3 := by
  obtain ⟨halive, hgatings, -, -⟩ := domainKeys_ne i
  exact (Dev.rd_bump_ne _ hgatings).trans ((Dev.rd_wr_ne _ halive 0).trans (Dev.rd_wr_same d _ 3))

variable {d} in
theorem Dev.domainOff_eq (hoff : d.countersOff = true) (hst : d.rd (F.POWER_DOMAIN_STATE i) ≠ 3) : d.domainOff i = d.gated i :=
  (if_neg hst).trans (Dev.count_of_countersOff (d := d.gated i) hoff ..)

/-- The index of a wing lost with its supply. -/
def Dev.wingEmptied (w : Nat) : Dev := { d with index := SMap.put [] d.index w [], walkCache := SMap.put [] d.walkCache w [] }

theorem Dev.wingEmptied_index (w : Nat) : (d.wingEmptied w).index = SMap.put [] d.index w [] := rfl

theorem Dev.wingEmptied_fields (w : Nat) : (d.wingEmptied w).fields = d.fields := rfl

variable {i}

theorem domainPll_of_wing (h : 144 ≤ i) (h' : i < 156) : domainPll i = none :=
  (if_neg (by omega)).trans (if_neg (by omega))

theorem State.domainEmptied_wing (h : 144 ≤ i) (h' : i < 148) : s.domainEmptied i = s.withDev fun d => d.wingEmptied (i - 144) := by
  rw [State.domainEmptied, domainPll_of_wing h (by omega)]
  exact (if_neg (by omega)).trans ((if_neg (by omega)).trans ((if_neg (by omega)).trans (if_pos h')))

theorem State.domainEmptied_concourse (h : 148 ≤ i) (h' : i < 156) : s.domainEmptied i = s := by
  rw [State.domainEmptied, domainPll_of_wing (by omega) h']
  exact (if_neg (by omega)).trans ((if_neg (by omega)).trans ((if_neg (by omega)).trans ((if_neg (by omega)).trans
    ((if_neg (by omega)).trans (if_neg (by omega))))))

theorem State.domainDrained_wing (hoff : s.dev.countersOff = true) (hst : s.dev.rd (F.POWER_DOMAIN_STATE i) = 1) (h : 144 ≤ i) (h' : i < 148) :
    s.domainDrained i = s.withDev fun d => (d.gated i).wingEmptied (i - 144) := by
  have hgroup : ¬ (156 ≤ i ∧ i < 164 ∧ ¬ s.drained i ∧ s.dev.groupFits (i - 156)) := fun hi => by omega
  have hslice : ¬ (128 ≤ i ∧ i < 144 ∧ ¬ s.drained i) := fun hi => by omega
  have hdrained : s.drained i = true := (if_neg (by omega)).trans ((if_neg (by omega)).trans (if_neg (by omega)))
  refine (if_neg (not_not_intro hst)).trans ?_
  dsimp only
  rw [if_neg hgroup, if_neg hslice, if_pos hdrained, State.domainEmptied_wing h h', State.withDev_withDev]
  exact State.withDev_congr (congrArg (Dev.wingEmptied · (i - 144)) (Dev.domainOff_eq i hoff (by omega)))

end Drain

/-! ## A domain woken -/

section Wake

variable {s : State} (d : Dev) (i : Nat)

/-- A domain ON again. -/
def Dev.woken : Dev := d.wrs [(F.POWER_DOMAIN_STATE i, 0), (F.POWER_DOMAIN_ALIVE i, 1), (F.POWER_DOMAIN_WAKE_FLAG i, 1)]

theorem Dev.rd_woken : (d.woken i).rd (F.POWER_DOMAIN_STATE i) = 0 ∧ (d.woken i).rd (F.POWER_DOMAIN_WAKE_FLAG i) = 1 := by
  obtain ⟨halive, -, hflag, -⟩ := domainKeys_ne i
  exact ⟨(Dev.rd_wr_ne _ hflag 1).trans ((Dev.rd_wr_ne _ halive 1).trans (Dev.rd_wr_same d _ 0)), Dev.rd_wr_same _ _ 1⟩

/-- A domain whose wake check has failed. -/
def Dev.wakeFailed : Dev := (d.wrs [(F.POWER_DOMAIN_STATE i, 3), (F.POWER_DOMAIN_ALIVE i, 0)]).raise .domainWakeFail (Src.domain i)

theorem Dev.rd_wakeFailed : (d.wakeFailed i).rd (F.POWER_DOMAIN_STATE i) = 3 ∧ (d.wakeFailed i).rd (F.POWER_DOMAIN_ALIVE i) = 0 := by
  obtain ⟨halive, -, -, -⟩ := domainKeys_ne i
  exact ⟨(Dev.rd_wr_ne _ halive 0).trans (Dev.rd_wr_same d _ 3), Dev.rd_wr_same _ _ 0⟩

theorem Dev.wakeFailed_raised : (d.wakeFailed i).raised.length = d.raised.length + 1 := Dev.raise_raised_length ..

theorem Dev.woken_pow : (d.woken i).pow = d.pow := rfl

theorem Dev.wakeFailed_pow : (d.wakeFailed i).pow = d.pow := rfl

variable {i}

theorem State.wakeChecked_pass (hoff : s.dev.countersOff = true) (hst : s.dev.rd (F.POWER_DOMAIN_STATE i) = 5) (hi : i < 64 ∨ 144 ≤ i ∧ i < 156) :
    s.wakeChecked i true = s.withDev fun d => d.woken i := by
  have hwoken : (s.withDev fun d => d.domainWoken i) = s.withDev fun d => d.woken i :=
    State.withDev_congr (Dev.count_of_countersOff (d := s.dev.woken i) hoff ..)
  refine (if_neg (not_not_intro hst)).trans ((if_pos rfl).trans ?_)
  dsimp only
  rw [hwoken, if_neg (by omega), if_neg (by omega), if_neg (by omega)]

/-- What a failed wake check leaves of a wing or a concourse section. -/
theorem State.wakeChecked_fail (hst : s.dev.rd (F.POWER_DOMAIN_STATE i) = 5) (h : 144 ≤ i) (h' : i < 156) :
    ∃ e : Dev, e.fields = (s.dev.wakeFailed i).fields ∧ e.pow = s.dev.pow ∧ e.raised = (s.dev.wakeFailed i).raised ∧
      s.wakeChecked i false = s.withDev fun _ => e := by
  have hfail : s.wakeChecked i false = (s.withDev fun d => d.wakeFailed i).domainEmptied i :=
    (if_neg (not_not_intro hst)).trans ((if_neg Bool.false_ne_true).trans (if_neg (by omega)))
  by_cases hwing : i < 148
  · exact ⟨(s.dev.wakeFailed i).wingEmptied (i - 144), Dev.wingEmptied_fields _ _, rfl, rfl, by rw [hfail, State.domainEmptied_wing h hwing]; rfl⟩
  · exact ⟨s.dev.wakeFailed i, rfl, rfl, rfl, by rw [hfail, State.domainEmptied_concourse (by omega) h']; rfl⟩

end Wake

/-! ## The obligation, part by part -/

section Parts

variable {s : State}

theorem State.goCode_switch {op : Nat} (hop : op < 2) (n : Nat) : s.goCode op n = firstCode ((s.withDev fun d => d.powerAsked op n).dev.commonChecks .power ++
    [(decide ((s.withDev fun d => d.powerAsked op n).powerCode op n ≠ 0), (s.withDev fun d => d.powerAsked op n).powerCode op n)]) := by
  rw [State.goCode, State.powerFirst, if_neg (by omega), if_neg (by omega), if_neg (by omega)]

theorem State.goCode_invalid (n : Nat) : s.goCode 3 n = firstCode (s.dev.commonChecks .power ++ [(true, 0xC2)]) ∧ s.goCode 3 n ≠ 0 ∧ s.goCode 3 n < 256 := by
  have hcode : s.goCode 3 n = firstCode (s.dev.commonChecks .power ++ [(true, 0xC2)]) := by
    rw [← Dev.commonChecks_congr ((Dev.keeps_powerAsked s.dev 3 n).mono askedFields_subset)]
    rfl
  refine ⟨hcode, ?_⟩
  rw [hcode, Dev.commonChecks]
  cases s.dev.inventoried <;>
    cases s.dev.flag F.SAFE_STATUS_ACTIVE && (decide (Trigger.power.code ≤ 4) || Trigger.power == .join || Trigger.power == .inject) <;> decide

theorem State.goCode_close (n : Nat) : s.goCode 2 n = if s.dev.patronsOn then 0xC6 else 0 := by
  have hpatrons := Dev.patronsOn_congr ((Dev.keeps_powerAsked s.dev 2 n).mono askedFields_subset)
  have hcode : s.goCode 2 n = firstCode [((s.dev.powerAsked 2 n).patronsOn, 0xC6)] := rfl
  rw [hcode, hpatrons]
  cases s.dev.patronsOn <;> rfl

theorem exec_powerOpInvalid (domain : BitVec 8) : ∃ t, exec (.powerOpInvalid domain) s = .next t ∧ s.frame t askedFields ∧
    t.dev.rd F.POWER_STATUS_REASON = firstCode (s.dev.commonChecks .power ++ [(true, 0xC2)]) := by
  obtain ⟨hcode, hne, hlt⟩ := State.goCode_invalid (s := s) domain.toNat
  obtain ⟨hframe, hreason, -⟩ := State.powerGo_fail hne hlt
  exact ⟨_, rfl, hframe, hreason.trans hcode⟩

theorem exec_powerClose_of_patrons (h : s.dev.patronsOn = true) : ∃ t, exec .powerClose s = .next t ∧ s.frame t askedFields ∧
    t.dev.rd F.POWER_STATUS_REASON = 0xC6 := by
  have hcode : s.goCode 2 (s.dev.rd F.POWER_CTL_DOMAIN) = 0xC6 := (State.goCode_close _).trans (if_pos h)
  obtain ⟨hframe, hreason, -⟩ := State.powerGo_fail (s := s) (op := 2) (i := s.dev.rd F.POWER_CTL_DOMAIN) (by omega) (by omega)
  exact ⟨_, rfl, hframe, hreason.trans hcode⟩

variable {i : Fin 248}

theorem domainDrainComplete_of_other (h1 : s.dev.rd (F.POWER_DOMAIN_STATE i) ≠ 1) (h3 : s.dev.rd (F.POWER_DOMAIN_STATE i) ≠ 3) :
    exec (.domainDrainComplete i) s = .next s := by
  have hdrained : s.domainDrained i = s := if_pos h1
  refine Eq.trans (b := execDomainDrainComplete i s) rfl (congrArg Host.Outcome.next ?_)
  dsimp only
  rw [hdrained]
  exact if_neg h3

theorem domainDrainComplete_wing (hst : s.dev.rd (F.POWER_DOMAIN_STATE i) = 1) (h : 144 ≤ i.val) (h' : i.val < 148) (hoff : s.dev.countersOff = true) :
    ∃ t, exec (.domainDrainComplete i) s = .next t ∧
      (s.dev.pow.pend = none → t.dev.rd (F.POWER_DOMAIN_STATE i) = 3 ∧ SMap.get [] t.dev.index (i.val - 144) = [] ∧ t.mem = s.mem ∧
        (s.dev.pow.cur = some { op := 0, domain := i.val } → t.dev.rd F.POWER_STATUS_BUSY = 0 ∧ t.dev.rd F.POWER_STATUS_RESULT = 0 ∧
          t.dev.pow.cur = none)) := by
  have hdrained := State.domainDrained_wing hoff hst h h'
  have hoffed : (s.withDev fun d => (d.gated i).wingEmptied (i - 144)).dev.rd (F.POWER_DOMAIN_STATE i) = 3 :=
    (Dev.rd_congr (Dev.wingEmptied_fields _ _) _).trans (Dev.rd_gated s.dev i)
  refine ⟨(s.withDev fun d => (d.gated i).wingEmptied (i - 144)).powerReached 0 i, ?_, fun hpend => ?_⟩
  · refine Eq.trans (b := execDomainDrainComplete i s) rfl (congrArg Host.Outcome.next ?_)
    dsimp only
    rw [hdrained]
    exact if_pos hoffed
  · obtain ⟨⟨hreads, hmem, hindex, -⟩, hended⟩ := State.powerReached_reads (s := s.withDev fun d => (d.gated i).wingEmptied (i - 144)) hpend 0 i
    refine ⟨(hreads _ (powerDomain_above i)).trans hoffed, ?_, hmem, hended⟩
    rw [hindex, State.withDev_dev, Dev.wingEmptied_index]
    exact SMap.get_put_same (α := List IndexEntry) [] _ _ _

theorem domainSupplyGood_plain (hst : s.dev.rd (F.POWER_DOMAIN_STATE i) = 4) (hpll : domainPll i = none) :
    ∃ t, exec (.domainSupplyGood i) s = .next t ∧ s.frame t [F.POWER_DOMAIN_STATE i, F.POWER_DOMAIN_ALIVE i] ∧
      t.dev.rd (F.POWER_DOMAIN_STATE i) = 5 ∧ t.dev.rd (F.POWER_DOMAIN_ALIVE i) = 1 := by
  obtain ⟨halive, -, -, -⟩ := domainKeys_ne i.val
  refine ⟨s.withDev fun d => d.wrs [(F.POWER_DOMAIN_STATE i, 5), (F.POWER_DOMAIN_ALIVE i, 1)], congrArg Host.Outcome.next ?_,
    State.frame_withDev (Dev.keeps_wrs (by simp)), (Dev.rd_wr_ne _ halive 1).trans (Dev.rd_wr_same _ _ 5), Dev.rd_wr_same _ _ 1⟩
  refine (if_neg (not_not_intro hst)).trans ?_
  dsimp only
  rw [hpll]

theorem domainSupplyGood_pll {k : Nat} (hst : s.dev.rd (F.POWER_DOMAIN_STATE i) = 4) (hpll : domainPll i = some k) (hoff : s.dev.pll k = 0) :
    exec (.domainSupplyGood i) s = .next ((s.withDev fun d => d.wrs [(F.POWER_DOMAIN_STATE i, 5), (F.POWER_DOMAIN_ALIVE i, 1)]).pllTo k 1) := by
  have hkept : (s.dev.wrs [(F.POWER_DOMAIN_STATE i, 5), (F.POWER_DOMAIN_ALIVE i, 1)]).pll k = 0 := by
    refine (Dev.pll_of_keeps (Dev.keeps_wrs (List.Subset.refl _)) (fun f hf => ?_) k).trans hoff
    simp only [List.map_cons, List.map_nil, List.mem_cons, List.not_mem_nil, or_false] at hf
    have := i.isLt
    rcases hf with rfl | rfl <;> simp only [Field.key, F.POWER_DOMAIN_STATE, F.POWER_DOMAIN_ALIVE, F.CLK_PLL_STATUS_STATE] <;> omega
  refine congrArg Host.Outcome.next ((if_neg (not_not_intro hst)).trans ?_)
  dsimp only
  rw [hpll]
  exact if_pos hkept

theorem wakeCheck_pass (hst : s.dev.rd (F.POWER_DOMAIN_STATE i) = 5) (hpend : s.dev.pow.pend = none) (hoff : s.dev.countersOff = true)
    (hi : i.val < 64 ∨ 144 ≤ i.val ∧ i.val < 156) : ∃ t, exec (.domainWakeCheckDone i true) s = .next t ∧
      t.dev.rd (F.POWER_DOMAIN_STATE i) = 0 ∧ t.dev.rd (F.POWER_DOMAIN_WAKE_FLAG i) = 1 ∧ t.mem = s.mem ∧
      (s.dev.pow.cur = some { op := 1, domain := i.val } → t.dev.rd F.POWER_STATUS_RESULT = 0 ∧ t.dev.pow.cur = none) := by
  obtain ⟨hstate, hflag⟩ := Dev.rd_woken s.dev i
  obtain ⟨⟨hreads, hmem, -, -⟩, hended⟩ := State.powerReached_reads (s := s.withDev fun d => d.woken i)
    ((congrArg PowerSt.pend (Dev.woken_pow ..)).trans hpend) 1 i
  have hflag' : F.POWER_WAKE_CFG_PIN_EN.key ≤ (F.POWER_DOMAIN_WAKE_FLAG i).key := by
    simp only [Field.key, F.POWER_DOMAIN_WAKE_FLAG, F.POWER_WAKE_CFG_PIN_EN]
    omega
  refine ⟨(s.withDev fun d => d.woken i).powerReached 1 i, congrArg Host.Outcome.next ((if_neg (not_not_intro hst)).trans ?_),
    (hreads _ (powerDomain_above i)).trans hstate, (hreads _ hflag').trans hflag, hmem, fun hcur => (hended ?_).2⟩
  · rw [State.wakeChecked_pass hoff hst hi]
  · exact (congrArg PowerSt.cur (Dev.woken_pow ..)).trans hcur

theorem wakeCheck_fail (hst : s.dev.rd (F.POWER_DOMAIN_STATE i) = 5) (hpend : s.dev.pow.pend = none) (h : 144 ≤ i.val) (h' : i.val < 156) :
    ∃ t, exec (.domainWakeCheckDone i false) s = .next t ∧ t.dev.rd (F.POWER_DOMAIN_STATE i) = 3 ∧
      t.dev.rd (F.POWER_DOMAIN_ALIVE i) = 0 ∧ t.mem = s.mem ∧ t.dev.raised.length = s.dev.raised.length + 1 := by
  obtain ⟨e, hfields, hpow, hraised, hfail⟩ := State.wakeChecked_fail hst h h'
  obtain ⟨hstate, halive⟩ := Dev.rd_wakeFailed s.dev i
  obtain ⟨⟨hreads, hmem, -, hlength⟩, -⟩ := State.powerReached_reads (s := s.withDev fun _ => e) ((congrArg PowerSt.pend hpow).trans hpend) 1 i
  have halive' : F.POWER_WAKE_CFG_PIN_EN.key ≤ (F.POWER_DOMAIN_ALIVE i).key := by
    simp only [Field.key, F.POWER_DOMAIN_ALIVE, F.POWER_WAKE_CFG_PIN_EN]
    omega
  refine ⟨(s.withDev fun _ => e).powerReached 1 i, congrArg Host.Outcome.next ((if_neg (not_not_intro hst)).trans (congrArg (State.powerReached · 1 i) hfail)),
    (hreads _ (powerDomain_above i)).trans ((Dev.rd_congr hfields _).trans hstate), (hreads _ halive').trans ((Dev.rd_congr hfields _).trans halive), hmem, ?_⟩
  rw [hlength, State.withDev_dev, hraised, Dev.wakeFailed_raised]

end Parts

/-- A gate and a wake are requests of operation 0 and 1. -/
theorem exec_powerSwitch (s : State) (op : Fin 2) (domain : BitVec 8) :
    exec (if op = 0 then Instr.powerGate domain else .powerWake domain) s = .next (s.powerGo op domain.toNat) :=
  match op with
  | 0 => rfl
  | 1 => rfl

/-- Settles O50. -/
theorem powerDomainsAreSwitched : Obligations.PowerDomainsAreSwitched := by
  unfold Obligations.PowerDomainsAreSwitched
  intro s domain i n asked st
  refine ⟨exec_powerOpInvalid domain, exec_powerClose_of_patrons, fun op => ?_, domainDrainComplete_of_other, domainDrainComplete_wing,
    fun h => congrArg Host.Outcome.next (if_pos h), domainSupplyGood_plain, fun k => domainSupplyGood_pll,
    fun pass h => congrArg Host.Outcome.next (if_pos h), fun h hpend hoff => ⟨wakeCheck_pass h hpend hoff, wakeCheck_fail h hpend⟩⟩
  intro c u code
  have hgo : exec c s = .next (s.powerGo op n) := exec_powerSwitch s op domain
  have hcode : s.goCode op n = code := State.goCode_switch op.isLt n
  rw [hgo, ← hcode]
  refine ⟨fun hne hlt => ⟨_, rfl, State.powerGo_fail hne hlt⟩, fun hzero hdone => ⟨_, rfl, State.powerGo_done hzero (by omega) hdone⟩,
    fun r hzero hdone hcur hop hpend => ⟨_, rfl, State.powerGo_waits hzero hdone hcur hop hpend⟩, fun hzero hdone hmay hpend => ⟨fun hop hst => ?_, fun hop hn => ?_⟩⟩
  · subst hop
    exact ⟨_, congrArg Host.Outcome.next (powerGo_wakes hzero hmay hpend hst), State.powerUnderWay_reads domain.isLt (by decide) (by decide)⟩
  · subst hop
    exact ⟨_, congrArg Host.Outcome.next (powerGo_gates hzero hdone hmay hpend hn), State.powerUnderWay_reads domain.isLt (by decide) (by decide)⟩

end Sys2Proof.Machine

end

section
/-!
CLOSED: its entry, its commit point, and the wake sources (R408, R425, R426, R430 to R433, Table 17.5).
-/

namespace Sys2Proof.Machine

open Sys2Proof

/-! ## CLOSE -/

section Close

variable {s : State}

/-- The detectors and the wake pins are read from registers that no request writes. -/
theorem Dev.wakeAsserted_congr {d e : Dev} (h : d.Keeps powerFields e) (hlevel : e.pow.wakeLevel = d.pow.wakeLevel) : e.wakeAsserted = d.wakeAsserted := by
  simp only [Dev.wakeAsserted, Dev.wakePins, Dev.wakeLinks, Dev.wakeActive, hlevel, h F.POWER_WAKE_CFG_PIN_HIGH (by decide),
    h F.POWER_WAKE_CFG_PIN_EN (by decide), h F.POWER_PINS_LINK (by decide), h F.POWER_WAKE_CFG_LINK_EN (by decide)]
  rfl

/-- The registers of a CLOSE that has been asked for. -/
def closeFields : List Field := askedFields ++ [F.POWER_STATUS_BUSY, F.POWER_STATUS_CUR_DOMAIN, F.POWER_STATUS_CUR_OP, F.POWER_STATUS_RESULT]

variable {n : Nat}

theorem State.powerRunning_close : s.frame (s.powerRunning 2 n) closeFields ∧ (s.powerRunning 2 n).dev.rd F.POWER_STATUS_BUSY = 1 :=
  ⟨State.frame_withDev ((State.keeps_powerRunning_started s 2 n).mono (by simp [startedFields, closeFields])), (Dev.rd_powerStarted _ _).1⟩

variable (hpatrons : s.dev.patronsOn = false) (hmay : s.dev.powerMay { op := 2, domain := n } = true) (hpend : s.dev.pow.pend = none)
include hpatrons hmay hpend

theorem powerGo_close : s.powerGo 2 n = (if s.dev.wakeAsserted then (s.powerRunning 2 n).withDev fun d => d.powerEnd 4
    else (s.powerRunning 2 n).closeBegin).powerPump := by
  have hcode : s.goCode 2 n = 0 := (State.goCode_close n).trans (if_neg (ne_true_of_eq_false hpatrons))
  have hrunning := State.keeps_powerRunning s 2 n
  have hpatrons' : (s.powerRunning 2 n).dev.patronsOn = false := (Dev.patronsOn_congr hrunning).trans hpatrons
  have hwake := Dev.wakeAsserted_congr hrunning (by rw [State.powerRunning_pow])
  rw [State.powerGo_starts hcode (Or.inl rfl) hmay hpend, ← hwake]
  exact congrArg State.powerPump ((if_pos rfl).trans (if_neg (ne_true_of_eq_false hpatrons')))

/-- A CLOSE with a wake source asserted ends at once. -/
theorem powerGo_close_asserted (hwake : s.dev.wakeAsserted = true) : s.frame (s.powerGo 2 n) closeFields ∧
    (s.powerGo 2 n).dev.rd F.POWER_STATUS_RESULT = 4 ∧ (s.powerGo 2 n).dev.rd F.POWER_STATUS_BUSY = 0 ∧ (s.powerGo 2 n).dev.pow.cur = none := by
  have hpow := Dev.powerEnd_pow (s.powerRunning 2 n).dev 4
  have hpend' : ((s.powerRunning 2 n).dev.powerEnd 4).pow.pend = none := by
    rw [hpow, State.powerRunning_pow]
    exact hpend
  obtain ⟨hbusy, hresult⟩ := Dev.rd_powerEnd (s.powerRunning 2 n).dev (result := 4) (by decide)
  rw [powerGo_close hpatrons hmay hpend, if_pos hwake, State.powerPump_of_idle (s := (s.powerRunning 2 n).withDev fun d => d.powerEnd 4) (congrArg PowerSt.cur hpow) hpend']
  refine ⟨State.frame_trans (State.powerRunning_close).1 (State.frame_withDev ((Dev.keeps_powerEnd _ 4).mono ?_)), hresult, hbusy, congrArg PowerSt.cur hpow⟩
  simp [closeFields, askedFields]

end Close

/-! ## The commit point -/

section Commit

variable {s : State} (d : Dev)

theorem State.markClean_dev (s : State) : s.markClean.dev = s.dev ∧ s.markClean.layout = s.layout := by
  rw [State.markClean]
  split <;> exact ⟨rfl, rfl⟩

theorem State.markClean_of_dirty (h : s.dev.pow.cleanClose = false) : s.markClean = s := if_pos (ne_true_of_eq_false h)

/-- The commit point noted. -/
def Dev.commitNoted : Dev := ({ d with pow.committed := true } : Dev).wr F.POWER_STATUS_CLOSING 0

theorem Dev.rd_commitNoted {f : Field} (h : f.key ≠ F.POWER_STATUS_CLOSING.key) : d.commitNoted.rd f = d.rd f := Dev.rd_wr_ne _ h 0

theorem Dev.commitNoted_closing : d.commitNoted.rd F.POWER_STATUS_CLOSING = 0 := Dev.rd_wr_same _ _ 0

theorem Dev.commitNoted_committed : d.commitNoted.pow.committed = true := rfl

/-- The block past its commit point. -/
def State.closeCommitted (s : State) : State := { s.markClean with mem := [], dev := s.markClean.dev.commitNoted.isolateAll }

theorem exec_closeCommit_of_closing (hclosing : s.dev.closing = true) (hfoot : s.dev.footInReset = false) :
    exec .closeCommit s = .next s.closeCommitted := congrArg Host.Outcome.next (if_neg (by rw [hclosing, hfoot]; decide))

/-- The domains that are not OFF. -/
def Dev.suppliedDomains : List Nat := (List.range 248).filter fun i => d.rd (F.POWER_DOMAIN_STATE i) ≠ 3

/-- One domain isolated. -/
def Dev.isolate (i : Nat) : Dev := d.wrs [(F.POWER_DOMAIN_STATE i, 2), (F.POWER_DOMAIN_ALIVE i, 0)]

theorem Dev.isolateAll_eq : d.isolateAll = d.suppliedDomains.foldl Dev.isolate d := rfl

theorem Dev.isolate_pow (i : Nat) : (d.isolate i).pow = d.pow := rfl

theorem Dev.isolateAll_pow : d.isolateAll.pow = d.pow :=
  List.foldlRecOn d.suppliedDomains Dev.isolate (motive := fun e => e.pow = d.pow) rfl fun e he i _ => (Dev.isolate_pow e i).trans he

theorem Dev.rd_isolate_ne {i : Nat} {f : Field} (h : f.key ≠ (F.POWER_DOMAIN_STATE i).key) (h' : f.key ≠ (F.POWER_DOMAIN_ALIVE i).key) :
    (d.isolate i).rd f = d.rd f := (Dev.rd_wr_ne _ h' 0).trans (Dev.rd_wr_ne d h 2)

theorem Dev.rd_isolateAll_below {f : Field} (h : f.key < F.POWER_WAKE_CFG_PIN_EN.key) : d.isolateAll.rd f = d.rd f :=
  List.foldlRecOn d.suppliedDomains Dev.isolate (motive := fun e => e.rd f = d.rd f) rfl fun e he i _ =>
    (Dev.rd_isolate_ne e (powerDomain_ne h i) (by
      simp only [Field.key, F.POWER_DOMAIN_ALIVE, F.POWER_WAKE_CFG_PIN_EN] at h ⊢
      omega)).trans he

theorem Dev.rd_isolate_same (i : Nat) : (d.isolate i).rd (F.POWER_DOMAIN_STATE i) = 2 :=
  (Dev.rd_wr_ne _ (domainKeys_ne i).1 0).trans (Dev.rd_wr_same d _ 2)

theorem Dev.rd_isolate_other {i j : Nat} (h : j ≠ i) : (d.isolate i).rd (F.POWER_DOMAIN_STATE j) = d.rd (F.POWER_DOMAIN_STATE j) :=
  Dev.rd_isolate_ne d (by
    simp only [Field.key, F.POWER_DOMAIN_STATE]
    omega) (by
    simp only [Field.key, F.POWER_DOMAIN_STATE, F.POWER_DOMAIN_ALIVE]
    omega)

/-- Every domain that is not OFF is isolated. -/
theorem Dev.rd_isolateAll {i : Nat} (hi : i < 248) : d.isolateAll.rd (F.POWER_DOMAIN_STATE i) = if d.rd (F.POWER_DOMAIN_STATE i) = 3 then 3 else 2 := by
  have hother : ∀ (e : Dev) i j, j ≠ id i → (e.isolate i).rd (F.POWER_DOMAIN_STATE j) = e.rd (F.POWER_DOMAIN_STATE j) := fun e i j h =>
    Dev.rd_isolate_other e h
  rw [Dev.isolateAll_eq]
  split
  · next h =>
    refine (foldl_view_of_ne (view := fun (e : Dev) j => e.rd (F.POWER_DOMAIN_STATE j)) hother d.suppliedDomains d fun j hj hij => ?_).trans h
    subst hij
    exact absurd h (by simpa using (List.mem_filter.mp hj).2)
  · next h =>
    refine foldl_view_of_mem (view := fun (e : Dev) j => e.rd (F.POWER_DOMAIN_STATE j)) (upd := fun _ _ => 2) hother
      (fun e j => Dev.rd_isolate_same e j) Function.injective_id (List.nodup_range.filter _) d ?_
    exact List.mem_filter.mpr ⟨List.mem_range.mpr hi, by simpa using h⟩

theorem closeCommitted_reads : s.closeCommitted.mem = [] ∧ s.closeCommitted.dev.pow.committed = true ∧
    s.closeCommitted.dev.rd F.POWER_STATUS_CLOSING = 0 ∧ s.closeCommitted.layout = s.layout ∧
    (s.dev.pow.cleanClose = false → s.closeCommitted.ledger = s.ledger) ∧
    ∀ i : Fin 248, s.closeCommitted.dev.rd (F.POWER_DOMAIN_STATE i) = if s.dev.rd (F.POWER_DOMAIN_STATE i) = 3 then 3 else 2 := by
  obtain ⟨hdev, hlayout⟩ := s.markClean_dev
  have hcommitted : s.closeCommitted.dev = s.dev.commitNoted.isolateAll := by rw [State.closeCommitted, hdev]
  rw [hcommitted]
  refine ⟨rfl, ?_, (Dev.rd_isolateAll_below _ (by decide)).trans (Dev.commitNoted_closing _), hlayout, fun h => ?_,
    fun i => ?_⟩
  · rw [Dev.isolateAll_pow, Dev.commitNoted_committed]
  · rw [State.closeCommitted, State.markClean_of_dirty h]
  · rw [Dev.rd_isolateAll _ i.isLt, Dev.rd_commitNoted]
    simp only [Field.key, F.POWER_DOMAIN_STATE, F.POWER_STATUS_CLOSING]
    omega

end Commit

/-! ## CLOSED -/

section Closed

variable {s : State}

theorem closedNow_reads (s : State) (record : Nat) (thermal : Bool) : (s.closedNow record thermal).mem = [] ∧ (s.closedNow record thermal).layout = {} ∧
    (s.closedNow record thermal).ledger = s.ledger ∧ (s.closedNow record thermal).fuses = s.fuses ∧ (s.closedNow record thermal).dev.pow.closed = true ∧
    (s.closedNow record thermal).dev.keks = [] ∧ (s.closedNow record thermal).dev.vault = [] ∧ (s.closedNow record thermal).dev.pow.record = some record ∧
    (s.closedNow record thermal).dev.pow.latched = if thermal then none else s.dev.pow.latched := by
  have hpow := Dev.wrs_kept Dev.pow (fun _ _ => rfl)
  refine ⟨rfl, rfl, rfl, rfl, congrArg PowerSt.closed (hpow _ _), Dev.wrs_kept Dev.keks (fun _ _ => rfl) _ _, Dev.wrs_kept Dev.vault (fun _ _ => rfl) _ _,
    congrArg PowerSt.record (hpow _ _), congrArg PowerSt.latched (hpow _ _)⟩

theorem exec_closedReached : exec .closedReached s = .next (if s.dev.pow.shutdown then s.closedNow (tripRecord s.dev.pow) true
    else if s.dev.pow.committed then s.closedNow (wakeRecord s.dev.pow.latched) false else s) := rfl

end Closed

/-! ## Wake sources -/

section Wake

variable {s : State}

theorem foldl_bits (f : Nat → Bool) (k : Nat) : (List.range k).foldl (fun n m => if f m then n + 2 ^ m else n) 0 < 2 ^ k ∧
    ∀ m < k, ((List.range k).foldl (fun n m => if f m then n + 2 ^ m else n) 0).testBit m = f m := by
  induction k with
  | zero => exact ⟨Nat.one_pos, fun m hm => absurd hm (Nat.not_lt_zero m)⟩
  | succ k ih =>
    obtain ⟨hlt, hbits⟩ := ih
    rw [List.range_succ, List.foldl_append, List.foldl_cons, List.foldl_nil]
    generalize (List.range k).foldl (fun n m => if f m then n + 2 ^ m else n) 0 = n at hlt hbits ⊢
    have htop := Nat.testBit_lt_two_pow hlt
    cases hk : f k
    · refine ⟨by simpa using Nat.lt_trans hlt (Nat.pow_lt_pow_succ (by decide)), fun m hm => ?_⟩
      rw [if_neg Bool.false_ne_true]
      rcases Nat.lt_succ_iff_lt_or_eq.mp hm with hm | rfl
      · exact hbits m hm
      · rw [htop, hk]
    · refine ⟨by rw [if_pos rfl, Nat.pow_succ]; omega, fun m hm => ?_⟩
      rw [if_pos rfl, Nat.add_comm]
      rcases Nat.lt_succ_iff_lt_or_eq.mp hm with hm | rfl
      · rw [Nat.testBit_two_pow_add_gt hm, hbits m hm]
      · rw [Nat.testBit_two_pow_add_eq, htop, hk]
        rfl

theorem mapOf_testBit (f : Nat → Bool) {m : Nat} (hm : m < 64) : (mapOf f).testBit m = f m := (foldl_bits f 64).2 m hm

/-- A wake recorded. -/
def Dev.wakeRecorded (d : Dev) (cause source : Nat) : Dev :=
  { d with pow.latched := some (cause, source), pow.record := some (wakeRecord (some (cause, source))) }

/-- A wake latched in CLOSED; one of a link sets the alert. -/
def Dev.wakeLatched (d : Dev) (cause source : Nat) : Dev :=
  (d.wakeRecorded cause source).put F.FOOT_I3C_ALERT_WAKE (cause = 3 || d.flag F.FOOT_I3C_ALERT_WAKE)

/-- What a wake finds while no thermal shutdown runs. -/
theorem State.wake_of_running (hshutdown : s.dev.pow.shutdown = false) (htherm : s.dev.pow.thermLow = false) (cause source : Nat) :
    s.wake cause source = if s.dev.pow.closed then (if s.dev.pow.latched.isSome then s else s.withDev fun d => d.wakeLatched cause source)
      else if s.dev.pow.committed then s.withDev fun d => { d with pow.latched := d.pow.latched.or (some (cause, source)) }
      else if s.dev.closing then s.closeAbandon else s.withDev fun d => d.count 0x0804 0 :=
  if_neg (by rw [hshutdown, htherm]; decide)

theorem wakeLatched_reads (d : Dev) (cause source : Nat) : d.Keeps [F.FOOT_I3C_ALERT_WAKE] (d.wakeLatched cause source) ∧
    (d.wakeLatched cause source).pow.latched = some (cause, source) ∧ (cause = 3 → (d.wakeLatched cause source).rd F.FOOT_I3C_ALERT_WAKE = 1) := by
  refine ⟨Dev.Keeps.trans (e := d.wakeRecorded cause source) (Dev.keeps_of_fields rfl) (Dev.keeps_wr (by simp) _), rfl, fun h => ?_⟩
  subst h
  exact Dev.rd_wr_same _ _ _

/-- The levels of the wake pins with one sampled. -/
def Dev.pinLevels (d : Dev) (pin : Nat) (level : Bool) : Nat :=
  mapOf fun n => decide (n < 4) && (if n = pin then level else d.pow.wakeLevel.testBit n)

/-- The levels of the wake pins kept. -/
def Dev.withLevels (d : Dev) (levels : Nat) : Dev := { d with pow.wakeLevel := levels }

theorem Dev.withLevels_wakeLevel (d : Dev) (levels : Nat) : (d.withLevels levels).pow.wakeLevel = levels := rfl

/-- The level of a wake pin sampled. -/
def Dev.pinSampled (d : Dev) (pin : Nat) (level : Bool) : Dev := d.withLevels (d.pinLevels pin level)

theorem Dev.pinSampled_wakeLevel (d : Dev) (pin : Nat) (level : Bool) : (d.pinSampled pin level).pow.wakeLevel = d.pinLevels pin level :=
  Dev.withLevels_wakeLevel d _

theorem Dev.pinSampled_level (d : Dev) (pin : Fin 4) (level : Bool) : (d.pinSampled pin level).pow.wakeLevel.testBit pin = level := by
  rw [Dev.pinSampled_wakeLevel, Dev.pinLevels, mapOf_testBit _ (Nat.lt_trans pin.isLt (by decide)), if_pos rfl, decide_eq_true pin.isLt, Bool.true_and]

theorem Dev.pinSampled_active (d : Dev) (pin : Fin 4) (level : Bool) :
    (d.pinSampled pin level).wakeActive.testBit pin = (level == (d.rd F.POWER_WAKE_CFG_PIN_HIGH).testBit pin) := by
  rw [Dev.wakeActive, mapOf_testBit _ (Nat.lt_trans pin.isLt (by decide)), Dev.pinSampled_level, decide_eq_true pin.isLt, Bool.true_and]
  rfl

theorem exec_wakePin (hfoot : s.dev.footInReset = false) (pin : Fin 4) (level : Bool) : exec (.wakePin pin level) s =
    .next (if (level == (s.dev.rd F.POWER_WAKE_CFG_PIN_HIGH).testBit pin && (s.dev.rd F.POWER_WAKE_CFG_PIN_EN).testBit pin) = true
      then (s.withDev fun d => d.pinSampled pin level).wake 2 pin else s.withDev fun d => d.pinSampled pin level) := by
  rw [← Dev.pinSampled_active]
  exact congrArg Host.Outcome.next (if_neg (ne_true_of_eq_false hfoot))

/-- What the detector of a port sees noted. -/
def Dev.linkSampled (d : Dev) (port : Nat) (signal : Bool) : Dev :=
  d.wr F.POWER_PINS_LINK (mapOf fun n => decide (n < 4) && (if n = port then signal else (d.rd F.POWER_PINS_LINK).testBit n))

theorem Dev.rd_linkSampled (d : Dev) (port : Fin 4) (signal : Bool) : ((d.linkSampled port signal).rd F.POWER_PINS_LINK).testBit port = signal := by
  rw [Dev.linkSampled, Dev.rd_wr_same, Nat.testBit_mod_two_pow, mapOf_testBit _ (m := port) (by omega), if_pos rfl, decide_eq_true port.isLt]
  simp [F.POWER_PINS_LINK]

end Wake

/-! ## The obligation, part by part -/

section Parts

variable {s : State}

theorem closeCommit_idle (h : s.dev.closing = false ∨ s.dev.footInReset = true) : exec .closeCommit s = .next s :=
  congrArg Host.Outcome.next (if_pos (h.imp_left ne_true_of_eq_false))

theorem closedReached_reads (h : s.dev.pow.shutdown = true ∨ s.dev.pow.committed = true) : ∃ t, exec .closedReached s = .next t ∧ t.mem = [] ∧ t.layout = {} ∧
    t.ledger = s.ledger ∧ t.fuses = s.fuses ∧ t.dev.pow.closed = true ∧ t.dev.keks = [] ∧ t.dev.vault = [] ∧
    (s.dev.pow.shutdown = true → t.dev.pow.record = some (tripRecord s.dev.pow) ∧ t.dev.pow.latched = none) ∧
    (s.dev.pow.shutdown = false → t.dev.pow.record = some (wakeRecord s.dev.pow.latched) ∧ t.dev.pow.latched = s.dev.pow.latched) := by
  cases hshutdown : s.dev.pow.shutdown
  · have hcommitted := h.resolve_left (ne_true_of_eq_false hshutdown)
    obtain ⟨hmem, hlayout, hledger, hfuses, hclosed, hkeks, hvault, hrecord, hlatched⟩ := closedNow_reads s (wakeRecord s.dev.pow.latched) false
    refine ⟨_, exec_closedReached.trans (congrArg Host.Outcome.next ((if_neg (ne_true_of_eq_false hshutdown)).trans (if_pos hcommitted))), hmem, hlayout,
      hledger, hfuses, hclosed, hkeks, hvault, fun h => absurd h (by decide), fun _ => ⟨hrecord, hlatched.trans (if_neg (by decide))⟩⟩
  · obtain ⟨hmem, hlayout, hledger, hfuses, hclosed, hkeks, hvault, hrecord, hlatched⟩ := closedNow_reads s (tripRecord s.dev.pow) true
    exact ⟨_, exec_closedReached.trans (congrArg Host.Outcome.next (if_pos hshutdown)), hmem, hlayout, hledger, hfuses, hclosed, hkeks, hvault,
      fun _ => ⟨hrecord, hlatched⟩, fun h => absurd h (by decide)⟩

theorem wake_while_running (hshutdown : s.dev.pow.shutdown = false) (htherm : s.dev.pow.thermLow = false) (cause source : Nat) :
    (s.dev.pow.closed = true → s.dev.pow.latched ≠ none → s.wake cause source = s) ∧
    (s.dev.pow.closed = true → s.dev.pow.latched = none → s.frame (s.wake cause source) [F.FOOT_I3C_ALERT_WAKE] ∧
      (s.wake cause source).dev.pow.latched = some (cause, source) ∧
      (cause = 3 → (s.wake cause source).dev.rd F.FOOT_I3C_ALERT_WAKE = 1)) ∧
    (s.dev.pow.closed = false → s.dev.pow.committed = false → s.dev.closing = true → s.wake cause source = s.closeAbandon) ∧
    (s.dev.pow.closed = false → s.dev.pow.committed = false → s.dev.closing = false → s.dev.countersOff = true → s.wake cause source = s) := by
  rw [State.wake_of_running hshutdown htherm]
  refine ⟨fun hclosed hlatched => ?_, fun hclosed hlatched => ?_, fun hclosed hcommitted hclosing => ?_, fun hclosed hcommitted hclosing hoff => ?_⟩
  · rw [if_pos hclosed, if_pos (Option.isSome_iff_ne_none.mpr hlatched)]
  · obtain ⟨hkeeps, hnoted, halert⟩ := wakeLatched_reads s.dev cause source
    rw [if_pos hclosed, if_neg (by rw [hlatched]; decide)]
    exact ⟨State.frame_withDev hkeeps, hnoted, halert⟩
  · rw [if_neg (ne_true_of_eq_false hclosed), if_neg (ne_true_of_eq_false hcommitted), if_pos hclosing]
  · rw [if_neg (ne_true_of_eq_false hclosed), if_neg (ne_true_of_eq_false hcommitted), if_neg (ne_true_of_eq_false hclosing)]
    exact State.withDev_eq_self (f := fun d => d.count 0x0804 0) (Dev.count_of_countersOff hoff ..)

theorem wakePin_reads (hfoot : s.dev.footInReset = false) (pin : Fin 4) (level : Bool) :
    ((level ≠ (s.dev.rd F.POWER_WAKE_CFG_PIN_HIGH).testBit pin ∨ (s.dev.rd F.POWER_WAKE_CFG_PIN_EN).testBit pin = false) →
      ∃ t, exec (.wakePin pin level) s = .next t ∧ s.frame t [] ∧ t.dev.pow.wakeLevel.testBit pin = level) ∧
    (level = (s.dev.rd F.POWER_WAKE_CFG_PIN_HIGH).testBit pin → (s.dev.rd F.POWER_WAKE_CFG_PIN_EN).testBit pin = true →
      ∃ u : State, exec (.wakePin pin level) s = .next (u.wake 2 pin) ∧ s.frame u [] ∧ u.dev.pow.wakeLevel.testBit pin = level) := by
  have hframe : s.frame (s.withDev fun d => d.pinSampled pin level) [] := State.frame_withDev (Dev.keeps_of_fields rfl)
  rw [exec_wakePin hfoot]
  refine ⟨fun h => ⟨_, congrArg Host.Outcome.next (if_neg fun hboth => ?_), hframe, Dev.pinSampled_level _ pin level⟩, fun hlevel hen =>
    ⟨_, congrArg Host.Outcome.next (if_pos ?_), hframe, Dev.pinSampled_level _ pin level⟩⟩
  · rw [Bool.and_eq_true, beq_iff_eq] at hboth
    exact h.elim (fun hne => hne hboth.1) fun hen => absurd hboth.2 (ne_true_of_eq_false hen)
  · rw [Bool.and_eq_true, beq_iff_eq]
    exact ⟨hlevel, hen⟩

theorem linkWake_reads (hfoot : s.dev.footInReset = false) (port : Fin 4) (signal : Bool) :
    ((signal = false ∨ (s.dev.rd F.POWER_WAKE_CFG_LINK_EN).testBit port = false) → ∃ t, exec (.linkWake port signal) s = .next t ∧
      s.frame t [F.POWER_PINS_LINK] ∧ (t.dev.rd F.POWER_PINS_LINK).testBit port = signal) ∧
    (signal = true → (s.dev.rd F.POWER_WAKE_CFG_LINK_EN).testBit port = true → ∃ u : State,
      exec (.linkWake port signal) s = .next (u.wake 3 port) ∧ s.frame u [F.POWER_PINS_LINK] ∧ (u.dev.rd F.POWER_PINS_LINK).testBit port = true) := by
  have hframe : s.frame (s.withDev fun d => d.linkSampled port signal) [F.POWER_PINS_LINK] := State.frame_withDev (Dev.keeps_wr (by simp) _)
  have hen : (s.withDev fun d => d.linkSampled port signal).dev.rd F.POWER_WAKE_CFG_LINK_EN = s.dev.rd F.POWER_WAKE_CFG_LINK_EN :=
    Dev.rd_wr_ne _ (by decide) _
  have hexec : exec (.linkWake port signal) s = .next (if (signal && (s.dev.rd F.POWER_WAKE_CFG_LINK_EN).testBit port) = true
      then (s.withDev fun d => d.linkSampled port signal).wake 3 port else s.withDev fun d => d.linkSampled port signal) := by
    rw [← hen]
    exact congrArg Host.Outcome.next (if_neg (ne_true_of_eq_false hfoot))
  rw [hexec]
  refine ⟨fun h => ⟨_, congrArg Host.Outcome.next (if_neg fun hboth => ?_), hframe, Dev.rd_linkSampled _ port signal⟩, fun hsignal hen =>
    ⟨_, congrArg Host.Outcome.next (if_pos ?_), hframe, (Dev.rd_linkSampled _ port signal).trans hsignal⟩⟩
  · rw [Bool.and_eq_true] at hboth
    exact h.elim (fun hsignal => absurd hboth.1 (ne_true_of_eq_false hsignal)) fun hen => absurd hboth.2 (ne_true_of_eq_false hen)
  · rw [Bool.and_eq_true]
    exact ⟨hsignal, hen⟩

end Parts

/-- Settles O51. -/
theorem closedIsEnteredAndLeft : Obligations.ClosedIsEnteredAndLeft := by
  unfold Obligations.ClosedIsEnteredAndLeft
  intro s
  refine ⟨fun hpatrons hmay hpend _ => ⟨fun hwake => ?_, fun hwake => ?_⟩, closeCommit_idle,
    fun hclosing hfoot => ⟨_, exec_closeCommit_of_closing hclosing hfoot, closeCommitted_reads⟩,
    fun hshutdown hcommitted => exec_closedReached.trans (congrArg Host.Outcome.next ((if_neg (ne_true_of_eq_false hshutdown)).trans
      (if_neg (ne_true_of_eq_false hcommitted)))), closedReached_reads, fun cause source => ⟨fun h => if_pos h, fun hshutdown htherm =>
      wake_while_running hshutdown htherm cause source⟩,
    fun hfoot => ⟨fun pin level => congrArg Host.Outcome.next (if_pos hfoot), fun port signal => congrArg Host.Outcome.next (if_pos hfoot)⟩,
    fun hfoot pin port level signal => ?_⟩
  · exact ⟨_, rfl, powerGo_close_asserted hpatrons hmay hpend hwake⟩
  · obtain ⟨hframe, hbusy⟩ := State.powerRunning_close (s := s) (n := s.dev.rd F.POWER_CTL_DOMAIN)
    refine ⟨s.powerRunning 2 (s.dev.rd F.POWER_CTL_DOMAIN), congrArg Host.Outcome.next ((powerGo_close hpatrons hmay hpend).trans
      (congrArg State.powerPump (if_neg (ne_true_of_eq_false hwake)))), hframe, hbusy, congrArg PowerSt.cur (State.powerRunning_pow ..), _, rfl⟩
  · obtain ⟨hquiet, hwakes⟩ := wakePin_reads hfoot pin level
    obtain ⟨hdark, hlink⟩ := linkWake_reads hfoot port signal
    exact ⟨hquiet, hwakes, hdark, hlink⟩

end Sys2Proof.Machine

end

section
/-!
Rails, PGOOD, RESET_N, SAFE_N and the foot's reset (R414 to R418, R434, Tables 17.1, 17.2).
-/

namespace Sys2Proof.Machine

open Sys2Proof

/-! ## A rail's reading (R414 to R416) -/

section Rail

variable (d : Dev) (r mv : Nat)

/-- Low after a reading. -/
def Dev.railLowNow : Bool := railBelow (d.flag (F.POWER_RAIL_LOW r)) mv (railLow r)

/-- Inhibit after a reading. -/
def Dev.railInhibitNow : Bool := decide (railInhibit r ≠ 0) && railBelow (d.flag (F.POWER_RAIL_INHIBIT r)) mv (railInhibit r)

/-- Brown-out after a reading. -/
def Dev.railBrownNow : Bool := decide (railBrown r ≠ 0) && railBelow (d.flag (F.POWER_RAIL_BROWN r)) mv (railBrown r)

/-- What a reading is written as. -/
def Dev.railWrites : List (Field × Nat) := [(F.POWER_RAIL_VOLT r, mv), (F.POWER_RAIL_LOW r, (d.railLowNow r mv).toNat),
  (F.POWER_RAIL_INHIBIT r, (d.railInhibitNow r mv).toNat), (F.POWER_RAIL_BROWN r, (d.railBrownNow r mv).toNat)]

/-- A sag counted and raised at its onset. -/
def Dev.sagged (low wasLow : Bool) : Dev :=
  if low ∧ ¬ wasLow then ((d.bump (F.POWER_RAIL_SAGS r)).count 0x0806 r).raise .supplyLow (Src.foot (1 + r)) else d

/-- The ledger's inhibit shown, and raised at its onset. -/
def Dev.inhibitShown (was : Bool) : Dev :=
  let e := d.put F.LEDGER_STATUS_INHIBITED (d.flag (F.POWER_RAIL_INHIBIT 0) || d.flag (F.POWER_RAIL_INHIBIT 5))
  e.raiseIf (e.flag F.LEDGER_STATUS_INHIBITED && !was) .ledgerInhibited (Src.foot 0)

/-- The holding cause of a brown-out shown. -/
def Dev.brownShown : Dev := d.put F.SAFE_STATUS_BROWN (d.flag (F.POWER_RAIL_BROWN 3) || d.flag (F.POWER_RAIL_BROWN 5))

/-- A rail's reading taken. -/
def Dev.railRead : Dev :=
  (((d.wrs (d.railWrites r mv)).sagged r (d.railLowNow r mv) (d.flag (F.POWER_RAIL_LOW r))).inhibitShown (d.flag F.LEDGER_STATUS_INHIBITED)).brownShown

/-- A brown-out at its onset: raised, and on VAO its wake record written at once. -/
def State.brownOut (s : State) (r : Nat) (e : Dev) : State :=
  let t : State := { s with dev := e.raise .brownOut (Src.foot (1 + r)) }
  if r = 5 ∧ ¬ e.pow.shutdown then { t with ledger := s.ledger.writeNow (recordNo 0x13 0) (e.wakePayload 5) } else t

theorem State.railCrossing_eq (s : State) : s.railCrossing r mv =
    if s.dev.footInReset ∧ 4 ≤ r then s else if r = 5 ∧ mv < 900 then s.powerLost else if s.dev.pow.closed then s
    else if ¬ s.dev.railBrownNow r mv ∨ s.dev.flag (F.POWER_RAIL_BROWN r) then { s with dev := s.dev.railRead r mv }
    else if (s.brownOut r (s.dev.railRead r mv)).dev.starting then (s.brownOut r (s.dev.railRead r mv)).restart
      else s.brownOut r (s.dev.railRead r mv) := rfl

/-- The registers of a rail's reading. -/
def railFields : List Field := [F.POWER_RAIL_VOLT r, F.POWER_RAIL_LOW r, F.POWER_RAIL_INHIBIT r, F.POWER_RAIL_BROWN r, F.POWER_RAIL_SAGS r,
  F.LEDGER_STATUS_INHIBITED, F.SAFE_STATUS_BROWN]

theorem railKeys_nodup (hr : r < 7) : ((railFields r).map Field.key).Nodup := by
  simp only [railFields, List.map_cons, List.map_nil, List.nodup_cons, List.mem_cons, List.not_mem_nil, or_false, not_or, Field.key, F.POWER_RAIL_VOLT,
    F.POWER_RAIL_LOW, F.POWER_RAIL_INHIBIT, F.POWER_RAIL_BROWN, F.POWER_RAIL_SAGS, F.LEDGER_STATUS_INHIBITED, F.SAFE_STATUS_BROWN,
    not_false_eq_true, List.nodup_nil, and_true]
  omega

variable (hoff : d.countersOff = true)
include hoff

theorem Dev.sagged_eq (low wasLow : Bool) : d.sagged r low wasLow =
    if low ∧ ¬ wasLow then (d.bump (F.POWER_RAIL_SAGS r)).raise .supplyLow (Src.foot (1 + r)) else d := by
  rw [Dev.sagged, Dev.count_of_countersOff (d := d.bump (F.POWER_RAIL_SAGS r)) hoff]

theorem Dev.keeps_sagged (low wasLow : Bool) : d.Keeps [F.POWER_RAIL_SAGS r] (d.sagged r low wasLow) := by
  rw [Dev.sagged_eq d r hoff]
  split
  · exact Dev.Keeps.trans (e := d.bump (F.POWER_RAIL_SAGS r)) (Dev.keeps_bump (by simp)) (Dev.keeps_of_fields rfl)
  · exact Dev.Keeps.refl _ d

omit hoff in
theorem Dev.keeps_inhibitShown (was : Bool) : d.Keeps [F.LEDGER_STATUS_INHIBITED] (d.inhibitShown was) :=
  Dev.Keeps.trans (Dev.keeps_wr (by simp) _) (Dev.keeps_of_fields (Dev.raiseIf_fields ..))

omit hoff in
theorem Dev.keeps_brownShown : d.Keeps [F.SAFE_STATUS_BROWN] d.brownShown := Dev.keeps_wr (by simp) _

omit hoff in
theorem Dev.raiseIf_kept {β : Type} (g : Dev → β) (hg : ∀ (e : Dev) m q, g { e with fields := m, raised := q } = g e) (b : Bool) (t : FaultType)
    (source : Nat) : g (d.raiseIf b t source) = g d := by
  cases b
  · rfl
  · exact hg d d.fields _

theorem Dev.sagged_kept {β : Type} (g : Dev → β) (hg : ∀ (e : Dev) m q, g { e with fields := m, raised := q } = g e) (low wasLow : Bool) :
    g (d.sagged r low wasLow) = g d := by
  rw [Dev.sagged_eq d r hoff]
  split
  · exact (hg (d.bump (F.POWER_RAIL_SAGS r)) _ _).trans (hg d _ d.raised)
  · rfl

omit hoff in
theorem Dev.wrs_countersOff (w : List (Field × Nat)) : (d.wrs w).countersOff = d.countersOff := Dev.wrs_kept Dev.countersOff (fun _ _ => rfl) d w

/-- A reading changes registers, and what has been raised. -/
theorem Dev.railRead_kept {β : Type} (g : Dev → β) (hg : ∀ (e : Dev) m q, g { e with fields := m, raised := q } = g e) : g (d.railRead r mv) = g d := by
  have hwr : ∀ (e : Dev) f v, g (e.wr f v) = g e := fun e f v => hg e _ e.raised
  rw [Dev.railRead, Dev.brownShown, Dev.put, hwr, Dev.inhibitShown, Dev.raiseIf_kept _ g hg, Dev.put, hwr,
    Dev.sagged_kept _ r ((Dev.wrs_countersOff d _).trans hoff) g hg]
  exact Dev.wrs_kept g (fun e m => hg e m e.raised) d _

/-- What a reading does after the rail's own registers are written. -/
theorem Dev.keeps_railRead_after : (d.wrs (d.railWrites r mv)).Keeps [F.POWER_RAIL_SAGS r, F.LEDGER_STATUS_INHIBITED, F.SAFE_STATUS_BROWN] (d.railRead r mv) :=
  Dev.Keeps.trans ((Dev.keeps_sagged _ r ((Dev.wrs_countersOff d _).trans hoff) _ _).mono (by simp)) <|
    Dev.Keeps.trans ((Dev.keeps_inhibitShown _ _).mono (by simp)) ((Dev.keeps_brownShown _).mono (by simp))

theorem Dev.keeps_railRead : d.Keeps (railFields r) (d.railRead r mv) :=
  Dev.Keeps.trans (Dev.keeps_wrs (by simp [Dev.railWrites, railFields])) ((Dev.keeps_railRead_after d r mv hoff).mono (by simp [railFields]))

theorem Dev.rd_railRead (hr : r < 7) {f : Field} {v : Nat} (hf : (f, v) ∈ d.railWrites r mv) : (d.railRead r mv).rd f = v % 2 ^ f.width := by
  have hsplit : railFields r = (d.railWrites r mv).map Prod.fst ++ [F.POWER_RAIL_SAGS r, F.LEDGER_STATUS_INHIBITED, F.SAFE_STATUS_BROWN] := rfl
  have hnodup := railKeys_nodup r hr
  rw [hsplit, List.map_append] at hnodup
  obtain ⟨hown, -, hapart⟩ := List.nodup_append.mp hnodup
  have hmem : f.key ∈ ((d.railWrites r mv).map Prod.fst).map Field.key := List.mem_map_of_mem (List.mem_map_of_mem (f := Prod.fst) hf)
  exact (Dev.keeps_railRead_after d r mv hoff f (fun hlater => hapart _ hmem _ hlater rfl)).trans (Dev.rd_wrs_of_mem d hown hf)

omit hoff in
theorem toNat_mod_two (b : Bool) : b.toNat % 2 ^ 1 = b.toNat := by cases b <;> rfl

theorem Dev.railRead_reads (hr : r < 7) (hmv : mv < 2 ^ 12) : (d.railRead r mv).rd (F.POWER_RAIL_VOLT r) = mv ∧
    (d.railRead r mv).rd (F.POWER_RAIL_LOW r) = (d.railLowNow r mv).toNat ∧
    (d.railRead r mv).rd (F.POWER_RAIL_INHIBIT r) = (d.railInhibitNow r mv).toNat ∧
    (d.railRead r mv).rd (F.POWER_RAIL_BROWN r) = (d.railBrownNow r mv).toNat :=
  ⟨(Dev.rd_railRead d r mv hoff hr (v := mv) (by simp [Dev.railWrites])).trans (Nat.mod_eq_of_lt hmv),
    (Dev.rd_railRead d r mv hoff hr (v := (d.railLowNow r mv).toNat) (by simp [Dev.railWrites])).trans (toNat_mod_two _),
    (Dev.rd_railRead d r mv hoff hr (v := (d.railInhibitNow r mv).toNat) (by simp [Dev.railWrites])).trans (toNat_mod_two _),
    (Dev.rd_railRead d r mv hoff hr (v := (d.railBrownNow r mv).toNat) (by simp [Dev.railWrites])).trans (toNat_mod_two _)⟩

omit r hoff in
/-- A brown-out of VAO is a holding cause (R450). -/
theorem Dev.railRead_brown (hoff : d.countersOff = true) (hmv : mv < 2 ^ 12) (hbrown : d.railBrownNow 5 mv = true) :
    (d.railRead 5 mv).rd F.SAFE_STATUS_BROWN = 1 := by
  obtain ⟨-, -, -, hown⟩ := Dev.railRead_reads d 5 mv hoff (by decide) hmv
  rw [hbrown, Dev.railRead, Dev.brownShown, Dev.put, Dev.rd_wr_ne _ (by decide)] at hown
  rw [Dev.railRead, Dev.brownShown, Dev.put, Dev.rd_wr_same, Dev.flag_eq _ (F.POWER_RAIL_BROWN 5), hown]
  simp [F.SAFE_STATUS_BROWN]

end Rail

/-! ## A rail crossing a threshold -/

section Crossing

variable {s : State} {r mv : Nat} (hoff : s.dev.countersOff = true) (hr : r < 7)

theorem State.frame_dev {s : State} {l : List Field} {e : Dev} (h : s.dev.Keeps l e) : s.frame { s with dev := e } l :=
  State.frame_withDev (f := fun _ => e) h

theorem Dev.raised_starting (d : Dev) (t : FaultType) (source : Nat) : (d.raise t source).starting = d.starting := rfl

/-- The block after a brown-out, its cold start apart. -/
theorem State.brownOut_dev (s : State) (r : Nat) (e : Dev) : (s.brownOut r e).dev = e.raise .brownOut (Src.foot (1 + r)) ∧ (s.brownOut r e).mem = s.mem := by
  rw [State.brownOut]
  split <;> exact ⟨rfl, rfl⟩

include hoff

theorem Dev.railRead_starting (hr : r < 7) : (s.dev.railRead r mv).starting = s.dev.starting := by
  have hstate : (s.dev.railRead r mv).rd F.DEV_STATUS_STATE = s.dev.rd F.DEV_STATUS_STATE := by
    refine Dev.keeps_railRead s.dev r mv hoff _ ?_
    simp only [railFields, List.map_cons, List.map_nil, List.mem_cons, List.not_mem_nil, or_false, not_or, Field.key, F.POWER_RAIL_VOLT,
      F.POWER_RAIL_LOW, F.POWER_RAIL_INHIBIT, F.POWER_RAIL_BROWN, F.POWER_RAIL_SAGS, F.LEDGER_STATUS_INHIBITED, F.SAFE_STATUS_BROWN, F.DEV_STATUS_STATE]
    omega
  rw [Dev.starting, hstate, Dev.railRead_kept s.dev r mv hoff Dev.start fun _ _ _ => rfl, Dev.starting]

variable (hhidden : ¬ (s.dev.footInReset = true ∧ 4 ≤ r)) (hlost : ¬ (r = 5 ∧ mv < 900)) (hclosed : s.dev.pow.closed = false)
  (hstarting : s.dev.starting = false)
include hr hhidden hlost hclosed hstarting

/-- A reading that starts no brown-out of VAO. -/
theorem railCrossing_shown (hmv : mv < 2 ^ 12) (hbrown : s.dev.railBrownNow r mv = false ∨ s.dev.flag (F.POWER_RAIL_BROWN r) = true ∨ r ≠ 5) :
    s.frame (s.railCrossing r mv) (railFields r) ∧ (s.railCrossing r mv).dev.rd (F.POWER_RAIL_VOLT r) = mv ∧
      (s.railCrossing r mv).dev.rd (F.POWER_RAIL_LOW r) = (s.dev.railLowNow r mv).toNat ∧
      (s.railCrossing r mv).dev.rd (F.POWER_RAIL_INHIBIT r) = (s.dev.railInhibitNow r mv).toNat ∧
      (s.railCrossing r mv).dev.rd (F.POWER_RAIL_BROWN r) = (s.dev.railBrownNow r mv).toNat := by
  have hkeeps := Dev.keeps_railRead s.dev r mv hoff
  have hreads := Dev.railRead_reads s.dev r mv hoff hr hmv
  rw [State.railCrossing_eq, if_neg hhidden, if_neg hlost, if_neg (ne_true_of_eq_false hclosed)]
  by_cases hquiet : ¬ s.dev.railBrownNow r mv = true ∨ s.dev.flag (F.POWER_RAIL_BROWN r) = true
  · rw [if_pos hquiet]
    exact ⟨State.frame_dev hkeeps, hreads⟩
  · have hr5 : r ≠ 5 := hbrown.elim (fun h => absurd (Or.inl (ne_true_of_eq_false h)) hquiet) fun h => h.resolve_left fun h => hquiet (Or.inr h)
    have hout : s.brownOut r (s.dev.railRead r mv) = { s with dev := (s.dev.railRead r mv).raise .brownOut (Src.foot (1 + r)) } :=
      if_neg fun h => hr5 h.1
    have hstarting' : ¬ ((s.dev.railRead r mv).raise .brownOut (Src.foot (1 + r))).starting = true := by
      rw [Dev.raised_starting, Dev.railRead_starting hoff hr, hstarting]
      decide
    rw [if_neg hquiet, hout, if_neg hstarting']
    exact ⟨State.frame_dev (hkeeps.trans (Dev.keeps_of_fields rfl)), hreads⟩

end Crossing

/-- A brown-out of VAO: its wake record is written at once. -/
theorem railCrossing_brown {s : State} {mv : Nat} (hoff : s.dev.countersOff = true) (hhidden : ¬ (s.dev.footInReset = true ∧ 4 ≤ 5))
    (hlost : ¬ mv < 900) (hclosed : s.dev.pow.closed = false) (hstarting : s.dev.starting = false) (hmv : mv < 2 ^ 12)
    (hbrown : s.dev.railBrownNow 5 mv = true) (hwas : s.dev.flag (F.POWER_RAIL_BROWN 5) = false) (hshutdown : s.dev.pow.shutdown = false) :
    (s.railCrossing 5 mv).mem = s.mem ∧ (s.railCrossing 5 mv).dev.rd F.SAFE_STATUS_BROWN = 1 ∧
      (s.railCrossing 5 mv).ledger = s.ledger.writeNow 0x130000 (s.dev.wakePayload 5) := by
  obtain ⟨hdev, hmem⟩ := s.brownOut_dev 5 (s.dev.railRead 5 mv)
  have hquiet : ¬ (¬ s.dev.railBrownNow 5 mv = true ∨ s.dev.flag (F.POWER_RAIL_BROWN 5) = true) := by rw [hbrown, hwas]; decide
  have hstarting' : ¬ (s.brownOut 5 (s.dev.railRead 5 mv)).dev.starting = true := by
    rw [hdev, Dev.raised_starting, Dev.railRead_starting hoff (by decide), hstarting]
    decide
  have hcross : s.railCrossing 5 mv = s.brownOut 5 (s.dev.railRead 5 mv) := by
    rw [State.railCrossing_eq, if_neg hhidden, if_neg fun h => hlost h.2, if_neg (ne_true_of_eq_false hclosed), if_neg hquiet, if_neg hstarting']
  have hpow : (s.dev.railRead 5 mv).pow = s.dev.pow := Dev.railRead_kept s.dev 5 mv hoff Dev.pow fun _ _ _ => rfl
  have hpayload : (s.dev.railRead 5 mv).wakePayload 5 = s.dev.wakePayload 5 := by
    rw [Dev.wakePayload, Dev.keeps_railRead s.dev 5 mv hoff F.DEV_START_COUNT_COUNT (by decide), Dev.wakePayload]
  have hledger : (s.brownOut 5 (s.dev.railRead 5 mv)).ledger = s.ledger.writeNow 0x130000 (s.dev.wakePayload 5) := by
    rw [State.brownOut, if_pos ⟨rfl, by rw [hpow, hshutdown]; decide⟩, hpayload]
    rfl
  rw [hcross, hdev]
  exact ⟨hmem, Dev.railRead_brown s.dev mv hoff hmv hbrown, hledger⟩

/-! ## Cold resets (R417) -/

section Cold

variable (s : State) (p : PowerSt)

/-- The registers that a cold reset keeps. -/
def coldFields : List Field := [F.POWER_PINS_SAFE_N, F.POWER_PINS_PGOOD, F.POWER_PINS_LINK, F.FOOT_I3C_ALERT_WAKE] ++
  (List.range 7).flatMap (fun r => [F.POWER_RAIL_VOLT r, F.POWER_RAIL_LOW r, F.POWER_RAIL_INHIBIT r, F.POWER_RAIL_BROWN r])

theorem coldKeys_nodup : (coldFields.map Field.key).Nodup := by decide

/-- The device right after a cold reset, its pins and rails apart. -/
def State.coldDev : Dev := { s.fuses.dev with freeCount := s.dev.freeCount, pow := p }

theorem State.coldReset_eq : s.coldReset p = { s with mem := [], layout := {}, dev := (s.coldDev p).wrs (coldFields.map fun f => (f, s.dev.rd f)) } := rfl

theorem State.coldReset_view {β : Type} (g : Dev → β) (hg : ∀ (e : Dev) m, g { e with fields := m } = g e) : g (s.coldReset p).dev = g (s.coldDev p) := by
  rw [State.coldReset_eq]
  exact Dev.wrs_kept g hg _ _

theorem State.rd_coldReset {f : Field} (hf : f ∈ coldFields) : (s.coldReset p).dev.rd f = s.dev.rd f % 2 ^ f.width := by
  rw [State.coldReset_eq]
  refine Dev.rd_wrs_of_mem _ ?_ (List.mem_map_of_mem (f := fun f => (f, s.dev.rd f)) hf)
  simpa [Function.comp_def] using coldKeys_nodup

end Cold

/-! ## PGOOD and RESET_N -/

section Pins

variable {s : State}

/-- PGOOD lost noted. -/
def Dev.pgoodDown (d : Dev) : Dev := d.wr F.POWER_PINS_PGOOD 0

theorem Dev.pgoodDown_starting (d : Dev) : d.pgoodDown.starting = d.starting := by
  rw [Dev.starting, Dev.pgoodDown, Dev.rd_wr_ne _ (by decide), Dev.starting, Dev.wr_start]

theorem exec_pgoodLost : exec .pgoodLost s = .next (if s.dev.pow.closed then s.withDev Dev.pgoodDown
    else if s.dev.pgoodDown.starting then (s.withDev Dev.pgoodDown).restart
    else s.withDev fun d => d.pgoodDown.raise .pgoodLost (Src.foot 9)) := rfl

theorem pgoodLost_closed (h : s.dev.pow.closed = true) : ∃ t, exec .pgoodLost s = .next t ∧ s.frame t [F.POWER_PINS_PGOOD] ∧
    t.dev.rd F.POWER_PINS_PGOOD = 0 ∧ t.dev.raised = s.dev.raised :=
  ⟨_, exec_pgoodLost.trans (congrArg Host.Outcome.next (if_pos h)), State.frame_withDev (Dev.keeps_wr (by simp) 0), Dev.rd_wr_same _ _ 0, rfl⟩

variable (h : s.dev.pow.closed = false)
include h

theorem pgoodLost_open (hstarting : s.dev.starting = false) : ∃ t, exec .pgoodLost s = .next t ∧ s.frame t [F.POWER_PINS_PGOOD] ∧
    t.dev.rd F.POWER_PINS_PGOOD = 0 ∧ t.dev.raised.length = s.dev.raised.length + 1 := by
  have hstarting' : ¬ s.dev.pgoodDown.starting = true := by rw [Dev.pgoodDown_starting, hstarting]; decide
  refine ⟨_, exec_pgoodLost.trans (congrArg Host.Outcome.next ((if_neg (ne_true_of_eq_false h)).trans (if_neg hstarting'))), State.frame_withDev ?_,
    Dev.rd_wr_same _ _ 0, Dev.raise_raised_length ..⟩
  exact Dev.Keeps.trans (e := s.dev.pgoodDown) (Dev.keeps_wr (by simp) 0) (Dev.keeps_of_fields rfl)

theorem pgoodLost_starting (hstarting : s.dev.starting = true) : ∃ t, exec .pgoodLost s = .next t ∧ t.mem = [] ∧ t.ledger = s.ledger ∧
    t.dev.start.begun = false :=
  ⟨_, exec_pgoodLost.trans (congrArg Host.Outcome.next ((if_neg (ne_true_of_eq_false h)).trans (if_pos ((Dev.pgoodDown_starting _).trans hstarting)))), rfl, rfl,
    congrArg StartSt.begun (State.coldReset_view (s.withDev Dev.pgoodDown) _ Dev.start fun _ _ => rfl)⟩

theorem resetPin_open : ∃ t, exec .resetPin s = .next t ∧ t.mem = [] ∧ t.layout = {} ∧ t.ledger = s.ledger ∧ t.fuses = s.fuses ∧
    t.dev.pow.record = some 1 ∧ t.dev.start.begun = false ∧ t.dev.keks = [] ∧ t.dev.vault = [] ∧
    t.dev.rd F.POWER_PINS_SAFE_N = s.dev.rd F.POWER_PINS_SAFE_N % 2 := by
  refine ⟨s.coldReset { record := some 1, wakeLevel := s.dev.pow.wakeLevel }, congrArg Host.Outcome.next (if_neg (ne_true_of_eq_false h)), rfl, rfl, rfl, rfl,
    ?_, ?_, ?_, ?_, State.rd_coldReset s _ (by simp [coldFields])⟩
  · exact congrArg PowerSt.record (State.coldReset_view s _ Dev.pow fun _ _ => rfl)
  · exact congrArg StartSt.begun (State.coldReset_view s _ Dev.start fun _ _ => rfl)
  · exact State.coldReset_view s _ Dev.keks fun _ _ => rfl
  · exact State.coldReset_view s _ Dev.vault fun _ _ => rfl

end Pins

/-! ## The foot's reset (R418) -/

section Foot

variable {s : State}

/-- A foot reset begun, where none is. -/
def Dev.footHeld (d : Dev) : Dev := if d.footInReset then d else d.footResetBegin

/-- The first steps of a cold start begun again. -/
def Dev.stepsAgain (d : Dev) : Dev := if d.starting ∧ d.rd F.DEV_START_STATUS_PHASE < 2 then d.wr F.DEV_START_STATUS_PHASE 0 else d

theorem exec_footReset : exec .footReset s = .next (s.withDev fun d => d.footHeld.stepsAgain) := rfl

theorem Dev.footHeld_reads (d : Dev) : d.footHeld.fields = d.fields ∧ d.footHeld.footInReset = true ∧
    d.footHeld.raised.length = d.raised.length + (if d.footInReset = true then 0 else 1) := by
  rw [Dev.footHeld]
  by_cases h : d.footInReset = true
  · rw [if_pos h, if_pos h]
    exact ⟨rfl, h, rfl⟩
  · rw [if_neg h, if_neg h]
    exact ⟨rfl, rfl, Dev.raise_raised_length ..⟩

theorem Dev.stepsAgain_reads (d : Dev) : d.Keeps [F.DEV_START_STATUS_PHASE] d.stepsAgain ∧ d.stepsAgain.footInReset = d.footInReset ∧
    d.stepsAgain.raised = d.raised := by
  rw [Dev.stepsAgain]
  split
  · exact ⟨Dev.keeps_wr (by simp) 0, rfl, rfl⟩
  · exact ⟨Dev.Keeps.refl _ d, rfl, rfl⟩

theorem footReset_reads : ∃ t, exec .footReset s = .next t ∧ s.frame t [F.DEV_START_STATUS_PHASE] ∧ t.dev.footInReset = true ∧
    t.dev.raised.length = s.dev.raised.length + (if s.dev.footInReset = true then 0 else 1) := by
  obtain ⟨hfields, hfoot, hlength⟩ := s.dev.footHeld_reads
  obtain ⟨hkeeps, hfoot', hraised⟩ := s.dev.footHeld.stepsAgain_reads
  exact ⟨_, exec_footReset, State.frame_withDev (Dev.Keeps.trans (Dev.keeps_of_fields hfields) hkeeps), hfoot'.trans hfoot,
    (congrArg List.length hraised).trans hlength⟩

/-- The foot out of reset, its wake sources sampled afresh. -/
def Dev.footBack (d : Dev) (pins : Nat) : Dev :=
  { d with footInReset := false, pow.wakeLevel := pins, pow.thermLow := d.pow.thermLow || d.pow.shutdown }

theorem Dev.footBack_fields (d : Dev) (pins : Nat) : (d.footBack pins).fields = d.fields := rfl

theorem footResetEnd_reads (pins link : BitVec 4) (h : s.dev.footInReset = true) : ∃ u : State, exec (.footResetEnd pins link) s = .next (u.wakeResample s.dev) ∧
    s.frame u [F.POWER_PINS_LINK] ∧ u.dev.footInReset = false ∧ u.dev.pow.wakeLevel = pins.toNat ∧ u.dev.rd F.POWER_PINS_LINK = link.toNat :=
  ⟨s.withDev fun d => (d.footBack pins.toNat).wr F.POWER_PINS_LINK link.toNat, congrArg Host.Outcome.next (if_neg (not_not_intro h)),
    State.frame_withDev (Dev.Keeps.trans (Dev.keeps_of_fields (Dev.footBack_fields _ _)) (Dev.keeps_wr (by simp) _)), rfl, rfl,
    (Dev.rd_wr_same _ _ _).trans (Nat.mod_eq_of_lt link.isLt)⟩

end Foot

/-! ## SAFE_N (R434) -/

section SafeN

variable {s : State}

/-- SAFE_N seen low. -/
def Dev.safeSeen (d : Dev) (high : Bool) : Dev := { d with pow.safeHigh := high }

theorem Dev.safeSeen_fields (d : Dev) (high : Bool) : (d.safeSeen high).fields = d.fields := rfl

theorem safeN_unsampled (h : ¬ s.dev.safeSampled = true) : (∀ chatter, exec (.safeN chatter) s = .next s) ∧ exec .safeNRelease s = .next s ∧
    exec .safeNHighTimer s = .next s := by
  refine ⟨fun chatter => ?_, ?_, ?_⟩
  · refine Eq.trans (b := execSafeN chatter s) rfl ?_
    rw [execSafeN]
    exact State.next_of_same (if_pos h)
  · refine Eq.trans (b := execSafeNRelease s) rfl ?_
    rw [execSafeNRelease]
    exact State.next_of_same (if_neg h)
  · refine Eq.trans (b := execSafeNHighTimer s) rfl ?_
    rw [execSafeNHighTimer]
    exact State.next_of_same (if_neg fun hboth => h hboth.1)

theorem wrs_two {d : Dev} {f g : Field} (hne : f.key ≠ g.key) (v w : Nat) : (d.wrs [(f, v), (g, w)]).rd f = v % 2 ^ f.width ∧
    (d.wrs [(f, v), (g, w)]).rd g = w % 2 ^ g.width :=
  ⟨(Dev.rd_wr_ne _ hne w).trans (Dev.rd_wr_same d f v), Dev.rd_wr_same _ g w⟩

variable (h : s.dev.safeSampled = true)
include h

theorem exec_safeN (chatter : Bool) : exec (.safeN chatter) s = .next (s.withDev fun d => if chatter
    then ((d.safeSeen false).wrs [(F.SAFE_STATUS_CHATTER, 1), (F.POWER_PINS_SAFE_LATCHED, 1)]).raise .safeNChatter (Src.foot 8)
    else ((d.safeSeen false).wrs [(F.POWER_PINS_SAFE_N, 0), (F.SAFE_STATUS_SAFE_N, 1)]).raise .safeRequest (Src.foot 8)) := by
  refine Eq.trans (b := execSafeN chatter s) rfl ?_
  rw [execSafeN]
  exact State.next_congr (if_neg (not_not_intro h))

omit h in
/-- Two registers written after a change that touches none, and a fault raised. -/
theorem State.twoWritten {f g : Field} (hne : f.key ≠ g.key) (v w : Nat) (t : FaultType) (source : Nat) (high : Bool) :
    s.frame (s.withDev fun d => ((d.safeSeen high).wrs [(f, v), (g, w)]).raise t source) [f, g] ∧
    (s.withDev fun d => ((d.safeSeen high).wrs [(f, v), (g, w)]).raise t source).dev.rd f = v % 2 ^ f.width ∧
    (s.withDev fun d => ((d.safeSeen high).wrs [(f, v), (g, w)]).raise t source).dev.rd g = w % 2 ^ g.width ∧
    (s.withDev fun d => ((d.safeSeen high).wrs [(f, v), (g, w)]).raise t source).dev.raised.length = s.dev.raised.length + 1 := by
  obtain ⟨hf, hg⟩ := wrs_two (d := s.dev.safeSeen high) hne v w
  refine ⟨State.frame_withDev ?_, hf, hg, Dev.raise_raised_length ..⟩
  exact Dev.Keeps.trans (e := (s.dev.safeSeen high).wrs [(f, v), (g, w)]) (Dev.Keeps.trans (Dev.keeps_of_fields (Dev.safeSeen_fields _ _))
    (Dev.keeps_wrs (by simp))) (Dev.keeps_of_fields rfl)

theorem exec_safeNRelease : exec .safeNRelease s = .next (s.withDev fun d => d.wrs [(F.POWER_PINS_SAFE_N, 1), (F.SAFE_STATUS_SAFE_N, 0)]) := by
  refine Eq.trans (b := execSafeNRelease s) rfl ?_
  rw [execSafeNRelease]
  exact State.next_congr (if_pos h)

omit h in
theorem safeNHighTimer_of_low (hlow : s.dev.rd F.POWER_PINS_SAFE_N = 0) : exec .safeNHighTimer s = .next s := by
  refine Eq.trans (b := execSafeNHighTimer s) rfl ?_
  rw [execSafeNHighTimer]
  exact State.next_of_same (if_neg fun hboth => absurd hboth.2 (by simp [Dev.flag_eq, hlow]))

theorem safeNHighTimer_of_high (hhigh : s.dev.rd F.POWER_PINS_SAFE_N ≠ 0) : ∃ t, exec .safeNHighTimer s = .next t ∧
    s.frame t [F.SAFE_STATUS_CHATTER, F.POWER_PINS_SAFE_LATCHED] ∧
    ((∀ x ∈ s.dev.flt.records, x.type ≠ FaultType.safeNChatter.code) → t.dev.rd F.SAFE_STATUS_CHATTER = 0 ∧ t.dev.rd F.POWER_PINS_SAFE_LATCHED = 0) := by
  have hexec : exec .safeNHighTimer s = .next (s.withDev fun d => (d.safeSeen true).chatterDone) := by
    refine Eq.trans (b := execSafeNHighTimer s) rfl ?_
    rw [execSafeNHighTimer]
    exact State.next_congr (if_pos ⟨h, by simp [Dev.flag_eq, hhigh]⟩)
  have hkeeps : (s.dev.safeSeen true).Keeps [F.SAFE_STATUS_CHATTER, F.POWER_PINS_SAFE_LATCHED] (s.dev.safeSeen true).chatterDone := by
    rw [Dev.chatterDone]
    split
    · exact Dev.keeps_wrs (by simp)
    · exact Dev.Keeps.refl _ _
  refine ⟨_, hexec, State.frame_withDev (Dev.Keeps.trans (Dev.keeps_of_fields (Dev.safeSeen_fields _ _)) hkeeps), fun hnone => ?_⟩
  have hclear : (s.dev.safeSeen true).chatterDone = (s.dev.safeSeen true).wrs [(F.SAFE_STATUS_CHATTER, 0), (F.POWER_PINS_SAFE_LATCHED, 0)] :=
    if_pos ⟨rfl, by simpa [Dev.safeSeen] using hnone⟩
  rw [State.withDev_dev, hclear]
  exact wrs_two (by decide) 0 0

end SafeN

/-- Settles O52. -/
theorem supplyAndPinsAreWatched : Obligations.SupplyAndPinsAreWatched := by
  unfold Obligations.SupplyAndPinsAreWatched
  intro s r mv hoff v low inhibit brown hidden lost rails sampled
  refine ⟨fun h => congrArg Host.Outcome.next (if_pos h), fun hhidden hlost => ?_, fun hhidden hlost hclosed => ?_,
    fun hhidden hlost hclosed hstarting => ⟨fun hbrown => ?_, fun hr hbrown hwas hshutdown => ?_⟩, pgoodLost_closed, pgoodLost_open, pgoodLost_starting,
    fun h => ⟨_, congrArg Host.Outcome.next (if_pos h), State.frame_withDev (Dev.keeps_of_fields rfl), rfl, rfl⟩, resetPin_open, footReset_reads,
    fun pins link => ⟨fun h => congrArg Host.Outcome.next (if_pos (ne_true_of_eq_false h)), footResetEnd_reads pins link⟩, safeN_unsampled,
    fun h => ⟨⟨_, exec_safeN h true, State.twoWritten (by decide) 1 1 ..⟩, ⟨_, exec_safeN h false, State.twoWritten (by decide) 0 1 ..⟩,
      ⟨_, exec_safeNRelease h, State.frame_withDev (Dev.keeps_wrs (by simp)), wrs_two (by decide) 1 0⟩, safeNHighTimer_of_low, safeNHighTimer_of_high h⟩⟩
  · have hlost' : r.val = 5 ∧ v < 900 := ⟨congrArg Fin.val hlost.1, hlost.2⟩
    exact ⟨s.powerLost, congrArg Host.Outcome.next ((if_neg hhidden).trans (if_pos hlost')), rfl, rfl, rfl, rfl, rfl⟩
  · exact congrArg Host.Outcome.next ((if_neg hhidden).trans ((if_neg fun h => hlost ⟨Fin.ext h.1, h.2⟩).trans (if_pos hclosed)))
  · exact ⟨_, rfl, railCrossing_shown hoff r.isLt hhidden (fun h => hlost ⟨Fin.ext h.1, h.2⟩) hclosed hstarting mv.isLt
      (hbrown.imp_right (Or.imp_right fun hne h => hne (Fin.ext h)))⟩
  · subst hr
    exact ⟨_, rfl, railCrossing_brown hoff hhidden (fun h => hlost ⟨rfl, h⟩) hclosed hstarting mv.isLt hbrown hwas hshutdown⟩

end Sys2Proof.Machine

end

section
/-!
The cold start (R427, R498, R501 to R503, Tables 21.2, 21.3).
-/

namespace Sys2Proof.Machine

open Sys2Proof

/-! ## The anchor (R427) -/

section Anchor

variable (s : State) (closedMs : Word)

/-- Whether no cold start may begin (R427). -/
def State.barred : Prop := s.dev.start.begun = true ∨ (s.dev.pow.closed = true ∧ s.dev.pow.latched.isNone = true) ∨
  s.dev.flag (F.POWER_RAIL_BROWN 5) = true ∨ s.dev.footInReset = true

/-- What power keeps through the anchor of a cold start. -/
def State.anchorPow : PowerSt :=
  { record := s.dev.pow.record, wakeLevel := s.dev.pow.wakeLevel, closedMs := if s.dev.pow.closed then closedMs.toNat else s.dev.pow.closedMs }

/-- The start begun, with PGOOD high. -/
def Dev.anchored (d : Dev) : Dev := ({ d with start.begun := true } : Dev).wr F.POWER_PINS_PGOOD 1

/-- LAST_WAKE of a record that has survived. -/
def Dev.wakeShown (d : Dev) (record : Option Nat) : Dev :=
  match record with
  | some w => d.showWake w
  | none => d

theorem exec_coldStart_of_barred (h : s.barred) : exec (.coldStart closedMs) s = .next s := congrArg Host.Outcome.next (if_pos h)

theorem exec_coldStart_of_free (h : ¬ s.barred) : exec (.coldStart closedMs) s =
    .next ((s.coldReset (s.anchorPow closedMs)).withDev fun d => d.anchored.wakeShown s.dev.pow.record) :=
  congrArg Host.Outcome.next (if_neg h)

theorem Dev.wakeShown_kept {β : Type} (g : Dev → β) (hg : ∀ (e : Dev) m, g { e with fields := m } = g e) (d : Dev) (record : Option Nat) :
    g (d.wakeShown record) = g d := by
  cases record with
  | none => rfl
  | some w => exact Dev.wrs_kept g hg d _

/-- The registers of LAST_WAKE. -/
def wakeFields : List Field := [F.LAST_WAKE_CAUSE, F.LAST_WAKE_FLAG, F.LAST_WAKE_SOURCE, F.LAST_WAKE_ZONE, F.LAST_WAKE_MS_CLOSED_MS]

theorem Dev.keeps_showWake (d : Dev) (w : Nat) : d.Keeps wakeFields (d.showWake w) := Dev.keeps_wrs (by simp [wakeFields])

theorem Dev.keeps_wakeShown (d : Dev) (record : Option Nat) : d.Keeps wakeFields (d.wakeShown record) := by
  cases record with
  | none => exact Dev.Keeps.refl _ d
  | some w => exact Dev.keeps_showWake d w

theorem wakeKeys_nodup : (wakeFields.map Field.key).Nodup := by decide

theorem Dev.rd_showWake (d : Dev) (w : Nat) : (d.showWake w).rd F.LAST_WAKE_CAUSE = w % 16 :=
  Dev.rd_wrs_of_mem d wakeKeys_nodup List.mem_cons_self

theorem Dev.anchored_begun (d : Dev) : d.anchored.start.begun = true := rfl

theorem Dev.anchored_pow (d : Dev) : d.anchored.pow = d.pow := rfl

theorem coldStart_begins (h : ¬ s.barred) : ∃ t, exec (.coldStart closedMs) s = .next t ∧ t.mem = [] ∧ t.layout = {} ∧ t.ledger = s.ledger ∧
    t.fuses = s.fuses ∧ t.dev.start.begun = true ∧ t.dev.pow.closed = false ∧ t.dev.rd F.POWER_PINS_PGOOD = 1 ∧
    ∀ w, s.dev.pow.record = some w → t.dev.rd F.LAST_WAKE_CAUSE = w % 16 := by
  refine ⟨_, exec_coldStart_of_free s closedMs h, rfl, rfl, rfl, rfl, ?_, ?_, ?_, fun w hw => ?_⟩
  · rw [State.withDev_dev, Dev.wakeShown_kept Dev.start fun _ _ => rfl]
    exact Dev.anchored_begun _
  · have hpow : (s.coldReset (s.anchorPow closedMs)).dev.pow = s.anchorPow closedMs := State.coldReset_view s _ Dev.pow fun _ _ => rfl
    rw [State.withDev_dev, Dev.wakeShown_kept Dev.pow fun _ _ => rfl, Dev.anchored_pow, hpow]
    rfl
  · exact (Dev.keeps_wakeShown _ _ _ (by decide)).trans (Dev.rd_wr_same _ _ _)
  · rw [State.withDev_dev, hw]
    exact Dev.rd_showWake _ w

end Anchor

/-! ## One step after another (R501) -/

section Steps

variable (s : State) (o : StartOutcome)

/-- Whether a step of the start completes now. -/
def State.startHeld : Prop := (¬ s.dev.starting = true) ∨ s.dev.flag F.SAFE_STATUS_ACTIVE = true ∨ s.dev.footInReset = true ∨ s.dev.pow.shutdown = true

/-- The step that follows on a phase of Table 21.2. -/
def State.startStep (phase : Nat) : State :=
  match phase with
  | 0 => s.phase 1
  | 1 => if o.directory then s.startTwo.phase 2 else s.withDev fun d => d.startFailed 2
  | 2 => if s.dev.clocked then s.phase 3 else s
  | 3 => s.startRegistrars o
  | 4 => s.phase 5
  | 5 => if s.dev.tooHot then s else s.phase 6
  | 6 => (s.withDev fun d => d.loadLocal (List.range 18)).phase 7
  | 7 => s.startDomains o
  | 8 => s.startErrata o
  | 9 =>
    if s.dev.start.full then s.startTest o
    else (({ s with mem := [], dev := { s.dev with rowCounts := [] } } : State).withDev Dev.restReserve).phase 11
  | _ => if s.dev.start.ports.all s.dev.portUp then s.ready else s

theorem exec_startPhaseDone_of_held (h : s.startHeld) : exec (.startPhaseDone o) s = .next s := congrArg Host.Outcome.next (if_pos h)

theorem exec_startPhaseDone (h : ¬ s.startHeld) {phase : Nat} (hphase : s.dev.rd F.DEV_START_STATUS_PHASE = phase) :
    exec (.startPhaseDone o) s = .next (s.startStep o phase) := by
  rw [← hphase]
  exact congrArg Host.Outcome.next (if_neg h)

theorem State.startStep_of_ports {phase : Nat} (h : 10 ≤ phase) :
    s.startStep o phase = if s.dev.start.ports.all s.dev.portUp then s.ready else s := by
  rw [State.startStep] <;> omega

theorem Dev.keeps_phase (n : Nat) : s.dev.Keeps [F.DEV_START_STATUS_PHASE] (s.phase n).dev := Dev.keeps_wr List.mem_cons_self n

theorem State.frame_phase (n : Nat) : s.frame (s.phase n) [F.DEV_START_STATUS_PHASE] := State.frame_of_keeps (Dev.keeps_wr List.mem_cons_self n)

theorem State.rd_phase {n : Nat} (h : n < 16) : (s.phase n).dev.rd F.DEV_START_STATUS_PHASE = n :=
  (Dev.rd_wr_same _ _ _).trans (Nat.mod_eq_of_lt h)

/-- A step completed is shown, and nothing else. -/
theorem State.phase_shown {n : Nat} (hn : n < 16) (h : exec (.startPhaseDone o) s = .next (s.phase n)) :
    ∃ t, exec (.startPhaseDone o) s = .next t ∧ s.frame t [F.DEV_START_STATUS_PHASE] ∧ t.dev.rd F.DEV_START_STATUS_PHASE = n :=
  ⟨_, h, s.frame_phase n, s.rd_phase hn⟩

theorem failedKeys_nodup : ([F.DEV_STATUS_STATE, F.DEV_START_STATUS_FAIL_CAUSE].map Field.key).Nodup := by decide

theorem Dev.rd_startFailed (d : Dev) {cause : Nat} (h : cause < 8) : (d.startFailed cause).rd F.DEV_STATUS_STATE = 3 ∧
    (d.startFailed cause).rd F.DEV_START_STATUS_FAIL_CAUSE = cause :=
  ⟨Dev.rd_wrs_of_mem d (l := [(F.DEV_STATUS_STATE, 3), (F.DEV_START_STATUS_FAIL_CAUSE, cause)]) (v := 3) failedKeys_nodup (by simp),
    (Dev.rd_wrs_of_mem d (l := [(F.DEV_STATUS_STATE, 3), (F.DEV_START_STATUS_FAIL_CAUSE, cause)]) (v := cause) failedKeys_nodup (by simp)).trans (Nat.mod_eq_of_lt h)⟩

/-- A failed start, whatever else the device notes beside its registers. -/
theorem State.startFails {f : Dev → Dev} (hf : (f s.dev).fields = s.dev.fields) {cause : Nat} (hcause : cause < 8)
    (h : exec (.startPhaseDone o) s = .next (s.withDev fun d => (f d).startFailed cause)) :
    ∃ t, exec (.startPhaseDone o) s = .next t ∧ s.frame t [F.DEV_STATUS_STATE, F.DEV_START_STATUS_FAIL_CAUSE] ∧
      t.dev.rd F.DEV_STATUS_STATE = 3 ∧ t.dev.rd F.DEV_START_STATUS_FAIL_CAUSE = cause :=
  ⟨_, h, State.frame_of_keeps (Dev.Keeps.trans (e := f s.dev) (Dev.keeps_of_fields hf) (Dev.keeps_wrs (List.Subset.refl _))),
    Dev.rd_startFailed _ hcause⟩

end Steps

/-! ## Step 2: the session counted -/

section Count

variable (s : State)

/-- COUNT before this start, from its record in the ledger. -/
def State.sessions : Nat :=
  match s.ledger.read 0x120000 with
  | some p => payloadNum p 0 4
  | none => 0

theorem State.sessions_eq : s.sessions = ((s.ledger.read 0x120000).map fun r => payloadNum r 0 4).getD 0 := by
  rw [State.sessions]
  cases s.ledger.read 0x120000 <;> rfl

/-- What Step 2 writes of the session. -/
def sessionWrites (now cause : Nat) (forced : Bool) : List (Field × Nat) :=
  [(F.DEV_START_COUNT_COUNT, now), (F.DEV_START_STATUS_QUICK, if cause = 0 then 1 else 0), (F.DEV_START_STATUS_FULL_CAUSE, cause),
    (F.DEV_START_CFG_FORCE_FULL, forced.toNat)]

theorem sessionKeys_nodup : ([F.DEV_START_COUNT_COUNT, F.DEV_START_STATUS_QUICK, F.DEV_START_STATUS_FULL_CAUSE, F.DEV_START_CFG_FORCE_FULL].map
    Field.key).Nodup := by decide

/-- The three PLLs of the stack that are OFF acquire. -/
def Dev.stackPllsOn (d : Dev) : Dev := (List.range 3).foldl (fun d k => if d.pll (64 + k) = 0 then d.setPll (64 + k) 1 else d) d

theorem State.startTwo_dev : ∃ e cause forced, s.startTwo.dev = (Dev.wrs e (sessionWrites ((s.sessions + 1) % 2 ^ 32) cause forced)).stackPllsOn :=
  ⟨_, _, _, rfl⟩

/-- The registers of a stack PLL put into ACQUIRE. -/
def stackPllFields (k : Nat) : List Field :=
  [F.CLK_PLL_STATUS_STATE k, F.CLK_PLL_STATUS_GATE_OPEN k, F.CLK_PLL_STATUS_SLEWING k] ++ countFields

theorem Dev.setPll_stack (d : Dev) (k : Nat) : d.setPll (64 + k) 1 = (d.pllPlaced (64 + k) 1).count 0x0823 (64 + k) := by
  have hbranches : ∀ i, d.setPll i 1 = if i < 64 then ((d.pllPlaced i 1).count 0x0823 i).withClk
      (((d.pllPlaced i 1).count 0x0823 i).clk.seeded i (((d.pllPlaced i 1).count 0x0823 i).rd (F.CLK_PORT_PLL_SEED i)))
      else (d.pllPlaced i 1).count 0x0823 i := fun i => by
    rw [Dev.pllPlaced_eq]
    rfl
  exact (hbranches _).trans (if_neg (by omega))

theorem Dev.keeps_stackPllOn (d : Dev) (k : Nat) : d.Keeps (stackPllFields k) (d.setPll (64 + k) 1) := by
  have hbelow : ¬ 64 + k < 64 := by omega
  have hwrites : (pllWrites (64 + k) 1).map Prod.fst ⊆ stackPllFields k := by
    rw [pllWrites, if_neg hbelow, Nat.add_sub_cancel_left]
    simp [stackPllFields]
  rw [Dev.setPll_stack]
  refine Dev.Keeps.trans (e := d.pllPlaced (64 + k) 1) ?_ ((Dev.keeps_count _ _ _ _).mono (List.subset_append_right _ _))
  exact Dev.Keeps.trans (e := d.wrs (pllWrites (64 + k) 1)) (Dev.keeps_wrs hwrites) (Dev.keeps_of_fields rfl)

theorem Dev.keeps_stackPllsOn (d : Dev) : d.Keeps ((List.range 3).flatMap stackPllFields) d.stackPllsOn :=
  Dev.keeps_foldl _ (fun e k hk => by
    split
    · exact (Dev.keeps_stackPllOn e k).mono fun f hf => List.mem_flatMap.mpr ⟨k, hk, hf⟩
    · exact Dev.Keeps.refl _ e) d

theorem State.rd_startTwo_count : s.startTwo.dev.rd F.DEV_START_COUNT_COUNT = (s.sessions + 1) % 2 ^ 32 := by
  obtain ⟨e, cause, forced, heq⟩ := s.startTwo_dev
  rw [heq, Dev.keeps_stackPllsOn _ _ (by decide)]
  exact (Dev.rd_wrs_of_mem e (l := sessionWrites ((s.sessions + 1) % 2 ^ 32) cause forced) sessionKeys_nodup List.mem_cons_self).trans (Nat.mod_mod _ _)

theorem State.startTwo_counts : (s.startTwo.phase 2).dev.rd F.DEV_START_STATUS_PHASE = 2 ∧ (s.startTwo.phase 2).mem = s.mem ∧
    (s.startTwo.phase 2).dev.rd F.DEV_START_COUNT_COUNT = (((s.ledger.read 0x120000).map fun r => payloadNum r 0 4).getD 0 + 1) % 2 ^ 32 := by
  refine ⟨State.rd_phase _ (by decide), rfl, ?_⟩
  rw [Dev.keeps_phase s.startTwo 2 _ (by decide), State.rd_startTwo_count, State.sessions_eq]

end Count

/-! ## Step 4: the registrars -/

section Registrars

variable (s : State) (o : StartOutcome)

theorem State.startRegistrars_of_fail (h0 : o.registrars.getLsbD 0 = false) (h1 : o.registrars.getLsbD 1 = false) :
    s.startRegistrars o = s.withDev fun d => ({ d with flt.registrarLost := true } : Dev).startFailed 1 :=
  if_pos ⟨ne_true_of_eq_false h0, ne_true_of_eq_false h1⟩

/-- What Step 4 writes of two registrars that passed. -/
def registrarWrites (patch : Nat) : List (Field × Nat) := [(F.DEV_REG_ACTIVE, 0), (F.DEV_REG_STANDBY_READY, 1), (F.DEV_REG_PATCH, patch)]

theorem State.startRegistrars_of_pass (h0 : o.registrars.getLsbD 0 = true) (h1 : o.registrars.getLsbD 1 = true) :
    ∃ req : Dev → LedgerReq, s.startRegistrars o = (s.withDev fun d => (d.wrs (registrarWrites o.patch.toNat)).ledgerRequest (req d)).phase 4 := by
  refine ⟨fun d => { record := recordNo 0x13 0, payload := d.wakePayload (d.pow.record.getD 0) }, ?_⟩
  rw [State.startRegistrars]
  dsimp only
  rw [if_neg (fun h => h.1 h0)]
  simp only [h0, h1, List.filter_cons, List.filter_nil, Bool.not_true, Bool.and_true, if_true, Bool.toNat_true, List.foldl_nil, Bool.false_eq_true, if_false]
  rfl

theorem State.startRegistrars_reads (h0 : o.registrars.getLsbD 0 = true) (h1 : o.registrars.getLsbD 1 = true) :
    (s.startRegistrars o).dev.rd F.DEV_START_STATUS_PHASE = 4 ∧ (s.startRegistrars o).dev.rd F.DEV_REG_ACTIVE = 0 ∧
      (s.startRegistrars o).dev.rd F.DEV_REG_STANDBY_READY = 1 ∧ (s.startRegistrars o).mem = s.mem := by
  obtain ⟨req, heq⟩ := s.startRegistrars_of_pass o h0 h1
  rw [heq]
  have hkeep := fun (e : Dev) (r : LedgerReq) => Dev.keeps_ledgerRequest e r
  have hnodup : (((registrarWrites o.patch.toNat).map Prod.fst).map Field.key).Nodup := by
    change ([F.DEV_REG_ACTIVE, F.DEV_REG_STANDBY_READY, F.DEV_REG_PATCH].map Field.key).Nodup
    decide
  refine ⟨State.rd_phase _ (by decide), ?_, ?_, rfl⟩
  · exact (Dev.rd_wr_ne _ (by decide) _).trans ((hkeep _ _ _ (by decide)).trans (Dev.rd_wrs_of_mem s.dev (v := 0) hnodup (by simp [registrarWrites])))
  · exact (Dev.rd_wr_ne _ (by decide) _).trans ((hkeep _ _ _ (by decide)).trans (Dev.rd_wrs_of_mem s.dev (v := 1) hnodup (by simp [registrarWrites])))

end Registrars

/-! ## Steps 7 and 8: the local counts, the domains -/

section Local

theorem slotAt_insert_ne {α : Type} {k n : Nat} (h : n ≠ k) (v : α) (m : SMap α) : slotAt (SMap.insert k v m) n = slotAt m n := by
  rw [slotAt, slotAt, find?_insert_ne h]

theorem Dev.loadLocal_eq (d : Dev) (dies : List Nat) :
    d.loadLocal dies = { d with localCount := dies.foldl (fun m die => SMap.insert die d.time m) d.localCount } := by
  rw [Dev.loadLocal]
  induction dies generalizing d with
  | nil => rfl
  | cons die dies ih => rw [List.foldl_cons, ih, List.foldl_cons]

theorem Dev.loadLocal_fields (d : Dev) (dies : List Nat) : (d.loadLocal dies).fields = d.fields := by rw [Dev.loadLocal_eq]

theorem Dev.slotAt_loadLocal (d : Dev) {dies : List Nat} (hdies : dies.Nodup) {die : Nat} (hdie : die ∈ dies) :
    slotAt (d.loadLocal dies).localCount die = some d.time := by
  rw [Dev.loadLocal_eq]
  exact foldl_view_of_mem (view := slotAt) (key := id) (upd := fun _ _ => some d.time) (fun m i j h => slotAt_insert_ne h d.time m)
    (fun m i => slotAt_insert_same i d.time m) (fun _ _ h => h) hdies d.localCount hdie

/-- Step 7: the local counts loaded. -/
def State.localLoaded (s : State) (dies : List Nat) : State := s.withDev fun d => d.loadLocal dies

theorem State.frame_localLoaded (s : State) (dies : List Nat) : s.frame (s.localLoaded dies) [] :=
  State.frame_of_keeps (Dev.keeps_of_fields (Dev.loadLocal_fields s.dev dies))

theorem State.slotAt_localLoaded (s : State) {dies : List Nat} (hdies : dies.Nodup) {die : Nat} (hdie : die ∈ dies) (n : Nat) :
    slotAt ((s.localLoaded dies).phase n).dev.localCount die = some s.dev.time := Dev.slotAt_loadLocal s.dev hdies hdie

theorem State.startStep_local (s : State) (o : StartOutcome) : s.startStep o 6 = (s.localLoaded (List.range 18)).phase 7 := rfl

theorem startDomains_reads (s : State) (o : StartOutcome) : (s.startDomains o).dev.rd F.DEV_START_STATUS_PHASE = 8 ∧ (s.startDomains o).dev.keks = [] ∧
    (s.startDomains o).dev.vault = [] ∧ (s.startDomains o).dev.nextKeys = [] := by
  rw [State.startDomains]
  dsimp only
  exact ⟨State.rd_phase _ (by decide), rfl, rfl, rfl⟩

end Local

/-! ## A quick start's DRAM, and READY -/

section Ready

variable (s : State)

theorem Dev.restReserve_kept {β : Type} (g : Dev → β) (hg : ∀ (e : Dev) m, g { e with shelves := m } = g e) (d : Dev) : g d.restReserve = g d := by
  rw [Dev.restReserve]
  refine List.foldlRecOn _ _ (motive := fun e : Dev => g e = g d) rfl fun e he l _ => ?_
  split
  · exact List.foldlRecOn _ _ (motive := fun e : Dev => g e = g d) he fun e he n _ => (hg e _).trans he
  · exact he

/-- The DRAM after a quick start: zero, and no row counted (log entry 2). -/
def State.zeroed : State := { s with mem := [], dev := { s.dev with rowCounts := [] } }

variable {s} in
theorem State.startStep_quick (o : StartOutcome) (h : s.dev.start.full = false) : s.startStep o 9 = (s.zeroed.withDev Dev.restReserve).phase 11 :=
  if_neg (ne_true_of_eq_false h)

theorem State.phase_mem (n : Nat) : (s.phase n).mem = s.mem := rfl

theorem State.phase_ledger (n : Nat) : (s.phase n).ledger = s.ledger := rfl

theorem State.phase_rowCounts (n : Nat) : (s.phase n).dev.rowCounts = s.dev.rowCounts := rfl

theorem Dev.restReserve_rowCounts (d : Dev) : d.restReserve.rowCounts = d.rowCounts := Dev.restReserve_kept Dev.rowCounts (fun _ _ => rfl) d

theorem State.readSym_of_empty {t : State} (h : t.mem = []) (a : Nat) : t.readSym a = memDefault := by
  rw [State.readSym, h]
  rfl

theorem State.zeroed_reads : ((s.zeroed.withDev Dev.restReserve).phase 11).mem = [] ∧ ((s.zeroed.withDev Dev.restReserve).phase 11).dev.rowCounts = [] ∧
    ((s.zeroed.withDev Dev.restReserve).phase 11).dev.rd F.DEV_START_STATUS_PHASE = 11 ∧
    ((s.zeroed.withDev Dev.restReserve).phase 11).ledger = s.ledger ∧
    ∀ a, ((s.zeroed.withDev Dev.restReserve).phase 11).readSym a = memDefault := by
  have hmem : ((s.zeroed.withDev Dev.restReserve).phase 11).mem = [] := State.phase_mem _ 11
  refine ⟨hmem, ?_, State.rd_phase _ (by decide), State.phase_ledger _ 11, State.readSym_of_empty hmem⟩
  rw [State.phase_rowCounts, State.withDev_dev, Dev.restReserve_rowCounts]
  rfl

/-- What READY writes. -/
def readyWrites (ms : Nat) : List (Field × Nat) := [(F.DEV_STATUS_STATE, 1), (F.DEV_START_STATUS_READY_MS, min 65535 ms)]

variable {s}

theorem State.ready_of_idle (hcur : s.dev.pow.cur = none) (hpend : s.dev.pow.pend = none) :
    s.ready = (s.phase 13).withDev fun d => d.wrs (readyWrites (d.time / 1000000)) := by
  refine State.powerPump_of_idle ?_ ?_
  · exact (congrArg PowerSt.cur (Dev.wrs_kept Dev.pow (fun _ _ => rfl) _ _)).trans hcur
  · exact (congrArg PowerSt.pend (Dev.wrs_kept Dev.pow (fun _ _ => rfl) _ _)).trans hpend

theorem State.ready_reads (hcur : s.dev.pow.cur = none) (hpend : s.dev.pow.pend = none) :
    s.frame s.ready [F.DEV_START_STATUS_PHASE, F.DEV_STATUS_STATE, F.DEV_START_STATUS_READY_MS] ∧ s.ready.dev.rd F.DEV_START_STATUS_PHASE = 13 ∧
      s.ready.dev.rd F.DEV_STATUS_STATE = 1 ∧ s.ready.dev.rd F.DEV_START_STATUS_READY_MS = min 65535 (s.dev.time / 1000000) := by
  rw [State.ready_of_idle hcur hpend]
  have hnodup : ([F.DEV_STATUS_STATE, F.DEV_START_STATUS_READY_MS].map Field.key).Nodup := by decide
  have hshown := Dev.keeps_wrs (d := (s.phase 13).dev) (w := readyWrites ((s.phase 13).dev.time / 1000000))
    (l := [F.DEV_STATUS_STATE, F.DEV_START_STATUS_READY_MS]) (List.Subset.refl _)
  refine ⟨State.frame_trans (State.frame_mono (s.frame_phase 13) (by simp)) (State.frame_of_keeps (hshown.mono (by simp))),
    (hshown _ (by decide)).trans (State.rd_phase s (by decide)),
    Dev.rd_wrs_of_mem _ (l := readyWrites (s.dev.time / 1000000)) (v := 1) hnodup List.mem_cons_self, ?_⟩
  refine (Dev.rd_wrs_of_mem _ (l := readyWrites (s.dev.time / 1000000)) (v := min 65535 (s.dev.time / 1000000)) hnodup
    (List.mem_cons_of_mem _ List.mem_cons_self)).trans (Nat.mod_eq_of_lt ?_)
  change min 65535 _ < 65536
  omega

end Ready

section Commands

variable {s : State}

/-- A port released. -/
def Dev.released (d : Dev) (port : Nat) : Dev := { d with start.ports := d.start.ports.filter (· ≠ port) }

theorem exec_portReadyTimeout (port : Fin 64) : exec (.portReadyTimeout port) s = s.next fun d => if d.portUp port then d else d.released port := rfl

theorem exec_portReadyTimeout_of_up {port : Fin 64} (h : s.dev.portUp port = true) : exec (.portReadyTimeout port) s = .next s :=
  (exec_portReadyTimeout port).trans (State.next_of_same (if_pos h))

theorem exec_portReadyTimeout_of_down {port : Fin 64} (h : s.dev.portUp port = false) :
    exec (.portReadyTimeout port) s = .next (s.withDev fun d => d.released port) :=
  (exec_portReadyTimeout port).trans (State.next_congr (if_neg (ne_true_of_eq_false h)))

/-- The request for the START record. -/
def State.startRequest (s : State) : LedgerReq := { record := recordNo 0x10 0, payload := s.startPayload }

theorem State.startRequest_not_log : s.startRequest.isLog = false := by
  show decide (recordNo 0x10 0 / 2 ^ 16 = 0x30) = false
  decide

theorem exec_startCfgSave : exec .startCfgSave s = .next (s.withDev fun d => (d.wr F.DEV_START_CFG_SAVE 1).ledgerRequest s.startRequest) := rfl

end Commands

/-- Settles O53: the anchor, then one branch of the start per phase. -/
theorem coldStartRuns : Obligations.ColdStartRuns := by
  unfold Obligations.ColdStartRuns
  intro s o closedMs port p phase barred holds to_ failed
  have hbarred : barred ↔ s.barred := by
    simp only [barred, State.barred, p, Option.isNone_iff_eq_none]
  have hheld : holds ↔ s.startHeld := by
    simp only [holds, State.startHeld, p, Bool.not_eq_true]
  refine ⟨fun h => exec_coldStart_of_barred s closedMs (hbarred.mp h), fun h => coldStart_begins s closedMs (mt hbarred.mpr h),
    fun h => exec_startPhaseDone_of_held s o (hheld.mp h), fun h => ?_, exec_portReadyTimeout_of_up,
    fun h => ⟨_, exec_portReadyTimeout_of_down h, State.frame_of_keeps (Dev.keeps_of_fields rfl), ?_, fun q hq => ?_⟩,
    fun h => ⟨_, exec_startCfgSave, ?_, ?_, s.startRequest, Dev.mem_ledgerRequest _ _ h, rfl, rfl⟩⟩
  · have hstep := fun {n : Nat} (hn : phase = n) => exec_startPhaseDone s o (mt hheld.mpr h) hn
    refine ⟨fun hn => s.phase_shown o (by decide) (hstep hn), fun hn hdir => ?_, fun hn hdir => ?_, fun hn hc => ?_, fun hn hc => ?_, fun hn h0 h1 => ?_,
      fun hn h0 h1 => ⟨_, hstep hn, s.startRegistrars_reads o h0 h1⟩, fun hn => s.phase_shown o (by decide) (hstep hn), fun hn hhot => ?_,
      fun hn hhot => ?_, fun hn => ⟨_, (hstep hn).trans (congrArg Host.Outcome.next (s.startStep_local o)),
        State.frame_trans (State.frame_mono (s.frame_localLoaded _) (List.nil_subset _)) (State.frame_phase _ 7), State.rd_phase _ (by decide),
        fun die hdie => s.slotAt_localLoaded List.nodup_range (List.mem_range.mpr hdie) 7⟩,
      fun hn => ⟨_, hstep hn, startDomains_reads s o⟩, fun hn => hstep hn, fun hn hfull => ?_,
      fun hn hquick => ⟨_, (hstep hn).trans (congrArg Host.Outcome.next (State.startStep_quick o hquick)), s.zeroed_reads⟩, fun hn hports => ?_,
      fun hn hports hcur hpend => ?_⟩
    · exact s.startFails o (f := id) rfl (by decide) ((hstep hn).trans (congrArg Host.Outcome.next (if_neg (ne_true_of_eq_false hdir))))
    · exact ⟨_, (hstep hn).trans (congrArg Host.Outcome.next (if_pos hdir)), s.startTwo_counts⟩
    · exact s.phase_shown o (by decide) ((hstep hn).trans (congrArg Host.Outcome.next (if_pos hc)))
    · exact (hstep hn).trans (congrArg Host.Outcome.next (if_neg (ne_true_of_eq_false hc)))
    · exact s.startFails o (f := fun d => { d with flt.registrarLost := true }) rfl (by decide)
        ((hstep hn).trans (congrArg Host.Outcome.next (s.startRegistrars_of_fail o h0 h1)))
    · exact s.phase_shown o (by decide) ((hstep hn).trans (congrArg Host.Outcome.next (if_neg (ne_true_of_eq_false hhot))))
    · exact (hstep hn).trans (congrArg Host.Outcome.next (if_pos hhot))
    · exact (hstep hn).trans (congrArg Host.Outcome.next (if_pos hfull))
    · rw [hstep rfl, State.startStep_of_ports s o hn, if_neg (ne_true_of_eq_false hports)]
    · refine ⟨s.ready, ?_, State.ready_reads hcur hpend⟩
      rw [hstep rfl, State.startStep_of_ports s o hn, if_pos hports]
  · exact fun hmem => of_decide_eq_true (List.mem_filter.mp hmem).2 rfl
  · exact ⟨fun hmem => (List.mem_filter.mp hmem).1, fun hmem => List.mem_filter.mpr ⟨hmem, decide_eq_true hq⟩⟩
  · exact State.frame_of_keeps (Dev.Keeps.trans (e := s.dev.wr F.DEV_START_CFG_SAVE 1) (Dev.keeps_wr (by simp) 1)
      ((Dev.keeps_ledgerRequest_of_kept _ _ State.startRequest_not_log).mono (by simp)))
  · exact (Dev.keeps_ledgerRequest_of_kept _ _ State.startRequest_not_log _ (by decide)).trans (Dev.rd_wr_same _ _ _)

end Sys2Proof.Machine
end

section
/-!
Faults: events, records, clears and the event log (R439 to R446, Tables 18.2, 18.4).
-/

namespace Sys2Proof.Machine

open Sys2Proof

/-! ## One event (R439) -/

section Event

variable (s : State) (type : BitVec 8) (source : BitVec 12) (detail : BitVec 64) (lost : List Nat)

/-- The event that a command names. -/
def namedFault : RaisedFault := { type := type.toNat, source := source.toNat, detail := detail.toNat }

theorem exec_faultEvent : exec (.faultEvent type source detail lost) s =
    .next (match s.dev.raised.find? (fun x => x.type = type.toNat && x.source = source.toNat) with
      | some x => if s.dev.faultsHeld then s else (s.withDev fun d => { d with raised := s.dev.raised.erase x }).faultEvent x lost
      | none => if s.dev.faultsHeld then s.withDev fun d => { d with raised := d.raised ++ [namedFault type source detail] }
          else s.faultEvent (namedFault type source detail) lost) := rfl

variable {s type source}

theorem exec_faultEvent_of_waiting {x : RaisedFault} (h : s.dev.raised.find? (fun x => x.type = type.toNat && x.source = source.toNat) = some x) :
    exec (.faultEvent type source detail lost) s =
      .next (if s.dev.faultsHeld then s else (s.withDev fun d => { d with raised := s.dev.raised.erase x }).faultEvent x lost) := by
  rw [exec_faultEvent, h]

theorem exec_faultEvent_of_new (h : s.dev.raised.find? (fun x => x.type = type.toNat && x.source = source.toNat) = none) :
    exec (.faultEvent type source detail lost) s =
      .next (if s.dev.faultsHeld then s.withDev fun d => { d with raised := d.raised ++ [namedFault type source detail] }
        else s.faultEvent (namedFault type source detail) lost) := by
  rw [exec_faultEvent, h]

end Event

/-! ## Counting, and the record of a source (R440, R446) -/

section Records

variable {s : State} {f : RaisedFault} (lost : List Nat)

/-- Whether the queue holds a record of the event's source and type. -/
def State.recorded (s : State) (f : RaisedFault) : Bool := s.dev.flt.records.any (fun r => r.source = f.source && r.type = f.type)

/-- The records, and the counts, replaced. -/
def Dev.withRecords (d : Dev) (l : List FaultRecord) : Dev := { d with flt.records := l }

/-- The counts replaced. -/
def Dev.withCounts (d : Dev) (l : List FaultCount) : Dev := { d with flt.counts := l }

/-- The counts of every other source. -/
def Dev.otherCounts (d : Dev) (t source : Nat) : List FaultCount := d.flt.counts.filter (fun c => c.source ≠ source ∨ c.type ≠ t)

/-- A later event of an open record. -/
theorem State.faultEvent_of_recorded (h : s.recorded f = true) : s.faultEvent f lost = s.withDev fun d => d.withRecords (d.flt.records.map fun r =>
    if r.source = f.source ∧ r.type = f.type then r.again d.time else r) := if_pos h

theorem State.faultEvent_of_new (h : s.recorded f = false) : s.faultEvent f lost =
    if (s.dev.countFault f.type f.source).1 then ({ s with dev := (s.dev.countFault f.type f.source).2 } : State).classify f lost
    else { s with dev := (s.dev.countFault f.type f.source).2 } := if_neg (ne_true_of_eq_false h)

/-- The first event of a type that counts further opens a count. -/
theorem Dev.countFault_of_first {d : Dev} {t source : Nat} (hn : 1 < d.rd (F.FAULT_TYPE_CFG_N t))
    (hfind : d.flt.counts.find? (fun c => c.source = source && c.type = t) = none) : d.countFault t source =
      (false, d.withCounts (dropEarliest (d.otherCounts t source) ++ [{ source := source, type := t, opened := d.time, n := 1 }])) := by
  have hone : ¬ atLeastOne (d.rd (F.FAULT_TYPE_CFG_N t)) = 1 := by
    rw [atLeastOne]
    omega
  rw [Dev.countFault]
  dsimp only
  rw [if_neg hone, hfind]
  rfl

/-- A type whose count is 1, or 0, classifies at once. -/
theorem Dev.countFault_of_one {d : Dev} {t : Nat} (source : Nat) (hn : d.rd (F.FAULT_TYPE_CFG_N t) ≤ 1) :
    d.countFault t source = (true, d.withCounts (d.otherCounts t source)) := by
  have hone : atLeastOne (d.rd (F.FAULT_TYPE_CFG_N t)) = 1 := by
    rw [atLeastOne]
    omega
  exact if_pos hone

theorem State.faultEvent_of_first (h : s.recorded f = false) (hn : 1 < s.dev.rd (F.FAULT_TYPE_CFG_N f.type))
    (hfind : s.dev.flt.counts.find? (fun c => c.source = f.source && c.type = f.type) = none) : s.faultEvent f lost =
      s.withDev fun d => d.withCounts (dropEarliest (d.otherCounts f.type f.source) ++ [{ source := f.source, type := f.type, opened := d.time, n := 1 }]) := by
  rw [State.faultEvent_of_new lost h, Dev.countFault_of_first hn hfind]
  rfl

theorem State.faultEvent_of_one (h : s.recorded f = false) (hn : s.dev.rd (F.FAULT_TYPE_CFG_N f.type) ≤ 1) : s.faultEvent f lost =
    (s.withDev fun d => d.withCounts (d.otherCounts f.type f.source)).classify f lost := by
  rw [State.faultEvent_of_new lost h, Dev.countFault_of_one f.source hn]
  rfl

end Records

/-! ## Classification: the record, and reactions that contain nothing (R443, R445) -/

section Classify

/-- The house interrupt and the alert of a record whose reaction is more than to record. -/
def Dev.faultSignalled (d : Dev) (reaction : Nat) : Dev := if 1 ≤ reaction then (d.houseInterrupt 2).alert F.FOOT_I3C_ALERT_FAULT else d

theorem State.classify_of_mild (s : State) (f : RaisedFault) (lost : List Nat) {r : Nat}
    (hr : substituted f.type f.source f.channel (s.dev.rd (F.FAULT_TYPE_CFG_REACTION f.type)) = r) (hmild : r ≤ 1) :
    s.classify f lost = s.withDev fun d => (d.openRecord f.type f.source f.detail r).faultSignalled r := by
  rw [State.classify]
  dsimp only
  rw [hr, if_neg (by omega), if_neg (by omega)]
  rfl

theorem Dev.faultSignalled_none (d : Dev) : d.faultSignalled 0 = d := rfl

/-- An alert shows in its register, and may be sent as an IBI. -/
theorem Dev.alert_kept {β : Type} (g : Dev → β) (hg : ∀ (e : Dev) m i, g { e with fields := m, mgmt := i } = g e) (d : Dev) (f : Field) : g (d.alert f) = g d := by
  rw [Dev.alert]
  split
  · rfl
  · dsimp only
    split
    · exact hg d _ _
    · exact hg d _ d.mgmt

theorem Dev.faultSignalled_flt (d : Dev) (r : Nat) : (d.faultSignalled r).flt = d.flt := by
  rw [Dev.faultSignalled]
  split
  · exact (Dev.alert_kept Dev.flt (fun _ _ _ => rfl) _ _).trans ((Dev.eventsOnly_interrupt d _ _).view fun _ _ => rfl)
  · rfl

/-- The record of an event. -/
def Dev.recordOf (d : Dev) (t source detail reaction : Nat) : FaultRecord :=
  { seq := d.flt.seq + 1, source := source, reaction := reaction, signal := d.flag (F.FAULT_TYPE_CFG_SIGNAL t), lostBefore := d.flt.lostMark,
    type := t, first := d.time, detail := detail }

/-- What the registrar keeps once a record is open. -/
def FaultSt.opened (m : FaultSt) (r : FaultRecord) : FaultSt :=
  { m with records := m.records ++ [r], seq := m.seq + 1, lostMark := false, logWait := m.logWait ++ [r] }

/-- The registrar's own state replaced. -/
def Dev.withFaults (d : Dev) (m : FaultSt) : Dev := { d with flt := m }

theorem Dev.openRecord_of_room {d : Dev} (t source detail reaction : Nat) (h : d.flt.records.length < 256) : d.openRecord t source detail reaction =
    (((d.withFaults (d.flt.opened (d.recordOf t source detail reaction))).showFaults).houseRecord 2
      (BitVec.ofNat 512 (d.recordOf t source detail reaction).bits)).pumpLog := if_neg (by omega)

theorem Dev.showFaults_kept {β : Type} (g : Dev → β) (hg : ∀ (e : Dev) m, g { e with fields := m } = g e) (d : Dev) : g d.showFaults = g d :=
  Dev.wrs_kept g hg d _

theorem Dev.pumpLog_of_few {d : Dev} (h : d.flt.logWait.length < 7) : d.pumpLog = d := if_neg (by omega)

/-- A record opened while fewer than six wait for the ledger. -/
theorem Dev.openRecord_flt {d : Dev} (t source detail reaction : Nat) (h : d.flt.records.length < 256) (hlog : d.flt.logWait.length < 6) :
    (d.openRecord t source detail reaction).flt = d.flt.opened (d.recordOf t source detail reaction) := by
  have hhouse : ∀ e rec, (Dev.houseRecord e 2 rec).flt = e.flt := fun e rec => (Dev.eventsOnly_houseRecord e 2 rec 0).view fun _ _ => rfl
  have hflt := (hhouse (d.withFaults (d.flt.opened (d.recordOf t source detail reaction))).showFaults
    (BitVec.ofNat 512 (d.recordOf t source detail reaction).bits)).trans (Dev.showFaults_kept Dev.flt (fun _ _ => rfl) _)
  rw [Dev.openRecord_of_room t source detail reaction h, Dev.pumpLog_of_few, hflt]
  · rfl
  · rw [hflt]
    change (d.flt.logWait ++ [_]).length < 7
    rw [List.length_append, List.length_singleton]
    omega

/-! ### Overflow (R446) -/

/-- What the registrar keeps of a record that it could not open. -/
def FaultSt.lostOne (m : FaultSt) : FaultSt := { m with lostMark := true, seq := m.seq + 1 }

/-- OVERFLOW and LOST after a record that found no room. -/
def Dev.overflowed (d : Dev) : Dev := (d.wr F.FAULT_STATUS_OVERFLOW 1).bump F.FAULT_STATUS_LOST

/-- The house ring of the faults notes a lost record. -/
def Dev.ringLost (d : Dev) : Dev := d.setHouse 2 fun h => { h with lost := min (h.lost + 1) (2 ^ 32 - 1) }

theorem Dev.openRecord_of_full {d : Dev} (t source detail reaction : Nat) (h : 256 ≤ d.flt.records.length) : d.openRecord t source detail reaction =
    (d.overflowed.ringLost.withFaults d.flt.lostOne).showFaults := if_pos h

/-- The registers that show the queue. -/
def faultFields : List Field := [F.FAULT_STATUS_OPEN, F.FAULT_STATUS_FAULT_N, F.SAFE_STATUS_RECORDS]

theorem faultKeys_nodup : (faultFields.map Field.key).Nodup := by decide

theorem Dev.keeps_showFaults (d : Dev) : d.Keeps faultFields d.showFaults := Dev.keeps_wrs (List.Subset.refl _)

theorem Dev.rd_showFaults_open (d : Dev) : d.showFaults.rd F.FAULT_STATUS_OPEN = d.flt.records.length % 512 :=
  Dev.rd_wrs_of_mem d faultKeys_nodup List.mem_cons_self

theorem Dev.openRecord_overflows {d : Dev} (t source detail reaction : Nat) (h : 256 ≤ d.flt.records.length) :
    (d.openRecord t source detail reaction).flt.records = d.flt.records ∧ (d.openRecord t source detail reaction).rd F.FAULT_STATUS_OVERFLOW = 1 ∧
      (d.openRecord t source detail reaction).rd F.FAULT_STATUS_LOST = min (d.rd F.FAULT_STATUS_LOST + 1) 65535 := by
  rw [Dev.openRecord_of_full t source detail reaction h]
  refine ⟨(congrArg FaultSt.records (Dev.showFaults_kept Dev.flt (fun _ _ => rfl) _)).trans rfl, (Dev.keeps_showFaults _ _ (by decide)).trans ?_,
    (Dev.keeps_showFaults _ _ (by decide)).trans ?_⟩
  · exact (Dev.rd_bump_ne (d.wr F.FAULT_STATUS_OVERFLOW 1) (by decide)).trans (Dev.rd_wr_same d _ 1)
  · refine (Dev.rd_bump_same (d.wr F.FAULT_STATUS_OVERFLOW 1) F.FAULT_STATUS_LOST).trans ?_
    rw [Dev.rd_wr_ne d (by decide)]
    rfl

end Classify

section Classified

variable {s : State} {f : RaisedFault} (lost : List Nat) {r : Nat}

/-- The device whose event has been counted. -/
def State.counted (s : State) (f : RaisedFault) : Dev := s.dev.withCounts (s.dev.otherCounts f.type f.source)

theorem State.faultEvent_classified (h : s.recorded f = false) (hn : s.dev.rd (F.FAULT_TYPE_CFG_N f.type) ≤ 1)
    (hr : substituted f.type f.source f.channel (s.dev.rd (F.FAULT_TYPE_CFG_REACTION f.type)) = r) (hmild : r ≤ 1) : s.faultEvent f lost =
      { s with dev := ((s.counted f).openRecord f.type f.source f.detail r).faultSignalled r } :=
  (State.faultEvent_of_one lost h hn).trans (State.classify_of_mild _ f lost hr hmild)

theorem State.counted_opened (r : Nat) : (s.counted f).flt.opened ((s.counted f).recordOf f.type f.source f.detail r) =
    { s.dev.flt.opened (s.dev.recordOf f.type f.source f.detail r) with counts := s.dev.otherCounts f.type f.source } := rfl

/-- An event that opens a record while the queue and the log have room. -/
theorem State.faultEvent_opens (hroom : s.dev.flt.records.length < 256) (hlog : s.dev.flt.logWait.length < 6) (r : Nat) :
    (((s.counted f).openRecord f.type f.source f.detail r).faultSignalled r).flt =
      { s.dev.flt.opened (s.dev.recordOf f.type f.source f.detail r) with counts := s.dev.otherCounts f.type f.source } := by
  rw [Dev.faultSignalled_flt, Dev.openRecord_flt f.type f.source f.detail r (d := s.counted f) hroom hlog, State.counted_opened]

theorem FaultSt.opened_reads (m : FaultSt) (q : FaultRecord) (l : List FaultCount) : ({ m.opened q with counts := l } : FaultSt).records = m.records ++ [q] ∧
    ({ m.opened q with counts := l } : FaultSt).logWait = m.logWait ++ [q] ∧ ({ m.opened q with counts := l } : FaultSt).seq = m.seq + 1 := ⟨rfl, rfl, rfl⟩

theorem State.counted_rd (g : Field) : (s.counted f).rd g = s.dev.rd g := rfl

theorem State.counted_records : (s.counted f).flt.records = s.dev.flt.records := rfl

/-- An event whose record finds no room. -/
theorem State.faultEvent_overflows (h : s.recorded f = false) (hn : s.dev.rd (F.FAULT_TYPE_CFG_N f.type) ≤ 1)
    (hr : substituted f.type f.source f.channel (s.dev.rd (F.FAULT_TYPE_CFG_REACTION f.type)) = 0) (hfull : 256 ≤ s.dev.flt.records.length) :
    ∃ t : State, s.faultEvent f lost = t ∧ t.mem = s.mem ∧ t.dev.flt.records = s.dev.flt.records ∧ t.dev.rd F.FAULT_STATUS_OVERFLOW = 1 ∧
      t.dev.rd F.FAULT_STATUS_LOST = min (s.dev.rd F.FAULT_STATUS_LOST + 1) 65535 := by
  refine ⟨{ s with dev := (s.counted f).openRecord f.type f.source f.detail 0 }, ?_, rfl, ?_⟩
  · rw [State.faultEvent_classified lost h hn hr (Nat.zero_le 1), Dev.faultSignalled_none]
  have hreads := Dev.openRecord_overflows (d := s.counted f) f.type f.source f.detail 0 hfull
  rwa [State.counted_rd, State.counted_records] at hreads

end Classified

/-! ## FAULT_CLEAR and OVERFLOW (R446) -/

section Clear

variable {s : State}

/-- The chatter latch gone, where it may go (R434). -/
theorem Dev.keeps_chatterDone (d : Dev) : d.Keeps [F.SAFE_STATUS_CHATTER, F.POWER_PINS_SAFE_LATCHED] d.chatterDone := by
  rw [Dev.chatterDone]
  split
  · exact Dev.keeps_wrs (List.Subset.refl _)
  · exact Dev.Keeps.refl _ d

theorem Dev.chatterDone_flt (d : Dev) : d.chatterDone.flt = d.flt := by
  rw [Dev.chatterDone]
  split
  · exact Dev.wrs_kept Dev.flt (fun _ _ => rfl) d _
  · rfl

/-- The records but one. -/
def FaultSt.cleared (m : FaultSt) (seq : Nat) : List FaultRecord := m.records.filter (fun r => r.seq % 2 ^ 32 ≠ seq)

theorem Dev.faultClear_eq (d : Dev) (seq : Nat) : d.faultClear seq = (d.withRecords (d.flt.cleared seq)).showFaults.chatterDone := rfl

theorem exec_faultClear (seq : Word) : exec (.faultClear seq) s = .next (s.withDev fun d => d.faultClear seq.toNat) := rfl

/-- The registers that a change of the queue may show. -/
def shownFields : List Field := faultFields ++ [F.SAFE_STATUS_CHATTER, F.POWER_PINS_SAFE_LATCHED]

theorem Dev.keeps_faultClear (d : Dev) (seq : Nat) : d.Keeps shownFields (d.faultClear seq) := by
  rw [Dev.faultClear_eq]
  exact Dev.Keeps.trans (e := d.withRecords (d.flt.cleared seq)) (Dev.keeps_of_fields rfl) <|
    Dev.Keeps.trans ((Dev.keeps_showFaults _).mono (List.subset_append_left _ _)) ((Dev.keeps_chatterDone _).mono (List.subset_append_right _ _))

theorem Dev.faultClear_flt (d : Dev) (seq : Nat) : (d.faultClear seq).flt.records = d.flt.cleared seq := by
  rw [Dev.faultClear_eq, Dev.chatterDone_flt, Dev.showFaults_kept Dev.flt fun _ _ => rfl]
  rfl

theorem Dev.rd_faultClear_open (d : Dev) (seq : Nat) : (d.faultClear seq).rd F.FAULT_STATUS_OPEN = (d.flt.cleared seq).length % 512 := by
  rw [Dev.faultClear_eq, Dev.keeps_chatterDone _ _ (by decide), Dev.rd_showFaults_open]
  rfl

theorem exec_faultOverflowClear : exec .faultOverflowClear s = s.next Dev.overflowClear := rfl

theorem exec_faultOverflowClear_of_full (h : 256 ≤ s.dev.flt.records.length) : exec .faultOverflowClear s = .next s :=
  exec_faultOverflowClear.trans (State.next_of_same (if_neg (by omega)))

theorem exec_faultOverflowClear_of_room (h : s.dev.flt.records.length < 256) :
    exec .faultOverflowClear s = .next (s.withDev fun d => (d.wr F.FAULT_STATUS_OVERFLOW 0).showFaults) :=
  exec_faultOverflowClear.trans (State.next_congr (if_pos h))

end Clear

/-! ## A batch of the event log (R445) -/

section Batch

variable {s : State}

theorem exec_eventLogBatch : exec .eventLogBatch s = s.next Dev.logBatch := rfl

/-- What the registrar keeps once a batch has gone. -/
def FaultSt.batched (m : FaultSt) : FaultSt := { m with logWait := m.logWait.drop 7, logNext := (m.logNext + 1) % 8192 }

/-- The request of a batch. -/
def FaultSt.batch (m : FaultSt) : LedgerReq :=
  { record := recordNo 0x30 ((m.batched.logNext + 8191) % 8192), payload := (m.logWait.take 7).flatMap (fun r => bytesOfNat 32 r.bits) }

theorem FaultSt.batch_record {m : FaultSt} (h : m.logNext < 8192) : m.batch.record = recordNo 0x30 m.logNext := by
  have hnext : ((m.logNext + 1) % 8192 + 8191) % 8192 = m.logNext := by omega
  exact congrArg (recordNo 0x30) hnext

theorem exec_eventLogBatch_of_held (h : s.dev.flt.logWait = [] ∨ s.dev.ledgerHeld = true) : exec .eventLogBatch s = .next s :=
  exec_eventLogBatch.trans (State.next_of_same (if_pos h))

theorem exec_eventLogBatch_of_free (hwait : s.dev.flt.logWait ≠ []) (hheld : s.dev.ledgerHeld = false) : exec .eventLogBatch s =
    .next (s.withDev fun d => (d.withFaults d.flt.batched).ledgerRequest d.flt.batch) :=
  exec_eventLogBatch.trans (State.next_congr (if_neg fun h => h.elim hwait (ne_true_of_eq_false hheld)))

/-- A request that finds room in the queue drops none. -/
theorem Dev.keeps_ledgerRequest_of_room {d : Dev} (h : d.ledgerQueue.length < 64) (req : LedgerReq) : d.Keeps [F.LEDGER_STATUS_QUEUED] (d.ledgerRequest req) := by
  rw [Dev.ledgerRequest]
  split
  · exact Dev.keeps_of_fields rfl
  · exact Dev.Keeps.trans (e := { d with ledgerQueue := d.ledgerQueue ++ [req] }) (Dev.keeps_of_fields rfl) (Dev.keeps_wr (by simp) _)

theorem Dev.ledgerRequest_flt (d : Dev) (req : LedgerReq) : (d.ledgerRequest req).flt = d.flt :=
  Dev.ledgerRequest_view d (g := Dev.flt) (fun _ _ _ _ _ => rfl) req

end Batch

section BatchReads

variable {s : State}

/-- The device once a batch has gone. -/
def Dev.batchGone (d : Dev) : Dev := (d.withFaults d.flt.batched).ledgerRequest d.flt.batch

theorem Dev.batchGone_flt (d : Dev) : d.batchGone.flt = d.flt.batched := Dev.ledgerRequest_flt _ _

theorem FaultSt.batched_reads (m : FaultSt) : m.batched.logWait = m.logWait.drop 7 ∧ m.batched.logNext = (m.logNext + 1) % 8192 := ⟨rfl, rfl⟩

theorem Dev.keeps_batchGone {d : Dev} (h : d.ledgerQueue.length < 64) : d.Keeps [F.LEDGER_STATUS_QUEUED] d.batchGone :=
  Dev.Keeps.trans (e := d.withFaults d.flt.batched) (Dev.keeps_of_fields rfl) (Dev.keeps_ledgerRequest_of_room (d := d.withFaults d.flt.batched) h _)

theorem Dev.batch_queued {d : Dev} (h : d.ledgerQueue.length < 64) : d.flt.batch ∈ d.batchGone.ledgerQueue :=
  Dev.mem_ledgerRequest (d.withFaults d.flt.batched) _ h

theorem FaultSt.batch_payload (m : FaultSt) : m.batch.payload = (m.logWait.take 7).flatMap fun r => bytesOfNat 32 r.bits := rfl

/-- A batch gone to the ledger. -/
theorem eventLogBatch_goes (hwait : s.dev.flt.logWait ≠ []) (hheld : s.dev.ledgerHeld = false) (hroom : s.dev.ledgerQueue.length < 64)
    (hnext : s.dev.flt.logNext < 8192) : ∃ t, exec .eventLogBatch s = .next t ∧ s.frame t [F.LEDGER_STATUS_QUEUED] ∧
      t.dev.flt.logWait = s.dev.flt.logWait.drop 7 ∧ t.dev.flt.logNext = (s.dev.flt.logNext + 1) % 8192 ∧
      ∃ q ∈ t.dev.ledgerQueue, q.record = recordNo 0x30 s.dev.flt.logNext ∧
        q.payload = (s.dev.flt.logWait.take 7).flatMap fun r => bytesOfNat 32 r.bits := by
  obtain ⟨hdrop, hlog⟩ := s.dev.flt.batched_reads
  rw [← Dev.batchGone_flt] at hdrop hlog
  exact ⟨s.withDev Dev.batchGone, exec_eventLogBatch_of_free hwait hheld, State.frame_of_keeps (Dev.keeps_batchGone hroom), hdrop, hlog, _,
    Dev.batch_queued hroom, FaultSt.batch_record hnext, FaultSt.batch_payload _⟩

end BatchReads

/-- Settles O54: an event by whether its source is recorded and by its count; the clears and the batch by their equations. -/
theorem faultsAreRecorded : Obligations.FaultsAreRecorded := by
  unfold Obligations.FaultsAreRecorded
  intro s type source detail lost _ f waits isOpen reaction c shown
  refine ⟨fun x hx hheld => ?_, fun x hx hfree => ?_, fun hx hheld => ?_, fun hx hfree => ?_, fun seq => ?_, exec_faultOverflowClear_of_full, fun hroom => ?_,
    exec_eventLogBatch_of_held, eventLogBatch_goes⟩
  · exact (exec_faultEvent_of_waiting detail lost hx).trans (congrArg Host.Outcome.next (if_pos hheld))
  · exact (exec_faultEvent_of_waiting detail lost hx).trans (congrArg Host.Outcome.next (if_neg (ne_true_of_eq_false hfree)))
  · exact ⟨_, (exec_faultEvent_of_new detail lost hx).trans (congrArg Host.Outcome.next (if_pos hheld)), State.frame_of_keeps (Dev.keeps_of_fields rfl), rfl, rfl⟩
  · have hc : c = .next (s.faultEvent f lost) :=
      (exec_faultEvent_of_new detail lost hx).trans (congrArg Host.Outcome.next (if_neg (ne_true_of_eq_false hfree)))
    refine ⟨fun hopen => ?_, fun hopen hn hcount => ?_, fun hopen hn hmild hroom hlog => ?_, fun hopen hn hnone hfull => ?_⟩
    · exact ⟨_, hc.trans (congrArg Host.Outcome.next (State.faultEvent_of_recorded lost hopen)), State.frame_of_keeps (Dev.keeps_of_fields rfl), rfl⟩
    · refine ⟨_, hc.trans (congrArg Host.Outcome.next (State.faultEvent_of_first lost hopen hn hcount)), State.frame_of_keeps (Dev.keeps_of_fields rfl), rfl, ?_⟩
      exact List.mem_map.mpr ⟨_, List.mem_append_right _ (List.mem_singleton_self _), rfl⟩
    · obtain ⟨hrecords, hwait, hseq⟩ := s.dev.flt.opened_reads (s.dev.recordOf f.type f.source f.detail reaction) (s.dev.otherCounts f.type f.source)
      rw [← State.faultEvent_opens hroom hlog reaction] at hrecords hwait hseq
      exact ⟨_, s.dev.recordOf f.type f.source f.detail reaction, hc.trans (congrArg Host.Outcome.next (State.faultEvent_classified lost hopen hn rfl hmild)),
        rfl, hrecords, hwait, rfl, rfl, rfl, rfl, rfl, rfl, rfl, hseq⟩
    · obtain ⟨t, ht, hreads⟩ := State.faultEvent_overflows lost hopen hn hnone hfull
      exact ⟨t, hc.trans (congrArg Host.Outcome.next ht), hreads⟩
  · refine ⟨_, exec_faultClear seq, State.frame_of_keeps (Dev.keeps_faultClear s.dev _), Dev.faultClear_flt s.dev _, fun hlen => ?_⟩
    rw [State.withDev_dev, Dev.faultClear_flt] at hlen
    rw [State.withDev_dev, Dev.rd_faultClear_open, Dev.faultClear_flt, Nat.mod_eq_of_lt hlen]
  · refine ⟨_, exec_faultOverflowClear_of_room hroom, State.frame_of_keeps (Dev.Keeps.trans (e := s.dev.wr F.FAULT_STATUS_OVERFLOW 0) (Dev.keeps_wr (by simp) 0)
      ((Dev.keeps_showFaults _).mono (by simp [shown, faultFields]))), ?_, congrArg FaultSt.records (Dev.showFaults_kept Dev.flt (fun _ _ => rfl) _)⟩
    exact (Dev.keeps_showFaults _ _ (by decide)).trans (Dev.rd_wr_same s.dev _ 0)
end Sys2Proof.Machine
end

section
/-!
The safe state: its order, its entry, RESUME and its exit (R447, R449, R450, Tables 18.5, 18.6).
-/

namespace Sys2Proof.Machine

open Sys2Proof

/-! ## Entry -/

section Enter

/-- ACTIVE and the device's own bit set, the entry counted. -/
def Dev.safeNoted (d : Dev) : Dev := (d.bump F.SAFE_STATUS_ENTRIES).wrs [(F.SAFE_STATUS_ACTIVE, 1), (F.DEV_STATUS_SAFE, 1)]

theorem safeKeys_nodup : ([F.SAFE_STATUS_ACTIVE, F.DEV_STATUS_SAFE].map Field.key).Nodup := by decide

theorem Dev.rd_safeNoted (d : Dev) : d.safeNoted.rd F.SAFE_STATUS_ACTIVE = 1 ∧ d.safeNoted.rd F.DEV_STATUS_SAFE = 1 :=
  ⟨Dev.rd_wrs_of_mem _ (l := [(F.SAFE_STATUS_ACTIVE, 1), (F.DEV_STATUS_SAFE, 1)]) (v := 1) safeKeys_nodup (by simp),
    Dev.rd_wrs_of_mem _ (l := [(F.SAFE_STATUS_ACTIVE, 1), (F.DEV_STATUS_SAFE, 1)]) (v := 1) safeKeys_nodup (by simp)⟩

theorem Dev.keeps_alert (d : Dev) (f : Field) : d.Keeps [f] (d.alert f) := by
  rw [Dev.alert]
  split
  · exact Dev.Keeps.refl _ d
  · dsimp only
    split
    · exact Dev.Keeps.trans (e := d.wr f 1) (Dev.keeps_wr (by simp) 1) (Dev.keeps_of_fields rfl)
    · exact Dev.keeps_wr (by simp) 1

theorem Dev.flag_alert (d : Dev) {f : Field} (hf : 1 ≤ f.width) : (d.alert f).flag f = true := by
  have hset : (d.wr f 1).flag f = true := by
    rw [Dev.flag_eq, Dev.rd_wr_same, Nat.mod_eq_of_lt (Nat.one_lt_two_pow (by omega))]
    rfl
  rw [Dev.alert]
  split
  · assumption
  · dsimp only
    split
    · exact hset
    · exact hset

/-- Entry ends with its registers and its alert, whatever it stops before. -/
theorem State.safeEnter_of_out {s : State} (h : s.dev.flag F.SAFE_STATUS_ACTIVE = false) :
    ∃ e : State, s.safeEnter = e.withDev fun d => d.safeNoted.alert F.FOOT_I3C_ALERT_SAFE := ⟨_, if_neg (ne_true_of_eq_false h)⟩

theorem State.safeEnter_of_in {s : State} (h : s.dev.flag F.SAFE_STATUS_ACTIVE = true) : s.safeEnter = s := if_pos h

theorem State.safeEnter_shown {s : State} (h : s.dev.flag F.SAFE_STATUS_ACTIVE = false) : s.safeEnter.dev.rd F.SAFE_STATUS_ACTIVE = 1 ∧
    s.safeEnter.dev.rd F.DEV_STATUS_SAFE = 1 ∧ s.safeEnter.dev.flag F.FOOT_I3C_ALERT_SAFE = true := by
  obtain ⟨e, he⟩ := State.safeEnter_of_out h
  rw [he, State.withDev_dev]
  exact ⟨(Dev.keeps_alert _ _ _ (by decide)).trans (Dev.rd_safeNoted _).1, (Dev.keeps_alert _ _ _ (by decide)).trans (Dev.rd_safeNoted _).2,
    Dev.flag_alert _ (by decide)⟩

theorem State.safeEnter_active (s : State) : s.safeEnter.dev.flag F.SAFE_STATUS_ACTIVE = true := by
  cases h : s.dev.flag F.SAFE_STATUS_ACTIVE with
  | true => rw [State.safeEnter_of_in h, h]
  | false =>
    rw [Dev.flag_eq, (State.safeEnter_shown h).1]
    rfl

end Enter

/-! ## The order (R449) -/

section Order

/-- SAFE_ORDERED, the fault of an order. -/
def orderFault : RaisedFault := { type := FaultType.safeOrdered.code, source := Src.device }

variable {s : State}

theorem exec_safeEnter : exec .safeEnter s = .next (if s.recorded orderFault then s.faultEvent orderFault [] else s.classify orderFault []) := rfl

theorem substituted_of_fixed (t source channel : Nat) : substituted t source channel 3 = 3 := by
  rw [substituted]
  exact if_pos (Or.inl (by decide))

/-- A fault whose reaction is the safe state ends in it. -/
theorem State.classify_safe {f : RaisedFault} (lost : List Nat) (h : s.dev.rd (F.FAULT_TYPE_CFG_REACTION f.type) = 3) :
    ∃ e : State, s.classify f lost = e.safeEnter := by
  rw [State.classify, h]
  dsimp only
  rw [substituted_of_fixed]
  exact ⟨_, if_pos rfl⟩

theorem safeEnter_orders (hopen : s.recorded orderFault = false) (h : s.dev.rd (F.FAULT_TYPE_CFG_REACTION orderFault.type) = 3) :
    ∃ t, exec .safeEnter s = .next t ∧ t.dev.flag F.SAFE_STATUS_ACTIVE = true := by
  obtain ⟨e, he⟩ := State.classify_safe [] h
  refine ⟨_, exec_safeEnter.trans (congrArg Host.Outcome.next (if_neg (ne_true_of_eq_false hopen))), ?_⟩
  rw [he]
  exact State.safeEnter_active e

theorem safeEnter_again (hopen : s.recorded orderFault = true) : exec .safeEnter s = .next (s.withDev fun d => d.withRecords (d.flt.records.map fun r =>
    if r.source = orderFault.source ∧ r.type = orderFault.type then r.again d.time else r)) :=
  exec_safeEnter.trans (congrArg Host.Outcome.next ((if_pos hopen).trans (State.faultEvent_of_recorded [] hopen)))

end Order

/-! ## RESUME and the exit (R450) -/

section Resume

variable {s : State}

/-- The checks of RESUME. -/
def Dev.resumeCode (d : Dev) : Nat := firstCode (d.commonChecks .resume ++ [(d.holding, 0x0B)])

/-- RESUME answered with its code. -/
def Dev.resumeAnswered (d : Dev) : Dev :=
  (d.verdict .resume 0 d.resumeCode [F.SAFE_STATUS_REASON] F.SAFE_CTL_RESUME (decide (d.resumeCode = 0))).wr F.SAFE_CTL_RESUME 0

theorem exec_safeResume : exec .safeResume s =
    .next (if decide (s.dev.resumeCode = 0) then (s.withDev Dev.resumeAnswered).safeExit else s.withDev Dev.resumeAnswered) := rfl

theorem exec_safeResume_of_refused (h : s.dev.resumeCode ≠ 0) : exec .safeResume s = .next (s.withDev Dev.resumeAnswered) :=
  exec_safeResume.trans (congrArg Host.Outcome.next (if_neg (by simpa using h)))

theorem exec_safeResume_of_taken (h : s.dev.resumeCode = 0) : exec .safeResume s = .next (s.withDev Dev.resumeAnswered).safeExit :=
  exec_safeResume.trans (congrArg Host.Outcome.next (if_pos (by simpa using h)))

/-- The registers of RESUME's answer. -/
def resumeFields : List Field := [F.DEV_REASON_CODE, F.DEV_REASON_TRIGGER, F.DEV_REASON_DETAIL, F.SAFE_STATUS_REASON, F.SAFE_CTL_RESUME]

theorem Dev.keeps_resumeAnswered (d : Dev) : d.Keeps resumeFields d.resumeAnswered :=
  Dev.Keeps.trans ((Dev.keeps_verdict d .resume 0 d.resumeCode [F.SAFE_STATUS_REASON] F.SAFE_CTL_RESUME (decide (d.resumeCode = 0))).mono (by decide))
    (Dev.keeps_wr (by decide) 0)

theorem Dev.rd_resumeAnswered (d : Dev) : d.resumeAnswered.rd F.SAFE_STATUS_REASON = d.resumeCode % 256 ∧ d.resumeAnswered.rd F.SAFE_CTL_RESUME = 0 :=
  ⟨(Dev.rd_wr_ne _ (by decide) 0).trans (Dev.rd_verdict_own d .resume 0 d.resumeCode F.SAFE_CTL_RESUME _ (f := F.SAFE_STATUS_REASON) (by decide)),
    Dev.rd_wr_same _ _ 0⟩

/-- A holding cause refuses RESUME, unless a common check has refused it before. -/
theorem Dev.resumeCode_of_holding {d : Dev} (h : d.holding = true) : d.resumeCode ≠ 0 := by
  rw [Dev.resumeCode, Dev.commonChecks, h]
  cases d.inventoried
  · cases d.flag F.SAFE_STATUS_ACTIVE <;> decide
  · exact Nat.succ_ne_zero _

theorem State.safeExit_of_out (h : s.dev.flag F.SAFE_STATUS_ACTIVE = false) : s.safeExit = s := if_pos (ne_true_of_eq_false h)

/-- ACTIVE and the device's own bit gone. -/
def Dev.safeLeft (d : Dev) : Dev := d.wrs [(F.SAFE_STATUS_ACTIVE, 0), (F.DEV_STATUS_SAFE, 0)]

theorem Dev.keeps_safeLeft (d : Dev) : d.Keeps [F.SAFE_STATUS_ACTIVE, F.DEV_STATUS_SAFE] d.safeLeft := Dev.keeps_wrs (List.Subset.refl _)

theorem Dev.rd_safeLeft (d : Dev) : d.safeLeft.rd F.SAFE_STATUS_ACTIVE = 0 ∧ d.safeLeft.rd F.DEV_STATUS_SAFE = 0 :=
  ⟨Dev.rd_wrs_of_mem d (l := [(F.SAFE_STATUS_ACTIVE, 0), (F.DEV_STATUS_SAFE, 0)]) (v := 0) safeKeys_nodup (by simp),
    Dev.rd_wrs_of_mem d (l := [(F.SAFE_STATUS_ACTIVE, 0), (F.DEV_STATUS_SAFE, 0)]) (v := 0) safeKeys_nodup (by simp)⟩

theorem Dev.closing_safeLeft (d : Dev) : d.safeLeft.closing = d.closing := by
  rw [Dev.closing, Dev.closing, Dev.flag_eq, Dev.flag_eq, Dev.keeps_safeLeft d _ (by decide)]

theorem State.safeExit_of_in (h : s.dev.flag F.SAFE_STATUS_ACTIVE = true) : s.safeExit = if (s.withDev Dev.safeLeft).dev.closing then s.withDev Dev.safeLeft
    else (((s.withDev Dev.safeLeft).withDev Dev.allAwake).goOn.startHalted).powerPump := if_neg (not_not_intro h)

theorem State.safeExit_of_closing (h : s.dev.flag F.SAFE_STATUS_ACTIVE = true) (hclosing : s.dev.closing = true) : s.safeExit = s.withDev Dev.safeLeft :=
  (State.safeExit_of_in h).trans (if_pos ((Dev.closing_safeLeft s.dev).trans hclosing))

theorem State.safeExit_of_open (h : s.dev.flag F.SAFE_STATUS_ACTIVE = true) (hclosing : s.dev.closing = false) : s.safeExit =
    (((s.withDev Dev.safeLeft).withDev Dev.allAwake).goOn.startHalted).powerPump :=
  (State.safeExit_of_in h).trans (if_neg (ne_true_of_eq_false ((Dev.closing_safeLeft s.dev).trans hclosing)))

theorem safeResume_out (hcode : s.dev.resumeCode = 0) (h : s.dev.flag F.SAFE_STATUS_ACTIVE = false) :
    exec .safeResume s = .next (s.withDev Dev.resumeAnswered) := by
  rw [exec_safeResume_of_taken hcode, State.safeExit_of_out]
  rwa [State.withDev_dev, Dev.flag_eq, Dev.keeps_resumeAnswered s.dev _ (by decide), ← Dev.flag_eq]

end Resume

/-- Settles O55: the order through its fault's reaction, the entry by what it writes last, RESUME by its code. -/
theorem safeStateIsEnteredAndLeft : Obligations.SafeStateIsEnteredAndLeft := by
  unfold Obligations.SafeStateIsEnteredAndLeft
  intro s f isOpen code fields
  have hframe : s.frame (s.withDev Dev.resumeAnswered) fields := State.frame_of_keeps (Dev.keeps_resumeAnswered s.dev)
  obtain ⟨hreason, hresume⟩ := Dev.rd_resumeAnswered s.dev
  have hpass : code = 0 → s.dev.resumeAnswered.rd F.SAFE_STATUS_REASON = 0 := fun hcode => hreason.trans (congrArg (· % 256) hcode)
  refine ⟨s.safeEnter_active, State.safeEnter_of_in, fun h => (State.safeEnter_shown h).2, safeEnter_orders,
    fun h => ⟨_, safeEnter_again h, State.frame_of_keeps (Dev.keeps_of_fields rfl), rfl⟩,
    fun hcode => ⟨_, exec_safeResume_of_refused hcode, hframe, hreason, hresume⟩, Dev.resumeCode_of_holding,
    fun hcode h => ⟨_, safeResume_out hcode h, hframe, hpass hcode, hresume⟩,
    fun hcode _ => ⟨_, exec_safeResume_of_taken hcode, hframe, hpass hcode⟩, fun h hclosing => ?_, State.safeExit_of_open⟩
  rw [State.safeExit_of_closing h hclosing]
  exact ⟨State.frame_of_keeps (Dev.keeps_safeLeft s.dev), Dev.rd_safeLeft s.dev⟩

end Sys2Proof.Machine
end

section
/-!
Spot checks and the closing inventory (R452 to R459, Tables 18.9, 18.10, 18.14).
-/

namespace Sys2Proof.Machine

open Sys2Proof

/-! ## The start of a slice (R454) -/

section Start

variable (s : State) (i : Nat)

/-- The block once the domain of a START is written. -/
def State.sliceNamed : State := s.withDev fun d => d.wr F.TEST_SLICE_DOMAIN i

/-- The code of a START. -/
def State.startCode : Nat := firstCode ((s.sliceNamed i).dev.commonChecks .slice ++ (s.sliceNamed i).sliceChecks i)

/-- A START answered with its code. -/
def Dev.sliceAnswered (d : Dev) (code : Nat) : Dev := d.verdict .slice i code [F.TEST_REASON_CODE] F.TEST_SLICE_START (decide (code = 0))

/-- The block once a START is answered. -/
def State.sliceJudged : State := (s.sliceNamed i).withDev fun d => d.sliceAnswered i (s.startCode i)

theorem exec_sliceStart (domain : BitVec 8) : exec (.sliceStart domain) s =
    .next (if decide (s.startCode domain.toNat = 0) then (s.sliceJudged domain.toNat).sliceBegin domain.toNat
      else (s.sliceJudged domain.toNat).withDev fun d => d.wr F.TEST_SLICE_START ((s.sliceNamed domain.toNat).dev.rd F.TEST_SLICE_START)) := rfl

/-- The registers of a START. -/
def sliceAskFields : List Field := F.TEST_SLICE_DOMAIN :: F.TEST_SLICE_START :: F.TEST_REASON_CODE :: reasonFields

theorem State.frame_sliceJudged : s.frame (s.sliceJudged i) sliceAskFields :=
  State.frame_trans (t := s.sliceNamed i) (State.frame_of_keeps (Dev.keeps_wr (by decide) i))
    (State.frame_of_keeps ((Dev.keeps_verdict _ .slice i (s.startCode i) [F.TEST_REASON_CODE] F.TEST_SLICE_START _).mono (by decide)))

theorem State.rd_sliceJudged_reason : (s.sliceJudged i).dev.rd F.TEST_REASON_CODE = s.startCode i % 256 :=
  Dev.rd_verdict_own (s.sliceNamed i).dev .slice i (s.startCode i) F.TEST_SLICE_START _ (f := F.TEST_REASON_CODE) (by decide)

variable {s}

theorem sliceStart_refused {domain : BitVec 8} (hcode : s.startCode domain.toNat ≠ 0) (hlt : s.startCode domain.toNat < 256)
    (hstart : s.dev.rd F.TEST_SLICE_START < 2) : ∃ t, exec (.sliceStart domain) s = .next t ∧ s.frame t sliceAskFields ∧
      t.dev.rd F.TEST_REASON_CODE = s.startCode domain.toNat ∧ t.dev.rd F.TEST_SLICE_START = s.dev.rd F.TEST_SLICE_START := by
  have hwas : (s.sliceNamed domain.toNat).dev.rd F.TEST_SLICE_START = s.dev.rd F.TEST_SLICE_START := Dev.rd_wr_ne _ (by decide) _
  refine ⟨_, (exec_sliceStart s domain).trans (congrArg Host.Outcome.next (if_neg (by simpa using hcode))),
    State.frame_trans (s.frame_sliceJudged _) (State.frame_of_keeps (Dev.keeps_wr (by decide) _)), ?_, ?_⟩
  · exact (Dev.rd_wr_ne _ (by decide) _).trans ((s.rd_sliceJudged_reason _).trans (Nat.mod_eq_of_lt hlt))
  · exact (Dev.rd_wr_same _ _ _).trans (by rw [hwas]; exact Nat.mod_eq_of_lt hstart)

/-- The domains whose slice begins with nothing but the isolation: a port, a wing, a concourse slice, a sealing slice. -/
def plainSlice : Prop := i < 64 ∨ 144 ≤ i ∧ i < 156 ∨ 164 ≤ i ∧ i < 172

/-- What a slice's begin writes. -/
def sliceWrites : List (Field × Nat) :=
  [(F.TEST_SLICE_STATUS_STATE, 1), (F.TEST_SLICE_STATUS_DOMAIN, i), (F.TEST_SLICE_STATUS_PATTERNS_DONE, 0), (F.TEST_SLICE_START, 1)]

theorem sliceKeys_nodup : ([F.TEST_SLICE_STATUS_STATE, F.TEST_SLICE_STATUS_DOMAIN, F.TEST_SLICE_STATUS_PATTERNS_DONE, F.TEST_SLICE_START].map Field.key).Nodup := by
  decide

/-- A slice begun, its domain isolated. -/
def Dev.sliceBegun (d : Dev) : Dev := (d.wrs (sliceWrites i)).wr (F.POWER_DOMAIN_ALIVE i) 0

variable {i}

/-- The registers of the tests lie behind those of the power domains. -/
theorem testKey_ne {f : Field} (hf : F.TEST_SLICE_DOMAIN.key ≤ f.key) (hi : i < 256) : f.key ≠ (F.POWER_DOMAIN_ALIVE i).key ∧
    f.key ≠ (F.POWER_DOMAIN_STATE i).key := by
  simp only [Field.key, F.TEST_SLICE_DOMAIN, F.POWER_DOMAIN_ALIVE, F.POWER_DOMAIN_STATE] at hf ⊢
  omega

theorem State.wakeStart_of_powered (h : s.dev.rd (F.POWER_DOMAIN_STATE i) ≠ 3) : s.wakeStart i = s := if_neg h

theorem State.sliceBegin_of_plain (hi : plainSlice i) (hpll : s.dev.rd (F.POWER_DOMAIN_STATE 177) ≠ 3) : s.sliceBegin i = s.withDev fun d => d.sliceBegun i := by
  have hwake : (s.withDev fun d => d.wrs (sliceWrites i)).wakeStart (Dom.pll 3) = s.withDev fun d => d.wrs (sliceWrites i) := by
    refine State.wakeStart_of_powered ?_
    rw [State.withDev_dev, Dev.rd_wrs_of_not_mem (g := F.POWER_DOMAIN_STATE (Dom.pll 3)) s.dev (l := sliceWrites i)]
    · exact hpll
    · exact show _ ∉ [F.TEST_SLICE_STATUS_STATE, F.TEST_SLICE_STATUS_DOMAIN, F.TEST_SLICE_STATUS_PATTERNS_DONE, F.TEST_SLICE_START].map Field.key by decide
  rw [plainSlice] at hi
  rw [State.sliceBegin, ← sliceWrites, hwake, if_neg (by omega), if_neg (by omega), if_neg (by omega)]
  simp only [if_neg (show ¬ (i = 172 ∨ i = 173) by omega)]
  rfl

theorem Dev.keeps_sliceBegun (d : Dev) : d.Keeps [F.TEST_SLICE_STATUS_STATE, F.TEST_SLICE_STATUS_DOMAIN, F.TEST_SLICE_STATUS_PATTERNS_DONE,
    F.TEST_SLICE_START, F.POWER_DOMAIN_ALIVE i] (d.sliceBegun i) :=
  Dev.Keeps.trans (e := d.wrs (sliceWrites i)) (Dev.keeps_wrs (by simp [sliceWrites])) (Dev.keeps_wr (by simp) 0)

theorem Dev.rd_sliceBegun (d : Dev) (hi : i < 256) : (d.sliceBegun i).rd F.TEST_SLICE_STATUS_STATE = 1 ∧
    (d.sliceBegun i).rd F.TEST_SLICE_STATUS_DOMAIN = i ∧ (d.sliceBegun i).rd (F.POWER_DOMAIN_ALIVE i) = 0 := by
  have hwrite : ∀ {f : Field} {v : Nat}, (f, v) ∈ sliceWrites i → F.TEST_SLICE_DOMAIN.key ≤ f.key → (d.sliceBegun i).rd f = v % 2 ^ f.width := fun hf hkey =>
    (Dev.rd_wr_ne _ (testKey_ne hkey hi).1 0).trans (Dev.rd_wrs_of_mem d (l := sliceWrites i) sliceKeys_nodup hf)
  exact ⟨hwrite (v := 1) (by simp [sliceWrites]) (by decide), (hwrite (v := i) (by simp [sliceWrites]) (by decide)).trans (Nat.mod_eq_of_lt hi),
    Dev.rd_wr_same _ _ 0⟩

theorem sliceStart_begins {domain : BitVec 8} (hcode : s.startCode domain.toNat = 0) (hplain : plainSlice domain.toNat)
    (hpll : s.dev.rd (F.POWER_DOMAIN_STATE 177) ≠ 3) : ∃ t, exec (.sliceStart domain) s = .next t ∧
      s.frame t (F.TEST_SLICE_DOMAIN :: F.TEST_SLICE_START :: F.TEST_REASON_CODE :: F.TEST_SLICE_STATUS_DOMAIN :: F.POWER_DOMAIN_ALIVE domain.toNat ::
        ([F.TEST_SLICE_STATUS_STATE, F.TEST_SLICE_STATUS_PATTERNS_DONE] ++ reasonFields)) ∧
      t.dev.rd F.TEST_SLICE_STATUS_STATE = 1 ∧ t.dev.rd F.TEST_SLICE_STATUS_DOMAIN = domain.toNat ∧
      t.dev.rd (F.POWER_DOMAIN_ALIVE domain.toNat) = 0 ∧ t.dev.rd F.TEST_REASON_CODE = 0 := by
  have hi : domain.toNat < 256 := domain.isLt
  have hframe := s.frame_sliceJudged domain.toNat
  have hpll' : (s.sliceJudged domain.toNat).dev.rd (F.POWER_DOMAIN_STATE 177) ≠ 3 := by
    obtain ⟨-, -, -, -, -, hfields⟩ := hframe
    rwa [hfields _ (by decide)]
  obtain ⟨hstate, hdomain, halive⟩ := Dev.rd_sliceBegun (s.sliceJudged domain.toNat).dev hi
  refine ⟨(s.sliceJudged domain.toNat).withDev fun d => d.sliceBegun domain.toNat, ?_, ?_, hstate, hdomain, halive, ?_⟩
  · rw [exec_sliceStart, if_pos (by simpa using hcode), State.sliceBegin_of_plain hplain hpll']
  · refine State.frame_trans (State.frame_mono hframe (by simp [sliceAskFields, reasonFields])) (State.frame_of_keeps ?_)
    exact (Dev.keeps_sliceBegun _).mono (by simp)
  · refine (Dev.keeps_sliceBegun _ _ ?_).trans ((s.rd_sliceJudged_reason _).trans (congrArg (· % 256) hcode))
    have halive := (testKey_ne (f := F.TEST_REASON_CODE) (by decide) hi).1
    simpa [Field.key, F.TEST_SLICE_STATUS_STATE, F.TEST_SLICE_STATUS_DOMAIN, F.TEST_SLICE_STATUS_PATTERNS_DONE, F.TEST_SLICE_START, F.TEST_REASON_CODE] using halive

end Start

/-! ## The schedule (R454) -/

section Schedule

variable {s : State}

/-- The domains in the order in which the schedule tries them. -/
def State.sliceTurns (s : State) : List Nat := (List.range 248).map (fun k => (s.dev.test.next + k) % 248)

/-- The schedule moved past a domain. -/
def Dev.slicesNext (d : Dev) (i : Nat) : Dev := { d with test.next := (i + 1) % 248 }

theorem exec_sliceSchedule : exec .sliceSchedule s = .next (if ¬ s.dev.flag F.TEST_SCHED_EN ∨ s.dev.inventoried then s
    else match s.sliceTurns.find? (fun i => firstCode (s.sliceChecks i) = 0) with
      | none => s
      | some i => (s.withDev fun d => d.slicesNext i).sliceBegin i) := rfl

theorem exec_sliceSchedule_of_off (h : s.dev.rd F.TEST_SCHED_EN = 0 ∨ s.dev.inventoried = true) : exec .sliceSchedule s = .next s :=
  exec_sliceSchedule.trans (congrArg Host.Outcome.next (if_pos (h.imp_left fun h => by simp [Dev.flag_eq, h])))

/-- The slice that the schedule has found begun. -/
def State.scheduled (s : State) (r : Option Nat) : State :=
  match r with
  | none => s
  | some i => (s.withDev fun d => d.slicesNext i).sliceBegin i

theorem exec_sliceSchedule_of_on (hen : s.dev.rd F.TEST_SCHED_EN ≠ 0) (hinv : s.dev.inventoried = false) {r : Option Nat}
    (hfind : s.sliceTurns.find? (fun i => firstCode (s.sliceChecks i) = 0) = r) : exec .sliceSchedule s = .next (s.scheduled r) := by
  have hrun : ¬ (¬ s.dev.flag F.TEST_SCHED_EN = true ∨ s.dev.inventoried = true) := by simp [Dev.flag_eq, hen, hinv]
  rw [exec_sliceSchedule, if_neg hrun, ← hfind]
  rfl

theorem sliceSchedule_none (hen : s.dev.rd F.TEST_SCHED_EN ≠ 0) (hinv : s.dev.inventoried = false)
    (hall : ∀ j < 248, firstCode (s.sliceChecks j) ≠ 0) : exec .sliceSchedule s = .next s := by
  refine exec_sliceSchedule_of_on hen hinv (r := none) (List.find?_eq_none.mpr fun i hi => ?_)
  obtain ⟨k, -, rfl⟩ := List.mem_map.mp hi
  simpa using hall _ (Nat.mod_lt _ (by decide))

theorem sliceSchedule_next (hen : s.dev.rd F.TEST_SCHED_EN ≠ 0) (hinv : s.dev.inventoried = false) (hnext : s.dev.test.next < 248)
    (hpass : firstCode (s.sliceChecks s.dev.test.next) = 0) :
    exec .sliceSchedule s = .next ((s.withDev fun d => d.slicesNext s.dev.test.next).sliceBegin s.dev.test.next) := by
  refine exec_sliceSchedule_of_on hen hinv (r := some s.dev.test.next) ?_
  have hturns : s.sliceTurns = s.dev.test.next :: (List.range 247).map (fun k => (s.dev.test.next + (k + 1)) % 248) := by
    rw [State.sliceTurns, List.range_succ_eq_map, List.map_cons, List.map_map, Nat.add_zero, Nat.mod_eq_of_lt hnext]
    rfl
  rw [hturns]
  exact List.find?_cons_of_pos (decide_eq_true hpass)

end Schedule

/-! ## A slice prepared, stopped, tested, restored (R452, R453, R455, R457) -/

section Slice

variable {s : State}

theorem exec_slicePrepared_of_other (h : s.dev.rd F.TEST_SLICE_STATUS_STATE ≠ 1) : exec .slicePrepared s = .next s := congrArg Host.Outcome.next (if_pos h)

theorem exec_slicePrepared_of_drained (h : s.dev.rd F.TEST_SLICE_STATUS_STATE = 1) (hdrained : s.drained (s.dev.rd F.TEST_SLICE_STATUS_DOMAIN) = true) :
    exec .slicePrepared s = .next (s.withDev fun d => d.wr F.TEST_SLICE_STATUS_STATE 3) := by
  refine Eq.trans (b := execSlicePrepared s) rfl ?_
  have hmove : ¬ (156 ≤ s.dev.rd F.TEST_SLICE_STATUS_DOMAIN ∧ s.dev.rd F.TEST_SLICE_STATUS_DOMAIN < 164 ∧
      ¬ s.drained (s.dev.rd F.TEST_SLICE_STATUS_DOMAIN) = true ∧ s.dev.groupFits (s.dev.rd F.TEST_SLICE_STATUS_DOMAIN - 156) = true) := fun hmove =>
    hmove.2.2.1 hdrained
  rw [execSlicePrepared]
  dsimp only
  rw [if_neg (not_not_intro h), if_neg hmove, if_pos hdrained]

/-- What a stop writes. -/
def stopWrites (done : Nat) : List (Field × Nat) := [(F.TEST_SLICE_STATUS_STATE, 5), (F.TEST_SLICE_STATUS_PATTERNS_DONE, done)]

/-- A slice stopped. -/
def Dev.sliceStopped (d : Dev) (result patterns : Nat) : Dev :=
  ({ d with test.result := result } : Dev).wrs (stopWrites (if d.rd F.TEST_SLICE_STATUS_STATE = 3 then patterns else 0))

theorem Dev.sliceStop_of_idle {d : Dev} (h : d.rd F.TEST_SLICE_STATUS_STATE = 0 ∨ 4 ≤ d.rd F.TEST_SLICE_STATUS_STATE) (result patterns : Nat) :
    d.sliceStop result patterns = d := if_pos h

theorem Dev.sliceStop_of_running {d : Dev} (h : d.rd F.TEST_SLICE_STATUS_STATE ≠ 0) (h' : d.rd F.TEST_SLICE_STATUS_STATE < 4) (result patterns : Nat) :
    d.sliceStop result patterns = d.sliceStopped result patterns := if_neg (by omega)

theorem stopKeys_nodup : ([F.TEST_SLICE_STATUS_STATE, F.TEST_SLICE_STATUS_PATTERNS_DONE].map Field.key).Nodup := by decide

/-- The registers of a slice stopped, and its result. -/
theorem Dev.sliceStopped_reads (d : Dev) (result : Nat) (patterns : BitVec 16) :
    d.Keeps [F.TEST_SLICE_STATUS_STATE, F.TEST_SLICE_STATUS_PATTERNS_DONE] (d.sliceStopped result patterns.toNat) ∧
    (d.sliceStopped result patterns.toNat).test.result = result ∧ (d.sliceStopped result patterns.toNat).rd F.TEST_SLICE_STATUS_STATE = 5 ∧
    (d.sliceStopped result patterns.toNat).rd F.TEST_SLICE_STATUS_PATTERNS_DONE = if d.rd F.TEST_SLICE_STATUS_STATE = 3 then patterns.toNat else 0 := by
  have hlt : (if d.rd F.TEST_SLICE_STATUS_STATE = 3 then patterns.toNat else 0) < 2 ^ 16 := by
    split
    · exact patterns.isLt
    · decide
  refine ⟨Dev.Keeps.trans (e := { d with test.result := result }) (Dev.keeps_of_fields rfl) (Dev.keeps_wrs (List.Subset.refl _)),
    congrArg TestSt.result (Dev.wrs_kept Dev.test (fun _ _ => rfl) _ _), ?_, ?_⟩
  · exact Dev.rd_wrs_of_mem _ (l := stopWrites (if d.rd F.TEST_SLICE_STATUS_STATE = 3 then patterns.toNat else 0)) (v := 5) stopKeys_nodup
      List.mem_cons_self
  · exact (Dev.rd_wrs_of_mem _ (l := stopWrites (if d.rd F.TEST_SLICE_STATUS_STATE = 3 then patterns.toNat else 0)) stopKeys_nodup
      (List.mem_cons_of_mem _ List.mem_cons_self)).trans (Nat.mod_eq_of_lt hlt)

/-- A domain whose slice a held request stops (R457). -/
def urgentSlice (i : Nat) : Prop := 144 ≤ i ∧ i < 148 ∨ 164 ≤ i ∧ i < 172

theorem exec_sliceStop (patterns : BitVec 16) : exec (.sliceStop patterns) s = s.next fun d => d.sliceStop 3 patterns.toNat := rfl

theorem exec_sliceHp3Timeout (patterns : BitVec 16) : exec (.sliceHp3Timeout patterns) s = s.next fun d => d.sliceStop 3 patterns.toNat := rfl

theorem exec_sliceUrgentStop_of_other {patterns : BitVec 16} (h : ¬ urgentSlice (s.dev.rd F.TEST_SLICE_STATUS_DOMAIN)) :
    exec (.sliceUrgentStop patterns) s = .next s := by
  refine Eq.trans (b := execSliceUrgentStop patterns s) rfl ?_
  rw [execSliceUrgentStop]
  exact State.next_of_same (if_neg h)

theorem exec_sliceUrgentStop_of_urgent {patterns : BitVec 16} (h : urgentSlice (s.dev.rd F.TEST_SLICE_STATUS_DOMAIN)) :
    exec (.sliceUrgentStop patterns) s = .next (s.withDev fun d => d.sliceStop 2 patterns.toNat) := by
  refine Eq.trans (b := execSliceUrgentStop patterns s) rfl ?_
  rw [execSliceUrgentStop]
  exact State.next_congr (if_pos h)

/-- A running slice stopped by a command. -/
theorem slice_stops {c : Instr} {result : Nat} {patterns : BitVec 16} (hc : exec c s = .next (s.withDev fun d => d.sliceStop result patterns.toNat))
    (h : s.dev.rd F.TEST_SLICE_STATUS_STATE ≠ 0) (h' : s.dev.rd F.TEST_SLICE_STATUS_STATE < 4) : ∃ t, exec c s = .next t ∧
      s.frame t [F.TEST_SLICE_STATUS_STATE, F.TEST_SLICE_STATUS_PATTERNS_DONE] ∧ t.dev.test.result = result ∧ t.dev.rd F.TEST_SLICE_STATUS_STATE = 5 ∧
      t.dev.rd F.TEST_SLICE_STATUS_PATTERNS_DONE = if s.dev.rd F.TEST_SLICE_STATUS_STATE = 3 then patterns.toNat else 0 := by
  obtain ⟨hkeeps, hreads⟩ := Dev.sliceStopped_reads s.dev result patterns
  rw [← Dev.sliceStop_of_running h h'] at hkeeps hreads
  exact ⟨_, hc, State.frame_of_keeps hkeeps, hreads⟩

/-- What a test's end writes. -/
def testWrites (domain : Nat) (o : SliceOutcome) (mem : Bool) : List (Field × Nat) :=
  [(F.TEST_SLICE_STATUS_STATE, 5), (F.TEST_SLICE_STATUS_PATTERNS_DONE, slicePatterns domain), (F.TEST_RESULT_ARRAY, if mem then o.array.toNat else 0),
    (F.TEST_RESULT_LOGIC_FAIL, o.logicFail.toNat), (F.TEST_RESULT_MEM_FAIL, mem.toNat), (F.TEST_RESULT_FAILURES, min o.failures 4194303),
    (F.TEST_FAIL_ADDR_ADDR, if mem then o.addr.toNat else 0), (F.TEST_FAIL_BITS_BITS 0, if mem then o.bits.toNat else 0),
    (F.TEST_FAIL_BITS_BITS 1, if mem then o.bits.toNat / 2 ^ 32 else 0)]

/-- The registers of a test's end. -/
def testFields : List Field := [F.TEST_SLICE_STATUS_STATE, F.TEST_SLICE_STATUS_PATTERNS_DONE, F.TEST_RESULT_ARRAY, F.TEST_RESULT_LOGIC_FAIL,
  F.TEST_RESULT_MEM_FAIL, F.TEST_RESULT_FAILURES, F.TEST_FAIL_ADDR_ADDR, F.TEST_FAIL_BITS_BITS 0, F.TEST_FAIL_BITS_BITS 1]

theorem testKeys_nodup : (testFields.map Field.key).Nodup := by decide

/-- A slice tested. -/
def Dev.sliceTested (d : Dev) (o : SliceOutcome) (mem : Bool) : Dev :=
  ({ d with test.result := (o.logicFail || mem).toNat } : Dev).wrs (testWrites (d.rd F.TEST_SLICE_STATUS_DOMAIN) o mem)

theorem exec_sliceTestDone (o : SliceOutcome) : exec (.sliceTestDone o) s = s.next fun d =>
    if d.rd F.TEST_SLICE_STATUS_STATE ≠ 3 then d else d.sliceTested o (decide (o.failures ≠ 0)) := rfl

theorem Dev.keeps_sliceTested (d : Dev) (o : SliceOutcome) (mem : Bool) : d.Keeps testFields (d.sliceTested o mem) :=
  Dev.Keeps.trans (e := { d with test.result := (o.logicFail || mem).toNat }) (Dev.keeps_of_fields rfl) (Dev.keeps_wrs (List.Subset.refl _))

theorem Dev.sliceTested_result (d : Dev) (o : SliceOutcome) (mem : Bool) : (d.sliceTested o mem).test.result = (o.logicFail || mem).toNat :=
  congrArg TestSt.result (Dev.wrs_kept Dev.test (fun _ _ => rfl) _ _)

theorem Dev.rd_sliceTested (d : Dev) (o : SliceOutcome) (mem : Bool) {f : Field} {v : Nat} (hf : (f, v) ∈ testWrites (d.rd F.TEST_SLICE_STATUS_DOMAIN) o mem) :
    (d.sliceTested o mem).rd f = v % 2 ^ f.width := Dev.rd_wrs_of_mem _ testKeys_nodup hf

theorem sliceTestDone_compares {o : SliceOutcome} (h : s.dev.rd F.TEST_SLICE_STATUS_STATE = 3) : ∃ t, exec (.sliceTestDone o) s = .next t ∧ s.frame t testFields ∧
    t.dev.rd F.TEST_SLICE_STATUS_STATE = 5 ∧ t.dev.test.result = (if o.logicFail = true ∨ o.failures ≠ 0 then 1 else 0) ∧
    t.dev.rd F.TEST_RESULT_LOGIC_FAIL = o.logicFail.toNat ∧ t.dev.rd F.TEST_RESULT_MEM_FAIL = (if o.failures = 0 then 0 else 1) ∧
    t.dev.rd F.TEST_RESULT_FAILURES = min o.failures 4194303 := by
  refine ⟨s.withDev fun d => d.sliceTested o (decide (o.failures ≠ 0)), (exec_sliceTestDone o).trans (State.next_congr (if_neg (not_not_intro h))), State.frame_of_keeps (Dev.keeps_sliceTested s.dev o _),
    Dev.rd_sliceTested s.dev o (decide (o.failures ≠ 0)) (f := F.TEST_SLICE_STATUS_STATE) (v := 5) (by simp [testWrites]), ?_, ?_, ?_, ?_⟩
  · rw [State.withDev_dev, Dev.sliceTested_result]
    cases o.logicFail <;> by_cases hmem : o.failures = 0 <;> simp [hmem]
  · exact (Dev.rd_sliceTested s.dev o _ (v := o.logicFail.toNat) (by simp [testWrites])).trans (toNat_mod_two _)
  · refine (Dev.rd_sliceTested s.dev o _ (v := (decide (o.failures ≠ 0)).toNat) (by simp [testWrites])).trans ((toNat_mod_two _).trans ?_)
    by_cases hmem : o.failures = 0 <;> simp [hmem]
  · refine (Dev.rd_sliceTested s.dev o _ (v := min o.failures 4194303) (by simp [testWrites])).trans (Nat.mod_eq_of_lt ?_)
    change min o.failures 4194303 < 4194304
    omega

/-! ### A restored slice -/

/-- What a restored slice's end writes. -/
def restoreWrites (i result : Nat) : List (Field × Nat) :=
  [(F.TEST_SLICE_STATUS_STATE, 0), (F.TEST_SLICE_STATUS_RESULT, result), (F.TEST_SLICE_START, 0), (F.POWER_DOMAIN_ALIVE i, 1)]

/-- The faults of a slice's result. -/
def Dev.resultRaised (d : Dev) (i result : Nat) : Dev :=
  (d.raiseIf (result = 1) .selfTestFail (Src.domain i) [(d.rd F.TEST_RESULT_ARRAY, 8)]).raiseIf (result = 2) .sliceIncomplete (Src.domain i)

/-- A registrar that passed is the standby again. -/
def Dev.registrarBack (d : Dev) (i result : Nat) : Dev := if (i = 172 ∨ i = 173) ∧ result ≠ 1 then d.wr F.DEV_REG_STANDBY_READY 1 else d

/-- A bay that passed takes its shaft back. -/
def State.bayBack (s : State) (i result : Nat) : State :=
  if 64 ≤ i ∧ i < 128 then
    if s.dev.rescue.contains (i - 64) then s.rescueEnd (i - 64) (result ≠ 1)
    else if result ≠ 1 ∧ s.dev.rd (F.TWIN_STATUS_MODE (i - 64)) = 1 then s.handback (i - 64) else s
  else s

theorem exec_sliceRestored_of_other {pass : Bool} (h : s.dev.rd F.TEST_SLICE_STATUS_STATE ≠ 5) : exec (.sliceRestored pass) s = .next s :=
  congrArg Host.Outcome.next (if_pos h)

/-- The result of a restored slice. -/
def Dev.sliceResult (d : Dev) (pass : Bool) : Nat := if pass then d.test.result else 1

theorem exec_sliceRestored {pass : Bool} (h : s.dev.rd F.TEST_SLICE_STATUS_STATE = 5) {i : Nat} (hi : s.dev.rd F.TEST_SLICE_STATUS_DOMAIN = i) :
    ∃ lets : Hold → Bool, exec (.sliceRestored pass) s = .next (((s.withDev fun d => ((d.wrs (restoreWrites i (s.dev.sliceResult pass))).registrarBack i
      (s.dev.sliceResult pass)).resultRaised i (s.dev.sliceResult pass)).bayBack i (s.dev.sliceResult pass)).releaseAll lets) := by
  subst hi
  exact ⟨_, congrArg Host.Outcome.next (if_neg (not_not_intro h))⟩

theorem Dev.registrarBack_of_other {i : Nat} (d : Dev) (hi : i < 172) (result : Nat) : d.registrarBack i result = d := if_neg (by omega)

theorem State.bayBack_of_other {i : Nat} (s : State) (hi : 128 ≤ i) (result : Nat) : s.bayBack i result = s := if_neg (by omega)

theorem Dev.resultRaised_fields (d : Dev) (i result : Nat) : (d.resultRaised i result).fields = d.fields :=
  (Dev.raiseIf_fields ..).trans (Dev.raiseIf_fields ..)

theorem Dev.resultRaised_kept {β : Type} (g : Dev → β) (hg : ∀ (e : Dev) m q, g { e with fields := m, raised := q } = g e) (d : Dev) (i result : Nat) :
    g (d.resultRaised i result) = g d := by
  have hraise : ∀ (e : Dev) (b : Bool) (t : FaultType) (source : Nat) (detail : List (Nat × Nat)), g (e.raiseIf b t source detail) = g e := by
    intro e b t source detail
    cases b
    · rfl
    · exact hg e e.fields _
  exact (hraise _ _ _ _ _).trans (hraise _ _ _ _ _)

/-- A wing's or a concourse slice's domain restored. -/
theorem sliceRestored_ends {pass : Bool} {i : Nat} (h : s.dev.rd F.TEST_SLICE_STATUS_STATE = 5) (hi : s.dev.rd F.TEST_SLICE_STATUS_DOMAIN = i) (hlo : 144 ≤ i)
    (hhi : i < 156) (hheld : s.dev.held = []) (hfences : s.dev.fences = []) (hresult : s.dev.test.result < 4) :
    ∃ t, exec (.sliceRestored pass) s = .next t ∧
      s.frame t [F.TEST_SLICE_STATUS_STATE, F.TEST_SLICE_STATUS_RESULT, F.TEST_SLICE_START, F.POWER_DOMAIN_ALIVE i] ∧
      t.dev.rd F.TEST_SLICE_STATUS_STATE = 0 ∧ t.dev.rd F.TEST_SLICE_STATUS_RESULT = (if pass then s.dev.test.result else 1) ∧
      t.dev.rd (F.POWER_DOMAIN_ALIVE i) = 1 := by
  obtain ⟨lets, hexec⟩ := exec_sliceRestored (pass := pass) h hi
  have hkept : ∀ {β : Type} (g : Dev → β), (∀ (e : Dev) m q, g { e with fields := m, raised := q } = g e) →
      g ((s.dev.wrs (restoreWrites i (s.dev.sliceResult pass))).resultRaised i (s.dev.sliceResult pass)) = g s.dev := fun g hg =>
    (Dev.resultRaised_kept g hg _ i _).trans (Dev.wrs_kept g (fun e m => hg e m e.raised) _ _)
  have hnodup : (((restoreWrites i (s.dev.sliceResult pass)).map Prod.fst).map Field.key).Nodup := by
    obtain ⟨hstate, -⟩ := testKey_ne (f := F.TEST_SLICE_STATUS_STATE) (by decide) (show i < 256 by omega)
    obtain ⟨hresult, -⟩ := testKey_ne (f := F.TEST_SLICE_STATUS_RESULT) (by decide) (show i < 256 by omega)
    obtain ⟨hstart, -⟩ := testKey_ne (f := F.TEST_SLICE_START) (by decide) (show i < 256 by omega)
    have hfixed : ([F.TEST_SLICE_STATUS_STATE, F.TEST_SLICE_STATUS_RESULT, F.TEST_SLICE_START].map Field.key).Nodup := by decide
    refine (List.nodup_append (l₁ := [F.TEST_SLICE_STATUS_STATE, F.TEST_SLICE_STATUS_RESULT, F.TEST_SLICE_START].map Field.key)).mpr ⟨hfixed, List.pairwise_singleton _ _, fun a ha b hb => ?_⟩
    obtain rfl := List.mem_singleton.mp hb
    simp only [List.map_cons, List.map_nil, List.mem_cons, List.not_mem_nil, or_false] at ha
    rcases ha with rfl | rfl | rfl
    · exact hstate
    · exact hresult
    · exact hstart
  have hwrite := fun {f : Field} {v : Nat} (hf : (f, v) ∈ restoreWrites i (s.dev.sliceResult pass)) =>
    (Dev.rd_congr (Dev.resultRaised_fields _ i (s.dev.sliceResult pass)) f).trans (Dev.rd_wrs_of_mem s.dev hnodup hf)
  refine ⟨s.withDev fun d => (d.wrs (restoreWrites i (s.dev.sliceResult pass))).resultRaised i (s.dev.sliceResult pass), ?_,
    State.frame_of_keeps (Dev.Keeps.trans (e := s.dev.wrs _) (Dev.keeps_wrs (List.Subset.refl _)) (Dev.keeps_of_fields (Dev.resultRaised_fields ..))),
    hwrite (v := 0) (by simp [restoreWrites]), (hwrite (v := s.dev.sliceResult pass) (by simp [restoreWrites])).trans (Nat.mod_eq_of_lt ?_),
    hwrite (v := 1) (by simp [restoreWrites])⟩
  · rw [hexec, State.bayBack_of_other _ (by omega), State.releaseAll_of_empty]
    · exact congrArg Host.Outcome.next (State.withDev_congr (congrArg (fun e => Dev.resultRaised e i _) (Dev.registrarBack_of_other _ (by omega) _)))
    · rw [State.withDev_dev, Dev.registrarBack_of_other _ (by omega), hkept Dev.held fun _ _ _ => rfl]
      exact hheld
    · rw [State.withDev_dev, Dev.registrarBack_of_other _ (by omega), hkept Dev.fences fun _ _ _ => rfl]
      exact hfences
  · rw [Dev.sliceResult]
    split
    · exact hresult
    · decide

end Slice

end Sys2Proof.Machine
end

section
/-!
The closing inventory (R458, R459, Table 18.10), and the statement about tests.
-/

namespace Sys2Proof.Machine

open Sys2Proof

/-! ## START (R458) -/

section Start

variable {s : State}

/-- The checks of the inventory's START. -/
def Dev.inventoryCode (d : Dev) : Nat := firstCode (d.commonChecks .inventory ++
  [(d.flag F.SAFE_STATUS_ACTIVE, 0xE8), (d.slicing || d.taking, 0xE1), (d.patronsOn, 0xE6)])

/-- The inventory's START answered with its code. -/
def Dev.inventoryAnswered (d : Dev) : Dev :=
  d.verdict .inventory 0 d.inventoryCode [F.INVENTORY_STATUS_REASON] F.INVENTORY_CTL_START (decide (d.inventoryCode = 0))

/-- Whether a port's link that phase 1 would test is not DISABLED; the keeper port's is excepted. -/
def State.inventorySkips (s : State) (d : Dev) : Bool := (List.range 64).any (fun p => !(s.layout.keeperValid && p = s.layout.keeperPort) &&
  (List.range 4).any (fun k => d.lst (4 * p + k) ≠ 0))

/-- What a begun inventory writes. -/
def inventoryWrites : List (Field × Nat) :=
  [(F.INVENTORY_STATUS_STATE, 1), (F.INVENTORY_STATUS_PHASE, 1), (F.INVENTORY_STATUS_CLOSE_ONLY, 1), (F.INVENTORY_STATUS_REPAIRS, 0)]

/-- An inventory begun. -/
def Dev.inventoryBegun (d : Dev) (skipped : Bool) : Dev := ({ d with test.failPhase := 0, test.skipped := skipped } : Dev).wrs inventoryWrites

theorem exec_inventoryStart : exec .inventoryStart s = .next (if ¬ decide (s.dev.inventoryCode = 0) = true
    then (s.withDev Dev.inventoryAnswered).withDev fun d => d.wr F.INVENTORY_CTL_START (s.dev.rd F.INVENTORY_CTL_START)
    else (s.withDev Dev.inventoryAnswered).withDev fun d => d.inventoryBegun (s.inventorySkips d)) := rfl

/-- The registers of the answer. -/
def inventoryAskFields : List Field := F.INVENTORY_CTL_START :: F.INVENTORY_STATUS_REASON :: reasonFields

theorem Dev.keeps_inventoryAnswered (d : Dev) : d.Keeps inventoryAskFields d.inventoryAnswered :=
  (Dev.keeps_verdict d .inventory 0 d.inventoryCode [F.INVENTORY_STATUS_REASON] F.INVENTORY_CTL_START _).mono (by decide)

theorem inventoryStart_refused (hcode : s.dev.inventoryCode ≠ 0) (hlt : s.dev.inventoryCode < 256) : ∃ t, exec .inventoryStart s = .next t ∧
    s.frame t inventoryAskFields ∧ t.dev.rd F.INVENTORY_STATUS_REASON = s.dev.inventoryCode ∧ t.dev.taking = s.dev.taking := by
  have hkeeps : s.dev.Keeps inventoryAskFields (s.dev.inventoryAnswered.wr F.INVENTORY_CTL_START (s.dev.rd F.INVENTORY_CTL_START)) :=
    (Dev.keeps_inventoryAnswered s.dev).trans (Dev.keeps_wr (by decide) _)
  refine ⟨_, exec_inventoryStart.trans (congrArg Host.Outcome.next (if_pos (by simpa using hcode))), State.frame_withDev (s := s)
    (f := fun d => d.inventoryAnswered.wr F.INVENTORY_CTL_START (s.dev.rd F.INVENTORY_CTL_START)) hkeeps, ?_, ?_⟩
  · exact (Dev.rd_wr_ne _ (by decide) _).trans
      ((Dev.rd_verdict_own s.dev .inventory 0 s.dev.inventoryCode F.INVENTORY_CTL_START _ (f := F.INVENTORY_STATUS_REASON) (by decide)).trans (Nat.mod_eq_of_lt hlt))
  · exact congrArg (fun n => decide (n = 1)) (hkeeps F.INVENTORY_STATUS_STATE (by decide))

theorem inventoryKeys_nodup : ((inventoryWrites.map Prod.fst).map Field.key).Nodup := by decide

theorem Dev.keeps_inventoryBegun (d : Dev) (skipped : Bool) : d.Keeps (inventoryWrites.map Prod.fst) (d.inventoryBegun skipped) :=
  Dev.Keeps.trans (e := { d with test.failPhase := 0, test.skipped := skipped }) (Dev.keeps_of_fields rfl) (Dev.keeps_wrs (List.Subset.refl _))

theorem Dev.rd_inventoryBegun (d : Dev) (skipped : Bool) {f : Field} {v : Nat} (hf : (f, v) ∈ inventoryWrites) : (d.inventoryBegun skipped).rd f = v % 2 ^ f.width :=
  Dev.rd_wrs_of_mem _ inventoryKeys_nodup hf

theorem inventoryStart_begins (hcode : s.dev.inventoryCode = 0) : ∃ t, exec .inventoryStart s = .next t ∧
    s.frame t (F.INVENTORY_STATUS_STATE :: F.INVENTORY_STATUS_PHASE :: F.INVENTORY_STATUS_CLOSE_ONLY :: F.INVENTORY_STATUS_REPAIRS :: inventoryAskFields) ∧
    t.dev.rd F.INVENTORY_STATUS_STATE = 1 ∧ t.dev.rd F.INVENTORY_STATUS_PHASE = 1 ∧ t.dev.rd F.INVENTORY_STATUS_CLOSE_ONLY = 1 ∧
    t.dev.rd F.INVENTORY_STATUS_REPAIRS = 0 := by
  refine ⟨(s.withDev Dev.inventoryAnswered).withDev fun d => d.inventoryBegun (s.inventorySkips d),
    exec_inventoryStart.trans (congrArg Host.Outcome.next (if_neg (by simpa using hcode))),
    State.frame_trans (State.frame_of_keeps ((Dev.keeps_inventoryAnswered s.dev).mono ?_)) (State.frame_of_keeps ((Dev.keeps_inventoryBegun _ _).mono ?_)),
    Dev.rd_inventoryBegun s.dev.inventoryAnswered (s.inventorySkips s.dev.inventoryAnswered) (v := 1) (by simp [inventoryWrites]),
    Dev.rd_inventoryBegun s.dev.inventoryAnswered (s.inventorySkips s.dev.inventoryAnswered) (v := 1) (by simp [inventoryWrites]),
    Dev.rd_inventoryBegun s.dev.inventoryAnswered (s.inventorySkips s.dev.inventoryAnswered) (v := 1) (by simp [inventoryWrites]),
    Dev.rd_inventoryBegun s.dev.inventoryAnswered (s.inventorySkips s.dev.inventoryAnswered) (v := 0) (by simp [inventoryWrites])⟩
  · decide
  · decide

end Start

/-! ## The phases (R459) -/

section Phases

variable {s : State} (o : PhaseOutcome)

/-- The device after a phase's repairs. -/
def Dev.phaseFound (d : Dev) (k : Nat) : Dev :=
  let d := if k ≤ 2 then o.domains.foldl (fun d i => d.domainFailed k i) d else d
  let d := if k = 3 then o.columns.foldl (fun d c => d.columnFailed k c.1 c.2.1 c.2.2) d else d
  let d := if k = 4 then o.rows.foldl (fun d r => d.rowFailed k r.1 r.2.1 r.2.2.1 r.2.2.2) d else d
  let d := if k = 6 then o.sensors.foldl (fun d i => (d.sensorBroken i 3).phaseFailed k) d else d
  if o.other then d.phaseFailed k else d

theorem State.testPhase_eq (s : State) (k : Nat) : s.testPhase k o =
    if k = 4 then { s with mem := [], dev := { s.dev.phaseFound o k with rowCounts := [], room := [], merge := [] } }
    else if k = 5 then { s.withDev fun d => d.phaseFound o k with
      ledger := { s.ledger with records := s.ledger.records.map (fun kv => (kv.1, kv.2.repair kv.1)) } }
    else s.withDev fun d => d.phaseFound o k := rfl

/-- Phase 4 leaves the DRAM zero, and no other phase stores. -/
theorem State.testPhase_mem (s : State) (k : Nat) : (s.testPhase k o).mem = if k = 4 then [] else s.mem := by
  rw [State.testPhase_eq]
  split
  · rfl
  · split <;> rfl

/-- Phase 6 with every sensor in order changes nothing. -/
theorem Dev.phaseFound_sound (d : Dev) (hsensors : o.sensors = []) (hother : o.other = false) : d.phaseFound o 6 = d := by
  rw [Dev.phaseFound, hsensors, hother]
  rfl

theorem State.testPhase_sound (s : State) (hsensors : o.sensors = []) (hother : o.other = false) : s.testPhase 6 o = s := by
  rw [State.testPhase_eq, if_neg (by decide), if_neg (by decide)]
  exact State.withDev_eq_self (f := fun d => d.phaseFound o 6) (Dev.phaseFound_sound o s.dev hsensors hother)

theorem exec_inventoryPhaseDone_of_idle (h : s.dev.taking = false) : exec (.inventoryPhaseDone o) s = .next s :=
  congrArg Host.Outcome.next (if_pos (ne_true_of_eq_false h))

/-- The result of an inventory whose last phase is done. -/
def Dev.inventoryResult (d : Dev) : Nat := if d.test.failPhase = 0 ∧ ¬ d.test.skipped then 2 else 3

/-- A phase done, then the next or the end. -/
def State.phaseStep (s : State) (k : Nat) : State :=
  if k < 6 then (s.testPhase k o).withDev fun d => d.wr F.INVENTORY_STATUS_PHASE (k + 1)
  else (s.testPhase k o).withDev fun d => d.inventoryEnd d.inventoryResult

theorem exec_inventoryPhaseDone (h : s.dev.taking = true) : exec (.inventoryPhaseDone o) s = .next (s.phaseStep o (s.dev.rd F.INVENTORY_STATUS_PHASE)) :=
  congrArg Host.Outcome.next (if_neg (not_not_intro h))

theorem inventoryPhase_next (h : s.dev.taking = true) (hphase : s.dev.rd F.INVENTORY_STATUS_PHASE < 6) : ∃ t, exec (.inventoryPhaseDone o) s = .next t ∧
    t.dev.rd F.INVENTORY_STATUS_PHASE = s.dev.rd F.INVENTORY_STATUS_PHASE + 1 ∧ (s.dev.rd F.INVENTORY_STATUS_PHASE = 4 → t.mem = []) ∧
    (s.dev.rd F.INVENTORY_STATUS_PHASE ≠ 4 → t.mem = s.mem) := by
  have hmem := State.testPhase_mem o s (s.dev.rd F.INVENTORY_STATUS_PHASE)
  refine ⟨_, (exec_inventoryPhaseDone o h).trans (congrArg Host.Outcome.next (if_pos hphase)), (Dev.rd_wr_same _ _ _).trans (Nat.mod_eq_of_lt ?_),
    fun h4 => hmem.trans (if_pos h4), fun h4 => hmem.trans (if_neg h4)⟩
  change _ < 8
  omega

/-- What an inventory's end writes. -/
def endWrites (result : Nat) : List (Field × Nat) := [(F.INVENTORY_STATUS_STATE, result), (F.INVENTORY_CTL_START, 0)]

theorem endKeys_nodup : ([F.INVENTORY_STATUS_STATE, F.INVENTORY_CTL_START].map Field.key).Nodup := by decide

theorem Dev.inventoryEnd_eq (d : Dev) (result : Nat) : ∃ (e : Dev) (req : LedgerReq), e.fields = (d.wrs (endWrites result)).fields ∧
    d.inventoryEnd result = e.ledgerRequest req := by
  refine ⟨_, _, ?_, rfl⟩
  exact Dev.raiseIf_fields (d.wrs (endWrites result)) ..

theorem Dev.inventoryEnd_reads (d : Dev) {result : Nat} (h : result < 8) :
    d.Keeps [F.INVENTORY_STATUS_STATE, F.INVENTORY_CTL_START, F.LEDGER_STATUS_QUEUED, F.LEDGER_ERRORS_DROPPED] (d.inventoryEnd result) ∧
    (d.inventoryEnd result).rd F.INVENTORY_STATUS_STATE = result := by
  obtain ⟨e, req, hfields, heq⟩ := d.inventoryEnd_eq result
  have hlater := Dev.keeps_ledgerRequest e req
  have hwritten : d.Keeps [F.INVENTORY_STATUS_STATE, F.INVENTORY_CTL_START] (d.wrs (endWrites result)) := Dev.keeps_wrs (List.Subset.refl _)
  rw [heq]
  refine ⟨Dev.Keeps.trans (hwritten.mono (by simp)) (Dev.Keeps.trans (e := e) (Dev.keeps_of_fields hfields) (hlater.mono (by simp [requestFields]))), ?_⟩
  rw [hlater _ (by decide), Dev.rd_congr hfields]
  exact (Dev.rd_wrs_of_mem d (l := endWrites result) endKeys_nodup List.mem_cons_self).trans (Nat.mod_eq_of_lt h)

theorem inventoryPhase_last (h : s.dev.taking = true) (hphase : s.dev.rd F.INVENTORY_STATUS_PHASE = 6) (hsensors : o.sensors = []) (hother : o.other = false) :
    ∃ t, exec (.inventoryPhaseDone o) s = .next t ∧
      s.frame t [F.INVENTORY_STATUS_STATE, F.INVENTORY_CTL_START, F.LEDGER_STATUS_QUEUED, F.LEDGER_ERRORS_DROPPED] ∧
      t.dev.rd F.INVENTORY_STATUS_STATE = if s.dev.test.failPhase = 0 ∧ s.dev.test.skipped = false then 2 else 3 := by
  have hresult : s.dev.inventoryResult = if s.dev.test.failPhase = 0 ∧ s.dev.test.skipped = false then 2 else 3 := by
    simp only [Dev.inventoryResult, Bool.not_eq_true]
  have hlt : s.dev.inventoryResult < 8 := by
    rw [Dev.inventoryResult]
    split <;> decide
  obtain ⟨hkeeps, hstate⟩ := Dev.inventoryEnd_reads s.dev hlt
  refine ⟨s.withDev fun d => d.inventoryEnd d.inventoryResult, ?_, State.frame_of_keeps hkeeps, hstate.trans hresult⟩
  rw [exec_inventoryPhaseDone o h, hphase, State.phaseStep, if_neg (by decide), State.testPhase_sound o s hsensors hother]

end Phases

/-- Settles O56: a slice by its state, the schedule by the first domain that passes, the inventory by its phase. -/
theorem testsRun : Obligations.TestsRun := by
  unfold Obligations.TestsRun
  intro s domain patterns pass o ph i st reasons stopFields stops
  refine ⟨⟨sliceStart_refused, sliceStart_begins⟩, exec_sliceSchedule_of_off, fun hen hinv _ hall => sliceSchedule_none hen hinv hall, sliceSchedule_next,
    exec_slicePrepared_of_other, fun h hdrained => ⟨_, exec_slicePrepared_of_drained h hdrained, State.frame_of_keeps (Dev.keeps_wr (by simp) 3), Dev.rd_wr_same _ _ 3⟩,
    fun h => ?_, fun h h' => ⟨slice_stops rfl h h', slice_stops rfl h h', fun hi => slice_stops (exec_sliceUrgentStop_of_urgent hi) h h'⟩,
    exec_sliceUrgentStop_of_other, fun h => (exec_sliceTestDone o).trans (State.next_of_same (if_pos h)), sliceTestDone_compares, exec_sliceRestored_of_other,
    fun h hlo hhi hheld hfences hresult => sliceRestored_ends h rfl hlo hhi hheld hfences hresult, ⟨inventoryStart_refused, inventoryStart_begins⟩,
    exec_inventoryPhaseDone_of_idle ph, fun h => ⟨inventoryPhase_next ph h, inventoryPhase_last ph h⟩⟩
  have hidle : ∀ result, s.dev.sliceStop result patterns.toNat = s.dev := fun result => Dev.sliceStop_of_idle h result _
  refine ⟨(exec_sliceStop patterns).trans (State.next_of_same (hidle 3)), (exec_sliceHp3Timeout patterns).trans (State.next_of_same (hidle 3)), ?_⟩
  by_cases hi : urgentSlice i
  · exact (exec_sliceUrgentStop_of_urgent hi).trans (congrArg Host.Outcome.next (State.withDev_eq_self (f := fun d => d.sliceStop 2 patterns.toNat) (hidle 2)))
  · exact exec_sliceUrgentStop_of_other hi

end Sys2Proof.Machine
end

section
/-!
Performance counters, tracers, leaf marks, statements and live records (R463 to R472, Table 19.6).
-/

namespace Sys2Proof.Machine

open Sys2Proof

/-! ## Performance counters (R463) -/

section Perf

variable {s : State}

theorem Dev.perfOf_setPerf_same (d : Dev) (c : Nat) (f : Perf → Perf) : (d.setPerf c f).perfOf c = f (d.perfOf c) := SMap.get_modify_same _ _ _ _

theorem Dev.perfOf_setPerf_ne (d : Dev) {c k : Nat} (h : k ≠ c) (f : Perf → Perf) : (d.setPerf c f).perfOf k = d.perfOf k := SMap.get_modify_ne _ _ h _

/-- A command that changes one counter. -/
theorem perf_changes {c : Nat} {f : Perf → Perf} {i : Instr} (h : exec i s = .next (s.withDev fun d => d.setPerf c f)) {v : Perf}
    (hv : f (s.dev.perfOf c) = v) : ∃ t, exec i s = .next t ∧ s.frame t [] ∧ t.dev.perfOf c = v ∧ ∀ k, k ≠ c → t.dev.perfOf k = s.dev.perfOf k :=
  ⟨_, h, State.frame_of_keeps (Dev.keeps_of_fields rfl), (Dev.perfOf_setPerf_same s.dev c f).trans hv, fun _ hk => Dev.perfOf_setPerf_ne s.dev hk f⟩

/-- A counter cleared. -/
def Perf.cleared (p : Perf) : Perf := { p with value := 0, ovf := false, capHi := 0, loStage := 0 }

theorem Perf.cleared_cleared (p : Perf) : p.cleared.cleared = p.cleared := rfl

/-- The counters of a list cleared. -/
def Dev.perfCleared (d : Dev) (l : List Nat) : Dev := l.foldl (fun d c => d.setPerf c Perf.cleared) d

theorem Dev.perfClear_eq (d : Dev) : d.perfClear = d.perfCleared (d.perf.map (·.1)) := rfl

theorem Dev.perfOf_perfCleared (l : List Nat) (d : Dev) (k : Nat) : (d.perfCleared l).perfOf k = if k ∈ l then (d.perfOf k).cleared else d.perfOf k := by
  induction l generalizing d with
  | nil => rfl
  | cons c l ih =>
    rw [Dev.perfCleared, List.foldl_cons, ← Dev.perfCleared, ih]
    by_cases hc : k = c
    · subst hc
      rw [Dev.perfOf_setPerf_same, if_pos List.mem_cons_self]
      split
      · exact Perf.cleared_cleared _
      · rfl
    · rw [Dev.perfOf_setPerf_ne _ hc]
      simp [hc]

/-- Every counter cleared: one that the map does not hold is at its reset. -/
theorem Dev.perfOf_perfClear (d : Dev) (k : Nat) : (d.perfClear).perfOf k = (d.perfOf k).cleared := by
  rw [Dev.perfClear_eq, Dev.perfOf_perfCleared]
  split
  · rfl
  · next h =>
    have hnone : d.perfOf k = {} := SMap.get_of_forall_ne _ fun x hx heq => h (heq ▸ List.mem_map_of_mem hx)
    rw [hnone]
    rfl

theorem Dev.perfCleared_fields (l : List Nat) (d : Dev) : (d.perfCleared l).fields = d.fields :=
  List.foldlRecOn l _ (motive := fun e : Dev => e.fields = d.fields) rfl fun _ he _ _ => he

theorem exec_perfValueLoRead (c : Fin 512) : exec (.perfValueLoRead c) s = .next (s.withDev fun d => d.setPerf c fun p =>
    { p with capHi := p.value / 2 ^ 32, loStage := p.value % 2 ^ 32 }) := rfl

theorem exec_perfValueHiWrite (c : Fin 512) (value : Word) : exec (.perfValueHiWrite c value) s = .next (s.withDev fun d => d.setPerf c fun p =>
    if p.en then p else { p with value := value.toNat % 2 ^ 16 * 2 ^ 32 + p.loStage, capHi := value.toNat % 2 ^ 16 }) := rfl

theorem exec_perfFreeze (freeze : Bool) : exec (.perfFreeze freeze) s = .next (s.withDev fun d => d.put F.PERF_CTL_FREEZE freeze) := rfl

theorem exec_perfClear : exec .perfClear s = .next (s.withDev Dev.perfClear) := rfl

end Perf

/-! ## Tracers (R467) -/

/-- A fold that sets one slot per place leaves each place with its own. -/
theorem slotAt_foldl_insert {α : Type} (f : Nat → α) {l : List Nat} (hl : l.Nodup) (m : SMap α) {p : Nat} (hp : p ∈ l) :
    slotAt (l.foldl (fun m p => SMap.insert p (f p) m) m) p = some (f p) :=
  foldl_view_of_mem (view := slotAt) (key := id) (upd := fun i _ => some (f i)) (fun m i _ h => slotAt_insert_ne h (f i) m)
    (fun m i => slotAt_insert_same i (f i) m) (fun _ _ h => h) hl m hp

section Trace

variable {s : State}

/-- What a port's LFSR is loaded with. -/
def Dev.traceSeed (d : Dev) (p : Nat) : Nat := if (d.rd F.TRACE_SEED_SEED + p) % 2 ^ 32 = 0 then 1 else (d.rd F.TRACE_SEED_SEED + p) % 2 ^ 32

/-- The LFSRs replaced. -/
def Dev.withLfsr (d : Dev) (m : SMap Nat) : Dev := { d with lfsr := m }

theorem Dev.traceLoad_eq (d : Dev) : d.traceLoad = d.withLfsr ((List.range 64).foldl (fun m p => SMap.insert p (d.traceSeed p) m) []) := by
  simp only [Dev.traceLoad, Dev.withLfsr, Dev.traceSeed]

theorem Dev.withLfsr_lfsr (d : Dev) (m : SMap Nat) : (d.withLfsr m).lfsr = m := rfl

theorem Dev.withLfsr_fields (d : Dev) (m : SMap Nat) : (d.withLfsr m).fields = d.fields := rfl

theorem Dev.traceLoad_fields (d : Dev) : d.traceLoad.fields = d.fields := by rw [Dev.traceLoad_eq, Dev.withLfsr_fields]

theorem Dev.slotAt_traceLoad (d : Dev) {p : Nat} (hp : p < 64) : slotAt d.traceLoad.lfsr p = some (d.traceSeed p) := by
  rw [Dev.traceLoad_eq, Dev.withLfsr_lfsr]
  exact slotAt_foldl_insert d.traceSeed List.nodup_range [] (List.mem_range.mpr hp)

theorem exec_traceEnable : exec .traceEnable s = .next (s.withDev fun d => (d.wr F.TRACE_CTL_EN 1).traceLoad) := rfl

theorem Dev.traceSeed_enabled (d : Dev) (p : Nat) : (d.wr F.TRACE_CTL_EN 1).traceSeed p = d.traceSeed p := by
  rw [Dev.traceSeed, Dev.traceSeed, Dev.rd_wr_ne d (by decide)]

end Trace

/-! ## Leaf marks (R469) -/

section Leaves

variable {s : State}

/-- The circulation counters replaced. -/
def Dev.withCirc (d : Dev) (m : SMap Circ) : Dev := { d with circ := m }

/-- A patron's leaves added to its LEAF_MS. -/
def Circ.sampled (c : Circ) (n : Nat) : Circ := { c with leafMs := c.leafMs + n }

/-- One patron sampled. -/
def leafStep (n : Nat → Nat) (m : SMap Circ) (p : Nat) : SMap Circ := if n p = 0 then m else SMap.modify {} m p fun c => c.sampled (n p)

theorem Dev.sampleLeaves_fold (d : Dev) (l : List Nat) (m : SMap Circ) : l.foldl (fun d p =>
    let n := d.rd (F.PATRON_LEAVES_COUNT p)
    if n = 0 then d else d.circulate p fun c => { c with leafMs := c.leafMs + n }) (d.withCirc m) =
      d.withCirc (l.foldl (leafStep fun p => d.rd (F.PATRON_LEAVES_COUNT p)) m) := by
  induction l generalizing m with
  | nil => rfl
  | cons p l ih =>
    rw [List.foldl_cons, List.foldl_cons, ← ih, leafStep]
    dsimp only
    have hrd : (d.withCirc m).rd (F.PATRON_LEAVES_COUNT p) = d.rd (F.PATRON_LEAVES_COUNT p) := rfl
    rw [hrd]
    split <;> rfl

theorem Dev.sampleLeaves_eq (d : Dev) : d.sampleLeaves = d.withCirc ((List.range 4096).foldl (leafStep fun p => d.rd (F.PATRON_LEAVES_COUNT p)) d.circ) := by
  have hsame : d.withCirc d.circ = d := rfl
  have hfold := d.sampleLeaves_fold (List.range 4096) d.circ
  rw [hsame] at hfold
  rw [Dev.sampleLeaves]
  exact hfold

/-- Sampling changes the circulation counters alone. -/
theorem Dev.sampleLeaves_kept {β : Type} (g : Dev → β) (hg : ∀ (e : Dev) m, g { e with circ := m } = g e) (d : Dev) : g d.sampleLeaves = g d := by
  rw [Dev.sampleLeaves_eq]
  exact hg d _

/-- A patron's counters after a fold of samples. -/
theorem get_foldl_leafStep (n : Nat → Nat) {l : List Nat} (hl : l.Nodup) (m : SMap Circ) {p : Nat} (hp : p ∈ l) :
    SMap.get {} (l.foldl (leafStep n) m) p = (SMap.get {} m p).sampled (n p) := by
  have hsame : ∀ (m : SMap Circ) i, SMap.get {} (leafStep n m i) i = (SMap.get {} m i).sampled (n i) := fun m i => by
    rw [leafStep]
    split
    · next h => rw [h]; rfl
    · exact SMap.get_modify_same _ _ _ _
  have hother : ∀ (m : SMap Circ) i j, j ≠ id i → SMap.get {} (leafStep n m i) j = SMap.get {} m j := fun m i j h => by
    rw [leafStep]
    split
    · rfl
    · exact SMap.get_modify_ne _ _ h _
  exact foldl_view_of_mem (view := SMap.get {}) (key := id) (upd := fun i c => c.sampled (n i)) hother hsame (fun _ _ h => h) hl m hp

theorem Dev.circOf_withCirc (d : Dev) (m : SMap Circ) (p : Nat) : (d.withCirc m).circOf p = SMap.get {} m p := rfl

theorem Dev.circOf_sampleLeaves (d : Dev) {p : Nat} (hp : p < 4096) : d.sampleLeaves.circOf p = (d.circOf p).sampled (d.rd (F.PATRON_LEAVES_COUNT p)) := by
  rw [Dev.sampleLeaves_eq, Dev.circOf_withCirc]
  exact get_foldl_leafStep _ List.nodup_range d.circ (List.mem_range.mpr hp)

/-- The time base at a millisecond's mark. -/
def Dev.markReached (d : Dev) (m : Nat) : Dev := { d with time := max d.time m, lastMs := m }

theorem exec_leafMsMark : exec .leafMsMark s = .next (s.withDev fun d => (d.markReached (nextMark 1000000 d.time d.lastMs)).sampleLeaves) := rfl

theorem leafMsMark_samples {p : Nat} (hp : p < 4096) : ∃ t, exec .leafMsMark s = .next t ∧ s.frame t [] ∧
    t.dev.lastMs = nextMark 1000000 s.dev.time s.dev.lastMs ∧ t.dev.time = max s.dev.time t.dev.lastMs ∧
    (t.dev.circOf p).leafMs = (s.dev.circOf p).leafMs + s.dev.rd (F.PATRON_LEAVES_COUNT p) := by
  have hlast : (s.dev.markReached (nextMark 1000000 s.dev.time s.dev.lastMs)).sampleLeaves.lastMs = nextMark 1000000 s.dev.time s.dev.lastMs :=
    Dev.sampleLeaves_kept Dev.lastMs (fun _ _ => rfl) _
  refine ⟨_, exec_leafMsMark, State.frame_of_keeps (Dev.Keeps.trans (e := s.dev.markReached (nextMark 1000000 s.dev.time s.dev.lastMs))
    (Dev.keeps_of_fields rfl) (Dev.keeps_of_fields (Dev.sampleLeaves_kept Dev.fields (fun _ _ => rfl) _))), hlast, ?_, ?_⟩
  · rw [State.withDev_dev, hlast, Dev.sampleLeaves_kept Dev.time fun _ _ => rfl]
    rfl
  · rw [State.withDev_dev, Dev.circOf_sampleLeaves _ hp]
    rfl

end Leaves

/-! ## Statements (R471, R472) -/

section Statements

/-- The buffer of statements replaced. -/
def Dev.withBuffer (d : Dev) (m : SMap (BitVec 512)) : Dev := { d with stmt.buffer := m }

/-- A record for a patron without one waiting takes its place. -/
theorem Dev.stmtPut_of_new {d : Dev} {p : Nat} (h : ∀ x ∈ d.stmt.buffer, x.1 ≠ p) (r : BitVec 512) :
    d.stmtPut p r = d.withBuffer (SMap.insert p r d.stmt.buffer) := by
  have hnone : d.stmt.buffer.any (fun kv => kv.1 = p) = false := List.any_eq_false.mpr fun x hx => by simpa using h x hx
  rw [Dev.stmtPut, hnone]
  rfl

/-- A patron's record at a boundary. -/
def Dev.boundaryRecord (d : Dev) (seq b member p : Nat) : BitVec 512 := d.stmtRecord p seq b member (d.stmtFlags p)

/-- The records of a boundary put into the buffer. -/
def Dev.stmtTaken (d : Dev) (seq b member : Nat) (l : List Nat) : Dev := l.foldl (fun d p => d.stmtPut p (d.boundaryRecord seq b member p)) d

theorem Dev.boundaryRecord_withBuffer (d : Dev) (m : SMap (BitVec 512)) (seq b member p : Nat) :
    (d.withBuffer m).boundaryRecord seq b member p = d.boundaryRecord seq b member p := rfl

/-- With none of the patrons' records waiting, each takes its own place. -/
theorem Dev.stmtTaken_of_new (d : Dev) (seq b member : Nat) {l : List Nat} (hl : l.Nodup) {m : SMap (BitVec 512)} (h : ∀ x ∈ m, x.1 ∉ l) :
    (d.withBuffer m).stmtTaken seq b member l = d.withBuffer (l.foldl (fun m p => SMap.insert p (d.boundaryRecord seq b member p) m) m) := by
  induction l generalizing m with
  | nil => rfl
  | cons p l ih =>
    obtain ⟨hp, hl⟩ := List.nodup_cons.mp hl
    have hput : (d.withBuffer m).stmtPut p (d.boundaryRecord seq b member p) = d.withBuffer (SMap.insert p (d.boundaryRecord seq b member p) m) :=
      Dev.stmtPut_of_new (fun x hx heq => h x hx (heq ▸ List.mem_cons_self)) _
    rw [Dev.stmtTaken, List.foldl_cons, ← Dev.stmtTaken, Dev.boundaryRecord_withBuffer, hput, ih hl, List.foldl_cons]
    intro x hx
    obtain rfl | hx := SMap.mem_insert hx
    · exact hp
    · exact fun hmem => h x hx (List.mem_cons_of_mem _ hmem)

theorem Dev.stmtPut_time (d : Dev) (p : Nat) (r : BitVec 512) : (d.stmtPut p r).time = d.time := by
  rw [Dev.stmtPut]
  split <;> rfl

theorem Dev.stmtTaken_time (d : Dev) (seq b member : Nat) (l : List Nat) : (d.stmtTaken seq b member l).time = d.time :=
  List.foldlRecOn l _ (motive := fun e : Dev => e.time = d.time) rfl fun e he _ _ => (Dev.stmtPut_time e _ _).trans he

/-- What a statement written changes of the buffer. -/
def Dev.stmtWritten (d : Dev) (rest : SMap (BitVec 512)) (r : BitVec 512) : Dev :=
  let d := ((d.withBuffer rest).houseStore 0 r).wr F.STMT_STATUS_WAITING rest.length
  if rest = [] then d.wr F.STMT_LAST_SEQ (r.toNat / 2 ^ 32 % 2 ^ 32) else d

theorem Dev.stmtWritten_kept {β : Type} (g : Dev → β) (hg : ∀ (e : Dev) m q, g { e with fields := m, stmt.buffer := q } = g e)
    (hevents : ∀ x y : Dev, g (x.withEvents y) = g x) (d : Dev) (rest : SMap (BitVec 512)) (r : BitVec 512) : g (d.stmtWritten rest r) = g d := by
  have hwr : ∀ (e : Dev) f v, g (e.wr f v) = g e := fun e f v => hg e _ e.stmt.buffer
  have hstore : g ((d.withBuffer rest).houseStore 0 r) = g d := ((Dev.eventsOnly_houseStore _ 0 r).view hevents).trans (hg d d.fields rest)
  rw [Dev.stmtWritten]
  split
  · rw [hwr, hwr, hstore]
  · rw [hwr, hstore]

theorem Dev.pumpStatements_kept {β : Type} (g : Dev → β) (hg : ∀ (e : Dev) m q, g { e with fields := m, stmt.buffer := q } = g e)
    (hevents : ∀ x y : Dev, g (x.withEvents y) = g x) (fuel : Nat) (d : Dev) : g (d.pumpStatements fuel) = g d := by
  induction fuel generalizing d with
  | zero => rfl
  | succ fuel ih =>
    rw [Dev.pumpStatements]
    split
    · rfl
    · next r rest _ =>
      split
      · exact (ih (d.stmtWritten rest r)).trans (Dev.stmtWritten_kept g hg hevents d rest r)
      · rfl

theorem Dev.pumpStatements_of_closed {d : Dev} (h : d.rd (F.HOUSE_RING_STATUS_STATE 0) ≠ 1) (fuel : Nat) : d.pumpStatements fuel = d := by
  cases fuel with
  | zero => rfl
  | succ fuel =>
    rw [Dev.pumpStatements]
    split
    · rfl
    · exact if_neg fun hopen => h hopen.1

/-- The time base at a boundary. -/
def Dev.boundaryReached (d : Dev) (b : Nat) : Dev := { d with time := max d.time b }

/-- Of the first `n` patrons, those enabled at any moment since the last boundary. -/
def Dev.stmtPatrons (d : Dev) (n : Nat) : List Nat := (List.range n).filter fun p =>
  ((List.range n).filter fun p => d.flag (F.PATRON_STATUS_ACTIVE p)).contains p || d.stmt.enabled.contains p

/-- The next interval begun. -/
def Dev.stmtBegun (d : Dev) (b : Nat) : Dev := 
  { d with stmt.start := b, stmt.disc := false, stmt.oos := false, stmt.enabled := [], stmt.partly := [], stmt.secs := clampNat 1 3600 (d.rd F.STMT_CFG_INTERVAL) }

/-- The records that wait shown. -/
def Dev.stmtShown (d : Dev) : Dev := d.wr F.STMT_STATUS_WAITING d.stmt.buffer.length

/-- A boundary taken, its writes apart. -/
def Dev.stmtBoundary (d : Dev) (b member n : Nat) : Dev :=
  (((d.boundaryReached b).stmtTaken (b / (d.boundaryReached b).stmtNs) b member ((d.boundaryReached b).stmtPatrons n)).stmtBegun b).stmtShown

/-- The boundary that comes next. -/
def Dev.nextBoundary (d : Dev) : Nat := nextMark d.stmtNs d.time d.stmt.start

variable {s : State}

/-- A boundary taken of the first `n` patrons, with `fuel` statements written at most. -/
def State.boundaryTaken (s : State) (n fuel : Nat) : State :=
  let b := nextMark s.dev.stmtNs s.dev.time s.dev.stmt.start
  let d := { s.dev with time := max s.dev.time b }
  let seq := b / d.stmtNs
  let active := (List.range n).filter (fun p => d.flag (F.PATRON_STATUS_ACTIVE p))
  let all := (List.range n).filter (fun p => active.contains p || d.stmt.enabled.contains p)
  let d := all.foldl (fun d p => d.stmtPut p (d.stmtRecord p seq b s.member (d.stmtFlags p))) d
  let d := { d with stmt.start := b, stmt.disc := false, stmt.oos := false, stmt.enabled := [], stmt.partly := [],
                    stmt.secs := clampNat 1 3600 (d.rd F.STMT_CFG_INTERVAL) }
  let d := d.wr F.STMT_STATUS_WAITING d.stmt.buffer.length
  { s with dev := d.pumpStatements fuel }

theorem State.boundaryTaken_eq (n fuel : Nat) :
    s.boundaryTaken n fuel = s.withDev fun d => (d.stmtBoundary d.nextBoundary s.member n).pumpStatements fuel := rfl

theorem exec_statementBoundary : exec .statementBoundary s = .next (s.withDev fun d => (d.stmtBoundary d.nextBoundary s.member 4096).pumpStatements 4096) := by
  refine Eq.trans (b := .next (s.boundaryTaken 4096 4096)) rfl ?_
  rw [State.boundaryTaken_eq]

theorem Dev.stmtShown_start (d : Dev) (b : Nat) : (d.stmtBegun b).stmtShown.stmt.start = b := rfl

theorem Dev.stmtShown_enabled (d : Dev) (b : Nat) : (d.stmtBegun b).stmtShown.stmt.enabled = [] := rfl

theorem Dev.stmtShown_time (d : Dev) (b : Nat) : (d.stmtBegun b).stmtShown.time = d.time := rfl

theorem Dev.stmtShown_buffer (d : Dev) (b : Nat) : (d.stmtBegun b).stmtShown.stmt.buffer = d.stmt.buffer := rfl

theorem Dev.stmtShown_state (d : Dev) (b : Nat) : (d.stmtBegun b).stmtShown.rd (F.HOUSE_RING_STATUS_STATE 0) = d.rd (F.HOUSE_RING_STATUS_STATE 0) :=
  Dev.rd_wr_ne (d.stmtBegun b) (by decide) _

theorem Dev.stmtBoundary_time (d : Dev) (b member n : Nat) : (d.stmtBoundary b member n).time = max d.time b := by
  rw [Dev.stmtBoundary, Dev.stmtShown_time, Dev.stmtTaken_time]
  rfl

/-- The packed words of a record's lower part. -/
theorem packed_reads {p f m q stop r n : Nat} (hp : p < 2 ^ 12) (hf : f < 2 ^ 4) (hm : m < 2 ^ 16) (hq : q < 2 ^ 32) (hstop : stop < 2 ^ 64)
    (hr : r < 2 ^ 64) (hn : n % 2 ^ 192 = (p + f * 2 ^ 12 + m * 2 ^ 16 + q * 2 ^ 32 + stop * 2 ^ 64 + r * 2 ^ 128) % 2 ^ 192) :
    n % 2 ^ 12 = p ∧ n / 2 ^ 64 % 2 ^ 64 = stop ∧ n / 2 ^ 128 % 2 ^ 64 = r := by
  omega

theorem add_mod_of_dvd {a b m : Nat} (h : m ∣ b) : (a + b) % m = a % m := by
  obtain ⟨k, rfl⟩ := h
  exact Nat.add_mul_mod_self_left a m k

theorem toNat_ofNat_mod {w k : Nat} (h : k ≤ w) (n : Nat) : (BitVec.ofNat w n).toNat % 2 ^ k = n % 2 ^ k := by
  rw [BitVec.toNat_ofNat, Nat.mod_mod_of_dvd _ (Nat.pow_dvd_pow 2 h)]

theorem Dev.stmtRecord_reads (d : Dev) {p member flags : Nat} (seq stop : Nat) (hp : p < 2 ^ 12) (hmember : member < 2 ^ 16) (hflags : flags < 2 ^ 4) :
    (d.stmtRecord p seq stop member flags).toNat % 2 ^ 12 = p ∧ (d.stmtRecord p seq stop member flags).toNat / 2 ^ 64 % 2 ^ 64 = stop % 2 ^ 64 ∧
      (d.stmtRecord p seq stop member flags).toNat / 2 ^ 128 % 2 ^ 64 = (d.circOf p).bytesRead % 2 ^ 64 := by
  have hhigh : ∀ {k : Nat} (n : Nat), 192 ≤ k → 2 ^ 192 ∣ n * 2 ^ k := fun n hk => Nat.dvd_mul_left_of_dvd (Nat.pow_dvd_pow 2 hk) n
  refine packed_reads hp hflags hmember (Nat.mod_lt seq (by decide)) (Nat.mod_lt stop (by decide)) (Nat.mod_lt _ (by decide)) ?_
  rw [Dev.stmtRecord]
  dsimp only
  rw [toNat_ofNat_mod (by decide), add_mod_of_dvd (hhigh _ (by decide)), add_mod_of_dvd (hhigh _ (by decide)),
    add_mod_of_dvd (hhigh _ (by decide)), add_mod_of_dvd (hhigh _ (by decide)), add_mod_of_dvd (hhigh _ (by decide)), add_mod_of_dvd (hhigh _ (by decide))]

theorem Dev.stmtFlags_lt (d : Dev) (p : Nat) : d.stmtFlags p < 2 ^ 4 := by
  have hbit : ∀ b : Bool, b.toNat ≤ 1 := Bool.toNat_le
  have h0 := hbit (d.stmt.disc || d.tbLost)
  have h1 := hbit (d.stmt.oos || d.flag F.COLL_STATUS_OUT_OF_STEP)
  have h2 := hbit (d.stmt.partly.contains p || !d.flag (F.PATRON_STATUS_ACTIVE p))
  rw [Dev.stmtFlags]
  omega

theorem State.member_lt (h : s.fuses.position < 64) : s.member < 2 ^ 16 := by
  rw [State.member]
  split <;> omega

theorem Dev.mem_stmtPatrons (d : Dev) {p n : Nat} (hp : p < n) (hactive : d.flag (F.PATRON_STATUS_ACTIVE p) = true) : p ∈ d.stmtPatrons n := by
  refine List.mem_filter.mpr ⟨List.mem_range.mpr hp, ?_⟩
  rw [List.contains_iff_mem.mpr (List.mem_filter.mpr ⟨List.mem_range.mpr hp, hactive⟩)]
  rfl

theorem Dev.stmtPatrons_nodup (d : Dev) (n : Nat) : (d.stmtPatrons n).Nodup := List.nodup_range.filter _

/-- The record of a patron that is enabled, with an empty buffer before. -/
theorem Dev.slotAt_stmtBoundary (d : Dev) (b member : Nat) (hbuffer : d.stmt.buffer = []) {p n : Nat} (hp : p < n)
    (hactive : d.flag (F.PATRON_STATUS_ACTIVE p) = true) : slotAt (d.stmtBoundary b member n).stmt.buffer p =
      some ((d.boundaryReached b).boundaryRecord (b / (d.boundaryReached b).stmtNs) b member p) := by
  have hempty : (d.boundaryReached b).withBuffer [] = d.boundaryReached b := congrArg (d.boundaryReached b).withBuffer hbuffer.symm
  have htaken := Dev.stmtTaken_of_new (d.boundaryReached b) (b / (d.boundaryReached b).stmtNs) b member ((d.boundaryReached b).stmtPatrons_nodup n) (m := [])
    fun _ hx => absurd hx List.not_mem_nil
  rw [hempty] at htaken
  rw [Dev.stmtBoundary, Dev.stmtShown_buffer, htaken]
  exact slotAt_foldl_insert _ ((d.boundaryReached b).stmtPatrons_nodup n) [] ((d.boundaryReached b).mem_stmtPatrons hp hactive)

theorem Dev.rd_stmtTaken_state (d : Dev) (seq b member : Nat) (l : List Nat) (g : Field) (hg : F.STMT_STATUS_SUPERSEDED.key ≠ g.key) :
    (d.stmtTaken seq b member l).rd g = d.rd g := by
  refine List.foldlRecOn l _ (motive := fun e : Dev => e.rd g = d.rd g) rfl fun e he p _ => Eq.trans ?_ he
  rw [Dev.stmtPut]
  split
  · exact Dev.rd_bump_ne (e.withBuffer _) hg.symm
  · rfl

end Statements

/-! ## The live record (R470) -/

section Live

variable {s : State}

/-- What a read of CIRC captures. -/
def circWrites (p : Nat) (r : BitVec 512) : List (Field × Nat) := (List.range 16).map fun i => (F.PATRON_CIRC_DATA p i, r.toNat / 2 ^ (32 * i))

theorem exec_patronCircRead (p : Fin 4096) : exec (.patronCircRead p) s = .next (s.withDev fun d => d.wrs (circWrites p (s.liveRecord p))) := by
  refine Eq.trans (b := .next (s.circCapture p)) rfl (congrArg Host.Outcome.next ?_)
  rw [State.circCapture]
  refine State.withDev_congr ?_
  rw [circWrites, Dev.wrs, List.foldl_map]

theorem circWrites_fields (p : Nat) (r : BitVec 512) : (circWrites p r).map Prod.fst = (List.range 16).map (F.PATRON_CIRC_DATA p) := by
  rw [circWrites, List.map_map]
  rfl

theorem circKeys_nodup (p : Nat) : (((List.range 16).map (F.PATRON_CIRC_DATA p)).map Field.key).Nodup := by
  rw [List.map_map]
  refine List.pairwise_map.mpr (List.Pairwise.imp (fun {i j} hne h => hne ?_) List.nodup_range)
  simp only [Function.comp_apply, Field.key, F.PATRON_CIRC_DATA] at h
  omega

end Live

/-- Settles O57: each command's equation, and the folds over counters, ports and patrons by their places. -/
theorem countersCount : Obligations.CountersCount := by
  unfold Obligations.CountersCount
  intro s c value freeze p q
  refine ⟨perf_changes (exec_perfValueLoRead c) rfl, perf_changes (exec_perfValueHiWrite c value) rfl,
    ⟨_, exec_perfFreeze freeze, State.frame_of_keeps (Dev.keeps_wr (by simp) _),
      (Dev.rd_wr_same _ _ _).trans (toNat_mod_two freeze), rfl⟩,
    ⟨_, exec_perfClear, State.frame_of_keeps (Dev.keeps_of_fields (Dev.perfCleared_fields _ s.dev)), fun k => ?_⟩,
    ⟨_, exec_traceEnable, State.frame_of_keeps (Dev.Keeps.trans (e := s.dev.wr F.TRACE_CTL_EN 1) (Dev.keeps_wr (by simp) 1) (Dev.keeps_of_fields (Dev.traceLoad_fields _))),
      (Dev.rd_congr (Dev.traceLoad_fields _) _).trans (Dev.rd_wr_same s.dev _ 1), fun port hport => ?_⟩, leafMsMark_samples p.isLt,
    ⟨_, exec_statementBoundary, State.withDev_mem _ _, State.withDev_ledger _ _, State.withDev_layout _ _, ?_, ?_, ?_, fun hclosed hpos hbuffer hactive => ?_⟩,
    ⟨_, exec_patronCircRead p, State.frame_of_keeps (Dev.keeps_wrs (by rw [circWrites_fields]; exact List.Subset.refl _)), fun i hi => ?_⟩⟩
  · rw [State.withDev_dev, Dev.perfOf_perfClear]
    exact ⟨rfl, rfl, rfl, rfl⟩
  · exact (Dev.slotAt_traceLoad _ hport).trans (congrArg some (Dev.traceSeed_enabled s.dev port))
  · rw [State.withDev_dev, Dev.pumpStatements_kept (fun e : Dev => e.stmt.start) (fun _ _ _ => rfl) fun _ _ => rfl]
    exact Dev.stmtShown_start _ _
  · rw [State.withDev_dev, Dev.pumpStatements_kept (fun e : Dev => e.stmt.enabled) (fun _ _ _ => rfl) fun _ _ => rfl]
    exact Dev.stmtShown_enabled _ _
  · rw [State.withDev_dev, Dev.pumpStatements_kept Dev.time (fun _ _ _ => rfl) (fun _ _ => rfl), Dev.stmtBoundary_time,
      Dev.pumpStatements_kept (fun e : Dev => e.stmt.start) (fun _ _ _ => rfl) fun _ _ => rfl]
    exact congrArg (max s.dev.time) (Dev.stmtShown_start _ _).symm
  · have hring : (s.dev.stmtBoundary s.dev.nextBoundary s.member 4096).rd (F.HOUSE_RING_STATUS_STATE 0) ≠ 1 := by
      rw [Dev.stmtBoundary, Dev.stmtShown_state, Dev.rd_stmtTaken_state _ _ _ _ _ _ (by decide)]
      exact hclosed
    rw [State.withDev_dev, Dev.pumpStatements_of_closed hring, Dev.slotAt_stmtBoundary s.dev _ _ hbuffer p.isLt hactive]
    obtain ⟨hp, hstop, hread⟩ := Dev.stmtRecord_reads (s.dev.boundaryReached s.dev.nextBoundary)
      (s.dev.nextBoundary / (s.dev.boundaryReached s.dev.nextBoundary).stmtNs) s.dev.nextBoundary p.isLt (State.member_lt hpos)
      ((s.dev.boundaryReached s.dev.nextBoundary).stmtFlags_lt p)
    exact ⟨_, rfl, hp, hstop, hread⟩
  · refine Dev.rd_wrs_of_mem s.dev (f := F.PATRON_CIRC_DATA p i) ?_ (List.mem_map.mpr ⟨i, List.mem_range.mpr hi, rfl⟩)
    rw [circWrites_fields]
    exact circKeys_nodup p

end Sys2Proof.Machine
end

section
/-!
The I3C target: its CCCs and its transfers of registers (R479 to R481).
-/

namespace Sys2Proof.Machine

open Sys2Proof

/-! ## Broadcast and direct CCCs -/

section Ccc

variable {s : State} {c : Instr} {f : Dev → Dev}

/-- What the target has sent, and that it acknowledged. -/
def State.sends (t : State) (b : List Nat) : Prop := t.dev.mgmt.out = b ∧ t.dev.mgmt.nack = false

/-- A command that the target does not acknowledge. -/
def State.nacks (s : State) (c : Instr) : Prop := ∃ t, exec c s = .next t ∧ s.frame t [] ∧ t.dev.mgmt.out = [] ∧ t.dev.mgmt.nack = true

theorem Dev.keeps_i3cOut (d : Dev) (b : List Nat) (l : List Field) : d.Keeps l (d.i3cOut b) := Dev.keeps_of_fields rfl

theorem Dev.rd_i3cOut (d : Dev) (b : List Nat) (f : Field) : (d.i3cOut b).rd f = d.rd f := rfl

theorem Dev.i3cOut_sends (d : Dev) (b : List Nat) : (d.i3cOut b).mgmt.out = b ∧ (d.i3cOut b).mgmt.nack = false := ⟨rfl, rfl⟩

theorem nacks_of (h : exec c s = .next (s.withDev Dev.i3cNack)) : s.nacks c := ⟨_, h, State.frame_of_keeps (Dev.keeps_of_fields rfl), rfl, rfl⟩

/-- A target that is not there hears no broadcast. -/
theorem broadcast_unheard (h : exec c s = .next (s.broadcast f)) (haway : ¬ s.dev.i3cThere = true) : exec c s = .next s :=
  h.trans (congrArg Host.Outcome.next (if_neg haway))

theorem broadcast_heard (h : exec c s = .next (s.broadcast f)) (hthere : s.dev.i3cThere = true) : exec c s = .next (s.withDev fun d => f (d.i3cOut [])) :=
  h.trans (congrArg Host.Outcome.next (if_pos hthere))

/-- A broadcast that changes registers and the management's own state. -/
theorem broadcast_changes {l : List Field} (h : exec c s = .next (s.broadcast f)) (hthere : s.dev.i3cThere = true)
    (hkeeps : (s.dev.i3cOut []).Keeps l (f (s.dev.i3cOut []))) : ∃ t, exec c s = .next t ∧ s.frame t l ∧ t.dev = f (s.dev.i3cOut []) :=
  ⟨_, broadcast_heard h hthere, State.frame_of_keeps (f := fun d => f (d.i3cOut [])) ((Dev.keeps_i3cOut s.dev [] l).trans hkeeps), rfl⟩

/-- A target that is not there, or has no address, acknowledges no direct CCC. -/
theorem direct_nacks (h : exec c s = .next (s.direct f)) (haway : ¬ s.dev.i3cThere = true ∨ ¬ s.dev.rd F.FOOT_I3C_STATUS_ADDR_VALID ≠ 0) : s.nacks c := by
  refine nacks_of (h.trans (congrArg Host.Outcome.next (State.withDev_congr (if_neg fun hhears => ?_))))
  obtain ⟨hthere, haddr⟩ := hhears
  rw [Dev.flag_eq] at haddr
  exact haway.elim (fun h => h hthere) fun h => h (of_decide_eq_true haddr)

theorem direct_heard (h : exec c s = .next (s.direct f)) (hthere : s.dev.i3cThere = true) (haddr : s.dev.rd F.FOOT_I3C_STATUS_ADDR_VALID ≠ 0) :
    exec c s = .next (s.withDev fun d => f (d.i3cOut [])) := by
  refine h.trans (congrArg Host.Outcome.next (State.withDev_congr (if_pos ⟨hthere, ?_⟩)))
  rw [Dev.flag_eq]
  exact decide_eq_true haddr

/-- A direct CCC that only answers. -/
theorem direct_answers {b : List Nat} (h : exec c s = .next (s.direct f)) (hthere : s.dev.i3cThere = true)
    (haddr : s.dev.rd F.FOOT_I3C_STATUS_ADDR_VALID ≠ 0) (hfields : (f (s.dev.i3cOut [])).fields = s.dev.fields)
    (hout : (f (s.dev.i3cOut [])).mgmt.out = b ∧ (f (s.dev.i3cOut [])).mgmt.nack = false) : ∃ t, exec c s = .next t ∧ s.frame t [] ∧ t.sends b :=
  ⟨_, direct_heard h hthere haddr, State.frame_of_keeps (Dev.keeps_of_fields hfields), hout⟩

end Ccc

/-! ## What each broadcast does -/

section Broadcast

variable {s : State}

/-- An address taken. -/
def Dev.i3cNamed (d : Dev) (address valid : Nat) : Dev := d.wrs [(F.FOOT_I3C_STATUS_DYN_ADDR, address), (F.FOOT_I3C_STATUS_ADDR_VALID, valid)]

/-- The registers of the target's address. -/
def addressFields : List Field := [F.FOOT_I3C_STATUS_DYN_ADDR, F.FOOT_I3C_STATUS_ADDR_VALID]

theorem addressKeys_nodup : (addressFields.map Field.key).Nodup := by decide

theorem Dev.keeps_i3cNamed (d : Dev) (address valid : Nat) : d.Keeps addressFields (d.i3cNamed address valid) := Dev.keeps_wrs (List.Subset.refl _)

theorem Dev.rd_i3cNamed (d : Dev) {address valid : Nat} (haddress : address < 2 ^ 7) (hvalid : valid < 2) :
    (d.i3cNamed address valid).rd F.FOOT_I3C_STATUS_DYN_ADDR = address ∧ (d.i3cNamed address valid).rd F.FOOT_I3C_STATUS_ADDR_VALID = valid :=
  ⟨(Dev.rd_wrs_of_mem d (l := [(F.FOOT_I3C_STATUS_DYN_ADDR, address), (F.FOOT_I3C_STATUS_ADDR_VALID, valid)]) addressKeys_nodup (by simp)).trans
      (Nat.mod_eq_of_lt haddress),
    (Dev.rd_wrs_of_mem d (l := [(F.FOOT_I3C_STATUS_DYN_ADDR, address), (F.FOOT_I3C_STATUS_ADDR_VALID, valid)]) addressKeys_nodup (by simp)).trans
      (Nat.mod_eq_of_lt hvalid)⟩

/-- ENTDAA at a target. -/
def Dev.entered (d : Dev) (address : Nat) (pid : List Nat) : Dev :=
  if d.flag F.FOOT_I3C_STATUS_ADDR_VALID then d else (d.i3cNamed address 1).i3cOut (pid ++ [6, 0])

theorem exec_entdaa (address : BitVec 7) : exec (.entdaa address) s = .next (s.broadcast fun d => d.entered address.toNat s.pid) := rfl

theorem Dev.entered_of_named {d : Dev} (h : d.rd F.FOOT_I3C_STATUS_ADDR_VALID ≠ 0) (address : Nat) (pid : List Nat) : d.entered address pid = d := by
  refine if_pos ?_
  rw [Dev.flag_eq]
  exact decide_eq_true h

theorem Dev.entered_of_new {d : Dev} (h : ¬ d.rd F.FOOT_I3C_STATUS_ADDR_VALID ≠ 0) (address : Nat) (pid : List Nat) :
    d.entered address pid = (d.i3cNamed address 1).i3cOut (pid ++ [6, 0]) := by
  refine if_neg ?_
  rw [Dev.flag_eq]
  exact fun hvalid => h (of_decide_eq_true hvalid)

theorem entdaa_names (hthere : s.dev.i3cThere = true) (hnew : ¬ s.dev.rd F.FOOT_I3C_STATUS_ADDR_VALID ≠ 0) (address : BitVec 7) :
    ∃ t, exec (.entdaa address) s = .next t ∧ s.frame t addressFields ∧ t.dev.rd F.FOOT_I3C_STATUS_DYN_ADDR = address.toNat ∧
      t.dev.rd F.FOOT_I3C_STATUS_ADDR_VALID = 1 ∧ t.sends (s.pid ++ [6, 0]) := by
  have heq := Dev.entered_of_new (d := s.dev.i3cOut []) (by rwa [Dev.rd_i3cOut]) address.toNat s.pid
  obtain ⟨haddress, hvalid⟩ := Dev.rd_i3cNamed (s.dev.i3cOut []) address.isLt (show 1 < 2 by decide)
  obtain ⟨t, ht, hframe, hdev⟩ := broadcast_changes (l := addressFields) (exec_entdaa address) hthere
    (by rw [heq]; exact (Dev.keeps_i3cNamed _ _ _).trans (Dev.keeps_i3cOut _ _ _))
  rw [heq] at hdev
  refine ⟨t, ht, hframe, ?_, ?_, ?_⟩
  · rw [hdev, Dev.rd_i3cOut]
    exact haddress
  · rw [hdev, Dev.rd_i3cOut]
    exact hvalid
  · rw [State.sends, hdev]
    exact Dev.i3cOut_sends _ _

theorem entdaa_known (hthere : s.dev.i3cThere = true) (hnamed : s.dev.rd F.FOOT_I3C_STATUS_ADDR_VALID ≠ 0) (address : BitVec 7) :
    ∃ t, exec (.entdaa address) s = .next t ∧ s.frame t [] ∧ t.sends [] := by
  have heq := Dev.entered_of_named (d := s.dev.i3cOut []) (by rwa [Dev.rd_i3cOut]) address.toNat s.pid
  obtain ⟨t, ht, hframe, hdev⟩ := broadcast_changes (l := []) (exec_entdaa address) hthere (by rw [heq]; exact Dev.Keeps.refl _ _)
  rw [heq] at hdev
  refine ⟨t, ht, hframe, ?_⟩
  rw [State.sends, hdev]
  exact Dev.i3cOut_sends _ _

theorem exec_rstdaa : exec .rstdaa s = .next (s.broadcast fun d => d.i3cNamed 0 0) := rfl

theorem rstdaa_forgets (hthere : s.dev.i3cThere = true) : ∃ t, exec .rstdaa s = .next t ∧ s.frame t addressFields ∧
    t.dev.rd F.FOOT_I3C_STATUS_DYN_ADDR = 0 ∧ t.dev.rd F.FOOT_I3C_STATUS_ADDR_VALID = 0 := by
  obtain ⟨t, ht, hframe, hdev⟩ := broadcast_changes exec_rstdaa hthere (Dev.keeps_i3cNamed _ 0 0)
  refine ⟨t, ht, hframe, ?_⟩
  rw [hdev]
  exact Dev.rd_i3cNamed _ (by decide) (by decide)

/-- IBIs switched where bit 0 of a CCC's events says so. -/
def Dev.ibiSwitched (d : Dev) (events : BitVec 8) (on : Nat) : Dev := if events.getLsbD 0 then d.wr F.FOOT_I3C_STATUS_IBI_EN on else d

theorem Dev.keeps_ibiSwitched (d : Dev) (events : BitVec 8) (on : Nat) : d.Keeps [F.FOOT_I3C_STATUS_IBI_EN] (d.ibiSwitched events on) := by
  rw [Dev.ibiSwitched]
  split
  · exact Dev.keeps_wr (by simp) on
  · exact Dev.Keeps.refl _ d

theorem Dev.rd_ibiSwitched (d : Dev) (events : BitVec 8) {on : Nat} (h : on < 2) : (d.ibiSwitched events on).rd F.FOOT_I3C_STATUS_IBI_EN =
    if events.getLsbD 0 = true then on else d.rd F.FOOT_I3C_STATUS_IBI_EN := by
  rw [Dev.ibiSwitched]
  split
  · exact (Dev.rd_wr_same d _ on).trans (Nat.mod_eq_of_lt h)
  · rfl

theorem exec_enec (events : BitVec 8) : exec (.enec events) s = .next (s.broadcast fun d => d.ibiSwitched events 1) := rfl

theorem exec_disec (events : BitVec 8) : exec (.disec events) s = .next (s.broadcast fun d => d.ibiSwitched events 0) := rfl

theorem ibi_switches {c : Instr} {events : BitVec 8} {on : Nat} (h : exec c s = .next (s.broadcast fun d => d.ibiSwitched events on))
    (hthere : s.dev.i3cThere = true) (hon : on < 2) : ∃ t, exec c s = .next t ∧ s.frame t [F.FOOT_I3C_STATUS_IBI_EN] ∧
      t.dev.rd F.FOOT_I3C_STATUS_IBI_EN = if events.getLsbD 0 = true then on else s.dev.rd F.FOOT_I3C_STATUS_IBI_EN := by
  obtain ⟨t, ht, hframe, hdev⟩ := broadcast_changes h hthere (Dev.keeps_ibiSwitched _ events on)
  refine ⟨t, ht, hframe, ?_⟩
  rw [hdev]
  exact Dev.rd_ibiSwitched _ events hon

/-- The longest read, and the longest write, replaced where the length may be set. -/
def Dev.readLimited (d : Dev) (n : Nat) : Dev := if 8 ≤ n ∧ n ≤ 256 then { d with mgmt.mrl := n } else d

def Dev.writeLimited (d : Dev) (n : Nat) : Dev := if 8 ≤ n ∧ n ≤ 256 then { d with mgmt.mwl := n } else d

theorem exec_setmrl (length : BitVec 16) : exec (.setmrl length) s = .next (s.broadcast fun d => d.readLimited length.toNat) := rfl

theorem exec_setmwl (length : BitVec 16) : exec (.setmwl length) s = .next (s.broadcast fun d => d.writeLimited length.toNat) := rfl

theorem Dev.readLimited_reads (d : Dev) (n : Nat) : (d.readLimited n).fields = d.fields ∧
    (d.readLimited n).mgmt.mrl = if 8 ≤ n ∧ n ≤ 256 then n else d.mgmt.mrl := by
  rw [Dev.readLimited]
  split <;> exact ⟨rfl, rfl⟩

theorem Dev.writeLimited_reads (d : Dev) (n : Nat) : (d.writeLimited n).fields = d.fields ∧
    (d.writeLimited n).mgmt.mwl = if 8 ≤ n ∧ n ≤ 256 then n else d.mgmt.mwl := by
  rw [Dev.writeLimited]
  split <;> exact ⟨rfl, rfl⟩

theorem setmrl_limits (hthere : s.dev.i3cThere = true) (length : BitVec 16) : ∃ t, exec (.setmrl length) s = .next t ∧ s.frame t [] ∧
    t.dev.mgmt.mrl = if 8 ≤ length.toNat ∧ length.toNat ≤ 256 then length.toNat else s.dev.mgmt.mrl := by
  obtain ⟨hfields, hmrl⟩ := Dev.readLimited_reads (s.dev.i3cOut []) length.toNat
  obtain ⟨t, ht, hframe, hdev⟩ := broadcast_changes (exec_setmrl length) hthere (Dev.keeps_of_fields hfields)
  exact ⟨t, ht, hframe, (congrArg (fun e : Dev => e.mgmt.mrl) hdev).trans hmrl⟩

theorem setmwl_limits (hthere : s.dev.i3cThere = true) (length : BitVec 16) : ∃ t, exec (.setmwl length) s = .next t ∧ s.frame t [] ∧
    t.dev.mgmt.mwl = if 8 ≤ length.toNat ∧ length.toNat ≤ 256 then length.toNat else s.dev.mgmt.mwl := by
  obtain ⟨hfields, hmwl⟩ := Dev.writeLimited_reads (s.dev.i3cOut []) length.toNat
  obtain ⟨t, ht, hframe, hdev⟩ := broadcast_changes (exec_setmwl length) hthere (Dev.keeps_of_fields hfields)
  exact ⟨t, ht, hframe, (congrArg (fun e : Dev => e.mgmt.mwl) hdev).trans hmwl⟩

/-- The reset action replaced. -/
def Dev.resetActed (d : Dev) (n : Nat) : Dev := { d with mgmt.resetAction := n }

theorem exec_rstact (action : BitVec 8) : exec (.rstact action) s = .next (s.broadcast fun d => d.resetActed action.toNat) := rfl

theorem rstact_acts (hthere : s.dev.i3cThere = true) (action : BitVec 8) : ∃ t, exec (.rstact action) s = .next t ∧ s.frame t [] ∧
    t.dev.mgmt.resetAction = action.toNat := by
  obtain ⟨t, ht, hframe, hdev⟩ := broadcast_changes (exec_rstact action) hthere (Dev.keeps_of_fields rfl)
  exact ⟨t, ht, hframe, congrArg (fun e : Dev => e.mgmt.resetAction) hdev⟩

end Broadcast

/-! ## What each direct CCC answers -/

section Direct

variable {s : State}

theorem exec_setnewda (address : BitVec 7) : exec (.setnewda address) s = .next (s.direct fun d => d.wr F.FOOT_I3C_STATUS_DYN_ADDR address.toNat) := rfl

theorem exec_getpid : exec .getpid s = .next (s.direct fun d => d.i3cOut s.pid) := rfl

theorem exec_getbcr : exec .getbcr s = .next (s.direct fun d => d.i3cOut [6]) := rfl

theorem exec_getdcr : exec .getdcr s = .next (s.direct fun d => d.i3cOut [0]) := rfl

theorem exec_getmrl : exec .getmrl s = .next (s.direct fun d => d.i3cOut (bytesOfNat 2 d.mgmt.mrl).reverse) := rfl

theorem exec_getmwl : exec .getmwl s = .next (s.direct fun d => d.i3cOut (bytesOfNat 2 d.mgmt.mwl).reverse) := rfl

theorem exec_getstatus : exec .getstatus s = .next (s.direct Dev.i3cOpen) := rfl

theorem exec_getmxds : exec .getmxds s = .next (s.direct Dev.i3cOpen) := rfl

theorem setnewda_names (hthere : s.dev.i3cThere = true) (haddr : s.dev.rd F.FOOT_I3C_STATUS_ADDR_VALID ≠ 0) (address : BitVec 7) :
    ∃ t, exec (.setnewda address) s = .next t ∧ s.frame t [F.FOOT_I3C_STATUS_DYN_ADDR] ∧ t.dev.rd F.FOOT_I3C_STATUS_DYN_ADDR = address.toNat :=
  ⟨_, direct_heard (exec_setnewda address) hthere haddr,
    State.frame_of_keeps ((Dev.keeps_i3cOut s.dev [] _).trans (Dev.keeps_wr (by simp) _)), (Dev.rd_wr_same _ _ _).trans (Nat.mod_eq_of_lt address.isLt)⟩

end Direct

/-! ## Transfers of registers (R480) -/

section Transfers

variable {s : State}

theorem exec_i3cPrivateWrite_of_deaf (h : s.dev.i3cTakes = false) (bytes : List (BitVec 8)) : exec (.i3cPrivateWrite bytes) s = .next (s.withDev Dev.i3cNack) :=
  congrArg Host.Outcome.next (if_pos (ne_true_of_eq_false h))

theorem exec_i3cPrivateRead_of_deaf (h : s.dev.i3cTakes = false ∨ s.dev.i3cServes (BitVec.ofNat 32 s.dev.mgmt.readAddr) = false) (words : BitVec 7) :
    exec (.i3cPrivateRead words) s = .next (s.withDev Dev.i3cNack) :=
  congrArg Host.Outcome.next (if_pos (h.imp ne_true_of_eq_false ne_true_of_eq_false))

/-- The place of the next register read replaced. -/
def Dev.readMoved (d : Dev) (n : Nat) : Dev := { d with mgmt.readAddr := n }

/-- A write of fewer than four bytes is an error of its frame alone. -/
theorem exec_i3cPrivateWrite_of_short (h : s.dev.i3cTakes = true) {bytes : List (BitVec 8)} (hmod : bytes.length % 4 ≠ 0) (hlen : bytes.length < 4) :
    exec (.i3cPrivateWrite bytes) s = .next (s.withDev fun d => (d.i3cOut []).wr F.FOOT_I3C_STATUS_FRAME_ERROR 1) := by
  refine Eq.trans (b := execI3cPrivateWrite bytes s) rfl ?_
  rw [execI3cPrivateWrite, if_neg (not_not_intro h)]
  dsimp only
  rw [List.length_map, if_pos (Or.inl hlen)]
  exact congrArg Host.Outcome.next (State.withDev_congr (if_pos (Or.inl hmod)))

/-- A write of an address alone sets where a read begins. -/
theorem exec_i3cPrivateWrite_of_address (h : s.dev.i3cTakes = true) {bytes : List (BitVec 8)} (hlen : bytes.length = 4)
    (haddr : natOfBytes (bytes.map (·.toNat)) % 4 = 0) : exec (.i3cPrivateWrite bytes) s =
      .next (s.withDev fun d => (d.i3cOut []).readMoved (natOfBytes (bytes.map (·.toNat)))) := by
  have htake : (bytes.map (·.toNat)).take 4 = bytes.map (·.toNat) := List.take_of_length_le (Nat.le_of_eq (by rw [List.length_map, hlen]))
  refine Eq.trans (b := execI3cPrivateWrite bytes s) rfl ?_
  rw [execI3cPrivateWrite, if_neg (not_not_intro h)]
  dsimp only
  rw [htake, List.length_map, hlen, if_neg (by simp [haddr]), if_pos (by decide)]
  refine congrArg Host.Outcome.next ?_
  rw [State.withDev_withDev]
  refine State.withDev_congr ?_
  rw [if_neg (by simp [haddr])]
  rfl

/-- A word read where no register lies. -/
theorem i3cRead_of_empty (hserves : s.dev.i3cServes (BitVec.ofNat 32 s.dev.mgmt.readAddr) = true) (hnone : regAt (BitVec.ofNat 32 s.dev.mgmt.readAddr) = none) :
    s.i3cRead 1 [] = ([0, 0, 0, 0], s.withDev fun d => d.readMoved (((BitVec.ofNat 32 s.dev.mgmt.readAddr).toNat + 4) % 2 ^ 32)) := by
  have hzero : bytesOfNat 4 0 = [0, 0, 0, 0] := by decide
  have hread : s.readAddr (BitVec.ofNat 32 s.dev.mgmt.readAddr) = (0, s) := by rw [State.readAddr, hnone]
  rw [State.i3cRead]
  dsimp only
  rw [if_neg (not_not_intro hserves), hread, State.i3cRead, List.nil_append, hzero]
  rfl

theorem exec_i3cPrivateRead_of_empty (h : s.dev.i3cTakes = true) (hserves : s.dev.i3cServes (BitVec.ofNat 32 s.dev.mgmt.readAddr) = true)
    (hnone : regAt (BitVec.ofNat 32 s.dev.mgmt.readAddr) = none) : exec (.i3cPrivateRead 1) s = .next (s.withDev fun d =>
      (d.readMoved (((BitVec.ofNat 32 s.dev.mgmt.readAddr).toNat + 4) % 2 ^ 32)).i3cOut [0, 0, 0, 0]) := by
  have htaken : ¬ (¬ s.dev.i3cTakes = true ∨ ¬ s.dev.i3cServes (BitVec.ofNat 32 s.dev.mgmt.readAddr) = true) := by simp [h, hserves]
  refine Eq.trans (b := execI3cPrivateRead 1 s) rfl ?_
  rw [execI3cPrivateRead, if_neg htaken, show (1 : BitVec 7).toNat = 1 from rfl, i3cRead_of_empty hserves hnone]
  rfl

end Transfers

/-- Settles O58: a broadcast by whether the target is there, a direct CCC by its address, a register transfer by its length. -/
theorem i3cTargetAnswers : Obligations.I3cTargetAnswers := by
  unfold Obligations.I3cTargetAnswers
  intro s address events action length words bytes there has addr sends nacks answers
  refine ⟨fun haway c hc => ?_, fun haway c hc => ?_, fun hthere => ⟨fun hnew => entdaa_names hthere hnew address, fun hnamed => entdaa_known hthere hnamed address,
      rstdaa_forgets hthere, ibi_switches (exec_enec events) hthere (by decide), ibi_switches (exec_disec events) hthere (by decide), setmrl_limits hthere length,
      setmwl_limits hthere length, rstact_acts hthere action⟩,
    fun hthere haddr => ⟨setnewda_names hthere haddr address, direct_answers exec_getpid hthere haddr rfl ⟨rfl, rfl⟩,
      direct_answers exec_getbcr hthere haddr rfl ⟨rfl, rfl⟩, direct_answers exec_getdcr hthere haddr rfl ⟨rfl, rfl⟩,
      direct_answers exec_getmrl hthere haddr rfl ⟨rfl, rfl⟩, direct_answers exec_getmwl hthere haddr rfl ⟨rfl, rfl⟩,
      ⟨_, direct_answers exec_getstatus hthere haddr rfl ⟨rfl, rfl⟩⟩, ⟨_, direct_answers exec_getmxds hthere haddr rfl ⟨rfl, rfl⟩⟩⟩,
    fun hdeaf => ⟨nacks_of (exec_i3cPrivateWrite_of_deaf hdeaf bytes), nacks_of (exec_i3cPrivateRead_of_deaf (Or.inl hdeaf) words)⟩,
    fun htakes => ⟨fun hmod hlen => ⟨_, exec_i3cPrivateWrite_of_short htakes hmod hlen,
        State.frame_of_keeps ((Dev.keeps_i3cOut s.dev [] _).trans (Dev.keeps_wr (by simp) 1)), Dev.rd_wr_same _ _ 1⟩,
      fun hlen haddr => ⟨_, exec_i3cPrivateWrite_of_address htakes hlen haddr, State.frame_of_keeps (Dev.keeps_of_fields rfl), rfl⟩,
      fun hserves => nacks_of (exec_i3cPrivateRead_of_deaf (Or.inr hserves) words),
      fun hserves hnone => ⟨_, exec_i3cPrivateRead_of_empty htakes hserves hnone, State.frame_of_keeps (Dev.keeps_of_fields rfl), ⟨rfl, rfl⟩, ?_⟩⟩⟩
  · simp only [List.mem_cons, List.not_mem_nil, or_false] at hc
    obtain rfl | rfl | rfl | rfl | rfl | rfl | rfl := hc
    · exact broadcast_unheard (exec_entdaa address) haway
    · exact broadcast_unheard exec_rstdaa haway
    · exact broadcast_unheard (exec_enec events) haway
    · exact broadcast_unheard (exec_disec events) haway
    · exact broadcast_unheard (exec_setmrl length) haway
    · exact broadcast_unheard (exec_setmwl length) haway
    · exact broadcast_unheard (exec_rstact action) haway
  · simp only [List.mem_cons, List.not_mem_nil, or_false] at hc
    obtain rfl | rfl | rfl | rfl | rfl | rfl | rfl | rfl := hc
    · exact direct_nacks (exec_setnewda address) haway
    · exact direct_nacks exec_getpid haway
    · exact direct_nacks exec_getbcr haway
    · exact direct_nacks exec_getdcr haway
    · exact direct_nacks exec_getstatus haway
    · exact direct_nacks exec_getmrl haway
    · exact direct_nacks exec_getmwl haway
    · exact direct_nacks exec_getmxds haway
  · rw [State.withDev_dev]
    exact congrArg (fun n => (n + 4) % 2 ^ 32) (BitVec.toNat_ofNat s.dev.mgmt.readAddr 32)

end Sys2Proof.Machine
end

section
/-!
Flaud, the mailbox, OPEN, and the registrar's takeover (R348, R351, R477 to R490, Table 20.3).
-/

namespace Sys2Proof.Machine

open Sys2Proof

/-! ## A Flaud request of a link (R351, R482) -/

section Request

variable {s : State} {link : Fin 256} {tag : BitVec 12} {body : LineData}

/-- The message of a Flaud operation. -/
def flaudMsg (tag : BitVec 12) (body : LineData) (op : Fin 4) : Msg := { op := 0x07, tag := tag.toNat, data := withOp body (op.val + 1) }

theorem exec_flaud (op : Fin 4) : exec (if op = 0 then Instr.flaudRead link tag body else if op = 1 then .flaudWrite link tag body
    else if op = 2 then .flaudModify link tag body else .flaudEcho link tag body) s = .next (s.flaudReq link (flaudMsg tag body op)) :=
  match op with
  | 0 => rfl
  | 1 => rfl
  | 2 => rfl
  | 3 => rfl

variable (op : Fin 4)

theorem State.flaudReq_of_down (h : s.dev.linkUp link = false) : s.flaudReq link (flaudMsg tag body op) = s := if_pos (ne_true_of_eq_false h)

theorem State.flaudReq_of_peer (hup : s.dev.linkUp link = true) (hpeer : s.dev.peerPort (link / 4) = true) :
    s.flaudReq link (flaudMsg tag body op) = s.withDev fun d => d.badMessage link 0 := (if_neg (not_not_intro hup)).trans (if_pos hpeer)

/-- A request of a patron on a link that it is not bound to: STATUS 1, and its last fault. -/
def Dev.flaudUnbound (d : Dev) (link tag p : Nat) : Dev :=
  ((d.reply link { op := 0x13, status := 1, tag := tag }).wr (F.PATRON_STATUS_LAST_TF p) 1).count 0x0407 (p % 8 / 2) (some p)

variable (hup : s.dev.linkUp link = true) (hpeer : s.dev.peerPort (link / 4) = false)
include hup hpeer

omit op in
theorem State.flaudReq_of_unbound {m : Msg} (hbound : s.bound link m.patron = false) : s.flaudReq link m =
    s.withDev fun d => (d.flaudUnbound link m.tag m.patron).raise .patronNotBound (Src.link (link / 4) (link % 4)) :=
  (if_neg (not_not_intro hup)).trans ((if_neg (ne_true_of_eq_false hpeer)).trans (if_pos (ne_true_of_eq_false hbound)))

variable (hbound : s.bound link 0 = true) (hactive : s.dev.flag (F.PATRON_STATUS_ACTIVE 0) = true)
include hbound hactive

/-- A request of an active patron 0 on its link passes the port's checks. -/
theorem State.flaudReq_of_open : s.flaudReq link (flaudMsg tag body op) =
    if s.dev.flt.takeover then s.withDev fun d => { d with mgmt.heldFlaud := d.mgmt.heldFlaud ++ [(link.val, flaudMsg tag body op)] }
    else s.flaudGo link (flaudMsg tag body op) :=
  (if_neg (not_not_intro hup)).trans ((if_neg (ne_true_of_eq_false hpeer)).trans
    ((if_neg (show ¬ ¬ s.bound link (flaudMsg tag body op).patron = true from not_not_intro hbound)).trans
      ((if_neg (show ¬ ¬ s.dev.flag (F.PATRON_STATUS_ACTIVE (flaudMsg tag body op).patron) = true from not_not_intro hactive)).trans rfl)))

end Request

section Replies

variable {s : State} {link : Fin 256}

theorem Dev.flaudUnbound_eq {d : Dev} (hoff : d.countersOff = true) {l : Nat} (hup : d.linkUp l = true) (tag : Nat) :
    d.flaudUnbound l tag 0 = (d.send l { op := 0x13, status := 1, tag := tag }).wr (F.PATRON_STATUS_LAST_TF 0) 1 := by
  rw [Dev.flaudUnbound, Dev.reply_of_up hup]
  exact Dev.count_of_countersOff (d := (d.send l { op := 0x13, status := 1, tag := tag }).wr (F.PATRON_STATUS_LAST_TF 0) 1) hoff _ _ _

/-- The answer to a request on a link that patron 0 is not bound to. -/
theorem flaud_unbound (hoff : s.dev.countersOff = true) (hup : s.dev.linkUp link = true) (tag : Nat) :
    s.frame (s.withDev fun d => (d.flaudUnbound link tag 0).raise .patronNotBound (Src.link (link / 4) (link % 4))) [F.PATRON_STATUS_LAST_TF 0] ∧
    ((s.dev.flaudUnbound link tag 0).raise .patronNotBound (Src.link (link / 4) (link % 4))).out =
      s.dev.out ++ [(link.val, { op := 0x13, status := 1, tag := tag })] := by
  have heq := Dev.flaudUnbound_eq hoff hup tag
  constructor
  · refine State.frame_of_keeps ?_
    rw [heq]
    exact Dev.Keeps.trans (e := (s.dev.send link { op := 0x13, status := 1, tag := tag }).wr (F.PATRON_STATUS_LAST_TF 0) 1)
      (Dev.Keeps.trans (e := s.dev.send link { op := 0x13, status := 1, tag := tag }) (Dev.keeps_of_fields rfl) (Dev.keeps_wr (by simp) 1))
      (Dev.keeps_of_fields rfl)
  · rw [heq]
    rfl

theorem flaud_peer (hoff : s.dev.countersOff = true) : s.frame (s.withDev fun d => d.badMessage link 0) [] ∧ (s.dev.badMessage link 0).out = s.dev.out ∧
    (s.dev.badMessage link 0).raised.length = s.dev.raised.length + 1 := by
  obtain ⟨hframe, hraised⟩ := State.dropped_badMessage (link := link) hoff
  refine ⟨hframe, ?_, hraised⟩
  rw [Dev.badMessage_eq hoff]
  rfl

end Replies

/-! ## A body performed (R483, R484, R485) -/

section Run

variable (s : State) (flaud : Bool) (mbox : State → State) (b : List Nat)

theorem State.flaudRun_of_bad (h : flaudBad b = true) : s.flaudRun flaud mbox b = { s := s, status := 3 } := if_pos h

/-- The words of a body. -/
def flaudWord (b : List Nat) (k : Nat) : Nat := natOfBytes ((b.drop (16 + 4 * k)).take 4)

/-- An ECHO returns its words. -/
theorem State.flaudRun_of_echo (h : flaudBad b = false) (hop : b.getD 0 0 = 4) : s.flaudRun flaud mbox b =
    { s := s, done := b.getD 1 0, out := (List.range 12).map fun k => (k, flaudWord b k) } := by
  refine (if_neg (ne_true_of_eq_false h)).trans ?_
  rw [hop]
  rfl

theorem slotAt_map {α : Type} (f : Nat → α) (l : List Nat) {k : Nat} (hk : k ∈ l) : slotAt (l.map fun k => (k, f k)) k = some (f k) := by
  induction l with
  | nil => exact absurd hk List.not_mem_nil
  | cons j l ih =>
    rw [List.map_cons, slotAt_cons]
    split
    · next h => rw [h]
    · next h => exact ih ((List.mem_cons.mp hk).resolve_left fun heq => h heq.symm)

/-- GO with DONE set has no effect. -/
theorem exec_devMboxGo_of_done (h : s.dev.rd F.DEV_MBOX_CTL_DONE ≠ 0) : exec .devMboxGo s = .next s := by
  refine congrArg Host.Outcome.next (if_pos ?_)
  rw [Dev.flag_eq]
  exact decide_eq_true h

theorem exec_devMboxGo_of_clear (h : s.dev.rd F.DEV_MBOX_CTL_DONE = 0) : exec .devMboxGo s = .next s.mailbox := by
  refine congrArg Host.Outcome.next (if_neg ?_)
  rw [Dev.flag_eq, h]
  decide

/-- The mailbox's answer ends with DONE. -/
theorem State.mailbox_done : s.mailbox.dev.rd F.DEV_MBOX_CTL_DONE = 1 := by
  rw [State.mailbox]
  exact Dev.rd_wr_same _ _ 1

end Run

/-! ## OPEN (R494) -/

section Open

variable {s : State}

/-- The code of an OPEN. -/
def State.openCode (s : State) : Nat := firstCode (s.dev.commonChecks .opened ++ s.openChecks)

/-- An OPEN answered with its code. -/
def Dev.openAnswered (d : Dev) (code : Nat) : Dev := d.verdict .opened 0 code [] F.DEV_CTL_OPEN (decide (code = 0))

/-- The bindings with patron 0 left to one port. -/
def keeperBinding (m : SMap Nat) (port : Nat) : SMap Nat := m.filter (fun kv => kv.1 % 4096 ≠ 0 || kv.1 / 4096 = port)

/-- The bindings replaced. -/
def Dev.withBinding (d : Dev) (m : SMap Nat) : Dev := { d with binding := m }

/-- A device that has been opened. -/
def State.opened (s : State) (d : Dev) : State :=
  { s with layout := { s.layout with locked := true }, dev := (d.wr F.DEV_STATUS_STATE 2).withBinding (keeperBinding d.binding s.layout.keeperPort) }

theorem exec_devOpen_of_open (h : s.dev.rd F.DEV_CTL_OPEN ≠ 0) : exec .devOpen s = .next s := by
  refine congrArg Host.Outcome.next (if_pos ?_)
  rw [Dev.flag_eq]
  exact decide_eq_true h

theorem exec_devOpen_of_closed (h : s.dev.rd F.DEV_CTL_OPEN = 0) : exec .devOpen s =
    .next (if ¬ decide (s.openCode = 0) = true then s.withDev fun d => d.openAnswered s.openCode else s.opened (s.dev.openAnswered s.openCode)) := by
  refine congrArg Host.Outcome.next ((if_neg ?_).trans rfl)
  rw [Dev.flag_eq, h]
  decide

/-- The registers of an OPEN's answer. -/
def openFields : List Field := F.DEV_CTL_OPEN :: reasonFields

theorem Dev.keeps_openAnswered (d : Dev) (code : Nat) : d.Keeps openFields (d.openAnswered code) :=
  (Dev.keeps_verdict d .opened 0 code [] F.DEV_CTL_OPEN _).mono (by simp [openFields])

theorem Dev.rd_openAnswered (d : Dev) (code : Nat) : (d.openAnswered code).rd F.DEV_CTL_OPEN = (decide (code = 0)).toNat ∧
    (d.openAnswered code).rd F.DEV_REASON_CODE = code % 256 :=
  ⟨(Dev.rd_verdict_bit d .opened 0 code [] F.DEV_CTL_OPEN _).trans (toNat_mod_two _), Dev.rd_verdict_code d .opened 0 code [] F.DEV_CTL_OPEN _ (by decide) (by simp)⟩

theorem devOpen_refused (h : s.dev.rd F.DEV_CTL_OPEN = 0) (hcode : s.openCode ≠ 0) (hlt : s.openCode < 256) : ∃ t, exec .devOpen s = .next t ∧
    s.frame t openFields ∧ t.dev.rd F.DEV_CTL_OPEN = 0 ∧ t.dev.rd F.DEV_REASON_CODE = s.openCode := by
  obtain ⟨hopen, hreason⟩ := Dev.rd_openAnswered s.dev s.openCode
  rw [decide_eq_false hcode] at hopen
  exact ⟨_, (exec_devOpen_of_closed h).trans (congrArg Host.Outcome.next (if_pos (by simpa using hcode))), State.frame_of_keeps (Dev.keeps_openAnswered s.dev _),
    hopen, hreason.trans (Nat.mod_eq_of_lt hlt)⟩

theorem Dev.rd_withBinding (d : Dev) (m : SMap Nat) (f : Field) : (d.withBinding m).rd f = d.rd f := rfl

theorem devOpen_opens (h : s.dev.rd F.DEV_CTL_OPEN = 0) (hcode : s.openCode = 0) : ∃ t, exec .devOpen s = .next t ∧
    t.layout = { s.layout with locked := true } ∧ t.mem = s.mem ∧ t.dev.rd F.DEV_CTL_OPEN = 1 ∧ t.dev.rd F.DEV_STATUS_STATE = 2 ∧
    (∀ f : Field, f.key ∉ (F.DEV_CTL_OPEN :: F.DEV_STATUS_STATE :: reasonFields).map Field.key → t.dev.rd f = s.dev.rd f) ∧
    ∀ kv ∈ t.dev.binding, kv.1 % 4096 = 0 → kv.1 / 4096 = s.layout.keeperPort := by
  obtain ⟨hopen, -⟩ := Dev.rd_openAnswered s.dev s.openCode
  rw [decide_eq_true hcode] at hopen
  have hkeeps : s.dev.Keeps (F.DEV_CTL_OPEN :: F.DEV_STATUS_STATE :: reasonFields) ((s.dev.openAnswered s.openCode).wr F.DEV_STATUS_STATE 2) :=
    ((Dev.keeps_openAnswered s.dev _).mono (by decide)).trans (Dev.keeps_wr (by decide) 2)
  refine ⟨s.opened (s.dev.openAnswered s.openCode), (exec_devOpen_of_closed h).trans (congrArg Host.Outcome.next (if_neg (by simpa using hcode))), rfl, rfl,
    (Dev.rd_withBinding _ _ _).trans ((Dev.rd_wr_ne _ (by decide) 2).trans hopen), (Dev.rd_withBinding _ _ _).trans (Dev.rd_wr_same _ _ 2),
    fun f hf => (Dev.rd_withBinding _ _ _).trans (hkeeps f hf), fun kv hkv hzero => ?_⟩
  simpa [hzero] using (List.mem_filter.mp hkv).2

end Open

/-! ## The registrar's takeover (R489, R490) -/

section Takeover

variable {s : State}

theorem exec_devRegSwap : exec .devRegSwap s = s.next Dev.regSwap := rfl

theorem exec_devRegSwap_of_unready (h : s.dev.rd F.DEV_REG_STANDBY_READY = 0) : exec .devRegSwap s = .next s := by
  refine exec_devRegSwap.trans (State.next_of_same (if_neg ?_))
  rw [Dev.flag_eq, h]
  decide

theorem exec_devRegSwap_of_ready (h : s.dev.rd F.DEV_REG_STANDBY_READY ≠ 0) : exec .devRegSwap s = .next (s.withDev Dev.takeoverTrigger) := by
  refine exec_devRegSwap.trans (State.next_congr (if_pos ?_))
  rw [Dev.flag_eq]
  exact decide_eq_true h

/-- What a takeover's end writes. -/
def standbyWrites (new : Nat) : List (Field × Nat) := [(F.DEV_REG_ACTIVE, new), (F.DEV_REG_STANDBY_READY, 0)]

theorem standbyKeys_nodup : ([F.DEV_REG_ACTIVE, F.DEV_REG_STANDBY_READY].map Field.key).Nodup := by decide

/-- The standby made the active registrar, its old one under test. -/
def Dev.standbyTaken (d : Dev) (new : Nat) : Dev :=
  ((({ d with flt.takeover := false, flt.testing := true } : Dev).bump F.DEV_REG_TAKEOVERS).wrs (standbyWrites new)).alert F.FOOT_I3C_ALERT_TAKEOVER

/-- The events that waited classified. -/
def State.heldEvents (s : State) : State := (List.range s.dev.raised.length).foldl (fun s _ => s.takeRaised) s

/-- The Flaud requests that waited performed. -/
def State.heldRequests (s : State) : State :=
  s.dev.mgmt.heldFlaud.foldl (fun s x => s.flaudGo x.1 x.2) (s.withDev fun d => { d with mgmt.heldFlaud := [] })

theorem exec_takeoverComplete_of_none (h : s.dev.flt.takeover = false) : exec .takeoverComplete s = .next s :=
  congrArg Host.Outcome.next (if_pos (ne_true_of_eq_false h))

theorem exec_takeoverComplete (h : s.dev.flt.takeover = true) : exec .takeoverComplete s =
    .next ((s.withDev fun d => d.standbyTaken (1 - s.dev.rd F.DEV_REG_ACTIVE)).catRetry.pumpJobs.heldEvents.heldRequests.withDev fun d =>
      d.raise .registrarTakeover (Src.registrar (1 - s.dev.rd F.DEV_REG_ACTIVE))) := congrArg Host.Outcome.next (if_neg (not_not_intro h))

theorem Dev.standbyTaken_kept {β : Type} (g : Dev → β) (hg : ∀ (e : Dev) m q i, g { e with fields := m, flt := q, mgmt := i } = g e) (d : Dev) (new : Nat) :
    g (d.standbyTaken new) = g d := by
  have hwrs := Dev.wrs_kept g (fun e m => hg e m e.flt e.mgmt)
  rw [Dev.standbyTaken, Dev.alert_kept g (fun e m i => hg e m e.flt i), hwrs, Dev.bump_eq, Dev.wr]
  exact (hg _ _ _ _).trans (hg d d.fields _ d.mgmt)

theorem Dev.alert_heldFlaud (d : Dev) (f : Field) : (d.alert f).mgmt.heldFlaud = d.mgmt.heldFlaud := by
  rw [Dev.alert]
  split
  · rfl
  · dsimp only
    split <;> rfl

theorem Dev.standbyTaken_heldFlaud (d : Dev) (new : Nat) : (d.standbyTaken new).mgmt.heldFlaud = d.mgmt.heldFlaud := by
  rw [Dev.standbyTaken, Dev.alert_heldFlaud]
  exact congrArg MgmtSt.heldFlaud ((Dev.wrs_kept Dev.mgmt (fun _ _ => rfl) _ _).trans rfl)

theorem Dev.standbyTaken_flt (d : Dev) (new : Nat) : (d.standbyTaken new).flt = { d.flt with takeover := false, testing := true } := by
  rw [Dev.standbyTaken, Dev.alert_kept Dev.flt fun _ _ _ => rfl]
  exact (Dev.wrs_kept Dev.flt (fun _ _ => rfl) _ _).trans rfl

theorem Dev.rd_standbyTaken_active (d : Dev) {new : Nat} (h : new < 2) : (d.standbyTaken new).rd F.DEV_REG_ACTIVE = new :=
  (Dev.keeps_alert _ _ _ (by decide)).trans ((Dev.rd_wrs_of_mem _ (l := standbyWrites new) standbyKeys_nodup List.mem_cons_self).trans (Nat.mod_eq_of_lt h))

theorem State.catRetry_of_idle (hcat : s.dev.cat = none) (hwaits : s.dev.cardWaits = []) : s.catRetry = s := by
  have hstep : s.catStep = s := by rw [State.catStep, hcat]
  rw [State.catRetry, hstep, hwaits]
  exact State.withDev_eq_self (congrArg (fun l => { s.dev with cardWaits := l }) hwaits.symm)

theorem State.pumpJobs_of_idle (hpending : s.dev.reshelvePending = none) (hjobs : s.dev.jobs = []) : s.pumpJobs = s := by
  rw [State.pumpJobs, hpending]
  dsimp only
  rw [hjobs]
  rfl

theorem State.heldEvents_of_none (h : s.dev.raised = []) : s.heldEvents = s := by
  rw [State.heldEvents, h]
  rfl

theorem State.heldRequests_of_none (h : s.dev.mgmt.heldFlaud = []) : s.heldRequests = s := by
  rw [State.heldRequests, h]
  exact State.withDev_eq_self (congrArg (fun l => { s.dev with mgmt.heldFlaud := l }) h.symm)

/-- A takeover ended with nothing waiting. -/
theorem takeoverComplete_ends (h : s.dev.flt.takeover = true) (hcat : s.dev.cat = none) (hwaits : s.dev.cardWaits = []) (hjobs : s.dev.jobs = [])
    (hraised : s.dev.raised = []) (hheld : s.dev.mgmt.heldFlaud = []) (hpending : s.dev.reshelvePending = none) :
    ∃ t, exec .takeoverComplete s = .next t ∧ t.dev.rd F.DEV_REG_ACTIVE = 1 - s.dev.rd F.DEV_REG_ACTIVE ∧ t.dev.flt.takeover = false ∧
      t.dev.flt.testing = true ∧ t.mem = s.mem := by
  have hkept := fun {β : Type} (g : Dev → β) hg => Dev.standbyTaken_kept g hg s.dev (1 - s.dev.rd F.DEV_REG_ACTIVE)
  have hflt := Dev.standbyTaken_flt s.dev (1 - s.dev.rd F.DEV_REG_ACTIVE)
  refine ⟨(s.withDev fun d => d.standbyTaken (1 - s.dev.rd F.DEV_REG_ACTIVE)).withDev fun d =>
    d.raise .registrarTakeover (Src.registrar (1 - s.dev.rd F.DEV_REG_ACTIVE)), ?_,
    Dev.rd_standbyTaken_active s.dev (by omega), congrArg FaultSt.takeover hflt, congrArg FaultSt.testing hflt, rfl⟩
  rw [exec_takeoverComplete h, State.catRetry_of_idle, State.pumpJobs_of_idle, State.heldEvents_of_none, State.heldRequests_of_none]
  · exact (Dev.standbyTaken_heldFlaud _ _).trans hheld
  · exact (hkept Dev.raised fun _ _ _ _ => rfl).trans hraised
  · exact (hkept Dev.reshelvePending fun _ _ _ _ => rfl).trans hpending
  · exact (hkept Dev.jobs fun _ _ _ _ => rfl).trans hjobs
  · exact (hkept Dev.cat fun _ _ _ _ => rfl).trans hcat
  · exact (hkept Dev.cardWaits fun _ _ _ _ => rfl).trans hwaits

/-- The old active registrar's test begun or ended. -/
def Dev.registrarTested (d : Dev) : Dev := { d with flt.testing := false }

theorem exec_standbySelfTestDone_of_none {pass : Bool} (h : s.dev.flt.testing = false) : exec (.standbySelfTestDone pass) s = .next s :=
  congrArg Host.Outcome.next (if_pos (ne_true_of_eq_false h))

theorem exec_standbySelfTestDone {pass : Bool} (h : s.dev.flt.testing = true) : exec (.standbySelfTestDone pass) s =
    .next (if pass then (s.withDev Dev.registrarTested).withDev fun d => d.wr F.DEV_REG_STANDBY_READY 1
      else (s.withDev Dev.registrarTested).containRegistrar (1 - s.dev.rd F.DEV_REG_ACTIVE)) := congrArg Host.Outcome.next (if_neg (not_not_intro h))

end Takeover

/-- Settles O59: a request by the checks of its port, an ECHO and a malformed body by the run, OPEN and the takeover by their equations. -/
theorem flaudIsPerformed : Obligations.FlaudIsPerformed := by
  unfold Obligations.FlaudIsPerformed
  intro s link tag body hoff up open0 reasons code
  refine ⟨fun op => ?_, fun flaud mbox b h => s.flaudRun_of_bad flaud mbox b h, fun flaud mbox b h hop => ?_, exec_devMboxGo_of_done s,
    fun h => ⟨_, exec_devMboxGo_of_clear s h, s.mailbox_done⟩, exec_devOpen_of_open, fun h => ⟨devOpen_refused h, devOpen_opens h⟩, exec_devRegSwap_of_unready,
    exec_devRegSwap_of_ready, exec_takeoverComplete_of_none,
    fun h hcat hwaits _ hjobs hraised hheld _ hpending _ => takeoverComplete_ends h hcat hwaits hjobs hraised hheld hpending,
    fun pass h => exec_standbySelfTestDone_of_none h, fun h => ⟨⟨_, exec_standbySelfTestDone (pass := true) h, ?_, Dev.rd_wr_same _ _ 1, rfl⟩,
      exec_standbySelfTestDone (pass := false) h⟩⟩
  · intro c m
    rw [show exec c s = _ from exec_flaud op]
    refine ⟨fun h => congrArg Host.Outcome.next (State.flaudReq_of_down op h),
      fun h hpeer => ⟨_, congrArg Host.Outcome.next (State.flaudReq_of_peer op h hpeer), flaud_peer hoff⟩, fun ⟨hup, hpeer⟩ hbound => ?_,
      fun ⟨hup, hpeer⟩ ⟨hbound, hactive⟩ h => ?_, fun ⟨hup, hpeer⟩ ⟨hbound, hactive⟩ h => ?_⟩
    · exact ⟨_, congrArg Host.Outcome.next (State.flaudReq_of_unbound (m := flaudMsg tag body op) hup hpeer hbound),
        flaud_unbound hoff hup tag.toNat⟩
    · exact ⟨_, congrArg Host.Outcome.next ((State.flaudReq_of_open op hup hpeer hbound hactive).trans (if_pos h)),
        State.frame_of_keeps (Dev.keeps_of_fields rfl), rfl⟩
    · exact congrArg Host.Outcome.next ((State.flaudReq_of_open op hup hpeer hbound hactive).trans (if_neg (ne_true_of_eq_false h)))
  · rw [s.flaudRun_of_echo flaud mbox b h hop]
    exact ⟨rfl, rfl, rfl, fun k hk => slotAt_map (flaudWord b) (List.range 12) (List.mem_range.mpr hk)⟩
  · exact State.frame_of_keeps (f := fun d => d.registrarTested.wr F.DEV_REG_STANDBY_READY 1)
      (Dev.Keeps.trans (e := s.dev.registrarTested) (Dev.keeps_of_fields rfl) (Dev.keeps_wr (by simp) 1))

end Sys2Proof.Machine
end
